-- ==== Sys2Proof/Word.lean ====
section
/-! DEFINITION. The word types of the module: 32-bit registers (19 R478) and bytes. -/
namespace Sys2Proof

/-- A set-up register: every register is 32 bits wide (19 R478). -/
abbrev Word := BitVec 32

/-- A byte. -/
abbrev Byte := BitVec 8

end Sys2Proof
end

