-- ==== Sys2Proof/Syntax.lean ====
section
/-! DEFINITION. The commands the module takes from outside: one constructor per row of spec/opcode_table.json, with the
row's operands, and the shapes of those operands. A command says that the event its row names has come about; its
operands are what the outside world brings with it: a measured value, the contents of a frame, a descriptor. -/
namespace Sys2Proof

/-- What ACI carries (01 R31): the head plug's steady level, or a valid address frame with a value 1 to 64
(held as the value less one). -/
inductive Aci where
  | head
  | frame (valueLessOne : Fin 64)
  deriving DecidableEq, Repr

/-- One end of a cell ring (00 R18). -/
inductive End where
  | a
  | b
  deriving DecidableEq, Repr

/-- A submission descriptor as it stands in host memory (14 Table 14.3): its 64 bytes, those a list does not give being 0; the data it
points to, the signature trailer included; whether that data can be read, and whether the trailer's signature verifies with the key of
its slot. -/
structure RawDesc where
  bytes : List Byte
  data  : List Byte
  dmaOk : Bool
  sigOk : Bool
  deriving DecidableEq, Repr

/-- The same with its fields read. `reserved` is the lowest descriptor byte with a reserved bit that is not 0 (bytes 4 to 7 and 56 to 63;
byte 3's are in `flags`). -/
structure Desc where
  cmdId    : BitVec 16
  opcode   : Byte
  flags    : Byte
  reserved : Option Nat
  dataAddr : Nat
  dataLen  : Nat
  respLen  : Nat
  respAddr : Nat
  arg      : List Byte
  data     : List Byte
  dmaOk    : Bool
  sigOk    : Bool
  deriving DecidableEq, Repr

/-- A command without its queue: what two twins compare and forward (14 R370): the opcode, the ARG bytes and the data
(less any signature trailer). -/
structure Cmd where
  opcode : Byte
  arg    : List Byte
  data   : List Byte
  deriving DecidableEq, Repr

/-- An identity record of a DISCOVER frame, in the order of hops from its end. -/
structure Found where
  /-- 1 cell station, 2 current station, 0 other -/
  kind   : Nat
  hw     : Nat
  fw     : Word
  serial : BitVec 64
  /-- rated current in A (a current station's, 12 R304) -/
  rated  : Nat
  deriving DecidableEq, Repr

/-- A receiver's identity record (08 Table 8.8): type (2202 for an NGV-2202), revision, firmware version, serial number. -/
structure Ident where
  kind     : Nat
  revision : Nat
  version  : Word
  serial   : BitVec 64
  deriving DecidableEq, Repr

/-- The companion parts' firmware that an image names (18 R456, Table 18.4): the preferred versions of NGV-1016, NGV-1002 and NGV-2202,
and the compatible ones as part number and version. -/
structure PartFw where
  station  : Word
  current  : Word
  receiver : Word
  compat   : List (Nat × Word)
  deriving DecidableEq, Repr

/-- What a checked image says beside its version (18 R456, Table 18.4): the highest behaviour level and the parts' firmware. -/
structure ImageHead where
  highest : Byte
  parts   : PartFw
  deriving DecidableEq, Repr

/-- One canary round as it is read (02 R43): by engine, the worst canary's slack and the lap sums in nanoseconds. -/
structure CanaryRound where
  worst : List Nat
  laps  : List Nat
  deriving DecidableEq, Repr

/-- What a pair time message says of its sender's time (03 R72, Table 3.6): the offset, whether it is traceable, and the refused state. -/
structure LeadTime where
  offset    : Int
  traceable : Bool
  refused   : Bool
  deriving DecidableEq, Repr

/-- One sample of the dual-channel inputs as a safety engine's own input circuit reads it (12 R308, R312): bit n: channel closed. -/
structure SafetySample where
  si1   : BitVec 16
  si2   : BitVec 16
  loop1 : BitVec 2
  loop2 : BitVec 2
  deriving DecidableEq, Repr

/-- A word or line found uncorrectable (02 Table 2.10b): in core-die SRAM, owned by an engine or by none, at a byte address; in working
memory, in a region of AC0/AC1 (false) or AC2/AC3 (true); in MRAM, in a region as EV_NVM_UNCORRECTABLE numbers them, at a byte offset,
and which item of the region it holds (image, slot, engine or bank). -/
inductive BadWord where
  | sram (owner : Option (Fin 23)) (addr : Nat)
  | working (ledgerPair : Bool)
  | mram (region : Fin 8) (addr item : Nat)
  deriving DecidableEq, Repr

/-- One input in an INPUTS frame (16 Tables 16.2, 16.3): the DIO levels of a grid instant; the MT readings; the output digest of the grid
interval that ended at an instant; a CAN arrival: port, object, end of frame, event time of the start of frame, data; a Modbus reply:
entry, instant and registers. -/
inductive PairInput where
  | dio (g : Nat) (pins : BitVec 16)
  | mt (readings : List (Option Int))
  | digest (g : Nat) (value : Word)
  | can (p o end_ sof : Nat) (data : List Byte)
  | modbus (e at_ : Nat) (regs : List Nat)
  deriving DecidableEq, Repr

/-- The header of a frame from the partner (16 Table 16.1): the link it came on, its flags, its number. -/
structure PairHead where
  link      : Fin 2
  inService : Bool
  solo      : Bool
  leader    : Bool
  leaving   : Bool
  catching  : Bool
  pseq      : Word
  deriving DecidableEq, Repr

/-- The commands, one per row of the table. -/
inductive Instr where
  /-- ACI_ADDRESS_FRAME (R31): A valid address frame or the head level arrives on ACI and the module takes or checks its chain address. -/
  | aciAddressFrame (a : Aci)
  /-- ACO_SEND (R31): Every 100 ms an addressed module sends its address plus one on ACO. -/
  | acoSend
  /-- ACI_LOST (R32): ACI has carried no valid frame or head level for 350 ms; the address is kept, flagged stale, and EV_CHAIN_BREAK is recorded. -/
  | aciLost
  /-- ADDRESS (R33): The signed host command assigns a chain address to an unaddressed module and stores it as stale. -/
  | address (q : Fin 32)
  /-- CANARY_ROUND (R43): Every 100 ms the warden times each canary and computes each engine's corrected slack. -/
  | canaryRound (round : CanaryRound)
  /-- REPLAN_MONTHLY (R45): 30 days after the last monthly plan, the warden re-plans and may lower the Heather supply by at most 10 mV. -/
  | replanMonthly
  /-- SLACK_HISTORY_WRITE (R44): Once a day the warden writes one slack history record to MRAM. -/
  | slackHistoryWrite
  /-- DEADLINE_MISS (R42): An engine's periodic work has not completed by its deadline, which is an engine fault. -/
  | deadlineMiss (e : Fin 23) (completion : Nat)
  /-- COMPARED_PAIR_DISAGREE (R41): The two cores of a compared pair disagree at an instruction retirement, which is an engine fault. -/
  | comparedPairDisagree (ledgerPair : Bool)
  /-- RESIDUE_MISMATCH (R57): A residue check fails; the engine retries the instruction once, and a second failure is an engine fault. -/
  | residueMismatch (e : Fin 23) (again : Bool)
  /-- RESIDUE_RETRY_REPORT (R57): Once per minute each engine with a non-zero retry count records EV_RESIDUE_RETRY. -/
  | residueRetryReport
  /-- SCRUB_PASS (R58): A scrub pass of one memory array reads every word and writes back corrected words. -/
  | scrubPass (array : Fin 3) (corrected : Nat)
  /-- ECC_UNCORRECTABLE (R58): An uncorrectable word or line is found and treated by the rule of its array. -/
  | eccUncorrectable (w : BadWord)
  /-- ECC_CORRECTED_REPORT (R58): Once per hour each array with a non-zero correction count records EV_ECC_CORRECTED. -/
  | eccCorrectedReport
  /-- ENGINE_RELOAD_DONE (R60): A faulted engine finishes reloading and restarts as Table 2.11 states. -/
  | engineReloadDone (e : Fin 23)
  /-- PROFILE_COMMIT_EXPIRED (R56): A profile selection committed in one twin alone is not matched within 10 s and expires with EV_PROFILE_REFUSED. -/
  | profileCommitExpired
  /-- OSC_FAIL (R68): The missing-pulse detector finds the OCXO lost; the module records EV_OSC_FAIL and withdraws or takes the safe state. -/
  | oscFail
  /-- OSC_BACKUP_SWITCH (R68): 100 µs after OCXO loss, the tick continues on the on-die backup oscillator. -/
  | oscBackupSwitch
  /-- PTP_SYNC (R80): A Sync message arrives and, with its timestamps, yields an offset that the servo slews or the jump test judges. -/
  | ptpSync (ep : Fin 3) (domain : Nat) (seq : BitVec 16) (twoStep : Bool) (ingress origin correction : Int)
  /-- PTP_FOLLOW_UP (R80): A two-step master's Follow_Up arrives and completes the offset measurement. -/
  | ptpFollowUp (ep : Fin 3) (domain : Nat) (seq : BitVec 16) (origin correction : Int)
  /-- PTP_ANNOUNCE (R83): An Announce message arrives and feeds BMCA; a change of grandmaster records EV_TIME_SOURCE_CHANGED. -/
  | ptpAnnounce (ep : Fin 3) (domain : Nat) (selected other : Option (BitVec 64)) (utc : Int) (leap61 leap59 utcValid : Bool)
  /-- PTP_DELAY_REQ_SEND (R77): The module sends a Delay_Req or Pdelay_Req with its one-step origin timestamp. -/
  | ptpDelayReqSend (ep : Fin 3)
  /-- PTP_DELAY_RESP (R77): A Delay_Resp or Pdelay_Resp arrives and updates the mean path delay. -/
  | ptpDelayResp (ep : Fin 3) (seq : BitVec 16) (t1 t2 t3 t4 : Int)
  /-- PTP_PDELAY_REQ (R77): A Pdelay_Req arrives and the module answers with a one-step Pdelay_Resp. -/
  | ptpPdelayReq (ep : Fin 3) (domain : Nat) (seq : BitVec 16) (ingress : Int)
  /-- ANNOUNCE_TIMEOUT (R82): No valid Announce arrives from the grandmaster for announceReceiptTimeout intervals with no other master, so the module enters holdover. -/
  | announceTimeout
  /-- PTP_PORT_SWITCH (R78): EP0 has carried no valid Sync for 3 intervals and the servo switches to EP1. -/
  | ptpPortSwitch
  /-- PTP_PORT_SWITCH_BACK (R78): After 60 s of valid Sync on EP0 the servo switches back to EP0. -/
  | ptpPortSwitchBack
  /-- START_WAIT_EXPIRY (R84): TIME_CFG.START_WAIT ends with no source, so the module runs on from the checkpoint time, flagged untraceable. -/
  | startWaitExpiry
  /-- TIME_STEP (R85): The signed step command changes the step offset at the next cycle boundary once both twins have accepted it. -/
  | timeStep (q : Fin 32)
  /-- TIME_RESUME (R85): The signed resume command ends the refused state, and the servo slews the present offset away. -/
  | timeResume (q : Fin 32)
  /-- TIME_SET (R85): The signed set command changes the step offset so that system time equals the given event time. -/
  | timeSet (q : Fin 32)
  /-- TIME_CMD_EXPIRED (R87): A time command given to one twin alone expires after 10 s with EV_TIME_STEP_EXPIRED. -/
  | timeCmdExpired
  /-- TIME_STATUS (R64): The host command returns the event time, grandmaster, TIME_STAT, UTC offset, leap flags and step offset. -/
  | timeStatus (q : Fin 32)
  /-- PAIR_TIME_MESSAGE (R72): A timestamped pair-link time message arrives, and the follower steers its fine counter to the leader. -/
  | pairTimeMessage (link : Fin 2) (diff stepOffset : Int) (lead : LeadTime) (cfgSame : Bool)
  /-- PAIR_TIME_SEND (R72): Every 1 ms each twin sends a timestamped time message on each pair link. -/
  | pairTimeSend (link : Fin 2)
  /-- EVT_NOW_LO_READ (R478): A read of EVT_NOW.LO at its own offset latches HI. -/
  | evtNowLoRead
  /-- LEDGER_LSEQ_LO_READ (R478): A read of LEDGER_LSEQ.LO at its own offset latches HI. -/
  | ledgerLseqLoRead
  /-- CFG_CTIME_LO_READ (R478): A read of CFG_CTIME.LO at its own offset latches HI. -/
  | cfgCtimeLoRead
  /-- RING_STAT_READ (R478): A read of RING_STATn at its own offset clears CRC_ERR. -/
  | ringStatRead (r : Fin 8)
  /-- ETH_STAT_READ (R478): A read of ETH_STATn at its own offset clears DROPS. -/
  | ethStatRead (n : Fin 4)
  /-- CAN_STAT_READ (R478): A read of CAN_STATn at its own offset clears LOST and OVERRUN. -/
  | canStatRead (n : Fin 6)
  /-- SB_STAT_READ (R478): A read of SB_STATn at its own offset clears LATE and FAILED. -/
  | sbStatRead (n : Fin 4)
  /-- CFG_PEND_READ (R478): A read of CFG_PEND at its own offset clears DISCARDS. -/
  | cfgPendRead
  /-- GRID_INSTANT (R94): At every 250 µs grid instant each end launches a SWEEP or PILOT frame with its commands, time word and presence token. -/
  | gridInstant (fgi : Int) (dio : BitVec 16)
  /-- RETURN_TIMEOUT (R106): No SWEEP start has reached the far end by launch plus RET_TIMEOUT, so that end launches a reverse SWEEP. -/
  | returnTimeout (r : Fin 8)
  /-- RING_FRAME_RECEIVED (R107): A SWEEP, PILOT or CATCHUP frame arrives at a module end; its slots, segments and token are taken and breaks are detected. -/
  | ringFrameReceived (r : Fin 8) (e : End) (bytes : List Byte) (cut : Bool)
  /-- COLLECTION_DEADLINE (R95): At g + 240 µs the sweep's data are complete, missing results become owed, and the engines start their sweep work. -/
  | collectionDeadline
  /-- CATCHUP_LAUNCH (R108): In spare time an end launches a CATCHUP frame for owed results, oldest first. -/
  | catchupLaunch (r : Fin 8) (e : End)
  /-- LOSS_OF_SIGNAL (R89): A module ring port receives no valid code group for 1 µs and declares loss of signal. -/
  | lossOfSignal (r : Fin 8) (e : End)
  /-- LOSS_OF_SIGNAL_CLEARED (R89): A port clears loss of signal after 1,000 consecutive valid code groups. -/
  | lossOfSignalCleared (r : Fin 8) (e : End)
  /-- RING_PRESENCE_TIMEOUT (R102): No valid partner token has arrived on any ring within TOKEN_MS, so the ring presence path is lost. -/
  | ringPresenceTimeout
  /-- RING_RESTORE (R110): After 1 s of whole unwrapped crossings, a degraded ring returns to normal at the next 4 ms sweep; EV_RING_RESTORED is recorded. -/
  | ringRestore (r : Fin 8)
  /-- RING_START (R103): At module start each mapped ring is discovered, checked against the map, loaded with firmware, configured and locked. -/
  | ringStart (r : Fin 8)
  /-- DISCOVER_RECEIVED (R103): A DISCOVER frame returns with identity records and hop counts, and positions are derived and checked. -/
  | discoverReceived (r : Fin 8) (from_ : End) (whole : Bool) (recs : List Found)
  /-- RING_START_DONE (R103): A ring's stations are locked and its first SWEEP follows at the next 4 ms grid instant. -/
  | ringStartDone (r : Fin 8)
  /-- STATION_FW_LOAD_DONE (R5): Writing firmware to the stations or receivers whose versions differ completes. -/
  | stationFwLoadDone (gate : Bool) (n : Fin 8) (version : Word)
  /-- STATION_FW_SLOT_CHANGE (R456): A running station changes to the preferred firmware slot between two named grid instants. -/
  | stationFwSlotChange (k : Fin 34)
  /-- DELAY_MEASURE (R105): Once per second per position, the leader's end sends a DELAY frame in spare time. -/
  | delayMeasure (k : Fin 34)
  /-- DELAY_RECEIVED (R105): A DELAY frame returns; the delay to the position is computed and written to the station by CONFIG. -/
  | delayReceived (k : Fin 34) (roundTrip total outward : Nat)
  /-- RING_CMD_COUNT_CHECK (R100): Every second the module checks the command counts of each station and records EV_RING_CMD_COUNT on failure. -/
  | ringCmdCountCheck (second : Nat)
  /-- STATION_LOST (R111): Primary results are missing in DROP + 1 consecutive sweeps; the station is lost, with substitutes and the error task. -/
  | stationLost (k : Fin 34)
  /-- STATION_SEC_LOST (R111): Secondary results are missing in DROP + 1 consecutive sweeps; EV_STATION_SEC_LOST is recorded. -/
  | stationSecLost (k : Fin 34)
  /-- STATION_RETURNED (R114): A lost station's primary results arrive valid in DROP + 1 sweeps; it returns and its state is reissued. -/
  | stationReturned (k : Fin 34)
  /-- STATION_SEC_RETURNED (R111): Secondary results arrive valid in DROP + 1 sweeps; EV_STATION_SEC_RETURNED is recorded. -/
  | stationSecReturned (k : Fin 34)
  /-- IDENTIFICATION_MESSAGE (R191): A side-channel identification message arrives whole; a new start count marks a station restart. -/
  | identificationMessage (k : Fin 34) (startCount : Nat) (serial : BitVec 64)
  /-- LOCKIN_RESULT_MESSAGE (R172): A side-channel lock-in result arrives whole for one tone of a segment. -/
  | lockinResultMessage (k : Fin 34)
  /-- OPEN_WIRE_RESULT_MESSAGE (R129): A side-channel open-wire result arrives whole, with node shifts and verdicts. -/
  | openWireResultMessage (k : Fin 32)
  /-- BALANCING_COUNTERS_MESSAGE (R190): A balancing charge counter message arrives whole and the ledger books balancing entries. -/
  | balancingCountersMessage (k : Fin 32)
  /-- CALIBRATION_RECORD_MESSAGE (R120): A calibration record arrives at the end of a round; a reference drift records EV_CAL_DRIFT. -/
  | calibrationRecordMessage (k : Fin 32) (diff : Int)
  /-- STATION_EVENT_MESSAGE (R97): A side-channel station event message arrives whole and is acknowledged. -/
  | stationEventMessage (k : Fin 34)
  /-- CAL_STEP_ISSUE (R119): Every 2 s during a round the module issues the next CAL_STEP to a station. -/
  | calStepIssue (k : Fin 32)
  /-- CURRENT_COMPARE (R123): Every second the primary and fluxgate means are compared and the third opinion decides which path is wrong. -/
  | currentCompare (second : Nat)
  /-- CURRENT_JUDGEMENT_END (R123): After 60 s of agreement a path judgement ends. -/
  | currentJudgementEnd
  /-- SUM_MISMATCH (R124): The station sum differs from its stack in 10 consecutive sweeps; EV_SUM_MISMATCH is recorded and an end-tap test ordered. -/
  | sumMismatch (k : Fin 32) (chain : Fin 2)
  /-- MEAS_COMPARE (R125): Every second each cell's primary and secondary means are compared. -/
  | measCompare (second : Nat)
  /-- UNUSED_CHANNEL (R118): An unused channel reads outside ±5 mV for 10 sweeps; EV_UNUSED_CHANNEL is recorded. -/
  | unusedChannel (k : Fin 32) (c : Fin 16)
  /-- OW_ROUND (R127): At a station's round time the module issues OW_START for its even-numbered inputs. -/
  | owRound (k : Fin 32)
  /-- OW_ODD_START (R127): 40 ms after the even inputs, the module tests the odd-numbered inputs. -/
  | owOddStart (k : Fin 32)
  /-- OW_RETEST (R128): 1 s after an inconclusive shift the tap is tested again, up to three times. -/
  | owRetest (k : Fin 32) (t : Fin 17)
  /-- OW_SUSPICION_TEST (R127): Within 100 ms of a suspicion, the tap concerned is tested by itself, at most once per second. -/
  | owSuspicionTest (k : Fin 32) (t : Fin 17)
  /-- BAL_DECISION (R137): At each whole second while at rest in voltage mode, candidates are chosen and stopped against the reference. -/
  | balDecision (second : Nat)
  /-- BAL_CHARGE_UPDATE (R138): Every 60 s in charge mode, each cell's excess charge is taken from the estimator and targets are fixed. -/
  | balChargeUpdate
  /-- BAL_CHANNEL_TIMEOUT (R137): A channel that has run 2 h without a decision stops. -/
  | balChannelTimeout (c : Fin 512)
  /-- ESTIMATE_RELEASE (R150): A sweep's estimates are released at g + 240 µs + one sweep period. -/
  | estimateRelease
  /-- ESTIMATOR_CHECKPOINT (R155): At each whole second the estimators checkpoint to working memory and the saved restart state, and hand over correction charge. -/
  | estimatorCheckpoint (second : Nat)
  /-- EST_BLOCK_SEND (R162): Every OUT_INT ms each estimator engine sends one estimator block on the telemetry stream. -/
  | estBlockSend
  /-- IMP_RUN_START (R164): At a scheduled start an impedance run begins, or is skipped with EV_IMP_SKIPPED. -/
  | impRunStart (requested : Bool)
  /-- IMP_RUN (R165): The host requests an impedance run at the next whole multiple of 180 s. -/
  | impRun (q : Fin 32)
  /-- IMP_SEGMENT_START (R166): LE2 fixes a segment's tone set and peak and arms every station with LOCKIN_SET. -/
  | impSegmentStart
  /-- IMP_HEADROOM_RETEST (R167): A segment waiting for its peak re-tests every second, and abandons the run after 60 s. -/
  | impHeadroomRetest
  /-- IMP_WINDOW_END (R173): A measurement window ends and the module judges it, sending any discard before it becomes final. -/
  | impWindowEnd
  /-- SPECTRUM_SEND (R180): After a run's end, spectra are assembled, fitted and sent as records, and outliers and classifications run. -/
  | spectrumSend
  /-- LEDGER_SECOND (R194): At whole second W the balances are frozen, adjustments are booked and the checkpoint image write begins. -/
  | ledgerSecond
  /-- LEDGER_IMAGE_WRITTEN (R195): The image of second W is in MRAM, and that second's records are released to the ledger stream. -/
  | ledgerImageWritten
  /-- SUPPLY_LOSS (R200): The supply stays below 27 V for 1 ms; outputs de-energise, gates stop, the last sweep is booked and a final image is written. -/
  | supplyLoss (image copies header : Bool) (written : Nat)
  /-- LEDGER_GAP_BOOKING (R201): After a start, the gap since the last booked instant is booked as a path or unobserved entry. -/
  | ledgerGapBooking
  /-- LEDGER_NOTE (R206): The host command books a marker entry of code 0x0002 with its note. -/
  | ledgerNote (q : Fin 32)
  /-- LEDGER_REPLAY (R196): The host command replays ledger records from the record store by LSEQ. -/
  | ledgerReplay (q : Fin 32)
  /-- BASE_PERIOD (R237): At each base period LE0 and LE1 step the string reference and budget drains advance. -/
  | basePeriod
  /-- LOAD_STEP_CHECK (R250): 3.0 µs into each base period the step detector compares r with the sum of phase currents and may abort a shed. -/
  | loadStepCheck
  /-- EDGE_RELEASE (R210): The EDGE frame of a phase period is released 4.0 µs before its start on each link. -/
  | edgeRelease (p : Fin 16)
  /-- GATE_STATUS_RECEIVED (R217): A receiver STATUS frame arrives with phase current, bus voltage, temperatures and flags. -/
  | gateStatusReceived (l : Fin 8) (bytes : List Byte) (flight : Int)
  /-- LINK_LOSS (R221): No STATUS arrives from a receiver for 8 consecutive phase periods, a class 3 trip. -/
  | linkLoss (l : Fin 8)
  /-- STATUS_CUTOFF (R243): At the EDGE release minus 3 µs a missing STATUS makes the loop use its own prediction. -/
  | statusCutoff (p : Fin 16)
  /-- RECEIVER_IDENT (R223): An IDENT frame arrives at link start and the receiver's type and roles are checked. The role seen on inputs 1
  and 2: 0 none, 1 senior, 2 junior. -/
  | receiverIdent (l : Fin 8) (i : Ident) (seen1 seen2 : Nat)
  /-- LINK_START (R223): Each link in use is started: IDENT, firmware, configuration, lock and ARM. -/
  | linkStart
  /-- GATE_DELAY_UPDATE (R218): Every 1 s each twin writes its averaged input delay to each receiver by CONFIG. -/
  | gateDelayUpdate (second : Nat)
  /-- STAGE_ENABLE (R224): The enable command starts the stage from ARMED into START_DELAY if its conditions hold. -/
  | stageEnable (q : Fin 32)
  /-- STAGE_DISABLE (R226): The disable command stops the stage through STOP_DELAY and STOP_RAMP. -/
  | stageDisable (q : Fin 32)
  /-- STAGE_TRIP_COMMAND (R221): The trip command causes a class 11 stage trip. -/
  | stageTripCommand (q : Fin 32)
  /-- STAGE_TRIP_RESET (R222): The trip reset command, accepted 1 s after a trip, sends ARM with CLEAR to every receiver. -/
  | stageTripReset (q : Fin 32)
  /-- START_DELAY_END (R226): STAGE_START.DELAY passes; the stage enters RAMP with RESTART frames and r set to the measured current. -/
  | startDelayEnd
  /-- STOP_DELAY_END (R226): STAGE_STOP.DELAY passes and the stage enters STOP_RAMP. -/
  | stopDelayEnd
  /-- STOP_RAMP_END (R226): The ramp reaches zero; phases turn off, STOP and then ARM are sent, and the stage returns to ARMED. -/
  | stopRampEnd
  /-- STAGE_STOP_FORCED (R225): 100 ms after the stop ramp's nominal end the phases are turned off anyway. -/
  | stageStopForced
  /-- ARM_TIMEOUT (R226): A receiver has not reported ARMED within 100 ms of the ARM, a class 3 link loss. -/
  | armTimeout
  /-- TELEM_WINDOW_END (R227): At the end of each telemetry window one averaged telemetry record is sent. -/
  | telemWindowEnd
  /-- PEAK_READ (R227): The host command returns the held peaks and valleys and re-arms them at the next cycle boundary. -/
  | peakRead (q : Fin 32)
  /-- FAULT_CAPTURE_DONE (R228): 256 periods after a trip the capture is complete and its record write to MRAM begins. -/
  | faultCaptureDone
  /-- FAULT_RECORD_WRITTEN (R228): A last-fault record is written to its slot with its header check last, and FAULT_STAT is updated. -/
  | faultRecordWritten
  /-- FAULT_READ (R228): The host command returns one last-fault record and may clear its NEW bit. -/
  | faultRead (q : Fin 32)
  /-- TARGET_RELEASE (R232): LE2 releases the new ramp target at g + 240 µs + one sweep period. -/
  | targetRelease
  /-- SHED_START (R248): the magnitude of r has stayed below the shed level for 1 s, and the highest link in service begins its fade. -/
  | shedStart
  /-- SHED_DWELL_END (R250): DWELL passes after a load-step abort and shedding is allowed again. -/
  | shedDwellEnd
  /-- DIAG_ARM (R254): The diagnostic command arms a trace or injection capture on one loop engine. -/
  | diagArm (q : Fin 32)
  /-- DIAG_START (R255): The diagnostic command starts an injection, in both twins together for an injection. -/
  | diagStart (q : Fin 32)
  /-- DIAG_ABORT (R255): The diagnostic command aborts a capture, which ends with its abort flag. -/
  | diagAbort (q : Fin 32)
  /-- DIAG_TRIGGER (R255): The trigger condition of an armed trace is met and capture proceeds to fill the memory. -/
  | diagTrigger (e : Fin 4)
  /-- DIAG_CAPTURE_DONE (R257): A capture fills its memory and is delivered as 16 records on the trace stream. -/
  | diagCaptureDone (e : Fin 4)
  /-- DIAG_EXPIRED (R256): An injection start given to one twin alone expires after 10 s. -/
  | diagExpired
  /-- THERMAL_ROUND (R258): Every 10 ms LE3 forms zone temperatures, steps, forbidden directions, trips, substitutes and cooling duties. -/
  | thermalRound (pins : List (Option Int)) (tach : List Nat)
  /-- THERMAL_ACK (R272): The host command lets validated core temperatures stand in for a failed thermistor. -/
  | thermalAck (q : Fin 32)
  /-- THERMAL_ACK_EXPIRED (R272): A thermal acknowledgement given to one twin alone expires after 10 s. -/
  | thermalAckExpired
  /-- DIE_SAMPLE (R277): Every 1 ms the die temperature is taken from the four sensors, and the hot events and write bar are judged. -/
  | dieSample (r0 r1 r2 r3 : Int)
  /-- DIE_WRITE_WINDOW_END (R279): 2 ms after shutdown the write window ends and the core supply switches off. -/
  | dieWriteWindowEnd
  /-- DIE_COOL_RESTART (R279): After 60 s at or below 100 °C the module starts cold and records EV_DIE_SHUTDOWN. -/
  | dieCoolRestart
  /-- CURRENT_SETPOINT (R284): A dispatch command of KIND 1 sets the current set-point. -/
  | currentSetpoint (q : Fin 32)
  /-- POWER_SETPOINT (R284): A dispatch command of KIND 2 sets the power set-point. -/
  | powerSetpoint (q : Fin 32)
  /-- VOLTAGE_SETPOINT (R234): A dispatch command of KIND 3 sets the bus voltage target. -/
  | voltageSetpoint (q : Fin 32)
  /-- CURRENT_BUDGET (R290): A dispatch command of KIND 4 replaces the source's current budget. -/
  | currentBudget (q : Fin 32)
  /-- POWER_BUDGET (R290): A dispatch command of KIND 5 replaces the source's power budget. -/
  | powerBudget (q : Fin 32)
  /-- REFRESH (R287): A dispatch command of KIND 6 restarts the hold timer. -/
  | refresh (q : Fin 32)
  /-- DISPATCH_AT_REACHED (R284): An accepted dispatch command takes effect at the first collection deadline at or after its AT. -/
  | dispatchAtReached
  /-- SETPOINT_EXPIRED (R287): The hold timer expires, and the set-point expires and the active source may change. -/
  | setpointExpired
  /-- ENVELOPE_COMPUTE (R292): At each whole second the available-power envelope is computed and sent by W + 20 ms. -/
  | envelopeCompute (second : Nat)
  /-- STATE_REPORT_SEND (R295): A state report is sent at each whole second and after changes of AVAIL or stage state. -/
  | stateReportSend
  /-- SAFETY_TICK (R297): At each 1 ms tick each safety engine samples safety inputs and loops and checks safety frames. -/
  | safetyTick (a b : SafetySample) (on : BitVec 8) (coil : Nat)
  /-- SAFETY_CROSS_LINK (R297): The other engine's confirmed demand arrives over the cross-link and this engine opens its switches within 0.5 ms. -/
  | safetyCrossLink (toB : Bool)
  /-- SWITCH_WATCHDOG_EXPIRY (R298): A switch gets no keep-alive for 1 ms and opens in hardware. -/
  | switchWatchdogExpiry (w : Fin 12)
  /-- FAST_OC_TRIP (R305): The FGI comparator trips and injects STOP on every link, a class 6 trip. -/
  | fastOcTrip (charge : Bool)
  /-- SO_TEST_PULSE (R316): A switch of an energised output is switched off for its test pulse and read back. -/
  | soTestPulse (o : Fin 4) (low readOff : Bool)
  /-- COIL_SUPPLY_LOW (R318): The coil supply stays below 16 V for 10 ms with a contactor energised; function 12 demands. -/
  | coilSupplyLow (coil : Nat)
  /-- CONTACTOR_FEEDBACK_TIMEOUT (R319): A feedback input fails to show its contactor closed or open within 100 ms. -/
  | contactorFeedbackTimeout (pre : Bool)
  /-- CONTACTOR_CLOSE (R315): The contactor command energises the precharge output and then the main contactor. -/
  | contactorClose (q : Fin 32)
  /-- CONTACTOR_OPEN (R315): The contactor command opens the contactors, disabling the stage first if it runs. -/
  | contactorOpen (q : Fin 32)
  /-- PRECHARGE_END (R315): After PRECHG × 10 ms the main contactor is energised. -/
  | prechargeEnd
  /-- PRECHARGE_RELEASE (R315): 50 ms after the main contactor, the precharge output is de-energised. -/
  | prechargeRelease
  /-- SAFETY_RESET (R322): The host's safety reset command ends the safe state at the next cycle boundary if every condition holds. -/
  | safetyReset (q : Fin 32)
  /-- RESET_INPUT (R322): A reset input returns to rest after 0.2 s to 3 s, and the safe state reset is judged. -/
  | resetInput (n : Fin 16)
  /-- SAFE_RESET_EXPIRED (R323): A host safety reset not received by both twins within 10 s expires. -/
  | safeResetExpired
  /-- SAFETY_FRAME_SEND (R326): A STATUS safety frame is sent after SF_PERIOD or at once on a change of word 0 or SAFE. -/
  | safetyFrameSend
  /-- SAFETY_FRAME_RECEIVED (R327): A safety frame arrives and each engine checks it in order and acts on a demand bit. -/
  | safetyFrameReceived (can : Bool) (bytes : List Byte)
  /-- SAFETY_FRAME_WATCHDOG (R329): No frame has been accepted from a producer for WDOG ms, so its function demands. -/
  | safetyFrameWatchdog (n : Fin 8)
  /-- SAFETY_CFG_EXPIRED (R331): Safety registers committed in one twin alone are not matched within 10 s and expire. -/
  | safetyCfgExpired
  /-- CYCLE_BOUNDARY (R333): At each base-cycle boundary committed changes and accepted commands take effect. -/
  | cycleBoundary
  /-- CYCLE_START (R335): A cyclic task's cycle starts: the input image is latched, then the error task if due and the cyclic task run. -/
  | cycleStart (e : Fin 8)
  /-- CYCLE_RELEASE (R335): At the cycle's end its output image, shared words and program events are released. -/
  | cycleRelease (e : Fin 8) (done : Nat)
  /-- EVENT_TASK_TRIGGER (R346): A DIO edge or CAN object arrival starts an event task at the next grid instant. -/
  | eventTaskTrigger (e : Fin 8) (n : Fin 4)
  /-- EVENT_TASK_RELEASE (R346): An event task's outputs are released at its start plus its minimum interval. -/
  | eventTaskRelease (e : Fin 8) (n : Fin 4)
  /-- SAVED_COPY_WRITE (R354): At every whole second each engine's saved copy is written. -/
  | savedCopyWrite (second : Nat)
  /-- BREAKPOINT_HIT (R350): An engine reaches its breakpoint and freezes; EV_PROG_HELD is recorded. -/
  | breakpointHit (e : Fin 8)
  /-- HOLD_EXPIRED (R352): A hold lasting HOLD_MAX minutes ends in STOP. -/
  | holdExpired (e : Fin 8)
  /-- PROGRAM_SWITCH (R359): The signed SWITCH arms a change to the idle bank at switch boundary B. -/
  | programSwitch (q : Fin 32)
  /-- PROGRAM_ROLLBACK (R364): The signed ROLLBACK switches back to the replaced image. -/
  | programRollback (q : Fin 32)
  /-- SWITCH_BOUNDARY (R360): At B the old cycles end, variables and instances carry over, and the new image starts after the gap. -/
  | switchBoundary
  /-- PROGRAM_RUN (R349): The signed RUN takes named engines from STOP to RUN, warm or cold. -/
  | programRun (q : Fin 32)
  /-- PROGRAM_STOP (R349): The signed STOP takes named engines to STOP with their stop values. -/
  | programStop (q : Fin 32)
  /-- PROGRAM_HOLD (R350): The signed HOLD arms a breakpoint. -/
  | programHold (q : Fin 32)
  /-- PROGRAM_STEP (R351): The signed STEP completes the held cycle and keeps the breakpoint armed. -/
  | programStep (q : Fin 32)
  /-- PROGRAM_RESUME (R351): The signed RESUME completes the held cycle and clears the breakpoint. -/
  | programResume (q : Fin 32)
  /-- FORCE_SET (R365): The signed FORCE_SET fixes a symbol to a value at the next cycle boundary. -/
  | forceSet (q : Fin 32)
  /-- FORCE_CLEAR (R365): The signed FORCE_CLEAR removes one force or all. -/
  | forceClear (q : Fin 32)
  /-- PROGRAM_READ (R367): READ returns the values of up to 64 symbols as of the last cycle end. -/
  | programRead (q : Fin 32)
  /-- HOST_WRITE (R336): HOST_WRITE sets up to 64 host words from the next cycle boundary. -/
  | hostWrite (q : Fin 32)
  /-- PROGRAM_CMD_EXPIRED (R368): A program operation given to one twin alone expires after 10 s. -/
  | programCmdExpired
  /-- PROGRAM_LOAD_CHUNK (R385): A chunk of a Gelfoel image arrives on the program load queue; the last chunk triggers the checks of R357. -/
  | programLoadChunk (q : Fin 32)
  /-- SQ_TAIL (R375): A write of the SQ_TAIL doorbell gives the queue new descriptors or stops it on an out-of-range value. -/
  | sqTail (q : Fin 32) (value width : Nat) (descs : List RawDesc)
  /-- CQ_HEAD (R375): A write of the CQ_HEAD doorbell releases completion entries. -/
  | cqHead (q : Fin 32) (value width : Nat)
  /-- STREAM_BUFFER_POST (R383): A descriptor with opcode 0x80 posts a stream buffer that waiting records fill. -/
  | streamBufferPost (q : Fin 32)
  /-- STREAM_FLUSH_TIMEOUT (R383): FLUSH ms after its first record a stream buffer completes. -/
  | streamFlushTimeout (q : Fin 32)
  /-- HOST_LINK_DOWN (R372): The PCIe link goes down; every queue stops with cause 3. -/
  | hostLinkDown
  /-- HOST_LINK_UP (R372): The PCIe link returns and EV_HOST_LINK is recorded. -/
  | hostLinkUp
  /-- FUNCTION_LEVEL_RESET (R372): A function-level reset stops every queue and acts as a DISCARD with pending snapshots dropped. -/
  | functionLevelReset
  /-- CREDIT_CHECK (R382): Every second the credit counts of each queue are checked. -/
  | creditCheck (second : Nat)
  /-- IRQ_GAP_END (R386): At the end of IRQ_GAP a completion written within the gap is signalled. -/
  | irqGapEnd (q : Fin 32)
  /-- CMD_EXPIRED (R370): A Both command accepted by one twin alone expires 10 s after acceptance. -/
  | cmdExpired
  /-- CFG_BLOCK_WRITE (R143): The host command stages an estimator model block, thermal map block or site configuration. -/
  | cfgBlockWrite (q : Fin 32)
  /-- CFG_BLOCK_READ (R143): The host command returns a staged or active block. -/
  | cfgBlockRead (q : Fin 32)
  /-- SLACK_READ (R44): The host command returns slack history records. -/
  | slackRead (q : Fin 32)
  /-- ARP_REQUEST (R389): An ARP request for the port's address is answered. -/
  | arpRequest (ep : Fin 4) (target : Nat)
  /-- ICMP_ECHO_REQUEST (R389): An ICMP echo request is answered with an echo reply. -/
  | icmpEchoRequest (ep : Fin 4) (target : Nat) (ident seq : BitVec 16) (data : List Byte)
  /-- PLANT_MESSAGE (R394): A plant UDP message arrives, is checked in order and answered by one ACK once it reaches check 4. -/
  | plantMessage (ep : Fin 4) (udp src : Nat) (rct : Option (Nat × BitVec 16)) (bytes : List Byte)
  /-- PRP_SUPERVISION_SEND (R391): Every LIFE interval a PRP supervision frame is sent. -/
  | prpSupervisionSend
  /-- PRP_LAN_DOWN (R392): No frame of a LAN has arrived for 3 × LIFE; EV_PRP_LAN_DOWN is recorded. -/
  | prpLanDown (lan : Fin 2)
  /-- PRP_LAN_UP (R392): The first frame of a down LAN arrives; EV_PRP_LAN_UP is recorded. -/
  | prpLanUp (lan : Fin 2)
  /-- CAN_FRAME_RECEIVED (R401): A CAN FD frame arrives and replaces a receive object's data or is a module-protocol frame. -/
  | canFrameReceived (p : Fin 6) (ext : Bool) (ident sof : Nat) (data : List Byte)
  /-- CAN_OBJECT_TIMEOUT (R401): A receive object has had no frame for PERIOD ms and is lost. -/
  | canObjectTimeout (p : Fin 6) (o : Fin 128)
  /-- CAN_PERIODIC_QUEUE (R400): A periodic transmit object is queued at a multiple of its PERIOD. -/
  | canPeriodicQueue (p : Fin 6) (o : Fin 128)
  /-- CAN_ANNOUNCE (R398): The announcement is queued once per second at the whole second plus address × 10 ms. -/
  | canAnnounce (p : Fin 6)
  /-- CAN_TX_ATTEMPT_END (R404): A transmission attempt ends in success or an error, and error counters and state move. -/
  | canTxAttemptEnd (p : Fin 6) (began : Nat) (err : Fin 7) (dominant : Bool)
  /-- CAN_RECOVERED (R404): After 128 occurrences of 11 recessive bits the controller is error-active again. -/
  | canRecovered (p : Fin 6)
  /-- MODBUS_POLL (R410): The entry due earliest starts its Modbus transaction. -/
  | modbusPoll (p : Fin 4)
  /-- MODBUS_REPLY (R411): A Modbus reply arrives and is checked and decoded. -/
  | modbusReply (p : Fin 4) (bytes : List Byte) (whole : Bool)
  /-- MODBUS_TIMEOUT (R411): No complete reply arrives within RESP, and the transaction is retried or fails. -/
  | modbusTimeout (p : Fin 4)
  /-- PAIR_SLOTS_FRAME (R419): A SLOTS frame from the partner delivers ring slots for agreement. -/
  | pairSlotsFrame (h : PairHead) (r : Fin 8) (e : End) (late : Bool) (first count grid receipt : Nat) (bytes : List Byte)
  /-- PAIR_STATUS_FRAME (R420): A forwarded gate-link STATUS arrives from the partner. -/
  | pairStatusFrame (h : PairHead) (l : Fin 8) (receipt : Nat) (bytes : List Byte)
  /-- PAIR_INPUTS_FRAME (R419): An INPUTS frame brings the partner's DIO, MT, CAN and Modbus inputs and output digest. -/
  | pairInputsFrame (h : PairHead) (items : List PairInput)
  /-- PAIR_COMMAND_FRAME (R421): A forwarded command or Both acceptance arrives from the partner. -/
  | pairCommandFrame (h : PairHead) (c : Cmd) (source : Fin 2) (accepted : Nat)
  /-- PAIR_SAFETY_FRAME (R324): The partner's safety frame arrives over the pair links; SAFE = 1 is a demand of function 10. -/
  | pairSafetyFrame (h : PairHead) (bytes : List Byte)
  /-- STATE_DIGEST (R416): At each whole second each twin computes its state digest and sends it at W + 10 ms. -/
  | stateDigest (second : Nat)
  /-- PAIR_DIGEST_FRAME (R438): The partner's DIGEST frame arrives and is compared; a difference withdraws the junior. -/
  | pairDigestFrame (h : PairHead) (second : Nat) (digest : Word) (permitted : List Bool) (ceiling : Nat) (unitCost : List Nat)
  /-- NOTICE_WITHDRAWING (R426): The partner's NOTICE withdrawing arrives and this twin becomes alone. -/
  | noticeWithdrawing (h : PairHead) (cause : Byte)
  /-- NOTICE_RESTARTING (R429): The partner's NOTICE restarting arrives and a catch-up snapshot is scheduled. -/
  | noticeRestarting (h : PairHead) (cause : Byte)
  /-- NOTICE_READY (R430): The partner's NOTICE ready arrives with re-entry instant E and is echoed. -/
  | noticeReady (h : PairHead) (reentry : Nat)
  /-- NOTICE_ECHO (R430): The partner's echo of E arrives. -/
  | noticeEcho (h : PairHead) (reentry : Nat)
  /-- NOTICE_RETIRED (R427): The partner's NOTICE retired arrives. -/
  | noticeRetired (h : PairHead) (cause : Byte)
  /-- PAIR_CATCHUP_FRAME (R429): A CATCHUP chunk of the snapshot arrives and is loaded. -/
  | pairCatchupFrame (h : PairHead) (item offset : Nat) (data : List Byte) (last : Bool)
  /-- PAIR_HEART_FRAME (R418): A HEART frame keeps a pair link in service. -/
  | pairHeartFrame (h : PairHead)
  /-- PAIR_LINK_TIMEOUT (R418): No good frame has arrived on a pair link within LINK_MS. -/
  | pairLinkTimeout (link : Fin 2)
  /-- LOOP_BRIDGE_CLOSED (R425): The loop bridges read closed and the withdrawing twin opens its loop switches. -/
  | loopBridgeClosed
  /-- CATCHUP_SNAPSHOT (R429): At the first whole second after NOTICE restarting the partner freezes a snapshot and sends it from W + 10 ms. -/
  | catchupSnapshot
  /-- REPLAY_DONE (R429): The restarting twin's replay reaches the present and it computes in step. -/
  | replayDone
  /-- REENTRY (R430): At E the rejoining twin releases its outputs and both twins are joined. -/
  | reentry
  /-- REENTRY_ECHO_TIMEOUT (R430): No echo has arrived 5 ms before E, so the twin names a later E. -/
  | reentryEchoTimeout
  /-- CATCHUP_TIMEOUT (R431): A catch-up has not made the twin exact within CATCH_S and restarts, failing after the third attempt. -/
  | catchupTimeout
  /-- CATCHUP_PROGRESS_SEND (R433): Every 100 ms and at each step change a catch-up progress record is sent. -/
  | catchupProgressSend
  /-- PARTNER_WAIT_TIMEOUT (R432): 10 s after its start sequence without either path, a twin enters service alone. -/
  | partnerWaitTimeout
  /-- PATHS_LOST (R434): Both paths to the partner are lost without a notice and the twin decides by its gate witness. -/
  | pathsLost
  /-- PATH_RECOVERED (R437): A path recovers and the solo twins compare time and state digests. -/
  | pathRecovered (offset : Int)
  /-- PORT_SELFTEST (R423): Every 10 s the warden tests the port circuits; a failure withdraws a twin or records EV_PORT_SELFTEST. -/
  | portSelftest (kind port : Byte) (ok : Bool)
  /-- COMMIT_EXPIRED (R415): A pair-register commit not matched in the other twin within 10 s expires. -/
  | commitExpired
  /-- RECORDER_WRITE (R440): A detected event is written to the next slot with its RSEQ, or held, overflowed or suppressed. -/
  | recorderWrite
  /-- RECORDER_RESUME (R442): Writes resume and the holding queue is written in order, followed by any overflow record. -/
  | recorderResume
  /-- RECORDER_COUNT_CHECK (R444): Every second the recorder checks its conservation equation. -/
  | recorderCountCheck (second : Nat)
  /-- CLEAR_REGISTER_POINTER (R446): Every second the write pointer in the clear register header is updated. -/
  | clearRegisterPointer (second : Nat)
  /-- FREEZE_TIMEOUT (R447): A holder's freeze ends after FREEZE_S seconds without a command from it. -/
  | freezeTimeout (svc : Bool)
  /-- RECORDER_READ (R448): READ returns held records from the first RSEQ named. -/
  | recorderRead (q : Fin 32)
  /-- RECORDER_FREEZE (R447): FREEZE stops all recorder writes for its holder. -/
  | recorderFreeze (q : Fin 32)
  /-- RECORDER_THAW (R447): THAW ends its holder's freeze. -/
  | recorderThaw (q : Fin 32)
  /-- RECORDER_CLEAR (R449): The signed CLEAR naming the last RSEQ writes a clear register entry and empties the recorder. -/
  | recorderClear (q : Fin 32)
  /-- CLEAR_REG (R448): CLEAR_REG returns the clear register header and entries. -/
  | clearReg (q : Fin 32)
  /-- CODES (R441): CODES returns the code table. -/
  | codes (q : Fin 32)
  /-- POWER_UP (R452): The supply stays at or above 29 V for 10 ms and the start sequence of Table 18.1 begins. -/
  | powerUp (oscOk : Bool)
  /-- IMAGE_CHECKED (R453): The loader finishes checking the flash image and the warden loads the safety engines and LE3. -/
  | imageChecked (version : Word) (image : ImageHead)
  /-- PAIR_WATCH_END (R455): After 500 ms of watching the pair links the module loads its engines or catches up. -/
  | pairWatchEnd (named : Fin 3)
  /-- ENTER_SERVICE (R453): The ring starts end and the module enters service, starting blind-time clocks and bridging the ledger gap. -/
  | enterService
  /-- CYCLE_RESTART_CHOICE (R355): Once time is set or the start wait ends, each cycle engine restarts warm, cold or in STOP. -/
  | cycleRestartChoice
  /-- SUPPLY_HIGH (R488): The supply stays above 80 V for 1 s; EV_SUPPLY_HIGH is recorded, then once per hour. -/
  | supplyHigh (tenths : Nat) (again : Bool)
  /-- SUPPLY_OVERVOLTAGE (R488): The supply stays above 86 V for more than 100 ms; the input switch opens as on supply loss. -/
  | supplyOvervoltage (image copies header : Bool) (written : Nat)
  /-- SUPPLY_RECONNECT (R488): The supply stays below 80 V for 1 s and the input switch reconnects. -/
  | supplyReconnect
  /-- FIRMWARE_LOAD_CHUNK (R463): A chunk of a firmware image arrives; the last one triggers the image checks. -/
  | firmwareLoadChunk (q : Fin 32) (sig : Bool)
  /-- INSTALL (R465): The signed INSTALL writes the staged image over the image slot. -/
  | install (q : Fin 32)
  /-- INSTALL_DONE (R465): The install finishes and EV_FW_INSTALLED is recorded. -/
  | installDone
  /-- ACTIVATE (R466): The signed ACTIVATE reloads engines from the new image, or in the pair withdraws with cause 10. -/
  | activate (q : Fin 32)
  /-- RESTART (R464): The signed RESTART starts the module again. -/
  | restart (q : Fin 32)
  /-- KEYS (R472): KEYS writes or revokes key slots in the one-time-programmable store. -/
  | keys (q : Fin 32)
  /-- PROBATION_END (R468): 25 s of service without an engine fault ends probation and records EV_FW_ACTIVATED. -/
  | probationEnd
  /-- ROM_RECOVERY (R469): A failed loader or image check, a failed first start or a service request starts ROM recovery. -/
  | romRecovery (cause : Fin 5)
  /-- SVC_MESSAGE (R477): A service port message arrives whole and its request is executed. -/
  | svcMessage (first tag check : Word) (body : List Byte) (sig : Bool)
  /-- CFG_COMMIT_GO (R479): A write of CFG_COMMIT with GO takes a snapshot of staged values and blocks. -/
  | cfgCommitGo (discard irq : Bool) (vector : Fin 64) (tag : BitVec 16)
  /-- CFG_COMMIT_DISCARD (R481): A write of CFG_COMMIT with DISCARD sets every staging copy to its active value and drops staged blocks. -/
  | cfgCommitDiscard
  /-- COMMIT_APPLY (R480): At the commit's cycle boundary the snapshot is checked and applied or refused. -/
  | commitApply
  /-- STAGED_REGISTER_WRITE (R478): A write to a register without a row of its own changes its staging copy or is discarded and counted. -/
  | stagedRegisterWrite (offset : BitVec 16) (value : Word) (width : Nat)
  /-- EXPOSURE_NOTICE (R498): The exposure window's age reaches 20 days and EV_EXPOSURE_NOTICE is recorded. -/
  | exposureNotice
  /-- EXPOSURE_EXCEEDED (R498): The age reaches 30 days, and again every 24 h after, with EV_EXPOSURE_EXCEEDED. -/
  | exposureExceeded
  /-- EXPOSURE_CLOSED (R498): The twins have stayed joined for 24 h and the window closes. -/
  | exposureClosed
  /-- WARDEN_WATCHDOG_EXPIRY (R60): The warden's hardware watchdog expires, both safety engines take the safe state and the whole module restarts cold. -/
  | wardenWatchdogExpiry
  /-- HOLDUP_MEASURED (R490): At each start, once the hold-up capacitor is charged, its 50 ms controlled discharge ends and the predicted hold-up sets MOD_STAT.HOLDUP_LOW and may record EV_HOLDUP_LOW. -/
  | holdupMeasured (tenths : Nat)
  /-- CONFIG_FRAME_RECEIVED (R104): A ring CONFIG frame carrying a block write, block read or configuration commit returns to a module end. -/
  | configFrameReceived (r : Fin 8) (e : End) (p kind : Nat) (good : Bool)
  /-- ACTIVATION_IMAGE_CHECKED (R466): During a single-configuration activation the warden finishes reading and checking the new image and begins reloading the engines. -/
  | activationImageChecked (image : ImageHead)
  /-- ACTIVATION_RELOAD_DONE (R466): The engines, AC0/AC1 and AC2/AC3 finish reloading from the new image and the margin plan is made again before the link start. -/
  | activationReloadDone
  /-- ETH_LINK_CHANGE (R389): An Ethernet port's link comes up or goes down after auto-negotiation, and ETH_STAT.LINK and GIG change. -/
  | ethLinkChange (ep : Fin 4) (up gig : Bool)
  /-- PRP_SUPERVISION_RECEIVED (R391): A PRP supervision frame from another node arrives and enters or refreshes that node in the 256-entry node table. -/
  | prpSupervisionReceived (lan : Fin 2) (mac : Nat)
  /-- PRP_NODE_AGED_OUT (R391): A node-table entry has not been refreshed for 60 s and is aged out. -/
  | prpNodeAgedOut
  /-- MODBUS_REQUEST_HEARD (R412): In the solo state the listening junior hears a Modbus request from the senior on a port, which restarts its silence timer for taking mastership. -/
  | modbusRequestHeard (p : Fin 4)
  deriving DecidableEq, Repr

end Sys2Proof
end

