-- ==== Sys2Proof/Decode.lean ====
section
/-! DEFINITION. Commands spelt by words. The table gives its rows no bits: a command here is an event at the module's pins, ports and
registers, and no word spells one. The binary formats the spec does give (descriptors, frames, records, images) are read by the meanings
that take them. -/
namespace Sys2Proof

/-- The command that a word spells by the table's bits: none, since no row has any. -/
def decodeTableWord (nbits w : Nat) : Option Instr :=
  match nbits, w with
  | _, _ => none

end Sys2Proof
end

