-- ==== Sys2Proof/Config.lean ====
section
/-! DEFINITION. What the spec leaves open, as constants with no body: nothing can evaluate them, so a claim holds for
every value they could have. Each is named in the assumption log. The ones that take a Nat first are applied to the
state's counter of free values. -/
namespace Sys2Proof.Config

/-- The servo's new increment deviation, before the bound of 03 R63, from the offset and the present deviation: the
control law is not given. -/
opaque servo : (offset present : Int) → Int

/-- The mean FGI voltage over a base period (08 Table 8.13, signal 40), µV: an analog input that no row of the table brings. -/
opaque fluxgateMean : Nat → Int

/-- The temperature coefficient of a canary fitted from 90 days of readings (02 R43), units of 0.01 %/K, before its bounds, from its lap sum
of the round. -/
opaque canaryCoef : Nat → (laps : Nat) → Nat

/-- The slack the supply model predicts (02 R53, Table 2.4): draw, profile, supply step; 0.01 %. -/
opaque planSlack : Nat → (profile step : Nat) → Int

/-- The engine with that slack. -/
opaque planEngine : Nat → (profile step : Nat) → Nat

/-- The cycle-program size ceiling and the unit costs of the plan (02 Table 2.4). -/
opaque planCeiling : Nat → Nat
opaque planUnitCost : Nat → (profile : Nat) → Nat

/-- The projected floor date, event time (02 R48); none: beyond 254 years. -/
opaque planFloor : Nat → Option Nat

/-- A quotient whose rounding the spec leaves to the behaviour level: the exact one rounded down, or the next above
where it is not exact and this says so. -/
opaque roundUp : (num den : Int) → Bool

/-- The same where the divisor is 0: the spec states no result (a bus or string voltage of 0). -/
opaque divZero : (num : Int) → Int

def quot (num den : Int) : Int :=
  if den = 0 then divZero num else num / den + (if num % den ≠ 0 && roundUp num den then 1 else 0)

/-- A quotient rounded to the nearest whole, ties up (08 R208, 09 R241). -/
def nearest (num den : Int) : Int := if den = 0 then divZero num else (2 * num + den) / (2 * den)

/-! ### Estimation (06): fixed point, rounding and tables are those of the behaviour level -/

/-- The tables of the behaviour level: exp and ln of a number in 10^-9, and the cosine of an angle in 10^-9 turns, all in 10^-9. -/
opaque expTable : Int → Int
opaque lnTable : Int → Int
opaque cosTable : (turns : Int) → Int

/-- Whether a square root that is not exact is rounded up. -/
opaque rootUp : Nat → Bool

end Sys2Proof.Config

namespace Sys2Proof.Machine

/-- The content of an estimator model block (Table 6.2): OCV tables by temperature (0, 25, 45 °C) in 0.1 mV; capacity in 0.1 Ah;
resistances in 0.1 µΩ; time constants in µs; K; J/K; mK/W; q_h in 0.1 %; noise as variances per second in 10^-18; allowance in µV rms. -/
structure ModelBlock where
  charge    : List (List Int)
  discharge : List (List Int)
  cap       : Int
  r0        : Int
  rct       : Int
  r2        : Int
  tau1      : Int
  tau2      : Int
  b0        : Int
  bct       : Int
  cth       : Int
  rth       : Int
  qh        : Int
  qSoc      : Int
  qV1       : Int
  qV2       : Int
  allow     : Nat
  deriving DecidableEq, Repr, Inhabited

end Sys2Proof.Machine

namespace Sys2Proof.Config

/-- What the bytes of a block hold, and whether its check value holds: the byte layout is not given. -/
opaque blockModel : (block : List Byte) → Sys2Proof.Machine.ModelBlock
opaque blockCheck : (block : List Byte) → Bool

/-- The built-in LFP block but for its capacity, which R143 states. -/
opaque builtinRest : Sys2Proof.Machine.ModelBlock

/-- What a cell starts from beside its block: soc, h, core temperature; the covariance and the other variances (also at a reseed). -/
opaque startSoc : Int
opaque startH : Int
opaque startCore : Int
opaque startCov : List Int
opaque startCapVar : Int
opaque startR0Var : Int
opaque startRctVar : Int
opaque startCoreVar : Int

/-- The OCV at a soc below 0 or above 1, its slope there, and the soc of a voltage beyond the tables: not stated. -/
opaque ocvBeyond : (soc edge : Int) → Int
opaque slopeBeyond : (soc : Int) → Int
opaque socBeyond : (volt : Int) → Int

/-- The cell current in mA of an interval whose charge is unknown (R147, R149: the core temperature and the update go on), by cell and
instant. -/
opaque unknownCurrent : (cell instant : Nat) → Int

/-- The variance of the core temperature after an interval in ns, the variances of cap after a pair of anchors (R159), of r0 and r_ct
after a fit (R177), of the core temperature at an isothermal moment and of a measurement of it (R161): not stated. -/
opaque coreVarGrow : (dt : Nat) → (var : Int) → Int
opaque capVarPair : (socSpan var : Int) → Int
opaque r0VarFit : (resid var : Int) → Int
opaque rctVarFit : (resid var : Int) → Int
opaque isoVar : Int
opaque fitCoreVar : (rct resid : Int) → Int

/-- alpha and l from which the first fit of a cell starts: it has no previous one. -/
opaque startAlpha : Int
opaque startL : Int

/-- The phase of a tone of a segment, 10^-9 turns (R166). -/
opaque tonePhase : (seg tone : Nat) → Int

/-- The byte of a model block at which a refused commit finds its first failing field (19 R480): its byte layout is not given. -/
opaque blockDetail : (block : List Byte) → Nat

/-- A bit of the maximum-length sequence of 09 Table 9.5. -/
opaque sequence : (index : Nat) → Bool

/-- A chirp or multitone of 09 Table 9.5 in 10^-9 of its node's base quantity: wave, amplitude, lowest and highest code, engine
cycles since the start. -/
opaque inject : (wave amp lo hi cycles : Nat) → Int

/-! ### Cyclic programs (13) -/

/-- The accumulators at the first instruction of a task, by draw: the spec gives no initial value. -/
opaque taskAcc : Nat → Bool
opaque taskWacc : Nat → BitVec 32

/-- How many instructions of the cyclic task have run when an event task interrupts it (13 R346), by draw. -/
opaque taskProgress : Nat → Nat

/-- A fresh value the spec leaves open, by the index drawn from the state's counter. -/
opaque freeValue : Nat → BitVec 32

end Sys2Proof.Config
end

