-- ==== Sys2Proof/Machine/EventCodes.lean ====
section
/-! DEFINITION. The events of Table 17.4b (17 R441, R500): one definition per event: its code, its name, its severity
and the layout of its arguments in DATA (byte offset, size in bytes, type as Table 17.4 numbers types). -/
namespace Sys2Proof.Machine

/-- One entry of the code table (Table 17.4). -/
structure EvDef where
  code : Nat
  name : String
  sev  : Nat
  args : List (Nat × Nat × Nat)
  deriving DecidableEq, Repr

namespace Ev
/-- [0] engine; [4:1] deadline, ns; [8:5] completion time from the start of the work, ns, 0xFFFF_FFFF if the work never completed -/
def deadlineMiss : EvDef := ⟨0x0101, "EV_DEADLINE_MISS", 7, [(0, 1, 1), (1, 4, 1), (5, 4, 1)]⟩
/-- [0] engine; [1] cause: 1 residue mismatch on retry, 2 compared-pair disagreement, 3 deadline miss, 4 uncorrectable memory word, 5 ledger invariant (R183) -/
def engineFault : EvDef := ⟨0x0102, "EV_ENGINE_FAULT", 7, [(0, 1, 1), (1, 1, 1)]⟩
/-- [0] engine -/
def engineFailed : EvDef := ⟨0x0103, "EV_ENGINE_FAILED", 7, [(0, 1, 1)]⟩
/-- [0] engine; [4:1] successful retries in the minute -/
def residueRetry : EvDef := ⟨0x0104, "EV_RESIDUE_RETRY", 2, [(0, 1, 1), (1, 4, 1)]⟩
/-- [0] array: 0 core-die SRAM, 1 working memory, 2 MRAM; [4:1] words or lines corrected in the hour -/
def eccCorrected : EvDef := ⟨0x0105, "EV_ECC_CORRECTED", 2, [(0, 1, 1), (1, 4, 1)]⟩
/-- [0] array, as above; [8:1] byte address of the word in its array -/
def eccUncorrectable : EvDef := ⟨0x0106, "EV_ECC_UNCORRECTABLE", 3, [(0, 1, 1), (1, 8, 1)]⟩
/-- [0] region: 0 ledger journal, 1 event recorder, 2 configuration region, 3 saved restart state, 4 last-fault region, 5 slack history, 6 program banks, 7 other; [4:1] byte offset of the line in MRAM -/
def nvmUncorrectable : EvDef := ⟨0x0107, "EV_NVM_UNCORRECTABLE", 3, [(0, 1, 1), (1, 4, 1)]⟩
/-- [7:0] b old plan; [15:8] b new plan; [16] cause: 0 start, 1 monthly, 2 trigger -/
def replan : EvDef := ⟨0x0108, "EV_REPLAN", 1, [(0, 8, 6), (8, 8, 6), (16, 1, 1)]⟩
/-- [7:0] t projected floor date -/
def marginNotice : EvDef := ⟨0x0109, "EV_MARGIN_NOTICE", 2, [(0, 8, 3)]⟩
/-- [7:0] t projected floor date; 0 when recorded because no profile is permitted (R55) -/
def marginLow : EvDef := ⟨0x010A, "EV_MARGIN_LOW", 3, [(0, 8, 3)]⟩
/-- [0] profile selected; [1] cause: 0 not permitted (R53), 1 not matched in the twin (R56) -/
def profileRefused : EvDef := ⟨0x010B, "EV_PROFILE_REFUSED", 3, [(0, 1, 1), (1, 1, 1)]⟩
/-- [0] profile kept; [1] Heather supply step now in force -/
def profileHeld : EvDef := ⟨0x010C, "EV_PROFILE_HELD", 4, [(0, 1, 1), (1, 1, 1)]⟩
/-- [0] old profile; [1] new profile -/
def profileWithdrawn : EvDef := ⟨0x010D, "EV_PROFILE_WITHDRAWN", 4, [(0, 1, 1), (1, 1, 1)]⟩
/-- [0] port kind: 0 ring, 1 gate link, 2 pair link, 3 safety input receiver; [1] port number -/
def portSelftest : EvDef := ⟨0x010E, "EV_PORT_SELFTEST", 7, [(0, 1, 1), (1, 1, 1)]⟩
/-- — -/
def oscFail : EvDef := ⟨0x0201, "EV_OSC_FAIL", 7, []⟩
/-- [3:0] s PX0 result minus PX1 result, ns -/
def pairTimeSkew : EvDef := ⟨0x0202, "EV_PAIR_TIME_SKEW", 3, [(0, 4, 2)]⟩
/-- [7:0] s own IEEE 1588 offset minus the leader's time, ns -/
def timeDisagree : EvDef := ⟨0x0203, "EV_TIME_DISAGREE", 3, [(0, 8, 2)]⟩
/-- — -/
def timeCfgMismatch : EvDef := ⟨0x0204, "EV_TIME_CFG_MISMATCH", 3, []⟩
/-- [7:0] s EP0 offset minus EP1 offset, ns -/
def ptpPortSkew : EvDef := ⟨0x0205, "EV_PTP_PORT_SKEW", 3, [(0, 8, 2)]⟩
/-- [7:0] s offset, ns; [15:8] b grandmaster clockIdentity -/
def timeJumpRefused : EvDef := ⟨0x0206, "EV_TIME_JUMP_REFUSED", 3, [(0, 8, 2), (8, 8, 6)]⟩
/-- — -/
def timeHoldover : EvDef := ⟨0x0207, "EV_TIME_HOLDOVER", 3, []⟩
/-- [7:0] b new grandmaster clockIdentity; [15:8] b previous one, 0 if none -/
def timeSourceChanged : EvDef := ⟨0x0208, "EV_TIME_SOURCE_CHANGED", 3, [(0, 8, 6), (8, 8, 6)]⟩
/-- [7:0] t old system time; [15:8] t new system time -/
def timeStepped : EvDef := ⟨0x0209, "EV_TIME_STEPPED", 3, [(0, 8, 3), (8, 8, 3)]⟩
/-- [0] mode; [1] cause: 0 not matched in the twin (R87), 1 lapsed at its boundary (R85) -/
def timeStepExpired : EvDef := ⟨0x020A, "EV_TIME_STEP_EXPIRED", 3, [(0, 1, 1), (1, 1, 1)]⟩
/-- [0] ring; [1] end: 0 A, 1 B -/
def ringMiswired : EvDef := ⟨0x0301, "EV_RING_MISWIRED", 3, [(0, 1, 1), (1, 1, 1)]⟩
/-- [0] ring; [1] position; [2] expected type; [3] found type; types 1 cell station, 2 current station, 0 other -/
def stationMismatch : EvDef := ⟨0x0302, "EV_STATION_MISMATCH", 3, [(0, 1, 1), (1, 1, 1), (2, 1, 1), (3, 1, 1)]⟩
/-- [0] station; [4:1] issued; [8:5] executed; [12:9] gaps; [16:13] refused; [20:17] unanswered -/
def ringCmdCount : EvDef := ⟨0x0303, "EV_RING_CMD_COUNT", 3, [(0, 1, 1), (1, 4, 1), (5, 4, 1), (9, 4, 1), (13, 4, 1), (17, 4, 1)]⟩
/-- [0] ring; [1] stations found from the A-end; [2] stations found from the B-end; [3] number of stations of the ring under R103 -/
def ringCountMismatch : EvDef := ⟨0x0304, "EV_RING_COUNT_MISMATCH", 3, [(0, 1, 1), (1, 1, 1), (2, 1, 1), (3, 1, 1)]⟩
/-- [0] ring; [1] last position reached from the A-end, 0xFF none; [2] first position reached from the B-end, 0xFF none; [3] directions lost: bit 0 A to B, bit 1 B to A -/
def ringDegraded : EvDef := ⟨0x0305, "EV_RING_DEGRADED", 3, [(0, 1, 1), (1, 1, 1), (2, 1, 1), (3, 1, 1)]⟩
/-- [0] ring -/
def ringRestored : EvDef := ⟨0x0306, "EV_RING_RESTORED", 1, [(0, 1, 1)]⟩
/-- [0] station -/
def stationLost : EvDef := ⟨0x0307, "EV_STATION_LOST", 3, [(0, 1, 1)]⟩
/-- [0] station -/
def stationSecLost : EvDef := ⟨0x0308, "EV_STATION_SEC_LOST", 3, [(0, 1, 1)]⟩
/-- [0] station -/
def stationReturned : EvDef := ⟨0x0309, "EV_STATION_RETURNED", 1, [(0, 1, 1)]⟩
/-- [0] station -/
def stationSecReturned : EvDef := ⟨0x030A, "EV_STATION_SEC_RETURNED", 1, [(0, 1, 1)]⟩
/-- [0] station; [1] channel -/
def unusedChannel : EvDef := ⟨0x0401, "EV_UNUSED_CHANNEL", 2, [(0, 1, 1), (1, 1, 1)]⟩
/-- [0] station; [2:1] s difference of the references, 0.1 ppm -/
def calDrift : EvDef := ⟨0x0402, "EV_CAL_DRIFT", 2, [(0, 1, 1), (1, 2, 2)]⟩
/-- [3:0] s primary mean, mA; [7:4] s fluxgate mean, mA; [11:8] s third-opinion mean, mA; [12] path judged wrong: 0 none, 1 primary, 2 fluxgate -/
def currentDisagree : EvDef := ⟨0x0403, "EV_CURRENT_DISAGREE", 3, [(0, 4, 2), (4, 4, 2), (8, 4, 2), (12, 1, 1)]⟩
/-- [0] station; [1] chain: 0 primary, 1 secondary; [5:2] s difference, µV -/
def sumMismatch : EvDef := ⟨0x0404, "EV_SUM_MISMATCH", 3, [(0, 1, 1), (1, 1, 1), (2, 4, 2)]⟩
/-- [1:0] cell; [5:2] s primary mean minus secondary mean, µV -/
def measDisagree : EvDef := ⟨0x0405, "EV_MEAS_DISAGREE", 3, [(0, 2, 1), (2, 4, 2)]⟩
/-- [1:0] tap; [2] station -/
def senseTapSuspect : EvDef := ⟨0x0406, "EV_SENSE_TAP_SUSPECT", 2, [(0, 2, 1), (2, 1, 1)]⟩
/-- [1:0] tap; [2] station; [3] input; [5:4] s node shift, 0.1 mV -/
def senseWireOpen : EvDef := ⟨0x0407, "EV_SENSE_WIRE_OPEN", 3, [(0, 2, 1), (2, 1, 1), (3, 1, 1), (4, 2, 2)]⟩
/-- [1:0] tap; [3:2] rise of cell k−1, µΩ; [5:4] rise of cell k, µΩ -/
def busbarSuspect : EvDef := ⟨0x0408, "EV_BUSBAR_SUSPECT", 2, [(0, 2, 1), (2, 2, 1), (4, 2, 1)]⟩
/-- [1:0] cell; [5:2] s deviation of its pair sums, µV -/
def cellSuspect : EvDef := ⟨0x0409, "EV_CELL_SUSPECT", 2, [(0, 2, 1), (2, 4, 2)]⟩
/-- [0] station; [2:1] D, 0.01 % -/
def balDerated : EvDef := ⟨0x040A, "EV_BAL_DERATED", 2, [(0, 1, 1), (1, 2, 1)]⟩
/-- [0] station; [1] channel -/
def balLeadOpen : EvDef := ⟨0x040B, "EV_BAL_LEAD_OPEN", 2, [(0, 1, 1), (1, 1, 1)]⟩
/-- [1:0] cell; [3:2] s old soc, 0.01 %; [5:4] s new soc, 0.01 % -/
def estReseed : EvDef := ⟨0x0501, "EV_EST_RESEED", 2, [(0, 2, 1), (2, 2, 2), (4, 2, 2)]⟩
/-- [1:0] cells updated; [5:2] s largest change, mAh -/
def capacityUpdated : EvDef := ⟨0x0502, "EV_CAPACITY_UPDATED", 1, [(0, 2, 1), (2, 4, 2)]⟩
/-- [1:0] cells validated -/
def coreTValidated : EvDef := ⟨0x0503, "EV_CORE_T_VALIDATED", 1, [(0, 2, 1)]⟩
/-- [1:0] cells whose validation was withdrawn -/
def coreTWithdrawn : EvDef := ⟨0x0504, "EV_CORE_T_WITHDRAWN", 2, [(0, 2, 1)]⟩
/-- [3:0] run; [4] segment 0–3; [5] cause: 0 safe state, trip or stage stop, 1 third restart need (R168), 2 headroom wait over 60 s (R167), 3 loop engine fault, 4 firmware activation -/
def impRunAbandoned : EvDef := ⟨0x0505, "EV_IMP_RUN_ABANDONED", 2, [(0, 4, 1), (4, 1, 1), (5, 1, 1)]⟩
/-- [0] cause: 0 stage not running, 1 IMP_CFG.ENABLE = 0, 2 injection running -/
def impSkipped : EvDef := ⟨0x0506, "EV_IMP_SKIPPED", 1, [(0, 1, 1)]⟩
/-- [0] station; [1] point -/
def impSum : EvDef := ⟨0x0507, "EV_IMP_SUM", 2, [(0, 1, 1), (1, 1, 1)]⟩
/-- [1:0] cell; [2] parameter: 0 ohmic resistance, 1 charge-transfer resistance; [6:3] value, nΩ; [10:7] median, nΩ -/
def impOutlier : EvDef := ⟨0x0508, "EV_IMP_OUTLIER", 2, [(0, 2, 1), (2, 1, 1), (3, 4, 1), (7, 4, 1)]⟩
/-- [1:0] cell, 0xFFFF for a failed sub-account sum; [9:2] s S; [17:10] s U; [25:18] s B_k; [33:26] s A_k; balances in mC -/
def ledgerInvariant : EvDef := ⟨0x0601, "EV_LEDGER_INVARIANT", 7, [(0, 2, 1), (2, 8, 2), (10, 8, 2), (18, 8, 2), (26, 8, 2)]⟩
/-- [7:0] LSEQ of the path entry; [15:8] s d, mC; [16] KIND; [17] OLD; [18] NEW, as Table 7.8 -/
def ledgerPath : EvDef := ⟨0x0602, "EV_LEDGER_PATH", 3, [(0, 8, 1), (8, 8, 2), (16, 1, 1), (17, 1, 1), (18, 1, 1)]⟩
/-- [0] condition of Table 7.3: 0 valid time base, 1 valid current measurement, 2 module in service; [1] 1 now failing, 0 holding again -/
def ledgerOutside : EvDef := ⟨0x0603, "EV_LEDGER_OUTSIDE", 3, [(0, 1, 1), (1, 1, 1)]⟩
/-- [3:0] new ledger number; [7:4] previous ledger number, 0 if none -/
def ledgerOpened : EvDef := ⟨0x0604, "EV_LEDGER_OPENED", 3, [(0, 4, 1), (4, 4, 1)]⟩
/-- [7:0] s lower bound, mC; [15:8] s upper bound, mC; [16] CAUSE as Table 7.8 -/
def ledgerUnobserved : EvDef := ⟨0x0605, "EV_LEDGER_UNOBSERVED", 3, [(0, 8, 2), (8, 8, 2), (16, 1, 1)]⟩
/-- [0] link; [1] cause: 0 receiver type, 1 role contradicts the input; [2] input; [3] role seen: 0 none, 1 senior, 2 junior -/
def gateMiswired : EvDef := ⟨0x0701, "EV_GATE_MISWIRED", 3, [(0, 1, 1), (1, 1, 1), (2, 1, 1), (3, 1, 1)]⟩
/-- [0] class; [1] link; [2] phase; [3] switch: 0 high side, 1 low side; 0xFF where none -/
def stageTrip : EvDef := ⟨0x0702, "EV_STAGE_TRIP", 5, [(0, 1, 1), (1, 1, 1), (2, 1, 1), (3, 1, 1)]⟩
/-- [0] link; [1] phase; [2] switch; [4:3] s temperature, 0.1 °C -/
def switchWarm : EvDef := ⟨0x0703, "EV_SWITCH_WARM", 3, [(0, 1, 1), (1, 1, 1), (2, 1, 1), (3, 2, 2)]⟩
/-- [3:0] s measured string current, mA -/
def stageStopForced : EvDef := ⟨0x0704, "EV_STAGE_STOP_FORCED", 3, [(0, 4, 2)]⟩
/-- [0] polarity: 0 charge, 1 discharge -/
def fastOc : EvDef := ⟨0x0705, "EV_FAST_OC", 5, [(0, 1, 1)]⟩
/-- [0] KIND 1–3; [4:1] s set-point, as VALUE; [8:5] s present r in mA, or v_tgt in mV for KIND 3; [12:9] slope, mA/s, or mV/s for KIND 3 -/
def setpointLimited : EvDef := ⟨0x0801, "EV_SETPOINT_LIMITED", 4, [(0, 1, 1), (1, 4, 2), (5, 4, 2), (9, 4, 1)]⟩
/-- [0] loop: 0 current loops, 1 droop loop; [1] bank now active: 0 A, 1 B -/
def bankSwapped : EvDef := ⟨0x0802, "EV_BANK_SWAPPED", 1, [(0, 1, 1), (1, 1, 1)]⟩
/-- [3:0] s detected error, mA -/
def shedAbort : EvDef := ⟨0x0803, "EV_SHED_ABORT", 1, [(0, 4, 2)]⟩
/-- [0] phase -/
def phaseRestarted : EvDef := ⟨0x0804, "EV_PHASE_RESTARTED", 3, [(0, 1, 1)]⟩
/-- [0] loop engine 0–3 -/
def diagExpired : EvDef := ⟨0x0805, "EV_DIAG_EXPIRED", 1, [(0, 1, 1)]⟩
/-- [0] station; [1] input -/
def thAbsent : EvDef := ⟨0x0901, "EV_TH_ABSENT", 1, [(0, 1, 1), (1, 1, 1)]⟩
/-- [0] thermistor; [2:1] s primary, 0.01 °C; [4:3] s secondary, 0.01 °C -/
def thDisagree : EvDef := ⟨0x0902, "EV_TH_DISAGREE", 3, [(0, 1, 1), (1, 2, 2), (3, 2, 2)]⟩
/-- [0] zone; [1] side: 0 high, 1 low; [3:2] s temperature, 0.01 °C -/
def thermalWarn : EvDef := ⟨0x0903, "EV_THERMAL_WARN", 3, [(0, 1, 1), (1, 1, 1), (2, 2, 2)]⟩
/-- [0] zone; [1] direction: 0 high step deeper, 1 high step relaxed, 2 low step deeper, 3 low step relaxed; [2] new step; [4:3] s temperature, 0.01 °C -/
def throttleStep : EvDef := ⟨0x0904, "EV_THROTTLE_STEP", 4, [(0, 1, 1), (1, 1, 1), (2, 1, 1), (3, 2, 2)]⟩
/-- [0] zone; [1] direction: 0 charge, 1 discharge; [2] 1 entry, 0 exit -/
def thermalForbid : EvDef := ⟨0x0905, "EV_THERMAL_FORBID", 4, [(0, 1, 1), (1, 1, 1), (2, 1, 1)]⟩
/-- [0] zone; [1] side: 0 high, 1 low; [2] sensor kind: 0 thermistor, 1 MT pin, 2 core temperature, 3 substitute; [4:3] sensor number; [6:5] s temperature, 0.01 °C -/
def thermalTrip : EvDef := ⟨0x0906, "EV_THERMAL_TRIP", 5, [(0, 1, 1), (1, 1, 1), (2, 1, 1), (3, 2, 1), (5, 2, 2)]⟩
/-- [0] sensor kind: 0 thermistor, 1 MT pin, 2 core temperature; [2:1] number -/
def thFailed : EvDef := ⟨0x0907, "EV_TH_FAILED", 3, [(0, 1, 1), (1, 2, 1)]⟩
/-- As EV_TH_FAILED -/
def thReturned : EvDef := ⟨0x0908, "EV_TH_RETURNED", 1, [(0, 1, 1), (1, 2, 1)]⟩
/-- [0] thermistor -/
def thCoreSubst : EvDef := ⟨0x0909, "EV_TH_CORE_SUBST", 2, [(0, 1, 1)]⟩
/-- [0] thermistor -/
def thAckExpired : EvDef := ⟨0x090A, "EV_TH_ACK_EXPIRED", 1, [(0, 1, 1)]⟩
/-- [0] cooling output -/
def fanFail : EvDef := ⟨0x090B, "EV_FAN_FAIL", 3, [(0, 1, 1)]⟩
/-- [0] die sensor left out -/
def dieSensor : EvDef := ⟨0x090C, "EV_DIE_SENSOR", 3, [(0, 1, 1)]⟩
/-- [1:0] s die temperature, 0.1 °C -/
def dieHot : EvDef := ⟨0x090D, "EV_DIE_HOT", 3, [(0, 2, 2)]⟩
/-- [1:0] s die temperature, 0.1 °C -/
def nvmBarred : EvDef := ⟨0x090E, "EV_NVM_BARRED", 3, [(0, 2, 2)]⟩
/-- [1:0] s die temperature, 0.1 °C -/
def nvmResumed : EvDef := ⟨0x090F, "EV_NVM_RESUMED", 1, [(0, 2, 2)]⟩
/-- [7:0] t latched event time of the shutdown -/
def dieShutdown : EvDef := ⟨0x0910, "EV_DIE_SHUTDOWN", 7, [(0, 8, 3)]⟩
/-- [0] active source now: 0 host, 1 plant -/
def dispatchSource : EvDef := ⟨0x0A01, "EV_DISPATCH_SOURCE", 1, [(0, 1, 1)]⟩
/-- [0] KIND of the set-point -/
def setpointExpired : EvDef := ⟨0x0A02, "EV_SETPOINT_EXPIRED", 3, [(0, 1, 1)]⟩
/-- [0] KIND 4 or 5; [1] direction: 0 charge, 1 discharge; [5:2] s old effective value, mA; [9:6] s new target, mA -/
def budgetDraining : EvDef := ⟨0x0A03, "EV_BUDGET_DRAINING", 4, [(0, 1, 1), (1, 1, 1), (2, 4, 2), (6, 4, 2)]⟩
/-- [0] function code; [1] engines that demanded; [2] object: 0 none, 1 cell, 2 thermistor, 3 string current, 4 safety input, 5 loop, 6 producer, 7 output, 8 engine; [4:3] object number; [8:5] s value: µV for a cell, 0.01 °C for a thermistor, mA for the current, otherwise 0 -/
def safeState : EvDef := ⟨0x0B01, "EV_SAFE_STATE", 6, [(0, 1, 1), (1, 1, 1), (2, 1, 1), (3, 2, 1), (5, 4, 2)]⟩
/-- [0] function code; [1] engines; [2] object, as for EV_SAFE_STATE; [3] object number -/
def safetyAlarm : EvDef := ⟨0x0B02, "EV_SAFETY_ALARM", 3, [(0, 1, 1), (1, 1, 1), (2, 1, 1), (3, 1, 1)]⟩
/-- [0] engines; [1] object: 4 safety input, 5 loop; [2] number -/
def siDiscrepancy : EvDef := ⟨0x0B03, "EV_SI_DISCREPANCY", 6, [(0, 1, 1), (1, 1, 1), (2, 1, 1)]⟩
/-- [0] engines; [1] output; [2] switch: 0 high side, 1 low side -/
def soStuck : EvDef := ⟨0x0B04, "EV_SO_STUCK", 6, [(0, 1, 1), (1, 1, 1), (2, 1, 1)]⟩
/-- As EV_SO_STUCK -/
def soFailed : EvDef := ⟨0x0B05, "EV_SO_FAILED", 6, [(0, 1, 1), (1, 1, 1), (2, 1, 1)]⟩
/-- [1:0] coil supply, 10 mV -/
def coilSupply : EvDef := ⟨0x0B06, "EV_COIL_SUPPLY", 6, [(0, 2, 1)]⟩
/-- [0] output; [1] feedback input -/
def contactorWeld : EvDef := ⟨0x0B07, "EV_CONTACTOR_WELD", 6, [(0, 1, 1), (1, 1, 1)]⟩
/-- [0] source: 0 reset input, 1 host; [1] first failing condition of R322, 1–5 in its order -/
def resetRefused : EvDef := ⟨0x0B08, "EV_RESET_REFUSED", 3, [(0, 1, 1), (1, 1, 1)]⟩
/-- [0] source, as above -/
def safeReset : EvDef := ⟨0x0B09, "EV_SAFE_RESET", 1, [(0, 1, 1)]⟩
/-- — -/
def safeResetExpired : EvDef := ⟨0x0B0A, "EV_SAFE_RESET_EXPIRED", 1, []⟩
/-- [0] producer 0–7 -/
def sfDiff : EvDef := ⟨0x0C01, "EV_SF_DIFF", 3, [(0, 1, 1)]⟩
/-- [0] producer; [1] new epoch -/
def sfEpoch : EvDef := ⟨0x0C02, "EV_SF_EPOCH", 1, [(0, 1, 1), (1, 1, 1)]⟩
/-- [0] producer -/
def sfTimeout : EvDef := ⟨0x0C03, "EV_SF_TIMEOUT", 6, [(0, 1, 1)]⟩
/-- — -/
def safetyCfgExpired : EvDef := ⟨0x0C04, "EV_SAFETY_CFG_EXPIRED", 1, []⟩
/-- [0] function code; [1] engines of this twin that confirmed -/
def twinSafetyDiff : EvDef := ⟨0x0C05, "EV_TWIN_SAFETY_DIFF", 6, [(0, 1, 1), (1, 1, 1)]⟩
/-- [0] CE; [1] point number; [5:2] value of the host-out word -/
def progEvent : EvDef := ⟨0x0D01, "EV_PROG_EVENT", 0, [(0, 1, 1), (1, 1, 1), (2, 4, 1)]⟩
/-- [0] CE; [1] task: 0 cyclic, 1–4 event task, 7 error task; [5:2] instruction; [13:6] t event time of the cycle -/
def progHeld : EvDef := ⟨0x0D02, "EV_PROG_HELD", 1, [(0, 1, 1), (1, 1, 1), (2, 4, 1), (6, 8, 3)]⟩
/-- [0] CE -/
def holdExpired : EvDef := ⟨0x0D03, "EV_HOLD_EXPIRED", 1, [(0, 1, 1)]⟩
/-- [0] CE -/
def progColdForced : EvDef := ⟨0x0D04, "EV_PROG_COLD_FORCED", 3, [(0, 1, 1)]⟩
/-- [3:0] IMAGE_ID of the image that failed, 0 if unreadable -/
def progInvalid : EvDef := ⟨0x0D05, "EV_PROG_INVALID", 3, [(0, 4, 1)]⟩
/-- [3:0] IMAGE_ID -/
def progNotAdmitted : EvDef := ⟨0x0D06, "EV_PROG_NOT_ADMITTED", 3, [(0, 4, 1)]⟩
/-- [3:0] old IMAGE_ID; [7:4] new IMAGE_ID; [15:8] t switch boundary B -/
def progSwitched : EvDef := ⟨0x0D07, "EV_PROG_SWITCHED", 1, [(0, 4, 1), (4, 4, 1), (8, 8, 3)]⟩
/-- [0] CE; [2:1] symbol index -/
def progSymbolReset : EvDef := ⟨0x0D08, "EV_PROG_SYMBOL_RESET", 2, [(0, 1, 1), (1, 2, 1)]⟩
/-- [1:0] forces -/
def forcesActive : EvDef := ⟨0x0D09, "EV_FORCES_ACTIVE", 2, [(0, 2, 1)]⟩
/-- [31:0] b symbol name -/
def forceDropped : EvDef := ⟨0x0D0A, "EV_FORCE_DROPPED", 2, [(0, 32, 6)]⟩
/-- [0] operation of Table 13.12 -/
def progCmdExpired : EvDef := ⟨0x0D0B, "EV_PROG_CMD_EXPIRED", 1, [(0, 1, 1)]⟩
/-- [0] 0 loss or function-level reset, 1 return; [4:1] descriptors abandoned; [8:5] credits abandoned -/
def hostLink : EvDef := ⟨0x0E01, "EV_HOST_LINK", 3, [(0, 1, 1), (1, 4, 1), (5, 4, 1)]⟩
/-- [0] queue; [1] QP_STAT.CAUSE -/
def queueStopped : EvDef := ⟨0x0E02, "EV_QUEUE_STOPPED", 3, [(0, 1, 1), (1, 1, 1)]⟩
/-- [0] queue; [4:1] G; [8:5] C; [12:9] R -/
def creditCount : EvDef := ⟨0x0E03, "EV_CREDIT_COUNT", 3, [(0, 1, 1), (1, 4, 1), (5, 4, 1), (9, 4, 1)]⟩
/-- [0] slot; [1] opcode; [3:2] c status -/
def authRefused : EvDef := ⟨0x0E04, "EV_AUTH_REFUSED", 3, [(0, 1, 1), (1, 1, 1), (2, 2, 5)]⟩
/-- [0] opcode -/
def cmdExpired : EvDef := ⟨0x0E05, "EV_CMD_EXPIRED", 1, [(0, 1, 1)]⟩
/-- [1:0] tag; [3:2] c status; [5:4] offset, as CFG_CSTAT2.OFFSET; [9:6] detail, as CFG_CSTAT3 -/
def commitRefused : EvDef := ⟨0x0E06, "EV_COMMIT_REFUSED", 3, [(0, 2, 1), (2, 2, 5), (4, 2, 1), (6, 4, 1)]⟩
/-- [0] LAN: 0 A, 1 B -/
def prpLanDown : EvDef := ⟨0x0F01, "EV_PRP_LAN_DOWN", 3, [(0, 1, 1)]⟩
/-- [0] LAN -/
def prpLanUp : EvDef := ⟨0x0F02, "EV_PRP_LAN_UP", 1, [(0, 1, 1)]⟩
/-- [0] port -/
def canBusOff : EvDef := ⟨0x0F03, "EV_CAN_BUS_OFF", 3, [(0, 1, 1)]⟩
/-- [0] port -/
def canRecovered : EvDef := ⟨0x0F04, "EV_CAN_RECOVERED", 1, [(0, 1, 1)]⟩
/-- [0] port -/
def canAlone : EvDef := ⟨0x0F05, "EV_CAN_ALONE", 3, [(0, 1, 1)]⟩
/-- [0] port -/
def canPeer : EvDef := ⟨0x0F06, "EV_CAN_PEER", 1, [(0, 1, 1)]⟩
/-- [0] port; [1] object -/
def canTwinDiff : EvDef := ⟨0x0F07, "EV_CAN_TWIN_DIFF", 3, [(0, 1, 1), (1, 1, 1)]⟩
/-- [0] entry; [1] cause: 0 exception response, 1 timeout, 2 CRC error, 3 mismatched reply; [2] last exception code, 0 if none -/
def modbusLost : EvDef := ⟨0x0F08, "EV_MODBUS_LOST", 3, [(0, 1, 1), (1, 1, 1), (2, 1, 1)]⟩
/-- [0] entry -/
def modbusReturned : EvDef := ⟨0x0F09, "EV_MODBUS_RETURNED", 1, [(0, 1, 1)]⟩
/-- [0] CAUSE of Table 16.5 -/
def twinWithdraw : EvDef := ⟨0x1001, "EV_TWIN_WITHDRAW", 7, [(0, 1, 1)]⟩
/-- [0] partner's cause -/
def twinWithdrawn : EvDef := ⟨0x1002, "EV_TWIN_WITHDRAWN", 3, [(0, 1, 1)]⟩
/-- [0] cause of the last withdrawal -/
def twinRetired : EvDef := ⟨0x1003, "EV_TWIN_RETIRED", 7, [(0, 1, 1)]⟩
/-- [7:0] t re-entry instant E -/
def twinRejoined : EvDef := ⟨0x1004, "EV_TWIN_REJOINED", 1, [(0, 8, 3)]⟩
/-- — -/
def twinLost : EvDef := ⟨0x1005, "EV_TWIN_LOST", 3, []⟩
/-- — -/
def twinSolo : EvDef := ⟨0x1006, "EV_TWIN_SOLO", 3, []⟩
/-- [0] cause: 0 state digests, 1 output digests, 2 state after a path recovered -/
def pairDiverged : EvDef := ⟨0x1007, "EV_PAIR_DIVERGED", 3, [(0, 1, 1)]⟩
/-- [0] DIO pin -/
def pairInputDiff : EvDef := ⟨0x1008, "EV_PAIR_INPUT_DIFF", 2, [(0, 1, 1)]⟩
/-- — -/
def pairKeysDiffer : EvDef := ⟨0x1009, "EV_PAIR_KEYS_DIFFER", 3, []⟩
/-- [0] attempts made -/
def catchupFailed : EvDef := ⟨0x100A, "EV_CATCHUP_FAILED", 7, [(0, 1, 1)]⟩
/-- [1:0] tag -/
def commitExpired : EvDef := ⟨0x100B, "EV_COMMIT_EXPIRED", 1, [(0, 2, 1)]⟩
/-- [0] own behaviour level; [1] partner's behaviour level -/
def blMismatch : EvDef := ⟨0x100C, "EV_BL_MISMATCH", 3, [(0, 1, 1), (1, 1, 1)]⟩
/-- [0] cause: the withdrawal cause of Table 16.5, or 0 for the solo state or a silent partner -/
def exposureOpen : EvDef := ⟨0x100D, "EV_EXPOSURE_OPEN", 3, [(0, 1, 1)]⟩
/-- [7:0] t opening time of the window -/
def exposureNotice : EvDef := ⟨0x100E, "EV_EXPOSURE_NOTICE", 3, [(0, 8, 3)]⟩
/-- [7:0] t opening time of the window -/
def exposureExceeded : EvDef := ⟨0x100F, "EV_EXPOSURE_EXCEEDED", 4, [(0, 8, 3)]⟩
/-- [3:0] age at the closing, s -/
def exposureClosed : EvDef := ⟨0x1010, "EV_EXPOSURE_CLOSED", 1, [(0, 4, 1)]⟩
/-- [3:0] count; [11:4] t earliest event time; [19:12] t latest event time; [20] highest severity; [39] 1 after power loss (R445), otherwise 0 -/
def recorderOverflow : EvDef := ⟨0x1101, "EV_RECORDER_OVERFLOW", 4, [(0, 4, 1), (4, 8, 3), (12, 8, 3), (20, 1, 1), (39, 1, 1)]⟩
/-- [7:0] t event time of the first held record -/
def recorderFull : EvDef := ⟨0x1102, "EV_RECORDER_FULL", 4, [(0, 8, 3)]⟩
/-- [3:0] events detected; [7:4] records written; [11:8] queued; [15:12] overflowed; [19:16] suppressed; [23:20] lost at power loss -/
def recorderCount : EvDef := ⟨0x1103, "EV_RECORDER_COUNT", 3, [(0, 4, 1), (4, 4, 1), (8, 4, 1), (12, 4, 1), (16, 4, 1), (20, 4, 1)]⟩
/-- [3:0] slot -/
def recordDamaged : EvDef := ⟨0x1104, "EV_RECORD_DAMAGED", 3, [(0, 4, 1)]⟩
/-- [0] holder: 0 host, 1 service port -/
def recorderThawed : EvDef := ⟨0x1105, "EV_RECORDER_THAWED", 1, [(0, 1, 1)]⟩
/-- [0] clear register entry -/
def recorderCleared : EvDef := ⟨0x1106, "EV_RECORDER_CLEARED", 1, [(0, 1, 1)]⟩
/-- [3:0] VERSION -/
def fwInstalled : EvDef := ⟨0x1201, "EV_FW_INSTALLED", 1, [(0, 4, 1)]⟩
/-- [3:0] VERSION -/
def fwActivated : EvDef := ⟨0x1202, "EV_FW_ACTIVATED", 1, [(0, 4, 1)]⟩
/-- [3:0] VERSION -/
def fwFirstStartFailed : EvDef := ⟨0x1203, "EV_FW_FIRST_START_FAILED", 7, [(0, 4, 1)]⟩
/-- [0] cause, as MOD_STAT.REC_CAUSE -/
def romRecovery : EvDef := ⟨0x1204, "EV_ROM_RECOVERY", 3, [(0, 1, 1)]⟩
/-- [0] slot; [1] role -/
def keyWritten : EvDef := ⟨0x1205, "EV_KEY_WRITTEN", 1, [(0, 1, 1), (1, 1, 1)]⟩
/-- [0] slot; [1] role -/
def keyRevoked : EvDef := ⟨0x1206, "EV_KEY_REVOKED", 1, [(0, 1, 1), (1, 1, 1)]⟩
/-- [0] old level; [1] new level -/
def blChanged : EvDef := ⟨0x1207, "EV_BL_CHANGED", 1, [(0, 1, 1), (1, 1, 1)]⟩
/-- [0] configured level; [1] highest level supported -/
def blUnsupported : EvDef := ⟨0x1208, "EV_BL_UNSUPPORTED", 4, [(0, 1, 1), (1, 1, 1)]⟩
/-- [1:0] supply, 0.1 V -/
def supplyHigh : EvDef := ⟨0x1209, "EV_SUPPLY_HIGH", 3, [(0, 2, 1)]⟩
/-- [1:0] predicted hold-up at 46 W, 0.1 ms -/
def holdupLow : EvDef := ⟨0x120A, "EV_HOLDUP_LOW", 2, [(0, 2, 1)]⟩
/-- — -/
def chainFull : EvDef := ⟨0x1301, "EV_CHAIN_FULL", 3, []⟩
/-- [0] latched address, 0 if none -/
def chainBreak : EvDef := ⟨0x1302, "EV_CHAIN_BREAK", 3, [(0, 1, 1)]⟩
/-- [0] old address; [1] new address -/
def addressChanged : EvDef := ⟨0x1303, "EV_ADDRESS_CHANGED", 1, [(0, 1, 1), (1, 1, 1)]⟩

/-- Part of the code table. -/
def table0 : List EvDef := [deadlineMiss, engineFault, engineFailed, residueRetry, eccCorrected, eccUncorrectable, nvmUncorrectable, replan, marginNotice, marginLow, profileRefused, profileHeld, profileWithdrawn, portSelftest, oscFail, pairTimeSkew, timeDisagree, timeCfgMismatch, ptpPortSkew, timeJumpRefused, timeHoldover, timeSourceChanged, timeStepped, timeStepExpired, ringMiswired, stationMismatch, ringCmdCount, ringCountMismatch, ringDegraded, ringRestored, stationLost, stationSecLost, stationReturned, stationSecReturned, unusedChannel, calDrift, currentDisagree, sumMismatch, measDisagree, senseTapSuspect]
/-- Part of the code table. -/
def table1 : List EvDef := [senseWireOpen, busbarSuspect, cellSuspect, balDerated, balLeadOpen, estReseed, capacityUpdated, coreTValidated, coreTWithdrawn, impRunAbandoned, impSkipped, impSum, impOutlier, ledgerInvariant, ledgerPath, ledgerOutside, ledgerOpened, ledgerUnobserved, gateMiswired, stageTrip, switchWarm, stageStopForced, fastOc, setpointLimited, bankSwapped, shedAbort, phaseRestarted, diagExpired, thAbsent, thDisagree, thermalWarn, throttleStep, thermalForbid, thermalTrip, thFailed, thReturned, thCoreSubst, thAckExpired, fanFail, dieSensor]
/-- Part of the code table. -/
def table2 : List EvDef := [dieHot, nvmBarred, nvmResumed, dieShutdown, dispatchSource, setpointExpired, budgetDraining, safeState, safetyAlarm, siDiscrepancy, soStuck, soFailed, coilSupply, contactorWeld, resetRefused, safeReset, safeResetExpired, sfDiff, sfEpoch, sfTimeout, safetyCfgExpired, twinSafetyDiff, progEvent, progHeld, holdExpired, progColdForced, progInvalid, progNotAdmitted, progSwitched, progSymbolReset, forcesActive, forceDropped, progCmdExpired, hostLink, queueStopped, creditCount, authRefused, cmdExpired, commitRefused, prpLanDown]
/-- Part of the code table. -/
def table3 : List EvDef := [prpLanUp, canBusOff, canRecovered, canAlone, canPeer, canTwinDiff, modbusLost, modbusReturned, twinWithdraw, twinWithdrawn, twinRetired, twinRejoined, twinLost, twinSolo, pairDiverged, pairInputDiff, pairKeysDiffer, catchupFailed, commitExpired, blMismatch, exposureOpen, exposureNotice, exposureExceeded, exposureClosed, recorderOverflow, recorderFull, recorderCount, recordDamaged, recorderThawed, recorderCleared, fwInstalled, fwActivated, fwFirstStartFailed, romRecovery, keyWritten, keyRevoked, blChanged, blUnsupported, supplyHigh, holdupLow]
/-- Part of the code table. -/
def table4 : List EvDef := [chainFull, chainBreak, addressChanged]

/-- The code table of every firmware image (R441), in code order. -/
def table : List EvDef := table0 ++ table1 ++ table2 ++ table3 ++ table4
end Ev

end Sys2Proof.Machine
end

