-- ==== Sys2Proof/Machine/State.lean ====
section
/-! DEFINITION. The machine's state as plain data: every register, counter, queue, mode and pin the spec gives the
module, chapter by chapter, the commands that wait, and State.reset. Times are fine-counter nanoseconds (03 R62) unless
a docstring says event time. -/
namespace Sys2Proof.Machine

/-- Why a step faults. No meaning of this model faults: every command the spec lists has an effect (NOTES, Stops). The
one constructor is what a command would answer whose operands name an object the module does not have; it is safe, since
nothing is then claimed of a next state. -/
inductive Fault where
  | noSuchObject
  deriving DecidableEq, Repr

/-- Why a step refuses. `notModelled` is raised by no meaning, only by an arm of `exec` that has none; it is safe, since
nothing is then claimed of a next state. -/
inductive Refusal where
  | notModelled (mnemonic : String)
  deriving DecidableEq, Repr

/-! ### Outputs -/

/-- A stream record waiting for a buffer (R383): its kind, its length, its event time and its bytes, CHECK among them. -/
structure StreamRec where
  kind : Nat
  len  : Nat
  time : Nat
  body : List Byte
  deriving DecidableEq, Repr


/-- A completion (14 Table 14.4). -/
structure Completion where
  time      : Nat
  resultLen : Nat
  detail    : Nat
  cmdId     : BitVec 16
  sqHead    : Nat
  status    : Nat
  grant     : Nat
  /-- bit 0 awaiting the twin, bit 1 replayed records, bit 2 more stream records waiting -/
  flags     : Nat
  phase     : Bool
  deriving DecidableEq, Repr

/-- A safety frame (12 Table 12.5) less its CHECK, which is a function of the rest. -/
structure SafetyPdu where
  type  : Nat
  lenw  : Nat
  /-- the reserved bits of bytes [0] and [1] -/
  resv  : Bool
  epoch : BitVec 4
  solo  : Bool
  safe  : Bool
  seq   : BitVec 16
  time  : Nat
  ident : Word
  data  : List Word
  deriving DecidableEq, Repr

/-- A frame sent on the pair links (16 Table 16.2). -/
inductive PairFrame where
  | slots (fields : List Int)
  | status (fields : List Int)
  | inputs (items : List PairInput)
  | command (cmd : Cmd) (source : Nat) (at_ : Nat)
  | time (fine : Nat) (stepOffset : Int)
  | safety (pdu : SafetyPdu)
  | digest (second : Nat) (digest : Word) (permitted : List Bool) (ceiling : Nat) (unitCost : List Nat) (withdrawals : Nat)
  | notice (kind cause : Nat) (reentry : Nat)
  | catchup (item offset : Nat) (data : List Byte)
  | heart
  deriving DecidableEq, Repr

/-- What the module sends or drives: every frame, message, completion, interrupt and pin level. A model of its own: the
spec's module has no such list; State.out keeps what was sent, newest first. -/
inductive Out where
  /-- an address frame on ACO -/
  | aco (value : Nat)
  /-- an MSI-X message -/
  | irq (vector : Nat)
  /-- the 32 bytes of a completion (14 Table 14.4) -/
  | completion (queue entry : Nat) (bytes : List Byte)
  /-- a message on the service port (18 Table 18.9) -/
  | svc (bytes : List Byte)
  /-- response data written to a command's response buffer -/
  | response (queue : Nat) (bytes : List Byte)
  /-- a record written into a posted stream buffer, with its frame and padding (14 Table 14.5) -/
  | stream (queue : Nat) (bytes : List Byte)
  /-- a SWEEP, PILOT or CATCHUP frame on a cell ring from one end: its bytes between the delimiters (04 Tables 4.3, 4.5, 4.9, 4.11) -/
  | ring (ring : Nat) (e : End) (bytes : List Byte)
  /-- a DISCOVER, CONFIG or DELAY frame: its type, its header's bytes, and what its body carries; the body's layout is not given. CONFIG:
  position, 0 block write, 1 block read, 2 commit or 3 firmware, then the values written -/
  | ringService (ring : Nat) (e : End) (type : Nat) (head : List Byte) (fields : List Int)
  /-- an EDGE, STOP or ARM frame on a gate link: its bytes between the delimiters (08 Table 8.3) -/
  | gate (link : Nat) (bytes : List Byte)
  /-- a CONFIG frame on a gate link, whose layout is not given: block 0 configuration, 1 commit, 2 delay of an input, 3 firmware,
  4 PHASE_OC, and the values written -/
  | gateConfig (link block : Nat) (fields : List Int)
  /-- a PTP message: 1 Delay_Req, 2 Pdelay_Req, 3 Pdelay_Resp -/
  | ptp (port type : Nat) (fields : List Int)
  /-- a frame on a pair link whose body's layout is given: its bytes between the delimiters (16 Tables 16.1, 16.2) -/
  | pairBytes (link : Nat) (bytes : List Byte)
  /-- another frame on a pair link: TYPE, FLAGS, PSEQ and TIME of its header, and what its body carries -/
  | pair (link type flags : Nat) (seq : Word) (time : Nat) (f : PairFrame)
  /-- a plant message on an Ethernet port to an IPv4 address: the bytes of the datagram (15 Tables 15.2, 15.3) -/
  | plant (port dst : Nat) (bytes : List Byte)
  /-- an ARP or ICMP reply, or a PRP supervision frame, on an Ethernet port; 0 is the plant pair, EP0 and EP1 -/
  | eth (port type : Nat) (fields : List Int)
  /-- the number in the redundancy control trailer of the frame just sent on both LANs (15 R391) -/
  | prp (seq : BitVec 16)
  /-- a CAN frame: port, identifier, data -/
  | can (port ident : Nat) (data : List Byte)
  /-- a Modbus request: port, unit, function, address, count or values -/
  | modbus (port : Nat) (fields : List Int)
  /-- a DIO pin driven, or released (an input) -/
  | dio (pin : Nat) (level : Option Bool)
  /-- the answer to a read of a register at its own offset (19 R478) -/
  | read (offset : Nat) (value : Word)
  /-- a fan or pump pin's duty in 0.1 % and whether its PWM runs at 1 kHz instead of 25 kHz, or released -/
  | fan (pin : Nat) (drive : Option (Nat × Bool))
  deriving DecidableEq, Repr

/-! ### 01: address chain and identity -/

/-- The address chain and the identity (01 R31 to R36; registers ADDR_STAT and MOD_IDENT). -/
structure Chain where
  /-- chain address in use, 0 unaddressed -/
  addr     : Nat
  stale    : Bool
  aciLost  : Bool
  head     : Bool
  full     : Bool
  assigned : Bool
  /-- last valid value on ACI, 0 none -/
  aciValue : Nat
  /-- the stored address (kept through a start), with its stale flag -/
  stored   : Option Nat
  /-- MOD_IDENT: the identity in force (Table 1.2) -/
  identity : Word
  /-- an identity formed and not yet in force (R36) -/
  identityNext : Option Word
  deriving DecidableEq, Repr

/-- At t0 of a start with nothing stored. -/
def Chain.reset : Chain where
  addr := 0
  stale := false
  aciLost := false
  head := false
  full := false
  assigned := false
  aciValue := 0
  stored := none
  identity := 0
  identityNext := none

/-! ### 02: engines and the margin plan -/

/-- One of the 23 engines, in the order of Table 2.3's SLACK field. -/
structure Engine where
  /-- times of its faults in the last 24 h (R61) -/
  faults    : List Nat
  reloading : Bool
  failed    : Bool
  /-- successful residue retries of the minute (R57) -/
  retries   : Nat
  /-- corrected slack of the last round, 0.01 % (R43) -/
  slack     : Int
  /-- consecutive rounds below the trigger (R45) -/
  low       : Nat
  /-- worst corrected slack of the day (R44) -/
  worst     : Int
  /-- its canary's lap sum of the last round: 64 laps in ns, a multiple of 4 (R43) -/
  laps      : Nat
  deriving DecidableEq, Repr

/-- One prediction of the margin plan: the engine with the lowest slack and that slack, 0.01 % (R53). -/
structure Predicted where
  engine : Nat
  slack  : Int
  deriving DecidableEq, Repr

/-- The margin plan (02 Table 2.4). Profiles: 0 Gorse, 1 Heather, 2 Cowslip. -/
structure Plan where
  /-- Heather supply in 10 mV steps above 0.70 V -/
  heather   : Nat
  permitted : List Bool
  years     : Nat
  ceiling   : Nat
  /-- picoseconds per cost unit, per profile -/
  unitCost  : List Nat
  predicted : List Predicted
  /-- projected floor date, event time; none: beyond 254 years or no projection -/
  floorDate : Option Nat
  /-- the reading of the supply models its predictions come from -/
  draw      : Nat
  deriving DecidableEq, Repr

/-- One slack history record (Table 2.3). -/
structure SlackRec where
  time    : Nat
  slack   : List Int
  vcoreH  : Nat
  profile : Nat
  tdieMax : Int
  deriving DecidableEq, Repr

/-- The fabric: engines, codes, plan, profile. -/
structure Fabric where
  engines      : List Engine
  /-- words or lines corrected in the hour: SRAM, working memory, MRAM (R58) -/
  corrected    : List Nat
  history      : List SlackRec
  /-- records that wait while MRAM writes are barred (10 R278), oldest first -/
  historyWaits : List SlackRec
  /-- days of canary readings (R43) -/
  readDays     : Nat
  plan         : Plan
  /-- time of the last monthly plan; before the first one, of the first plan (R45) -/
  planAt       : Option Nat
  /-- cause of the last plan: 0 start, 1 monthly, 2 trigger -/
  planCause    : Nat
  /-- core supply now, 10 mV steps above 0.70 V; it moves one step per cycle boundary (R47) -/
  vcore        : Nat
  /-- the supply it moves towards -/
  vcoreTarget  : Nat
  /-- active profile -/
  profile      : Nat
  /-- sweep period in force, µs -/
  sweepUs      : Nat
  /-- a new sweep period that begins at the next multiple of 4 ms (R52) -/
  sweepNext    : Option Nat
  /-- a withdrawn profile is kept until the stage is OFF or ARMED (R55) -/
  profileHeld  : Bool
  /-- a move to another profile is due at the next cycle boundary (R55) -/
  profileMove  : Bool
  /-- highest die temperature of the day, 0.1 °C -/
  tdieMax      : Int
  /-- rounds of the day spent in each profile -/
  profileDay   : List Nat
  /-- MARGIN_STAT.WORST_SLACK, percent -/
  worstSlack   : Nat
  deriving DecidableEq, Repr

def Engine.reset : Engine where
  faults := []
  reloading := false
  failed := false
  retries := 0
  slack := 10000
  low := 0
  worst := 10000
  laps := 0

/-- The plan until the first plan: Heather at 0.80 V, permitted alone (Table 2.10). DESIGN CHOICE: the ceiling, unit costs
and predicted slacks, of which the table says nothing (log 24). -/
def Plan.reset : Plan where
  heather := 10
  permitted := [false, true, false]
  years := 255
  ceiling := 4096
  unitCost := [0, 0, 0]
  predicted := [⟨0, 10000⟩, ⟨0, 10000⟩, ⟨0, 10000⟩]
  floorDate := none
  draw := 0

def Fabric.reset : Fabric where
  engines := List.replicate 23 Engine.reset
  corrected := [0, 0, 0]
  history := []
  historyWaits := []
  readDays := 0
  plan := Plan.reset
  planAt := none
  planCause := 0
  vcore := 10
  vcoreTarget := 10
  profile := 1
  sweepUs := 1000
  sweepNext := none
  profileHeld := false
  profileMove := false
  tdieMax := -400
  profileDay := [0, 0, 0]
  worstSlack := 0

/-! ### 03: time base -/

/-- TIME_STAT.STATE (Table 3.11). -/
inductive TimeState where
  | free
  | lockedEp0
  | lockedEp1
  | lockedEp2
  | follower
  | holdover
  | refused
  deriving DecidableEq, Repr

/-- A clock's port: 0 EP0, 1 EP1, 2 EP2. -/
abbrev Ep := Nat

/-- The time base and network time (03). -/
structure TimeBase where
  /-- the fine counter: bits [95:32] nanoseconds, bits [31:0] a fraction (R62) -/
  fine       : BitVec 96
  /-- the increment, units of 2^-32 ns (R62, R63) -/
  increment  : BitVec 36
  /-- the step offset, ns (R64) -/
  stepOffset : Int
  /-- EVT_NOW.HI as latched -/
  hiLatch    : Word
  rateValid  : Bool
  /-- the oscillator runs on the on-die backup (R68) -/
  onBackup   : Bool
  st         : TimeState
  traceable  : Bool
  locked     : Bool
  leader     : Bool
  stepped    : Bool
  /-- last measured offset, ns (saturating in the register) -/
  offset     : Int
  /-- consecutive offsets of 1 µs or less (R80) -/
  lockRun    : Nat
  /-- the next offset passes the jump test (R81) -/
  jumpTest   : Bool
  /-- an offset has been taken since start (R81, R83) -/
  taken      : Bool
  /-- the leader's latest measured offset, ns (R86, R87) -/
  leadOffset : Int
  /-- the counter has been set in the start wait (R84) -/
  setOnce    : Bool
  /-- end of the start wait while it runs -/
  startWait  : Option Nat
  /-- selected grandmaster's clockIdentity -/
  gm         : Option (BitVec 64)
  /-- the last grandmaster selected since start (R83) -/
  gmLast     : Option (BitVec 64)
  /-- another qualified master exists -/
  otherMaster : Option (BitVec 64)
  utcOffset  : Int
  leap61     : Bool
  leap59     : Bool
  utcValid   : Bool
  /-- mean path delay of EP0, EP1, EP2, ns -/
  pathDelay  : List Int
  /-- offset of EP0, EP1, EP2 not yet compared, ns (R78) -/
  portOffset : List (Option Int)
  /-- a two-step Sync waiting for its Follow_Up, per port: sequence number and ingress time (system ns) -/
  syncWait   : List (Option (BitVec 16 × Int))
  /-- port in use -/
  port       : Ep
  /-- consecutive measurements with the ports more than 1 µs apart (R78) -/
  skewRun    : Nat
  /-- consecutive measurements with the own offset more than 1 µs from the leader (R74) -/
  disagreeRun : Nat
  /-- since when the two pair links' results differ by more than 10 ns (R72) -/
  pairSkewSince : Option Nat
  /-- EV_PAIR_TIME_SKEW is recorded for the present difference -/
  pairSkewTold : Bool
  /-- last results of PX0 and PX1 while the link is in service, ns -/
  pairResult : List (Option Int)
  /-- the committed time registers differ from the partner's (R76) -/
  cfgDiff    : Bool
  /-- the sequence number of the next Delay_Req or Pdelay_Req, per port -/
  reqSeq     : List (BitVec 16)
  /-- fine-counter times of the last thermal round, die sample, telemetry window end, cycle boundary, safety tick, canary round, slack
  history record, minute report and hour report -/
  ticks      : List Nat
  deriving DecidableEq, Repr

def TimeBase.reset : TimeBase where
  fine := 0
  increment := 0x400000000
  stepOffset := 0
  hiLatch := 0
  rateValid := false
  onBackup := false
  st := .free
  traceable := false
  locked := false
  leader := false
  stepped := false
  offset := 0
  lockRun := 0
  jumpTest := false
  taken := false
  leadOffset := 0
  setOnce := false
  startWait := none
  gm := none
  gmLast := none
  otherMaster := none
  utcOffset := 0
  leap61 := false
  leap59 := false
  utcValid := false
  pathDelay := [0, 0, 0]
  portOffset := [none, none, none]
  syncWait := [none, none, none]
  port := 0
  skewRun := 0
  disagreeRun := 0
  pairSkewSince := none
  pairSkewTold := false
  pairResult := [none, none]
  cfgDiff := false
  reqSeq := [0, 0, 0]
  ticks := List.replicate 9 0

/-! ### 04: cell ring. Stations are numbered 0 to 31 for cell stations, 32 and 33 for current stations 0 and 1. -/

/-- The primary part of a slot, taken with a valid P_CRC (Tables 4.5 to 4.7). -/
structure Prim where
  status : Byte
  info   : Byte
  /-- balancing switches that conduct at the instant -/
  bal    : BitVec 16
  dieT   : Int
  /-- cell voltages, 1 µV, as sent -/
  cells  : List Int
  /-- thermistors, 0.01 °C, as sent -/
  th     : List Int
  /-- stack, 10 µV -/
  stack  : Int
  flags  : Byte
  /-- current station: P_I, 1 mA; P_Q, 1 µC modulo 2^48; shunt temperature -/
  i      : Int
  q      : Nat
  tsh    : Int
  deriving DecidableEq, Repr

/-- The secondary part of a slot, taken with a valid S_CRC. -/
structure Sec where
  status : Byte
  info   : Byte
  /-- cell voltages, 1.25 mV, as sent -/
  cells  : List Nat
  /-- thermistors, 0.1 °C, as sent -/
  th     : List Int
  /-- stack, 2 mV -/
  stack  : Nat
  flags  : Byte
  /-- current station: S_I, 10 mA; shunt temperature -/
  i      : Int
  tsh    : Int
  deriving DecidableEq, Repr

/-- The results of one grid instant, by station; the fluxgate current in mA where one is fitted. -/
structure Sweep where
  at_  : Nat
  prim : List (Option Prim)
  sec  : List (Option Sec)
  fg   : Option Int
  deriving DecidableEq, Repr

/-- A result still to be collected (R95): station, instant, and which chains. -/
structure Owed where
  station : Nat
  at_     : Nat
  prim    : Bool
  sec     : Bool
  deriving DecidableEq, Repr

/-- A result that came late (R108). -/
structure Late where
  station : Nat
  at_     : Nat
  prim    : Option Prim
  sec     : Option Sec
  /-- the first collection deadline from this instant on uses it (16 Table 16.3) -/
  from_   : Nat
  deriving DecidableEq, Repr

/-- A command to a station: opcode of Table 4.10 and argument. -/
structure RingCmd where
  op  : Nat
  arg : Nat
  deriving DecidableEq, Repr

/-- Segments of a side-channel message received so far (R97). -/
structure SideBuf where
  msg   : Nat
  no    : Nat
  last  : Nat
  segs  : List (Nat × List Byte)
  deriving DecidableEq, Repr

/-- A whole side-channel message. -/
structure Message where
  station : Nat
  msg     : Nat
  no      : Nat
  data    : List Byte
  deriving DecidableEq, Repr

/-- What the module keeps of one station (R98 to R114). -/
structure Station where
  /-- discovered at its position with the mapped type, and its ring in service -/
  present   : Bool
  serial    : BitVec 64
  fw        : Word
  unconf    : Bool
  /-- a station start is under way -/
  starting  : Bool
  /-- no primary result of a sweep has come since its ring start (10 R261) -/
  fresh     : Bool
  /-- consecutive sweeps with primary results missing, valid; the same for secondary results -/
  pMiss     : Nat
  pGood     : Nat
  sMiss     : Nat
  sGood     : Nat
  pLost     : Bool
  sLost     : Bool
  /-- command counter last issued, and the command not yet answered -/
  cnt       : Nat
  open_     : Option RingCmd
  queue     : List RingCmd
  issued    : Nat
  executed  : Nat
  gaps      : Nat
  refused   : Nat
  /-- counters given up without an answer (R99, R100) -/
  unanswered : Nat
  /-- the commanded state: balancing mask, open-wire mask, demodulation plan (R99) -/
  bal       : Nat
  ow        : Nat
  plan      : Option Nat
  /-- delay to the position, ns, as last written (R105) -/
  delay     : Int
  side      : Option SideBuf
  /-- number of the last message taken whole -/
  sideSeen  : Option Nat
  /-- the version in the second firmware slot, to which the station is to change (18 R456) -/
  fwPending : Option Word
  deriving DecidableEq, Repr

/-- Ring states (Table 4.13). -/
inductive RingSt where
  | off
  | start
  | normal
  | degraded
  | down
  | refused
  deriving DecidableEq, Repr

/-- One cell ring. -/
structure RingLine where
  st       : RingSt
  reachA   : Nat
  reachB   : Nat
  breakPos : Nat
  abOk     : Bool
  baOk     : Bool
  /-- last arrival of a valid partner token on this ring, and its TCNT -/
  tokenAt  : Option Nat
  tokenCnt : Option Byte
  los      : List Bool
  /-- a frame from the A-end has reached the B-end since the last sweep instant, and the other way -/
  seenAB   : Bool
  seenBA   : Bool
  /-- no SWEEP before this instant (Table 4.12) -/
  startAt  : Nat
  /-- since when frames of both ends have crossed unwrapped (R110) -/
  wholeSince : Option Nat
  /-- a break whose place is not known yet, and since when (R107): its event is still to be recorded -/
  untold   : Option Nat
  /-- the sweep instant from which the ring is normal again (R110) -/
  restoreAt : Option Nat
  /-- discovery from the A-end and from the B-end, and whether it crossed the whole ring -/
  found    : List (Option (List Found))
  whole    : Bool
  crcErr   : Nat
  miswired : Bool
  deriving DecidableEq, Repr

/-- The cell rings (04). -/
structure Ring where
  lines      : List RingLine
  stations   : List Station
  /-- the map built by discovery: station, ring, position (R115) -/
  discovered : List (Nat × Nat × Nat)
  /-- last grid instant; the sweep being collected; the last complete sweep -/
  grid       : Nat
  cur        : Option Sweep
  last       : Option Sweep
  owed       : List Owed
  late       : List Late
  /-- presence token counter; the ring presence path is lost -/
  tcnt       : Byte
  lost       : Bool
  msgs       : List Message
  /-- fluxgate currents of the last grid instants, newest first, mA -/
  fg         : List Int
  deriving DecidableEq, Repr

def Station.reset : Station where
  present := false
  serial := 0
  fw := 0
  unconf := false
  starting := false
  fresh := true
  pMiss := 0
  pGood := 0
  sMiss := 0
  sGood := 0
  pLost := false
  sLost := false
  cnt := 0
  open_ := none
  queue := []
  issued := 0
  executed := 0
  gaps := 0
  refused := 0
  unanswered := 0
  bal := 0
  ow := 0
  plan := none
  delay := 0
  side := none
  sideSeen := none
  fwPending := none

def RingLine.reset : RingLine where
  st := .off
  reachA := 0
  reachB := 0
  breakPos := 7
  abOk := false
  baOk := false
  tokenAt := none
  tokenCnt := none
  los := [false, false]
  seenAB := false
  seenBA := false
  startAt := 0
  wholeSince := none
  untold := none
  restoreAt := none
  found := [none, none]
  whole := false
  crcErr := 0
  miswired := false

def Ring.reset : Ring where
  lines := List.replicate 8 RingLine.reset
  stations := List.replicate 34 Station.reset
  discovered := []
  grid := 0
  cur := none
  last := none
  owed := []
  late := []
  tcnt := 0
  lost := false
  msgs := []
  fg := []

/-! ### 05: cell measurement and balancing -/

/-- One station input (tap wire): its open-wire test (R127 to R131). -/
structure Tap where
  suspect : Bool
  open_   : Bool
  /-- consecutive intact results since the open verdict -/
  intact  : Nat
  /-- retests made after an inconclusive shift, and when the next is due -/
  retests : Nat
  retestAt : Option Nat
  /-- a test ordered on suspicion is due -/
  ordered : Bool
  /-- time of the last test ordered on suspicion -/
  testedAt : Option Nat
  deriving DecidableEq, Repr

/-- What the module keeps of one cell's measurement and balancing. Voltages in 1 µV. -/
structure Cell where
  /-- sums of the second's primary and secondary results, and their number (R125) -/
  sumP    : Int
  sumS    : Int
  n       : Nat
  /-- consecutive seconds beyond MEAS_CFG.PS, and the time of the last event -/
  psRun   : Nat
  psAt    : Option Nat
  /-- flagged invalid for estimation -/
  flagP   : Bool
  flagS   : Bool
  /-- results are set aside from one instant to another (R300, R139) -/
  asideFrom : Nat
  asideTo : Nat
  /-- the voltage the module reports for display, and whether it is a substitute (R131) -/
  shown   : Int
  subst   : Bool
  /-- balancing: candidate, channel commanded on, since when, order of start -/
  cand    : Bool
  on      : Bool
  onAt    : Nat
  order   : Nat
  excess  : Int
  /-- charge mode: sink account at the start and target, mC (R138) -/
  target  : Option (Int × Int)
  /-- LEAD bits in a row; the lead is judged open (R141) -/
  leadRun : Nat
  leadOpen : Bool
  /-- last EV_CELL_SUSPECT and its deviation, µV; last EV_IMP_OUTLIER of R0 and of RCT -/
  suspAt  : Option (Nat × Int)
  outAt   : List (Option Nat)
  deriving DecidableEq, Repr

/-- What the module keeps of one cell station's measurement. -/
structure StationM where
  taps    : List Tap
  /-- consecutive sweeps with a sum mismatch, primary and secondary; the last difference in µV -/
  sumRun  : List Nat
  sumDiff : List Int
  /-- consecutive sweeps with an unused channel outside ±5 mV, by channel -/
  unused  : List Nat
  /-- last stack result, 10 µV (09 R231) -/
  stack   : Int
  /-- duty D in 0.01 % (R135) and the last EV_BAL_DERATED -/
  duty    : Nat
  deratedAt : Option Nat
  /-- calibration: next step while a round runs; time of the last round's start -/
  calStep : Option Nat
  calAt   : Option Nat
  /-- time of the odd-numbered test that follows the even one -/
  oddAt   : Option Nat
  /-- tests ordered: time and mask, newest first -/
  tests   : List (Nat × Nat)
  /-- last instant with a result; time unheard beyond the station ring timeout since the last booked message 0x04 (R190,
  R191) -/
  heardAt : Nat
  unheard : Nat
  /-- channels commanded on since then -/
  wasOn   : Nat
  deriving DecidableEq, Repr

/-- Cell measurement, current paths and balancing (05). Current paths: 0 and 1 current stations, 2 fluxgate, 3 none. -/
structure Meas where
  cells    : List Cell
  stations : List StationM
  /-- deviations of the cells from their station's median, times 2, over the last 10 s, newest first (R126) -/
  devs     : List (Nat × List (Option Int))
  path     : Nat
  /-- the second's sums of the primary, the fluxgate, the third opinion and current stations 0 and 1, mA, and their numbers
  (R123) -/
  curSum   : List Int
  curN     : List Nat
  disRun   : Nat
  /-- paths judged wrong, and since when each has agreed: a current station with the fluxgate, the fluxgate with the primary -/
  wrong    : List Bool
  agreeFrom : List (Option Nat)
  /-- ns of rest accumulated (R137); none while a valid current is missing -/
  rest     : Nat
  /-- instant and lowest valid cell voltage, µV, of the sweeps of the last second, newest first -/
  lows     : List (Nat × Int)
  /-- last balancing decision; BAL_CFG.MODE at the last sweep -/
  decidedAt : Nat
  balMode  : Nat
  order    : Nat
  /-- BAL_STAT.WAITING -/
  waiting  : Nat
  /-- current of the last sweep on the ledger's path, mA, and the largest deviation kept for R167 -/
  iLast    : Option Int
  /-- primary currents of the sweeps of the last second, newest first, mA -/
  iHist    : List Int
  /-- busbar diagnoses: tap, time of the last event, rises of its two cells in µΩ -/
  busbar   : List (Nat × Nat × Int × Int)
  /-- one sample a day, taken at rest, of the last 30 days, newest first: time and, by upper cell of each pair, its
  deviation from the station's median pair sum, µV (R132) -/
  pairs    : List (Nat × List (Option Int))
  /-- deviations of the cells from their station's median in the last second at rest and in the last second above REST, µV
  (R130) -/
  restDevs : List (Option Int)
  loadDevs : List (Option Int)
  deriving DecidableEq, Repr

def Tap.reset : Tap := ⟨false, false, 0, 0, none, false, none⟩

def Cell.reset : Cell where
  sumP := 0
  sumS := 0
  n := 0
  psRun := 0
  psAt := none
  flagP := false
  flagS := false
  asideFrom := 1
  asideTo := 0
  shown := 0
  subst := false
  cand := false
  on := false
  onAt := 0
  order := 0
  excess := 0
  target := none
  leadRun := 0
  leadOpen := false
  suspAt := none
  outAt := [none, none]

def StationM.reset : StationM where
  taps := List.replicate 17 Tap.reset
  sumRun := [0, 0]
  sumDiff := [0, 0]
  unused := List.replicate 16 0
  stack := 0
  duty := 10000
  deratedAt := none
  calStep := none
  calAt := none
  oddAt := none
  tests := []
  heardAt := 0
  unheard := 0
  wasOn := 0

def Meas.reset : Meas where
  cells := List.replicate 512 Cell.reset
  stations := List.replicate 32 StationM.reset
  devs := []
  path := 3
  curSum := [0, 0, 0, 0, 0]
  curN := [0, 0, 0, 0, 0]
  disRun := 0
  wrong := [false, false, false]
  agreeFrom := [none, none, none]
  rest := 0
  lows := []
  decidedAt := 0
  balMode := 1
  order := 0
  waiting := 0
  iLast := none
  iHist := []
  busbar := []
  pairs := []
  restDevs := []
  loadDevs := []

/-! ### 06: estimation and impedance -/

/-- The numbers the estimator carries for one cell (Table 6.1): soc and h in 10^-9, voltages in nV, cap in µC, resistances in nΩ (r0
and r_ct at `tspec`), time constants in µs, temperatures in 10^-9 °C, variances in the square of the unit (soc and voltages 10^-18).
`cov` holds the covariances soc-soc, soc-v1, soc-v2, v1-v1, v1-v2, v2-v2. -/
structure CellModel where
  soc      : Int
  v1       : Int
  v2       : Int
  cov      : List Int
  h        : Int
  cap      : Int
  capVar   : Int
  r0       : Int
  rct      : Int
  r2       : Int
  r0Var    : Int
  rctVar   : Int
  tau1     : Int
  tau2     : Int
  tcore    : Int
  tcoreVar : Int
  /-- core temperature at which the last spectrum fitted r0 and r_ct (R160) -/
  tspec    : Int
  /-- reference charge-transfer resistance of the isothermal moments and its temperature; 0 before the first (R161) -/
  rctRef   : Int
  tref     : Int
  deriving DecidableEq, Repr, Inhabited

/-- Confidence bounds (R152): soc in 0.01 %, cap in 10 mAh, r0 and r_ct in 10 nΩ, v1 and v2 in 1 µV, core temperature in 0.01 K. -/
structure CellBounds where
  soc   : Nat
  cap   : Nat
  r0    : Nat
  rct   : Nat
  v1    : Nat
  v2    : Nat
  tcore : Nat
  deriving DecidableEq, Repr, Inhabited

/-- A fitted spectrum's parameters (R176): nΩ, ns, 10^-6, µs, pH. -/
structure FitPar where
  r0    : Int
  rct   : Int
  tau1  : Int
  alpha : Int
  r2    : Int
  tau2  : Int
  l     : Int
  deriving DecidableEq, Repr, Inhabited

/-- A fit: its parameters, the residual rms in nΩ, whether it converged. -/
structure Fit where
  par   : FitPar
  resid : Int
  converged : Bool
  deriving DecidableEq, Repr, Inhabited

/-- Validity of an estimate (Table 6.5). -/
inductive Validity where
  | invalid
  | converging
  | valid
  deriving DecidableEq, Repr

/-- An anchor (R158): soc in 10^-9 and the booked charge in nC. -/
structure Anchor where
  soc : Int
  q   : Int
  deriving DecidableEq, Repr

/-- A capacity or a fit that takes effect at the first sweep of the next whole second (R149): when it was computed, the
measured capacity moved towards (µC) with the span of soc of its pair, the fit moved towards with the core temperature it was fitted
at. -/
structure NextPar where
  at_ : Nat
  cap : Option (Int × Int)
  fit : Option (Fit × Int)
  deriving DecidableEq, Repr

/-- The estimator's record of one cell. -/
structure EstCell where
  model    : CellModel
  st       : Validity
  since    : Nat
  /-- consecutive sweeps with a usable voltage; last instant with one -/
  usable   : Nat
  usedAt   : Nat
  /-- consecutive updates with a large innovation (R154) -/
  innovRun : Nat
  innov    : Int
  predictOnly : Bool
  secUsed  : Bool
  /-- correction charge not yet handed over, µC (R157) -/
  corr     : Int
  /-- charge implied for balancing since the last message 0x04, and the extra term to apply, nC (R146) -/
  implied  : Int
  extra    : Int
  /-- charge booked for the cell since start, nC -/
  booked   : Int
  /-- time of prediction still to be made up after an outage of its engine or of the module, ns, and its charge, nC (R155, R156) -/
  lag      : Nat
  away     : Int
  /-- predictions of the last 64 grid instants: instant, predicted voltage in nV, sensitivity to soc (R148) -/
  hist     : List (Nat × Int × Int)
  /-- anchors since the last unobserved interval: the lowest and the highest -/
  anchors  : List Anchor
  capAt    : Option Nat
  /-- capacity or parameters that take effect at the next whole second (R149) -/
  next     : Option NextPar
  /-- times of isothermal moments, and core temperature validated (R161) -/
  isoAt    : List Nat
  coreOk   : Bool
  /-- parameters of its last converged fit, from which the next one starts (R176) -/
  prevFit  : Option FitPar
  /-- a spectrum changed parameters since the last block -/
  changed  : Bool
  /-- its last spectrum showed a rise at every frequency, or a non-physical point (R130) -/
  rise     : Bool
  nonPhys  : Bool
  deriving DecidableEq, Repr

/-- Phases of an impedance run (IMP_STAT.PHASE). -/
inductive ImpPhase where
  | idle
  | settling
  | measuring
  | waiting
  deriving DecidableEq, Repr

/-- One tone's result of one station (R172): phasors as real and imaginary parts. -/
structure Tone where
  station : Nat
  seg     : Nat
  tone    : Nat
  grid    : BitVec 16
  acc     : Nat
  sflags  : Nat
  /-- cell voltages 0.01 µV, then the stack 0.1 µV; or the current, 10 µA -/
  ph      : List (Int × Int)
  deriving DecidableEq, Repr

/-- A spectrum of one cell as stored for baselines (R178). -/
structure Spectrum where
  cell  : Nat
  time  : Nat
  tsurf : Int
  soc   : Int
  z     : List (Int × Int)
  /-- it did not give rise to a connection diagnosis -/
  clean : Bool
  deriving DecidableEq, Repr

/-- An ended run whose spectra are not sent yet: what their records say of it (Table 6.14). -/
structure DoneRun where
  abandoned : Bool
  run      : Word
  kind     : Nat
  tA       : Nat
  minPeak  : Nat
  segPeaks : List (Nat × Int)
  segsDone : Nat
  runSum   : Int
  runN     : Nat
  soc0     : List Int
  tsSum    : List Int
  tsN      : Nat
  /-- cells that had an open wire at some sweep of the run (R178) -/
  opens    : List Nat
  deriving DecidableEq, Repr

/-- An impedance run (R163 to R174). -/
structure Imp where
  phase    : ImpPhase
  run      : Word
  /-- 0 scheduled, 1 requested -/
  kind     : Nat
  seg      : Nat
  win      : Nat
  /-- start of the present segment's windows, ns, and of segment A's -/
  ts       : Nat
  tA       : Nat
  restarts : Nat
  waited   : Nat
  /-- excitation peak of the segment and smallest of the run, 0.01 % of rated current -/
  peak     : Nat
  minPeak  : Nat
  /-- excitation peak of the segment, nA; by segment, GRID of t_s and peak -/
  peakNa   : Int
  segPeaks : List (Nat × Int)
  /-- the stations are to be armed within the last second before t_s (R170) -/
  armDue   : Bool
  /-- sum and number of the current of the present window, mean of the previous one (mA), sign seen, window spoiled -/
  winSum   : Int
  winN     : Nat
  prevMean : Option Int
  signs    : List Bool
  spoiled  : Bool
  /-- sum and number of the current over the run -/
  runSum   : Int
  runN     : Nat
  /-- segments completed -/
  segsDone : Nat
  /-- ended runs whose spectra are not sent yet, oldest first -/
  done     : List DoneRun
  lastOk   : Bool
  skipping : Bool
  skipAt   : Option Nat
  /-- a requested run starts at this time -/
  request  : Option Nat
  lastRun  : Option Nat
  tones    : List Tone
  soc0     : List Int
  /-- sums of the surface temperatures over the run, and their number -/
  tsSum    : List Int
  tsN      : Nat
  opens    : List Nat
  deriving DecidableEq, Repr

/-- Estimation (06). -/
structure Est where
  cells   : List EstCell
  /-- engines in service -/
  running : List Bool
  /-- sequence numbers of the blocks, and the last interval sent (R162) -/
  seq     : List Word
  blockAt : Nat
  /-- a sweep's estimates wait for their release: its grid instant -/
  release : Option Nat
  /-- instant up to which the predictions have run (R147); string charge booked at the present sweep, nC -/
  predTo  : Nat
  dqNow   : Option Int
  /-- midpoint of an unobserved interval booked at the present sweep, nC (R147) -/
  gapQ    : Int
  /-- current of the present sweep, mA, and its source (Table 6.6) -/
  iSweep  : Int
  iSrc    : Nat
  /-- released estimates (R150): cells, grid instant, current, source -/
  pub     : List EstCell
  pubAt   : Nat
  pubI    : Int
  pubSrc  : Nat
  /-- the working-memory checkpoint and its second; the saved restart state in MRAM (R155) -/
  ckpt    : List EstCell
  ckptAt  : Nat
  /-- for each cell, what the ledger had booked for it at the checkpoint but for adjustments, mC -/
  ckptQ   : List Int
  saved   : Option (Nat × List EstCell × List Int)
  /-- an isothermal moment has been taken in this rest (R161) -/
  isoDone : Bool
  /-- cells updated since the last EV_CAPACITY_UPDATED, largest change in µC, and its time (R159) -/
  capN    : Nat
  capMax  : Int
  capTold : Option Nat
  imp     : Imp
  spectra : List Spectrum
  deriving DecidableEq, Repr

def EstCell.reset : EstCell where
  model := default
  st := .invalid
  since := 0
  usable := 0
  usedAt := 0
  innovRun := 0
  innov := 0
  predictOnly := true
  secUsed := false
  corr := 0
  implied := 0
  extra := 0
  booked := 0
  lag := 0
  away := 0
  hist := []
  anchors := []
  capAt := none
  next := none
  isoAt := []
  coreOk := false
  prevFit := none
  changed := false
  rise := false
  nonPhys := false

def Imp.reset : Imp where
  phase := .idle
  run := 0
  kind := 0
  seg := 0
  win := 0
  ts := 0
  tA := 0
  restarts := 0
  waited := 0
  peak := 0
  minPeak := 0
  peakNa := 0
  segPeaks := []
  armDue := false
  winSum := 0
  winN := 0
  prevMean := none
  signs := []
  spoiled := false
  runSum := 0
  runN := 0
  segsDone := 0
  done := []
  lastOk := false
  skipping := false
  skipAt := none
  request := none
  lastRun := none
  tones := []
  soc0 := []
  tsSum := []
  tsN := 0
  opens := []

def Est.reset : Est where
  cells := List.replicate 512 EstCell.reset
  running := [false, false, false, false]
  seq := [0, 0, 0, 0]
  blockAt := 0
  release := none
  predTo := 0
  dqNow := none
  gapQ := 0
  iSweep := 0
  iSrc := 3
  pub := []
  pubAt := 0
  pubI := 0
  pubSrc := 3
  ckpt := []
  ckptAt := 0
  ckptQ := []
  saved := none
  isoDone := false
  capN := 0
  capMax := 0
  capTold := none
  imp := Imp.reset
  spectra := []

/-! ### 07: charge ledger. Amounts in mC, signed 64-bit. -/

/-- A counter baseline of a current station (R504): the booked instant, P_Q, start count and serial number. -/
structure Baseline where
  at_   : Nat
  q     : Nat
  start : Nat × Nat
  deriving DecidableEq, Repr

/-- A ledger record (Tables 7.7 and 7.8): its type and body fields in the order of their table. -/
structure LedgerRec where
  time  : Nat
  lseq  : BitVec 64
  type  : Nat
  flags : Nat
  len   : Nat
  nent  : Nat
  body  : List Int
  deriving DecidableEq, Repr

/-- The balances. -/
structure Balances where
  c  : List Int
  b  : List Int
  a  : List Int
  /-- the totals of S and A, and S's sub-accounts by path -/
  s  : Int
  at_ : Int
  s0 : Int
  s1 : Int
  fg : Int
  u  : Int
  deriving DecidableEq, Repr

/-- A checkpoint image (R196). -/
structure Image where
  w        : Nat
  bal      : Balances
  lseq     : BitVec 64
  rem      : Int
  base     : List (Option Baseline)
  held     : Option Baseline
  /-- the station of the held baseline, and the fluxgate charge booked since it, nC -/
  heldCs   : Nat
  heldFg   : Int
  qbal     : List (List Nat)
  starts   : List (Option (Nat × Nat))
  number   : Word
  ident    : Word
  /-- written on supply loss (R200) -/
  final    : Bool
  /-- event time of the last booked instant, current on it in mA, limits in force -/
  booked   : Nat
  iLast    : Int
  limits   : Int × Int
  path     : Nat
  /-- the records of the seconds up to it that are not released -/
  recs     : List LedgerRec
  /-- its check value is good: its write was not cut short (R198) -/
  good     : Bool
  deriving DecidableEq, Repr

/-- A balancing entry that waits for its sweep (Table 7.2): when the message came, the station, KIND (3: a first message, a baseline
alone), the counters it brought; for an estimated entry the channels commanded on and their allowances in nC (R191). -/
structure BalEntry where
  at_      : Nat
  station  : Nat
  kind     : Nat
  counters : List Nat
  mask     : Nat
  allow    : List Int
  deriving DecidableEq, Repr

/-- The charge ledger (07). -/
structure Ledger where
  open_    : Bool
  bal      : Balances
  /-- next LSEQ, and HI as latched -/
  lseq     : BitVec 64
  hiLatch  : Word
  number   : Word
  /-- string remainder, nC -/
  rem      : Int
  /-- last booked instant, and the instant of the last sweep that came up for booking; its service condition (Table 7.3) -/
  booked   : Nat
  sweepAt  : Nat
  serving  : Bool
  /-- readings of current stations 0 and 1 of the last 4 s, newest first; the booked instants and the limits at each sweep of that time;
  held baseline of the primary and its station (R187, R504) -/
  base     : List (List Baseline)
  instants : List Nat
  marks    : List (Nat × Int × Int)
  held     : Option Baseline
  heldCs   : Nat
  /-- charge booked from the fluxgate since the held baseline, nC -/
  heldFg   : Int
  /-- start counts and serial numbers of stations, by station; QBAL baselines per cell station -/
  starts   : List (Option (Nat × Nat))
  qbal     : List (Option (List Nat))
  /-- path now booked -/
  path     : Nat
  /-- sums over the second: by path, entries, deferred entries -/
  dq       : List Int
  sweeps   : Nat
  deferred : Nat
  /-- one of them was booked outside the promise -/
  secOutside : Bool
  /-- LSEQ of the second's first sweep entry -/
  secLseq  : BitVec 64
  /-- records of the present second, oldest first -/
  recs     : List LedgerRec
  /-- frozen seconds waiting for their image: W and its records (R195) -/
  waiting  : List (Nat × List LedgerRec)
  /-- adjustment amounts handed over by the estimator for the second -/
  adjust   : List Int
  /-- adjustments of the frozen second still to be posted (Table 7.4); [] none -/
  adjDue   : List Int
  /-- balancing messages to be booked at the next sweep -/
  balWait  : List BalEntry
  /-- the image being written, the images A and B, and which of them is written next; the number of the ledger that went before -/
  writing  : Option Image
  images   : List (Option Image)
  place    : Nat
  oldNumber : Nat
  /-- record store, oldest first, LSEQ of the last record delivered -/
  store    : List LedgerRec
  /-- promise conditions: time base, current measurement, in service -/
  promise  : List Bool
  /-- a gap to be booked after a start: its image (R201) -/
  gap      : Option Image
  /-- string charge, µC, by path, kept while the gap is not booked; first sweep after the start -/
  gapFrom  : Option Nat
  /-- booked while the interval has no valid current: start, limits at that start (R189) -/
  blindFrom : Option (Nat × Int × Int)
  snapDue  : Bool
  /-- sweeps kept while AC2/AC3 reload, newest first (02 Table 2.11) -/
  buffer   : List Sweep
  deriving DecidableEq, Repr

def Balances.zero : Balances where
  c := List.replicate 512 0
  b := List.replicate 512 0
  a := List.replicate 512 0
  s := 0
  at_ := 0
  s0 := 0
  s1 := 0
  fg := 0
  u := 0

def Ledger.reset : Ledger where
  open_ := false
  bal := Balances.zero
  lseq := 0
  hiLatch := 0
  number := 0
  rem := 0
  booked := 0
  sweepAt := 0
  serving := false
  base := [[], []]
  instants := []
  marks := []
  held := none
  heldCs := 0
  heldFg := 0
  starts := List.replicate 34 none
  qbal := List.replicate 32 none
  path := 3
  dq := [0, 0, 0]
  sweeps := 0
  deferred := 0
  secOutside := false
  secLseq := 0
  recs := []
  waiting := []
  adjust := List.replicate 512 0
  adjDue := []
  balWait := []
  writing := none
  images := [none, none]
  place := 0
  oldNumber := 0
  store := []
  promise := [false, false, false]
  gap := none
  gapFrom := none
  blindFrom := none
  snapDue := false
  buffer := []

/-! ### 08: gate links and the stage -/

/-- Stage states (Table 8.9). -/
inductive Stage where
  | off
  | armed
  | startDelay
  | ramp
  | run
  | stopDelay
  | stopRamp
  | tripped
  deriving DecidableEq, Repr

/-- Receiver states (Table 8.5). -/
inductive RState where
  | reset
  | unconf
  | stopped
  | armed
  | run
  | tripped
  deriving DecidableEq, Repr

/-- What the module holds of one phase from its receiver's STATUS frames. Units of Table 8.6: 50 mA, 0.1 °C. -/
structure PhaseRx where
  i      : Int
  tHi    : Int
  tLo    : Int
  flags  : BitVec 16
  seq    : Word
  /-- consecutive periods with OC, with REJECT; consecutive frames above SW_OT -/
  ocRun  : Nat
  rejRun : Nat
  otRun  : Nat
  /-- STATUS frames since the last that showed a copy from the partner (16 R434) -/
  noPeer : Nat
  /-- a STATUS has arrived for the present phase period (09 R243) -/
  fresh  : Bool
  /-- a copy it concerns was missed (Table 8.13, signal 57) -/
  missed : Bool
  /-- its earliest receipt at either twin (16 R420) -/
  rxAt   : Nat
  deriving DecidableEq, Repr

/-- One receiver. -/
structure Receiver where
  started  : Bool
  miswired : Bool
  rstate   : RState
  version  : Word
  /-- the rest of its identity record (Table 8.8): type, revision, serial number, role seen on inputs 1 and 2 (0 none, 1 senior,
  2 junior) -/
  kind     : Nat
  revision : Nat
  serial   : BitVec 64
  seen1    : Nat
  seen2    : Nat
  /-- identified in this link start; when its configuration was written -/
  known    : Bool
  confAt   : Nat
  /-- receipt of its last STATUS (R221) -/
  statusAt : Nat
  /-- delay of the own input, ns (R218), and whether it awaits its CONFIG write -/
  delay    : Int
  ovRun    : Nat
  warmAt   : Option Nat
  /-- a STOP or CONFIG of the module's own put it in STOPPED or UNCONF, and no ARMED has been reported since the ARM that follows; that
  ARM has been sent -/
  ownStop  : Bool
  armSent  : Bool
  /-- latest VBUS, 50 mV -/
  vbus     : Nat
  /-- sum and number of the second's delay measurements (R218), ns -/
  delaySum : Int
  delayN   : Nat
  deriving DecidableEq, Repr

/-- A last-fault record (Table 8.12) with its captured samples. -/
structure FaultRec where
  time   : Nat
  count  : Nat
  cls    : Nat
  link   : Nat
  phase  : Nat
  switch : Nat
  profile : Nat
  solo   : Bool
  lost   : Nat
  seq    : Word
  period : Nat
  data   : List Int
  deriving DecidableEq, Repr

/-- A capture after a trip (R228): its record so far; complete and waiting to be written, or still running. -/
structure Capture where
  record   : FaultRec
  complete : Bool
  deriving DecidableEq, Repr

/-- One quantity of the averaged telemetry (R227): sum and count of the window, held peak and valley. -/
structure Quantity where
  sum    : Int
  count  : Nat
  peak   : Option Int
  valley : Option Int
  deriving DecidableEq, Repr

/-- Gate links and stage (08). -/
structure Gate where
  stage     : Stage
  /-- time the present state was entered -/
  since     : Nat
  lastTrip  : Option Nat
  /-- a trip of class 7 belongs to the present TRIPPED (R222) -/
  trip7     : Bool
  trips     : Nat
  tripAt    : Nat
  /-- ARM with CLEAR sent after a trip reset -/
  clearing  : Bool
  /-- stop ramp: every phase carries MODE 0b00; STOP sent; ARM sent, and when (R226) -/
  modeOff   : Bool
  stopSent  : Bool
  armAt     : Option Nat
  /-- nominal end of the stop ramp (R225) -/
  stopEnd   : Nat
  receivers : List Receiver
  phases    : List PhaseRx
  /-- since when every VBUS is below BUS_UV -/
  uvSince   : Option Nat
  /-- enables are refused during a firmware activation (18 R466) -/
  blocked   : Bool
  /-- the first condition of R224 and R286 that failed at the last enable refused with ST_STAGE_NOT_READY: 1 configuration, 2 contactors,
  3 receivers, 4 bus voltage, 5 rated current; 0 none -/
  failed    : Nat
  /-- link start under way -/
  starting  : Bool
  slots     : List (Option FaultRec)
  newBits   : List Bool
  captures  : List Capture
  telemSeq  : Word
  telem     : List Quantity
  /-- the last 256 base periods' samples of the 64 signals, newest first (R228) -/
  ring      : List (List Int)
  /-- mean FGI current of the last base period, mA -/
  fgPeriod  : Int
  /-- a peak read re-arms peaks and valleys at the next cycle boundary -/
  rearm     : Bool
  deriving DecidableEq, Repr

def PhaseRx.reset : PhaseRx where
  i := 0
  tHi := 0
  tLo := 0
  flags := 0
  seq := 0
  ocRun := 0
  rejRun := 0
  otRun := 0
  noPeer := 0
  fresh := false
  missed := false
  rxAt := 0

def Receiver.reset : Receiver where
  started := false
  miswired := false
  rstate := .reset
  version := 0
  kind := 0
  revision := 0
  serial := 0
  seen1 := 0
  seen2 := 0
  known := false
  confAt := 0
  statusAt := 0
  delay := 0
  ovRun := 0
  warmAt := none
  ownStop := true
  armSent := false
  vbus := 0
  delaySum := 0
  delayN := 0

def Gate.reset : Gate where
  stage := .off
  since := 0
  lastTrip := none
  trip7 := false
  trips := 0
  tripAt := 0
  clearing := false
  modeOff := false
  stopSent := false
  armAt := none
  stopEnd := 0
  receivers := List.replicate 8 Receiver.reset
  phases := List.replicate 16 PhaseRx.reset
  uvSince := none
  blocked := false
  failed := 0
  starting := false
  slots := List.replicate 12 none
  newBits := List.replicate 12 false
  captures := []
  telemSeq := 0
  telem := List.replicate 6 ⟨0, 0, none, none⟩
  ring := []
  fgPeriod := 0
  rearm := false

/-! ### 09: loop engines. Currents in nA, voltages in µV unless said. -/

/-- One phase current loop (R240, R241). -/
structure PhaseLoop where
  /-- in service (not shed), share in 10^-9 -/
  active  : Bool
  share   : Int
  integ   : Int
  /-- predicted current at the next sample -/
  pred    : Int
  /-- duty sent, as voltage command over bus voltage -/
  dNum    : Int
  dDen    : Int
  err     : Int
  ref     : Int
  frozen  : Bool
  clampHi : Bool
  clampLo : Bool
  /-- the next frame released at or after this time carries RESTART -/
  restart : Option Nat
  /-- restored by a load-step abort and not yet conducting -/
  waiting : Bool
  /-- phase periods left of a share fade (R249), of a restart (R251); reference at its start -/
  fade    : Nat
  rst     : Nat
  rstFrom : Int
  /-- full number of the last phase period whose EDGE was released, of the last one computed; the EDGE carried MODE 0b00 -/
  sent    : Nat
  done    : Nat
  offSent : Bool
  /-- SHIFT now and the one it moves to, ON and OFF, 0.5 ns -/
  shift   : Nat
  shiftTo : Nat
  on      : Nat
  off     : Nat
  /-- bank in use, swapped at the next phase period -/
  bank    : Bool
  /-- its loop has computed since it was taken into service or restarted -/
  ready   : Bool
  deriving DecidableEq, Repr

/-- Shedding (R247 to R251), LOOP_STAT.SHED. -/
inductive ShedSt where
  | steady
  | shedding (link : Nat)
  | restoring (link : Nat)
  /-- a load-step abort with its detected error in mA, until the phases reach their SHIFT values -/
  | aborting (err : Int)
  | dwell (till : Nat)
  deriving DecidableEq, Repr

/-- State of an engine's capture memory (LOOP_STAT.DIAG); it is delivering while its records wait in the trace backlog. -/
inductive DiagSt where
  | idle
  | armed
  | capturing
  deriving DecidableEq, Repr

/-- A diagnostic capture of one loop engine (R254 to R257). -/
structure Diag where
  st      : DiagSt
  capno   : Word
  /-- use at the start, aborted, system time of the newest sample in ns, trigger index -/
  use     : Nat
  aborted : Bool
  time    : Nat
  trigIdx : Nat
  /-- an injection accepted in both twins starts at the next base period -/
  startDue : Bool
  injecting : Bool
  injFrom : Nat
  /-- the capture memory: samples of eight signals, newest first; cycles since the last sample -/
  mem     : List (List Int)
  cyc     : Nat
  /-- signal 0 at the last two samples, newest first; when the capture was armed -/
  level   : List Int
  armedAt : Nat
  deriving DecidableEq, Repr

/-- The loop engines (09). -/
structure Loop where
  /-- mode in force: 0 current, 1 power, 2 droop -/
  mode     : Nat
  r        : Int
  target   : Int
  /-- mode that formed the target in force -/
  tgtMode  : Nat
  /-- targets waiting for their release, oldest first: the instant, the value, the mode that formed it (R232) -/
  targets  : List (Nat × Int × Nat)
  /-- droop: v_tgt, v_set, integrator (nA at the bus), bank in use, last err -/
  vTgt     : Int
  vSet     : Int
  integ    : Int
  vltBank  : Bool
  /-- current bank in use -/
  curBank  : Bool
  vltErr   : Int
  /-- droop mode begins at the next sweep: place the load line (R235) -/
  place    : Bool
  satCur   : Bool
  satVlt   : Bool
  vMoving  : Bool
  phases   : List PhaseLoop
  shed     : ShedSt
  /-- since when |r| has been below the shed level -/
  lowSince : Option Nat
  aborts   : Nat
  abortAt  : Option Nat
  /-- last EV_SETPOINT_LIMITED per kind 1, 2, 3 -/
  limitedAt : List (Option Nat)
  diags    : List Diag
  /-- string voltage of the last sweep, mean bus voltage, µV -/
  vs       : Int
  vb       : Int
  /-- VBUS of the receivers in service since the last sweep instant, sum in µV and number; its mean over the last sweep interval -/
  busSum   : Int
  busN     : Nat
  busMean  : Int
  /-- last demand, load-line voltage, string current of the last sweep (mA) -/
  demand   : Int
  line     : Int
  iS       : Int
  deriving DecidableEq, Repr

def PhaseLoop.reset : PhaseLoop where
  active := false
  share := 0
  integ := 0
  pred := 0
  dNum := 0
  dDen := 1
  err := 0
  ref := 0
  frozen := false
  clampHi := false
  clampLo := false
  restart := none
  waiting := false
  fade := 0
  rst := 0
  rstFrom := 0
  sent := 0
  done := 0
  offSent := true
  shift := 0
  shiftTo := 0
  on := 0
  off := 0
  bank := false
  ready := false

def Diag.reset : Diag where
  st := .idle
  capno := 0
  use := 0
  aborted := false
  time := 0
  trigIdx := 0
  startDue := false
  injecting := false
  injFrom := 0
  mem := []
  cyc := 0
  level := []
  armedAt := 0

def Loop.reset : Loop where
  mode := 0
  r := 0
  target := 0
  tgtMode := 0
  targets := []
  vTgt := 0
  vSet := 0
  integ := 0
  vltBank := false
  curBank := false
  vltErr := 0
  place := false
  satCur := false
  satVlt := false
  vMoving := false
  phases := List.replicate 16 PhaseLoop.reset
  shed := .steady
  lowSince := none
  aborts := 0
  abortAt := none
  limitedAt := [none, none, none]
  diags := List.replicate 4 Diag.reset
  vs := 0
  vb := 0
  busSum := 0
  busN := 0
  busMean := 0
  demand := 0
  line := 0
  iS := 0

/-! ### 10: thermal management. Temperatures in 0.01 °C unless said. -/

/-- The die's temperature and its limits (10 R277 to R279). Temperatures in 0.1 °C. -/
structure Die where
  temp     : Int
  /-- sensors in use -/
  sensors  : List Bool
  hot      : Bool
  barred   : Bool
  /-- event time of the latched shutdown; the write window has ended; since when the die is at or below 100 °C -/
  shutdown : Option Nat
  off      : Bool
  coolFrom : Option Nat
  deriving DecidableEq, Repr

def Die.reset : Die where
  temp := 0
  sensors := [true, true, true, true]
  hot := false
  barred := false
  shutdown := none
  off := false
  coolFrom := none

/-- One temperature sensor: thermistors 0 to 255 and pins 256 to 263 (R270 to R272). -/
structure Sensor where
  /-- rounds in a row unusable, usable -/
  bad      : Nat
  good     : Nat
  failed   : Bool
  /-- excluded because open at the first sweep after the ring start (R261) -/
  absent   : Bool
  /-- last good value towards the high and the low side, and their times -/
  lastHi   : Int
  lastLo   : Int
  lastAt   : Nat
  lowAt    : Nat
  /-- core temperatures stand in (R272) -/
  core     : Bool
  /-- since when primary and secondary differ by more than 3 K; last event -/
  disFrom  : Option Nat
  disAt    : Option Nat
  /-- a pin's own and its partner's last reading -/
  own      : Option Int
  peer     : Option Int
  deriving DecidableEq, Repr

/-- One thermal zone (R263 to R269). -/
structure Zone where
  hot     : Option Int
  cold    : Option Int
  hi      : Nat
  lo      : Nat
  /-- last change of each step, and since when its relaxation condition holds -/
  hiAt    : Option Nat
  loAt    : Option Nat
  hiRelax : Option Nat
  loRelax : Option Nat
  warnHi  : Bool
  warnLo  : Bool
  /-- zone trip: 0 none, 1 high side, 2 low side; since when back inside -/
  trip    : Nat
  tripBack : Option Nat
  failed  : Bool
  /-- the zone forbids charge, discharge: bit 0 on the high side, bit 1 on the low side -/
  chgF    : Nat
  disF    : Nat
  deriving DecidableEq, Repr

/-- One cooling output (R273 to R275). Duty in 0.1 %, integrator in 10^-6 %. -/
structure Cooler where
  duty    : Nat
  integ   : Int
  rpm     : Nat
  failed  : Bool
  /-- since when the duty is 30 % or more; since when the speed is above RPM_MIN -/
  dutyFrom : Option Nat
  fastFrom : Option Nat
  deriving DecidableEq, Repr

/-- Thermal management (10). -/
structure Therm where
  die       : Die
  sensors   : List Sensor
  zones     : List Zone
  coolers   : List Cooler
  /-- thermal charge and discharge steps -/
  stepC     : Nat
  stepD     : Nat
  /-- forbidden directions, and since when every zone is back inside by HYST -/
  chgForbid : Bool
  disForbid : Bool
  chgBack   : Option Nat
  disBack   : Option Nat
  /-- the next round is the first after a start -/
  first     : Bool
  running   : Bool
  deriving DecidableEq, Repr

def Sensor.reset : Sensor where
  bad := 0
  good := 0
  failed := false
  absent := false
  lastHi := 2500
  lastLo := 2500
  lastAt := 0
  lowAt := 0
  core := false
  disFrom := none
  disAt := none
  own := none
  peer := none

def Zone.reset : Zone where
  hot := none
  cold := none
  hi := 0
  lo := 0
  hiAt := none
  loAt := none
  hiRelax := none
  loRelax := none
  warnHi := false
  warnLo := false
  trip := 0
  tripBack := none
  failed := false
  chgF := 0
  disF := 0

def Cooler.reset : Cooler where
  duty := 0
  integ := 0
  rpm := 0
  failed := false
  dutyFrom := none
  fastFrom := none

def Therm.reset : Therm where
  die := Die.reset
  sensors := List.replicate 264 Sensor.reset
  zones := List.replicate 8 Zone.reset
  coolers := List.replicate 8 Cooler.reset
  stepC := 0
  stepD := 0
  chgForbid := false
  disForbid := false
  chgBack := none
  disBack := none
  first := true
  running := false

/-! ### 11: dispatch, envelopes and budgets. Sources: 0 host, 1 plant. -/

/-- A set-point in force: KIND 1 to 3 and VALUE. -/
structure Setpoint where
  kind  : Nat
  value : Int
  deriving DecidableEq, Repr

/-- An accepted dispatch command that waits for its AT (R284), or for the instant both twins act at (16 R421). -/
structure DispWait where
  source : Nat
  at_    : Nat
  from_  : Nat
  kind   : Nat
  value  : Int
  value2 : Int
  deriving DecidableEq, Repr

/-- One direction of a budget kind: effective value (nA magnitude; none: no term), target, draining. -/
structure BudgetTerm where
  eff      : Option Int
  draining : Bool
  deriving DecidableEq, Repr

/-- The envelope in force: by horizon, charge and discharge current mA and power W. -/
structure Envelope where
  w     : Nat
  rows  : List (Int × Int × Int × Int)
  cellC : Nat
  cellD : Nat
  flags : Nat
  deriving DecidableEq, Repr

/-- Dispatch (11). -/
structure Disp where
  sp        : Option Setpoint
  /-- last accepted SPSEQ per source -/
  seq       : List (Option Word)
  waiting   : List DispWait
  /-- the hold timer's end; the set-point has expired; the plant's has -/
  holdTill  : Option Nat
  expired   : Bool
  plantLive : Bool
  /-- budgets of each source: current (charge, discharge) mA and power W -/
  budI      : List (Option (Int × Int))
  budP      : List (Option (Int × Int))
  /-- terms: current charge, current discharge, power charge, power discharge -/
  terms     : List BudgetTerm
  /-- charge and discharge limits in force, nA, and their binding terms -/
  limC      : Int
  limD      : Int
  bindC     : Nat
  bindD     : Nat
  env       : Option Envelope
  envNext   : Option (Nat × Envelope)
  envSeq    : Word
  /-- state reports: number, times of those of the last second, AVAIL and stage last reported, an enable was refused -/
  repSeq    : Word
  repTimes  : List Nat
  avail     : Nat
  repStage  : Nat
  notReady  : Bool
  /-- copies of forwarded commands already acted on -/
  seen      : List Cmd
  deriving DecidableEq, Repr

def Disp.reset : Disp where
  sp := none
  seq := [none, none]
  waiting := []
  holdTill := none
  expired := false
  plantLive := false
  budI := [none, none]
  budP := [none, none]
  terms := List.replicate 4 ⟨none, false⟩
  limC := 0
  limD := 0
  bindC := 15
  bindD := 15
  env := none
  envNext := none
  envSeq := 0
  repSeq := 0
  repTimes := []
  avail := 6
  repStage := 0
  notReady := false
  seen := []

/-! ### 12: safety functions -/

/-- One dual-channel input (a safety input or a loop in port) as one safety engine sees it (R308 to R310, R322). -/
structure DualIn where
  /-- consecutive ticks each channel has read demand -/
  run1    : Nat
  run2    : Nat
  /-- raw demand of the last sample -/
  raw1    : Bool
  raw2    : Bool
  /-- channel in the demand state, after the filter -/
  d1      : Bool
  d2      : Bool
  /-- ticks in discrepancy, the latch, and its clearing: both seen in demand, then both at rest -/
  disc    : Nat
  latched : Bool
  seen1   : Bool
  seen2   : Bool
  cleared : Bool
  /-- reset input: both channels have left rest, and since when -/
  leftAt  : Option Nat
  deriving DecidableEq, Repr

/-- One safety engine (A primary path and high sides, B secondary path and low sides). -/
structure SafetyEng where
  running  : Bool
  /-- confirmation counters of functions 1 to 5 -/
  counters : List Nat
  /-- demand present, by function code 0 to 13 -/
  demand   : List Bool
  /-- instants of the last usable results: cells, string current, thermistors (R306); none before service -/
  cells    : List Nat
  current  : Nat
  therms   : List Nat
  inputs   : List DualIn
  loops    : List DualIn
  deriving DecidableEq, Repr

/-- Faults of an output switch (R317). -/
inductive SoFault where
  | none
  | stuck
  | failed
  deriving DecidableEq, Repr

/-- One safety output: commands and readbacks of its high-side and low-side switches. -/
structure SafeOut where
  hi      : Bool
  lo      : Bool
  hiRead  : Bool
  loRead  : Bool
  /-- time of the last command -/
  cmdAt   : Nat
  fault   : SoFault
  /-- a switch is off for its test pulse: 0 high side, 1 low side; 2 and 3: it has not read off -/
  testing : Option Nat
  deriving DecidableEq, Repr

/-- The contactor sequence (R315). -/
inductive Contactor where
  | open_
  | precharge (since : Nat)
  | mainOn (since : Nat)
  | closed
  | opening
  deriving DecidableEq, Repr

/-- A safety frame producer as the module keeps it (R327 to R329). -/
structure Producer where
  lastSeq  : Option (BitVec 16)
  /-- the data of the last accepted frame -/
  lastData : List Word
  /-- offset o, ns -/
  offset   : Int
  epoch    : BitVec 4
  /-- time of the last accepted frame; the watchdog runs from it -/
  lastAt   : Nat
  /-- last valid senior frame -/
  seniorAt : Nat
  /-- the watchdog demands, and accepted frames in a row since -/
  expired  : Bool
  okRun    : Nat
  demand   : Bool
  deriving DecidableEq, Repr

/-- The safety part (12). -/
structure Safety where
  engA      : SafetyEng
  engB      : SafetyEng
  safe      : Bool
  cause     : Nat
  enteredAt : Nat
  /-- the safe state ends only through a restart (R322, R317) -/
  needStart : Bool
  outs      : List SafeOut
  /-- loop switches, channel 1 (SE-A) and 2 (SE-B), of loops 0 and 1 -/
  loopSw1   : List Bool
  loopSw2   : List Bool
  bridges   : Bool
  contactor : Contactor
  /-- coil supply, 10 mV -/
  coil      : Nat
  /-- contactor feedback shows closed: main, precharge -/
  fbMain    : Bool
  fbPre     : Bool
  /-- a feedback failed to show open (R319) -/
  weld      : Bool
  /-- an accepted reset takes effect at the next cycle boundary: source 0 reset input, 1 host -/
  resetDue  : Option Nat
  /-- STATUS frames: next SEQ, EPOCH, time of the last one, and its word 0 and SAFE (R326) -/
  sfSeq     : BitVec 16
  sfEpoch   : BitVec 4
  sfLastAt  : Nat
  sfWord0   : Word
  sfSafe    : Bool
  producers : List Producer
  partner   : Producer
  /-- rated currents of the current stations, A, as last reported (R304) -/
  rated     : List (Option Nat)
  deriving DecidableEq, Repr

def DualIn.reset : DualIn where
  run1 := 0
  run2 := 0
  raw1 := false
  raw2 := false
  d1 := false
  d2 := false
  disc := 0
  latched := false
  seen1 := false
  seen2 := false
  cleared := false
  leftAt := none

def SafetyEng.reset : SafetyEng where
  running := false
  counters := [0, 0, 0, 0, 0]
  demand := List.replicate 14 false
  cells := List.replicate 512 0
  current := 0
  therms := List.replicate 256 0
  inputs := List.replicate 16 DualIn.reset
  loops := List.replicate 2 DualIn.reset

def SafeOut.reset : SafeOut where
  hi := false
  lo := false
  hiRead := false
  loRead := false
  cmdAt := 0
  fault := .none
  testing := none

def Producer.reset : Producer where
  lastSeq := none
  lastData := []
  offset := 0
  epoch := 0
  lastAt := 0
  seniorAt := 0
  expired := false
  okRun := 0
  demand := false

def Safety.reset : Safety where
  engA := SafetyEng.reset
  engB := SafetyEng.reset
  safe := false
  cause := 0
  enteredAt := 0
  needStart := false
  outs := List.replicate 4 SafeOut.reset
  loopSw1 := [false, false]
  loopSw2 := [false, false]
  bridges := false
  contactor := .open_
  coil := 0
  fbMain := false
  fbPre := false
  weld := false
  resetDue := none
  sfSeq := 0
  sfEpoch := 0
  sfLastAt := 0
  sfWord0 := 0
  sfSafe := false
  producers := List.replicate 8 Producer.reset
  partner := Producer.reset
  rated := [none, none]

/-! ### 13: cyclic programs -/

/-- A section of a Gelfoel image (Table 13.9): one engine's code and sizes. -/
structure Section where
  code   : List Word
  k      : Nat
  events : Nat
  err    : Option Nat
  localW : Nat
  retW   : Nat
  inst   : Nat
  worst  : Nat
  deriving DecidableEq, Repr

/-- A symbol (Table 13.10). -/
structure Symbol where
  name   : List Byte
  engine : Nat
  area   : Nat
  type   : Nat
  ret    : Bool
  index  : Nat
  len    : Nat
  /-- initial values, one word each; none for an instance -/
  init   : List Word
  deriving DecidableEq, Repr

/-- An entry of the I/O table. -/
structure IoEntry where
  sym   : Nat
  kind  : Nat
  out   : Bool
  fixed : Bool
  point : Nat
  value : Word
  qual  : Option Nat
  deriving DecidableEq, Repr

/-- An entry of the event task table. -/
structure EvTask where
  first    : Nat
  engine   : Nat
  trigger  : Nat
  point    : Nat
  interval : Nat
  worst    : Nat
  deriving DecidableEq, Repr

/-- A Gelfoel image as loaded (Tables 13.8 to 13.10). -/
structure Gelfoel where
  id     : Word
  blMin  : Nat
  secs   : List (Option Section)
  syms   : List Symbol
  io     : List IoEntry
  evts   : List EvTask
  shared : Nat
  deriving DecidableEq, Repr

/-- A partial image load (R385). -/
structure Load where
  total    : Nat
  received : Nat
  bytes    : List Byte
  deriving DecidableEq, Repr

/-- A bank: its state in PROG_STAT and its image. -/
structure Bank where
  st    : Nat
  image : Option Gelfoel
  load  : Option Load
  deriving DecidableEq, Repr

/-- A timer, counter or edge instance: elapsed µs, count, Q, previous-state bit, program clock of its last execution. -/
structure Inst where
  et   : Nat
  cv   : Int
  q    : Bool
  prev : Option Bool
  last : Option Nat
  deriving DecidableEq, Repr

/-- A task under way: 0 cyclic, 1 to 4 event tasks, 7 error task; what it latched at its start. -/
structure TaskCtx where
  task   : Nat
  start  : Nat
  clock  : Nat
  pc     : Nat
  acc    : Bool
  wacc   : Word
  stack  : List Bool
  input  : List Word
  shared : List Word
  system : List Word
  host   : List Word
  /-- the breakpoint where it stands has been passed (R351) -/
  passed : Bool
  deriving DecidableEq, Repr

/-- MODE of CE_STAT. -/
inductive CeMode where
  | idle
  | stop
  | run
  | hold
  deriving DecidableEq, Repr

/-- A mode command waiting for the engine's cycle start (R349 to R351). -/
inductive CeCmd where
  | run (cold : Bool)
  | stop
  | hold (task instr : Nat)
  | step
  | resume
  deriving DecidableEq, Repr

/-- A saved copy (R354). -/
structure SavedCopy where
  id    : Word
  time  : Nat
  fine  : Nat
  ret   : List Word
  inst  : List Inst
  clock : Nat
  deriving DecidableEq, Repr

/-- What an engine's variables, instances and clock were after its last cycle that ended (R354, Table 13.12). -/
structure Ended where
  local_ : List Word
  ret    : List Word
  output : List Word
  inst   : List Inst
  clock  : Nat
  deriving DecidableEq, Repr

/-- An event task of an engine: its last start, a trigger that waits, outputs to be released at this time. -/
structure EvState where
  last    : Option Nat
  waiting : Bool
  release : Option Nat
  deriving DecidableEq, Repr

/-- One cycle engine. -/
structure CycEng where
  mode     : CeMode
  /-- program clock in µs, as accounted at a fine-counter time -/
  clock    : Nat
  clockAt  : Nat
  local_   : List Word
  ret      : List Word
  inst     : List Inst
  /-- output image and host-out image; shared words written in the cycle -/
  output   : List Word
  hostOut  : List (Nat × Word)
  sharedW  : List (Nat × Word)
  ovf      : Bool
  divz     : Bool
  firstScan : Bool
  warm     : Bool
  /-- causes since the error task ran: how many, and the first 16; event triggers lost -/
  nCauses  : Nat
  causes   : List (Nat × Nat)
  lostTrig : Nat
  /-- tasks under way, the one that runs first -/
  ctx      : List TaskCtx
  cycleAt  : Option Nat
  /-- no cycle before this time (R353, R360) -/
  startFrom : Nat
  cmd      : Option CeCmd
  brk      : Option (Nat × Nat)
  holdFrom : Nat
  events   : List EvState
  restarts : Nat
  warmLast : Bool
  /-- slack of the last cycle, percent -/
  slack    : Nat
  /-- as after the last cycle that ended; none: as they stand now -/
  ended    : Option Ended
  savedW   : Option SavedCopy
  savedM   : Option SavedCopy
  /-- the restart choice is due (R355) -/
  choice   : Bool
  deriving DecidableEq, Repr

/-- A force (R365). -/
structure Force where
  name  : List Byte
  value : Word
  deriving DecidableEq, Repr

/-- The cycle engines' part (13). -/
structure Prog where
  banks    : List Bank
  active   : Nat
  rollback : Bool
  /-- armed switch boundary -/
  switchAt : Option Nat
  engines  : List CycEng
  shared   : List Word
  host     : List Word
  hostOut  : List Word
  forces   : List Force
  /-- by I/O entry: the point is lost; the words last latched or released -/
  ioLost   : List Bool
  ioLast   : List (List Word)
  /-- program event points as last released (rising edges) -/
  evtLast  : List Bool
  /-- DIO inputs agreed at the latest grid instant, and this twin's own samples -/
  dio      : BitVec 16
  dioOwn   : BitVec 16
  /-- DIO pins driven -/
  dioOut   : List (Option Bool)
  deriving DecidableEq, Repr

def CycEng.reset : CycEng where
  mode := .idle
  clock := 0
  clockAt := 0
  local_ := []
  ret := []
  inst := []
  output := []
  hostOut := []
  sharedW := []
  ovf := false
  divz := false
  firstScan := false
  warm := false
  nCauses := 0
  causes := []
  lostTrig := 0
  ctx := []
  cycleAt := none
  startFrom := 0
  cmd := none
  brk := none
  holdFrom := 0
  events := []
  restarts := 0
  warmLast := false
  slack := 0
  ended := none
  savedW := none
  savedM := none
  choice := false

def Prog.reset : Prog where
  banks := [⟨0, none, none⟩, ⟨0, none, none⟩]
  active := 0
  rollback := false
  switchAt := none
  engines := List.replicate 8 CycEng.reset
  shared := []
  host := List.replicate 256 0
  hostOut := List.replicate 256 0
  forces := []
  ioLost := []
  ioLast := []
  evtLast := List.replicate 256 false
  dio := 0
  dioOwn := 0
  dioOut := List.replicate 16 none

/-! ### 14: host queues -/

/-- A descriptor fetched and not yet completed, whether it consumed a credit (R380), and, for a stream buffer, the bytes
used, the records written and when the first one was. -/
structure Held where
  desc    : Desc
  credit  : Bool
  used    : Nat
  since   : Option Nat
  /-- it holds replayed ledger records (Table 14.4) -/
  replay  : Bool
  deriving DecidableEq, Repr

/-- A completion that waits for room in the completion ring (14 R375): its time and grant are those of its writing. -/
structure CqWait where
  completion : Completion
  /-- its descriptor consumed a credit, which it returns -/
  credit     : Bool
  irq        : Bool
  deriving DecidableEq, Repr

/-- One queue pair (14 R373 to R382). -/
structure Queue where
  running  : Bool
  /-- disabled, with fetched descriptors still to complete (R374) -/
  draining : Bool
  stopped  : Bool
  cause    : Nat
  epoch    : Byte
  sqHead   : Nat
  /-- last accepted SQ_TAIL -/
  sqTail   : Nat
  cqTail   : Nat
  /-- last accepted CQ_HEAD -/
  cqHead   : Nat
  /-- completions written and not released by CQ_HEAD -/
  cqUsed   : Nat
  phase    : Bool
  /-- credits granted, consumed and returned in this epoch (R380) -/
  g        : Nat
  c        : Nat
  r        : Nat
  /-- descriptors announced by the doorbell and not yet fetched -/
  ring     : List Desc
  /-- descriptors fetched and not yet completed, oldest first -/
  inMod    : List Held
  /-- completions not written yet, oldest first: the completion ring is full -/
  cqWait   : List CqWait
  discards : Nat
  /-- no message before this time (R386) -/
  irqAfter : Nat
  /-- a completion was written within the gap -/
  irqDue   : Bool
  deriving DecidableEq, Repr

/-- Records dropped from a backlog and not yet reported (R384). -/
structure Lost where
  kind  : Nat
  count : Nat
  first : Nat
  deriving DecidableEq, Repr

/-- The backlog of one stream class (R384), oldest first. -/
structure Backlog where
  recs : List StreamRec
  lost : List Lost
  deriving DecidableEq, Repr

/-- A slot of the key store (18 R471). State 0 empty, 1 in use, 2 revoked. -/
structure KeySlot where
  st    : Nat
  role  : Nat
  x     : Nat
  y     : Nat
  /-- last nonce accepted (R387) -/
  nonce : Nat
  deriving DecidableEq, Repr

/-- A Both command that waits for the other twin (R370). -/
structure WaitCmd where
  cmd     : Cmd
  /-- accepted in this twin, in the partner -/
  own     : Bool
  peer    : Bool
  expires : Nat
  deriving DecidableEq, Repr

/-- The host's side (14). -/
structure HostPort where
  linkUp    : Bool
  queues    : List Queue
  /-- backlogs of classes 0 to 8 -/
  backlogs  : List Backlog
  keys      : List KeySlot
  waiting   : List WaitCmd
  /-- accepted commands and the time before which they do not take effect; they take effect at a cycle boundary, in
  execution order (R376) -/
  accepted  : List (Nat × Cmd)
  deriving DecidableEq, Repr

def Queue.reset : Queue where
  running := false
  draining := false
  stopped := false
  cause := 0
  epoch := 0
  sqHead := 0
  sqTail := 0
  cqTail := 0
  cqHead := 0
  cqUsed := 0
  phase := true
  g := 0
  c := 0
  r := 0
  ring := []
  inMod := []
  cqWait := []
  discards := 0
  irqAfter := 0
  irqDue := false

def HostPort.reset : HostPort where
  linkUp := false
  queues := List.replicate 32 Queue.reset
  backlogs := List.replicate 9 ⟨[], []⟩
  keys := List.replicate 16 ⟨0, 0, 0, 0, 0⟩
  waiting := []
  accepted := []

/-! ### 15: plant Ethernet, CAN FD and RS-485 -/

/-- One Ethernet port: link, DROPS, LAN up and the last frame that carried its identifier (R392); frames received in a whole second
(R389). -/
structure EthPort where
  link  : Bool
  gig   : Bool
  prpUp : Bool
  lanAt : Option Nat
  drops : Nat
  sec   : Nat
  rx    : Nat
  deriving DecidableEq, Repr

/-- A CAN frame pending in a buffer or object: identifier, data, when it was queued, and the data it replaced, which an attempt
then under way still carries (R403). -/
structure CanTx where
  ident : Nat
  data  : List Byte
  at_   : Nat
  old   : Option (List Byte)
  deriving DecidableEq, Repr

/-- A CAN object: received data and the event time of the start of frame, time of the last frame, lost; the frame pending and the
last data queued; the last frame of a twin with its identifier (R407). -/
structure CanObj where
  data   : List Byte
  sof    : Nat
  lastAt : Option Nat
  lost   : Bool
  tx     : Option CanTx
  /-- a frame cancelled at this time, whose attempt may still be under way (R403) -/
  last   : Option CanTx
  /-- last multiple of its period at which it was queued -/
  qAt    : Option Nat
  out    : List Byte
  heard  : Option Nat
  /-- in the pair, an arrival not yet in use: the grid instant from which it is (R419), data, start of frame -/
  next   : Option (Nat × List Byte × Nat)
  deriving DecidableEq, Repr

/-- One CAN FD controller. State 0 error-active, 1 error-passive, 2 bus-off, 3 recovering. -/
structure CanPort where
  tec     : Nat
  rec_    : Nat
  st      : Nat
  alone   : Bool
  ackRun  : Nat
  lec     : Nat
  busoff  : Nat
  lost    : Nat
  overrun : Nat
  /-- express buffers E0, E1, E2 -/
  express : List (Option CanTx)
  /-- instant of the last announcement (R398) -/
  annAt   : Option Nat
  deriving DecidableEq, Repr

/-- One entry of the Modbus helper table: since when it is due, failed transactions in a row, lost, words read, registers last
written successfully. -/
structure MbEntry where
  due     : Option Nat
  nextDue : Option Nat
  fails   : Nat
  lost    : Bool
  regs    : List Nat
  written : Option (List Nat)
  out     : List Nat
  /-- as for a CAN object -/
  next    : Option (Nat × List Nat)
  deriving DecidableEq, Repr

/-- One RS-485 port: the transaction under way (entry, tries made, its start), the values its request carried, and its counters. -/
structure SbPort where
  cur    : Option (Nat × Nat × Nat)
  sent   : List Nat
  master : Bool
  /-- last request heard from the senior (R412) -/
  heard  : Nat
  late   : Nat
  failed : Nat
  deriving DecidableEq, Repr

/-- Plant ports (15). -/
structure Plant where
  eth     : List EthPort
  /-- PRP: sequence number of supervision frames, nodes and when each was last refreshed, frames seen (MAC, sequence, time) -/
  prpSeq  : BitVec 16
  prpSent : Nat
  nodes   : List (Nat × Nat)
  dups    : List (Nat × Nat × Nat)
  /-- MSEQ of types 0x03, 0x10, 0x11, 0x12, 0x20 (R395) -/
  mseq    : List Word
  /-- last accepted SSEQ of the plant -/
  sseq    : Option Word
  can     : List CanPort
  /-- objects of the six ports, object o of port p at 128 p + o -/
  objs    : List CanObj
  mb      : List MbEntry
  sb      : List SbPort
  deriving DecidableEq, Repr

def EthPort.reset : EthPort := ⟨false, false, false, none, 0, 0, 0⟩

def CanObj.reset : CanObj where
  data := []
  sof := 0
  lastAt := none
  lost := false
  tx := none
  last := none
  qAt := none
  out := []
  heard := none
  next := none

def CanPort.reset : CanPort where
  tec := 0
  rec_ := 0
  st := 0
  alone := false
  ackRun := 0
  lec := 0
  busoff := 0
  lost := 0
  overrun := 0
  express := [none, none, none]
  annAt := none

def MbEntry.reset : MbEntry where
  due := none
  nextDue := none
  fails := 0
  lost := false
  regs := []
  written := none
  out := []
  next := none

def SbPort.reset : SbPort := ⟨none, [], false, 0, 0, 0⟩

def Plant.reset : Plant where
  eth := List.replicate 4 EthPort.reset
  prpSeq := 0
  prpSent := 0
  nodes := []
  dups := []
  mseq := [0, 0, 0, 0, 0]
  sseq := none
  can := List.replicate 6 CanPort.reset
  objs := List.replicate 768 CanObj.reset
  mb := List.replicate 256 MbEntry.reset
  sb := List.replicate 4 SbPort.reset

/-! ### 16: twin operation -/

/-- PAIR_STAT.STATE (Table 16.10). -/
inductive PairSt where
  | single
  | joined
  | alone
  | solo
  | withdrawn
  | catching
  | comparing
  | retired
  deriving DecidableEq, Repr

/-- Steps of a catch-up (Table 16.7). -/
inductive CatchStep where
  | restarting
  | transfer
  | replay
  | comparing
  | exact
  | inService
  | failed
  deriving DecidableEq, Repr

/-- A catch-up, in the twin that catches up or in the one that supplies. -/
structure CatchUp where
  step      : CatchStep
  supplying : Bool
  attempt   : Nat
  startedAt : Nat
  doneKiB   : Nat
  totalKiB  : Nat
  /-- bytes of the items received so far, by item (Table 16.6) -/
  rx        : List (Nat × List Byte)
  /-- event time of the snapshot's W -/
  snapW     : Nat
  /-- re-entry instant and whether the partner has echoed it -/
  reentry   : Option Nat
  echoed    : Bool
  deriving DecidableEq, Repr

/-- The exposure window (20 R498). -/
structure Exposure where
  openAt      : Option Nat
  openEvent   : Nat
  joinedSince : Option Nat
  noticed     : Bool
  exceededAt  : Option Nat
  deriving DecidableEq, Repr

/-- Twin operation (16). -/
structure Twin where
  st         : PairSt
  /-- last good frame on PX0, PX1, and whether the link is in service -/
  lastFrame  : List (Option Nat)
  linkUp     : List Bool
  partnerIn  : Bool
  silent     : Bool
  /-- the partner sent NOTICE withdrawing; it acts from the next cycle boundary: its cause -/
  becomeAlone : Option Nat
  cause      : Nat
  /-- withdrawals of the last 24 h: time, cause -/
  history    : List (Nat × Nat)
  diverged   : Nat
  /-- withdrawing: transmitters dark, waiting for the loop bridges to read closed -/
  txOff      : Bool
  bridging   : Bool
  pseq       : Word
  /-- PSEQ of the frames taken last, newest first: the second copy of one is discarded (R417) -/
  pseqSeen   : List Word
  /-- state digests of a whole second: own and the partner's (event-time second, digest) -/
  digestOwn  : Option (Nat × Word)
  digestPeer : Option (Nat × Word)
  /-- output digest of the last grid interval and consecutive intervals that differ -/
  outDigest  : Option (Nat × Word)
  outDiff    : Nat
  /-- outputs made up to the last grid instant -/
  outMark    : Nat
  /-- the partner's plan: permitted profiles, size ceiling, unit costs (02 R51) -/
  planPeer   : Option (List Bool × Nat × List Nat)
  /-- what this twin's last DIGEST told of its own plan's permitted profiles -/
  planOwn    : Option (List Bool)
  /-- both twins' plans of this whole second are exchanged: moves are judged on them half a second later (02 R56) -/
  planDue    : Option Nat
  /-- the profile and the permitted profiles, own and the partner's, judged last -/
  planJudged : Option (Nat × List Bool × List Bool)
  catchUp    : Option CatchUp
  /-- the start sequence has ended and neither path has carried the partner since (R432) -/
  waitFrom   : Option Nat
  /-- since when each DIO pin differs between the twins, and the last event -/
  dioDiff    : List (Option Nat)
  dioEvent   : List (Option Nat)
  /-- leave solo at the next cycle boundary -/
  joinDue    : Bool
  exposure   : Exposure
  deriving DecidableEq, Repr

def Twin.reset : Twin where
  st := .single
  lastFrame := [none, none]
  linkUp := [false, false]
  partnerIn := false
  silent := false
  becomeAlone := none
  cause := 0
  history := []
  diverged := 0
  txOff := true
  bridging := false
  pseq := 0
  pseqSeen := []
  digestOwn := none
  digestPeer := none
  outDigest := none
  outDiff := 0
  outMark := 0
  planPeer := none
  planOwn := none
  planDue := none
  planJudged := none
  catchUp := none
  waitFrom := none
  dioDiff := List.replicate 16 none
  dioEvent := List.replicate 16 none
  joinDue := false
  exposure := ⟨none, 0, none, false, none⟩

/-! ### 17: event recorder -/

/-- An event as detected: its event time, code, severity and arguments in the order of Table 17.4b. -/
structure Event where
  time : Nat
  code : Nat
  sev  : Nat
  args : List Int
  deriving DecidableEq, Repr

/-- A record in a slot (Table 17.1). -/
structure Rec where
  rseq  : Word
  ident : Word
  event : Event
  /-- SEV bit 3 -/
  solo  : Bool
  /-- SEV bit 4: written from the holding queue -/
  late  : Bool
  deriving DecidableEq, Repr

/-- An entry of the clear register (Table 17.6). -/
structure ClearEntry where
  time       : Nat
  first      : Word
  last       : Word
  suppressed : Nat
  suppTime   : Nat
  slot       : Nat
  nonce      : Nat
  ident      : Word
  deriving DecidableEq, Repr

/-- A count of events that got no record: how many, their earliest and latest event times, their highest severity. -/
structure Tally where
  count    : Nat
  earliest : Nat
  latest   : Nat
  sev      : Nat
  deriving DecidableEq, Repr

/-- The event recorder (17). -/
structure Recorder where
  /-- events detected and not yet taken up by the recorder, oldest first -/
  detected   : List Event
  /-- the holding queue (R442) -/
  holding    : List Event
  /-- overflowed events not yet recorded (R442) -/
  overflow   : Tally
  /-- records held, slot 0 first (R439) -/
  slots      : List Rec
  firstRseq  : Word
  /-- REC_SEQ -/
  nextRseq   : Word
  /-- the suppressed count of the clear register header, its first event time and highest severity (R443) -/
  suppressed : Tally
  clears     : List ClearEntry
  /-- ends of the host's and the service port's freeze (R447) -/
  freezeHost : Option Nat
  freezeSvc  : Option Nat
  /-- the recorder has been reached by the start sequence -/
  started    : Bool
  /-- since start: detected, written, overflowed, suppressed, lost at power loss (R444) -/
  nDetected  : Nat
  nWritten   : Nat
  nOverflowed : Nat
  nSuppressed : Nat
  nLost      : Nat
  countErr   : Bool
  /-- clear register header: NEXT_SLOT, and the power-loss fields (R445, R446) -/
  hdrNext    : Nat
  powerLoss  : Tally
  deriving DecidableEq, Repr

def Tally.zero : Tally := ⟨0, 0, 0, 0⟩

def Recorder.reset : Recorder where
  detected := []
  holding := []
  overflow := Tally.zero
  slots := []
  firstRseq := 0
  nextRseq := 0
  suppressed := Tally.zero
  clears := []
  freezeHost := none
  freezeSvc := none
  started := false
  nDetected := 0
  nWritten := 0
  nOverflowed := 0
  nSuppressed := 0
  nLost := 0
  countErr := false
  hdrNext := 0
  powerLoss := Tally.zero

/-! ### 18: start-up, update and replacement -/

/-- Where the module stands in its life (18 Table 18.1, R469, MOD_STAT.MODE). -/
inductive Phase where
  /-- no qualified supply -/
  | off
  /-- t0 passed, the image not yet checked (R452) -/
  | held
  /-- image checked, safety engines run, pair links watched -/
  | watching
  /-- engines loaded, ring and link starts -/
  | starting
  | service
  | recovery
  deriving DecidableEq, Repr

/-- An address entry of the site configuration block (Table 18.3). -/
structure SiteEntry where
  kind  : Nat
  level : Nat
  deriving DecidableEq, Repr

/-- A staged firmware image (R463). -/
structure Staged where
  version : Word
  blMax   : Nat
  hw      : Byte
  length  : Nat
  digest  : BitVec 256
  deriving DecidableEq, Repr

/-- FW_STAT.STATE (Table 18.10). -/
inductive FwSt where
  | nothing
  | loading
  | staged
  | installing
  | installed
  | activating
  | probation
  deriving DecidableEq, Repr

/-- Steps of an activation in the single configuration (Table 18.6). -/
inductive ActStep where
  | none
  | stopping
  | checking
  | reloading
  | linkStart
  deriving DecidableEq, Repr

/-- Life cycle, firmware, site configuration, supply (18, 19, 20). -/
structure Life where
  phase      : Phase
  /-- t0 of the start (R452), the instant at which the image had been checked -/
  t0         : Nat
  checkedAt  : Nat
  guard_     : Bool
  /-- time at which service began -/
  serviceAt  : Nat
  /-- restart into the start sequence is due (R464, R279, R60) -/
  restartDue : Bool
  recCause   : Nat
  /-- the next start goes to ROM recovery with this cause -/
  recNext    : Nat
  holdupLow  : Bool
  /-- supply above 80 V has been recorded, and when (20 R488) -/
  supplyHighAt : Option Nat
  /-- the input switch is open: supply lost or over-voltage -/
  inputOpen  : Bool
  serial     : BitVec 64
  grade      : Bool
  board      : Byte
  lineage    : Byte
  blRunning  : Nat
  blHighest  : Nat
  fw         : FwSt
  progress   : Nat
  pendingFw  : Bool
  lastFw     : Nat
  verRun     : Word
  /-- the companion parts' firmware that the running image names (R456) -/
  parts      : PartFw
  verSlot    : Word
  load       : Option Load
  staged     : Option Staged
  /-- the slot holds a completely installed image that is not running -/
  slotNew    : Bool
  /-- the slot passes R461 and R462 -/
  slotOk     : Bool
  act        : ActStep
  /-- activation starts at the next cycle boundary -/
  actDue     : Bool
  probation  : Bool
  probationAt : Nat
  deriving DecidableEq, Repr

def Life.reset : Life where
  phase := .off
  t0 := 0
  checkedAt := 0
  guard_ := true
  serviceAt := 0
  restartDue := false
  recCause := 0
  recNext := 0
  holdupLow := false
  supplyHighAt := none
  inputOpen := false
  serial := 0
  grade := false
  board := 0
  lineage := 0
  blRunning := 1
  blHighest := 1
  fw := .nothing
  progress := 0
  pendingFw := false
  lastFw := 0
  verRun := 0
  parts := ⟨0, 0, 0, []⟩
  verSlot := 0
  load := none
  staged := none
  slotNew := false
  slotOk := true
  act := .none
  actDue := false
  probation := false
  probationAt := 0

/-! ### 19: set-up registers -/

/-- A register bank in canonical form: offsets strictly rising, no entry equal to the register's reset value (what an
unlisted offset reads as). -/
abbrev RegBank := List (Nat × Word)

/-- A snapshot taken by GO (R479). -/
structure Snapshot where
  tag    : BitVec 16
  irq    : Bool
  vector : Nat
  regs   : List (Nat × Word)
  /-- staged blocks of KIND 1, 2, 3 -/
  blocks : List (Nat × List Byte)
  /-- time of the GO -/
  at_    : Nat
  /-- checks passed; waiting for the twin until this time (R415) -/
  waitTill : Option Nat
  deriving DecidableEq, Repr

/-- The partner's commit that waits here for its match (R415): the registers and blocks it changes, and its time. -/
structure PeerGo where
  regs   : List (Nat × Word)
  blocks : List (Nat × List Byte)
  at_    : Nat
  deriving DecidableEq, Repr

/-- The set-up registers (19). -/
structure Setup where
  active    : RegBank
  staged    : RegBank
  /-- staged blocks and active blocks, by KIND -/
  blocks    : List (Nat × List Byte)
  blocksAct : List (Nat × List Byte)
  pending   : Option Snapshot
  peerGo    : Option PeerGo
  /-- CFG_CSTAT, CFG_CSTAT2, CFG_CSTAT3, CFG_CTIME -/
  cState    : Nat
  cTag      : BitVec 16
  cStatus   : Nat
  cOffset   : Nat
  cDetail   : Nat
  cTime     : BitVec 64
  cTimeHi   : Word
  discards  : Nat
  /-- the configuration region of MRAM: the last applied commit's values and blocks; a write of it waits while writes are barred
  (R483, R278) -/
  stored    : RegBank
  storedBlk : List (Nat × List Byte)
  storeDue  : Bool
  deriving DecidableEq, Repr

def Setup.reset : Setup where
  active := []
  staged := []
  blocks := []
  blocksAct := []
  pending := none
  peerGo := none
  cState := 0
  cTag := 0
  cStatus := 0
  cOffset := 0
  cDetail := 0
  cTime := 0
  cTimeHi := 0
  discards := 0
  stored := []
  storedBlk := []
  storeDue := false

/-! ### The machine -/

/-- The module. -/
structure State where
  chain  : Chain
  fabric : Fabric
  time   : TimeBase
  ring   : Ring
  meas   : Meas
  est    : Est
  ledger : Ledger
  gate   : Gate
  loop   : Loop
  therm  : Therm
  disp   : Disp
  safety : Safety
  prog   : Prog
  host   : HostPort
  plant  : Plant
  twin   : Twin
  rec_   : Recorder
  life   : Life
  setup  : Setup
  /-- what has been sent and driven, newest first (the model's own record of effects) -/
  out    : List Out
  /-- the model's own counter of free values drawn so far; no statement rests on its value -/
  free   : Nat
  /-- the commands that wait, first in, first out -/
  pending : List Instr
  deriving DecidableEq, Repr

/-- The module with no supply yet, nothing stored in MRAM, and no command waiting: every register at the value 19 Table
19.11 gives. -/
def State.reset : State where
  chain := Chain.reset
  fabric := Fabric.reset
  time := TimeBase.reset
  ring := Ring.reset
  meas := Meas.reset
  est := Est.reset
  ledger := Ledger.reset
  gate := Gate.reset
  loop := Loop.reset
  therm := Therm.reset
  disp := Disp.reset
  safety := Safety.reset
  prog := Prog.reset
  host := HostPort.reset
  plant := Plant.reset
  twin := Twin.reset
  rec_ := Recorder.reset
  life := Life.reset
  setup := Setup.reset
  out := []
  free := 0
  pending := []

end Sys2Proof.Machine
end

