-- ==== Sys2Proof/Machine/Registers.lean ====
section
/-! DEFINITION. The set-up register map (19 Table 19.11): the rows with their offsets, access and reset values, the
fields of every staged register with their ranges, and one accessor per field. The ranges are those of each field's row
in its chapter's table; rules that span fields are in Machine/Commit.lean. -/
namespace Sys2Proof.Machine

/-! ### Bit fields -/

/-- Bits [hi:lo] of a word, unsigned. -/
def bitsOf (w : Word) (hi lo : Nat) : Nat := w.toNat / 2 ^ lo % 2 ^ (hi + 1 - lo)

/-- Bits [hi:lo] of a word, two's complement. -/
def sbitsOf (w : Word) (hi lo : Nat) : Int :=
  if bitsOf w hi lo < 2 ^ (hi - lo) then (bitsOf w hi lo : Int) else (bitsOf w hi lo : Int) - 2 ^ (hi + 1 - lo)

/-- A field of value v at bit lo. -/
def putAt (v lo : Nat) : Nat := v * 2 ^ lo

/-- A Bool as a bit. -/
def bit (b : Bool) : Nat := if b then 1 else 0

/-! ### The rows -/

/-- Access to a register as a whole: RW means that it has staged fields (19 R478). -/
inductive Access where
  | rw
  | ro
  | wo
  deriving DecidableEq, Repr

/-- A row of Table 19.11: `count` registers from `base`, 4 bytes apart. -/
structure RegRow where
  base   : Nat
  count  : Nat
  access : Access
  reset  : Word
  /-- the bits of its RW fields -/
  mask   : Word
  deriving DecidableEq, Repr

namespace Reg
/-- `DEV_ID` -/
def devId : Nat := 0x0000
/-- `SERIAL_LO` -/
def serialLo : Nat := 0x0004
/-- `SERIAL_HI` -/
def serialHi : Nat := 0x0008
/-- `MOD_IDENT` -/
def modIdent : Nat := 0x000C
/-- `ADDR_STAT` -/
def addrStat : Nat := 0x0010
/-- `MOD_STAT` -/
def modStat : Nat := 0x0014
/-- `FW_VER_RUN` -/
def fwVerRun : Nat := 0x0018
/-- `FW_VER_SLOT` -/
def fwVerSlot : Nat := 0x001C
/-- `FW_STAT` -/
def fwStat : Nat := 0x0020
/-- `BL_STAT` -/
def blStat : Nat := 0x0024
/-- `KEY_STAT` -/
def keyStat : Nat := 0x0028
/-- `EVT_NOW`0 and on -/
def evtNow : Nat := 0x0030
/-- `CFG_COMMIT` -/
def cfgCommit : Nat := 0x0040
/-- `CFG_CSTAT` -/
def cfgCstat : Nat := 0x0044
/-- `CFG_CSTAT2` -/
def cfgCstat2 : Nat := 0x0048
/-- `CFG_CSTAT3` -/
def cfgCstat3 : Nat := 0x004C
/-- `CFG_CTIME`0 and on -/
def cfgCtime : Nat := 0x0050
/-- `CFG_PEND` -/
def cfgPend : Nat := 0x0058
/-- `PROFILE_CTL` -/
def profileCtl : Nat := 0x0100
/-- `MARGIN_CFG` -/
def marginCfg : Nat := 0x0104
/-- `MARGIN_STAT` -/
def marginStat : Nat := 0x0108
/-- `TIME_CFG` -/
def timeCfg : Nat := 0x0110
/-- `PTP_CFG` -/
def ptpCfg : Nat := 0x0114
/-- `PTP_ASYM0` -/
def ptpAsym0 : Nat := 0x0118
/-- `PTP_ASYM1` -/
def ptpAsym1 : Nat := 0x011C
/-- `TIME_STAT` -/
def timeStat : Nat := 0x0120
/-- `TB_TRIM` -/
def tbTrim : Nat := 0x0124
/-- `RING_CFG` -/
def ringCfg : Nat := 0x0200
/-- `RING_CELLS` -/
def ringCells : Nat := 0x0204
/-- `RING_MAP`0 and on -/
def ringMap : Nat := 0x0240
/-- `RING_STAT`0 and on -/
def ringStat : Nat := 0x0280
/-- `STATION_LOST`0 and on -/
def stationLost : Nat := 0x02A0
/-- `MEAS_CFG` -/
def measCfg : Nat := 0x0300
/-- `FGI_CFG` -/
def fgiCfg : Nat := 0x0304
/-- `BAL_CFG` -/
def balCfg : Nat := 0x0308
/-- `BAL_CFG2` -/
def balCfg2 : Nat := 0x030C
/-- `BAL_STAT` -/
def balStat : Nat := 0x0310
/-- `EST_CFG` -/
def estCfg : Nat := 0x0340
/-- `EST_STAT` -/
def estStat : Nat := 0x0344
/-- `IMP_CFG` -/
def impCfg : Nat := 0x0348
/-- `IMP_CFG2` -/
def impCfg2 : Nat := 0x034C
/-- `IMP_STAT` -/
def impStat : Nat := 0x0350
/-- `LEDGER_CFG` -/
def ledgerCfg : Nat := 0x0380
/-- `LEDGER_STAT` -/
def ledgerStat : Nat := 0x0384
/-- `LEDGER_ID` -/
def ledgerId : Nat := 0x0388
/-- `LEDGER_LSEQ`0 and on -/
def ledgerLseq : Nat := 0x0390
/-- `GL_CFG` -/
def glCfg : Nat := 0x0400
/-- `GL_CFG2` -/
def glCfg2 : Nat := 0x0404
/-- `GL_LIM0` -/
def glLim0 : Nat := 0x0408
/-- `GL_LIM1` -/
def glLim1 : Nat := 0x040C
/-- `STAGE_START` -/
def stageStart : Nat := 0x0410
/-- `STAGE_STOP` -/
def stageStop : Nat := 0x0414
/-- `TELEM_CFG` -/
def telemCfg : Nat := 0x0418
/-- `STAGE_STAT` -/
def stageStat : Nat := 0x0420
/-- `FAULT_STAT` -/
def faultStat : Nat := 0x0424
/-- `LOOP_CTL` -/
def loopCtl : Nat := 0x0500
/-- `CUR_BANK_A` -/
def curBankA : Nat := 0x0504
/-- `CUR_BANK_B` -/
def curBankB : Nat := 0x0508
/-- `VLT_BANK_A` -/
def vltBankA : Nat := 0x050C
/-- `VLT_BANK_B` -/
def vltBankB : Nat := 0x0510
/-- `DROOP_CFG` -/
def droopCfg : Nat := 0x0514
/-- `LOOP_HW` -/
def loopHw : Nat := 0x0518
/-- `SHED_CFG` -/
def shedCfg : Nat := 0x051C
/-- `LOOP_STAT` -/
def loopStat : Nat := 0x0520
/-- `DIAG_CFG`0 and on -/
def diagCfg : Nat := 0x0540
/-- `DIAG_SIG`0 and on -/
def diagSig : Nat := 0x0550
/-- `DIAG_INJ`0 and on -/
def diagInj : Nat := 0x0560
/-- `MT_CFG`0 and on -/
def mtCfg : Nat := 0x0600
/-- `TZ_HI`0 and on -/
def tzHi : Nat := 0x0620
/-- `TZ_LO`0 and on -/
def tzLo : Nat := 0x0640
/-- `TZ_BAND`0 and on -/
def tzBand : Nat := 0x0660
/-- `THR_STEP` -/
def thrStep : Nat := 0x0680
/-- `THERM_STAT` -/
def thermStat : Nat := 0x0684
/-- `DIE_STAT` -/
def dieStat : Nat := 0x0688
/-- `COOL_CFG`0 and on -/
def coolCfg : Nat := 0x06A0
/-- `COOL_SET`0 and on -/
def coolSet : Nat := 0x06C0
/-- `COOL_PI`0 and on -/
def coolPi : Nat := 0x06E0
/-- `COOL_STAT`0 and on -/
def coolStat : Nat := 0x0700
/-- `DISP_CFG` -/
def dispCfg : Nat := 0x0800
/-- `DISP_RATE` -/
def dispRate : Nat := 0x0804
/-- `DISP_LIM` -/
def dispLim : Nat := 0x0808
/-- `DISP_PLIM` -/
def dispPlim : Nat := 0x080C
/-- `ENV_CFG` -/
def envCfg : Nat := 0x0810
/-- `DISP_STAT` -/
def dispStat : Nat := 0x0814
/-- `SAFE_CELL` -/
def safeCell : Nat := 0x0900
/-- `SAFE_CONF` -/
def safeConf : Nat := 0x0904
/-- `SAFE_OC` -/
def safeOc : Nat := 0x0908
/-- `SAFE_CFG` -/
def safeCfg : Nat := 0x090C
/-- `SI_CFG`0 and on -/
def siCfg : Nat := 0x0910
/-- `LOOP_CFG` -/
def loopCfg : Nat := 0x0950
/-- `SO_CFG` -/
def soCfg : Nat := 0x0954
/-- `SF_ID`0 and on -/
def sfId : Nat := 0x0960
/-- `SF_PCFG`0 and on -/
def sfPcfg : Nat := 0x0980
/-- `SAFE_SIG` -/
def safeSig : Nat := 0x09A0
/-- `SAFE_STAT` -/
def safeStat : Nat := 0x09B0
/-- `SAFE_STAT2` -/
def safeStat2 : Nat := 0x09B4
/-- `CYC_CFG` -/
def cycCfg : Nat := 0x0A00
/-- `PROG_STAT` -/
def progStat : Nat := 0x0A04
/-- `PROG_ID_ACT` -/
def progIdAct : Nat := 0x0A08
/-- `PROG_ID_IDLE` -/
def progIdIdle : Nat := 0x0A0C
/-- `CE_STAT`0 and on -/
def ceStat : Nat := 0x0A20
/-- `NET_CFG0` -/
def netCfg0 : Nat := 0x0B00
/-- `NET_CFG2` -/
def netCfg2 : Nat := 0x0B08
/-- `NET_CFG3` -/
def netCfg3 : Nat := 0x0B0C
/-- `NET_IP0` -/
def netIp0 : Nat := 0x0B10
/-- `NET_IP2` -/
def netIp2 : Nat := 0x0B18
/-- `NET_IP3` -/
def netIp3 : Nat := 0x0B1C
/-- `NET_GW0` -/
def netGw0 : Nat := 0x0B20
/-- `PLANT_DST` -/
def plantDst : Nat := 0x0B24
/-- `PLANT_SRC` -/
def plantSrc : Nat := 0x0B28
/-- `PLANT_ID` -/
def plantId : Nat := 0x0B2C
/-- `PRP_CFG` -/
def prpCfg : Nat := 0x0B30
/-- `PLANT_CFG` -/
def plantCfg : Nat := 0x0B34
/-- `ETH_STAT`0 and on -/
def ethStat : Nat := 0x0B40
/-- `CAN_CFG0` -/
def canCfg0 : Nat := 0x0B60
/-- `CAN_CFG1TO5`0 and on -/
def canCfg1to5 : Nat := 0x0B64
/-- `CAN_STAT`0 and on -/
def canStat : Nat := 0x0B80
/-- `SB_CFG`0 and on -/
def sbCfg : Nat := 0x0BA0
/-- `SB_STAT`0 and on -/
def sbStat : Nat := 0x0BB0
/-- `PAIR_CFG` -/
def pairCfg : Nat := 0x0C00
/-- `PAIR_STAT` -/
def pairStat : Nat := 0x0C04
/-- `REC_CFG` -/
def recCfg : Nat := 0x0C10
/-- `REC_STAT` -/
def recStat : Nat := 0x0C14
/-- `REC_SEQ` -/
def recSeq : Nat := 0x0C18
/-- `REC_SUPP` -/
def recSupp : Nat := 0x0C1C
/-- `QP_SQBL`0 and on -/
def qpSqbl : Nat := 0x1000
/-- `QP_SQBH`0 and on -/
def qpSqbh : Nat := 0x1080
/-- `QP_CQBL`0 and on -/
def qpCqbl : Nat := 0x1100
/-- `QP_CQBH`0 and on -/
def qpCqbh : Nat := 0x1180
/-- `QP_CFG`0 and on -/
def qpCfg : Nat := 0x1200
/-- `QP_LIM`0 and on -/
def qpLim : Nat := 0x1280
/-- `QP_STAT`0 and on -/
def qpStat : Nat := 0x1300
/-- `QP_CRED`0 and on -/
def qpCred : Nat := 0x1380
end Reg

/-- Rows of Table 19.11. -/
def regRows0 : List RegRow := [
  ⟨0x0000, 1, .ro, 0x00000000, 0x00000000⟩,
  ⟨0x0004, 1, .ro, 0x00000000, 0x00000000⟩,
  ⟨0x0008, 1, .ro, 0x00000000, 0x00000000⟩,
  ⟨0x000C, 1, .ro, 0x00000000, 0x00000000⟩,
  ⟨0x0010, 1, .ro, 0x00000000, 0x00000000⟩,
  ⟨0x0014, 1, .ro, 0x00000000, 0x00000000⟩,
  ⟨0x0018, 1, .ro, 0x00000000, 0x00000000⟩,
  ⟨0x001C, 1, .ro, 0x00000000, 0x00000000⟩,
  ⟨0x0020, 1, .ro, 0x00000000, 0x00000000⟩,
  ⟨0x0024, 1, .ro, 0x00010001, 0x00000000⟩,
  ⟨0x0028, 1, .ro, 0x00000000, 0x00000000⟩,
  ⟨0x0030, 2, .ro, 0x00000000, 0x00000000⟩,
  ⟨0x0040, 1, .wo, 0x00000000, 0x00000000⟩,
  ⟨0x0044, 1, .ro, 0x00000000, 0x00000000⟩,
  ⟨0x0048, 1, .ro, 0x00000000, 0x00000000⟩,
  ⟨0x004C, 1, .ro, 0x00000000, 0x00000000⟩,
  ⟨0x0050, 2, .ro, 0x00000000, 0x00000000⟩,
  ⟨0x0058, 1, .ro, 0x00000000, 0x00000000⟩,
  ⟨0x0100, 1, .rw, 0x00000001, 0x0000001F⟩,
  ⟨0x0104, 1, .rw, 0x00000019, 0x0000003F⟩,
  ⟨0x0108, 1, .ro, 0x00FF0052, 0x00000000⟩,
  ⟨0x0110, 1, .rw, 0x00A003E8, 0x00FFFFFF⟩,
  ⟨0x0114, 1, .rw, 0x00003002, 0x0000FFFF⟩,
  ⟨0x0118, 1, .rw, 0x00000000, 0xFFFFFFFF⟩,
  ⟨0x011C, 1, .rw, 0x00000000, 0x0000FFFF⟩,
  ⟨0x0120, 1, .ro, 0x00000000, 0x00000000⟩,
  ⟨0x0124, 1, .ro, 0x00000000, 0x00000000⟩,
  ⟨0x0200, 1, .rw, 0x00C80428, 0xFFFF3FFF⟩,
  ⟨0x0204, 1, .rw, 0x00000000, 0x000003FF⟩,
  ⟨0x0240, 16, .rw, 0x00000000, 0xFFFFFFFF⟩]

/-- Rows of Table 19.11. -/
def regRows1 : List RegRow := [
  ⟨0x0280, 8, .ro, 0x00000E00, 0x00000000⟩,
  ⟨0x02A0, 3, .ro, 0x00000000, 0x00000000⟩,
  ⟨0x0300, 1, .rw, 0x13CA4B18, 0xFFFFFFFF⟩,
  ⟨0x0304, 1, .rw, 0x00000000, 0x0FFFFFFF⟩,
  ⟨0x0308, 1, .rw, 0x02A84021, 0x07FFFFFF⟩,
  ⟨0x030C, 1, .rw, 0x00A32BB8, 0x0FFFFFFF⟩,
  ⟨0x0310, 1, .ro, 0x00000000, 0x00000000⟩,
  ⟨0x0340, 1, .rw, 0x009E03E8, 0x00FFFFFF⟩,
  ⟨0x0344, 1, .ro, 0x40000000, 0x00000000⟩,
  ⟨0x0348, 1, .rw, 0x00229E29, 0x01FFFFFF⟩,
  ⟨0x034C, 1, .rw, 0x00000532, 0x00001FFF⟩,
  ⟨0x0350, 1, .ro, 0x00000000, 0x00000000⟩,
  ⟨0x0380, 1, .rw, 0x0000F096, 0x003FFFFF⟩,
  ⟨0x0384, 1, .ro, 0x00000006, 0x00000000⟩,
  ⟨0x0388, 1, .ro, 0x00000000, 0x00000000⟩,
  ⟨0x0390, 2, .ro, 0x00000000, 0x00000000⟩,
  ⟨0x0400, 1, .rw, 0x0001140A, 0x0003FFFF⟩,
  ⟨0x0404, 1, .rw, 0x0000050A, 0x00003FFF⟩,
  ⟨0x0408, 1, .rw, 0x001F4064, 0x003FFFFF⟩,
  ⟨0x040C, 1, .rw, 0x0788C000, 0x0FFFFFFF⟩,
  ⟨0x0410, 1, .rw, 0x000FA000, 0x03FFFFFF⟩,
  ⟨0x0414, 1, .rw, 0x000FA000, 0x03FFFFFF⟩,
  ⟨0x0418, 1, .rw, 0x000003E8, 0x0000FFFF⟩,
  ⟨0x0420, 1, .ro, 0x00F00000, 0x00000000⟩,
  ⟨0x0424, 1, .ro, 0x00000000, 0x00000000⟩,
  ⟨0x0500, 1, .rw, 0x00640000, 0xFFFF000F⟩,
  ⟨0x0504, 1, .rw, 0x01901F40, 0xFFFFFFFF⟩,
  ⟨0x0508, 1, .rw, 0x01901F40, 0xFFFFFFFF⟩,
  ⟨0x050C, 1, .rw, 0x00640708, 0xFFFFFFFF⟩,
  ⟨0x0510, 1, .rw, 0x00640708, 0xFFFFFFFF⟩]

/-- Rows of Table 19.11. -/
def regRows2 : List RegRow := [
  ⟨0x0514, 1, .rw, 0x000A0258, 0x03FFFFFF⟩,
  ⟨0x0518, 1, .rw, 0x000000C8, 0x00000FFF⟩,
  ⟨0x051C, 1, .rw, 0x19052D3D, 0xFFFFFFFF⟩,
  ⟨0x0520, 1, .ro, 0x00000000, 0x00000000⟩,
  ⟨0x0540, 4, .rw, 0x00000000, 0xFFFF7FFF⟩,
  ⟨0x0550, 4, .rw, 0x76543210, 0xFFFFFFFF⟩,
  ⟨0x0560, 4, .rw, 0x00500140, 0x007FFFFF⟩,
  ⟨0x0600, 8, .rw, 0x06C35AC0, 0x0FFFFFDF⟩,
  ⟨0x0620, 8, .rw, 0x05412F2D, 0xFFFFFFFF⟩,
  ⟨0x0640, 8, .rw, 0x00E70F0A, 0x00FFFFFF⟩,
  ⟨0x0660, 8, .rw, 0x3CEC3700, 0xFFFFFFFF⟩,
  ⟨0x0680, 1, .rw, 0x78A0AA7D, 0xFFFFFFFF⟩,
  ⟨0x0684, 1, .ro, 0x00000000, 0x00000000⟩,
  ⟨0x0688, 1, .ro, 0x0003C000, 0x00000000⟩,
  ⟨0x06A0, 8, .rw, 0x00009421, 0x01FFFFFF⟩,
  ⟨0x06C0, 8, .rw, 0x001E2819, 0x00FFFFFF⟩,
  ⟨0x06E0, 8, .rw, 0x00320064, 0xFFFFFFFF⟩,
  ⟨0x0700, 8, .ro, 0x00000000, 0x00000000⟩,
  ⟨0x0800, 1, .rw, 0x00320190, 0x07FFFFFF⟩,
  ⟨0x0804, 1, .rw, 0x00000000, 0x000007FF⟩,
  ⟨0x0808, 1, .rw, 0x00000000, 0x003FFFFF⟩,
  ⟨0x080C, 1, .rw, 0x00000000, 0x00FFFFFF⟩,
  ⟨0x0810, 1, .rw, 0x00643CA0, 0x3FFFFFFF⟩,
  ⟨0x0814, 1, .ro, 0x00000FF6, 0x00000000⟩,
  ⟨0x0900, 1, .rw, 0x01388E42, 0x03FFFFFF⟩,
  ⟨0x0904, 1, .rw, 0x03224442, 0x0FFFFFFF⟩,
  ⟨0x0908, 1, .rw, 0x01400000, 0x3FFFFFFF⟩,
  ⟨0x090C, 1, .rw, 0x43201414, 0xFFFFFFFF⟩,
  ⟨0x0910, 16, .rw, 0x0000C830, 0x000FFFFF⟩,
  ⟨0x0950, 1, .rw, 0x320C320C, 0xFFFFFFFF⟩]

/-- Rows of Table 19.11. -/
def regRows3 : List RegRow := [
  ⟨0x0954, 1, .rw, 0x00000000, 0x03030303⟩,
  ⟨0x0960, 8, .rw, 0x00000000, 0xFFFFFFFF⟩,
  ⟨0x0980, 8, .rw, 0x000000A0, 0x007FFFFF⟩,
  ⟨0x09A0, 1, .rw, 0x00000000, 0xFFFFFFFF⟩,
  ⟨0x09B0, 1, .ro, 0x00000000, 0x00000000⟩,
  ⟨0x09B4, 1, .ro, 0x00000000, 0x00000000⟩,
  ⟨0x0A00, 1, .rw, 0x00281404, 0x03FFFFFF⟩,
  ⟨0x0A04, 1, .ro, 0x00000000, 0x00000000⟩,
  ⟨0x0A08, 1, .ro, 0x00000000, 0x00000000⟩,
  ⟨0x0A0C, 1, .ro, 0x00000000, 0x00000000⟩,
  ⟨0x0A20, 8, .ro, 0x00000000, 0x00000000⟩,
  ⟨0x0B00, 1, .rw, 0x00400003, 0x007FFFFF⟩,
  ⟨0x0B08, 1, .rw, 0x00400003, 0x007FFFFF⟩,
  ⟨0x0B0C, 1, .rw, 0x00400003, 0x007FFFFF⟩,
  ⟨0x0B10, 1, .rw, 0x00000000, 0xFFFFFFFF⟩,
  ⟨0x0B18, 1, .rw, 0x00000000, 0xFFFFFFFF⟩,
  ⟨0x0B1C, 1, .rw, 0x00000000, 0xFFFFFFFF⟩,
  ⟨0x0B20, 1, .rw, 0x00000000, 0xFFFFFFFF⟩,
  ⟨0x0B24, 1, .rw, 0x00000000, 0xFFFFFFFF⟩,
  ⟨0x0B28, 1, .rw, 0x00000000, 0xFFFFFFFF⟩,
  ⟨0x0B2C, 1, .rw, 0x00000000, 0xFFFFFFFF⟩,
  ⟨0x0B30, 1, .rw, 0x00003214, 0x00007FFF⟩,
  ⟨0x0B34, 1, .rw, 0x0030B810, 0x007FFFFF⟩,
  ⟨0x0B40, 4, .ro, 0x00000000, 0x00000000⟩,
  ⟨0x0B60, 1, .rw, 0x00000293, 0x000007FF⟩,
  ⟨0x0B64, 5, .rw, 0x00000092, 0x000007FF⟩,
  ⟨0x0B80, 6, .ro, 0x00000000, 0x00000000⟩,
  ⟨0x0BA0, 4, .rw, 0x00010530, 0x0007FFFF⟩,
  ⟨0x0BB0, 4, .ro, 0x00000000, 0x00000000⟩,
  ⟨0x0C00, 1, .rw, 0x000147A2, 0x0003FFFF⟩]

/-- Rows of Table 19.11. -/
def regRows4 : List RegRow := [
  ⟨0x0C04, 1, .ro, 0x00000000, 0x00000000⟩,
  ⟨0x0C10, 1, .rw, 0x0000003C, 0x000003FF⟩,
  ⟨0x0C14, 1, .ro, 0x00000000, 0x00000000⟩,
  ⟨0x0C18, 1, .ro, 0x00000000, 0x00000000⟩,
  ⟨0x0C1C, 1, .ro, 0x00000000, 0x00000000⟩,
  ⟨0x1000, 32, .rw, 0x00000000, 0xFFFFF000⟩,
  ⟨0x1080, 32, .rw, 0x00000000, 0xFFFFFFFF⟩,
  ⟨0x1100, 32, .rw, 0x00000000, 0xFFFFF000⟩,
  ⟨0x1180, 32, .rw, 0x00000000, 0xFFFFFFFF⟩,
  ⟨0x1200, 32, .rw, 0x00001080, 0xFFFFFFFF⟩,
  ⟨0x1280, 32, .rw, 0x00640010, 0x0FFFFFFF⟩,
  ⟨0x1300, 32, .ro, 0x00000000, 0x00000000⟩,
  ⟨0x1380, 32, .ro, 0x00000000, 0x00000000⟩]

/-- Table 19.11. Factory values read 0 here; the state holds them (Machine/Flags.lean). -/
def regRows : List RegRow := regRows0 ++ regRows1 ++ regRows2 ++ regRows3 ++ regRows4

/-- The row a register's offset lies in. -/
def rowOf (off : Nat) : Option RegRow :=
  if off % 4 = 0 then regRows.find? (fun r => decide (r.base ≤ off ∧ off < r.base + 4 * r.count)) else none

/-- The reset value of the register at an offset (R485); 0 where none is assigned. -/
def regReset (off : Nat) : Word := match rowOf off with
  | some r => r.reset
  | none => 0

/-- The register at an offset of a bank. -/
def RegBank.get (b : RegBank) (off : Nat) : Word := match b.find? (fun e => e.1 == off) with
  | some e => e.2
  | none => regReset off

/-- A field of a bank's register, unsigned. -/
def RegBank.fld (b : RegBank) (off hi lo : Nat) : Nat := bitsOf (b.get off) hi lo

/-- A field of a bank's register, signed. -/
def RegBank.sfld (b : RegBank) (off hi lo : Nat) : Int := sbitsOf (b.get off) hi lo

/-- A bank with an offset listed at a value, or not listed where that is its reset value: the canonical form. -/
def RegBank.put (b : RegBank) (off : Nat) (w : Word) : RegBank := match b with
  | [] => if w = regReset off then [] else [(off, w)]
  | e :: b' =>
    if off < e.1 then (if w = regReset off then e :: b' else (off, w) :: e :: b')
    else if off = e.1 then (if w = regReset off then b' else (off, w) :: b')
    else e :: RegBank.put b' off w

/-- The canonical form: offsets strictly rising, and no entry at its reset value. -/
def RegBank.wf (b : RegBank) : Bool := match b with
  | [] => true
  | e :: b' => decide (e.2 ≠ regReset e.1) && (match b' with
    | [] => true
    | e' :: _ => decide (e.1 < e'.1)) && RegBank.wf b'

/-- A register given a value: it takes the bits of its RW fields, and every other bit reads as at reset; a register with no RW field takes
nothing (19 R478). -/
def RegBank.take (b : RegBank) (e : Nat × Word) : RegBank := match rowOf e.1 with
  | some r => if r.access = .rw then b.put e.1 ((e.2 &&& r.mask) ||| (regReset e.1 &&& ~~~r.mask)) else b
  | none => b

/-! ### Field ranges -/

/-- A field with a range of its own: registers from `base`, `count` of them, bits [hi:lo], signed or not, its least and
greatest valid value. -/
structure FieldRow where
  base   : Nat
  count  : Nat
  hi     : Nat
  lo     : Nat
  signed : Bool
  min    : Int
  max    : Int
  deriving DecidableEq, Repr

/-- Field ranges, in offset order within each chapter. -/
def fieldRows0 : List FieldRow := [
  ⟨0x0100, 1, 1, 0, false, 0, 2⟩,
  ⟨0x0100, 1, 4, 2, false, 0, 5⟩,
  ⟨0x0104, 1, 5, 0, false, 20, 40⟩,
  ⟨0x0110, 1, 19, 0, false, 10, 1000000⟩,
  ⟨0x0110, 1, 23, 20, false, 1, 15⟩,
  ⟨0x0114, 1, 1, 0, false, 0, 2⟩,
  ⟨0x0114, 1, 11, 10, false, 0, 2⟩,
  ⟨0x0114, 1, 15, 12, false, 2, 15⟩,
  ⟨0x0200, 1, 3, 0, false, 6, 12⟩,
  ⟨0x0200, 1, 7, 4, false, 1, 15⟩,
  ⟨0x0200, 1, 13, 8, false, 2, 50⟩,
  ⟨0x0200, 1, 31, 16, false, 10, 6000⟩,
  ⟨0x0300, 1, 7, 0, false, 8, 80⟩,
  ⟨0x0300, 1, 15, 8, false, 25, 200⟩,
  ⟨0x0300, 1, 21, 16, false, 5, 50⟩,
  ⟨0x0300, 1, 27, 22, false, 8, 60⟩,
  ⟨0x0300, 1, 31, 28, false, 1, 12⟩,
  ⟨0x0308, 1, 1, 0, false, 0, 2⟩,
  ⟨0x0308, 1, 6, 2, false, 1, 16⟩,
  ⟨0x0308, 1, 16, 7, false, 1, 512⟩,
  ⟨0x0308, 1, 22, 17, false, 5, 60⟩,
  ⟨0x0308, 1, 26, 23, false, 1, 15⟩,
  ⟨0x030C, 1, 11, 0, false, 2000, 4000⟩,
  ⟨0x030C, 1, 19, 12, false, 20, 80⟩,
  ⟨0x030C, 1, 27, 20, false, 1, 255⟩,
  ⟨0x0340, 1, 15, 0, false, 0, 60000⟩,
  ⟨0x0340, 1, 22, 16, false, 10, 100⟩,
  ⟨0x0348, 1, 6, 1, false, 5, 50⟩,
  ⟨0x0348, 1, 13, 7, false, 10, 100⟩,
  ⟨0x0348, 1, 19, 14, false, 1, 50⟩]

/-- Field ranges, in offset order within each chapter. -/
def fieldRows1 : List FieldRow := [
  ⟨0x0348, 1, 24, 20, false, 0, 23⟩,
  ⟨0x034C, 1, 7, 0, false, 20, 100⟩,
  ⟨0x034C, 1, 12, 8, false, 3, 20⟩,
  ⟨0x0380, 1, 9, 0, false, 10, 1000⟩,
  ⟨0x0380, 1, 21, 10, false, 10, 3600⟩,
  ⟨0x0400, 1, 3, 0, false, 5, 15⟩,
  ⟨0x0400, 1, 7, 4, false, 0, 8⟩,
  ⟨0x0400, 1, 15, 8, false, 5, 200⟩,
  ⟨0x0404, 1, 7, 0, false, 5, 100⟩,
  ⟨0x0404, 1, 13, 8, false, 1, 50⟩,
  ⟨0x0408, 1, 9, 0, false, 10, 1000⟩,
  ⟨0x0408, 1, 21, 10, false, 100, 2200⟩,
  ⟨0x040C, 1, 11, 0, false, 0, 2000⟩,
  ⟨0x040C, 1, 19, 12, false, 60, 175⟩,
  ⟨0x040C, 1, 27, 20, false, 50, 170⟩,
  ⟨0x0410, 1, 9, 0, false, 0, 1000⟩,
  ⟨0x0414, 1, 9, 0, false, 0, 1000⟩,
  ⟨0x0410, 1, 25, 10, false, 1, 60000⟩,
  ⟨0x0414, 1, 25, 10, false, 1, 60000⟩,
  ⟨0x0418, 1, 15, 0, false, 0, 60000⟩,
  ⟨0x0500, 1, 1, 0, false, 0, 2⟩,
  ⟨0x0500, 1, 31, 16, false, 1, 60000⟩,
  ⟨0x0504, 1, 15, 0, false, 1, 65535⟩,
  ⟨0x0508, 1, 15, 0, false, 1, 65535⟩,
  ⟨0x050C, 1, 15, 0, false, 1, 65535⟩,
  ⟨0x0510, 1, 15, 0, false, 1, 65535⟩,
  ⟨0x0514, 1, 15, 0, false, 1, 65535⟩,
  ⟨0x0514, 1, 25, 16, false, 1, 1000⟩,
  ⟨0x0518, 1, 11, 0, false, 10, 4000⟩,
  ⟨0x051C, 1, 7, 1, false, 5, 60⟩]

/-- Field ranges, in offset order within each chapter. -/
def fieldRows2 : List FieldRow := [
  ⟨0x051C, 1, 14, 8, false, 10, 80⟩,
  ⟨0x051C, 1, 21, 15, false, 5, 100⟩,
  ⟨0x051C, 1, 31, 22, false, 10, 1000⟩,
  ⟨0x0540, 4, 1, 0, false, 0, 2⟩,
  ⟨0x0540, 4, 5, 2, false, 0, 10⟩,
  ⟨0x0560, 4, 10, 5, false, 1, 50⟩,
  ⟨0x0600, 8, 1, 0, false, 0, 2⟩,
  ⟨0x0600, 8, 19, 6, false, 1000, 10000⟩,
  ⟨0x0600, 8, 27, 20, false, 50, 200⟩,
  ⟨0x0620, 8, 7, 0, true, -40, 120⟩,
  ⟨0x0620, 8, 15, 8, true, -40, 120⟩,
  ⟨0x0620, 8, 23, 16, true, -40, 120⟩,
  ⟨0x0620, 8, 31, 24, false, 1, 255⟩,
  ⟨0x0640, 8, 7, 0, true, -60, 60⟩,
  ⟨0x0640, 8, 15, 8, true, -60, 60⟩,
  ⟨0x0640, 8, 23, 16, true, -60, 60⟩,
  ⟨0x0660, 8, 7, 0, true, -60, 60⟩,
  ⟨0x0660, 8, 15, 8, true, -40, 120⟩,
  ⟨0x0660, 8, 23, 16, true, -60, 60⟩,
  ⟨0x0660, 8, 31, 24, true, -40, 120⟩,
  ⟨0x0680, 1, 6, 0, false, 50, 125⟩,
  ⟨0x0680, 1, 12, 7, false, 5, 50⟩,
  ⟨0x0680, 1, 18, 13, false, 5, 60⟩,
  ⟨0x0680, 1, 24, 19, false, 5, 50⟩,
  ⟨0x0680, 1, 31, 25, false, 10, 120⟩,
  ⟨0x06A0, 8, 1, 0, false, 0, 2⟩,
  ⟨0x06A0, 8, 5, 2, false, 0, 8⟩,
  ⟨0x06A0, 8, 14, 8, false, 0, 100⟩,
  ⟨0x06C0, 8, 7, 0, true, -40, 120⟩,
  ⟨0x06C0, 8, 15, 8, true, -40, 120⟩]

/-- Field ranges, in offset order within each chapter. -/
def fieldRows3 : List FieldRow := [
  ⟨0x06C0, 8, 23, 16, true, -40, 120⟩,
  ⟨0x06E0, 8, 15, 0, false, 1, 65535⟩,
  ⟨0x0800, 1, 1, 0, false, 0, 2⟩,
  ⟨0x0800, 1, 14, 3, false, 1, 3000⟩,
  ⟨0x0800, 1, 26, 15, false, 1, 4095⟩,
  ⟨0x0804, 1, 10, 0, false, 0, 2000⟩,
  ⟨0x080C, 1, 11, 0, false, 0, 4000⟩,
  ⟨0x080C, 1, 23, 12, false, 0, 4000⟩,
  ⟨0x0810, 1, 22, 16, false, 50, 100⟩,
  ⟨0x0810, 1, 29, 23, false, 0, 50⟩,
  ⟨0x0900, 1, 12, 0, false, 1000, 5000⟩,
  ⟨0x0900, 1, 25, 13, false, 500, 4500⟩,
  ⟨0x0904, 1, 3, 0, false, 1, 15⟩,
  ⟨0x0904, 1, 7, 4, false, 1, 15⟩,
  ⟨0x0904, 1, 11, 8, false, 1, 15⟩,
  ⟨0x0904, 1, 15, 12, false, 1, 15⟩,
  ⟨0x0904, 1, 19, 16, false, 1, 15⟩,
  ⟨0x0904, 1, 27, 20, false, 1, 200⟩,
  ⟨0x0908, 1, 10, 0, false, 0, 2000⟩,
  ⟨0x0908, 1, 21, 11, false, 0, 2000⟩,
  ⟨0x0908, 1, 29, 22, false, 1, 255⟩,
  ⟨0x090C, 1, 9, 1, false, 1, 511⟩,
  ⟨0x090C, 1, 15, 10, false, 1, 50⟩,
  ⟨0x090C, 1, 18, 16, false, 0, 5⟩,
  ⟨0x090C, 1, 27, 20, false, 1, 255⟩,
  ⟨0x090C, 1, 31, 28, false, 1, 15⟩,
  ⟨0x0910, 16, 2, 0, false, 0, 6⟩,
  ⟨0x0910, 16, 8, 4, false, 1, 31⟩,
  ⟨0x0910, 16, 18, 9, false, 10, 1000⟩,
  ⟨0x0950, 1, 1, 0, false, 0, 2⟩]

/-- Field ranges, in offset order within each chapter. -/
def fieldRows4 : List FieldRow := [
  ⟨0x0950, 1, 6, 2, false, 1, 31⟩,
  ⟨0x0950, 1, 15, 7, false, 10, 500⟩,
  ⟨0x0950, 1, 17, 16, false, 0, 2⟩,
  ⟨0x0950, 1, 22, 18, false, 1, 31⟩,
  ⟨0x0950, 1, 31, 23, false, 10, 500⟩,
  ⟨0x0980, 8, 1, 0, false, 0, 2⟩,
  ⟨0x0980, 8, 12, 3, false, 5, 1000⟩,
  ⟨0x0A00, 1, 8, 0, false, 1, 400⟩,
  ⟨0x0A00, 1, 15, 9, false, 1, 120⟩,
  ⟨0x0A00, 1, 25, 18, false, 1, 240⟩,
  ⟨0x1200, 32, 4, 1, false, 0, 8⟩,
  ⟨0x1200, 32, 9, 5, false, 4, 16⟩,
  ⟨0x1200, 32, 14, 10, false, 4, 16⟩,
  ⟨0x1280, 32, 15, 0, false, 1, 65535⟩,
  ⟨0x1280, 32, 27, 16, false, 1, 4000⟩,
  ⟨0x0B00, 1, 19, 8, false, 0, 4094⟩,
  ⟨0x0B08, 1, 19, 8, false, 0, 4094⟩,
  ⟨0x0B0C, 1, 19, 8, false, 0, 4094⟩,
  ⟨0x0B30, 1, 6, 0, false, 5, 100⟩,
  ⟨0x0B30, 1, 14, 7, false, 10, 250⟩,
  ⟨0x0B34, 1, 15, 0, false, 1024, 65535⟩,
  ⟨0x0B34, 1, 17, 16, false, 0, 2⟩,
  ⟨0x0B60, 1, 5, 3, false, 0, 3⟩,
  ⟨0x0B64, 5, 5, 3, false, 0, 3⟩,
  ⟨0x0B60, 1, 8, 6, false, 0, 4⟩,
  ⟨0x0B64, 5, 8, 6, false, 0, 4⟩,
  ⟨0x0BA0, 4, 14, 7, false, 1, 255⟩,
  ⟨0x0C00, 1, 4, 0, false, 1, 20⟩,
  ⟨0x0C00, 1, 11, 6, false, 10, 60⟩,
  ⟨0x0C00, 1, 17, 12, false, 5, 50⟩]

/-- Field ranges, in offset order within each chapter. -/
def fieldRows5 : List FieldRow := [
  ⟨0x0C10, 1, 9, 0, false, 5, 600⟩]

/-- Every staged field whose row of its table states a range. -/
def fieldRows : List FieldRow := fieldRows0 ++ fieldRows1 ++ fieldRows2 ++ fieldRows3 ++ fieldRows4 ++ fieldRows5

/-! ### One accessor per staged field -/

namespace Fld
/-- `PROFILE_CTL.SELECT` -/
def profileCtl_SELECT (b : RegBank) : Nat := b.fld (0x0100) 1 0
/-- `PROFILE_CTL.SWEEP` -/
def profileCtl_SWEEP (b : RegBank) : Nat := b.fld (0x0100) 4 2
/-- `MARGIN_CFG.TRIGGER` -/
def marginCfg_TRIGGER (b : RegBank) : Nat := b.fld (0x0104) 5 0
/-- `TIME_CFG.JUMP_US` -/
def timeCfg_JUMP_US (b : RegBank) : Nat := b.fld (0x0110) 19 0
/-- `TIME_CFG.START_WAIT` -/
def timeCfg_START_WAIT (b : RegBank) : Nat := b.fld (0x0110) 23 20
/-- `PTP_CFG.PROFILE` -/
def ptpCfg_PROFILE (b : RegBank) : Nat := b.fld (0x0114) 1 0
/-- `PTP_CFG.UDP` -/
def ptpCfg_UDP (b : RegBank) : Bool := decide (b.fld (0x0114) 2 2 = 1)
/-- `PTP_CFG.DOMAIN` -/
def ptpCfg_DOMAIN (b : RegBank) : Nat := b.fld (0x0114) 9 3
/-- `PTP_CFG.SOURCE` -/
def ptpCfg_SOURCE (b : RegBank) : Nat := b.fld (0x0114) 11 10
/-- `PTP_CFG.ANN_TIMEOUT` -/
def ptpCfg_ANN_TIMEOUT (b : RegBank) : Nat := b.fld (0x0114) 15 12
/-- `PTP_ASYM0.EP0` -/
def ptpAsym0_EP0 (b : RegBank) : Int := b.sfld (0x0118) 15 0
/-- `PTP_ASYM0.EP1` -/
def ptpAsym0_EP1 (b : RegBank) : Int := b.sfld (0x0118) 31 16
/-- `PTP_ASYM1.EP2` -/
def ptpAsym1_EP2 (b : RegBank) : Int := b.sfld (0x011C) 15 0
/-- `RING_CFG.RET_TIMEOUT` -/
def ringCfg_RET_TIMEOUT (b : RegBank) : Nat := b.fld (0x0200) 3 0
/-- `RING_CFG.DROP` -/
def ringCfg_DROP (b : RegBank) : Nat := b.fld (0x0200) 7 4
/-- `RING_CFG.TOKEN_MS` -/
def ringCfg_TOKEN_MS (b : RegBank) : Nat := b.fld (0x0200) 13 8
/-- `RING_CFG.STA_TIMEOUT` -/
def ringCfg_STA_TIMEOUT (b : RegBank) : Nat := b.fld (0x0200) 31 16
/-- `RING_MAPn.E0` -/
def ringMap_E0 (b : RegBank) (n : Nat) : Nat := b.fld (0x0240 + 4 * n) 7 0
/-- `RING_MAPn.E1` -/
def ringMap_E1 (b : RegBank) (n : Nat) : Nat := b.fld (0x0240 + 4 * n) 15 8
/-- `RING_MAPn.E2` -/
def ringMap_E2 (b : RegBank) (n : Nat) : Nat := b.fld (0x0240 + 4 * n) 23 16
/-- `RING_MAPn.E3` -/
def ringMap_E3 (b : RegBank) (n : Nat) : Nat := b.fld (0x0240 + 4 * n) 31 24
/-- `RING_CELLS.CELLS` -/
def ringCells_CELLS (b : RegBank) : Nat := b.fld (0x0204) 9 0
/-- `MEAS_CFG.SUM_P` -/
def measCfg_SUM_P (b : RegBank) : Nat := b.fld (0x0300) 7 0
/-- `MEAS_CFG.SUM_S` -/
def measCfg_SUM_S (b : RegBank) : Nat := b.fld (0x0300) 15 8
/-- `MEAS_CFG.SPLIT` -/
def measCfg_SPLIT (b : RegBank) : Nat := b.fld (0x0300) 21 16
/-- `MEAS_CFG.PS` -/
def measCfg_PS (b : RegBank) : Nat := b.fld (0x0300) 27 22
/-- `MEAS_CFG.OW_PERIOD` -/
def measCfg_OW_PERIOD (b : RegBank) : Nat := b.fld (0x0300) 31 28
/-- `FGI_CFG.SCALE` -/
def fgiCfg_SCALE (b : RegBank) : Int := b.sfld (0x0304) 15 0
/-- `FGI_CFG.OFFSET` -/
def fgiCfg_OFFSET (b : RegBank) : Int := b.sfld (0x0304) 27 16
/-- `BAL_CFG.MODE` -/
def balCfg_MODE (b : RegBank) : Nat := b.fld (0x0308) 1 0
/-- `BAL_CFG.MAX_CH` -/
def balCfg_MAX_CH (b : RegBank) : Nat := b.fld (0x0308) 6 2
/-- `BAL_CFG.MAX_STR` -/
def balCfg_MAX_STR (b : RegBank) : Nat := b.fld (0x0308) 16 7
/-- `BAL_CFG.WINDOW` -/
def balCfg_WINDOW (b : RegBank) : Nat := b.fld (0x0308) 22 17
/-- `BAL_CFG.HYST` -/
def balCfg_HYST (b : RegBank) : Nat := b.fld (0x0308) 26 23
/-- `BAL_CFG2.FLOOR` -/
def balCfg2_FLOOR (b : RegBank) : Nat := b.fld (0x030C) 11 0
/-- `BAL_CFG2.TMAX` -/
def balCfg2_TMAX (b : RegBank) : Nat := b.fld (0x030C) 19 12
/-- `BAL_CFG2.REST` -/
def balCfg2_REST (b : RegBank) : Nat := b.fld (0x030C) 27 20
/-- `EST_CFG.OUT_INT` -/
def estCfg_OUT_INT (b : RegBank) : Nat := b.fld (0x0340) 15 0
/-- `EST_CFG.VALID_B` -/
def estCfg_VALID_B (b : RegBank) : Nat := b.fld (0x0340) 22 16
/-- `EST_CFG.SEC` -/
def estCfg_SEC (b : RegBank) : Bool := decide (b.fld (0x0340) 23 23 = 1)
/-- `IMP_CFG.ENABLE` -/
def impCfg_ENABLE (b : RegBank) : Bool := decide (b.fld (0x0348) 0 0 = 1)
/-- `IMP_CFG.AMP` -/
def impCfg_AMP (b : RegBank) : Nat := b.fld (0x0348) 6 1
/-- `IMP_CFG.RIPPLE` -/
def impCfg_RIPPLE (b : RegBank) : Nat := b.fld (0x0348) 13 7
/-- `IMP_CFG.DRIFT` -/
def impCfg_DRIFT (b : RegBank) : Nat := b.fld (0x0348) 19 14
/-- `IMP_CFG.CS_HOUR` -/
def impCfg_CS_HOUR (b : RegBank) : Nat := b.fld (0x0348) 24 20
/-- `IMP_CFG2.OUTLIER_K` -/
def impCfg2_OUTLIER_K (b : RegBank) : Nat := b.fld (0x034C) 7 0
/-- `IMP_CFG2.MIN_BASE` -/
def impCfg2_MIN_BASE (b : RegBank) : Nat := b.fld (0x034C) 12 8
/-- `LEDGER_CFG.DROPOUT_MS` -/
def ledgerCfg_DROPOUT_MS (b : RegBank) : Nat := b.fld (0x0380) 9 0
/-- `LEDGER_CFG.SNAP_S` -/
def ledgerCfg_SNAP_S (b : RegBank) : Nat := b.fld (0x0380) 21 10
/-- `GL_CFG.FSW` -/
def glCfg_FSW (b : RegBank) : Nat := b.fld (0x0400) 3 0
/-- `GL_CFG.LINKS` -/
def glCfg_LINKS (b : RegBank) : Nat := b.fld (0x0400) 7 4
/-- `GL_CFG.DEAD` -/
def glCfg_DEAD (b : RegBank) : Nat := b.fld (0x0400) 15 8
/-- `GL_CFG.REPEAT` -/
def glCfg_REPEAT (b : RegBank) : Nat := b.fld (0x0400) 17 16
/-- `GL_CFG2.MINP` -/
def glCfg2_MINP (b : RegBank) : Nat := b.fld (0x0404) 7 0
/-- `GL_CFG2.RX_TIMEOUT` -/
def glCfg2_RX_TIMEOUT (b : RegBank) : Nat := b.fld (0x0404) 13 8
/-- `GL_LIM0.PHASE_OC` -/
def glLim0_PHASE_OC (b : RegBank) : Nat := b.fld (0x0408) 9 0
/-- `GL_LIM0.BUS_OV` -/
def glLim0_BUS_OV (b : RegBank) : Nat := b.fld (0x0408) 21 10
/-- `GL_LIM1.BUS_UV` -/
def glLim1_BUS_UV (b : RegBank) : Nat := b.fld (0x040C) 11 0
/-- `GL_LIM1.SW_OT` -/
def glLim1_SW_OT (b : RegBank) : Nat := b.fld (0x040C) 19 12
/-- `GL_LIM1.SW_WARN` -/
def glLim1_SW_WARN (b : RegBank) : Nat := b.fld (0x040C) 27 20
/-- `STAGE_START.DELAY` -/
def stageStart_DELAY (b : RegBank) : Nat := b.fld (0x0410) 9 0
/-- `STAGE_STOP.DELAY` -/
def stageStop_DELAY (b : RegBank) : Nat := b.fld (0x0414) 9 0
/-- `STAGE_START.RAMP` -/
def stageStart_RAMP (b : RegBank) : Nat := b.fld (0x0410) 25 10
/-- `STAGE_STOP.RAMP` -/
def stageStop_RAMP (b : RegBank) : Nat := b.fld (0x0414) 25 10
/-- `TELEM_CFG.WINDOW` -/
def telemCfg_WINDOW (b : RegBank) : Nat := b.fld (0x0418) 15 0
/-- `LOOP_CTL.MODE` -/
def loopCtl_MODE (b : RegBank) : Nat := b.fld (0x0500) 1 0
/-- `LOOP_CTL.CUR_SEL` -/
def loopCtl_CUR_SEL (b : RegBank) : Bool := decide (b.fld (0x0500) 2 2 = 1)
/-- `LOOP_CTL.VLT_SEL` -/
def loopCtl_VLT_SEL (b : RegBank) : Bool := decide (b.fld (0x0500) 3 3 = 1)
/-- `LOOP_CTL.RUN_RAMP` -/
def loopCtl_RUN_RAMP (b : RegBank) : Nat := b.fld (0x0500) 31 16
/-- `CUR_BANK_A.KP` -/
def curBankA_KP (b : RegBank) : Nat := b.fld (0x0504) 15 0
/-- `CUR_BANK_B.KP` -/
def curBankB_KP (b : RegBank) : Nat := b.fld (0x0508) 15 0
/-- `CUR_BANK_A.KI` -/
def curBankA_KI (b : RegBank) : Nat := b.fld (0x0504) 31 16
/-- `CUR_BANK_B.KI` -/
def curBankB_KI (b : RegBank) : Nat := b.fld (0x0508) 31 16
/-- `VLT_BANK_A.KP` -/
def vltBankA_KP (b : RegBank) : Nat := b.fld (0x050C) 15 0
/-- `VLT_BANK_B.KP` -/
def vltBankB_KP (b : RegBank) : Nat := b.fld (0x0510) 15 0
/-- `VLT_BANK_A.KI` -/
def vltBankA_KI (b : RegBank) : Nat := b.fld (0x050C) 31 16
/-- `VLT_BANK_B.KI` -/
def vltBankB_KI (b : RegBank) : Nat := b.fld (0x0510) 31 16
/-- `DROOP_CFG.R_DROOP` -/
def droopCfg_R_DROOP (b : RegBank) : Nat := b.fld (0x0514) 15 0
/-- `DROOP_CFG.VSLEW` -/
def droopCfg_VSLEW (b : RegBank) : Nat := b.fld (0x0514) 25 16
/-- `LOOP_HW.L_PH` -/
def loopHw_L_PH (b : RegBank) : Nat := b.fld (0x0518) 11 0
/-- `SHED_CFG.ENABLE` -/
def shedCfg_ENABLE (b : RegBank) : Bool := decide (b.fld (0x051C) 0 0 = 1)
/-- `SHED_CFG.SHED_PCT` -/
def shedCfg_SHED_PCT (b : RegBank) : Nat := b.fld (0x051C) 7 1
/-- `SHED_CFG.RESTORE_PCT` -/
def shedCfg_RESTORE_PCT (b : RegBank) : Nat := b.fld (0x051C) 14 8
/-- `SHED_CFG.STEP_PCT` -/
def shedCfg_STEP_PCT (b : RegBank) : Nat := b.fld (0x051C) 21 15
/-- `SHED_CFG.DWELL` -/
def shedCfg_DWELL (b : RegBank) : Nat := b.fld (0x051C) 31 22
/-- `DIAG_CFGn.USE` -/
def diagCfg_USE (b : RegBank) (n : Nat) : Nat := b.fld (0x0540 + 4 * n) 1 0
/-- `DIAG_CFGn.DECIM` -/
def diagCfg_DECIM (b : RegBank) (n : Nat) : Nat := b.fld (0x0540 + 4 * n) 5 2
/-- `DIAG_CFGn.TRIG` -/
def diagCfg_TRIG (b : RegBank) (n : Nat) : Nat := b.fld (0x0540 + 4 * n) 7 6
/-- `DIAG_CFGn.PRE` -/
def diagCfg_PRE (b : RegBank) (n : Nat) : Nat := b.fld (0x0540 + 4 * n) 11 8
/-- `DIAG_CFGn.PHASE` -/
def diagCfg_PHASE (b : RegBank) (n : Nat) : Nat := b.fld (0x0540 + 4 * n) 14 12
/-- `DIAG_CFGn.LEVEL` -/
def diagCfg_LEVEL (b : RegBank) (n : Nat) : Int := b.sfld (0x0540 + 4 * n) 31 16
/-- `DIAG_SIGn.SIG` -/
def diagSig_SIG (b : RegBank) (n : Nat) : Nat := b.fld (0x0550 + 4 * n) 31 0
/-- `DIAG_INJn.WAVE` -/
def diagInj_WAVE (b : RegBank) (n : Nat) : Nat := b.fld (0x0560 + 4 * n) 1 0
/-- `DIAG_INJn.NODE` -/
def diagInj_NODE (b : RegBank) (n : Nat) : Nat := b.fld (0x0560 + 4 * n) 4 2
/-- `DIAG_INJn.AMP` -/
def diagInj_AMP (b : RegBank) (n : Nat) : Nat := b.fld (0x0560 + 4 * n) 10 5
/-- `DIAG_INJn.F_LO` -/
def diagInj_F_LO (b : RegBank) (n : Nat) : Nat := b.fld (0x0560 + 4 * n) 16 11
/-- `DIAG_INJn.F_HI` -/
def diagInj_F_HI (b : RegBank) (n : Nat) : Nat := b.fld (0x0560 + 4 * n) 22 17
/-- `MT_CFGn.TYPE` -/
def mtCfg_TYPE (b : RegBank) (n : Nat) : Nat := b.fld (0x0600 + 4 * n) 1 0
/-- `MT_CFGn.ZONE` -/
def mtCfg_ZONE (b : RegBank) (n : Nat) : Nat := b.fld (0x0600 + 4 * n) 4 2
/-- `MT_CFGn.BETA` -/
def mtCfg_BETA (b : RegBank) (n : Nat) : Nat := b.fld (0x0600 + 4 * n) 19 6
/-- `MT_CFGn.IDEAL` -/
def mtCfg_IDEAL (b : RegBank) (n : Nat) : Nat := b.fld (0x0600 + 4 * n) 27 20
/-- `TZ_HIn.WARN_HI` -/
def tzHi_WARN_HI (b : RegBank) (n : Nat) : Int := b.sfld (0x0620 + 4 * n) 7 0
/-- `TZ_HIn.THR_HI` -/
def tzHi_THR_HI (b : RegBank) (n : Nat) : Int := b.sfld (0x0620 + 4 * n) 15 8
/-- `TZ_HIn.TRIP_HI` -/
def tzHi_TRIP_HI (b : RegBank) (n : Nat) : Int := b.sfld (0x0620 + 4 * n) 23 16
/-- `TZ_HIn.RISE` -/
def tzHi_RISE (b : RegBank) (n : Nat) : Nat := b.fld (0x0620 + 4 * n) 31 24
/-- `TZ_LOn.WARN_LO` -/
def tzLo_WARN_LO (b : RegBank) (n : Nat) : Int := b.sfld (0x0640 + 4 * n) 7 0
/-- `TZ_LOn.THR_LO` -/
def tzLo_THR_LO (b : RegBank) (n : Nat) : Int := b.sfld (0x0640 + 4 * n) 15 8
/-- `TZ_LOn.TRIP_LO` -/
def tzLo_TRIP_LO (b : RegBank) (n : Nat) : Int := b.sfld (0x0640 + 4 * n) 23 16
/-- `TZ_BANDn.CHG_LO` -/
def tzBand_CHG_LO (b : RegBank) (n : Nat) : Int := b.sfld (0x0660 + 4 * n) 7 0
/-- `TZ_BANDn.CHG_HI` -/
def tzBand_CHG_HI (b : RegBank) (n : Nat) : Int := b.sfld (0x0660 + 4 * n) 15 8
/-- `TZ_BANDn.DIS_LO` -/
def tzBand_DIS_LO (b : RegBank) (n : Nat) : Int := b.sfld (0x0660 + 4 * n) 23 16
/-- `TZ_BANDn.DIS_HI` -/
def tzBand_DIS_HI (b : RegBank) (n : Nat) : Int := b.sfld (0x0660 + 4 * n) 31 24
/-- `THR_STEP.STEP_PCT` -/
def thrStep_STEP_PCT (b : RegBank) : Nat := b.fld (0x0680) 6 0
/-- `THR_STEP.STEP_K` -/
def thrStep_STEP_K (b : RegBank) : Nat := b.fld (0x0680) 12 7
/-- `THR_STEP.GAP` -/
def thrStep_GAP (b : RegBank) : Nat := b.fld (0x0680) 18 13
/-- `THR_STEP.HYST` -/
def thrStep_HYST (b : RegBank) : Nat := b.fld (0x0680) 24 19
/-- `THR_STEP.DWELL` -/
def thrStep_DWELL (b : RegBank) : Nat := b.fld (0x0680) 31 25
/-- `COOL_CFGn.MODE` -/
def coolCfg_MODE (b : RegBank) (n : Nat) : Nat := b.fld (0x06A0 + 4 * n) 1 0
/-- `COOL_CFGn.SRC` -/
def coolCfg_SRC (b : RegBank) (n : Nat) : Nat := b.fld (0x06A0 + 4 * n) 5 2
/-- `COOL_CFGn.DEST` -/
def coolCfg_DEST (b : RegBank) (n : Nat) : Bool := decide (b.fld (0x06A0 + 4 * n) 6 6 = 1)
/-- `COOL_CFGn.PWMF` -/
def coolCfg_PWMF (b : RegBank) (n : Nat) : Bool := decide (b.fld (0x06A0 + 4 * n) 7 7 = 1)
/-- `COOL_CFGn.MIN` -/
def coolCfg_MIN (b : RegBank) (n : Nat) : Nat := b.fld (0x06A0 + 4 * n) 14 8
/-- `COOL_CFGn.PPR` -/
def coolCfg_PPR (b : RegBank) (n : Nat) : Nat := b.fld (0x06A0 + 4 * n) 16 15
/-- `COOL_CFGn.RPM_MIN` -/
def coolCfg_RPM_MIN (b : RegBank) (n : Nat) : Nat := b.fld (0x06A0 + 4 * n) 24 17
/-- `COOL_SETn.T_LOW` -/
def coolSet_T_LOW (b : RegBank) (n : Nat) : Int := b.sfld (0x06C0 + 4 * n) 7 0
/-- `COOL_SETn.T_HIGH` -/
def coolSet_T_HIGH (b : RegBank) (n : Nat) : Int := b.sfld (0x06C0 + 4 * n) 15 8
/-- `COOL_SETn.T_SET` -/
def coolSet_T_SET (b : RegBank) (n : Nat) : Int := b.sfld (0x06C0 + 4 * n) 23 16
/-- `COOL_PIn.KP` -/
def coolPi_KP (b : RegBank) (n : Nat) : Nat := b.fld (0x06E0 + 4 * n) 15 0
/-- `COOL_PIn.KI` -/
def coolPi_KI (b : RegBank) (n : Nat) : Nat := b.fld (0x06E0 + 4 * n) 31 16
/-- `DISP_CFG.SRC` -/
def dispCfg_SRC (b : RegBank) : Nat := b.fld (0x0800) 1 0
/-- `DISP_CFG.LOSS` -/
def dispCfg_LOSS (b : RegBank) : Bool := decide (b.fld (0x0800) 2 2 = 1)
/-- `DISP_CFG.HOLD` -/
def dispCfg_HOLD (b : RegBank) : Nat := b.fld (0x0800) 14 3
/-- `DISP_CFG.LIM_SLEW` -/
def dispCfg_LIM_SLEW (b : RegBank) : Nat := b.fld (0x0800) 26 15
/-- `DISP_RATE.I_RATED` -/
def dispRate_I_RATED (b : RegBank) : Nat := b.fld (0x0804) 10 0
/-- `DISP_LIM.I_CHG` -/
def dispLim_I_CHG (b : RegBank) : Nat := b.fld (0x0808) 10 0
/-- `DISP_LIM.I_DIS` -/
def dispLim_I_DIS (b : RegBank) : Nat := b.fld (0x0808) 21 11
/-- `DISP_PLIM.P_CHG` -/
def dispPlim_P_CHG (b : RegBank) : Nat := b.fld (0x080C) 11 0
/-- `DISP_PLIM.P_DIS` -/
def dispPlim_P_DIS (b : RegBank) : Nat := b.fld (0x080C) 23 12
/-- `ENV_CFG.V_MAX_OP` -/
def envCfg_V_MAX_OP (b : RegBank) : Nat := b.fld (0x0810) 7 0
/-- `ENV_CFG.V_MIN_OP` -/
def envCfg_V_MIN_OP (b : RegBank) : Nat := b.fld (0x0810) 15 8
/-- `ENV_CFG.SOC_MAX` -/
def envCfg_SOC_MAX (b : RegBank) : Nat := b.fld (0x0810) 22 16
/-- `ENV_CFG.SOC_MIN` -/
def envCfg_SOC_MIN (b : RegBank) : Nat := b.fld (0x0810) 29 23
/-- `SAFE_CELL.OV` -/
def safeCell_OV (b : RegBank) : Nat := b.fld (0x0900) 12 0
/-- `SAFE_CELL.UV` -/
def safeCell_UV (b : RegBank) : Nat := b.fld (0x0900) 25 13
/-- `SAFE_CONF.N_OV` -/
def safeConf_N_OV (b : RegBank) : Nat := b.fld (0x0904) 3 0
/-- `SAFE_CONF.N_UV` -/
def safeConf_N_UV (b : RegBank) : Nat := b.fld (0x0904) 7 4
/-- `SAFE_CONF.N_OT` -/
def safeConf_N_OT (b : RegBank) : Nat := b.fld (0x0904) 11 8
/-- `SAFE_CONF.N_UT` -/
def safeConf_N_UT (b : RegBank) : Nat := b.fld (0x0904) 15 12
/-- `SAFE_CONF.N_OC` -/
def safeConf_N_OC (b : RegBank) : Nat := b.fld (0x0904) 19 16
/-- `SAFE_CONF.BLIND` -/
def safeConf_BLIND (b : RegBank) : Nat := b.fld (0x0904) 27 20
/-- `SAFE_OC.OC` -/
def safeOc_OC (b : RegBank) : Nat := b.fld (0x0908) 10 0
/-- `SAFE_OC.FAST` -/
def safeOc_FAST (b : RegBank) : Nat := b.fld (0x0908) 21 11
/-- `SAFE_OC.ICHG` -/
def safeOc_ICHG (b : RegBank) : Nat := b.fld (0x0908) 29 22
/-- `SAFE_CFG.REMOTE_RESET` -/
def safeCfg_REMOTE_RESET (b : RegBank) : Bool := decide (b.fld (0x090C) 0 0 = 1)
/-- `SAFE_CFG.TH_BLIND` -/
def safeCfg_TH_BLIND (b : RegBank) : Nat := b.fld (0x090C) 9 1
/-- `SAFE_CFG.SF_PERIOD` -/
def safeCfg_SF_PERIOD (b : RegBank) : Nat := b.fld (0x090C) 15 10
/-- `SAFE_CFG.SF_CAN` -/
def safeCfg_SF_CAN (b : RegBank) : Nat := b.fld (0x090C) 18 16
/-- `SAFE_CFG.SF_CAN_EN` -/
def safeCfg_SF_CAN_EN (b : RegBank) : Bool := decide (b.fld (0x090C) 19 19 = 1)
/-- `SAFE_CFG.PRECHG` -/
def safeCfg_PRECHG (b : RegBank) : Nat := b.fld (0x090C) 27 20
/-- `SAFE_CFG.RX_TIMEOUT` -/
def safeCfg_RX_TIMEOUT (b : RegBank) : Nat := b.fld (0x090C) 31 28
/-- `SI_CFGn.FUNC` -/
def siCfg_FUNC (b : RegBank) (n : Nat) : Nat := b.fld (0x0910 + 4 * n) 2 0
/-- `SI_CFGn.ANTI` -/
def siCfg_ANTI (b : RegBank) (n : Nat) : Bool := decide (b.fld (0x0910 + 4 * n) 3 3 = 1)
/-- `SI_CFGn.FILT` -/
def siCfg_FILT (b : RegBank) (n : Nat) : Nat := b.fld (0x0910 + 4 * n) 8 4
/-- `SI_CFGn.DISC` -/
def siCfg_DISC (b : RegBank) (n : Nat) : Nat := b.fld (0x0910 + 4 * n) 18 9
/-- `SI_CFGn.ALARM` -/
def siCfg_ALARM (b : RegBank) (n : Nat) : Bool := decide (b.fld (0x0910 + 4 * n) 19 19 = 1)
/-- `LOOP_CFG.MODE0` -/
def loopCfg_MODE0 (b : RegBank) : Nat := b.fld (0x0950) 1 0
/-- `LOOP_CFG.FILT0` -/
def loopCfg_FILT0 (b : RegBank) : Nat := b.fld (0x0950) 6 2
/-- `LOOP_CFG.DISC0` -/
def loopCfg_DISC0 (b : RegBank) : Nat := b.fld (0x0950) 15 7
/-- `LOOP_CFG.MODE1` -/
def loopCfg_MODE1 (b : RegBank) : Nat := b.fld (0x0950) 17 16
/-- `LOOP_CFG.FILT1` -/
def loopCfg_FILT1 (b : RegBank) : Nat := b.fld (0x0950) 22 18
/-- `LOOP_CFG.DISC1` -/
def loopCfg_DISC1 (b : RegBank) : Nat := b.fld (0x0950) 31 23
/-- `SO_CFG.FUNC0` -/
def soCfg_FUNC0 (b : RegBank) : Nat := b.fld (0x0954) 1 0
/-- `SO_CFG.FUNC1` -/
def soCfg_FUNC1 (b : RegBank) : Nat := b.fld (0x0954) 9 8
/-- `SO_CFG.FUNC2` -/
def soCfg_FUNC2 (b : RegBank) : Nat := b.fld (0x0954) 17 16
/-- `SO_CFG.FUNC3` -/
def soCfg_FUNC3 (b : RegBank) : Nat := b.fld (0x0954) 25 24
/-- `SF_IDn.IDENT` -/
def sfId_IDENT (b : RegBank) (n : Nat) : Nat := b.fld (0x0960 + 4 * n) 31 0
/-- `SF_PCFGn.PORT` -/
def sfPcfg_PORT (b : RegBank) (n : Nat) : Nat := b.fld (0x0980 + 4 * n) 1 0
/-- `SF_PCFGn.PAIRED` -/
def sfPcfg_PAIRED (b : RegBank) (n : Nat) : Bool := decide (b.fld (0x0980 + 4 * n) 2 2 = 1)
/-- `SF_PCFGn.WDOG` -/
def sfPcfg_WDOG (b : RegBank) (n : Nat) : Nat := b.fld (0x0980 + 4 * n) 12 3
/-- `SF_PCFGn.BIT` -/
def sfPcfg_BIT (b : RegBank) (n : Nat) : Nat := b.fld (0x0980 + 4 * n) 17 13
/-- `SF_PCFGn.FUNC` -/
def sfPcfg_FUNC (b : RegBank) (n : Nat) : Nat := b.fld (0x0980 + 4 * n) 21 18
/-- `SF_PCFGn.ALARM` -/
def sfPcfg_ALARM (b : RegBank) (n : Nat) : Bool := decide (b.fld (0x0980 + 4 * n) 22 22 = 1)
/-- `SAFE_SIG.SIG` -/
def safeSig_SIG (b : RegBank) : Nat := b.fld (0x09A0) 31 0
/-- `CYC_CFG.BASE` -/
def cycCfg_BASE (b : RegBank) : Nat := b.fld (0x0A00) 8 0
/-- `CYC_CFG.WARM_MIN` -/
def cycCfg_WARM_MIN (b : RegBank) : Nat := b.fld (0x0A00) 15 9
/-- `CYC_CFG.START` -/
def cycCfg_START (b : RegBank) : Nat := b.fld (0x0A00) 17 16
/-- `CYC_CFG.HOLD_MAX` -/
def cycCfg_HOLD_MAX (b : RegBank) : Nat := b.fld (0x0A00) 25 18
/-- `QP_SQBLn.ADDR_LO` -/
def qpSqbl_ADDR_LO (b : RegBank) (n : Nat) : Nat := b.fld (0x1000 + 4 * n) 31 12
/-- `QP_CQBLn.ADDR_LO` -/
def qpCqbl_ADDR_LO (b : RegBank) (n : Nat) : Nat := b.fld (0x1100 + 4 * n) 31 12
/-- `QP_SQBHn.ADDR_HI` -/
def qpSqbh_ADDR_HI (b : RegBank) (n : Nat) : Nat := b.fld (0x1080 + 4 * n) 31 0
/-- `QP_CQBHn.ADDR_HI` -/
def qpCqbh_ADDR_HI (b : RegBank) (n : Nat) : Nat := b.fld (0x1180 + 4 * n) 31 0
/-- `QP_CFGn.ENABLE` -/
def qpCfg_ENABLE (b : RegBank) (n : Nat) : Bool := decide (b.fld (0x1200 + 4 * n) 0 0 = 1)
/-- `QP_CFGn.CLASS` -/
def qpCfg_CLASS (b : RegBank) (n : Nat) : Nat := b.fld (0x1200 + 4 * n) 4 1
/-- `QP_CFGn.SQ_LOG` -/
def qpCfg_SQ_LOG (b : RegBank) (n : Nat) : Nat := b.fld (0x1200 + 4 * n) 9 5
/-- `QP_CFGn.CQ_LOG` -/
def qpCfg_CQ_LOG (b : RegBank) (n : Nat) : Nat := b.fld (0x1200 + 4 * n) 14 10
/-- `QP_CFGn.VECTOR` -/
def qpCfg_VECTOR (b : RegBank) (n : Nat) : Nat := b.fld (0x1200 + 4 * n) 20 15
/-- `QP_CFGn.IRQ_GAP` -/
def qpCfg_IRQ_GAP (b : RegBank) (n : Nat) : Nat := b.fld (0x1200 + 4 * n) 31 21
/-- `QP_LIMn.BUDGET` -/
def qpLim_BUDGET (b : RegBank) (n : Nat) : Nat := b.fld (0x1280 + 4 * n) 15 0
/-- `QP_LIMn.FLUSH` -/
def qpLim_FLUSH (b : RegBank) (n : Nat) : Nat := b.fld (0x1280 + 4 * n) 27 16
/-- `NET_CFGn.EN` -/
def netCfg_EN (b : RegBank) (n : Nat) : Bool := decide (b.fld (0x0B00 + 4 * n) 0 0 = 1)
/-- `NET_CFGn.ADD` -/
def netCfg_ADD (b : RegBank) (n : Nat) : Bool := decide (b.fld (0x0B00 + 4 * n) 1 1 = 1)
/-- `NET_CFGn.SPEED` -/
def netCfg_SPEED (b : RegBank) (n : Nat) : Bool := decide (b.fld (0x0B00 + 4 * n) 2 2 = 1)
/-- `NET_CFGn.PREFIX` -/
def netCfg_PREFIX (b : RegBank) (n : Nat) : Nat := b.fld (0x0B00 + 4 * n) 7 3
/-- `NET_CFGn.VLAN` -/
def netCfg_VLAN (b : RegBank) (n : Nat) : Nat := b.fld (0x0B00 + 4 * n) 19 8
/-- `NET_CFGn.PCP` -/
def netCfg_PCP (b : RegBank) (n : Nat) : Nat := b.fld (0x0B00 + 4 * n) 22 20
/-- `NET_GW0.ADDR` -/
def netGw0_ADDR (b : RegBank) : Nat := b.fld (0x0B20) 31 0
/-- `PLANT_DST.ADDR` -/
def plantDst_ADDR (b : RegBank) : Nat := b.fld (0x0B24) 31 0
/-- `PLANT_SRC.ADDR` -/
def plantSrc_ADDR (b : RegBank) : Nat := b.fld (0x0B28) 31 0
/-- `PLANT_ID.IDENT` -/
def plantId_IDENT (b : RegBank) : Nat := b.fld (0x0B2C) 31 0
/-- `PRP_CFG.LIFE` -/
def prpCfg_LIFE (b : RegBank) : Nat := b.fld (0x0B30) 6 0
/-- `PRP_CFG.DUP_MS` -/
def prpCfg_DUP_MS (b : RegBank) : Nat := b.fld (0x0B30) 14 7
/-- `PLANT_CFG.UDP` -/
def plantCfg_UDP (b : RegBank) : Nat := b.fld (0x0B34) 15 0
/-- `PLANT_CFG.PATH` -/
def plantCfg_PATH (b : RegBank) : Nat := b.fld (0x0B34) 17 16
/-- `PLANT_CFG.DISP` -/
def plantCfg_DISP (b : RegBank) : Bool := decide (b.fld (0x0B34) 18 18 = 1)
/-- `PLANT_CFG.EVT` -/
def plantCfg_EVT (b : RegBank) : Bool := decide (b.fld (0x0B34) 19 19 = 1)
/-- `PLANT_CFG.SEV` -/
def plantCfg_SEV (b : RegBank) : Nat := b.fld (0x0B34) 22 20
/-- `CAN_CFGn.EN` -/
def canCfg_EN (b : RegBank) (n : Nat) : Bool := decide (b.fld (0x0B60 + 4 * n) 0 0 = 1)
/-- `CAN_CFGn.FD` -/
def canCfg_FD (b : RegBank) (n : Nat) : Bool := decide (b.fld (0x0B60 + 4 * n) 1 1 = 1)
/-- `CAN_CFGn.TERM` -/
def canCfg_TERM (b : RegBank) (n : Nat) : Bool := decide (b.fld (0x0B60 + 4 * n) 2 2 = 1)
/-- `CAN_CFGn.NRATE` -/
def canCfg_NRATE (b : RegBank) (n : Nat) : Nat := b.fld (0x0B60 + 4 * n) 5 3
/-- `CAN_CFGn.DRATE` -/
def canCfg_DRATE (b : RegBank) (n : Nat) : Nat := b.fld (0x0B60 + 4 * n) 8 6
/-- `CAN_CFGn.ANNOUNCE` -/
def canCfg_ANNOUNCE (b : RegBank) (n : Nat) : Bool := decide (b.fld (0x0B60 + 4 * n) 9 9 = 1)
/-- `CAN_CFGn.PROTO` -/
def canCfg_PROTO (b : RegBank) (n : Nat) : Bool := decide (b.fld (0x0B60 + 4 * n) 10 10 = 1)
/-- `SB_CFGn.EN` -/
def sbCfg_EN (b : RegBank) (n : Nat) : Bool := decide (b.fld (0x0BA0 + 4 * n) 0 0 = 1)
/-- `SB_CFGn.TERM` -/
def sbCfg_TERM (b : RegBank) (n : Nat) : Bool := decide (b.fld (0x0BA0 + 4 * n) 1 1 = 1)
/-- `SB_CFGn.BAUD` -/
def sbCfg_BAUD (b : RegBank) (n : Nat) : Nat := b.fld (0x0BA0 + 4 * n) 4 2
/-- `SB_CFGn.PARITY` -/
def sbCfg_PARITY (b : RegBank) (n : Nat) : Nat := b.fld (0x0BA0 + 4 * n) 6 5
/-- `SB_CFGn.RESP` -/
def sbCfg_RESP (b : RegBank) (n : Nat) : Nat := b.fld (0x0BA0 + 4 * n) 14 7
/-- `SB_CFGn.RETRY` -/
def sbCfg_RETRY (b : RegBank) (n : Nat) : Nat := b.fld (0x0BA0 + 4 * n) 18 15
/-- `PAIR_CFG.LINK_MS` -/
def pairCfg_LINK_MS (b : RegBank) : Nat := b.fld (0x0C00) 4 0
/-- `PAIR_CFG.WITNESS` -/
def pairCfg_WITNESS (b : RegBank) : Bool := decide (b.fld (0x0C00) 5 5 = 1)
/-- `PAIR_CFG.CATCH_S` -/
def pairCfg_CATCH_S (b : RegBank) : Nat := b.fld (0x0C00) 11 6
/-- `PAIR_CFG.STA_RX` -/
def pairCfg_STA_RX (b : RegBank) : Nat := b.fld (0x0C00) 17 12
/-- `REC_CFG.FREEZE_S` -/
def recCfg_FREEZE_S (b : RegBank) : Nat := b.fld (0x0C10) 9 0
end Fld

end Sys2Proof.Machine
end

