-- ==== Sys2Proof/Machine/Operands.lean ====
section
/-! DEFINITION. Operand forms: bytes and numbers, event times, check values, and the parts of a descriptor's arguments. -/
namespace Sys2Proof.Machine

/-! ### Bytes (00 R12: little-endian) -/

/-- Byte i of a list; 0 where the list does not give it. -/
def byteAt (l : List Byte) (i : Nat) : Nat := (l.getD i 0).toNat

/-- The k bytes from i as a little-endian number. -/
def leAt (l : List Byte) (i : Nat) : Nat → Nat
  | 0 => 0
  | k + 1 => byteAt l i + 256 * leAt l (i + 1) k

/-- The k bytes from i as a big-endian number. -/
def beAt (l : List Byte) (i : Nat) : Nat → Nat
  | 0 => 0
  | k + 1 => byteAt l i * 256 ^ k + beAt l (i + 1) k

/-- A number of w bits read as two's complement. -/
def signedOf (w v : Nat) : Int := if v % 2 ^ w < 2 ^ (w - 1) then ((v % 2 ^ w : Nat) : Int) else ((v % 2 ^ w : Nat) : Int) - 2 ^ w

/-- The k bytes from i, signed. -/
def sleAt (l : List Byte) (i k : Nat) : Int := signedOf (8 * k) (leAt l i k)

/-- k bytes of a number, little-endian. -/
def toLe (v : Nat) : Nat → List Byte
  | 0 => []
  | k + 1 => BitVec.ofNat 8 v :: toLe (v / 256) k

/-- Bytes of fields of given sizes, each little-endian and cut to its size. -/
def packBytes (l : List (Nat × Int)) : List Byte := l.flatMap (fun f => toLe (f.2 % 2 ^ (8 * f.1)).toNat f.1)

/-- Every one of the k bytes from i is 0. -/
def zerosAt (l : List Byte) (i k : Nat) : Bool := (List.range k).all (fun j => byteAt l (i + j) == 0)

/-! ### Time (03 R64, R65) -/

/-- An event time from system nanoseconds: seconds mod 2^34 at [63:30], nanoseconds at [29:0]. -/
def eventOf (sysNs : Nat) : Nat := (sysNs / 1000000000 % 2 ^ 34) * 2 ^ 30 + sysNs % 1000000000

/-- The nanoseconds field of an event time is valid (R65). -/
def eventValid (t : Nat) : Bool := decide (t % 2 ^ 30 < 1000000000)

/-- System nanoseconds of an event time. -/
def nsOfEvent (t : Nat) : Nat := (t / 2 ^ 30) * 1000000000 + t % 2 ^ 30

/-! ### Check values (04 R93) -/

/-- One byte of a reflected CRC-32C (Castagnoli). -/
def crcBits : Nat → Nat → Nat
  | 0, c => c
  | k + 1, c => crcBits k (if c % 2 = 1 then Nat.xor (c / 2) 0x82F63B78 else c / 2)

/-- CRC-32C of bytes from a running value. -/
def crcBytes (c : Nat) : List Byte → Nat
  | [] => c
  | b :: l => crcBytes (crcBits 8 (Nat.xor c b.toNat)) l

/-- CRC-32C, initial value all ones, final inversion. -/
def crc32c (l : List Byte) : Nat := Nat.xor (crcBytes 0xFFFFFFFF l) 0xFFFFFFFF

/-- CRC-32C from a seed (R93). -/
def crcSeeded (seed : Nat) (l : List Byte) : Nat := Nat.xor (crcBytes seed l) 0xFFFFFFFF

/-- Bytes closed by the CRC-32C over them. -/
def sealed (l : List Byte) : List Byte := l ++ toLe (crc32c l) 4

/-- k bits of an unreflected CRC of w bits with a polynomial. -/
def crcUp (w poly : Nat) : Nat → Nat → Nat
  | 0, c => c
  | k + 1, c => crcUp w poly k (if 2 ^ (w - 1) ≤ c then Nat.xor (c * 2 % 2 ^ w) poly else c * 2)

/-- CRC-16, polynomial 0x1021, initial value 0xFFFF (04 R91). -/
def crc16 (l : List Byte) : Nat := l.foldl (fun c b => crcUp 16 0x1021 8 (Nat.xor c (b.toNat * 256))) 0xFFFF

/-- CRC-8, polynomial 0x2F, from an initial value (04 R98). -/
def crc8 (init : Nat) (l : List Byte) : Nat := l.foldl (fun c b => crcUp 8 0x2F 8 (Nat.xor c b.toNat)) init

/-- The n bytes from i. -/
def slice (l : List Byte) (i n : Nat) : List Byte := (l.drop i).take n

/-- Field i of 12 bits, counted from bit 0 of byte o (04 Table 4.5). -/
def bits12 (l : List Byte) (o i : Nat) : Nat := leAt l (o + 12 * i / 8) 2 / 2 ^ (12 * i % 8) % 4096

/-! ### Lists -/

/-- The list with element i changed. -/
def modAt {α : Type} (l : List α) (i : Nat) (f : α → α) : List α := match l, i with
  | [], _ => []
  | a :: l', 0 => f a :: l'
  | a :: l', i + 1 => a :: modAt l' i f

/-- Sums. -/
def sumN : List Nat → Nat
  | [] => 0
  | a :: l => a + sumN l

def sumI : List Int → Int
  | [] => 0
  | a :: l => a + sumI l

/-- Largest and smallest of a list; none of an empty one. -/
def maxI (l : List Int) : Option Int := l.foldl (fun m x => match m with | some a => some (if a < x then x else a) | none => some x) none
def minI (l : List Int) : Option Int := l.foldl (fun m x => match m with | some a => some (if x < a then x else a) | none => some x) none

/-- A list in rising order. -/
def insertI (x : Int) : List Int → List Int
  | [] => [x]
  | y :: l => if x ≤ y then x :: y :: l else y :: insertI x l

def sortI (l : List Int) : List Int := l.foldl (fun m x => insertI x m) []

/-- Twice the median of a list. -/
def median2 (l : List Int) : Int :=
  let m := sortI l
  m.getD ((l.length - 1) / 2) 0 + m.getD (l.length / 2) 0

/-- Changes element i only, with a list of n lists. -/
def mapIdxL {α β : Type} (f : Nat → α → β) (l : List α) : List β :=
  ((List.range l.length).zip l).map (fun p => f p.1 p.2)

/-- Saturating addition. -/
def satAdd (a b top : Nat) : Nat := if a + b ≤ top then a + b else top

/-- An Int held between two bounds. -/
def clampI (lo hi x : Int) : Int := if x < lo then lo else if hi < x then hi else x

/-- A Nat held between two bounds. -/
def clampN (lo hi x : Nat) : Nat := if x < lo then lo else if hi < x then hi else x

/-- An Int held in w bits, signed and unsigned. -/
def satS (w : Nat) (x : Int) : Int := clampI (-(2 ^ (w - 1))) (2 ^ (w - 1) - 1) x
def satU (w : Nat) (x : Int) : Int := clampI 0 (2 ^ w - 1) x

/-- The magnitude of an Int as a Nat. -/
def mag (x : Int) : Nat := x.natAbs

end Sys2Proof.Machine

namespace Sys2Proof

/-! ### Descriptors (14 Table 14.3) -/

/-- The fields of a descriptor. -/
def RawDesc.desc (r : RawDesc) : Desc where
  cmdId := BitVec.ofNat 16 (Machine.leAt r.bytes 0 2)
  opcode := r.bytes.getD 2 0
  flags := r.bytes.getD 3 0
  reserved := ([4, 5, 6, 7, 56, 57, 58, 59, 60, 61, 62, 63] : List Nat).find? (fun i => decide (r.bytes.getD i 0 ≠ 0))
  dataAddr := Machine.leAt r.bytes 8 8
  dataLen := Machine.leAt r.bytes 16 4
  respLen := Machine.leAt r.bytes 20 4
  respAddr := Machine.leAt r.bytes 24 8
  arg := Machine.slice r.bytes 32 24
  data := r.data
  dmaOk := r.dmaOk
  sigOk := r.sigOk

def Desc.argByte (d : Desc) (i : Nat) : Nat := Machine.byteAt d.arg i
def Desc.argLe (d : Desc) (i k : Nat) : Nat := Machine.leAt d.arg i k
def Desc.signed (d : Desc) : Bool := decide (d.flags.toNat % 2 = 1)
def Desc.noIrq (d : Desc) : Bool := decide (d.flags.toNat / 2 % 2 = 1)

/-- Where the signature trailer starts in the data. -/
def Desc.trailer (d : Desc) : Nat := d.dataLen - 96

/-- The data less any trailer. -/
def Desc.body (d : Desc) : List Byte := d.data.take (if d.signed then d.dataLen - 96 else d.dataLen)

/-- The command a descriptor carries. -/
def Desc.cmd (d : Desc) : Cmd := ⟨d.opcode, d.arg.take 24, d.body⟩

end Sys2Proof
end

