-- ==== Sys2Proof/Machine/Ops.lean ====
section
/-! DEFINITION. The operations that many commands share: time, events, outputs, configuration, the pair, a stage trip,
the safe state, a withdrawal, an engine fault. -/
namespace Sys2Proof.Machine

abbrev Result := Host.Outcome State Fault Refusal

/-! ### Time (03 R62, R64) -/

/-- The fine counter's whole nanoseconds. -/
def State.now (s : State) : Nat := (s.time.fine >>> 32).toNat

/-- System time in nanoseconds: the fine counter plus the step offset. -/
def State.sysNs (s : State) : Nat := ((s.now : Int) + s.time.stepOffset).toNat

/-- The fine counter has reached an instant: it moves there, and never back. -/
def State.advance (s : State) (ns : Nat) : State :=
  if s.now < ns then { s with time := { s.time with fine := BitVec.ofNat 96 (ns * 2 ^ 32) } } else s

/-- One tick of the time base: the counter adds the increment (R62). -/
def State.tick (s : State) : State :=
  { s with time := { s.time with fine := s.time.fine + s.time.increment.setWidth 96 } }

/-- The next instant after t that is a whole multiple of p. -/
def nextMultiple (t p : Nat) : Nat := (t / p + 1) * p

/-- The first whole multiple of p at or after t. -/
def atOrAfter (t p : Nat) : Nat := (t + p - 1) / p * p

/-- The next instant of a periodic work: the first whole multiple of its period that is not past and not the last one. Works: 0 thermal
round, 1 die sample, 2 telemetry window, 3 cycle boundary, 4 safety tick, 5 canary round, 6 slack history record, 7 minute report, 8 hour
report. -/
def State.periodic (s : State) (i p : Nat) : State :=
  let t := max (atOrAfter s.now p) (s.time.ticks.getD i 0 + p)
  let u := s.advance t
  { u with time := { u.time with ticks := u.time.ticks.set i t } }

/-! ### Parts -/

def State.onMeas (s : State) (f : Meas → Meas) : State := { s with meas := f s.meas }
def State.onEst (s : State) (f : Est → Est) : State := { s with est := f s.est }
def State.onImp (s : State) (f : Imp → Imp) : State := s.onEst (fun e => { e with imp := f e.imp })
def State.onGate (s : State) (f : Gate → Gate) : State := { s with gate := f s.gate }
def State.onLoop (s : State) (f : Loop → Loop) : State := { s with loop := f s.loop }
def State.onTherm (s : State) (f : Therm → Therm) : State := { s with therm := f s.therm }
def State.onDisp (s : State) (f : Disp → Disp) : State := { s with disp := f s.disp }
def State.onSafety (s : State) (f : Safety → Safety) : State := { s with safety := f s.safety }
def State.onTwin (s : State) (f : Twin → Twin) : State := { s with twin := f s.twin }
def State.onLife (s : State) (f : Life → Life) : State := { s with life := f s.life }
def State.onSetup (s : State) (f : Setup → Setup) : State := { s with setup := f s.setup }
def State.onFabric (s : State) (f : Fabric → Fabric) : State := { s with fabric := f s.fabric }
def State.onHost (s : State) (f : HostPort → HostPort) : State := { s with host := f s.host }
def State.onRing (s : State) (f : Ring → Ring) : State := { s with ring := f s.ring }

/-! ### Free values -/

/-- A fresh index for a free value, and the state with it used up. -/
def State.draw (s : State) : State := { s with free := s.free + 1 }

/-! ### Events and outputs -/

/-- The module records an event: it is detected, with its event time and arguments (17 R440). -/
def State.raiseAt (s : State) (sysNs : Nat) (e : EvDef) (args : List Int) : State :=
  { s with rec_ := { s.rec_ with detected := s.rec_.detected ++ [⟨eventOf sysNs, e.code, e.sev, args⟩] } }

def State.raise (s : State) (e : EvDef) (args : List Int) : State := s.raiseAt s.sysNs e args

/-- Something leaves the module. -/
def State.emit (s : State) (o : Out) : State := { s with out := o :: s.out }

def State.emitAll (s : State) (os : List Out) : State := os.foldl State.emit s

/-! ### Configuration -/

/-- The active registers. -/
abbrev State.cfg (s : State) : RegBank := s.setup.active

/-- Function class of the identity (Table 1.2); before service, of the one that has been formed last (R36). -/
def State.cls (s : State) : Nat := match s.life.phase with
  | .service => bitsOf s.chain.identity 1 0
  | _ => bitsOf (s.chain.identityNext.getD s.chain.identity) 1 0

/-- The module is in the pair configuration. -/
def State.isPair (s : State) : Bool := decide (s.cls = 1 ∨ s.cls = 2)
def State.isSenior (s : State) : Bool := decide (s.cls = 1)
def State.isJunior (s : State) : Bool := decide (s.cls = 2)
def State.isJoined (s : State) : Bool := decide (s.twin.st = .joined)
def State.isAlone (s : State) : Bool := decide (s.twin.st = .alone)
def State.isSolo (s : State) : Bool := decide (s.twin.st = .solo ∨ s.twin.st = .comparing)
def State.inService (s : State) : Bool := decide (s.life.phase = .service)

/-- The plan permits a profile; in the pair both plans must, as the twins exchanged them last (02 R51, R56). -/
def State.permits (s : State) (p : Nat) : Bool :=
  if s.isJoined then
    (s.twin.planOwn.getD s.fabric.plan.permitted).getD p false
      && (match s.twin.planPeer with | some x => x.1.getD p false | none => true)
  else s.fabric.plan.permitted.getD p false

/-- The profiles that are permitted now. -/
def State.permittedNow (s : State) : List Bool := (List.range 3).map s.permits

/-- Acts as a module in the single configuration does (16 R505). -/
def State.actsSingle (s : State) : Bool := !s.isPair || s.isAlone

/-- Its transmitters and outputs are its own to use: it is not withdrawn. -/
def State.sending (s : State) : Bool := s.inService && !s.twin.txOff

/-- It computes in service: with its outputs released, or as a twin that catches up and holds the partner's state (16 R429). -/
def State.computes (s : State) : Bool := s.inService && (!s.twin.txOff || decide (s.twin.st = .catching))

/-- Gate links in use. -/
def State.links (s : State) : Nat := Fld.glCfg_LINKS s.cfg

/-- The base period in force and its number (08 R208). -/
def State.fsw (s : State) : Nat := Fld.glCfg_FSW s.cfg

/-- Start of base period k (its full number) with n periods in a grid interval: nearest 0.5 ns, ties up. -/
def baseStart (n k : Nat) : Nat := k / n * 500000 + (2 * (k % n) * 500000 + n) / (2 * n)

/-- The first base period that starts at or after x. -/
def firstFrom (n x : Nat) : Nat :=
  let k := x * n / 500000
  if x ≤ baseStart n k then k else k + 1

/-- Number of the base period that an instant in ns lies in. -/
def seqAt (fsw ns : Nat) : Word := BitVec.ofNat 32 (firstFrom fsw (2 * ns + 1) - 1)

/-! ### Status codes (14 Table 14.8, 17 Table 17.11, 18 Table 18.14) -/
namespace St
def ok : Nat := 0
def opcode : Nat := 0x0101
def fieldRange : Nat := 0x0102
def lengthInvalid : Nat := 0x0103
def bufferShort : Nat := 0x0104
def addressAlign : Nat := 0x0105
def doorbellRange : Nat := 0x0106
def dmaError : Nat := 0x0107
def noCredit : Nat := 0x0108
def queueDisabled : Nat := 0x0109
def queueEnabled : Nat := 0x010A
def noRecord : Nat := 0x010B
def authRequired : Nat := 0x0201
def authRole : Nat := 0x0202
def authStale : Nat := 0x0203
def authInvalid : Nat := 0x0204
def mapInvalid : Nat := 0x0301
def profileConflict : Nat := 0x0302
def resourceClaimed : Nat := 0x0303
def bankActive : Nat := 0x0304
def safetyLive : Nat := 0x0305
def safetyCheck : Nat := 0x0306
def nvmBarred : Nat := 0x0307
def addressState : Nat := 0x0308
def timeSourceChanged : Nat := 0x0401
def timeState : Nat := 0x0402
def stageTripped : Nat := 0x0501
def stageNotReady : Nat := 0x0502
def stageRunning : Nat := 0x0503
def dispatchSource : Nat := 0x0504
def modeMismatch : Nat := 0x0505
def setpointStale : Nat := 0x0506
def contactorState : Nat := 0x0507
def safetyState : Nat := 0x0508
def impBusy : Nat := 0x0601
def impStageOff : Nat := 0x0602
def diagBusy : Nat := 0x0603
def diagState : Nat := 0x0604
def thermalState : Nat := 0x0605
def ledgerGone : Nat := 0x0606
def admissionRefused : Nat := 0x0701
def imageInvalid : Nat := 0x0702
def progState : Nat := 0x0703
def symbolUnknown : Nat := 0x0704
def forceTableFull : Nat := 0x0705
def recGone : Nat := 0x0801
def recClearStale : Nat := 0x0802
def clearRegisterFull : Nat := 0x0803
def recNotFrozen : Nat := 0x0804
def fwImageInvalid : Nat := 0x0901
def fwSignature : Nat := 0x0902
def fwHardware : Nat := 0x0903
def fwLevel : Nat := 0x0904
def fwState : Nat := 0x0905
def fwPartner : Nat := 0x0906
def fwNotStaged : Nat := 0x0907
def keySlot : Nat := 0x0908
def siteInvalid : Nat := 0x0909
end St

/-! ### The pair links (16 R417) -/

/-- Bytes of a safety frame with CHECK (Table 12.5). -/
def SafetyPdu.bytes (p : SafetyPdu) : List Byte :=
  let head : List (Nat × Int) := [(1, ((p.type + 16 * p.lenw : Nat) : Int)),
    (1, ((p.epoch.toNat + 16 * bit p.solo + 32 * bit p.safe : Nat) : Int)), (2, ((p.seq.toNat : Nat) : Int)), (8, p.time),
    (4, ((p.ident.toNat : Nat) : Int))]
  let l := packBytes (head ++ p.data.map (fun w => (4, (w.toNat : Int))))
  l ++ toLe (crcSeeded p.ident.toNat l) 4

/-- TYPE of a frame (Table 16.2). -/
def PairFrame.type (f : PairFrame) : Nat := match f with
  | .slots .. => 1
  | .status .. => 2
  | .inputs .. => 3
  | .command .. => 4
  | .time .. => 5
  | .safety .. => 6
  | .digest .. => 7
  | .notice .. => 8
  | .catchup .. => 9
  | .heart => 10

/-- The body of a frame whose layout is given. -/
def PairFrame.body (f : PairFrame) : Option (List Byte) := match f with
  | .safety p => some p.bytes
  | .notice kind cause e => some (packBytes [(1, kind), (1, cause), (8, e)])
  | .heart => some []
  | _ => none

/-- FLAGS of the header (Table 16.1). -/
def State.pairFlags (s : State) (f : PairFrame) : Nat :=
  let leaves := match f with | .notice 1 _ _ | .notice 5 _ _ => true | _ => false
  bit (s.inService && !s.twin.txOff) + 2 * bit s.isSolo + 4 * bit s.time.leader + 8 * bit (leaves || s.twin.txOff)
    + 16 * bit (decide (s.twin.st = .catching))

/-- A frame as it leaves on a link with a PSEQ. -/
def State.pairOut (s : State) (link : Nat) (f : PairFrame) : Out := match f.body with
  | some b =>
    let l := packBytes [(1, f.type), (1, s.pairFlags f), (2, b.length), (4, (s.twin.pseq.toNat : Int)), (8, s.now)] ++ b
    .pairBytes link (l ++ toLe (crcSeeded s.chain.identity.toNat l) 4)
  | none => .pair link f.type (s.pairFlags f) s.twin.pseq s.now f

/-- A frame that is sent on both pair links with one PSEQ. -/
def State.pairSend (s : State) (f : PairFrame) : State :=
  if s.isPair then
    { s with twin := { s.twin with pseq := s.twin.pseq + 1 }
             out := s.pairOut 1 f :: s.pairOut 0 f :: s.out }
  else s

/-- A frame with a good CHECK arrives on a pair link: the link is in service (R418). -/
def State.linkHeard (s : State) (link : Nat) : State :=
  s.onTwin (fun x => { x with lastFrame := x.lastFrame.set link (some s.now), linkUp := x.linkUp.set link true })

/-- A frame that is sent on one link at a time (TIME, CATCHUP). -/
def State.pairSendOn (s : State) (link : Nat) (f : PairFrame) : State :=
  if s.isPair then
    { s with twin := { s.twin with pseq := s.twin.pseq + 1 }
             out := s.pairOut link f :: s.out }
  else s

/-! ### Plant ports (15) -/

/-- A port's IPv4 address (15 R390), EP0 and EP1 under index 0: none is 0. -/
def State.netAddr (s : State) (ep : Nat) : Nat :=
  let n := if ep ≤ 1 then 0 else ep
  let base := (s.cfg.get (Reg.netIp0 + 4 * n)).toNat
  if base = 0 ∨ Fld.netCfg_EN s.cfg n = false then 0
  else if Fld.netCfg_ADD s.cfg n then (if s.chain.addr = 0 then 0 else base + s.chain.addr) else base

/-- The port that PLANT_CFG.PATH selects. -/
def State.plantEp (s : State) : Nat := match Fld.plantCfg_PATH s.cfg with
  | 0 => 0
  | 1 => 2
  | _ => 3

/-- Place of a type's MSEQ. -/
def mseqIdx (type : Nat) : Nat := if type = 3 then 0 else if type = 0x10 then 1 else if type = 0x11 then 2 else if type = 0x12 then 3 else 4

/-- The datagram of a plant message (Tables 15.2, 15.3): the header with CHECK, then the body. -/
def State.plantBytes (s : State) (later type : Nat) (m : Word) (body : List Byte) : List Byte :=
  let head := packBytes [(1, 1), (1, type), (2, body.length), (4, s.chain.identity.toNat), (4, m.toNat), (8, eventOf (s.sysNs + later)),
    (1, (bit s.isSolo : Nat)), (7, 0)]
  head ++ toLe (crc32c (head ++ body)) 4 ++ body

/-- A frame on EP0 and EP1 carries the redundancy control trailer with the next number (15 R391). -/
def State.prpTrailer (s : State) (ep : Nat) : State :=
  if ep ≤ 1 then { s with plant := { s.plant with prpSeq := s.plant.prpSeq + 1 }, out := .prp s.plant.prpSeq :: s.out } else s

/-- A plant message is sent to an address (R393, R395), while there is a destination and the port has an address. `later` ns from now is
its release. -/
def State.plantSendAt (s : State) (later ep dst type : Nat) (body : List Byte) : State :=
  if s.sending && decide (Fld.plantDst_ADDR s.cfg ≠ 0 ∧ s.netAddr ep ≠ 0) then
    let m := s.plant.mseq.getD (mseqIdx type) 0
    { s with
      plant := { s.plant with mseq := s.plant.mseq.set (mseqIdx type) (m + 1) }
      out := .plant ep dst (s.plantBytes later type m body) :: s.out }.prpTrailer ep
  else s

def State.plantSendFrom (s : State) (ep type : Nat) (body : List Byte) : State := s.plantSendAt 0 ep (Fld.plantDst_ADDR s.cfg) type body

def State.plantSend (s : State) (type : Nat) (body : List Byte) : State := s.plantSendFrom s.plantEp type body

/-- A frame is put into express buffer i of a CAN port (15 R402, R403): it replaces the one that waits there; a replaced
acknowledgement is counted. -/
def State.express (s : State) (p i ident : Nat) (data : List Byte) : State :=
  if s.sending && Fld.canCfg_EN s.cfg p then
    { s with plant := { s.plant with can := modAt s.plant.can p (fun x =>
        let old := x.express.getD i none
        { x with
          express := x.express.set i (some ⟨ident, data, s.now, old.map (fun z => z.data)⟩)
          lost := if i = 1 && old.isSome then satAdd x.lost 1 7 else x.lost }) } }
  else s

/-- The identifier of a module-protocol frame (15 R398): priority, type, and the low half of an identity. -/
def protoIdent (pri type : Nat) (ident : Word) : Nat := pri * 2 ^ 26 + type * 2 ^ 20 + 0xA0000 + ident.toNat % 65536

/-- The port that carries the module protocol. -/
def State.protoPort (s : State) : Option Nat := (List.range 6).find? (fun p => Fld.canCfg_PROTO s.cfg p && Fld.canCfg_EN s.cfg p)

/-- A list of bytes padded with zeros to a length. -/
def padTo (n : Nat) (l : List Byte) : List Byte := l ++ List.replicate (n - l.length) 0

/-- A frame arrives on an Ethernet port: one beyond 20,000 in a whole second is dropped and counted (15 R389). -/
def EthPort.arrive (x : EthPort) (sec : Nat) : EthPort :=
  if x.sec = sec then { x with rx := x.rx + 1, drops := if 20000 ≤ x.rx then satAdd x.drops 1 65535 else x.drops }
  else { x with sec := sec, rx := 1 }

def State.ethPort (s : State) (ep : Nat) : EthPort := s.plant.eth.getD ep EthPort.reset
def State.onEth (s : State) (ep : Nat) (f : EthPort → EthPort) : State :=
  { s with plant := { s.plant with eth := modAt s.plant.eth ep f } }

/-- A frame that arrives within the port's rate has its effect. -/
def State.ethIn (s : State) (ep : Nat) (f : State → State) : State :=
  let sec := s.now / 1000000000
  let x := s.ethPort ep
  let t := s.onEth ep (fun y => y.arrive sec)
  if x.sec = sec ∧ 20000 ≤ x.rx then t else f t

/-- A drop is counted in DROPS. -/
def State.ethDrop (s : State) (ep : Nat) : State := s.onEth ep (fun x => { x with drops := satAdd x.drops 1 65535 })

/-- A register is read at its own offset: what it answers, and what the read does. -/
def State.readReg (s : State) (offset : Nat) (value : Word) (f : State → State) : State := f (s.emit (.read offset value))

/-! ### Stations (04 R98) -/

def State.station (s : State) (k : Nat) : Station := s.ring.stations.getD k Station.reset

def State.onStation (s : State) (k : Nat) (f : Station → Station) : State :=
  { s with ring := { s.ring with stations := modAt s.ring.stations k f } }

/-- A command waits for its turn: a BAL_SET replaces one that waits, and the commanded state is kept (R99). -/
def Station.command (x : Station) (op arg : Nat) : Station :=
  { x with
    queue := (if op = 1 then x.queue.filter (fun c => decide (c.op ≠ 1)) else x.queue) ++ [⟨op, arg⟩]
    bal := if op = 1 then arg else x.bal
    ow := if op = 2 then arg else x.ow
    plan := if op = 3 then (if arg / 2 ^ 30 = 0 then some arg else if arg / 2 ^ 30 = 2 then none else x.plan) else x.plan }

/-- A command that goes ahead of those that wait, so that the next grid instant issues it. -/
def Station.commandFirst (x : Station) (op arg : Nat) : Station :=
  let y := { x with queue := x.queue.filter (fun c => decide (c.op ≠ op)) }.command op arg
  { y with queue := ⟨op, arg⟩ :: y.queue.filter (fun c => decide (c.op ≠ op)) }

def State.command (s : State) (k op arg : Nat) : State := s.onStation k (fun x => x.command op arg)

/-- BAL_SET with mask 0 to every cell station at the next grid instant (05 R139, 12 R320). -/
def State.balancingOff (s : State) : State :=
  { s with
    ring := { s.ring with stations := mapIdxL (fun k (x : Station) => if k < 32 && x.present then x.commandFirst 1 0 else x) s.ring.stations }
    meas := { s.meas with cells := s.meas.cells.map (fun c => { c with on := false }) } }

/-- LOCKIN_SET to every station that is present (06 R170). -/
def State.lockin (s : State) (arg : Nat) : State :=
  s.onRing (fun r => { r with stations := r.stations.map (fun x => if x.present then x.command 3 arg else x) })

/-! ### Impedance runs (06 R173, R174) -/

/-- The run ends: its spectra are to be sent. -/
def Imp.finish (i : Imp) (abandoned : Bool) : Imp :=
  { i with
    phase := .idle
    done := i.done ++ [⟨abandoned, i.run, i.kind, i.tA, i.minPeak, i.segPeaks, i.segsDone, i.runSum, i.runN, i.soc0, i.tsSum, i.tsN, i.opens⟩] }

/-- An impedance run is abandoned with a cause of EV_IMP_RUN_ABANDONED: e(t) ends, the stations receive a cancel. -/
def State.abandonRun (s : State) (cause : Nat) : State :=
  match s.est.imp.phase with
  | .idle => s
  | p =>
    let t := s.raise Ev.impRunAbandoned [s.est.imp.run.toNat, s.est.imp.seg, cause]
    let u := match p with | .waiting => t | _ => if s.est.imp.armDue then t else t.lockin 0x80000000
    u.onImp (fun i => { i.finish true with lastOk := false, armDue := false })

/-! ### Cycle engines (13) -/

def State.onProg (s : State) (f : Prog → Prog) : State := { s with prog := f s.prog }
def State.eng (s : State) (e : Nat) : CycEng := s.prog.engines.getD e CycEng.reset
def State.onEng (s : State) (e : Nat) (f : CycEng → CycEng) : State :=
  s.onProg (fun p => { p with engines := modAt p.engines e f })

/-- The active image, and an engine's section of it. -/
def State.image (s : State) : Option Gelfoel := (s.prog.banks.getD s.prog.active ⟨0, none, none⟩).image
def State.section_ (s : State) (e : Nat) : Option Section := s.image.bind (fun g => g.secs.getD e none)

/-! ### Causes of the error task (R348, Table 13.6) -/

/-- A cause for an engine; one without an error task discards it. -/
def State.addCause (s : State) (e code arg : Nat) : State :=
  match s.section_ e with
  | some c => if c.err.isSome then s.onEng e (fun x => { x with
      nCauses := satAdd x.nCauses 1 255, causes := (x.causes ++ [(code, arg)]).take 16 }) else s
  | none => s

def State.causeAll (s : State) (code arg : Nat) : State := (List.range 8).foldl (fun u e => u.addCause e code arg) s

/-! ### The stage (08 R221) -/

/-- Bytes [5:0] of a frame on a gate link (Table 8.3). -/
def State.gateHead (s : State) (type ph : Nat) (restart : Bool) (link : Nat) (seq : Word) : List Byte :=
  packBytes [(1, ((type + 16 * ph + 32 * bit s.isSolo + 64 * bit restart + 128 * bit s.time.leader : Nat) : Int)),
    (1, ((s.cls + 4 * link : Nat) : Int)), (4, (seq.toNat : Int))]

/-- A frame on a gate link closed by its CHECK. -/
def gateSeal (link : Nat) (seq : Word) (l : List Byte) : List Byte :=
  l ++ toLe (crcSeeded (link * 2 ^ 24 + seq.toNat % 2 ^ 24) l) 4

/-- The STOP frame of a link, and the ARM frame. -/
def State.stopFrame (s : State) (link : Nat) : List Byte :=
  gateSeal link (seqAt s.fsw s.now) (s.gateHead 2 0 false link (seqAt s.fsw s.now))

def State.armFrame (s : State) (clear : Bool) (link : Nat) : List Byte :=
  gateSeal link (seqAt s.fsw s.now) (s.gateHead 3 0 false link (seqAt s.fsw s.now) ++ packBytes [(1, (bit clear : Nat)), (1, 0)])

/-- STOP on every link in service. -/
def State.sendStop (s : State) : State :=
  { s with
    gate := { s.gate with receivers := s.gate.receivers.map (fun r => { r with ownStop := true, armSent := false }) }
    out := ((List.range s.links).map (fun l => Out.gate l (s.stopFrame l))).reverse ++ s.out }

/-- A last-fault record at a trip (08 Table 8.12): its header and the samples of the 256 base periods before. -/
def State.faultHeader (s : State) (cls link phase switch : Nat) : FaultRec :=
  let old := match (s.gate.captures.filter (fun c => decide (c.record.cls = cls))).getLast? with
    | some c => some c.record
    | none => s.gate.slots.getD cls none
  { time := eventOf s.sysNs
    count := match old with | some r => satAdd r.count 1 0xFFFFFFFF | none => 1
    cls := cls, link := link, phase := phase, switch := switch
    profile := s.fabric.profile
    solo := s.isSolo
    lost := 0
    seq := seqAt s.fsw s.now
    period := (1000000 + s.fsw) / (2 * s.fsw)
    data := List.replicate (64 * (256 - s.gate.ring.length)) 0 ++ s.gate.ring.reverse.flatten }

/-- A stage trip (R221): STOP on every link, TRIPPED, the event; further trips are recorded too and the first class is kept
(Table 8.9). A stage that is OFF has no trip. Link, phase and switch are 255 where none. -/
def State.stageTrip (s : State) (cls link phase switch : Nat) : State :=
  match s.gate.stage with
  | .off => s
  | x =>
    let first := decide (x ≠ .tripped)
    let t := (s.raise Ev.stageTrip [cls, link, phase, switch]).sendStop
    let u := if first then t.abandonRun 0 else t
    { u with gate := { u.gate with
        stage := .tripped, since := if first then s.now else u.gate.since, lastTrip := if first then some cls else u.gate.lastTrip
        trip7 := decide (cls = 7) || (!first && u.gate.trip7), tripAt := s.now
        trips := satAdd u.gate.trips 1 255, clearing := false, modeOff := false, stopSent := false, armAt := none
        captures := u.gate.captures ++ [⟨s.faultHeader cls link phase switch, false⟩] } }

/-! ### The safe state (12 R320) -/

/-- Both switches of every output off, test pulses ended (R317). -/
def State.outsOff (s : State) : State :=
  { s with safety := { s.safety with
      outs := s.safety.outs.map (fun o => { o with hi := false, lo := false, testing := none, cmdAt := s.now })
      contactor := .open_ } }

/-- An engine opens its switches (R297): SE-A the high sides and channel 1 of the loops, SE-B the low sides and channel 2. `engines`
bit 0 SE-A, bit 1 SE-B. -/
def State.openSwitches (s : State) (engines : Nat) : State :=
  let a := engines % 2 == 1
  let b := engines / 2 % 2 == 1
  { s with safety := { s.safety with
      outs := s.safety.outs.map (fun o => { o with hi := o.hi && !a, lo := o.lo && !b, testing := none, cmdAt := s.now })
      contactor := .open_
      loopSw1 := if a then [false, false] else s.safety.loopSw1
      loopSw2 := if b then [false, false] else s.safety.loopSw2 } }

/-- Loop switches open. -/
def State.loopsOpen (s : State) : State :=
  { s with safety := { s.safety with loopSw1 := [false, false], loopSw2 := [false, false] } }

/-- Word 0 of the safety frame: bit f while a demand of function f is present in either engine (Table 12.5). -/
def Safety.word0 (x : Safety) : Word :=
  BitVec.ofNat 32 (((List.range 14).map (fun f =>
    if x.engA.demand.getD f false || x.engB.demand.getD f false then 2 ^ f else 0)).foldl (· + ·) 0)

/-- Word 1: output switches by readback, and the first cause. -/
def Safety.word1 (x : Safety) : Word :=
  BitVec.ofNat 32 (((List.range 4).map (fun o =>
      let w := x.outs.getD o SafeOut.reset
      bit w.hiRead * 2 ^ (2 * o) + bit w.loRead * 2 ^ (2 * o + 1))).foldl (· + ·) 0
    + (if x.safe then x.cause else 0) * 256)

/-- The module's present safety frame. -/
def State.safetyPdu (s : State) : SafetyPdu :=
  { type := 1, lenw := 2, resv := false, epoch := s.safety.sfEpoch, solo := s.isSolo, safe := s.safety.safe
    seq := s.safety.sfSeq, time := eventOf s.sysNs, ident := s.chain.identity
    data := [s.safety.word0, s.safety.word1] }

/-- A STATUS safety frame is sent on the pair links, EP0 and EP1, and SF_CAN (R326): only while addressed and in service,
and by no withdrawn twin. -/
def State.sendSafetyFrame (s : State) : State :=
  if s.sending && decide (s.chain.addr ≠ 0) then
    let p := s.safetyPdu
    let t := (s.pairSend (.safety p)).plantSendFrom 0 0x20 p.bytes
    let u := if Fld.safeCfg_SF_CAN_EN s.cfg then
        t.express (Fld.safeCfg_SF_CAN s.cfg) 0 (protoIdent 0 1 p.ident) (padTo 48 p.bytes) else t
    { u with safety := { u.safety with
        sfSeq := u.safety.sfSeq + 1, sfLastAt := u.now, sfWord0 := u.safety.word0, sfSafe := u.safety.safe } }
  else s

/-- What EV_SAFE_STATE names: the function, the engines (bit 0 SE-A, bit 1 SE-B), the object and its number, its value. -/
structure Demand where
  fn      : Nat
  engines : Nat
  object  : Nat
  number  : Nat
  value   : Int
  deriving DecidableEq, Repr

/-- A confirmed demand (R320, R297): the event; and unless the safe state is in force, the switches of the engines that confirmed it
off (each opens one of the two in series; the other engine follows over the cross-link), balancing off, the class 7 trip, the cause
kept, and a safety frame at once. -/
def State.safeState (s : State) (d : Demand) : State :=
  let t := s.raise Ev.safeState [d.fn, d.engines, d.object, d.number, d.value]
  if s.safety.safe then t else
    let u := (((t.openSwitches d.engines).balancingOff).stageTrip 7 255 255 255).abandonRun 0
    { u with safety := { u.safety with safe := true, cause := d.fn, enteredAt := s.now, resetDue := none } }.sendSafetyFrame

/-- The safe state for an internal fault, function 13, ending only through a restart where `keep` (Table 12.2, R322); `by_`: the safety
engines that take it. -/
def State.internalFaultBy (s : State) (by_ engine : Nat) (keep : Bool) : State :=
  let t := { s with safety := { s.safety with
      needStart := s.safety.needStart || keep
      engA := { s.safety.engA with demand := s.safety.engA.demand.set 13 true }
      engB := { s.safety.engB with demand := s.safety.engB.demand.set 13 true } } }
  t.safeState ⟨13, by_, 8, engine, 0⟩

def State.internalFault (s : State) (engine : Nat) (keep : Bool) : State := s.internalFaultBy 3 engine keep

/-! ### Withdrawal (16 R425 to R427) -/

def day : Nat := 86400000000000

/-- Withdrawals of the last 24 h that R427 counts. -/
def countedWithdrawals (h : List (Nat × Nat)) : Nat := (h.filter (fun e => decide (e.2 ≠ 10))).length

/-- FP and DIO pins released. -/
def State.releasePins (s : State) : State :=
  s.emitAll ((List.range 8).map (fun p => Out.fan p none) ++ (List.range 16).map (fun p => Out.dio p none))

/-- A cooling output drives its pin, unless the twin is withdrawn or the output is a peer's (10 R273, R276). -/
def State.driveFan (s : State) (n : Nat) : State :=
  if Fld.coolCfg_DEST s.cfg n || s.twin.txOff then s
  else s.emit (.fan n (some ((s.therm.coolers.getD n Cooler.reset).duty, Fld.coolCfg_PWMF s.cfg n)))

/-- The pins that the module drives, from the instant at which it drives them again (16 R430). -/
def State.drivePins (s : State) : State :=
  let t := (List.range 8).foldl State.driveFan s
  (List.range 16).foldl (fun u p => match u.prog.dioOut.getD p none with | some v => u.emit (.dio p (some v)) | none => u) t

/-- No CAN frame is pending any longer: the transceivers go to standby (15 R403, R407). -/
def State.cancelCan (s : State) : State :=
  { s with plant := { s.plant with
      can := s.plant.can.map (fun x => { x with express := x.express.map (fun _ => none) })
      objs := s.plant.objs.map (fun o => { o with tx := none, last := none }) } }

/-- A twin withdraws with a cause of Table 16.5 (R425): notice, transmitters dark, pins released, outputs off, loop
bridges closed; it restarts once they read closed (LOOP_BRIDGE_CLOSED). The third counted withdrawal in 24 h retires it
(R427); `stay` keeps it withdrawn as well (02 R61). A twin already withdrawn stays as it is. -/
def State.withdraw (s : State) (cause : Nat) (stay : Bool) : State :=
  match s.twin.st with
  | .withdrawn | .retired | .catching => s
  | _ =>
    let hist := (s.now, cause) :: s.twin.history.filter (fun e => decide (s.now < e.1 + day))
    let retire := stay || (decide (cause ≠ 10) && decide (3 ≤ countedWithdrawals hist))
    let t := (s.pairSend (.notice 1 cause 0)).raise Ev.twinWithdraw [cause]
    let u := t.releasePins.outsOff.cancelCan
    let v := { u with
      twin := { u.twin with
        st := if retire then .retired else .withdrawn
        cause := cause, history := hist, txOff := true, bridging := true, catchUp := none, joinDue := false
        becomeAlone := none }
      time := { u.time with leader := false }
      safety := { u.safety with bridges := true } }
    if retire && decide (3 ≤ countedWithdrawals hist) then
      (v.raise Ev.twinRetired [cause]).pairSend (.notice 5 cause 0)
    else if retire then v.pairSend (.notice 5 cause 0) else v

/-- A cause of Table 16.5: in the pair the twin withdraws; a module that acts as a single one does as `single` says
(R423, R505). -/
def State.selfDiagnosis (s : State) (cause : Nat) (single : State → State) : State :=
  if s.actsSingle then single s else s.withdraw cause false

/-! ### Non-volatile writes (10 R278) -/

/-- New MRAM and flash writes wait: the die has left 105 °C to −35 °C. -/
def State.nvmBarred (s : State) : Bool := s.therm.die.barred

/-- The records that the slack history keeps (02 R44). -/
def slackSlots : Nat := 16384

/-- Slack history records that wait are written, unless writes are barred (02 R44). -/
def State.writeHistory (s : State) : State :=
  if s.nvmBarred then s
  else { s with fabric := { s.fabric with
    history := (s.fabric.history ++ s.fabric.historyWaits).drop (s.fabric.history.length + s.fabric.historyWaits.length - slackSlots)
    historyWaits := [] } }

/-- AC0/AC1 are reloading (02 Table 2.11). -/
def State.ac01Reloading (s : State) : Bool := ((s.fabric.engines.getD 0 Engine.reset).reloading)

/-- AC2/AC3 are reloading (02 Table 2.11). -/
def State.ac23Reloading (s : State) : Bool := ((s.fabric.engines.getD 2 Engine.reset).reloading)

end Sys2Proof.Machine
end

