-- ==== Sys2Proof/Machine/HostOps.lean ====
section
/-! DEFINITION. The host interface (14): the checks of a descriptor, authorisation, completions and credits, streams,
Both and Forwarded commands. -/
namespace Sys2Proof.Machine

/-! ### Queues -/

def State.queue (s : State) (q : Nat) : Queue := s.host.queues.getD q Queue.reset

def State.setQueue (s : State) (q : Nat) (f : Queue → Queue) : State :=
  { s with host := { s.host with queues := modAt s.host.queues q f } }

def State.qClass (s : State) (q : Nat) : Nat := Fld.qpCfg_CLASS s.cfg q
def State.sqEntries (s : State) (q : Nat) : Nat := 2 ^ Fld.qpCfg_SQ_LOG s.cfg q
def State.cqEntries (s : State) (q : Nat) : Nat := 2 ^ Fld.qpCfg_CQ_LOG s.cfg q

/-- B of R380: the smaller of BUDGET and the submission ring's entry count less one. -/
def State.budget (s : State) (q : Nat) : Nat := min (Fld.qpLim_BUDGET s.cfg q) (s.sqEntries q - 1)

/-- g of R380. -/
def grantOf (b g r : Nat) : Nat := min 255 (b - (g - r))

/-- The queue takes part in work: enabled or draining, and its link stands. -/
def Queue.live (x : Queue) : Bool := x.running || x.draining

/-! ### What an opcode uses (14 Table 14.6, Table 17.5, Table 18.5, Table 13.12) -/

/-- The ARG bytes an opcode uses, given ARG byte [0]. -/
def argUsed (op a0 i : Nat) : Bool :=
  if op = 0x01 then i == 0
  else if op = 0x02 then decide (i ≤ 1)
  else if op = 0x10 then true
  else if op = 0x11 ∨ op = 0x12 ∨ op = 0x14 then i == 0
  else if op = 0x20 then i == 0 || (decide (a0 = 1 ∨ a0 = 2) && decide (8 ≤ i ∧ i ≤ 15)) || (decide (a0 = 3) && decide (16 ≤ i ∧ i ≤ 23))
  else if op = 0x22 then i == 0 || decide (8 ≤ i ∧ i ≤ 15)
  else if op = 0x32 ∨ op = 0x33 then decide (i ≤ 1)
  else if op = 0x34 then decide (i ≤ 3)
  else if op = 0x40 then decide (i ≤ 1)
  else if op = 0x41 then decide (i ≤ 15)
  else if op = 0x50 then
    i == 0
    || (decide (a0 = 3 ∨ a0 = 4) && decide (i = 1)) || (decide (a0 = 3) && decide (i = 2))
    || (decide (a0 = 5 ∨ a0 = 6 ∨ a0 = 7) && decide (i = 1)) || (decide (a0 = 5) && decide (i = 3 ∨ (4 ≤ i ∧ i ≤ 7)))
    || (decide (a0 = 8) && decide (8 ≤ i ∧ i ≤ 11)) || (decide (a0 = 9) && decide (i = 2))
    || (decide (a0 = 10) && decide (i = 14)) || (decide (a0 = 11) && decide (12 ≤ i ∧ i ≤ 14))
  else if op = 0x60 then i == 0 || (decide (a0 = 1) && decide (4 ≤ i ∧ i ≤ 11)) || (decide (a0 = 4) && decide (4 ≤ i ∧ i ≤ 7))
  else if op = 0x70 then i == 0
  else if op = 0x81 ∨ op = 0x82 then decide (i ≤ 8)
  else false

/-- The opcode has data of its own, apart from a trailer. -/
def dataUsed (op a0 : Nat) : Bool :=
  decide (op = 0x01 ∨ op = 0x40 ∨ op = 0x81 ∨ op = 0x82)
  || (decide (op = 0x50) && decide (a0 = 8 ∨ a0 = 9 ∨ a0 = 10 ∨ a0 = 11))
  || (decide (op = 0x70) && decide (a0 = 1 ∨ a0 = 4))

/-- The opcode has a response. -/
def respUsed (op a0 : Nat) : Bool :=
  decide (op = 0x02 ∨ op = 0x21 ∨ op = 0x31 ∨ op = 0x32 ∨ op = 0x34 ∨ op = 0x80)
  || (decide (op = 0x50) && decide (a0 = 10)) || (decide (op = 0x60) && decide (a0 = 1 ∨ a0 = 5 ∨ a0 = 6))

/-- Opcodes of Table 14.6. -/
def commandOpcode (op : Nat) : Bool :=
  [0x01, 0x02, 0x10, 0x11, 0x12, 0x13, 0x14, 0x20, 0x21, 0x22, 0x30, 0x31, 0x32, 0x33, 0x34, 0x40, 0x41, 0x50, 0x60, 0x70].contains op

/-- The descriptors a class accepts (Table 14.2). -/
def classAccepts (cls op : Nat) : Bool :=
  if cls = 0 then commandOpcode op
  else if cls = 6 then op == 0x81
  else if cls = 7 then op == 0x82
  else op == 0x80

/-- The role an opcode's row names (Table 14.6; 13 Table 13.12: the signed program operations are 1 to 9). -/
def roleOf (op a0 : Nat) : Option Nat :=
  if op = 0x01 ∧ a0 = 3 then some 6
  else if op = 0x20 then some 4
  else if op = 0x22 then some 5
  else if op = 0x50 ∧ 1 ≤ a0 ∧ a0 ≤ 9 then some 3
  else if op = 0x60 ∧ a0 = 4 then some 1
  else if op = 0x70 ∧ a0 = 4 then some 6
  else if op = 0x70 then some 2
  else none

/-! ### Checks 1 to 6 of R377 -/

/-- Check 3: the descriptor byte of the first failing field. -/
def descBadByte (d : Desc) : Option Nat :=
  let op := d.opcode.toNat
  let a0 := d.argByte 0
  let usesData := dataUsed op a0 || (d.signed && decide (op ≠ 0x80))
  let bad : List Nat :=
    (if d.cmdId = 0xFFFF then [0] else [])
    ++ (if d.flags.toNat / 4 ≠ 0 then [3] else [])
    ++ (match d.reserved with | some b => if b < 8 then [b] else [] | none => [])
    ++ (if !usesData && decide (d.dataAddr ≠ 0) then [8] else [])
    ++ (if !usesData && decide (d.dataLen ≠ 0) then [16] else [])
    ++ (if !respUsed op a0 && decide (d.respLen ≠ 0) then [20] else [])
    ++ (if !respUsed op a0 && decide (d.respAddr ≠ 0) then [24] else [])
    ++ ((List.range 24).filter (fun i => !argUsed op a0 i && decide (d.argByte i ≠ 0))).map (fun i => 32 + i)
    ++ (match d.reserved with | some b => if b < 8 then [] else [b] | none => [])
  bad.head?

/-- A length in use that is 0 or above 16 MiB (check 4), and an address in use that is no multiple of 8 (check 5). -/
def descUsesData (d : Desc) : Bool := dataUsed d.opcode.toNat (d.argByte 0) || d.signed
def descUsesResp (d : Desc) : Bool := respUsed d.opcode.toNat (d.argByte 0)
def lengthBad (n : Nat) : Bool := decide (n = 0 ∨ 16777216 < n)

/-- Checks 1 to 6, in order: the first failing status and its detail. -/
def preCheck (cls : Nat) (credit : Bool) (d : Desc) : Option (Nat × Nat) :=
  if !credit then some (St.noCredit, 0)
  else if !classAccepts cls d.opcode.toNat then some (St.opcode, 0)
  else match descBadByte d with
    | some b => some (St.fieldRange, b)
    | none =>
      if (descUsesData d && lengthBad d.dataLen) || (descUsesResp d && lengthBad d.respLen) then some (St.lengthInvalid, 0)
      else if (descUsesData d && decide (d.dataAddr % 8 ≠ 0)) || (descUsesResp d && decide (d.respAddr % 8 ≠ 0)) then
        some (St.addressAlign, 0)
      else if descUsesData d && !d.dmaOk then some (St.dmaError, 0)
      else none

/-! ### Completions, credits, interrupts (R379, R380, R386) -/

/-- A queue raises its vector, at most once per IRQ_GAP. -/
def State.raiseIrq (s : State) (q : Nat) : State :=
  if s.now < (s.queue q).irqAfter then s.setQueue q (fun x => { x with irqDue := true })
  else (s.emit (.irq (Fld.qpCfg_VECTOR s.cfg q))).setQueue q
    (fun x => { x with irqAfter := s.now + Fld.qpCfg_IRQ_GAP s.cfg q * 1000, irqDue := false })

/-- The 32 bytes of a completion (Table 14.4). -/
def Completion.bytes (c : Completion) : List Byte :=
  packBytes [(8, c.time), (4, c.resultLen), (4, c.detail), (2, c.cmdId.toNat), (2, c.sqHead), (2, c.status), (1, c.grant), (1, c.flags),
    (7, 0), (1, (bit c.phase : Nat))]

/-- A completion is written into the completion ring: its entry, the phase, the tail. -/
def State.writeCompletion (s : State) (q : Nat) (c : Completion) (irq : Bool) : State :=
  let x := s.queue q
  let n := s.cqEntries q
  let t := (s.emit (.completion q x.cqTail { c with phase := x.phase }.bytes)).setQueue q (fun y =>
    { y with cqTail := (x.cqTail + 1) % n, cqUsed := x.cqUsed + 1
             phase := if x.cqTail + 1 = n then !x.phase else x.phase })
  if irq then t.raiseIrq q else t

/-- The completion ring has an entry that CQ_HEAD has released (R375). -/
def State.cqRoom (s : State) (q : Nat) : Bool := decide ((s.queue q).cqUsed < s.cqEntries q)

/-- A completion is written: it returns its descriptor's credit and grants g (R380). -/
def State.writeWait (s : State) (q : Nat) (w : CqWait) : State :=
  let x := s.queue q
  let r := if w.credit then x.r + 1 else x.r
  let g := if w.credit then grantOf (s.budget q) x.g r else w.completion.grant
  let t := s.setQueue q (fun y => { y with r := r, g := if w.credit then x.g + g else y.g })
  t.writeCompletion q { w.completion with time := eventOf s.sysNs, grant := g } w.irq

/-- A completion is written where the ring has room, and else waits behind those that wait. -/
def State.putCompletion (s : State) (q : Nat) (w : CqWait) : State :=
  if (s.queue q).cqWait.isEmpty && s.cqRoom q then s.writeWait q w
  else s.setQueue q (fun y => { y with cqWait := y.cqWait ++ [w] })

/-- Completions that wait are written while the ring has room. -/
def State.flushCq (s : State) (q : Nat) : Nat → State
  | 0 => s
  | k + 1 => match (s.queue q).cqWait with
    | [] => s
    | w :: l => if s.cqRoom q then State.flushCq ((s.setQueue q (fun y => { y with cqWait := l })).writeWait q w) q k else s

/-- The descriptor at place i of those in the module completes. -/
def State.complete (s : State) (q i : Nat) (status detail resultLen flags : Nat) : State :=
  let x := s.queue q
  match x.inMod[i]? with
  | none => s
  | some h =>
    let n := s.sqEntries q
    let head := (x.sqHead + n - (x.inMod.length - 1 - i) % n) % n
    let c : Completion :=
      { time := 0, resultLen := resultLen, detail := detail, cmdId := h.desc.cmdId, sqHead := head
        status := status, grant := 0, flags := flags, phase := false }
    let t := s.setQueue q (fun y => { y with inMod := y.inMod.eraseIdx i })
    let u := t.putCompletion q ⟨c, h.credit, !h.desc.noIrq⟩
    u.setQueue q (fun y => { y with draining := y.draining && !(y.inMod.isEmpty && y.cqWait.isEmpty) })

/-- A completion with CMD_ID 0xFFFF (R375, R380). -/
def State.bareCompletion (s : State) (q status detail grant : Nat) : State :=
  s.putCompletion q ⟨
    { time := 0, resultLen := 0, detail := detail, cmdId := 0xFFFF, sqHead := (s.queue q).sqHead, status := status
      grant := grant, flags := 0, phase := false }, false, true⟩

/-- A queue stops with a cause. -/
def State.stopQueue (s : State) (q cause : Nat) : State :=
  (s.setQueue q (fun x => { x with stopped := true, cause := cause })).raise Ev.queueStopped [q, cause]

/-! ### Fetching (R375, R380) -/

/-- One announced descriptor is fetched, consuming a credit if one is unspent. -/
def Queue.fetch1 (entries : Nat) (x : Queue) : Queue :=
  match x.ring with
  | [] => x
  | d :: rest =>
    let credit := decide (x.c < x.g)
    { x with ring := rest, sqHead := (x.sqHead + 1) % entries, c := if credit then x.c + 1 else x.c
             inMod := x.inMod ++ [⟨d, credit, 0, none, false⟩] }

/-- A queue fetches what is announced, as far as its completion ring has room. -/
def State.fetch (s : State) (q : Nat) : State :=
  let x := s.queue q
  if x.running && !x.stopped then
    let room := s.cqEntries q - x.cqUsed - x.inMod.length - x.cqWait.length
    s.setQueue q (fun y => (List.range (min room y.ring.length)).foldl (fun z _ => Queue.fetch1 (s.sqEntries q) z) y)
  else s

/-- The class a descriptor is judged by: in ROM recovery the firmware load queue accepts INSTALL too (18 R470). -/
def State.classFor (s : State) (q : Nat) (d : Desc) : Nat :=
  if s.life.phase = .recovery ∧ s.qClass q = 7 ∧ d.opcode = 0x70 ∧ d.argByte 0 = 1 then 0 else s.qClass q

/-- The first descriptor that now fails checks 1 to 6: in a command queue only the one whose turn it is (R376). -/
def State.failing (s : State) (q : Nat) : Option (Nat × Nat × Nat) :=
  let x := s.queue q
  let cand := if s.qClass q = 0 then x.inMod.take 1 else x.inMod
  let tagged := (List.range cand.length).filterMap (fun i => match cand[i]? with
    | some h => (preCheck (s.classFor q h.desc) h.credit h.desc).map (fun p => (i, p.1, p.2))
    | none => none)
  tagged.head?

/-- Descriptors that fail checks 1 to 6 complete with the first failing status; an unreadable one stops the queue. -/
def State.pump (s : State) (q : Nat) : Nat → State
  | 0 => s
  | k + 1 => match s.failing q with
    | none => s
    | some (i, status, detail) =>
      let t := s.complete q i status detail 0 0
      State.pump (if status = St.dmaError then t.stopQueue q 2 else t) q k

def State.fetchAndPump (s : State) (q : Nat) : State :=
  let t := s.fetch q
  t.pump q (t.queue q).inMod.length

/-! ### Authorisation (R387) -/

/-- The identity a trailer must target: the own one with bits [1:0] cleared, the senior's for a junior. -/
def State.target (s : State) : Nat :=
  let base := s.chain.identity.toNat / 4 * 4
  if s.isJunior then base - 4 else base

/-- The four checks in order; what passes stores the nonce, what fails records EV_AUTH_REFUSED. Without a trailer there is no slot: the
event's slot is a free value then. `role` is the role the row names, if any. -/
def State.authorise (s : State) (d : Desc) (role : Option Nat) : State × Option (Nat × Nat) :=
  let t := d.trailer
  let slot := byteAt d.data t
  let key := s.host.keys.getD slot ⟨0, 0, 0, 0, 0⟩
  let refuse (st det : Nat) : State × Option (Nat × Nat) :=
    (s.raise Ev.authRefused [slot, d.opcode.toNat, st], some (st, det))
  let notAfter := leAt d.data (t + 8) 8
  let nonce := leAt d.data (t + 16) 8
  if role.isNone && !d.signed then (s, none)
  else if !d.signed || decide (d.dataLen < 96) then
    ((s.draw).raise Ev.authRefused [(Sys2Proof.Config.freeValue s.free).toNat % 256, d.opcode.toNat, St.authRequired],
      some (St.authRequired, 0))
  else if decide (16 ≤ slot) || decide (key.st ≠ 1) || decide (key.role ≠ byteAt d.data (t + 1))
      || (match role with | some r => decide (byteAt d.data (t + 1) ≠ r) | none => false) then refuse St.authRole 0
  else if !d.sigOk || decide (leAt d.data (t + 4) 4 ≠ if d.opcode = 0x22 then 0 else s.target)
      || !zerosAt d.data (t + 2) 2 || !zerosAt d.data (t + 24) 8 then refuse St.authInvalid 0
  else if !eventValid notAfter then refuse St.fieldRange (0x80000000 + t + 8)
  else if decide (nsOfEvent notAfter < s.sysNs) || decide (s.sysNs + 86400000000000 < nsOfEvent notAfter)
      || decide (nonce ≤ key.nonce) then refuse St.authStale 0
  else ({ s with host := { s.host with keys := modAt s.host.keys slot (fun k => { k with nonce := nonce }) } }, none)

/-! ### Executing a command's row -/

/-- What a command's own checks answer: a refusal with its status and detail, or acceptance with the response's length
and fields, whether it awaits the twin, and the state it leads to. -/
inductive Verdict where
  | refuse (status detail : Nat)
  /-- a refusal that leaves a mark of its own -/
  | refuseAs (status detail : Nat) (next : State)
  | accept (need : Nat) (awaiting : Bool) (resp : List Byte) (next : State)
  /-- a read that may answer less than the length it requires: both lengths -/
  | acceptRead (need len : Nat) (resp : List Byte) (next : State)

/-- The role asked for now: the first key set is written unsigned (in guard mode only, which KEYS judges), and INSTALL in ROM recovery needs role 2 only while the
store holds an active key of it (18 R470, R472). -/
def State.roleFor (s : State) (op a0 : Nat) : Option Nat :=
  if op = 0x70 ∧ a0 = 4 ∧ s.host.keys.all (fun k => decide (k.st = 0)) = true then none
  else if op = 0x70 ∧ a0 = 1 ∧ s.life.phase = .recovery ∧ s.host.keys.any (fun k => decide (k.st = 1 ∧ k.role = 2)) = false then none
  else roleOf op a0

/-- Steps 7 to 9 of R377 for the descriptor at the head of queue q, and its completion. -/
def State.runHead (s : State) (q : Nat) (role : Option Nat) (own : State → Desc → Verdict) : State :=
  match (s.queue q).inMod with
  | [] => s
  | h :: _ =>
    match s.authorise h.desc role with
    | (t, some (st, det)) => (t.complete q 0 st det 0 0).fetchAndPump q
    | (t, none) =>
      match own t h.desc with
      | .refuse st det => (t.complete q 0 st det 0 0).fetchAndPump q
      | .refuseAs st det next => (next.complete q 0 st det 0 0).fetchAndPump q
      | .accept need awaiting resp next =>
        if descUsesResp h.desc && decide (h.desc.respLen < need) then
          (t.complete q 0 St.bufferShort 0 need 0).fetchAndPump q
        else
          let u := if need = 0 then next else next.emit (.response q resp)
          (u.complete q 0 St.ok 0 need (bit awaiting)).fetchAndPump q
      | .acceptRead need len resp next =>
        if decide (h.desc.respLen < need) then (t.complete q 0 St.bufferShort 0 need 0).fetchAndPump q
        else ((next.emit (.response q resp)).complete q 0 St.ok 0 len 0).fetchAndPump q

/-- The descriptor whose turn it is in command queue q carries this opcode, with the arguments `sel` asks for. -/
def State.isHead (s : State) (q op : Nat) (sel : Desc → Bool) : Bool :=
  let x := s.queue q
  match x.inMod with
  | [] => false
  | h :: _ => x.live && decide (s.classFor q h.desc = 0) && decide (h.desc.opcode.toNat = op)
      && (preCheck 0 h.credit h.desc).isNone && sel h.desc

/-- ARG byte [0] has this value. -/
def op0 (a : Nat) : Desc → Bool := fun d => decide (d.argByte 0 = a)

/-- Any arguments. -/
def anyArg : Desc → Bool := fun _ => true

/-- How many operations ARG byte [0] of an opcode names (Tables 14.6, 13.12, 17.5, 18.5); 0: it names none. -/
def opCount (op : Nat) : Nat :=
  if op = 0x11 then 4 else if op = 0x12 then 2 else if op = 0x20 ∨ op = 0x33 then 3 else if op = 0x50 then 11
  else if op = 0x60 then 6 else if op = 0x70 then 4 else 0

/-- The operation the descriptor names is none of its opcode's; a dispatch command's KIND is in byte [12]. -/
def unknownOp (d : Desc) : Bool :=
  let op := d.opcode.toNat
  if op = 0x10 then decide (d.argByte 12 = 0 ∨ 6 < d.argByte 12)
  else decide (opCount op ≠ 0) && decide (d.argByte 0 = 0 ∨ opCount op < d.argByte 0)

/-- AC2/AC3 execute the descriptor at the head of queue q where it carries the row's opcode; one whose operation is unknown is
refused (R378); else nothing is there to execute. Host completions pause while AC2/AC3 reload (02 Table 2.11). -/
def State.hostRow (s : State) (q op : Nat) (sel : Desc → Bool) (own : State → Desc → Verdict) : State :=
  let role := match (s.queue q).inMod with | h :: _ => s.roleFor op (h.desc.argByte 0) | [] => none
  if s.ac23Reloading then s
  else if s.isHead q op sel then s.runHead q role own
  else if s.isHead q op unknownOp then
    s.runHead q role (fun _ d => .refuse St.fieldRange (if d.opcode = 0x10 then 44 else 32))
  else s

/-! ### Both and Forwarded commands (R370, 16 R421) -/

/-- When a Both command that waits was accepted in the twin that has accepted it. -/
def WaitCmd.acceptedAt (w : WaitCmd) : Nat := w.expires - 10000000000

/-- A Both command that both twins have accepted takes effect 0.5 ms after the later acceptance. -/
def State.acceptBoth2 (s : State) (w : WaitCmd) (at_ : Nat) : State :=
  { s with host := { s.host with
      waiting := s.host.waiting.erase w, accepted := s.host.accepted ++ [(max w.acceptedAt at_ + 500000, w.cmd)] } }

/-- Acceptance in this twin of a Both command: it takes effect at the next cycle boundary in a module that acts alone,
and at the first one 0.5 ms after the later acceptance in the pair; until the other twin has accepted it, it waits. -/
def State.acceptBoth (s : State) (c : Cmd) : State × Bool :=
  if s.actsSingle then ({ s with host := { s.host with accepted := s.host.accepted ++ [(s.now, c)] } }, false)
  else
    let t := s.pairSend (.command c 0 s.now)
    match s.host.waiting.find? (fun w => decide (w.cmd = c) && w.peer && !w.own) with
    | some w => (t.acceptBoth2 w s.now, false)
    | none => ({ t with host := { t.host with waiting := t.host.waiting ++ [⟨c, true, false, s.now + 10000000000⟩] } }, true)

/-- The partner's acceptance of a Both command. -/
def State.peerBoth (s : State) (c : Cmd) (at_ : Nat) : State :=
  match s.host.waiting.find? (fun w => decide (w.cmd = c) && w.own && !w.peer) with
  | some w => s.acceptBoth2 w at_
  | none => { s with host := { s.host with waiting := s.host.waiting ++ [⟨c, false, true, at_ + 10000000000⟩] } }

/-- A Forwarded command accepted here: the partner is told; in the pair both act 1 ms after the acceptance (R421). -/
def State.acceptForwarded (s : State) (c : Cmd) (source : Nat) : State :=
  let t := s.pairSend (.command c source s.now)
  { t with host := { t.host with accepted := t.host.accepted ++ [(if s.isPair && !s.isAlone then s.now + 1000000 else s.now, c)] } }

/-- A Forwarded command whose effect comes at once in a module that acts alone, and at a cycle boundary in the pair (16 R421). -/
def State.forward (s : State) (c : Cmd) (source : Nat) (act : State → State) : State :=
  if s.actsSingle then act s else s.acceptForwarded c source

/-- The first waiting command of a kind, accepted here alone, expires 10 s after its acceptance: it is dropped and the
event recorded; a partner's acceptance that was never matched is dropped with it. -/
def State.expireBoth (s : State) (sel : Cmd → Bool) (e : EvDef) (args : Cmd → List Int) : State :=
  match s.host.waiting.find? (fun w => sel w.cmd && w.own) with
  | none => { s with host := { s.host with waiting := s.host.waiting.filter (fun w => !(sel w.cmd && decide (w.expires ≤ s.now))) } }
  | some w =>
    let t := s.advance w.expires
    ({ t with host := { t.host with waiting := t.host.waiting.filter (fun v => !(decide (v.cmd = w.cmd) && decide (v.expires ≤ t.now))) } }).raise e (args w.cmd)

/-! ### Streams (R383, R384) -/

/-- The enabled queue of a class. -/
def State.classQueue (s : State) (cls : Nat) : Option Nat :=
  (List.range 32).find? (fun q => (s.queue q).running && decide (s.qClass q = cls))

def framed (len : Nat) : Nat := 8 + (len + 7) / 8 * 8

def State.backlog (s : State) (cls : Nat) : Backlog := s.host.backlogs.getD cls ⟨[], []⟩

def State.setBacklog (s : State) (cls : Nat) (f : Backlog → Backlog) : State :=
  { s with host := { s.host with backlogs := modAt s.host.backlogs cls f } }

/-- The lost-records marker of a kind (R384). -/
def markerOf (l : Lost) : StreamRec :=
  ⟨9, 16, l.first, packBytes [(8, l.first), (4, ((min l.count 0xFFFFFFFF : Nat) : Int)), (1, l.kind), (3, 0)]⟩

/-- What a class delivers next: markers of dropped records first. -/
def Backlog.next (b : Backlog) : Option StreamRec := match b.lost with
  | l :: _ => some (markerOf l)
  | [] => b.recs.head?

def Backlog.drop1 (b : Backlog) : Backlog := match b.lost with
  | _ :: r => { b with lost := r }
  | [] => { b with recs := b.recs.tail }

/-- The record is a ledger record replayed from the store (07 Table 7.7, FLAGS bit 2). -/
def StreamRec.replayed (r : StreamRec) : Bool := decide (r.kind = 7 ∧ byteAt r.body 21 / 4 % 2 = 1)

/-- A record as it stands in a stream buffer (R383): its frame, the record, zeros up to a multiple of 8 bytes. -/
def StreamRec.framedBytes (r : StreamRec) : List Byte :=
  padTo (framed r.len) (packBytes [(4, r.len), (1, r.kind), (3, 0)] ++ r.body)

/-- FLAGS of a stream buffer's completion: bit 1 replayed records, bit 2 more records waiting. -/
def Held.flags (h : Held) (more : Bool) : Nat := 2 * bit h.replay + 4 * bit more

/-- Waiting records fill the posted buffers of a queue, in order of release. -/
def State.fill (s : State) (q : Nat) : Nat → State
  | 0 => s
  | k + 1 =>
    let cls := s.qClass q
    let b := s.backlog cls
    match (s.queue q).inMod, b.next with
    | h :: _, some r =>
      let n := framed r.len
      if n ≤ h.desc.respLen - h.used then
        let t := (s.emit (.stream q r.framedBytes)).setQueue q (fun x => { x with inMod := modAt x.inMod 0 (fun y =>
          { y with
            used := y.used + n, replay := y.replay || r.replayed
            since := match y.since with | some a => some a | none => some s.now }) })
        State.fill (t.setBacklog cls Backlog.drop1) q k
      else if h.used = 0 then State.fill ((s.complete q 0 St.bufferShort 0 n 4).fetchAndPump q) q k
      else State.fill ((s.complete q 0 St.ok 0 h.used (h.flags true)).fetchAndPump q) q k
    | _, _ => s

/-- Enough rounds of `fill` for a queue: every record and every buffer taken once. -/
def State.fillAll (s : State) (q : Nat) : State :=
  s.fill q ((s.backlog (s.qClass q)).recs.length + (s.backlog (s.qClass q)).lost.length + (s.queue q).inMod.length + (s.queue q).ring.length)

/-- Bytes of a backlog, and the oldest whole records dropped while it is over 4 MiB. -/
def backlogBytes (b : Backlog) : Nat := (b.recs.map (fun r => framed r.len)).foldl (· + ·) 0

def noteLost (l : List Lost) (r : StreamRec) : List Lost := match l with
  | [] => [⟨r.kind, 1, r.time⟩]
  | x :: l' => if x.kind = r.kind then { x with count := x.count + 1 } :: l' else x :: noteLost l' r

def Backlog.trim (b : Backlog) : Nat → Backlog
  | 0 => b
  | k + 1 => match b.recs with
    | [] => b
    | r :: rest => if 4194304 < backlogBytes b then Backlog.trim ⟨rest, noteLost b.lost r⟩ k else b

/-- A record is released on a stream class: kept only while the class has an enabled queue, except those of the
ledger stream; the event and ledger streams draw on their stores and have no limit of their own (R448, 07 R196). -/
def State.release (s : State) (cls : Nat) (r : StreamRec) : State :=
  let stored := decide (cls = 2 ∨ cls = 3)
  let keep (t : State) : State := t.setBacklog cls (fun b =>
    let b' : Backlog := { b with recs := b.recs ++ [r] }
    if stored then b' else b'.trim b'.recs.length)
  match s.classQueue cls with
  | none => if cls = 3 then keep s else s
  | some q => (keep s).fillAll q

end Sys2Proof.Machine
end

