-- ==== Sys2Proof/Machine/Chain.lean ====
section
/-! DEFINITION. Commands of the address chain (01). -/
namespace Sys2Proof.Machine

/-! ### Site configuration (18 Table 18.3) -/

/-- The active site configuration block. -/
def State.siteBlock (s : State) : Option (List Byte) := (s.setup.blocksAct.find? (fun b => decide (b.1 = 3))).map (fun b => b.2)

/-- The entry of a chain address; none where KIND is 0. -/
def siteEntryIn (b : List Byte) (a : Nat) : Option SiteEntry :=
  if a = 0 ∨ 63 < a then none
  else if byteAt b (64 + 8 * (a - 1)) = 0 then none
  else some ⟨byteAt b (64 + 8 * (a - 1)), byteAt b (64 + 8 * (a - 1) + 1)⟩

def State.siteEntry (s : State) (a : Nat) : Option SiteEntry := match s.siteBlock with
  | some b => siteEntryIn b a
  | none => none

/-- The identity of an address and class (Table 1.2): SITE and BAY from the site configuration, 0 in guard mode or without one. -/
def State.identityFor (s : State) (addr cls : Nat) : Word :=
  match s.life.guard_, s.siteBlock with
  | false, some b => BitVec.ofNat 32 (leAt b 6 2 * 65536 + byteAt b 8 * 256 + addr * 4 + cls)
  | _, _ => BitVec.ofNat 32 (addr * 4 + cls)

/-- An identity of a class is formed; it takes effect at the next cycle boundary (R36). -/
def State.formClass (s : State) (cls : Nat) : State :=
  { s with chain := { s.chain with identityNext := some (s.identityFor s.chain.addr cls) } }

/-- Before service the role is that of the class (R35): a twin or a module of the single configuration. -/
def State.takeClass (s : State) (cls : Nat) : State :=
  let pair := decide (cls ≠ 0)
  let t := (s.formClass cls).onTwin (fun x => { x with st := if x.st = .retired then .retired else if pair then .withdrawn else .single })
  { t with time := { t.time with leader := !pair } }

/-- The class that the active site configuration gives an address: a module whose address matches no pair entry runs in the single
configuration (R35). -/
def State.classAt (s : State) (a : Nat) : Nat := match s.siteEntry a with
  | some e => e.kind - 1
  | none => 0

/-- The address or site configuration has changed: a new identity is formed (R36). A module in service keeps its class. -/
def State.formIdentity (s : State) : State :=
  let c := s.classAt s.chain.addr
  if s.inService || decide (c = s.cls) then s.formClass s.cls else s.takeClass c

/-- The value ACI carries (R31). -/
def Aci.value : Aci → Nat
  | .head => 1
  | .frame v => v.val + 1

/-- ACI_ADDRESS_FRAME (R31, R33, R34): 64 means chain full; another value is the module's address, taken at once unless
it is in service, when it waits for the next start. DEDUCED: an addressed module that receives 64 keeps its address, its
stored address and its stale flag (log 13); EV_CHAIN_FULL is recorded once per run of 64s (log 14). -/
def takeAci (a : Aci) (s : State) : State :=
  let v := Aci.value a
  let heard := { s with chain := { s.chain with aciLost := false, aciValue := v, head := decide (a = .head), full := decide (v = 64) } }
  if v = 64 then (if s.chain.full then heard else heard.raise Ev.chainFull [])
  else
    let t := if s.chain.stored = some v then heard
      else
        let u := { heard with chain := { heard.chain with stored := some v } }
        match s.chain.stored with
        | some old => u.raise Ev.addressChanged [old, v]
        | none => u
    if t.chain.addr = v then { t with chain := { t.chain with stale := false, assigned := false } }
    else if s.inService then t
    else { t with chain := { t.chain with addr := v, stale := false, assigned := false } }.formIdentity

def execAciAddressFrame (a : Aci) (s : State) : Result := .next (takeAci a s)

/-- ACO_SEND (R31, R32, R34): the running address plus one; in ROM recovery the latched or stored one (18 R469). An
unaddressed module sends nothing. -/
def execAcoSend (s : State) : Result :=
  let a := if s.chain.addr = 0 ∧ s.life.phase = .recovery then s.chain.stored.getD 0 else s.chain.addr
  .next (if a = 0 then s else s.emit (.aco (a + 1)))

/-- ACI_LOST (R32, R33): the address is kept, or taken from the store at power-up, and flagged stale. -/
def execAciLost (s : State) : Result :=
  .next (if s.chain.aciLost then s
    else
      let addr := if s.chain.addr = 0 ∧ !s.inService then s.chain.stored.getD 0 else s.chain.addr
      let t := { s with chain := { s.chain with
        aciLost := true, head := false, full := false, addr := addr, stale := decide (addr ≠ 0) } }
      (if addr = s.chain.addr then t else t.formIdentity).raise Ev.chainBreak [addr])

/-- ADDRESS (R33): for an unaddressed module whose ACI is lost, and this module's serial number. -/
def execAddress (q : Fin 32) (s : State) : Result :=
  .next (s.hostRow q 0x22 anyArg (fun t d =>
    let a := d.argByte 0
    if a = 0 ∨ 63 < a then .refuse St.fieldRange 32
    else if d.argLe 8 8 ≠ t.life.serial.toNat ∨ t.chain.addr ≠ 0 ∨ !t.chain.aciLost then .refuse St.addressState 0
    else .accept 0 false []
      { t with chain := { t.chain with addr := a, stored := some a, stale := true, assigned := true } }.formIdentity))

end Sys2Proof.Machine
end

