-- ==== Sys2Proof/Machine/Model.lean ====
section
/-! DEFINITION. The cell model of the estimators (06): OCV, prediction, measurement update, core temperature, bounds, blocks. -/
namespace Sys2Proof.Machine

open Sys2Proof.Config (quot)

/-! ### Square roots -/

/-- The largest whole r with r² ≤ n, below 2^(bits). -/
def rootFloor (n : Nat) : Nat → Nat → Nat
  | 0, r => r
  | b + 1, r => rootFloor n b (if (r + 2 ^ b) * (r + 2 ^ b) ≤ n then r + 2 ^ b else r)

/-- A square root in fixed point; the rounding of one that is not exact is the behaviour level's. -/
def root (v : Int) : Int :=
  let n := v.toNat
  let r := rootFloor n (n.log2 / 2 + 1) 0
  if r * r = n then r else (r + bit (Sys2Proof.Config.rootUp n) : Nat)

/-! ### Blocks (R143, Table 6.2) -/

/-- The built-in LFP block: 100 Ah. -/
def builtinModel : ModelBlock := { Sys2Proof.Config.builtinRest with cap := 1000 }

/-- The block's content; [] is the built-in one. -/
def modelOf (block : List Byte) : ModelBlock := if block = [] then builtinModel else Sys2Proof.Config.blockModel block

/-- Three OCV tables of 101 points of 0 to 500 mV·10. -/
def tablesOk (l : List (List Int)) : Bool :=
  decide (l.length = 3) && l.all (fun t => decide (t.length = 101) && t.all (fun v => decide (0 ≤ v ∧ v ≤ 50000)))

/-- Every value of a block lies in its range (Table 6.2). -/
def ModelBlock.inRange (m : ModelBlock) : Bool :=
  tablesOk m.charge && tablesOk m.discharge
  && decide (1 ≤ m.cap ∧ m.cap ≤ 6000) && [m.r0, m.rct, m.r2].all (fun r => decide (1 ≤ r ∧ r ≤ 1000000))
  && decide (100 ≤ m.tau1 ∧ m.tau1 ≤ 20000) && decide (100000 ≤ m.tau2 ∧ m.tau2 ≤ 600000000)
  && [m.b0, m.bct].all (fun b => decide (0 ≤ b ∧ b ≤ 10000)) && decide (10 ≤ m.cth ∧ m.cth ≤ 100000)
  && decide (10 ≤ m.rth ∧ m.rth ≤ 50000) && decide (1 ≤ m.qh ∧ m.qh ≤ 500) && decide (m.allow ≤ 5000)

/-- A block that a commit refuses: its check value fails, or a value lies outside its range (R143). -/
def blockBad (block : List Byte) : Bool :=
  !Sys2Proof.Config.blockCheck block || !ModelBlock.inRange (Sys2Proof.Config.blockModel block)

/-- The model a cell starts from. -/
def ModelBlock.start (b : ModelBlock) : CellModel where
  soc := Sys2Proof.Config.startSoc
  v1 := 0
  v2 := 0
  cov := Sys2Proof.Config.startCov
  h := Sys2Proof.Config.startH
  cap := 360000000 * b.cap
  capVar := Sys2Proof.Config.startCapVar
  r0 := 100 * b.r0
  rct := 100 * b.rct
  r2 := 100 * b.r2
  r0Var := Sys2Proof.Config.startR0Var
  rctVar := Sys2Proof.Config.startRctVar
  tau1 := b.tau1
  tau2 := b.tau2
  tcore := Sys2Proof.Config.startCore
  tcoreVar := Sys2Proof.Config.startCoreVar
  tspec := 25000000000
  rctRef := 0
  tref := 0

/-- A new block gives a cell its parameters; its states stay. -/
def ModelBlock.onto (b : ModelBlock) (m : CellModel) : CellModel :=
  { b.start with soc := m.soc, v1 := m.v1, v2 := m.v2, cov := m.cov, h := m.h, tcore := m.tcore, tcoreVar := m.tcoreVar }

/-! ### Temperature (R160) -/

def kelvin (t : Int) : Int := t + 273150000000

/-- r × exp(B × (1/T − 1/T_spec)). -/
def arrhenius (b r t tspec : Int) : Int :=
  quot (r * Sys2Proof.Config.expTable (quot (b * (kelvin tspec - kelvin t) * 10 ^ 18) (kelvin t * kelvin tspec))) (10 ^ 9)

def ModelBlock.r0At (b : ModelBlock) (m : CellModel) : Int := arrhenius b.b0 m.r0 m.tcore m.tspec
def ModelBlock.rctAt (b : ModelBlock) (m : CellModel) : Int := arrhenius b.bct m.rct m.tcore m.tspec

/-- One step of the core temperature: interval in ns, cell current in mA, surface temperature in 0.01 °C. -/
def ModelBlock.coreStep (b : ModelBlock) (dt : Nat) (i tsurf : Int) (m : CellModel) : CellModel :=
  let heat := i * (b.r0At m * i + 1000 * (m.v1 + m.v2))
  let flow := quot ((m.tcore - 10000000 * tsurf) * 10 ^ 9) b.rth
  { m with tcore := m.tcore + quot (dt * (heat - flow)) (b.cth * 10 ^ 15), tcoreVar := Sys2Proof.Config.coreVarGrow dt m.tcoreVar }

/-! ### Open-circuit voltage (R144) -/

/-- Linear between the tables at 0, 25 and 45 °C, the nearest outside. -/
def tempMix (t x0 x25 x45 : Int) : Int :=
  if t ≤ 0 then x0
  else if t < 25000000000 then x0 + quot ((x25 - x0) * t) 25000000000
  else if t < 45000000000 then x25 + quot ((x45 - x25) * (t - 25000000000)) 20000000000
  else x45

/-- A branch at a whole percent, nV. -/
def branchAt (tables : List (List Int)) (t : Int) (i : Nat) : Int :=
  let v (k : Nat) : Int := 100000 * (tables.getD k []).getD i 0
  tempMix t (v 0) (v 1) (v 2)

/-- The OCV at a whole percent, nV: the mean of the branches plus h × their difference ÷ 2. -/
def ModelBlock.ocvPoint (b : ModelBlock) (t h : Int) (i : Nat) : Int :=
  let c := branchAt b.charge t i
  let d := branchAt b.discharge t i
  quot ((c + d) * 10 ^ 9 + h * (c - d)) (2 * 10 ^ 9)

/-- The OCV in nV at a soc. -/
def ModelBlock.ocv (b : ModelBlock) (t h soc : Int) : Int :=
  if soc < 0 then Sys2Proof.Config.ocvBeyond soc (b.ocvPoint t h 0)
  else if 10 ^ 9 < soc then Sys2Proof.Config.ocvBeyond soc (b.ocvPoint t h 100)
  else
    let i := min 99 (soc / 10 ^ 7).toNat
    let p := b.ocvPoint t h i
    p + quot ((b.ocvPoint t h (i + 1) - p) * (soc - i * 10 ^ 7)) (10 ^ 7)

/-- Its slope, V per unit of soc, in 10^-9: the sensitivity of the terminal voltage to soc. -/
def ModelBlock.slope (b : ModelBlock) (t h soc : Int) : Int :=
  if soc < 0 ∨ 10 ^ 9 < soc then Sys2Proof.Config.slopeBeyond soc
  else
    let i := min 99 (soc / 10 ^ 7).toNat
    100 * (b.ocvPoint t h (i + 1) - b.ocvPoint t h i)

/-- The soc of an open-circuit voltage in nV on the branch h gives. -/
def ModelBlock.socOf (b : ModelBlock) (t h v : Int) : Int :=
  match (List.range 100).find? (fun i => decide (b.ocvPoint t h i ≤ v ∧ v ≤ b.ocvPoint t h (i + 1))) with
  | some i =>
    let p := b.ocvPoint t h i
    let q := b.ocvPoint t h (i + 1)
    i * 10 ^ 7 + (if p = q then 0 else quot ((v - p) * 10 ^ 7) (q - p))
  | none => Sys2Proof.Config.socBeyond v

def ModelBlock.ocvOf (b : ModelBlock) (m : CellModel) : Int := b.ocv m.tcore m.h m.soc
def ModelBlock.slopeOf (b : ModelBlock) (m : CellModel) : Int := b.slope m.tcore m.h m.soc

/-- The terminal voltage in nV at a cell current in mA (R142). -/
def ModelBlock.term (b : ModelBlock) (i : Int) (m : CellModel) : Int :=
  b.ocvOf m + quot (b.r0At m * i) 1000 + m.v1 + m.v2

/-! ### Prediction (R142, R144) -/

/-- exp(−dt / tau), tau in µs, in 10^-9. -/
def decay (dt : Nat) (tau : Int) : Int := Sys2Proof.Config.expTable (-(quot (dt * 1000000 : Nat) tau))

/-- A relaxation voltage after an interval at a current in mA through a resistance in nΩ. -/
def relax (a v r i : Int) : Int := quot (1000 * a * v + r * (10 ^ 9 - a) * i) (10 ^ 12)

/-- One prediction of soc, v1, v2 and h, with the covariance: interval in ns, cell charge in nC. -/
def ModelBlock.predict (b : ModelBlock) (dt : Nat) (dq : Int) (m : CellModel) : CellModel :=
  let i := if dt = 0 then 0 else quot (1000 * dq) dt
  let a1 := decay dt m.tau1
  let a2 := decay dt m.tau2
  let p (k : Nat) : Int := m.cov.getD k 0
  let noise (q : Int) : Int := quot (q * dt) (10 ^ 9)
  { m with
    soc := m.soc + quot (1000000 * dq) m.cap
    v1 := relax a1 m.v1 (b.rctAt m) i
    v2 := relax a2 m.v2 m.r2 i
    h := clampI (-1000000000) 1000000000 (m.h + quot (dq * 10 ^ 9) (b.qh * b.cap * 360000000))
    cov := [p 0 + noise b.qSoc, quot (a1 * p 1) (10 ^ 9), quot (a2 * p 2) (10 ^ 9), quot (a1 * a1 * p 3) (10 ^ 18) + noise b.qV1,
      quot (a1 * a2 * p 4) (10 ^ 18), quot (a2 * a2 * p 5) (10 ^ 18) + noise b.qV2] }

/-- The soc variance grows by the square of half an unobserved interval's width (mC) over cap (R147). -/
def widen (half : Int) (m : CellModel) : CellModel :=
  let d := quot (half * 10 ^ 12) m.cap
  { m with cov := m.cov.set 0 (m.cov.getD 0 0 + d * d) }

/-! ### The scalar measurement update (R145, R149, R154) -/

/-- The covariance of each state with the predicted voltage, for a sensitivity to soc in 10^-9 (to v1 and v2 it is 1). -/
def CellModel.gains (m : CellModel) (hs : Int) : List Int :=
  let p (k : Nat) : Int := m.cov.getD k 0
  [quot (hs * p 0) (10 ^ 9) + p 1 + p 2, quot (hs * p 1) (10 ^ 9) + p 3 + p 4, quot (hs * p 2) (10 ^ 9) + p 4 + p 5]

/-- The innovation's variance with a noise in µV rms. -/
def CellModel.innovVar (m : CellModel) (hs : Int) (noise : Nat) : Int :=
  let g := m.gains hs
  quot (hs * g.getD 0 0) (10 ^ 9) + g.getD 1 0 + g.getD 2 0 + 1000000 * (noise * noise : Nat)

/-- The update with an innovation in nV. -/
def CellModel.update (m : CellModel) (hs : Int) (noise : Nat) (innov : Int) : CellModel :=
  let g := m.gains hs
  let v := m.innovVar hs noise
  let p (k : Nat) : Int := m.cov.getD k 0
  let step (j : Nat) : Int := quot (g.getD j 0 * innov) v
  let less (i j : Nat) : Int := quot (g.getD i 0 * g.getD j 0) v
  { m with
    soc := m.soc + step 0, v1 := m.v1 + step 1, v2 := m.v2 + step 2
    cov := [p 0 - less 0 0, p 1 - less 0 1, p 2 - less 0 2, p 3 - less 1 1, p 4 - less 1 2, p 5 - less 2 2] }

/-- innov² ÷ innovation variance exceeds 25 (R154). -/
def CellModel.large (m : CellModel) (hs : Int) (noise : Nat) (innov : Int) : Bool := decide (25 * m.innovVar hs noise < innov * innov)

/-- A reseed from a measured voltage in nV (R154). -/
def ModelBlock.reseed (b : ModelBlock) (v : Int) (m : CellModel) : CellModel :=
  { m with soc := b.socOf m.tcore m.h v, v1 := 0, v2 := 0, cov := Sys2Proof.Config.startCov }

/-! ### Bounds (R152) -/

/-- Twice the standard deviation, in units of `u`. -/
def twoSigma (var u : Int) : Nat := (quot (root (4 * var)) u).toNat

def CellModel.bounds (m : CellModel) : CellBounds where
  soc := twoSigma (m.cov.getD 0 0) 100000
  cap := twoSigma m.capVar 36000000
  r0 := twoSigma m.r0Var 10
  rct := twoSigma m.rctVar 10
  v1 := twoSigma (m.cov.getD 3 0) 1000
  v2 := twoSigma (m.cov.getD 5 0) 1000
  tcore := twoSigma m.tcoreVar 10000000

/-- The core temperature in 0.01 °C. -/
def CellModel.core100 (m : CellModel) : Int := quot m.tcore 10000000

/-! ### Core temperature from a spectrum (R161) -/

/-- The core temperature that a fitted r_ct means through the Arrhenius relation. -/
def ModelBlock.coreFrom (b : ModelBlock) (rct : Int) (m : CellModel) : Int :=
  let l := Sys2Proof.Config.lnTable (quot (rct * 10 ^ 9) m.rctRef)
  quot (kelvin m.tref * b.bct * 10 ^ 18) (b.bct * 10 ^ 18 + l * kelvin m.tref) - 273150000000

/-- A core temperature measurement taken as a scalar update. -/
def CellModel.coreUpdate (m : CellModel) (t var : Int) : CellModel :=
  { m with
    tcore := m.tcore + quot (m.tcoreVar * (t - m.tcore)) (m.tcoreVar + var)
    tcoreVar := m.tcoreVar - quot (m.tcoreVar * m.tcoreVar) (m.tcoreVar + var) }

/-- An isothermal moment: core and surface (0.01 °C) are taken as equal, and the fitted r_ct becomes the reference. -/
def CellModel.isothermal (m : CellModel) (rct tsurf : Int) : CellModel :=
  { m with tcore := 10000000 * tsurf, tcoreVar := Sys2Proof.Config.isoVar, rctRef := rct, tref := 10000000 * tsurf }

/-! ### The excitation (R163, R166) -/

/-- The 24 tones (Table 6.8) as fractions of a hertz. -/
def toneTable : List (Nat × Nat) :=
  [(6, 60), (9, 60), (14, 60), (22, 60), (34, 60), (52, 60)]
  ++ [(13, 10), (20, 10), (31, 10), (48, 10), (74, 10), (114, 10)]
  ++ [(17, 1), (27, 1), (42, 1), (65, 1), (97, 1), (154, 1)]
  ++ [(230, 1), (370, 1), (570, 1), (870, 1), (1330, 1), (1990, 1)]

/-- The amplitude a of each tone in nA for an excitation peak in nA: the peak is 2.75 × a. -/
def toneAmp (peak : Int) : Int := quot (100 * peak) 275

/-- e(t) in nA, t in ns after t_s: the sum of the segment's six tones. -/
def excite (seg : Nat) (peak t : Int) : Int :=
  sumI ((List.range 6).map (fun i =>
    let f := toneTable.getD (6 * seg + i) (0, 1)
    quot (toneAmp peak * Sys2Proof.Config.cosTable (quot (f.1 * t) f.2 + Sys2Proof.Config.tonePhase seg i)) (10 ^ 9)))

/-! ### The envelope of one cell (11 R292) -/

/-- A cell stays within bounds at a constant current in mA for h seconds, at constant temperature: its terminal voltage and soc,
widened by the soc bound in the direction, at every whole second from now. `bounds`: V_MIN_OP, V_MAX_OP in nV, SOC_MIN, SOC_MAX in
10^-9. -/
def ModelBlock.holds (b : ModelBlock) (lo hi socLo socHi : Int) (i : Int) (h : Nat) (m : CellModel) : Bool :=
  let shift : Int := 100000 * (m.bounds.soc : Int)
  (List.range (h + 1)).all (fun k =>
    let n := if k = 0 then m else b.predict (k * 1000000000) (1000000 * k * i) m
    let v := b.term i n
    let s := if 0 ≤ i then n.soc + shift else n.soc - shift
    decide (lo ≤ v ∧ v ≤ hi ∧ socLo ≤ s ∧ s ≤ socHi))

/-- Bisection in 16 steps for the largest whole n up to a limit that `ok` admits. -/
def bisect (ok : Nat → Bool) : Nat → Nat → Nat → Nat
  | 0, lo, _ => lo
  | n + 1, lo, hi => if hi ≤ lo then lo else
    let mid := (lo + hi + 1) / 2
    if ok mid then bisect ok n mid hi else bisect ok n lo (mid - 1)

end Sys2Proof.Machine
end

