-- ==== Sys2Proof/Machine/RingOps.lean ====
section
/-! DEFINITION. The cell ring (04): the station map, frames and slots, commands and their counters, the side channel. -/
namespace Sys2Proof.Machine

/-! ### The station map (04 R115, R503, 01 R25) -/

/-- Entry of RING_MAP for a ring and position: [7] valid, [6] current station, [4:0] number. -/
def mapByte (b : RegBank) (r p : Nat) : Nat :=
  if p < 6 then bitsOf (b.get (Reg.ringMap + 4 * (2 * r + p / 4))) (8 * (p % 4) + 7) (8 * (p % 4)) else 0

/-- A map is committed: some RING_MAP register is not 0. -/
def mapCommitted (b : RegBank) : Bool := (List.range 16).any (fun i => decide (b.get (Reg.ringMap + 4 * i) ≠ 0))

/-- The station index of an entry. -/
def entryStation (e : Nat) : Option Nat := if e / 128 = 0 then none else some (if e / 64 % 2 = 1 then 32 + e % 32 else e % 32)

/-- The stations of discovery, all rings: cell stations numbered upward, then current stations, in order of ring and
position (R115). -/
def discoverMap (lines : List RingLine) : List (Nat × Nat × Nat) :=
  let places : List (Nat × Nat × Nat) := ((List.range 8).map (fun r =>
    let l := lines.getD r RingLine.reset
    let a := (l.found.getD 0 none).getD []
    let b := (l.found.getD 1 none).getD []
    let all := if l.whole then a else a ++ b.reverse
    (List.range all.length).map (fun p => (r, p, (all.getD p ⟨0, 0, 0, 0, 0⟩).kind)))).foldl (· ++ ·) []
  let cells := places.filter (fun x => decide (x.2.2 = 1))
  let curs := places.filter (fun x => decide (x.2.2 = 2))
  (mapIdxL (fun i x => (i, x.1, x.2.1)) cells).take 32 ++ (mapIdxL (fun i x => (32 + i, x.1, x.2.1)) curs).take 2

/-- The map in force: station index, ring, position. -/
def State.map (s : State) : List (Nat × Nat × Nat) :=
  if mapCommitted s.cfg then
    ((List.range 8).map (fun r => (List.range 6).filterMap (fun p =>
      (entryStation (mapByte s.cfg r p)).map (fun k => (k, r, p))))).foldl (· ++ ·) []
  else s.ring.discovered

/-- The station at a ring and position. -/
def State.stationAt (s : State) (r p : Nat) : Option Nat :=
  (s.map.find? (fun m => decide (m.2.1 = r ∧ m.2.2 = p))).map (fun m => m.1)

/-- Ring and position of a station. -/
def State.placeOf (s : State) (k : Nat) : Option (Nat × Nat) :=
  (s.map.find? (fun m => decide (m.1 = k))).map (fun m => m.2)

/-- Stations the map gives a ring. -/
def State.ringCount (s : State) (r : Nat) : Nat := (s.map.filter (fun m => decide (m.2.1 = r))).length

def State.mapped (s : State) (k : Nat) : Bool := s.map.any (fun m => decide (m.1 = k))

/-- Cell stations of the map, and the string's cell count (R503, R115). -/
def State.cellStations (s : State) : Nat := (s.map.filter (fun m => decide (m.1 < 32))).length

def State.cellCount (s : State) : Nat :=
  if mapCommitted s.cfg ∧ Fld.ringCells_CELLS s.cfg ≠ 0 then Fld.ringCells_CELLS s.cfg else 16 * s.cellStations

/-- A station's number as events give it (17 Table 17.4). -/
def stationNo (k : Nat) : Int := if k < 32 then (k : Int) else (0x40 + (k - 32) : Nat)

/-! ### Ends (00 R18, 01 R22, 04 R106, R109) -/

def endIdx : End → Nat
  | .a => 0
  | .b => 1

/-- The module's port on this end is used in its configuration. -/
def State.ownsEnd (s : State) (e : End) : Bool := !s.isPair || (s.isSenior && decide (e = .a)) || (s.isJunior && decide (e = .b))

/-- The partner sends nothing: it has withdrawn, from its notice on (R109). -/
def State.partnerDark (s : State) : Bool := s.isPair && (s.isAlone || s.twin.becomeAlone.isSome)

/-- The end that collects a whole ring. -/
def State.collectingEnd (s : State) : End := if s.isAlone && s.isJunior then .b else .a

/-- The partner's identity (01 Table 1.2): the address next to the own one, and the other class. -/
def State.partnerIdent (s : State) : Word :=
  let base := s.chain.identity.toNat / 4 * 4
  if s.isSenior then BitVec.ofNat 32 (base + 4 + 2) else BitVec.ofNat 32 (base - 4 + 1)

/-- The grid index of an instant (Table 4.3). -/
def gridIdx (ns : Nat) : Nat := ns / 250000 % 65536

/-- The latest past instant with a 16-bit grid index. -/
def State.gridInstant (s : State) (idx : Nat) : Nat :=
  let g := s.now / 250000
  (g - (g + 65536 - idx) % 65536) * 250000

def State.line (s : State) (r : Nat) : RingLine := s.ring.lines.getD r RingLine.reset

def State.onLine (s : State) (r : Nat) (f : RingLine → RingLine) : State :=
  { s with ring := { s.ring with lines := modAt s.ring.lines r f } }

/-! ### Slots (Tables 4.5 to 4.8, R93) -/

def decodePrim (cur : Bool) (b : List Byte) : Prim where
  status := b.getD 0 0
  info := b.getD 1 0
  bal := if cur then 0 else BitVec.ofNat 16 (leAt b 6 2)
  dieT := sleAt b 5 1
  cells := if cur then [] else (List.range 16).map (fun c => sleAt b (8 + 3 * c) 3)
  th := if cur then [] else (List.range 8).map (fun i => sleAt b (56 + 2 * i) 2)
  stack := if cur then 0 else sleAt b 72 3
  flags := b.getD 75 0
  i := if cur then sleAt b 8 4 else 0
  q := if cur then leAt b 12 6 else 0
  tsh := if cur then sleAt b 18 2 else 0

def decodeSec (cur : Bool) (b : List Byte) : Sec where
  status := b.getD 0 0
  info := b.getD 1 0
  cells := if cur then [] else (List.range 16).map (fun c => bits12 b 80 c)
  th := if cur then [] else (List.range 8).map (fun i => signedOf 12 (bits12 b 104 i))
  stack := if cur then 0 else leAt b 116 2
  flags := if cur then 0 else b.getD 118 0
  i := if cur then sleAt b 80 4 else 0
  tsh := if cur then sleAt b 84 2 else 0

/-- STATUS bits (Table 4.6). -/
def stHold (b : Byte) : Bool := b.toNat / 2 % 2 == 1
def stLate (b : Byte) : Bool := b.toNat / 4 % 2 == 1
def stExpired (b : Byte) : Bool := b.toNat / 8 % 2 == 1
def stOwt (b : Byte) : Bool := b.toNat / 16 % 2 == 1
def stFault (b : Byte) : Bool := b.toNat / 32 % 2 == 1
def stType (b : Byte) : Nat := b.toNat / 64
def infoUnconf (b : Byte) : Bool := b.toNat / 16 % 2 == 1

/-- The seed of a slot (R93). -/
def slotSeed (r p grid : Nat) : Nat := r * 2 ^ 24 + p * 2 ^ 16 + grid

/-- The parts of a slot that arrived whole (the bytes given) and whose check values hold (R107). -/
structure SlotParts where
  prim : Option (List Byte)
  sec  : Option (List Byte)
  side : Option (List Byte)
  bad  : Nat
  deriving DecidableEq, Repr

def checkSlot (seed : Nat) (b : List Byte) : SlotParts :=
  let p := decide (80 ≤ b.length)
  let q := decide (124 ≤ b.length)
  let d := decide (144 ≤ b.length)
  let pOk := decide (crcSeeded seed (slice b 0 76) = leAt b 76 4)
  let sOk := decide (crcSeeded seed (slice b 0 2 ++ slice b 80 40) = leAt b 120 4)
  let dOk := decide (crcSeeded seed (slice b 124 16) = leAt b 140 4)
  { prim := if p && pOk then some b else none
    sec := if q && sOk then some b else none
    side := if d && dOk then some (slice b 124 16) else none
    bad := bit (p && !pOk) + bit (q && !sOk) + bit (d && !dOk) }

/-! ### Command counters (R98 to R100) -/

/-- The successor of a command counter. -/
def nextCnt (c : Nat) : Nat := if c = 65535 then 1 else c + 1

/-- A gap, or a counter the module did not issue: the station's counter is adopted and the commanded state reissued (R99). -/
def Station.resync (x : Station) (cnt : Nat) (gap : Bool) : Station :=
  let again : List RingCmd := [⟨1, x.bal⟩] ++ (if x.ow = 0 then [] else [⟨2, x.ow⟩])
    ++ (match x.plan with | some a => [⟨3, a⟩] | none => [])
  { x with
    cnt := cnt, open_ := none
    gaps := if gap && x.open_.isSome then x.gaps + 1 else x.gaps
    unanswered := if !gap && x.open_.isSome then x.unanswered + 1 else x.unanswered
    queue := again ++ x.queue.filter (fun c => !again.any (fun a => decide (a.op = c.op))) }

/-- The counter and result a slot reports. -/
def Station.answer (x : Station) (cnt res : Nat) : Station :=
  match x.open_ with
  | some _ =>
    if cnt = x.cnt then
      if res / 64 = 3 then { x with open_ := none, refused := x.refused + 1 }
      else if res / 64 = 2 then x.resync cnt true
      else { x with open_ := none, executed := x.executed + 1 }
    else if res / 64 = 2 then x.resync cnt true
    else if nextCnt cnt = x.cnt then x
    else x.resync cnt false
  | none => if cnt = x.cnt then x else x.resync cnt false

/-- At a grid instant a station without an unanswered command is issued the next one. -/
def Station.issue (x : Station) : Station :=
  match x.open_, x.queue with
  | none, c :: rest => { x with cnt := nextCnt x.cnt, open_ := some c, queue := rest, issued := x.issued + 1 }
  | _, _ => x

/-- A command area for a ring and position (Table 4.9, R98): counter (0 none), opcode, check value, argument. -/
def commandArea (r p cnt op arg : Nat) : List Byte :=
  let head := packBytes [(2, cnt), (1, op)]
  let tail := packBytes [(4, arg)]
  head ++ toLe (crc8 (r * 8 + p) (head ++ tail)) 1 ++ tail

/-- The station's command area in a frame. -/
def Station.area (x : Station) (r p : Nat) : List Byte := match x.open_ with
  | some c => commandArea r p x.cnt c.op c.arg
  | none => commandArea r p 0 0 0

/-! ### Frames that the module sends (Table 4.3) -/

/-- The header of a frame, with HCRC (R91). -/
def ringHeader (type : Nat) (e : End) (solo : Bool) (r cls first count grid time : Nat) : List Byte :=
  let h := packBytes [(1, ((type + 16 * endIdx e + 64 * bit solo : Nat) : Int)), (1, ((r + 8 * cls : Nat) : Int)),
    (1, ((first + 8 * count : Nat) : Int)), (1, 0), (2, gridIdx grid), (8, time)]
  h ++ toLe (crc16 h) 2

/-- A DISCOVER, CONFIG or DELAY frame leaves an end now. -/
def State.ringService (s : State) (r : Nat) (e : End) (type first : Nat) (fields : List Int) : State :=
  s.emit (.ringService r e type (ringHeader type e s.isSolo r s.cls first 0 s.now s.now) fields)

/-- The end that the module owns; the A-end where it owns both. -/
def State.ownEnd (s : State) : End := if s.ownsEnd .a then .a else .b

/-! ### Firmware of stations (01 R5, 18 R456) -/

/-- The version the running image prefers for a station, and whether it lists another as compatible (18 R456). -/
def State.preferred (s : State) (k : Nat) : Word := if k < 32 then s.life.parts.station else s.life.parts.current

def State.listed (s : State) (k : Nat) (v : Word) : Bool :=
  decide (v = s.preferred k) || s.life.parts.compat.contains (if k < 32 then 1016 else 1002, v)

/-- New firmware for a station whose version differs from the preferred one: it runs it after a ring start; while its ring runs, a station
with a compatible version holds it in its second slot. -/
def State.loadStation (s : State) (starting : Bool) (k : Nat) (x : Station) : Station :=
  if x.fw = s.preferred k then x
  else if starting then { x with fw := s.preferred k, fwPending := none }
  else if s.listed k x.fw then { x with fwPending := some (s.preferred k) }
  else x

/-- A station of which no image version is known is not used (18 R456, 01 R27). -/
def State.unlisted (s : State) (r p k : Nat) : State :=
  let ty := if k < 32 then 1 else 2
  (s.onStation k (fun x => { x with present := false })).raise Ev.stationMismatch [r, p, ty, ty]

/-- While the rings run, stations that carry a compatible version are written the preferred one into their second slot, and those on neither
list are not used (18 R456). -/
def State.partsFirmware (s : State) : State :=
  s.map.foldl (fun t m =>
    let x := t.station m.1
    if !x.present || decide (x.fw = t.preferred m.1) then t
    else if t.listed m.1 x.fw then t.ringService m.2.1 t.ownEnd 5 m.2.2 [m.2.2, 3, (t.preferred m.1).toNat]
    else t.unlisted m.2.1 m.2.2 m.1) s

/-! ### The side channel (R97) -/

/-- A segment arrives: a message complete with it is handed over; a message taken already is only acknowledged again.
DEDUCED: taken already is what has the number of the last message taken (log 56). -/
def State.takeSegment (s : State) (k : Nat) (b : List Byte) : State :=
  let msg := byteAt b 0
  if msg = 0 then s
  else
    let seg := byteAt b 1 % 16
    let last := byteAt b 1 / 16
    let no := leAt b 2 2
    let x := s.station k
    if x.sideSeen = some no then s.command k 5 no
    else
      let buf := match x.side with
        | some y => if y.no = no then y else ⟨msg, no, last, []⟩
        | none => ⟨msg, no, last, []⟩
      let segs := (buf.segs.filter (fun e => decide (e.1 ≠ seg))) ++ [(seg, slice b 4 12)]
      if (List.range (last + 1)).all (fun i => segs.any (fun e => decide (e.1 = i))) then
        let data := ((List.range (last + 1)).map (fun i => match segs.find? (fun e => decide (e.1 = i)) with
          | some e => e.2
          | none => [])).foldl (· ++ ·) []
        let t := (s.onStation k (fun y => { y with side := none, sideSeen := some no })).command k 5 no
        { t with ring := { t.ring with msgs := t.ring.msgs ++ [⟨k, msg, no, data⟩] } }
      else s.onStation k (fun y => { y with side := some { buf with segs := segs } })

/-- The first whole message of a kind from a station is taken up. -/
def State.takeMessage (s : State) (k msg : Nat) : State × Option (List Byte) :=
  match s.ring.msgs.find? (fun m => decide (m.station = k ∧ m.msg = msg)) with
  | none => (s, none)
  | some m => ({ s with ring := { s.ring with msgs := s.ring.msgs.erase m } }, some m.data)

/-! ### Station starts (R104) -/

/-- A station that reports UNCONF is configured by CONFIG frames in spare time. -/
def State.stationStart (s : State) (k : Nat) : State :=
  match s.placeOf k with
  | none => s
  | some (r, p) =>
    if (s.station k).starting then s
    else
      (s.onStation k (fun x => { x with starting := true, unconf := true })).ringService r s.ownEnd 5 p
        [p, 0, Fld.ringCfg_STA_TIMEOUT s.cfg, Fld.pairCfg_STA_RX s.cfg]

/-! ### Taking a slot -/

/-- The copy of a part that is used: a new valid one, unless one is held and is to be kept. -/
def chosen {α : Type} (held new : Option α) (keep : Bool) : Option α := match held, new with
  | h, none => h
  | none, n => n
  | some h, some n => if keep then some h else some n

/-- The instant from which a result received at an instant is used: in the pair 12 µs later (16 Table 16.3). -/
def State.usableFrom (s : State) (receipt : Nat) : Nat := if s.isJoined then receipt + 12000 else receipt

/-- A result that is still owed is taken as a late one, unless its station has lost the data (R108). -/
def State.putLate (s : State) (k at_ : Nat) (prim : Option Prim) (sec : Option Sec) (from_ : Nat) : State :=
  let owedP := s.ring.owed.any (fun o => decide (o.station = k ∧ o.at_ = at_) && o.prim)
  let owedS := s.ring.owed.any (fun o => decide (o.station = k ∧ o.at_ = at_) && o.sec)
  let p := if owedP then prim else none
  let q := if owedS then sec else none
  let owed := (s.ring.owed.map (fun o => if o.station = k ∧ o.at_ = at_ then
    { o with prim := o.prim && p.isNone, sec := o.sec && q.isNone } else o)).filter (fun o => o.prim || o.sec)
  if p.isNone && q.isNone then s
  else
    let useful := match p, q with
      | some x, _ => !stExpired x.status
      | none, some y => !stExpired y.status
      | _, _ => false
    { s with ring := { s.ring with
        owed := owed, late := if useful then s.ring.late ++ [⟨k, at_, p, q, from_⟩] else s.ring.late } }

/-- Parts of the present sweep that came after the last instant at which the pair takes them for it: kept as late results. -/
def State.putAfter (s : State) (w : Sweep) (k : Nat) (prim : Option Prim) (sec : Option Sec) (from_ : Nat) : State :=
  let held (f : Late → Bool) : Bool := s.ring.late.any (fun l => decide (l.station = k ∧ l.at_ = w.at_) && f l)
  let p := if (w.prim.getD k none).isSome || held (fun l => l.prim.isSome) then none else prim
  let q := if (w.sec.getD k none).isSome || held (fun l => l.sec.isSome) then none else sec
  if p.isNone && q.isNone then s else s.onRing (fun r => { r with late := r.late ++ [⟨k, w.at_, p, q, from_⟩] })

/-- A late result without the parts that have come in time; none where nothing is left. -/
def Late.without (l : Late) (prim sec : Bool) : Option Late :=
  let x : Late := { l with prim := if prim then none else l.prim, sec := if sec then none else l.sec }
  if x.prim.isNone && x.sec.isNone then none else some x

/-- The results of the present sweep take a station's parts; a late slot goes to the late results. `keep`: of copies that differ, the one
held is used, the A-end's before the B-end's. `receipt` is the earliest receipt at either twin, which in the pair must lie 12 µs before
the collection deadline (16 Table 16.3). -/
def State.putResult (s : State) (k at_ : Nat) (prim : Option Prim) (sec : Option Sec) (late keep : Bool) (receipt : Nat) : State :=
  let from_ := s.usableFrom receipt
  if prim.isNone && sec.isNone then s
  else if late then s.putLate k at_ prim sec from_
  else match s.ring.cur with
    | some w =>
      if w.at_ ≠ at_ then (if s.isJoined then s.putLate k at_ prim sec from_ else s)
      else if at_ + 240000 < from_ then s.putAfter w k prim sec from_
      else s.onRing (fun r => { r with
        late := r.late.filterMap (fun l => if l.station = k ∧ l.at_ = at_ then l.without prim.isSome sec.isSome else some l)
        cur := some { w with
          prim := w.prim.set k (chosen (w.prim.getD k none) prim keep)
          sec := w.sec.set k (chosen (w.sec.getD k none) sec keep) } })
    | none => if s.isJoined then s.putLate k at_ prim sec from_ else s

/-- A slot of position p on ring r for a grid index: its check values, command counter, results and segment. A station
whose type contradicts the map is not used (01 R27). DEDUCED: CRC_ERR counts an unfilled slot's failed check too
(log 55). -/
def State.takeSlot (s : State) (r p grid : Nat) (late keep : Bool) (receipt : Nat) (b : List Byte) : State :=
  let parts := checkSlot (slotSeed r p grid) b
  let s := s.onLine r (fun l => { l with crcErr := min 65535 (l.crcErr + parts.bad) })
  match s.stationAt r p with
  | none => s
  | some k =>
    let cur := decide (32 ≤ k)
    let status := b.getD 0 0
    let known := parts.prim.isSome || parts.sec.isSome
    if known && decide (status.toNat % 2 = 0) then s
    else if known && decide (stType status ≠ if cur then 2 else 1) then
      if (s.station k).present then
        (s.onStation k (fun x => { x with present := false })).raise Ev.stationMismatch
          [r, p, if cur then 2 else 1, if stType status = 1 then 1 else if stType status = 2 then 2 else 0]
      else s
    else if !(s.station k).present then s
    else
      let s := match parts.prim with
        | some x => s.onStation k (fun y => y.answer (leAt x 2 2) (byteAt x 4))
        | none => s
      let unconf := known && infoUnconf (b.getD 1 0)
      let s := if unconf then s.stationStart k else s
      let s := s.putResult k (s.gridInstant grid) (parts.prim.map (decodePrim cur)) (parts.sec.map (decodeSec cur)) late keep receipt
      match parts.side with
      | some d => if late then s else s.takeSegment k d
      | none => s

/-! ### Breaks (R106, R107) -/

/-- The ring becomes degraded: once, with the event, when the break's place is known from a wrapped frame or a port. -/
def State.degrade (s : State) (r : Nat) (reachA reachB : Nat) : State :=
  let l := s.line r
  let n := s.ringCount r
  let s := s.onLine r (fun l => { l with
    reachA := reachA, reachB := reachB, breakPos := if reachA + reachB = 2 * n ∧ n ≠ 0 then 7 else reachA
    wholeSince := none, restoreAt := none, untold := none
    st := if reachA = 0 ∧ reachB = 0 then .down else .degraded })
  if l.st = .normal ∨ l.untold.isSome = true then
    s.raise Ev.ringDegraded [r, if reachA = 0 then 0xFF else (reachA - 1 : Nat), if reachB = 0 then 0xFF else (n - reachB : Nat),
      bit (!l.abOk) + 2 * bit (!l.baOk)]
  else s

/-- A break without a place (R107): the ring is degraded and each end goes on asking every station, until a wrapped frame shows which it
reaches. -/
def State.breakUnplaced (s : State) (r : Nat) : State :=
  if (s.line r).st = .normal then
    s.onLine r (fun l => { l with
      st := .degraded, reachA := s.ringCount r, reachB := s.ringCount r, breakPos := 7, wholeSince := none, restoreAt := none
      untold := some s.now })
  else s

/-- The ring path to the partner is alive (R102). -/
def State.ringPath (s : State) : Bool :=
  s.ring.lines.any (fun l => match l.tokenAt with
    | some t => decide (s.now ≤ t + Fld.ringCfg_TOKEN_MS s.cfg * 1000000)
    | none => false)

/-! ### Currents (05 R121, R123) -/

/-- A current station's primary path is present and not judged wrong. -/
def State.csOk (s : State) (i : Nat) : Bool :=
  s.mapped (32 + i) && !(s.station (32 + i)).pLost && !(s.meas.wrong.getD i false)

/-- A fluxgate is fitted. -/
def State.fgFitted (s : State) : Bool := decide (Fld.fgiCfg_SCALE s.cfg ≠ 0)

/-- The fluxgate current of an interval in mA from the mean FGI voltage in µV (05 R122). -/
def State.fluxgate (s : State) (fgi : Int) : Option Int :=
  if s.fgFitted then some (Sys2Proof.Config.quot (Fld.fgiCfg_SCALE s.cfg * fgi) 10000 - 100 * Fld.fgiCfg_OFFSET s.cfg) else none

/-- The current path the ledger books (R121, R123, 07 R187): 0, 1 current stations, 2 fluxgate, 3 none. -/
def State.ledgerPath (s : State) : Nat :=
  if s.csOk 0 then 0 else if s.csOk 1 then 1 else if s.fgFitted && !(s.meas.wrong.getD 2 false) then 2 else 3

/-- The current station that stands as the primary (R121): current station 1 for as long as current station 0 is lost or judged
wrong. -/
def State.primaryCs (s : State) : Nat := if !s.csOk 0 && s.mapped 33 && !(s.station 33).pLost then 1 else 0

/-- The current of a path in a sweep, mA. -/
def Sweep.current (w : Sweep) (path : Nat) : Option Int :=
  if path < 2 then (w.prim.getD (32 + path) none).map (fun p => p.i) else if path = 2 then w.fg else none

end Sys2Proof.Machine
end

