-- ==== Sys2Proof/Machine/LedgerOps.lean ====
section
/-! DEFINITION. The charge ledger (07): entries, booking of sweeps, paths, balancing and gaps, records. -/
namespace Sys2Proof.Machine

def State.onLedger (s : State) (f : Ledger → Ledger) : State := { s with ledger := f s.ledger }

/-- An amount is added to the first n accounts of a list. -/
def addFirst (n : Nat) (q : Int) (l : List Int) : List Int := mapIdxL (fun k (x : Int) => if k < n then x + q else x) l

/-- A sum posted to S and every used C_k (R184, Table 7.2). -/
def Balances.postS (b : Balances) (n path : Nat) (q : Int) : Balances :=
  { b with s := b.s + q, c := addFirst n q b.c
           s0 := if path = 0 then b.s0 + q else b.s0, s1 := if path = 1 then b.s1 + q else b.s1
           fg := if path = 2 then b.fg + q else b.fg }

def Balances.postU (b : Balances) (n : Nat) (m : Int) : Balances := { b with u := b.u + m, c := addFirst n m b.c }

def Balances.postB (b : Balances) (k : Nat) (x : Int) : Balances :=
  { b with b := modAt b.b k (fun y => y + x), c := modAt b.c k (fun y => y - x) }

def Balances.postA (b : Balances) (k : Nat) (x : Int) : Balances :=
  { b with a := modAt b.a k (fun y => y + x), at_ := b.at_ + x, c := modAt b.c k (fun y => y + x) }

/-- What has been booked for each cell but for adjustments, mC: the charge that the estimator's predictions use (06 R157). -/
def Balances.booked (b : Balances) : List Int := mapIdxL (fun k (c : Int) => c - b.a.getD k 0) b.c

/-- The cell equation of cell k, and the sums of the sub-accounts (R183). -/
def Balances.cellOk (b : Balances) (k : Nat) : Bool :=
  decide (b.c.getD k 0 = b.s + b.u - b.b.getD k 0 + b.a.getD k 0)

def Balances.sumsOk (b : Balances) : Bool := decide (b.s = b.s0 + b.s1 + b.fg ∧ b.at_ = sumI b.a)

/-- The first failed check of R183 for n used cells: the event's arguments. -/
def Balances.failed (b : Balances) (n : Nat) : Option (List Int) :=
  match (List.range n).find? (fun k => !b.cellOk k) with
  | some k => some [k, b.s, b.u, b.b.getD k 0, b.a.getD k 0]
  | none => if b.sumsOk then none else some [0xFFFF, b.s, b.u, 0, b.at_]

/-! ### Records (Tables 7.7, 7.8) -/

/-- FLAGS of a record: solo, outside the promise (R193). -/
def State.ledgerFlags (s : State) : Nat := bit s.isSolo + 2 * bit (!s.ledger.promise.all id)

/-- A record of n entries from the next LSEQ; the entries take their numbers (R184). -/
def State.ledgerRecord (s : State) (time type len n : Nat) (body : List Int) : State :=
  s.onLedger (fun l => { l with
    recs := l.recs ++ [⟨time, l.lseq, type, s.ledgerFlags, len, n, body⟩], lseq := l.lseq + BitVec.ofNat 64 n })

/-- TIME of an entry's record: the event time of the last sweep's grid instant (Table 7.7); before any sweep, now. -/
def State.bookTime (s : State) : Nat :=
  if s.ledger.sweepAt = 0 then eventOf s.sysNs else eventOf ((s.ledger.sweepAt : Int) + s.time.stepOffset).toNat

/-- A marker entry (Table 7.8): code, argument, old ledger number, note bytes or first and last LSEQ. -/
def State.bookMarker (s : State) (code arg old : Nat) (note : List Int) : State :=
  let t := s.ledgerRecord s.bookTime 6 64 1 ([(code : Int), arg, old] ++ note)
  if code = 1 ∨ code = 3 ∨ code = 4 then t.onLedger (fun l => { l with snapDue := true }) else t

/-- A sweep entry of a charge in nC on a path (R185): whole millicoulombs toward zero, the rest carried. -/
def State.bookSweep (s : State) (path : Nat) (nC : Int) (deferred : Bool) (upTo : Nat) : State :=
  let n := s.cellCount
  (s.onEst (fun e => { e with dqNow := some (e.dqNow.getD 0 + nC) })).onLedger (fun l =>
    let total := l.rem + nC
    let q := total.tdiv 1000000
    { l with
      rem := total.tmod 1000000, bal := l.bal.postS n path q
      secLseq := if l.sweeps = 0 then l.lseq else l.secLseq
      lseq := l.lseq + 1, dq := modAt l.dq path (fun x => x + q), sweeps := l.sweeps + 1
      deferred := if deferred then l.deferred + 1 else l.deferred, booked := upTo, path := path
      secOutside := l.secOutside || !l.promise.all id })

/-- The estimator takes a path entry as an extra prediction term of every cell, nC (R188). -/
def State.extraAll (s : State) (nC : Int) : State :=
  s.onEst (fun e => { e with dqNow := some (e.dqNow.getD 0), cells := e.cells.map (fun c => { c with extra := c.extra + nC }) })

/-- Event time of a fine-counter instant. -/
def State.eventAt (s : State) (ns : Nat) : Nat := eventOf ((ns : Int) + s.time.stepOffset).toNat

/-- The fine-counter instant of an event time. -/
def State.fineOf (s : State) (event : Nat) : Nat := ((nsOfEvent event : Int) - s.time.stepOffset).toNat

/-- A path entry of a charge in nC (R187, R188, R201): whole millicoulombs toward zero, the rest into the string remainder. -/
def State.bookPath (s : State) (kind old new : Nat) (nC : Int) (fromT : Nat) : State :=
  let n := s.cellCount
  let d := nC.tdiv 1000000
  let t := (s.onLedger (fun l => { l with rem := l.rem + nC.tmod 1000000 })).raise Ev.ledgerPath [s.ledger.lseq.toNat, d, kind, old, new]
  let u := t.onLedger (fun l => { l with bal := l.bal.postS n new d })
  (u.ledgerRecord s.bookTime 5 64 1 [fromT, d, kind, old, new]).extraAll nC

/-- An unobserved entry of an interval with its bounds in mC (R189, R201): the midpoint, rounded toward zero. -/
def State.bookUnobserved (s : State) (cause : Nat) (lower upper : Int) (fromT : Nat) : State :=
  let n := s.cellCount
  let m := (lower + upper).tdiv 2
  let t := s.raise Ev.ledgerUnobserved [lower, upper, cause]
  let u := t.onLedger (fun l => { l with bal := l.bal.postU n m })
  (u.ledgerRecord s.bookTime 4 64 1 [fromT, lower, upper, cause]).onEst (fun e => { e with
    dqNow := some (e.dqNow.getD 0), gapQ := e.gapQ + 1000000 * m
    cells := e.cells.map (fun c => { c with model := widen (Sys2Proof.Config.quot (upper - lower) 2) c.model, anchors := [] }) })

/-- The estimator's difference term of a booked balancing charge in mC, and the implied charge starts afresh (06 R146). -/
def State.balDiff (s : State) (c : Nat) (mC : Int) : State :=
  { s with est := { s.est with cells := modAt s.est.cells c (fun x => { x with extra := x.extra + x.implied - 1000000 * mC, implied := 0 }) } }

/-- The first message since a start or a station restart: the implied charge is counted afresh from here (06 R146). -/
def State.impliedFrom (s : State) (c : Nat) : State :=
  { s with est := { s.est with cells := modAt s.est.cells c (fun x => { x with implied := 0 }) } }

/-- Balancing entries of one message (R190, R191): amounts by channel in mC; one entry per channel whose amount is not 0. -/
def State.bookBalance (s : State) (k kind : Nat) (amounts : List Int) (extra : Int) : State :=
  let chans := (List.range 16).filter (fun c => decide (amounts.getD c 0 ≠ 0) && decide (16 * k + c < s.cellCount))
  if chans = [] then s
  else
    let t := s.onLedger (fun l => { l with
      bal := chans.foldl (fun b c => b.postB (16 * k + c) (amounts.getD c 0)) l.bal })
    t.ledgerRecord s.bookTime 2 104 chans.length
      ([(k : Int), kind, sumN (chans.map (fun c => 2 ^ c))]
        ++ (List.range 16).map (fun c => if chans.contains c then amounts.getD c 0 else 0) ++ [extra])

/-! ### Counters (R185, R504) -/

/-- A difference of P_Q counters modulo 2^48, signed, µC. -/
def qDiff (new old : Nat) : Int := signedOf 48 ((new + 2 ^ 48 - old % 2 ^ 48) % 2 ^ 48)

/-- A current station's reading in a sweep, as a baseline. -/
def State.csReading (s : State) (w : Sweep) (i : Nat) : Option Baseline :=
  match w.prim.getD (32 + i) none with
  | some p =>
    if stExpired p.status || stFault p.status || infoUnconf p.info then none
    else some ⟨w.at_, p.q, (s.ledger.starts.getD (32 + i) none).getD (0, 0)⟩
  | none => none

/-- The baseline of a station at an instant, of the same start count. -/
def Ledger.baseline (l : Ledger) (i at_ : Nat) (start : Nat × Nat) : Option Baseline :=
  (l.base.getD i []).find? (fun b => decide (b.at_ = at_ ∧ b.start = start))

/-- Fluxgate charge in nC of the grid intervals from one instant to another, both within the last 4 s (R185). -/
def State.fgCharge (s : State) (from_ upTo : Nat) : Int :=
  250 * sumI ((s.ring.fg.drop ((s.ring.grid - upTo) / 250000)).take ((upTo - from_) / 250000))

/-- The counter is continuous over a gap of known length in ns (R201). -/
def State.continuous (s : State) (i : Nat) (old new : Baseline) (gap : Nat) : Bool :=
  let rated := (s.safety.rated.getD i none).getD 0
  decide (old.start = new.start) && !(s.meas.wrong.getD i false) && decide (gap * rated < 2 ^ 47 * 1000)

/-- A waiting entry is booked (R190, R191): the counter increase since the last booked message, or the estimate of a station's restart; a
first message is a baseline alone. -/
def State.bookBalEntry (s : State) (e : BalEntry) : State :=
  let cell (c : Nat) : Nat := 16 * e.station + c
  let settle (t : State) (amounts : List Int) (next : Option (List Nat)) : State :=
    ((List.range 16).foldl (fun (v : State) c => v.balDiff (cell c) (amounts.getD c 0)) t).onLedger (fun l => { l with
      qbal := l.qbal.set e.station next })
  match e.kind, s.ledger.qbal.getD e.station none with
  | 2, _ =>
    let amounts := (List.range 16).map (fun c => if e.mask / 2 ^ c % 2 = 1 then
      Sys2Proof.Config.quot (2 * (s.est.cells.getD (cell c) EstCell.reset).implied + e.allow.getD c 0) 2000000 else 0)
    settle (s.bookBalance e.station 2 amounts (Sys2Proof.Config.quot (sumI e.allow) 1000000)) amounts none
  | k, some old =>
    let inc := (List.range 16).map (fun c => (((e.counters.getD c 0 + 2 ^ 32 - old.getD c 0 % 2 ^ 32) % 2 ^ 32 : Nat) : Int))
    settle (s.bookBalance e.station k inc 0) inc (some e.counters)
  | _, none =>
    ((List.range 16).foldl (fun (v : State) c => v.impliedFrom (cell c)) s).onLedger (fun l => { l with
      qbal := l.qbal.set e.station (some e.counters) })

/-- Readings of the current stations in a sweep are kept for 4 s, while a gap waits to be booked all of them (R201, R504). -/
def State.keepBaselines (s : State) (w : Sweep) : State :=
  let keep (i : Nat) (bs : List Baseline) : List Baseline :=
    let old := bs.filter (fun b => decide (s.ledger.sweepAt < b.at_ + 4000000000) || s.ledger.gap.isSome)
    match s.csReading w i with
    | some r => r :: old
    | none => old
  s.onLedger (fun l => { l with base := mapIdxL keep l.base })

/-- A late result of a current station as a sweep of its own. -/
def Late.sweep (l : Late) : Sweep := ⟨l.at_, (List.replicate 34 none).set l.station l.prim, [], none⟩

/-- The readings of late results are kept too (R186, R504). -/
def State.keepLate (s : State) : State :=
  (s.ring.late.filter (fun l => decide (32 ≤ l.station) && l.prim.isSome)).foldl (fun t l => t.keepBaselines l.sweep) s

/-- The sweep comes up for booking: its instant, whether the module serves, the limits in force. -/
def State.markSweep (s : State) (at_ : Nat) : State :=
  s.onLedger (fun l => { l with
    sweepAt := at_, serving := s.computes
    marks := (at_, s.disp.limC, s.disp.limD) :: l.marks.filter (fun m => decide (at_ < m.1 + 4000000000)) })

/-- The limits that were in force at an instant: those of the last sweep at or before it. -/
def State.limitsAt (s : State) (at_ : Nat) : Int × Int := match s.ledger.marks.find? (fun m => decide (m.1 ≤ at_)) with
  | some m => (m.2.1, m.2.2)
  | none => (s.disp.limC, s.disp.limD)

/-- The last booked instant is one of those whose readings are baselines (R504). -/
def Ledger.markBooked (l : Ledger) : Ledger :=
  if l.instants.head? = some l.booked then l
  else { l with instants := l.booked :: l.instants.filter (fun x => decide (l.booked < x + 4000000000)) }

/-- Current limit in nA over a time in ns, as mC. -/
def limitCharge (nA : Int) (ns : Nat) : Int := Sys2Proof.Config.quot (nA * ns) 1000000000000000

/-! ### Booking one sweep (R185 to R189, R504) -/

/-- Booking stands at a sweep with a path of its own again. -/
def Ledger.settle (l : Ledger) : Ledger := { l with held := none, heldFg := 0, blindFrom := none }

/-- A current station's charge becomes the booked path: R187 for the station that was lost and whose counter is continuous, else R504. A
booking after its sweep's own deadline, or over more than one interval, is deferred (R186). -/
def State.bookStation (s : State) (w : Sweep) (i : Nat) (r : Baseline) : State := match s.ledger.held with
  | some h =>
    if s.ledger.heldCs = i ∧ h.start = r.start ∧ s.continuous i h r (w.at_ - h.at_) = true then
      (s.bookPath 1 s.ledger.path i (1000 * qDiff r.q h.q - s.ledger.heldFg) (s.eventAt h.at_)).onLedger (fun x =>
        { x.settle with booked := w.at_, path := i })
    else bookOn s
  | none => bookOn s
where
  /-- The three cases of R504. -/
  bookOn (s : State) : State :=
    let l := s.ledger
    let late := decide (s.fabric.sweepUs * 1000 < w.at_ - l.booked) || decide (w.at_ < l.sweepAt)
    match l.baseline i l.booked r.start with
    | some b => (s.bookSweep i (1000 * qDiff r.q b.q) late w.at_).onLedger Ledger.settle
    | none =>
      if l.blindFrom.isNone && s.fgFitted && !(s.meas.wrong.getD 2 false) then
        (s.bookSweep 2 (s.fgCharge l.booked w.at_) late w.at_).onLedger (fun x => { x.settle with path := i })
      else
        let (t0, c, d) := l.blindFrom.getD (l.booked, s.limitsAt l.booked)
        (s.bookUnobserved 1 (limitCharge d (w.at_ - t0)) (limitCharge c (w.at_ - t0)) (s.eventAt t0)).onLedger (fun x =>
          { x.settle with booked := w.at_, path := i })

/-- The fluxgate's charge is booked: after an interval that no meter saw, the unobserved entry of that interval follows the sweep entry
(R189, R194). -/
def State.bookFluxgate (s : State) (w : Sweep) : State :=
  let period := s.fabric.sweepUs * 1000
  match s.ledger.blindFrom with
  | some (t0, c, d) =>
    let e := max t0 (w.at_ - period)
    ((s.bookSweep 2 (s.fgCharge e w.at_) false w.at_).bookUnobserved 1 (limitCharge d (e - t0)) (limitCharge c (e - t0))
      (s.eventAt t0)).onLedger Ledger.settle
  | none =>
    let q := s.fgCharge s.ledger.booked w.at_
    (s.bookSweep 2 q (decide (period < w.at_ - s.ledger.booked)) w.at_).onLedger (fun l => { l with
      heldFg := if l.held.isSome then l.heldFg + q else l.heldFg })

/-- A change of a promise condition is recorded (R193). -/
def State.promiseIs (s : State) (now : List Bool) : State :=
  let old := s.ledger.promise
  let t := (List.range 3).foldl (fun u i =>
    if old.getD i false = now.getD i false then u else u.raise Ev.ledgerOutside [i, bit (!(now.getD i false))]) s
  t.onLedger (fun l => { l with promise := now })

/-- The newest late reading of a current station after the last booked instant, as a sweep of its own (R186). -/
def State.lateReading (s : State) (i : Nat) : Option (Sweep × Baseline) :=
  (s.ring.late.filter (fun l => decide (l.station = 32 + i ∧ s.ledger.booked < l.at_) && l.prim.isSome)).foldl (fun m l =>
    match s.csReading l.sweep i, m with
    | some r, some (v, _) => if v.at_ < l.at_ then some (l.sweep, r) else m
    | some r, none => some (l.sweep, r)
    | none, _ => m) none

/-- The ledger books: it is open, no gap is to be booked first, the module is in service (Table 7.3, R201). -/
def Ledger.books (l : Ledger) : Bool := l.open_ && l.gap.isNone && l.serving

/-- The balancing messages that came by the sweep's deadline are booked after its entry (R190, R194). -/
def State.bookBalances (s : State) : State :=
  let due := s.ledger.balWait.filter (fun e => decide (e.at_ ≤ s.ledger.sweepAt + 240000))
  (due.foldl State.bookBalEntry s).onLedger (fun l => { l with
    balWait := l.balWait.filter (fun e => decide (l.sweepAt + 240000 < e.at_)) })

/-- The first sweep after a start, from which the ledger will book again (R201). -/
def Ledger.markGap (l : Ledger) (at_ : Nat) : Ledger :=
  if l.gap.isSome ∧ l.gapFrom = none then { l with gapFrom := some at_ } else l

/-- The conditions of the promise as they stand (Table 7.3): time base, current measurement, in service with the application cores
running. -/
def State.promiseNow (s : State) : List Bool :=
  [s.time.rateValid, decide (s.ledgerPath ≠ 3),
    s.computes && (s.fabric.engines.take 4).all (fun e => !e.reloading && !e.failed)]

/-- The station whose charge was booked is lost and no other stands in: its last booked reading is held (R187). -/
def State.holdBaseline (s : State) (p : Nat) : State :=
  let i := s.ledger.path
  if decide (i < 2) && (s.station (32 + i)).pLost && decide (2 ≤ p) && s.ledger.held.isNone then
    s.onLedger (fun l => { l with held := (l.base.getD i []).find? (fun b => decide (b.at_ = l.booked)), heldCs := i, heldFg := 0 })
  else s

/-- The booking of a sweep on the present path. -/
def State.bookString (s : State) (w : Sweep) (p : Nat) : State :=
  let s := s.holdBaseline p
  match p with
  | 3 => s.onLedger (fun l => { l with path := 3, blindFrom := match l.blindFrom with
      | some b => some b
      | none => some (l.booked, s.limitsAt l.booked) })
  | 2 => if w.fg.isSome then s.bookFluxgate w else s
  | i => match s.csReading w i with
    | some r => s.bookStation w i r
    | none => match s.lateReading i with
      | some (w', r) => s.bookStation w' i r
      | none => s

/-- The string part of a collection deadline. -/
def State.ledgerString (s : State) (w : Sweep) : State :=
  let p := s.ledgerPath
  let s := (s.onEst (fun e => { e with dqNow := none, gapQ := 0 })).markSweep w.at_
  let s := ((s.promiseIs s.promiseNow).keepBaselines w).keepLate
  if !s.ledger.books then s.onLedger (fun l => l.markGap w.at_)
  else if s.ledger.booked = 0 then
    if p < 2 ∧ (s.csReading w p).isNone = true then s else s.onLedger (fun l => { l with booked := w.at_, path := p }.markBooked)
  else (s.bookString w p).onLedger Ledger.markBooked

/-- A path's charge from one booked instant to another, nC: from the baselines of R504, or the fluxgate. -/
def State.spanCharge (s : State) (p a b : Nat) : Option Int :=
  if p = 2 then some (s.fgCharge a b)
  else match (s.ledger.base.getD p []).find? (fun x => decide (x.at_ = a)), (s.ledger.base.getD p []).find? (fun x => decide (x.at_ = b)) with
    | some x, some y => if x.start = y.start then some (1000 * qDiff y.q x.q) else none
    | _, _ => none

/-- The booked instants at which a path has a baseline, newest first. -/
def State.baseAt (s : State) (p : Nat) : List Nat :=
  s.ledger.instants.filter (fun a => decide (p = 2) || (s.ledger.base.getD p []).any (fun x => decide (x.at_ = a)))

/-- The path entry of a judgement (R188): the good path's charge less the wrong path's over the three seconds that led to it, both from the
last booked instant at which both have a baseline back to the one 3 s earlier, or the last before that. -/
def State.bookJudgement (s : State) (old new : Nat) : State :=
  let ends := (s.baseAt old).filter (fun a => (s.baseAt new).contains a)
  match ends.head? with
  | none => s
  | some b => match ends.find? (fun a => decide (a + 3000000000 ≤ b)) with
    | none => s
    | some a => match s.spanCharge new a b, s.spanCharge old a b with
      | some g, some x => s.bookPath 0 old new (g - x) (s.eventAt a)
      | _, _ => s

/-! ### Releasing records (R195 to R197) -/

/-- The number of bytes the record store holds (R196). -/
def storeBytes (l : List LedgerRec) : Nat := sumN (l.map (fun r => r.len))

/-- Sizes of the fields of a record's body by its TYPE (Table 7.8); a marker's note is 24 bytes, or first and last lost LSEQ. -/
def bodySizes (type n : Nat) : List Nat := match type with
  | 1 => [4, 4, 4, 2, 2, 8, 8]
  | 2 => [1, 1, 2] ++ List.replicate 17 4
  | 3 => List.replicate 129 4
  | 4 => [8, 8, 8, 1]
  | 5 => [8, 8, 1, 1, 1]
  | 6 => [2, 2, 4] ++ (if n = 5 then [8, 8] else List.replicate 24 1)
  | _ => List.replicate 1540 8

/-- The bytes of a record (Tables 7.7, 7.8): the header with CHECK over it and the body, then the body. -/
def LedgerRec.bytes (r : LedgerRec) (number : Word) : List Byte :=
  let head := packBytes [(8, (r.time : Int)), (8, r.lseq.toNat), (4, number.toNat), (1, r.type), (1, r.flags), (2, r.len), (4, r.nent)]
  let body := padTo (r.len - 32) (packBytes ((bodySizes r.type r.body.length).zip r.body))
  head ++ toLe (crc32c (head ++ body)) 4 ++ body

/-- A record as the stream carries it. -/
def LedgerRec.toStream (r : LedgerRec) (number : Word) : StreamRec := ⟨7, r.len, r.time, r.bytes number⟩

/-- The store drops its oldest records beyond 8,257,536 bytes. -/
def trimStore : Nat → List LedgerRec → List LedgerRec × List LedgerRec
  | 0, l => (l, [])
  | k + 1, l => match l with
    | [] => ([], [])
    | r :: rest => if 8257536 < storeBytes l then
        let (a, b) := trimStore k rest
        (a, r :: b)
      else (l, [])

/-- Records in LSEQ order. -/
def insertRec (r : LedgerRec) : List LedgerRec → List LedgerRec
  | [] => [r]
  | x :: l => if r.lseq.toNat < x.lseq.toNat then r :: x :: l else x :: insertRec r l

def sortRecs (l : List LedgerRec) : List LedgerRec := l.foldl (fun m r => insertRec r m) []

/-- A SNAPSHOT of the present balances (Table 7.8). -/
def State.snapshot (s : State) (w : Nat) (b : Balances) (lseq : BitVec 64) : LedgerRec :=
  ⟨w, lseq, 7, s.ledgerFlags, 12352, 0, [b.s0, b.s1, b.fg, b.u]
    ++ ((List.range 512).map (fun k => [b.c.getD k 0, b.b.getD k 0, b.a.getD k 0])).foldl (· ++ ·) []⟩

/-- Records go to the store and the stream; records the store overwrites before the stream has them are marked (R197). -/
def State.releaseRecs (s : State) (rs : List LedgerRec) : State :=
  let (store, dropped) := trimStore (s.ledger.store.length + rs.length) (s.ledger.store ++ rs)
  let t := s.onLedger (fun l => { l with store := store })
  let u := rs.foldl (fun v r => v.release 3 (r.toStream v.ledger.number)) t
  let undelivered := dropped.filter (fun r => (u.backlog 3).recs.any (fun x => decide (x = r.toStream u.ledger.number)))
  match undelivered.head?, undelivered.getLast? with
  | some a, some b =>
    let v := u.setBacklog 3 (fun y => { y with recs := y.recs.filter (fun x =>
      !undelivered.any (fun r => decide (x = r.toStream u.ledger.number))) })
    v.bookMarker 3 0 0 [a.lseq.toNat, (b.lseq.toNat + max 1 b.nent - 1 : Nat)]
  | _, _ => u

/-- Adjustment records of a second (Table 7.8): one per engine with an entry, numbered from an LSEQ on. -/
def adjustRecs (w flags : Nat) (adj : List Int) (lseq : BitVec 64) : List LedgerRec :=
  ((List.range 4).foldl (fun (acc : List LedgerRec × BitVec 64) e =>
    let part := (adj.drop (128 * e)).take 128
    let n := (part.filter (fun a => decide (a ≠ 0))).length
    if n = 0 then acc
    else (acc.1 ++ [⟨w, acc.2, 3, flags, 548, n, (e : Int) :: part⟩], acc.2 + BitVec.ofNat 64 n)) ([], lseq)).1

/-- The image of second W: what the journal holds of the ledger (R196). -/
def State.makeImage (s : State) (w : Nat) (final : Bool) : Image :=
  let l := s.ledger
  { w := w, bal := l.bal, lseq := l.lseq, rem := l.rem
    base := l.base.map (fun b => b.find? (fun x => decide (x.at_ = l.booked))), held := l.held, heldCs := l.heldCs, heldFg := l.heldFg
    qbal := l.qbal.map (fun q => q.getD []), starts := l.starts, number := l.number, ident := s.chain.identity
    final := final, booked := s.eventAt l.booked, iLast := s.meas.iLast.getD 0, limits := (s.disp.limC, s.disp.limD)
    path := l.path
    recs := (l.waiting.map (fun e => e.2)).flatten ++ (if final then l.recs else []), good := true }

/-- The SECOND record of the second that ends, with TIME w: it is outside the promise if one of its sweep entries is (R193). -/
def State.secondRec (s : State) (w : Nat) : LedgerRec :=
  let l := s.ledger
  let outside := l.secOutside || !l.promise.all id
  ⟨w, if l.sweeps = 0 then l.lseq else l.secLseq, 1, bit s.isSolo + 2 * bit outside, 64, l.sweeps,
    l.dq ++ [(l.sweeps : Int), l.deferred, l.bal.s, l.bal.u]⟩

/-- The frozen second's adjustments are posted (R192). -/
def Balances.postAll (b : Balances) (adj : List Int) : Balances :=
  (mapIdxL (fun k (a : Int) => (k, a)) adj).foldl (fun x e => if e.2 = 0 then x else x.postA e.1 e.2) b

/-- A SNAPSHOT is due at W (R206). -/
def State.snapshotDue (s : State) (ns : Nat) : Bool :=
  let p := Fld.ledgerCfg_SNAP_S s.cfg * 1000000000
  s.ledger.snapDue || (decide (p ≠ 0) && decide (ns % p = 0))

/-- At a whole second's sweep the balances are frozen (Table 7.4): the second's records are closed with the SECOND record and
the adjustments, which take the next numbers and are posted 5 ms later, and a SNAPSHOT if one is due. -/
def State.freezeSecond (s : State) (ns : Nat) : State :=
  let w := s.eventAt ns
  let l := s.ledger
  let adj := l.adjust
  let n := (adj.filter (fun a => decide (a ≠ 0))).length
  let next := l.lseq + BitVec.ofNat 64 n
  let recs := sortRecs (l.recs ++ [s.secondRec w] ++ adjustRecs w s.ledgerFlags adj l.lseq)
    ++ (if s.snapshotDue ns then [s.snapshot w (l.bal.postAll adj) next] else [])
  let t := s.onLedger (fun x => { x with
    lseq := next, adjust := List.replicate 512 0, adjDue := if n = 0 then [] else adj
    dq := [0, 0, 0], sweeps := 0, deferred := 0, secOutside := false, recs := [], snapDue := false, waiting := x.waiting ++ [(w, recs)] })
  t.onLedger (fun x => { x with writing := some (t.makeImage w false) })

/-- The ledger part of a collection deadline: string charge, balancing messages, and at a whole second the freeze. -/
def State.ledgerSweep (s : State) (w : Sweep) : State :=
  let t := s.ledgerString w
  if !t.ledger.books then t
  else if w.at_ % 1000000000 = 0 then t.bookBalances.freezeSecond w.at_ else t.bookBalances

/-- A new ledger is opened (R199): its number, its first entry. -/
def State.openLedger (s : State) (old : Nat) : State :=
  let n := BitVec.ofNat 32 (s.sysNs / 1000000000)
  let t := { s with ledger := { Ledger.reset with
    open_ := true, number := n, images := s.ledger.images, place := s.ledger.place, store := s.ledger.store, promise := s.ledger.promise
    serving := s.ledger.serving, sweepAt := s.ledger.sweepAt, starts := s.ledger.starts } }
  (t.bookMarker 1 0 old []).raise Ev.ledgerOpened [n.toNat, old]

end Sys2Proof.Machine
end

