-- ==== Sys2Proof/Machine/MeasOps.lean ====
section
/-! DEFINITION. Cell measurement and balancing (05): usable results, the checks of a sweep, masks. -/
namespace Sys2Proof.Machine

/-! ### Blocks in force (06 R143, 10 R261): none in guard mode -/

def State.block (s : State) (kind : Nat) : Option (List Byte) :=
  if s.life.guard_ then none else (s.setup.blocksAct.find? (fun b => decide (b.1 = kind))).map (fun b => b.2)

/-- The estimator's model block; [] is the built-in one. -/
def State.modelBlock (s : State) : List Byte := (s.block 1).getD []
def State.estModel (s : State) : ModelBlock := modelOf s.modelBlock

/-- A thermal map block (10 R261): for each of 512 cells its thermistor in two bytes, for each of 256 thermistors its zone in one, the
CRC-32C over them. -/
def mapThermistor (b : List Byte) (c : Nat) : Option Nat := let v := leAt b (2 * c) 2; if v = 0xFFFF then none else some v
def mapZone (b : List Byte) (t : Nat) : Option Nat := let z := byteAt b (1024 + t); if z = 0xFF then none else some z

/-- The byte of a thermal map block's first field outside its range; its length or check value comes first. -/
def mapFault (b : List Byte) : Option Nat :=
  if b.length ≠ 1284 then some 0
  else if leAt b 1280 4 ≠ crc32c (b.take 1280) then some 1280
  else match (List.range 512).find? (fun c => decide (256 ≤ leAt b (2 * c) 2 ∧ leAt b (2 * c) 2 ≠ 0xFFFF)) with
    | some c => some (2 * c)
    | none => ((List.range 256).find? (fun t => decide (8 ≤ byteAt b (1024 + t) ∧ byteAt b (1024 + t) ≠ 0xFF))).map (fun t => 1024 + t)

/-- The thermistor that gives a cell's surface temperature. -/
def State.thermistorOf (s : State) (c : Nat) : Option Nat := match s.block 2 with
  | some b => mapThermistor b c
  | none => some (8 * (c / 16) + c % 16 / 2)

/-- The zone of a thermistor; none: excluded. -/
def State.zoneOf (s : State) (t : Nat) : Option Nat := match s.block 2 with
  | some b => mapZone b t
  | none => if (s.therm.sensors.getD t Sensor.reset).absent then none else some 0

/-! ### Usable results (12 R299, 10 R270) -/

/-- Flags that keep a result from use. -/
def flagsOk (status info : Byte) : Bool := !(stLate status || stExpired status || stFault status || infoUnconf info)

/-- A primary cell result, µV; none where there is no usable result code. 0x7FFFFF (over range) is a value here. -/
def Prim.cell (p : Prim) (i : Nat) : Option Int :=
  let v := p.cells.getD i (-8388608)
  if !flagsOk p.status p.info || decide (v = -8388608) then none else some v

/-- A secondary cell result in 1.25 mV; 0xFFF is over range or no result. -/
def Sec.cell (q : Sec) (i : Nat) : Option Nat := if flagsOk q.status q.info then some (q.cells.getD i 4095) else none

/-- Thermistor results in 0.01 °C: unusable when open, short or outside −50 to +150 °C. -/
def thOk (v : Int) : Option Int := if -5000 ≤ v ∧ v ≤ 15000 then some v else none

def Prim.temp (p : Prim) (i : Nat) : Option Int :=
  let v := p.th.getD i (-32768)
  if !flagsOk p.status p.info || decide (v = -32768 ∨ v = 32767) then none else thOk v

def Sec.temp (q : Sec) (i : Nat) : Option Int :=
  let v := q.th.getD i (-2048)
  if !flagsOk q.status q.info || decide (v = -2048 ∨ v = 2047) then none else thOk (10 * v)

def Sweep.prim1 (w : Sweep) (k : Nat) : Option Prim := w.prim.getD k none
def Sweep.sec1 (w : Sweep) (k : Nat) : Option Sec := w.sec.getD k none

/-- A cell's primary voltage in µV in a sweep: a value within the reporting range. -/
def Sweep.cellP (w : Sweep) (c : Nat) : Option Int := match w.prim1 (c / 16) with
  | some p => match p.cell (c % 16) with
    | some v => if v = 8388607 then none else some v
    | none => none
  | none => none

/-- A cell's secondary voltage in µV in a sweep. -/
def Sweep.cellS (w : Sweep) (c : Nat) : Option Int := match w.sec1 (c / 16) with
  | some q => match q.cell (c % 16) with
    | some v => if v = 4095 then none else some (1250 * v)
    | none => none
  | none => none

/-- A thermistor's primary and secondary temperatures. -/
def Sweep.thP (w : Sweep) (t : Nat) : Option Int := (w.prim1 (t / 8)).bind (fun p => p.temp (t % 8))
def Sweep.thS (w : Sweep) (t : Nat) : Option Int := (w.sec1 (t / 8)).bind (fun q => q.temp (t % 8))

/-! ### Cells, taps -/

def State.cell (s : State) (c : Nat) : Cell := s.meas.cells.getD c Cell.reset
def State.onCell (s : State) (c : Nat) (f : Cell → Cell) : State :=
  { s with meas := { s.meas with cells := modAt s.meas.cells c f } }
def State.stM (s : State) (k : Nat) : StationM := s.meas.stations.getD k StationM.reset
def State.onStM (s : State) (k : Nat) (f : StationM → StationM) : State :=
  { s with meas := { s.meas with stations := modAt s.meas.stations k f } }
def State.tap (s : State) (k t : Nat) : Tap := (s.stM k).taps.getD t Tap.reset
def State.onTap (s : State) (k t : Nat) (f : Tap → Tap) : State := s.onStM k (fun m => { m with taps := modAt m.taps t f })

/-- Used channels of a cell station (01 R26, R118). -/
def State.usedOf (s : State) (k : Nat) : Nat := min 16 (s.cellCount - 16 * k)

/-- A tap of the cell is judged open (R131), or suspect or open. -/
def State.tapOpen (s : State) (c : Nat) : Bool := (s.tap (c / 16) (c % 16)).open_ || (s.tap (c / 16) (c % 16 + 1)).open_
def State.tapDoubt (s : State) (c : Nat) : Bool :=
  s.tapOpen c || (s.tap (c / 16) (c % 16)).suspect || (s.tap (c / 16) (c % 16 + 1)).suspect

/-- The cell's result of this instant is set aside (12 R300). -/
def State.aside (s : State) (c at_ : Nat) : Bool := decide ((s.cell c).asideFrom ≤ at_ ∧ at_ ≤ (s.cell c).asideTo)

/-- A cell's primary voltage in a sweep, µV; a cell with an open wire has none (R131). -/
def State.cellV (s : State) (w : Sweep) (c : Nat) : Option Int := if s.tapOpen c then none else w.cellP c

/-- The inputs of the station that were tested at an instant: the mask of the last test ordered before it. -/
def StationM.tested (m : StationM) (at_ : Nat) : Nat := (m.tests.find? (fun e => decide (e.1 ≤ at_))).elim 0 (fun e => e.2)

/-- A test current flows on a tap of channel i in a result of that instant. -/
def StationM.underTest (m : StationM) (at_ i : Nat) : Bool :=
  m.tested at_ / 2 ^ i % 2 == 1 || m.tested at_ / 2 ^ (i + 1) % 2 == 1

/-- The cells an input's wire serves. -/
def wireCells (k t : Nat) : List Nat :=
  if t = 0 then [16 * k] else if t = 16 then [16 * k + 15] else [16 * k + t - 1, 16 * k + t]

/-- The substitute voltage shown for a cell with an open wire, times 2, µV (R131): half the pair sum for an inside tap, the
stack less the other cells for an end tap. -/
def State.substitute2 (s : State) (w : Sweep) (c : Nat) : Int :=
  let k := c / 16
  let i := c % 16
  let raw (j : Nat) : Int := (w.prim1 k).elim 0 (fun p => p.cells.getD j 0)
  let rest := sumI ((List.range (s.usedOf k)).map (fun j => if j = i then 0 else raw j))
  if (s.tap k i).open_ ∧ i ≠ 0 then raw (i - 1) + raw i
  else if (s.tap k (i + 1)).open_ ∧ i + 1 < s.usedOf k then raw i + raw (i + 1)
  else 2 * ((w.prim1 k).elim 0 (fun p => 10 * p.stack) - rest)

/-! ### Checks of a sweep (R118, R124, R126) -/

/-- The run of a condition: counts to 10, then holds 10 until it is recorded (11) or broken. -/
def run10 (n : Nat) (holds : Bool) : Nat := if !holds then 0 else if n < 10 then n + 1 else n

/-- A result of an instant with test current on a tap of the cell: it and the two instants after it are set aside. -/
def Cell.setAside (x : Cell) (at_ : Nat) : Cell :=
  if at_ ≤ x.asideTo then { x with asideFrom := min x.asideFrom at_, asideTo := max x.asideTo (at_ + 500000) }
  else { x with asideFrom := at_, asideTo := at_ + 500000 }

/-- Set-aside marks from the sweep's results and the late ones. -/
def State.markAside (s : State) (w : Sweep) : State :=
  let results := (List.range 32).filterMap (fun k => (w.prim1 k).map (fun p => (k, w.at_, p)))
    ++ s.ring.late.filterMap (fun l => l.prim.map (fun p => (l.station, l.at_, p)))
  let tested := results.filter (fun e => stOwt e.2.2.status)
  let mark (c : Nat) (x : Cell) : Cell := tested.foldl (fun y e =>
    if e.1 = c / 16 ∧ (s.stM e.1).underTest e.2.1 (c % 16) = true then y.setAside e.2.1 else y) x
  { s with meas := { s.meas with cells := mapIdxL mark s.meas.cells } }

/-- The voltages the module reports for display: those of cells with an open wire are substitutes, flagged (R131). -/
def State.showCells (s : State) (w : Sweep) : State :=
  let upd (c : Nat) (x : Cell) : Cell :=
    if s.cellCount ≤ c then x
    else if s.tapOpen c then { x with shown := Sys2Proof.Config.quot (s.substitute2 w c) 2, subst := true }
    else { x with shown := (w.cellP c).getD x.shown, subst := false }
  { s with meas := { s.meas with cells := mapIdxL upd s.meas.cells } }

/-- Sum checks and unused channels of one station. -/
def State.sumCheck (s : State) (w : Sweep) (k : Nat) (m : StationM) : StationM :=
  let used := s.usedOf k
  let gone := (List.range used).any (fun i => s.tapOpen (16 * k + i))
  let m := match w.prim1 k with
    | some p =>
      let vs := (List.range used).map (fun i => p.cells.getD i 0)
      let d := sumI vs - 10 * p.stack
      let off := gone || vs.any (fun v => decide (v = 8388607 ∨ v = -8388608))
      let un := mapIdxL (fun i (n : Nat) => if i < used then 0
        else run10 n (decide (5000 < mag (p.cells.getD i 0)))) m.unused
      { m with
        stack := p.stack, unused := un
        sumRun := if off then m.sumRun else m.sumRun.set 0 (run10 (m.sumRun.getD 0 0) (decide (500 * Fld.measCfg_SUM_P s.cfg < mag d)))
        sumDiff := if off then m.sumDiff else m.sumDiff.set 0 d }
    | none => m
  match w.sec1 k with
  | some q =>
    let vs := (List.range used).map (fun i => q.cells.getD i 0)
    let d : Int := 1250 * (sumN vs : Nat) - 2000 * (q.stack : Nat)
    if gone || vs.any (fun v => decide (v = 4095)) then m
    else { m with
      sumRun := m.sumRun.set 1 (run10 (m.sumRun.getD 1 0) (decide (2000 * Fld.measCfg_SUM_S s.cfg < mag d)))
      sumDiff := m.sumDiff.set 1 d }
  | none => m

/-- Deviations from the station's median, times 2, µV (R126). -/
def State.deviations (s : State) (w : Sweep) : List (Option Int) :=
  (List.range s.cellStations).foldl (fun acc k =>
    let cs := (List.range 16).map (fun i => if i < s.usedOf k && !s.aside (16 * k + i) w.at_ then s.cellV w (16 * k + i) else none)
    let med := median2 (cs.filterMap id)
    acc ++ cs.map (fun v => v.map (fun x => 2 * x - med))) []

/-- A split at an inside tap between now and some sweep of the last 10 s (R126). -/
def State.split (s : State) (now : List (Option Int)) (c : Nat) : Bool :=
  let lim : Int := 2000 * Fld.measCfg_SPLIT s.cfg
  s.meas.devs.any (fun e => match now.getD (c - 1) none, now.getD c none, e.2.getD (c - 1) none, e.2.getD c none with
    | some a, some b, some a0, some b0 =>
      decide (lim < a - a0) && decide (lim < b0 - b) && decide (mag ((a - a0) - (b0 - b)) < 4000)
    | _, _, _, _ => false)

/-- Taps newly split-suspect: the event, and a test ordered (R126, R127). -/
def State.splitCheck (s : State) (w : Sweep) : State :=
  let now := s.deviations w
  let t := (List.range (16 * s.cellStations)).foldl (fun u c =>
    let k := c / 16
    let i := c % 16
    if decide (0 < i ∧ i < u.usedOf k) && !(u.tap k i).suspect && !(u.tap k i).open_ && s.split now c then
      (u.onTap k i (fun x => { x with suspect := true, ordered := true })).raise Ev.senseTapSuspect [c, k]
    else u) s
  { t with meas := { t.meas with devs := (w.at_, now) :: t.meas.devs.filter (fun e => decide (w.at_ < e.1 + 10000000000)) } }

/-! ### Currents of a sweep (R121, R123, R137) -/

/-- The third opinion in mA: current station 1's current where it is mapped and not itself the primary, else the primary's own
S_I. -/
def State.thirdOpinion (s : State) (w : Sweep) : Option Int :=
  let i := s.primaryCs
  if i = 0 ∧ s.mapped 33 = true then w.current 1 else (w.sec1 (32 + i)).map (fun q => 10 * q.i)

/-- A late current of the ledger's path above REST breaks the rest from its own sweep onward (R137): the sweeps after it and before
this one count. -/
def State.lateRest (s : State) (w : Sweep) : State :=
  s.ring.late.foldl (fun t l => match l.prim with
    | some p => if l.station = 32 + t.ledgerPath ∧ t.ledgerPath < 2 ∧ Fld.balCfg2_REST t.cfg * 1000 < mag p.i then
        { t with meas := { t.meas with rest := min t.meas.rest (w.at_ - l.at_ - t.fabric.sweepUs * 1000) } } else t
    | none => t) s

/-- e(t) is flowing. -/
def State.exciting (s : State) : Bool := decide (s.est.imp.phase = .settling ∨ s.est.imp.phase = .measuring)

/-- The excitation at an instant, nA. -/
def State.excitation (s : State) (t : Nat) : Int :=
  if s.exciting then excite s.est.imp.seg s.est.imp.peakNa ((t : Int) - s.est.imp.ts) else 0

/-- The currents of a sweep: sums of the second, rest, the last second's primary currents less the excitation. -/
def State.currentSweep (s : State) (w : Sweep) : State :=
  let s := s.lateRest w
  let path := s.ledgerPath
  let vals := [w.current s.primaryCs, w.fg, s.thirdOpinion w, w.current 0, w.current 1]
  let i := w.current path
  let period := s.fabric.sweepUs * 1000
  let ex := Sys2Proof.Config.quot (s.excitation w.at_) 1000000
  let m := s.meas
  let add (l : List Int) : List Int := mapIdxL (fun j (x : Int) => match vals.getD j none with | some v => x + v | none => x) l
  let cnt (l : List Nat) : List Nat := mapIdxL (fun j (x : Nat) => match vals.getD j none with | some _ => x + 1 | none => x) l
  { s with meas := { m with
      path := path
      curSum := add m.curSum, curN := cnt m.curN
      rest := if path = 3 then 0 else match i with
        | some v => if mag v ≤ Fld.balCfg2_REST s.cfg * 1000 then m.rest + period else 0
        | none => m.rest
      iLast := match i with | some v => some v | none => if path = 3 then none else m.iLast
      iHist := match w.current s.primaryCs with
        | some v => ((v - ex) :: m.iHist).take (1000000 / s.fabric.sweepUs)
        | none => m.iHist } }

/-- Sums of the second for R125 and the lowest cell for R137. -/
def State.cellSums (s : State) (w : Sweep) : State :=
  let n := s.cellCount
  let f (c : Nat) (x : Cell) : Cell :=
    if n ≤ c || s.aside c w.at_ then x
    else match s.cellV w c, w.cellS c with
      | some p, some q => { x with sumP := x.sumP + p, sumS := x.sumS + q, n := x.n + 1 }
      | _, _ => x
  let low := minI ((List.range n).filterMap (fun c =>
    if s.aside c w.at_ || s.tapOpen c || (s.cell c).flagP then none else w.cellP c))
  { s with meas := { s.meas with
      cells := mapIdxL f s.meas.cells
      lows := match low with
        | some v => (w.at_, v) :: s.meas.lows.filter (fun e => decide (w.at_ < e.1 + 1000000000))
        | none => s.meas.lows } }

/-- The station ring timeout in ns (04 R113). -/
def State.staTimeout (s : State) : Nat := Fld.ringCfg_STA_TIMEOUT s.cfg * 10000000

/-- When a station was heard, and what was commanded on meanwhile. -/
def State.hear (s : State) (w : Sweep) (k : Nat) (m : StationM) : StationM :=
  let m := { m with wasOn := Nat.lor m.wasOn (s.station k).bal }
  if (w.prim1 k).isSome || (w.sec1 k).isSome then
    { m with heardAt := w.at_, unheard := if s.staTimeout < w.at_ - m.heardAt ∧ m.heardAt ≠ 0 then m.unheard + (w.at_ - m.heardAt) else m.unheard }
  else m

/-- The measurement part of a collection deadline. -/
def State.measSweep (s : State) (w : Sweep) : State :=
  let s := s.markAside w
  let upd (k : Nat) (m : StationM) : StationM := if k < s.cellStations then s.sumCheck w k (s.hear w k m) else m
  let s := { s with meas := { s.meas with stations := mapIdxL upd s.meas.stations } }
  ((((s.splitCheck w).currentSweep w).cellSums w)).showCells w

/-! ### Balancing (R134, R136, R138, R139) -/

/-- RISE of a sensor's zone over a time, 0.01 °C (10 R271). -/
def State.rise (s : State) (z : Nat) (ns : Nat) : Int := Sys2Proof.Config.quot (Fld.tzHi_RISE s.cfg z * ns : Nat) 1000000000

/-- The high-side substitute of a failed sensor in zone z (10 R271, R272). -/
def State.substitute (s : State) (z : Nat) (x : Sensor) : Int :=
  if x.core then x.lastHi else min (x.lastHi + s.rise z (s.now - x.lastAt)) (100 * Fld.tzHi_TRIP_HI s.cfg z)

/-- A thermistor of the station reads above TMAX, or its substitute does (R139). -/
def State.hotForBalancing (s : State) (w : Sweep) (k : Nat) : Bool :=
  let lim : Int := 100 * Fld.balCfg2_TMAX s.cfg
  (List.range 8).any (fun i =>
    let t := 8 * k + i
    let x := s.therm.sensors.getD t Sensor.reset
    (match w.thP t with | some v => decide (lim < v) | none => false)
    || (match w.thS t with | some v => decide (lim < v) | none => false)
    || (x.failed && decide (lim < (match s.zoneOf t with | some z => s.substitute z x | none => x.lastHi))))

/-- A channel stops at this sweep (R139). -/
def State.balStop (s : State) (w : Sweep) (hot : List Bool) (c : Nat) : Bool :=
  let x := s.cell c
  s.safety.safe || x.leadOpen || (s.station (c / 16)).pLost || hot.getD (c / 16) false || s.tapDoubt c
  || (!s.aside c w.at_ && (x.flagP || match w.cellP c with
    | some v => decide (v < 1000 * Fld.balCfg2_FLOOR s.cfg)
    | none => true))

/-- Cells by a key, largest key first, the lower cell first among equals. -/
def insertBy (key : Nat → Int) (c : Nat) : List Nat → List Nat
  | [] => [c]
  | d :: l => if key d < key c then c :: d :: l else d :: insertBy key c l

def sortBy (key : Nat → Int) (l : List Nat) : List Nat := l.foldl (fun m c => insertBy key c m) []

/-- Takes cells in order while the station and string budgets last (R136). -/
def letIn (maxCh maxStr : Nat) : List Nat → List Nat → List Nat
  | [], on => on
  | c :: l, on =>
    if on.length < maxStr ∧ (on.filter (fun d => decide (d / 16 = c / 16))).length < maxCh then letIn maxCh maxStr l (on ++ [c])
    else letIn maxCh maxStr l on

/-- The balancing part of a collection deadline: stops, budgets, admissions, masks. In voltage mode a channel starts only at a decision: between
decisions it keeps its state (R137). A change of MODE leaves no candidate of the old mode (R139). -/
def State.balSweep (s : State) (w : Sweep) : State :=
  let n := s.cellCount
  let mode := Fld.balCfg_MODE s.cfg
  let s := if mode = s.meas.balMode then s
    else { s with meas := { s.meas with balMode := mode, cells := s.meas.cells.map (fun x => { x with cand := false, target := none }) } }
  let hot := (List.range s.cellStations).map (fun k => s.hotForBalancing w k)
  let grown (c : Nat) : Bool := match (s.cell c).target with
    | some (base, amount) => decide (amount ≤ s.ledger.bal.b.getD c 0 - base)
    | none => false
  let cand (c : Nat) : Bool := decide (mode ≠ 0) && (s.cell c).cand && !(decide (mode = 2) && grown c)
  let stop := (List.range n).map (fun c => s.balStop w hot c)
  let keep := (List.range n).filter (fun c => (s.cell c).on && cand c && !stop.getD c true)
  let kept := letIn (Fld.balCfg_MAX_CH s.cfg) (Fld.balCfg_MAX_STR s.cfg) (sortBy (fun c => -((s.cell c).order : Int)) keep) []
  let waits := (List.range n).filter (fun c => !(s.cell c).on && cand c && !stop.getD c true && !s.aside c w.at_)
  let decided := decide (mode ≠ 1) || decide (s.now ≤ s.meas.decidedAt + 1000 * s.fabric.sweepUs)
  let on := if decided then letIn (Fld.balCfg_MAX_CH s.cfg) (Fld.balCfg_MAX_STR s.cfg) (sortBy (fun c => (s.cell c).excess) waits) kept
    else kept
  let upd (c : Nat) (x : Cell) : Cell :=
    if n ≤ c then x
    else if on.contains c then
      if x.on then x else { x with on := true, onAt := w.at_, order := s.meas.order + 1 }
    else { x with on := false, cand := cand c, target := if cand c then x.target else none }
  let t := { s with meas := { s.meas with
      cells := mapIdxL upd s.meas.cells, order := s.meas.order + 1
      waiting := (waits.filter (fun c => !on.contains c)).length } }
  (List.range s.cellStations).foldl (fun u k =>
    let mask := sumN ((on.filter (fun c => decide (c / 16 = k))).map (fun c => 2 ^ (c % 16)))
    if (u.station k).bal = mask || !(u.station k).present then u else u.command k 1 mask) t

end Sys2Proof.Machine
end

