-- ==== Sys2Proof/Machine/EstOps.lean ====
section
/-! DEFINITION. Estimation and impedance (06): one sweep of the estimators, segments of a run. -/
namespace Sys2Proof.Machine

open Sys2Proof.Config (quot)

def State.estCell (s : State) (c : Nat) : EstCell := s.est.cells.getD c EstCell.reset

/-- The charge in nC that a balancing switch draws at a voltage in µV over a time in ns: 33 Ω (R133, R146). -/
def balCharge (uV : Int) (ns : Nat) : Int := quot (uV * ns) 33000000

/-- The cell's voltage in a sweep, µV: primary, else secondary, else the last prediction. -/
def State.voltNow (s : State) (w : Sweep) (c : Nat) : Int :=
  match s.cellV w c, (if s.tapOpen c then none else w.cellS c) with
  | some v, _ => v
  | none, some v => v
  | none, none => ((s.estCell c).hist.head?).elim 0 (fun h => quot h.2.1 1000)

/-- Surface temperature of a cell, 0.01 °C (R160): its thermistor in the sweep, else that sensor's last value. -/
def State.tsurf (s : State) (w : Sweep) (c : Nat) : Int :=
  match s.thermistorOf c with
  | some t => (w.thP t).getD (s.therm.sensors.getD t Sensor.reset).lastHi
  | none => Sensor.reset.lastHi

/-! ### One sweep of one cell (R145 to R154) -/

/-- The voltage an update uses, µV, its noise in µV rms and whether it is the secondary one (R145, Table 6.3). -/
def State.estVoltage (s : State) (w : Sweep) (c : Nat) : Option (Int × Nat × Bool) :=
  let allow := s.estModel.allow
  if (s.station (c / 16)).pLost || s.tapOpen c || s.aside c w.at_ then none
  else match (if (s.cell c).flagP then none else w.cellP c) with
    | some v => some (v, 40 + allow, false)
    | none =>
      if Fld.estCfg_SEC s.cfg && !(s.cell c).flagS then (w.cellS c).map (fun v => (v, 3000 + allow, true)) else none

/-- The change of soc becomes correction charge in µC (R157). -/
def EstCell.correct (x : EstCell) (m : CellModel) : EstCell :=
  { x with corr := x.corr + quot ((m.soc - x.model.soc) * x.model.cap) 1000000000, model := m }

/-- One measurement update with a voltage in µV against a prediction in nV, its noise and its sensitivity to soc; after 100 large
innovations in a row the cell is reseeded, with its old and new soc as the second answer (R148, R154). -/
def EstCell.measured (b : ModelBlock) (x : EstCell) (volt : Int) (noise : Nat) (pred hs : Int) (at_ : Nat) : EstCell × Option (Int × Int) :=
  let innov := 1000 * volt - pred
  let run := if x.model.large hs noise innov then x.innovRun + 1 else 0
  let y := { x.correct (x.model.update hs noise innov) with innovRun := run }
  if 100 ≤ run then
    let m := b.reseed (1000 * volt) y.model
    ({ y.correct m with innovRun := 0, st := .converging, since := at_ }, some (y.model.soc, m.soc))
  else (y, none)

/-- A capacity of an earlier second takes effect (R159): cap an eighth of the way to the measured one, soc × cap unchanged. -/
def CellModel.withCap (m : CellModel) (measured span : Int) : CellModel :=
  let cap := m.cap + quot (measured - m.cap) 8
  { m with cap := cap, soc := quot (m.soc * m.cap) cap, capVar := Sys2Proof.Config.capVarPair span m.capVar }

/-- A fit of an earlier second takes effect (R177): a quarter of the way, its resistances referred to the present core temperature. -/
def ModelBlock.withFit (b : ModelBlock) (f : Fit) (tfit : Int) (m : CellModel) : CellModel :=
  let r0 := b.r0At m
  let rct := b.rctAt m
  { m with
    r0 := r0 + quot (arrhenius b.b0 f.par.r0 m.tcore tfit - r0) 4
    rct := rct + quot (arrhenius b.bct f.par.rct m.tcore tfit - rct) 4
    tau1 := m.tau1 + quot (f.par.tau1 - 1000 * m.tau1) 4000
    r2 := m.r2 + quot (f.par.r2 - m.r2) 4
    tau2 := m.tau2 + quot (f.par.tau2 - m.tau2) 4
    tspec := m.tcore
    r0Var := Sys2Proof.Config.r0VarFit f.resid m.r0Var
    rctVar := Sys2Proof.Config.rctVarFit f.resid m.rctVar }

/-- What was computed in an earlier second takes effect (R149). -/
def EstCell.applyNext (b : ModelBlock) (x : EstCell) (at_ : Nat) : EstCell :=
  match x.next with
  | none => x
  | some p =>
    if at_ / 1000000000 ≤ p.at_ / 1000000000 then x
    else
      let m := match p.cap with
        | some (cm, span) => x.model.withCap cm span
        | none => x.model
      let m := match p.fit with
        | some (f, t) => b.withFit f t m
        | none => m
      { x with model := m, next := none }

/-- A late result of the cell: primary, or secondary where the primary is missing and SEC is set; none where Table 6.3 leaves a
prediction only (R145, R148). -/
def State.lateVoltage (s : State) (l : Late) (c : Nat) : Option (Int × Nat) :=
  let allow := s.estModel.allow
  let i := c % 16
  let fits (st info : Byte) : Bool := !(stExpired st || stFault st || infoUnconf info)
    && !(stOwt st && (s.stM (c / 16)).underTest l.at_ i)
  if s.tapOpen c || s.aside c l.at_ || (s.station (c / 16)).pLost then none
  else match l.prim with
  | some p =>
    let v := p.cells.getD i (-8388608)
    if fits p.status p.info && decide (v ≠ -8388608 ∧ v ≠ 8388607) && !(s.cell c).flagP then some (v, 40 + allow) else none
  | none => match l.sec with
    | some q =>
      let v := q.cells.getD i 4095
      if fits q.status q.info && decide (v ≠ 4095) && Fld.estCfg_SEC s.cfg && !(s.cell c).flagS then some (1250 * v, 3000 + allow) else none
    | none => none

/-- Late results, oldest instant first (R148): against the stored prediction and sensitivity, with the present covariance. -/
def State.applyLate (s : State) (w : Sweep) (late : List Late) (c : Nat) (x : EstCell) : EstCell × List (Int × Int) :=
  late.foldl (fun y l =>
    if l.station ≠ c / 16 then y
    else match s.lateVoltage l c, y.1.hist.find? (fun h => decide (h.1 = l.at_)) with
      | some (v, noise), some h =>
        let z := y.1.measured s.estModel v noise h.2.1 h.2.2 w.at_
        (z.1, y.2 ++ z.2.toList)
      | _, _ => y) (x, [])

/-- The charge of balancing that the slot implies over a sweep, nC (R146). -/
def State.implied (s : State) (w : Sweep) (c : Nat) : Int :=
  match w.prim1 (c / 16) with
  | some p =>
    if p.bal.toNat / 2 ^ (c % 16) % 2 = 1 then
      quot (balCharge (s.voltNow w c) (s.fabric.sweepUs * 1000) * (s.stM (c / 16)).duty) 10000
    else 0
  | none => 0

/-- The time that the charge of the present sweep covers, ns. -/
def State.estDt (s : State) : Nat := if s.est.predTo = 0 then s.fabric.sweepUs * 1000 else s.ledger.booked - s.est.predTo

/-- The string charge of the sweep's own interval, and that of the gap before it with its length, nC and ns (R147). -/
def State.estCharges (s : State) (w : Sweep) (dq : Int) : Int × Int × Nat :=
  let period := s.fabric.sweepUs * 1000
  let total := dq + s.est.gapQ
  if s.estDt ≤ period then (total, 0, 0)
  else
    let own := match w.current s.ledgerPath with
      | some i => quot (i * period) 1000
      | none => quot (total * period) s.estDt
    (own, total - own, s.estDt - period)

/-- A prediction over an interval before the sweep's own, at constant current (R147, R155, R156). -/
def EstCell.predictGap (b : ModelBlock) (x : EstCell) (dt : Nat) (q : Int) : EstCell :=
  if dt = 0 ∧ q = 0 then x else { x with model := b.predict dt q x.model, booked := x.booked + q }

/-- What an outage left to be made up is predicted over first, with the core temperature's step (R156). -/
def EstCell.makeUp (b : ModelBlock) (x : EstCell) (tsurf : Int) : EstCell :=
  if x.lag = 0 ∧ x.away = 0 then x
  else
    let i := if x.lag = 0 then 0 else quot (1000 * x.away) x.lag
    let y := x.predictGap b x.lag x.away
    { y with model := b.coreStep x.lag i tsurf y.model, lag := 0, away := 0 }

/-- The predictions of a sweep whose charge is known, and the cell's current in mA (R147, R149). -/
def State.estPredict (s : State) (w : Sweep) (c : Nat) (dq : Int) (x : EstCell) : EstCell × Int :=
  let b := s.estModel
  let imp := s.implied w c
  let (own, gap, gapDt) := s.estCharges w dq
  let y := (x.makeUp b (s.tsurf w c)).predictGap b gapDt gap
  let cell := own - imp + y.extra
  let dt := s.estDt - gapDt
  let i := if dt = 0 then 0 else quot (1000 * cell) dt
  ({ y with model := b.predict dt cell y.model, booked := y.booked + cell, extra := 0, implied := y.implied + imp }, i)

/-- The step of the core temperature (R149, R160). -/
def State.estCore (s : State) (w : Sweep) (c : Nat) (i : Int) (x : EstCell) : EstCell :=
  { x with model := s.estModel.coreStep (s.fabric.sweepUs * 1000) i (s.tsurf w c) x.model }

/-- The prediction of an instant is kept for late results (R148). -/
def EstCell.keepPred (b : ModelBlock) (x : EstCell) (at_ : Nat) (i : Int) : EstCell :=
  { x with hist := ((at_, b.term i x.model, b.slopeOf x.model) :: x.hist).take 64 }

/-- The measurement update and the innovation test (R149, R154). -/
def State.estUpdate (s : State) (w : Sweep) (c : Nat) (i : Int) (x : EstCell) : EstCell × Option (Int × Int) :=
  match s.estVoltage w c with
  | some (v, noise, sec) =>
    let pred := s.estModel.term i x.model
    let y := x.measured s.estModel v noise pred (s.estModel.slopeOf x.model) w.at_
    ({ y.1 with innov := quot (1000 * v - pred) 1000, predictOnly := false, secUsed := sec }, y.2)
  | none => ({ x with innov := 0, predictOnly := true, secUsed := false }, none)

/-- Validity (R153, Table 6.5). The cells of a lost station become INVALID at the cycle boundary (04 R111). -/
def State.estValidity (s : State) (w : Sweep) (c : Nat) (x : EstCell) : EstCell :=
  let usable := (s.estVoltage w c).isSome
  let x := { x with usable := if usable then x.usable + 1 else 0, usedAt := if usable ∨ x.usedAt = 0 then w.at_ else x.usedAt }
  let b := x.model.bounds.soc
  let lim := 10 * Fld.estCfg_VALID_B s.cfg
  let lost := s.tapOpen c || decide (x.usedAt + 10000000000 ≤ w.at_)
  match x.st with
  | .invalid => if 100 ≤ x.usable ∧ !lost then { x with st := .converging, since := w.at_ } else x
  | .converging =>
    if lost then { x with st := .invalid, since := w.at_, usable := 0 }
    else if b ≤ lim ∧ x.since + 60000000000 ≤ w.at_ ∧ (s.block 1).isSome = true then { x with st := .valid, since := w.at_ } else x
  | .valid =>
    if lost then { x with st := .invalid, since := w.at_, usable := 0 }
    else if lim + 100 < b then { x with st := .converging, since := w.at_ } else x

/-- At a cycle boundary the cells of a station that has been lost are flagged INVALID (04 R111). -/
def State.estLost (s : State) : State :=
  let flag (c : Nat) (x : EstCell) : EstCell :=
    if (s.station (c / 16)).pLost && decide (x.st ≠ .invalid) then { x with st := .invalid, since := s.now, usable := 0 } else x
  s.onEst (fun e => { e with cells := mapIdxL flag e.cells, pub := mapIdxL flag e.pub })

/-- The anchor farthest in soc from a new one. -/
def farthest (l : List Anchor) (soc : Int) : Option Anchor :=
  l.foldl (fun m a => match m with
    | some b => if mag (b.soc - soc) < mag (a.soc - soc) then some a else some b
    | none => some a) none

/-- The anchors kept: the lowest and the highest. -/
def keepAnchors (l : List Anchor) (a : Anchor) : List Anchor :=
  let lo := l.foldl (fun m b => if b.soc < m.soc then b else m) a
  let hi := l.foldl (fun m b => if m.soc < b.soc then b else m) a
  if lo = hi then [lo] else [lo, hi]

/-- An anchor of the sweep and what it pairs with (R158, R159). -/
def State.estAnchor (s : State) (w : Sweep) (x : EstCell) : EstCell :=
  if x.model.bounds.soc ≤ 100 ∧ 1800000000000 ≤ s.meas.rest then
    let a : Anchor := ⟨x.model.soc, x.booked⟩
    match farthest x.anchors a.soc with
    | some b =>
      if 400000000 ≤ mag (a.soc - b.soc) ∧ s.now ≥ (x.capAt.elim 0 (fun t => t + day)) then
        { x with
          anchors := [a], capAt := some w.at_
          next := some { (x.next.getD ⟨w.at_, none, none⟩) with
            at_ := w.at_, cap := some (quot ((a.q - b.q) * 1000000) (a.soc - b.soc), a.soc - b.soc) } }
      else { x with anchors := keepAnchors x.anchors a }
    | none => { x with anchors := [a] }
  else x

/-- One cell's sweep (R149); the second answer is its reseeds, old and new soc. -/
def State.estCellSweep (s : State) (w : Sweep) (late : List Late) (c : Nat) (x : EstCell) : EstCell × List (Int × Int) :=
  let (x, early) := s.applyLate w late c (x.applyNext s.estModel w.at_)
  let (y, i) := match s.est.dqNow with
    | some dq => s.estPredict w c dq x
    | none => (x, Sys2Proof.Config.unknownCurrent c w.at_)
  let y := s.estCore w c i y
  let y := if s.est.dqNow.isSome then y.keepPred s.estModel w.at_ i else y
  let (z, now) := s.estUpdate w c i y
  let v := s.estValidity w c z
  (if s.est.dqNow.isSome then s.estAnchor w v else v, early ++ now.toList)

/-- An engine serves this cell and is in service. -/
def State.estServes (s : State) (c : Nat) : Bool := decide (c < s.cellCount) && s.est.running.getD (c / 128) false

/-- A cell whose engine is out of service: the charge and the time of the sweep are left to be made up (R156). -/
def State.estAway (s : State) (w : Sweep) (c : Nat) (x : EstCell) : EstCell := match s.est.dqNow with
  | some dq =>
    let imp := s.implied w c
    { x with away := x.away + dq + s.est.gapQ + x.extra - imp, extra := 0, implied := x.implied + imp, lag := x.lag + s.estDt }
  | none => x

def insertLate (l : Late) : List Late → List Late
  | [] => [l]
  | x :: r => if l.at_ < x.at_ then l :: x :: r else x :: insertLate l r

/-- soc in 0.01 %. -/
def soc100 (soc : Int) : Int := quot soc 100000

/-- Validation of a core temperature ends when its bound exceeds 5 K (R161). -/
def EstCell.coreWatch (x : EstCell) : EstCell := { x with coreOk := x.coreOk && decide (x.model.bounds.tcore ≤ 500) }

/-- Validations of core temperatures that came or went: one event each for the string (R161). -/
def State.tellCores (s : State) (old new : List EstCell) : State :=
  let ok (l : List EstCell) (c : Nat) : Bool := (l.getD c EstCell.reset).coreOk
  let on := ((List.range 512).filter (fun c => ok new c && !ok old c)).length
  let off := ((List.range 512).filter (fun c => !ok new c && ok old c)).length
  let t := if on = 0 then s else s.raise Ev.coreTValidated [on]
  if off = 0 then t else t.raise Ev.coreTWithdrawn [off]

/-- The capacities that this sweep's anchors measured, as changes in µC (R159). -/
def State.capChanges (s : State) (at_ : Nat) : List Int :=
  (List.range 512).filterMap (fun c =>
    if (s.estCell c).capAt = some at_ then ((s.estCell c).next.bind (fun p => p.cap)).map (fun e => quot (e.1 - (s.estCell c).model.cap) 8) else none)

/-- The estimator part of a collection deadline (R149): every cell, then the events. -/
def State.estSweep (s : State) (w : Sweep) : State :=
  let late := s.ring.late.foldl (fun m l => insertLate l m) []
  let res := mapIdxL (fun c (x : EstCell) => if s.estServes c then s.estCellSweep w late c x else (s.estAway w c x, [])) s.est.cells
  let cells := res.map (fun p => p.1.coreWatch)
  let path := s.ledgerPath
  let iso := s.est.isoDone && decide (7200000000000 ≤ s.meas.rest)
  let t := s.onEst (fun e => { e with
    cells := cells, release := some w.at_, isoDone := iso
    predTo := if e.dqNow.isSome then s.ledger.booked else e.predTo
    iSweep := (w.current path).getD 0, iSrc := if (w.current path).isSome then path else 3 })
  let caps := t.capChanges w.at_
  let t := (t.onEst (fun e => { e with
    capN := e.capN + caps.length, capMax := caps.foldl (fun m d => if mag m < mag d then d else m) e.capMax })).tellCores s.est.cells cells
  (List.range 512).foldl (fun u c =>
    (res.getD c (EstCell.reset, [])).2.foldl (fun v e => v.raise Ev.estReseed [c, soc100 e.1, soc100 e.2]) u) t

/-! ### Impedance runs (R163 to R174) -/

/-- Segments of Table 6.8: window, settling (ns), number of windows. -/
def segWindow (seg : Nat) : Nat := [60000000000, 10000000000, 1000000000, 100000000].getD seg 100000000
def segSettle (seg : Nat) : Nat := [10000000000, 10000000000, 1000000000, 100000000].getD seg 100000000
def segWindows (seg : Nat) : Nat := [1, 5, 29, 199].getD seg 199

/-- Rated string current, A (11 R289). -/
def State.rated (s : State) : Nat := Fld.dispRate_I_RATED s.cfg

/-- The headroom (R167), nA: the active limit in the direction of the set-point less its magnitude. -/
def State.headroom (s : State) : Int :=
  (if 0 ≤ s.loop.target then s.disp.limC else -s.disp.limD) - mag s.loop.target

/-- The measured ripple, mA: the largest deviation from the mean of the last second. -/
def State.ripple (s : State) : Int :=
  let l := s.meas.iHist
  if l = [] then 0 else
    let mean := quot (sumI l) l.length
    (maxI (l.map (fun i => (mag (i - mean) : Int)))).getD 0

/-- The excitation peak of R167, nA. -/
def State.impPeak (s : State) : Int :=
  min (min ((Fld.impCfg_AMP s.cfg * s.rated * 1000000 : Nat) : Int) s.headroom)
    ((Fld.impCfg_RIPPLE s.cfg * s.rated * 1000000 : Nat) - 1000000 * s.ripple)

/-- A segment may start (R167, R173): the stage runs, no zone is at step 4 or deeper, the peak is 0.5 % of rated or more. -/
def State.impReady (s : State) : Bool :=
  decide (s.gate.stage = .run) && s.therm.zones.all (fun z => decide (z.hi < 4 ∧ z.lo < 4))
  && decide ((5000000 * s.rated : Nat) ≤ s.impPeak)

/-- LE2 fixes the segment (R166, R167, R170): peak, start instant, settling; the stations are armed before t_s. -/
def State.impStart (s : State) : State :=
  let peak := s.impPeak
  let p := quot (peak * 10000) (1000000000 * (max 1 s.rated : Nat))
  s.onImp (fun i =>
    let ts := atOrAfter (s.now + segSettle i.seg) 250000
    { i with
      phase := .settling, win := 0, ts := ts, armDue := true, waited := 0
      peakNa := peak, peak := p.toNat, minPeak := if i.minPeak = 0 ∨ p.toNat < i.minPeak then p.toNat else i.minPeak
      segPeaks := (i.segPeaks.take i.seg) ++ [(ts / 250000 % 65536, peak)]
      winSum := 0, winN := 0, prevMean := none, signs := [], spoiled := false })

/-- At a grid instant: the stations are armed within the last second before t_s, and the windows begin at t_s. -/
def State.impTick (s : State) (g : Nat) : State :=
  let i := s.est.imp
  match i.phase with
  | .settling =>
    let s := if i.armDue && decide (i.ts < g + 1000000000) then
        (s.lockin (i.seg * 2 ^ 28 + segWindows i.seg * 2 ^ 20 + i.ts / 250000 % 65536)).onImp (fun x => { x with armDue := false })
      else s
    if i.ts ≤ g then s.onImp (fun x => { x with
      phase := .measuring, winSum := 0, winN := 0, signs := [], spoiled := false
      tA := if i.seg = 0 then i.ts else x.tA
      soc0 := if i.seg = 0 then s.est.pub.map (fun c => soc100 c.model.soc) else x.soc0 })
    else s
  | _ => s

/-- The impedance part of a collection deadline: sums of the window and the run. -/
def State.impSweep (s : State) (w : Sweep) : State :=
  let i := s.est.imp
  match i.phase, w.current s.ledgerPath with
  | .idle, _ => s
  | ph, cur =>
    let v := cur.getD 0
    let inWin := decide (ph = .measuring)
    let sgn := decide (0 ≤ s.loop.target)
    let ts := (List.range s.cellCount).map (fun c => i.tsSum.getD c 0 + s.tsurf w c)
    s.onImp (fun x => { x with
      winSum := if inWin then x.winSum + v else x.winSum
      winN := if inWin && cur.isSome then x.winN + 1 else x.winN
      signs := if inWin && !x.signs.contains sgn then sgn :: x.signs else x.signs
      runSum := x.runSum + v, runN := if cur.isSome then x.runN + 1 else x.runN
      opens := x.opens ++ (List.range s.cellCount).filter (fun c => s.tapOpen c && !x.opens.contains c)
      tsSum := ts, tsN := x.tsN + 1 })

end Sys2Proof.Machine
end

