-- ==== Sys2Proof/Machine/LoopOps.lean ====
section
/-! DEFINITION. The stage and its loops (08, 09, 11): periods, limits, shares and shifts, the phase current loop, the demand,
captures. Instants of periods are in 0.5 ns, currents in nA, voltages in µV. -/
namespace Sys2Proof.Machine

open Sys2Proof.Config (quot nearest)

/-! ### Periods (08 R208, R209) -/

/-- The first base period that starts after the present nanosecond, and the time it starts. -/
def State.nextBase (s : State) : Nat := firstFrom s.fsw (2 * s.now + 2)
def State.baseNs (s : State) (k : Nat) : Nat := baseStart s.fsw k / 2

/-- SHIFT of the m-th link in service among N phases (R209, 09 R247): its first or second phase. -/
def shiftOf (n m phases : Nat) (second : Bool) : Nat :=
  let num := (2 * m + (if second then phases else 0)) * 500000
  let den := 2 * n * phases
  if den = 0 then 0 else (2 * num + den) / (2 * den)

def State.phase (s : State) (p : Nat) : PhaseLoop := s.loop.phases.getD p PhaseLoop.reset
def State.onPhase (s : State) (p : Nat) (f : PhaseLoop → PhaseLoop) : State :=
  s.onLoop (fun l => { l with phases := modAt l.phases p f })
def State.onPhases (s : State) (f : Nat → PhaseLoop → PhaseLoop) : State :=
  s.onLoop (fun l => { l with phases := mapIdxL f l.phases })
def State.rx (s : State) (p : Nat) : PhaseRx := s.gate.phases.getD p PhaseRx.reset
def State.onRx (s : State) (p : Nat) (f : PhaseRx → PhaseRx) : State :=
  s.onGate (fun g => { g with phases := modAt g.phases p f })
def State.receiver (s : State) (l : Nat) : Receiver := s.gate.receivers.getD l Receiver.reset
def State.onReceiver (s : State) (l : Nat) (f : Receiver → Receiver) : State :=
  s.onGate (fun g => { g with receivers := modAt g.receivers l f })

/-- Links and phases in service. -/
def State.linksOn (s : State) : List Nat := (List.range s.links).filter (fun l => (s.phase (2 * l)).active)
def State.phasesOn (s : State) : List Nat := (List.range (2 * s.links)).filter (fun p => (s.phase p).active)

/-- Place of a link among those in service. -/
def rankOf (l : Nat) : List Nat → Nat
  | [] => 0
  | x :: r => if x = l then 0 else rankOf l r + 1

/-- Every phase in service is given the SHIFT of the links now in service; `now` moves it there at once. -/
def State.spread (s : State) (now : Nat → Bool) : State :=
  let on := s.linksOn
  s.onPhases (fun p x =>
    if x.active then
      let t := shiftOf s.fsw (rankOf (p / 2) on) (2 * on.length) (decide (p % 2 = 1))
      { x with shiftTo := t, shift := if now p then t else x.shift }
    else x)

/-- The stage drives its switches: EDGE frames carry MODE 0b01 for the phases in service. -/
def Gate.switching (g : Gate) : Bool := match g.stage with
  | .ramp | .run | .stopDelay | .stopRamp => !g.modeOff
  | _ => false

/-- Every phase in use carries MODE 0b00. -/
def State.allOff (s : State) : Bool := (List.range (2 * s.links)).all (fun p => (s.phase p).offSent)

/-! ### Limits (11 R288, R289) -/

/-- A thermal limit at a step (10 R267). -/
def State.stepLimit (s : State) (rated : Int) (step : Nat) : Int :=
  quot (rated * (1000 - step * Fld.thrStep_STEP_PCT s.cfg : Nat)) 1000

/-- Magnitude limits in nA in the charge and the discharge direction, with their codes, highest rank first. -/
def State.limitTerms (s : State) : List (Nat × Option Int × Option Int) :=
  let zero : Option Int := some 0
  let on (b : Bool) : Option Int := if b then zero else none
  let off := match s.gate.stage with | .off | .armed | .tripped => true | _ => false
  let trip := s.therm.zones.any (fun z => decide (z.trip ≠ 0))
  let rated : Int := s.rated * 1000000000
  let pow (kw : Nat) : Option Int := if kw = 0 then none else some (quot (kw * 1000000000000000000) s.loop.vs)
  let bud (i : Nat) : Option Int := (s.disp.terms.getD i ⟨none, false⟩).eff
  let pos (x : Option Int) : Option Int := x.map (fun v => max 0 v)
  [(8, on off, on off), (7, on trip, on trip), (6, on s.therm.chgForbid, on s.therm.disForbid),
   (5, some (s.stepLimit rated s.therm.stepC), some (s.stepLimit rated s.therm.stepD)),
   (4, pos (s.disp.env.bind (fun e => e.rows.head?.map (fun r => 1000000 * r.1))),
       pos (s.disp.env.bind (fun e => e.rows.head?.map (fun r => -1000000 * r.2.1)))),
   (0, some (Fld.dispLim_I_CHG s.cfg * 1000000000 : Nat), some (Fld.dispLim_I_DIS s.cfg * 1000000000 : Nat)),
   (1, pos (pow (Fld.dispPlim_P_CHG s.cfg)), pos (pow (Fld.dispPlim_P_DIS s.cfg))),
   (2, pos (bud 0), pos (bud 1)), (3, pos (bud 2), pos (bud 3))]

/-- The smallest term below the rated current, the one of higher rank among equals; code 15 where there is none. -/
def bindTerm (rated : Int) (l : List (Nat × Option Int)) : Nat × Int :=
  l.foldl (fun m e => match e.2 with
    | some v => if v < m.2 then (e.1, v) else m
    | none => m) (15, rated)

/-- The limits are formed from the terms. -/
def State.formLimits (s : State) : State :=
  let ts := s.limitTerms
  let rated : Int := s.rated * 1000000000
  let c := bindTerm rated (ts.map (fun e => (e.1, e.2.1)))
  let d := bindTerm rated (ts.map (fun e => (e.1, e.2.2)))
  s.onDisp (fun x => { x with limC := c.2, limD := -d.2, bindC := c.1, bindD := d.1 })

/-! ### The reference (09 R237 to R239) -/

/-- Slope of the reference in nA per base period by ramp time in ms (Table 9.2), and in mA/s. -/
def State.slopeStep (s : State) (ramp : Nat) : Int := quot (s.rated * 250000000 : Nat) (ramp * s.fsw : Nat)
def State.slopeMa (s : State) (ramp : Nat) : Int := quot (s.rated * 1000000 : Nat) ramp

/-- The ramp time of the stage's state; none where it has no slope. -/
def State.rampTime (s : State) : Option Nat := match s.gate.stage with
  | .ramp => some (Fld.stageStart_RAMP s.cfg)
  | .run => if s.loop.tgtMode = 2 then none else some (Fld.loopCtl_RUN_RAMP s.cfg)
  | .stopRamp => some (Fld.stageStop_RAMP s.cfg)
  | _ => none

/-- From a towards b by at most d. -/
def toward (a b d : Int) : Int := if a + d < b then a + d else if b < a - d then a - d else b

/-! ### Injection (09 R255, Table 9.5) -/

/-- A test signal in 10^-9 of its base quantity, by cycles since its start (Table 9.5): a step; a chirp or tones, within ±AMP; a sequence of
±AMP with one bit every `decim` cycles, 32,767 bits long. -/
def injWave (wave amp lo hi decim cycles : Nat) : Int :=
  let a : Int := amp * 1000000
  match wave with
  | 0 => a
  | 2 => if Sys2Proof.Config.sequence (cycles / decim % 32767) then a else -a
  | _ => clampI (-a) a (Sys2Proof.Config.inject wave amp lo hi cycles)

/-- An injection on an engine runs while the stage is in RUN. -/
def State.injects (s : State) (e : Nat) : Bool := (s.loop.diags.getD e Diag.reset).injecting && decide (s.gate.stage = .run)

/-- The test signal of an engine at a node, given the node's base quantity; 0 where it acts elsewhere. -/
def State.injected (s : State) (e node : Nat) (base : Int) : Int :=
  if s.injects e && decide (Fld.diagInj_NODE s.cfg e = node) then
    let x := s.loop.diags.getD e Diag.reset
    let since := s.now - x.injFrom
    let cycles := if e < 2 then since * s.fsw / 250000 else since / (1000 * s.fabric.sweepUs)
    quot (base * injWave (Fld.diagInj_WAVE s.cfg e) (Fld.diagInj_AMP s.cfg e) (Fld.diagInj_F_LO s.cfg e) (Fld.diagInj_F_HI s.cfg e)
      (2 ^ Fld.diagCfg_DECIM s.cfg e) cycles) 1000000000
  else 0

/-- The base quantity of an engine's node. -/
def State.injBase (s : State) (e : Nat) : Int :=
  let node := Fld.diagInj_NODE s.cfg e
  let ir : Int := s.rated * 1000000000
  if e < 2 then
    if node = 0 then quot ir s.phasesOn.length
    else if node = 1 then 50000 * (s.receiver ((8 * e + Fld.diagCfg_PHASE s.cfg e) / 2)).vbus
    else ir
  else if node = 0 then s.loop.vTgt else ir

def State.injValue (s : State) (e : Nat) : Int := s.injected e (Fld.diagInj_NODE s.cfg e) (s.injBase e)

/-- The string reference with an injection at node 2, inside the limits. -/
def State.refNow (s : State) : Int :=
  clampI s.disp.limD s.disp.limC (s.loop.r + s.injected 0 2 (s.rated * 1000000000))

/-! ### The phase current loop (09 R240 to R244) -/

/-- w_p × (r + e(t)). -/
def State.phaseTarget (s : State) (p t : Nat) : Int := quot ((s.phase p).share * (s.refNow + s.excitation t)) 1000000000

/-- The reference of a restarting phase runs from its start value over 8 periods (R251). -/
def State.restartRef (s : State) (p t : Nat) : Int :=
  let x := s.phase p
  if x.rst = 0 then s.phaseTarget p t
  else x.rstFrom + quot ((s.phaseTarget p t - x.rstFrom) * (8 - x.rst : Nat)) 8

/-- The phase reference: the other phases carry what restarting ones leave; clamped to 0.9 × PHASE_OC. -/
def State.phaseRef (s : State) (p t : Nat) : Int :=
  let on := s.phasesOn
  let rst := on.filter (fun q => decide ((s.phase q).rst ≠ 0))
  let rest := sumI (rst.map (fun q => s.phaseTarget q t - s.restartRef q t))
  let x := s.phase p
  let base := if x.rst ≠ 0 ∨ rst = [] then s.restartRef p t else s.phaseTarget p t + quot rest (on.length - rst.length : Nat)
  let e := p / 8
  let inj := if Fld.diagCfg_PHASE s.cfg e = p % 8 then s.injected e 0 (quot (s.rated * 1000000000 : Nat) on.length) else 0
  let lim : Int := Fld.glLim0_PHASE_OC s.cfg * 900000000
  clampI (-lim) lim (base + inj)

/-- Coefficients of a current bank: kp in mV/A, ki in 0.1 mV/A per phase period. -/
def curKp (b : RegBank) (bank : Bool) : Nat := if bank then Fld.curBankB_KP b else Fld.curBankA_KP b
def curKi (b : RegBank) (bank : Bool) : Nat := if bank then Fld.curBankB_KI b else Fld.curBankA_KI b

/-- A phase moves towards its SHIFT by at most T ÷ 8 in a phase period (R247). -/
def moveShift (n : Nat) (x : PhaseLoop) : Nat := (toward x.shift x.shiftTo (62500 / n : Nat)).toNat

/-- The loop of phase p for the phase period that starts at t (ns), with its SHIFT changed by `delta` (0.5 ns): R241, R242,
R246. -/
def State.loopStep (s : State) (p t delta : Nat) (x : PhaseLoop) : PhaseLoop :=
  let rx := s.rx p
  let n : Int := s.fsw
  let vb : Int := 50000 * (s.receiver (p / 2)).vbus
  let vs := s.loop.vs
  let bank := Fld.loopCtl_CUR_SEL s.cfg
  let kp : Int := curKp s.cfg bank
  let iM := if rx.fresh then 50000000 * rx.i else x.pred
  let pred := iM + quot (250000 * (x.dNum * vb - vs * x.dDen)) (n * Fld.loopHw_L_PH s.cfg * x.dDen)
  let ref := s.phaseRef p t
  let err := ref - pred
  let lo := quot (10 * Fld.glCfg2_MINP s.cfg * n * vb) 250000
  let hi := vb - quot (20 * Fld.glCfg_DEAD s.cfg * n * vb) 250000 - quot (delta * n * vb) 500000
  let prop := quot (kp * err) 1000000
  let swap := if x.bank = bank then x.integ
    else clampI (lo - vs - prop) (hi - vs - prop) (x.integ + quot (((curKp s.cfg x.bank : Int) - kp) * err) 1000000)
  let u := vs + prop + swap
  let int1 := if rx.fresh && (decide (u < hi) || decide (err < 0)) && (decide (lo < u) || decide (0 < err)) then
    swap + quot (curKi s.cfg bank * err) 10000000 else swap
  let integ := clampI (lo - vs) (hi - vs) int1
  let inj := if Fld.diagCfg_PHASE s.cfg (p / 8) = p % 8 then s.injected (p / 8) 1 vb else 0
  let v := vs + prop + integ + inj
  let d := clampI lo hi v
  { x with
    integ := integ, pred := pred, err := err, ref := ref, dNum := d, dDen := vb, frozen := !rx.fresh, bank := bank, ready := true
    clampHi := decide (hi < v), clampLo := decide (v < lo)
    on := (nearest (500000 * (vb - d)) (2 * n * vb)).toNat, off := (nearest (500000 * (vb + d)) (2 * n * vb)).toNat
    rst := x.rst - 1 }

/-- Equal shares of the phases in service that conduct. -/
def State.evenShares (s : State) : State :=
  let c := (s.phasesOn.filter (fun p => !(s.phase p).waiting)).length
  s.onPhases (fun _ x => { x with share := if x.active && !x.waiting then quot 1000000000 c else 0, fade := 0 })

/-- One of the 16 steps of a fade (R249): the phase's share moves by an even part and the other phases take the difference; after
the last step the shares are even again. -/
def State.fadeStep (s : State) (p : Nat) : State :=
  let x := s.phase p
  if x.fade = 0 then s
  else
    let up := match s.loop.shed with | .restoring _ => true | _ => false
    let others := s.phasesOn.filter (fun q => decide (q / 2 ≠ p / 2))
    let full := if up then quot 1000000000 s.phasesOn.length else 0
    let d := quot (full - x.share) x.fade
    s.onPhases (fun q y =>
      if q = p then { y with share := y.share + d, fade := y.fade - 1 }
      else if others.contains q then { y with share := y.share - quot d others.length } else y)

/-- The shed or restore under way reaches its ends (R249, R250). -/
def State.shedProgress (s : State) : State :=
  let still := s.phasesOn.all (fun p => decide ((s.phase p).shift = (s.phase p).shiftTo))
  let faded (l : Nat) : Bool := decide ((s.phase (2 * l)).fade = 0 ∧ (s.phase (2 * l + 1)).fade = 0)
  match s.loop.shed with
  | .shedding l =>
    if (s.phase (2 * l)).active then
      if faded l then
        ((s.onPhases (fun p x => if p / 2 = l then { x with active := false, share := 0 } else x)).evenShares).spread (fun _ => false)
      else s
    else if still then s.onLoop (fun x => { x with shed := .steady }) else s
  | .restoring l =>
    if faded l && still then (s.evenShares).onLoop (fun x => { x with shed := .steady }) else s
  | .aborting e =>
    if still && s.phasesOn.all (fun p => !(s.phase p).waiting) then
      let t := s.onLoop (fun x => { x with shed := .dwell (s.now + Fld.shedCfg_DWELL s.cfg * 1000000) })
      match s.loop.abortAt with
      | some a => if s.now < a + 1000000000 then t
          else (t.raise Ev.shedAbort [e]).onLoop (fun x => { x with abortAt := some s.now })
      | none => (t.raise Ev.shedAbort [e]).onLoop (fun x => { x with abortAt := some s.now })
    else s
  | _ => s

/-- A phase is restarted (R251): RESTART on its next frame, integrator 0, reference from the measured current. -/
def State.restartPhase (s : State) (p : Nat) : State :=
  (s.onPhase p (fun x => { x with
    restart := some s.now, ready := false, integ := 0, rst := 8, rstFrom := 50000000 * (s.rx p).i })).raise Ev.phaseRestarted [p]

/-- |r − Σ i_ph| from the latest samples, nA (R250). -/
def State.stepError (s : State) : Int :=
  mag (s.loop.r - 50000000 * sumI (s.phasesOn.map (fun p => (s.rx p).i)))

/-! ### Captures (09 R254 to R257) -/

def State.diag (s : State) (e : Nat) : Diag := s.loop.diags.getD e Diag.reset
def State.onDiag (s : State) (e : Nat) (f : Diag → Diag) : State := s.onLoop (fun l => { l with diags := modAt l.diags e f })

/-- Records of this engine's capture wait on the trace stream. -/
def State.diagDelivering (s : State) (e : Nat) : Bool :=
  (s.backlog 4).recs.any (fun r => decide (r.kind = 6 ∧ byteAt r.body 12 = e))

/-- Bits of a list, bit i the i-th. -/
def bitsNat (l : List Bool) : Nat := sumN (mapIdxL (fun i (b : Bool) => bit b * 2 ^ i) l)

def State.phaseBits (s : State) : Nat := bitsNat (s.loop.phases.map (fun x => x.active))

/-- Signals of LE0 and LE1 for a phase (Table 9.6). -/
def State.loopSignals (s : State) (e : Nat) : List Int :=
  let p := 8 * e + Fld.diagCfg_PHASE s.cfg e
  let x := s.phase p
  let fading := match s.loop.shed with | .shedding _ | .restoring _ => true | _ => false
  let step := match s.loop.shed with | .aborting _ => true | _ => false
  [(s.rx p).i, quot x.pred 50000000, quot x.ref 50000000, quot x.err 50000000, quot x.integ 100000, quot x.dNum 100000,
   quot (65536 * x.dNum) x.dDen, (s.receiver (p / 2)).vbus, quot s.loop.r 50000000, quot (s.excitation s.now) 10000000,
   quot (sumI (s.phasesOn.map (fun q => (s.rx q).i))) 2, x.shift / 2, s.phaseBits, s.injValue e,
   bitsNat [x.clampHi, x.clampLo, x.frozen, fading, x.restart.isSome, step], 0]

/-- Signals of LE2 (Table 9.6). -/
def State.demandSignals (s : State) : List Int :=
  let l := s.loop
  let hi := quot (s.disp.limC * l.vs) l.vb
  let lo := quot (s.disp.limD * l.vs) l.vb
  [quot l.vb 50000, quot l.vs 50000, quot l.iS 50, quot l.vSet 50000, quot l.vTgt 50000, quot l.line 50000, quot l.vltErr 10000,
   quot l.integ 50000000, quot l.demand 50000000, quot l.target 50000000, quot s.disp.limC 50000000, quot s.disp.limD 50000000,
   quot (l.vs * l.iS) 100000000000, s.injValue 2,
   bitsNat [l.satVlt && decide (hi ≤ l.integ), l.satVlt && decide (l.integ ≤ lo), decide (l.vTgt ≠ l.vSet), decide (l.r ≠ l.target)], 0]

/-- Signals of LE3 (10 Table 10.5). -/
def State.thermSignals (s : State) : List Int :=
  let t := s.therm
  let rated : Int := s.rated * 1000
  let duty (i : Nat) : Int := (t.coolers.getD i Cooler.reset).duty
  let rpm (i : Nat) : Int := (t.coolers.getD i Cooler.reset).rpm
  let trip := t.zones.any (fun z => decide (z.trip ≠ 0))
  let stop := trip
  let lim (forbid : Bool) (step : Nat) : Int := if stop || forbid then 0 else s.stepLimit rated step
  [(maxI (t.zones.filterMap (fun z => z.hot))).getD 0, (minI (t.zones.filterMap (fun z => z.cold))).getD 0, t.die.temp,
   t.stepD, t.stepC, quot (lim t.chgForbid t.stepC) 50, quot (-(lim t.disForbid t.stepD)) 50, duty 0, duty 1, duty 2, duty 3,
   rpm 0, rpm 1, 0,
   bitsNat [t.chgForbid, t.disForbid, trip, t.sensors.any (fun x => x.failed), t.sensors.any (fun x => x.core), t.die.barred], 0]

def State.signals (s : State) (e : Nat) : List Int :=
  if e < 2 then s.loopSignals e else if e = 2 then s.demandSignals else s.thermSignals

/-- The eight selected signals. -/
def State.diagSelect (s : State) (e : Nat) : List Int :=
  let all := s.signals e
  (List.range 8).map (fun i => all.getD (Fld.diagSig_SIG s.cfg e / 16 ^ i % 16) 0)

/-- One cycle of an engine with a capture armed or running: a sample every 2^DECIM cycles; before the trigger PRE × 1,024 are
kept. -/
def State.diagCycle (s : State) (e : Nat) : State :=
  let x := s.diag e
  let keep := match x.st with | .capturing => 16384 | _ => 1024 * Fld.diagCfg_PRE s.cfg e
  match x.st with
  | .idle => s
  | _ =>
    if x.mem.length = 16384 then s
    else if x.cyc + 1 < 2 ^ Fld.diagCfg_DECIM s.cfg e then s.onDiag e (fun y => { y with cyc := y.cyc + 1 })
    else s.onDiag e (fun y => { y with cyc := 0, time := s.sysNs, mem := (s.diagSelect e :: y.mem).take keep,
                                        level := ((s.signals e).getD 0 0 :: y.level).take 2 })

/-- An engine's cycle in 0.5 ns. -/
def State.diagStep (s : State) (e : Nat) : Nat :=
  (if e < 2 then (1000000 + s.fsw) / (2 * s.fsw) else if e = 2 then 2000 * s.fabric.sweepUs else 20000000) * 2 ^ Fld.diagCfg_DECIM s.cfg e

/-- A capture is delivered as 16 records of 16,416 bytes (Table 9.7); samples it does not hold are 0. -/
def State.diagDeliver (s : State) (e : Nat) : State :=
  let x := s.diag e
  let smp := x.mem.reverse
  let step := s.diagStep e
  let t0 := eventOf (x.time - (smp.length - 1) * step / 2)
  let part (k : Nat) : StreamRec :=
    let head := packBytes [(8, t0), (4, x.capno.toNat), (1, e), (1, ((x.use + 4 * bit x.aborted + 8 * bit s.isSolo : Nat) : Int)), (1, k),
      (1, Fld.diagCfg_PHASE s.cfg e), (2, x.trigIdx), (1, Fld.diagCfg_DECIM s.cfg e), (1, ((step / 2 ^ 32 : Nat) : Int)),
      (4, Fld.diagSig_SIG s.cfg e), (4, step)]
    let body := ((List.range 1024).map (fun j => packBytes ((smp.getD (1024 * k + j) (List.replicate 8 0)).map (fun v => (2, v))))).flatten
    ⟨6, 16416, t0, head ++ toLe (crc32c (head ++ body)) 4 ++ body⟩
  let t := (List.range 16).foldl (fun u k => u.release 4 (part k)) s
  t.onDiag e (fun y => { y with
    st := .idle, capno := y.capno + 1, mem := [], cyc := 0, aborted := false, injecting := false, startDue := false })

/-- A capture ends early with its abort flag (R255). -/
def State.diagAbort (s : State) (e : Nat) : State :=
  match (s.diag e).st with
  | .idle => s
  | _ => (s.onDiag e (fun y => { y with aborted := true })).diagDeliver e

/-- Injections end. -/
def State.endInjections (s : State) : State :=
  (List.range 3).foldl (fun t e => if (t.diag e).injecting then t.diagAbort e else t) s

/-! ### The demand (09 R231 to R236) -/

/-- String voltage: the sum of the stations' last primary stack results (R231), µV. -/
def State.stringVolt (s : State) : Int := sumI ((List.range s.cellStations).map (fun k => 10 * (s.stM k).stack))

/-- Mean of the latest VBUS over the receivers in service, µV. -/
def State.busNow (s : State) : Int :=
  let l := (List.range s.links).filter (fun i => (s.receiver i).started)
  if l = [] then 0 else quot (50000 * (sumN (l.map (fun i => (s.receiver i).vbus)) : Nat)) l.length

/-- v_b of a sweep (R233): the mean of VBUS over the receivers in service during its interval; where none has sent any, the latest. -/
def State.busVolt (s : State) : Int := if s.loop.busMean = 0 then s.busNow else s.loop.busMean

/-- The current a set-point demands at the present string voltage, nA; 0 for one that is not of the mode. -/
def State.spDemand (s : State) (sp : Setpoint) : Int :=
  if sp.kind = 1 then 1000000 * sp.value else quot (1000000000000000 * sp.value) s.loop.vs

def vltKp (b : RegBank) (bank : Bool) : Nat := if bank then Fld.vltBankB_KP b else Fld.vltBankA_KP b
def vltKi (b : RegBank) (bank : Bool) : Nat := if bank then Fld.vltBankB_KI b else Fld.vltBankA_KI b

/-- The bus-side current i_b, nA. -/
def State.busCurrent (s : State) : Int := quot (1000000 * s.loop.iS * s.loop.vs) s.loop.vb

/-- The load line is placed through the operating point (R235). -/
def State.placeLine (s : State) : State :=
  let ib := s.busCurrent
  let v := s.loop.vb - quot (Fld.droopCfg_R_DROOP s.cfg * ib) 10000000
  s.onLoop (fun l => { l with
    vTgt := v, integ := ib, place := false
    vSet := match s.disp.sp with | some sp => if sp.kind = 3 then 1000 * sp.value else v | none => v })

/-- One sweep of the droop law (R233): target voltage, error, integrator, demand. -/
def State.droopStep (s : State) : State :=
  let l := s.loop
  let tUs : Int := s.fabric.sweepUs
  let bank := Fld.loopCtl_VLT_SEL s.cfg
  let kp : Int := vltKp s.cfg bank
  let vTgt := toward l.vTgt l.vSet (Fld.droopCfg_VSLEW s.cfg * tUs)
  let ib := s.busCurrent
  let line := vTgt + s.injected 2 0 vTgt + quot (Fld.droopCfg_R_DROOP s.cfg * ib) 10000000
  let err := l.vb - line
  let lo := quot (s.disp.limD * l.vs) l.vb
  let hi := quot (s.disp.limC * l.vs) l.vb
  let swap := if bank = l.vltBank then l.integ else clampI (lo - 10 * kp * err) (hi - 10 * kp * err)
    (l.integ + ((vltKp s.cfg l.vltBank : Int) - kp) * err * 10)
  let u := 10 * kp * err + swap
  let int1 := if (decide (u < hi) || decide (err < 0)) && (decide (lo < u) || decide (0 < err)) then
    swap + quot (vltKi s.cfg bank * err * tUs) 10000 else swap
  let integ := clampI lo hi int1
  let v := 10 * kp * err + integ
  s.onLoop (fun x => { x with
    vTgt := vTgt, vltErr := err, integ := integ, line := line
    satVlt := decide (v < lo ∨ hi < v), vMoving := decide (vTgt ≠ l.vSet)
    demand := quot (clampI lo hi v * l.vb) l.vs })

/-- LE2 swaps to the selected bank with the sweep (R245), in whatever mode. -/
def State.vltSwap (s : State) : State :=
  let bank := Fld.loopCtl_VLT_SEL s.cfg
  if bank = s.loop.vltBank then s
  else ((s.raise Ev.bankSwapped [1, bit bank]).endInjections).onLoop (fun l => { l with vltBank := bank })

/-- The current loops swap to the selected bank at the first phase period after the commit (R245). -/
def State.bankSwap (s : State) : State :=
  let bank := Fld.loopCtl_CUR_SEL s.cfg
  if bank = s.loop.curBank then s
  else ((s.raise Ev.bankSwapped [0, bit bank]).endInjections).onLoop (fun l => { l with curBank := bank })

/-- A change of LOOP_CTL.MODE takes effect at this sweep (R253). -/
def State.modeChange (s : State) : State :=
  let m := Fld.loopCtl_MODE s.cfg
  if m = s.loop.mode then s
  else (s.endInjections).onLoop (fun l => { l with mode := m, place := decide (m = 2) })

/-- The set-point that forms the demand: none where it has expired with LOSS = 0, or is not of the mode. -/
def State.spInForce (s : State) : Option Setpoint := match s.disp.sp with
  | some sp => if sp.kind = s.loop.mode + 1 ∧ ¬(s.disp.expired ∧ s.loop.mode ≠ 2 ∧ Fld.dispCfg_LOSS s.cfg = false) then some sp else none
  | none => none

/-- LE2's work of a sweep: the demand, clamped to the limits, waits for its release at g + 240 µs + one sweep period (R231, R232, R236). -/
def State.demandSweep (s : State) (w : Sweep) : State :=
  let s := (s.onLoop (fun l => { l with vs := s.stringVolt, vb := s.busVolt, iS := s.meas.iLast.getD 0 })).modeChange
  let t := if s.loop.mode = 2 then (if s.loop.place then s.placeLine else s).droopStep
    else s.onLoop (fun l => { l with demand := (s.spInForce.elim 0 s.spDemand) })
  let t := t.vltSwap
  let d := t.loop.demand + t.injected 2 1 (t.rated * 1000000000)
  (t.onLoop (fun l => { l with
    targets := l.targets ++ [(w.at_ + 240000 + 1000 * s.fabric.sweepUs, clampI t.disp.limD t.disp.limC d, t.loop.mode)] })).diagCycle 2

/-- LE0 to LE2 in service: a stage can be driven. -/
def State.linksStarted (s : State) : Bool :=
  decide (0 < s.links) && (List.range s.links).all (fun l => (s.receiver l).started)

end Sys2Proof.Machine
end

