-- ==== Sys2Proof/Machine/GateOps.lean ====
section
/-! DEFINITION. Gate links and the stage (08): STATUS frames, starting and stopping, link start, telemetry. -/
namespace Sys2Proof.Machine

open Sys2Proof.Config (quot)

/-! ### STATUS frames (Table 8.6, R218, R221) -/

/-- Fields of a STATUS frame. -/
structure StatusFrame where
  ph     : Nat
  used   : Nat
  urgent : Bool
  rstate : Nat
  seq    : Word
  rxTime : Nat
  txTime : Nat
  i      : Int
  vbus   : Nat
  tHi    : Int
  tLo    : Int
  flags  : BitVec 16
  deriving DecidableEq, Repr

/-- A whole STATUS frame of this link with a good CHECK; else it is discarded. -/
def parseStatus (link : Nat) (b : List Byte) : Option StatusFrame :=
  let seq := leAt b 2 4
  if 36 ≤ b.length ∧ byteAt b 0 % 16 = 8 ∧ byteAt b 1 % 8 = link
      ∧ leAt b 32 4 = crcSeeded (link * 2 ^ 24 + seq % 2 ^ 24) (slice b 0 32) then
    some { ph := byteAt b 0 / 16 % 2, used := byteAt b 0 / 32 % 4, urgent := byteAt b 0 / 128 % 2 = 1
           rstate := byteAt b 1 / 8 % 8, seq := BitVec.ofNat 32 seq, rxTime := leAt b 6 8, txTime := leAt b 14 8
           i := sleAt b 22 2, vbus := leAt b 24 2, tHi := sleAt b 26 2, tLo := sleAt b 28 2
           flags := BitVec.ofNat 16 (leAt b 30 2) }
  else none

def flagBit (f : BitVec 16) (i : Nat) : Bool := f.toNat / 2 ^ i % 2 == 1

def rstateOf (n : Nat) : RState := match n with
  | 0 => .reset
  | 1 => .unconf
  | 2 => .stopped
  | 3 => .armed
  | 4 => .run
  | _ => .tripped

def rstateCode (r : RState) : Nat := match r with
  | .reset => 0 | .unconf => 1 | .stopped => 2 | .armed => 3 | .run => 4 | .tripped => 5

def stageCode (x : Stage) : Nat := match x with
  | .off => 0 | .armed => 1 | .startDelay => 2 | .ramp => 3 | .run => 4 | .stopDelay => 5 | .stopRamp => 6 | .tripped => 7

/-- The trip conditions that a phase's and its receiver's records show (Table 8.7, classes 0 to 4, 9, 10): class and switch. -/
def State.tripsShown (s : State) (x : PhaseRx) (r : Receiver) : List (Nat × Nat) :=
  let desat := flagBit x.flags 0 || flagBit x.flags 1
  let stopped := match r.rstate with | .stopped | .unconf => !r.ownStop | _ => false
  let tripped := match r.rstate with | .tripped => true | _ => false
  (if flagBit x.flags 0 then [(0, 0)] else []) ++ (if flagBit x.flags 1 then [(0, 1)] else [])
  ++ (if 8 ≤ x.ocRun ∨ 1250 * Fld.glLim0_PHASE_OC s.cfg < 50 * mag x.i then [(1, 255)] else [])
  ++ (if 3 ≤ x.otRun then [(2, if 10 * (Fld.glLim1_SW_OT s.cfg : Int) < x.tHi then 0 else 1)] else [])
  ++ (if stopped then [(3, 255)] else [])
  ++ (if 2 ≤ r.ovRun then [(4, 255)] else [])
  ++ (if (tripped && !desat) || flagBit x.flags 9 then [(9, 255)] else [])
  ++ (if 2 ≤ x.rejRun then [(10, 255)] else [])

/-- The conditions on which a frame trips the stage: each that holds; in TRIPPED, those that were not there before it. -/
def State.statusTrips (s : State) (old new : PhaseRx) (rOld rNew : Receiver) : List (Nat × Nat) :=
  let before := match s.gate.stage with | .tripped => s.tripsShown old rOld | _ => []
  (s.tripsShown new rNew).filter (fun c => !before.contains c)

/-- A run that counts while a condition holds. -/
def runOf (n : Nat) (holds : Bool) : Nat := if holds then n + 1 else 0

/-- What a frame changes in the phase's and the receiver's record. -/
def State.rxTake (s : State) (f : StatusFrame) (receipt : Nat) (x : PhaseRx) : PhaseRx :=
  let ot : Int := 10 * (Fld.glLim1_SW_OT s.cfg : Int)
  let peer := decide (f.seq.toNat % 2 = (if s.isJunior then 0 else 1) ∧ f.rxTime ≠ 0)
  { i := f.i, tHi := f.tHi, tLo := f.tLo, flags := f.flags, seq := if f.urgent then x.seq else f.seq
    fresh := x.fresh && f.urgent || !f.urgent, rxAt := receipt
    missed := decide (f.used = 3 ∨ (f.rxTime = 0 ∧ (f.seq.toNat % 2 = 0 ∨ s.isPair = true)))
    ocRun := if f.urgent then x.ocRun else runOf x.ocRun (flagBit f.flags 2)
    rejRun := if f.urgent then x.rejRun else runOf x.rejRun (flagBit f.flags 4)
    otRun := runOf x.otRun (decide (ot < f.tHi ∨ ot < f.tLo))
    noPeer := if f.urgent then x.noPeer else runOf x.noPeer (!peer) }

def State.receiverTake (s : State) (f : StatusFrame) (receipt : Nat) (r : Receiver) : Receiver :=
  let st := rstateOf f.rstate
  { r with
    rstate := st, vbus := f.vbus, statusAt := max r.statusAt receipt
    ovRun := runOf r.ovRun (decide (1000 * Fld.glLim0_BUS_OV s.cfg < 50 * f.vbus))
    ownStop := r.ownStop && !(r.armSent && decide (st = .armed)) }

/-- Above SW_WARN, once per hour and receiver. -/
def State.warmCheck (s : State) (l : Nat) (f : StatusFrame) : State :=
  let lim : Int := 10 * (Fld.glLim1_SW_WARN s.cfg : Int)
  let due := match (s.receiver l).warmAt with | some a => decide (a + 3600000000000 ≤ s.now) | none => true
  if due && decide (lim < f.tHi ∨ lim < f.tLo) then
    let hi := decide (lim < f.tHi)
    (s.onReceiver l (fun r => { r with warmAt := some s.now })).raise Ev.switchWarm
      [l, 2 * l + f.ph, if hi then 0 else 1, if hi then f.tHi else f.tLo]
  else s

/-- VBUS joins the mean of the sweep interval (09 R233). -/
def State.noteBus (s : State) (l : Nat) (f : StatusFrame) : State :=
  if f.urgent || !(s.receiver l).started then s
  else s.onLoop (fun x => { x with busSum := x.busSum + 50000 * f.vbus, busN := x.busN + 1 })

/-- Every receiver in use reports ARMED: the stage becomes ARMED after a link start, a trip reset or a stop (R222, R223, R226). -/
def State.armedCheck (s : State) : State :=
  let all := (List.range s.links).all (fun l => match (s.receiver l).rstate with | .armed => true | _ => false)
  let waits := match s.gate.stage with
    | .off => s.gate.armAt.isSome
    | .tripped => s.gate.clearing
    | .stopRamp => s.gate.armAt.isSome
    | _ => false
  if all && waits && s.linksStarted then
    s.onGate (fun g => { g with
      stage := .armed, since := s.now, armAt := none, clearing := false, modeOff := false, stopSent := false })
  else s

/-! ### Averaged telemetry (R227) -/

def Quantity.add (q : Quantity) (v : Int) : Quantity :=
  { sum := q.sum + v, count := q.count + 1
    peak := some (match q.peak with | some a => max a v | none => v)
    valley := some (match q.valley with | some a => min a v | none => v) }

def Quantity.mean (q : Quantity) : Int := if q.count = 0 then 0 else quot q.sum q.count

/-- Per-sweep quantities: string voltage, current, power. -/
def State.telemSweep (s : State) : State :=
  let v := quot s.loop.vs 1000
  let i := s.loop.iS
  let vals := [v, i, quot (v * i) 1000000]
  s.onGate (fun g => { g with telem := mapIdxL (fun j (q : Quantity) => if j < 3 then q.add (vals.getD j 0) else q) g.telem })

/-- Per-period quantities, at the STATUS of each phase period: bus voltage, sum of phase currents, hottest switch. -/
def State.telemPeriod (s : State) : State :=
  let on := List.range (2 * s.links)
  let hot := (maxI (on.map (fun p => max (s.rx p).tHi (s.rx p).tLo))).getD 0
  let vals := [quot s.busNow 1000, 50 * sumI (on.map (fun p => (s.rx p).i)), 10 * hot]
  if s.links = 0 then s
  else s.onGate (fun g => { g with telem := mapIdxL (fun j (q : Quantity) => if 3 ≤ j then q.add (vals.getD (j - 3) 0) else q) g.telem })

/-- A STATUS frame is taken, whichever twin received it, once: records, trips, a restart of a starved phase, arming. Of the other twin's
copy only an earlier receipt counts (16 R420). -/
def State.takeStatus (s : State) (l : Nat) (f : StatusFrame) (receipt : Nat) : State :=
  let p := 2 * l + f.ph
  let old := s.rx p
  let rOld := s.receiver l
  if s.isPair && !f.urgent && decide (f.seq = old.seq) then s.onRx p (fun x => { x with rxAt := min x.rxAt receipt })
  else
    let new := s.rxTake f receipt old
    let rNew := s.receiverTake f receipt rOld
    let t := (((s.onRx p (fun _ => new)).onReceiver l (fun _ => rNew)).noteBus l f).warmCheck l f
    let u := (s.statusTrips old new rOld rNew).foldl (fun v c => v.stageTrip c.1 l p c.2) t
    let starved := flagBit new.flags 3 && !flagBit old.flags 3
    let v := if starved && u.gate.switching && (u.phase p).active then u.restartPhase p else u
    (if f.urgent then v else v.telemPeriod).armedCheck

/-- The delay of the own input (R218): `flight` is the receipt less the release of the copy. -/
def State.noteDelay (s : State) (l : Nat) (f : StatusFrame) (flight : Int) : State :=
  let mine := decide (f.seq.toNat % 2 = if s.isJunior then 1 else 0)
  if mine && decide (f.rxTime ≠ 0) then
    s.onReceiver l (fun r => { r with delaySum := r.delaySum + (flight - (f.txTime - f.rxTime)), delayN := r.delayN + 1 })
  else s

/-! ### Starting and stopping (R222 to R226) -/

/-- ARM to every receiver in use. -/
def State.sendArm (s : State) (clear : Bool) : State :=
  (s.emitAll ((List.range s.links).map (fun l => Out.gate l (s.armFrame clear l)))).onGate (fun g => { g with
    receivers := g.receivers.map (fun r => { r with armSent := true }) })

/-- Functions of the safety outputs (12 Table 12.14): 0 unused, 1 main contactor, 2 precharge, 3 permissive. -/
def soFunc (b : RegBank) (o : Nat) : Nat :=
  if o = 0 then Fld.soCfg_FUNC0 b else if o = 1 then Fld.soCfg_FUNC1 b else if o = 2 then Fld.soCfg_FUNC2 b else Fld.soCfg_FUNC3 b

/-- The main contactor outputs are energised and confirmed by readback. -/
def State.contactorsOn (s : State) : Bool :=
  (List.range 4).all (fun o =>
    let w := s.safety.outs.getD o SafeOut.reset
    decide (soFunc s.cfg o ≠ 1) || (w.hi && w.lo && w.hiRead && w.loRead))

/-- The conditions of R224, in its order, and of R286: the number of the first that fails, 0 where all hold. -/
def State.readyFault (s : State) : Nat :=
  if s.life.guard_ then 1
  else if !s.contactorsOn then 2
  else if !s.linksStarted || (List.range s.links).any (fun l => decide ((s.receiver l).rstate ≠ .armed)) then 3
  else if (List.range s.links).any (fun l =>
    decide (50 * (s.receiver l).vbus < 1000 * Fld.glLim1_BUS_UV s.cfg ∨ 1000 * Fld.glLim0_BUS_OV s.cfg < 50 * (s.receiver l).vbus)) then 4
  else if s.rated = 0 then 5 else 0

def State.stageReady (s : State) : Bool := decide (s.readyFault = 0)

/-- An enable is refused with ST_STAGE_NOT_READY: the first condition that failed is kept. -/
def State.noteNotReady (s : State) : State :=
  (s.onDisp (fun x => { x with notReady := true })).onGate (fun g => { g with failed := s.readyFault })

/-- Switching-frequency limit of a profile, kHz (02 Table 2.7). -/
def fswLimit (p : Nat) : Nat := if p = 0 then 60 else if p = 1 then 40 else 30

/-- The switching frequency lies within a profile's limit; FSW counts base periods in 250 µs (R208). -/
def State.fswFits (s : State) (p : Nat) : Bool := decide (4 * s.fsw ≤ fswLimit p)

/-- What an enable is answered (Table 8.9, R224, R226, 18 R466, 02 R55). -/
def State.enableStatus (s : State) : Nat := if s.ac01Reloading then St.stageNotReady else match s.gate.stage with
  | .off | .tripped => St.stageNotReady
  | .armed => if !s.fswFits s.fabric.profile then St.profileConflict
    else if s.stageReady && !s.gate.blocked then St.ok else St.stageNotReady
  | .stopRamp => if s.gate.modeOff && s.allOff then St.stageNotReady else St.ok
  | _ => St.ok

/-- The effect of an enable that is accepted. -/
def State.stageEnable (s : State) : State := match s.gate.stage with
  | .armed => if s.enableStatus = St.ok then s.onGate (fun g => { g with stage := .startDelay, since := s.now }) else s
  | .stopDelay => s.onGate (fun g => { g with stage := if s.loop.r = s.loop.target then .run else .ramp, since := s.now })
  | .stopRamp => if s.enableStatus = St.ok then s.onGate (fun g => { g with stage := .ramp, since := s.now, modeOff := false }) else s
  | _ => s

/-- A disable (Table 8.9); a stage that stops abandons an impedance run (06 R174). -/
def State.stageDisable (s : State) : State := match s.gate.stage with
  | .startDelay => s.onGate (fun g => { g with stage := .armed, since := s.now })
  | .ramp | .run => (s.onGate (fun g => { g with stage := .stopDelay, since := s.now })).abandonRun 0
  | _ => s

/-- What a trip reset is answered (R222): a class 7 trip only once the safe state is reset. -/
def State.tripResetStatus (s : State) : Nat := match s.gate.stage with
  | .tripped =>
    if s.now < s.gate.tripAt + 1000000000 ∨ (s.gate.trip7 && s.safety.safe) = true then St.stageTripped else St.ok
  | _ => St.ok

/-- An accepted trip reset: ARM with CLEAR to every receiver. -/
def State.tripReset (s : State) : State := match s.gate.stage with
  | .tripped => if s.tripResetStatus = St.ok then (s.sendArm true).onGate (fun g => { g with clearing := true }) else s
  | _ => s

/-- A stage command (Table 11.1): 1 enable, 2 disable, 3 trip, 4 trip reset. -/
def State.stageOp (s : State) (op : Nat) : State :=
  if op = 1 then s.stageEnable else if op = 2 then s.stageDisable else if op = 3 then s.stageTrip 11 255 255 255 else s.tripReset

/-- The plant is the active source (11 R282). -/
def State.plantActive (s : State) : Bool :=
  decide (Fld.dispCfg_SRC s.cfg = 1) || (decide (Fld.dispCfg_SRC s.cfg = 2) && s.disp.plantLive)

/-- What a stage command of a source is answered: 0 host, 1 plant (Table 11.1). -/
def State.stageStatus (s : State) (source op : Nat) : Nat :=
  if op = 1 then (if s.plantActive = decide (source = 1) then s.enableStatus else St.dispatchSource)
  else if op = 4 then s.tripResetStatus else St.ok

/-- The stage begins its stop ramp; its nominal end is where r reaches zero (R225). -/
def State.enterStopRamp (s : State) : State :=
  let step := s.slopeStep (Fld.stageStop_RAMP s.cfg)
  let n : Int := (mag s.loop.r : Int) * 250000
  s.onGate (fun g => { g with stage := .stopRamp, since := s.now, modeOff := false, stopSent := false, armAt := none
                              stopEnd := s.now + (quot n (step * s.fsw)).toNat })

/-! ### Link start (R223) -/

/-- Every link in use is started anew; the stage is OFF meanwhile. -/
def State.linkStart (s : State) : State :=
  (s.onGate (fun g => { g with
    stage := .off, since := s.now, starting := decide (0 < s.links), armAt := none, clearing := false, modeOff := false, stopSent := false
    receivers := g.receivers.map (fun r => { r with
      started := false, known := false, miswired := false, rstate := .unconf, ownStop := true, armSent := false }) })).onPhases
    (fun _ x => { x with sent := 0, done := 0 })

/-- The configuration of a receiver is written and committed by CONFIG; it is in service from then on. -/
def State.linkConfig (s : State) (l : Nat) : State :=
  let c := s.cfg
  ((s.emit (.gateConfig l 0 [Fld.glCfg_DEAD c, Fld.glCfg2_MINP c, Fld.glCfg_REPEAT c, Fld.glCfg2_RX_TIMEOUT c,
    Fld.glLim0_PHASE_OC c])).emit (.gateConfig l 1 [])).onReceiver l (fun r => { r with started := true, confAt := s.now, statusAt := s.now })

/-- A receiver now holds the preferred version (01 R5, 18 R456): at a link start its configuration follows; later it is loaded only while the
stage is OFF or ARMED, and its configuration follows too. -/
def State.receiverLoaded (s : State) (l : Nat) : State :=
  if s.links ≤ l || !(s.receiver l).known || decide (s.gate.stage ≠ .off ∧ s.gate.stage ≠ .armed) then s
  else (s.onReceiver l (fun r => { r with version := s.life.parts.receiver })).linkConfig l

/-- At a cycle boundary: ARM after a link start once receivers have had 50 ms to lock, and after the STOP of a stop ramp. -/
def State.armBoundary (s : State) : State :=
  let locked := s.linksStarted && (List.range s.links).all (fun l => decide ((s.receiver l).confAt + 60000000 ≤ s.now))
  if s.gate.starting && locked then
    (s.sendArm false).onGate (fun g => { g with starting := false, armAt := some s.now })
  else match s.gate.stage with
    | .stopRamp => if s.gate.stopSent && s.gate.armAt.isNone then
        (s.sendArm false).onGate (fun g => { g with armAt := some s.now }) else s
    | _ => s

/-! ### Records of the telemetry (R227) -/

/-- The record of Table 8.11 at an event time. -/
def State.telemRecord (s : State) (time : Nat) : List Byte :=
  sealed (packBytes ([(8, (time : Int)), (4, s.gate.telemSeq.toNat), (4, Fld.telemCfg_WINDOW s.cfg), (1, stageCode s.gate.stage),
    (1, s.phasesOn.length), (2, 0)] ++ s.gate.telem.flatMap (fun q => [(4, q.mean), (4, q.peak.getD 0), (4, q.valley.getD 0)])))

/-- A peak read re-arms peaks and valleys. -/
def State.rearmPeaks (s : State) : State :=
  s.onGate (fun g => { g with rearm := false, telem := g.telem.map (fun q => { q with peak := none, valley := none }) })

/-! ### The signals of a last-fault record (Table 8.13) -/

def State.faultSample (s : State) : List Int :=
  let wide (p : Nat) : Int := if s.gate.switching && (s.phase p).active then ((s.phase p).off - (s.phase p).on) / 2 else 0
  let ps := List.range 16
  let ls := List.range 8
  let volts := match s.ring.last with | some w => (List.range s.cellCount).filterMap w.cellP | none => []
  let temps := match s.ring.last with | some w => (List.range (8 * s.cellStations)).filterMap w.thP | none => []
  let rs (k : Nat) : Int := sumN ((List.range 4).map (fun j => rstateCode (s.receiver (k + j)).rstate * 16 ^ j))
  let missed := ls.map (fun l => decide (l < s.links) && [2 * l, 2 * l + 1].any (fun p => (s.rx p).missed))
  let desat := ls.map (fun l => [2 * l, 2 * l + 1].any (fun p => flagBit (s.rx p).flags 0 || flagBit (s.rx p).flags 1))
  ps.map (fun p => (s.rx p).i) ++ ps.map wide ++ ls.map (fun l => ((s.receiver l).vbus : Int))
  ++ [quot s.gate.fgPeriod 50, quot s.loop.vs 50000, quot s.loop.r 50000000, quot (s.excitation s.now) 10000000,
      quot s.loop.target 50000000, quot s.disp.limC 50000000, quot s.disp.limD 50000000,
      (maxI (ps.map (fun p => max (s.rx p).tHi (s.rx p).tLo))).getD 0, quot ((maxI volts).getD 0) 100, quot ((minI volts).getD 0) 100,
      quot ((maxI temps).getD 0) 10, s.phaseBits, stageCode s.gate.stage, rs 0, rs 4,
      s.safety.word1.toNat % 256, max s.therm.stepC s.therm.stepD, bitsNat missed, bitsNat desat, 0, 0, 0, 0, 0]

/-- A base period's sample joins the ring and the captures under way (R228). -/
def State.faultCapture (s : State) : State :=
  let x := s.faultSample
  s.onGate (fun g => { g with
    ring := (x :: g.ring).take 256
    captures := g.captures.map (fun c => if c.record.data.length < 32768 then { c with record := { c.record with data := c.record.data ++ x } } else c) })

/-- The 65,792 bytes of a last-fault record (Table 8.12): the header with DCHECK and CHECK, then the data. -/
def FaultRec.bytes (r : FaultRec) : List Byte :=
  let data := packBytes (r.data.map (fun v => (2, v)))
  sealed (packBytes ([(8, (r.time : Int)), (4, r.count), (1, r.cls), (1, r.link), (1, r.phase), (1, r.switch), (1, r.profile),
    (1, ((bit r.solo + 2 * bit r.solo : Nat) : Int)), (1, r.lost), (1, 0), (4, r.seq.toNat), (4, r.period)] ++ List.replicate 55 (4, 0))
    ++ toLe (crc32c data) 4) ++ data

end Sys2Proof.Machine
end

