-- ==== Sys2Proof/Machine/Gate.lean ====
section
/-! DEFINITION. Commands of the gate links and the stage (08). -/
namespace Sys2Proof.Machine

open Sys2Proof.Config (quot)

/-! ### Frames (R210, R217, R218, R221, R223) -/

/-- EDGE frames are released: on links in use, in no stage state after a STOP (R221, R226), by a twin that sends. -/
def State.edgesOn (s : State) (p : Nat) : Bool :=
  decide (p / 2 < s.links) && !s.twin.txOff && !s.gate.stopSent && (match s.gate.stage with | .tripped => false | _ => true)

/-- A phase taken in again joins the shares before its frame, and a phase whose loop has not computed since then computes now: the release
is its deadline (09 R244). -/
def State.edgeRestart (s : State) (p k shift : Nat) (drive : Bool) : State :=
  let v := if drive && (s.phase p).waiting then (s.onPhase p (fun y => { y with waiting := false })).evenShares else s
  if drive && !(s.phase p).ready then v.onPhase p (fun y => { v.loopStep p ((baseStart s.fsw k + shift) / 2) 0 y with done := k }) else v

/-- A restart of the phase is due. -/
def PhaseLoop.restartDue (x : PhaseLoop) (now : Nat) : Bool := match x.restart with
  | some a => decide (a ≤ now)
  | none => false

/-- The EDGE frame of period k: how it drives, and whether it restarts the phase. -/
def State.edgeFrame (s : State) (p k : Nat) (drive due : Bool) : State :=
  let y := s.phase p
  let seq := BitVec.ofNat 32 k
  let frame := gateSeal (p / 2) seq (s.gateHead 1 (p % 2) due (p / 2) seq
    ++ packBytes [(8, s.now), (1, (bit drive : Nat)), (3, y.shift), (3, y.on), (3, y.off)])
  (s.emit (.gate (p / 2) frame)).onPhase p (fun z => { z with
    sent := k, offSent := !drive, restart := if due then none else z.restart })

/-- EDGE_RELEASE (R210, R209, R249): 4.0 µs before the start of the next phase period of a phase its EDGE frame is released, with
MODE 0b01 while the phase is in service in a stage that switches, and RESTART where one is due. -/
def execEdgeRelease (p : Fin 16) (s : State) : Result :=
  .next (if !s.edgesOn p then s
    else
      let x := s.phase p
      let k := max (x.sent + 1) (firstFrom s.fsw (2 * s.now + 8000 - x.shift))
      let t := s.advance ((baseStart s.fsw k + x.shift - 8000) / 2)
      let due := t.gate.switching && x.active && x.restartDue t.now
      let drive := t.gate.switching && x.active && (!x.waiting || due)
      ((t.edgeRestart p k x.shift drive).edgeFrame p k drive due).shedProgress)

/-- GATE_STATUS_RECEIVED (R217 to R221, R251): a STATUS frame arrives on a link; `flight` is its receipt less the release of the
copy it answers, ns. The pair exchanges the frames it receives. -/
def execGateStatusReceived (l : Fin 8) (bytes : List Byte) (flight : Int) (s : State) : Result :=
  .next (match parseStatus l bytes with
    | none => s
    | some f =>
      if s.links ≤ l then s
      else
        let t := (s.noteDelay l f flight).takeStatus l f s.now
        if s.isJoined then t.pairSend (.status ([(l.val : Int), s.now] ++ bytes.map (fun b => (b.toNat : Int)))) else t)

/-- The instant at which 8 phase periods have passed since a receiver's last STATUS. -/
def State.linkLossAt (s : State) (l : Nat) : Nat := (s.receiver l).statusAt + (2000000 + s.fsw - 1) / s.fsw

/-- LINK_LOSS (R221): no STATUS for 8 phase periods from a receiver in service. -/
def execLinkLoss (l : Fin 8) (s : State) : Result :=
  .next (if s.links ≤ l || !(s.receiver l).started then s else (s.advance (s.linkLossAt l)).stageTrip 3 l 255 255)

/-- LINK_START (R223). -/
def execLinkStart (s : State) : Result := .next s.linkStart

/-- An input of the receiver that reports a role that contradicts its number (01 R29): input, expected role and role seen. -/
def wrongInput (seen1 seen2 : Nat) (pair : Bool) : Option (Nat × Nat × Nat) :=
  if seen1 = 2 then some (1, 1, seen1)
  else if seen2 = 1 ∨ (!pair && decide (seen2 ≠ 0)) = true then some (2, if pair then 2 else 0, seen2)
  else none

/-- RECEIVER_IDENT (R223, 01 R5, R29): an identity record. A receiver of the preferred version is configured; another is loaded first. -/
def execReceiverIdent (l : Fin 8) (i : Ident) (seen1 seen2 : Nat) (s : State) : Result :=
  .next (if !s.gate.starting || decide (s.links ≤ l) then s
    else
      let t := s.onReceiver l (fun r => { r with
        kind := i.kind, revision := i.revision, version := i.version, serial := i.serial, seen1 := seen1, seen2 := seen2 })
      if i.kind ≠ 2202 then (t.onReceiver l (fun r => { r with miswired := true })).raise Ev.gateMiswired [l.val, 0, 0, 0]
      else match wrongInput seen1 seen2 s.isPair with
        | some (n, want, seen) => (t.onReceiver l (fun r => { r with miswired := true })).raise Ev.gateMiswired [l.val, n, want, seen]
        | none =>
          let u := t.onReceiver l (fun r => { r with known := true, miswired := false })
          if i.version = s.life.parts.receiver then u.linkConfig l
          else u.emit (.gateConfig l 3 [(s.life.parts.receiver.toNat : Int)]))

/-- STATION_FW_LOAD_DONE (00 R5, 18 R456): a listed version has been written to the stations of a ring that it is listed for, or to the
receiver of a gate link, which is loaded only while the stage is OFF or ARMED. -/
def execStationFwLoadDone (gate : Bool) (n : Fin 8) (version : Word) (s : State) : Result :=
  let mine := (s.map.filter (fun m => decide (m.2.1 = n.val))).map (fun m => m.1)
  let starting := decide ((s.line n).st = .start)
  .next (if gate then (if version = s.life.parts.receiver then s.receiverLoaded n else s)
    else s.onRing (fun r => { r with stations := mapIdxL (fun k (x : Station) =>
      if mine.contains k && x.present && decide (version = s.preferred k) then s.loadStation starting k x else x) r.stations }))

/-- GATE_DELAY_UPDATE (R218): each second the averaged delay of the own input is written to each receiver. -/
def execGateDelayUpdate (second : Nat) (s : State) : Result :=
  let t := s.advance (second * 1000000000)
  .next ((List.range t.links).foldl (fun u l =>
    let r := u.receiver l
    if r.delayN = 0 then u
    else
      let d := quot r.delaySum (2 * r.delayN : Nat)
      (u.onReceiver l (fun x => { x with delay := d, delaySum := 0, delayN := 0 })).emit (.gateConfig l 2 [if u.isJunior then 2 else 1, d])) t)

/-! ### Stage commands (R222, R224, R226, 11 Table 11.1) -/

/-- One of the four stage commands from the host. -/
def State.stageRow (s : State) (q op : Nat) : State :=
  s.hostRow q 0x11 (op0 op) (fun t d =>
    let st := t.stageStatus 0 op
    if st = St.ok then .accept 0 false [] ((t.onDisp (fun x => { x with notReady := x.notReady && decide (op ≠ 1) })).forward d.cmd 0 (fun u => u.stageOp op))
    else .refuseAs st 0 (if st = St.stageNotReady then t.noteNotReady else t))

def execStageEnable (q : Fin 32) (s : State) : Result := .next (s.stageRow q 1)
def execStageDisable (q : Fin 32) (s : State) : Result := .next (s.stageRow q 2)
def execStageTripCommand (q : Fin 32) (s : State) : Result := .next (s.stageRow q 3)
def execStageTripReset (q : Fin 32) (s : State) : Result := .next (s.stageRow q 4)

/-! ### Delays and the stop ramp (R225, R226) -/

/-- When a delay that began with the present state ends: a delay of 0 at the next base period. -/
def State.delayEnd (s : State) (delay : Nat) : Nat :=
  if delay = 0 then s.baseNs s.nextBase else s.gate.since + delay * 10000000

/-- START_DELAY_END (R225, R252, 09 R235): RAMP, with r at the measured string current, every link in service at equal shares,
integrators 0, and RESTART due on every phase. -/
def execStartDelayEnd (s : State) : Result :=
  .next (match s.gate.stage with
    | .startDelay =>
      let t := s.advance (s.delayEnd (Fld.stageStart_DELAY s.cfg))
      let u := (t.onGate (fun g => { g with stage := .ramp, since := t.now, modeOff := false })).onPhases (fun p x => { x with
        active := p < 2 * t.links, ready := false, integ := 0, restart := some t.now, waiting := false, fade := 0, rst := 0, err := 0
        pred := 50000000 * (t.rx p).i, dNum := 0, dDen := 1 })
      ((u.evenShares).spread (fun _ => true)).onLoop (fun l => { l with
        r := 1000000 * t.meas.iLast.getD 0, shed := .steady, lowSince := none, place := l.mode = 2 })
    | _ => s)

/-- STOP_DELAY_END (R226). -/
def execStopDelayEnd (s : State) : Result :=
  .next (match s.gate.stage with
    | .stopDelay => (s.advance (s.delayEnd (Fld.stageStop_DELAY s.cfg))).enterStopRamp
    | _ => s)

/-- STOP_RAMP_END (R225, R226): r is zero and the measured current at or below 1 % of the rated current: every phase's MODE goes
to 0b00. STOP follows at the first base period after every phase carries it, ARM at the next cycle boundary, and the stage is
ARMED once every receiver reports it. -/
def execStopRampEnd (s : State) : Result :=
  .next (match s.gate.stage with
    | .stopRamp =>
      if s.loop.r = 0 ∧ mag (s.meas.iLast.getD 0) * 100 ≤ s.rated * 1000 then s.onGate (fun g => { g with modeOff := true }) else s
    | _ => s)

/-- STAGE_STOP_FORCED (R225): 100 ms after the ramp's nominal end the phases are turned off. -/
def execStageStopForced (s : State) : Result :=
  .next (match s.gate.stage with
    | .stopRamp =>
      if s.gate.modeOff then s
      else
        let t := s.advance (s.gate.stopEnd + 100000000)
        (t.onGate (fun g => { g with modeOff := true })).raise Ev.stageStopForced [t.meas.iLast.getD 0]
    | _ => s)

/-- ARM_TIMEOUT (R226): 100 ms after the ARM some receiver has not reported ARMED. -/
def execArmTimeout (s : State) : Result :=
  .next (match s.gate.armAt with
    | some a =>
      match (List.range s.links).find? (fun l => match (s.receiver l).rstate with | .armed => false | _ => true) with
      | some l => (s.advance (a + 100000000)).stageTrip 3 l 255 255
      | none => s
    | none => s)

/-! ### Telemetry and last-fault records (R227, R228) -/

/-- TELEM_WINDOW_END (R227): a whole multiple of the window is reached. -/
def execTelemWindowEnd (s : State) : Result :=
  let w := Fld.telemCfg_WINDOW s.cfg * 1000000
  .next (if w = 0 then s
    else
      let t := s.periodic 2 w
      let time := eventOf t.sysNs
      (t.release 1 ⟨2, 96, time, t.telemRecord time⟩).onGate (fun g => { g with
        telemSeq := g.telemSeq + 1, telem := g.telem.map (fun q => { q with sum := 0, count := 0 }) }))

/-- PEAK_READ (R227): the held values; they are re-armed at the next cycle boundary, in both twins at once. -/
def execPeakRead (q : Fin 32) (s : State) : Result :=
  .next (s.hostRow q 0x31 anyArg (fun t d =>
    .accept 96 false (t.telemRecord (eventOf t.sysNs)) (t.forward d.cmd 0 (fun u => u.onGate (fun g => { g with rearm := true })))))

/-- FAULT_CAPTURE_DONE (R228): a capture holds its 512 periods; a record of its class still waiting to be written is replaced. -/
def execFaultCaptureDone (s : State) : Result :=
  .next (match s.gate.captures.find? (fun c => !c.complete && decide (32768 ≤ c.record.data.length)) with
    | none => s
    | some c =>
      let old := s.gate.captures.find? (fun x => x.complete && decide (x.record.cls = c.record.cls))
      let rest := s.gate.captures.filter (fun x => decide (x ≠ c) && !(x.complete && decide (x.record.cls = c.record.cls)))
      let lost := match old with | some x => satAdd x.record.lost 1 255 | none => 0
      s.onGate (fun g => { g with captures := rest ++ [⟨{ c.record with lost := lost }, true⟩] }))

/-- FAULT_RECORD_WRITTEN (R228): the record is in its slot, its header check last; it waits while writes are barred. -/
def execFaultRecordWritten (s : State) : Result :=
  .next (if s.nvmBarred then s
    else match s.gate.captures.find? (fun c => c.complete) with
      | none => s
      | some c => s.onGate (fun g => { g with
          slots := g.slots.set c.record.cls (some c.record), newBits := g.newBits.set c.record.cls true
          captures := g.captures.filter (fun x => decide (x ≠ c)) }))

/-- FAULT_READ (R228). -/
def faultReadOp (s : State) (d : Desc) : Verdict :=
  let c := d.argByte 0
  if 11 < c then .refuse St.fieldRange 32
  else if 1 < d.argByte 1 then .refuse St.fieldRange 33
  else match s.gate.slots.getD c none with
    | none => .refuse St.noRecord 0
    | some r => .accept 65792 false r.bytes
        (if d.argByte 1 = 1 then s.onGate (fun g => { g with newBits := g.newBits.set c false }) else s)

def execFaultRead (q : Fin 32) (s : State) : Result := .next (s.hostRow q 0x32 anyArg faultReadOp)

end Sys2Proof.Machine
end

