-- ==== Sys2Proof/Machine/Gelfoel.lean ====
section
/-! DEFINITION. Gelfoel images (13 R340 to R342, R357, Tables 13.3, 13.8 to 13.10): reading one from its bytes, its checks, worst
paths; and the tables of the site configuration block that an image's points name (15 Tables 15.6, 15.8; 18 Tables 18.3, 18.3b). -/
namespace Sys2Proof.Machine

/-- The word at byte i. -/
def wordAt (b : List Byte) (i : Nat) : Word := BitVec.ofNat 32 (leAt b i 4)

/-! ### The site's tables (15 R399, R409; 18 R459) -/

/-- A row of the CAN object table (Table 15.6). -/
structure CanRow where
  port   : Nat
  obj    : Nat
  dir    : Nat
  flags  : Nat
  ident  : Nat
  mask   : Nat
  length : Nat
  owner  : Nat
  period : Nat
  deriving DecidableEq, Repr

def canRowAt (b : List Byte) (i : Nat) : CanRow :=
  let o := leAt b 16 4 + 16 * i
  ⟨byteAt b o, byteAt b (o + 1), byteAt b (o + 2), byteAt b (o + 3), leAt b (o + 4) 4, leAt b (o + 8) 4, byteAt b (o + 12), byteAt b (o + 13),
    leAt b (o + 14) 2⟩

/-- A row of the Modbus helper table (Table 15.8). -/
structure MbRow where
  port   : Nat
  slave  : Nat
  func   : Nat
  count  : Nat
  start  : Nat
  period : Nat
  format : Nat
  fails  : Nat
  deriving DecidableEq, Repr

def mbRowAt (b : List Byte) (i : Nat) : MbRow :=
  let o := leAt b 22 4 + 16 * i
  ⟨byteAt b o, byteAt b (o + 1), byteAt b (o + 2), byteAt b (o + 3), leAt b (o + 4) 2, leAt b (o + 6) 2, byteAt b (o + 8), byteAt b (o + 9)⟩

/-- The scope of a chain address in a block: first and number of CAN entries, first and number of Modbus entries (R459). A junior
uses its senior's. -/
def scopeIn (b : List Byte) (addr : Nat) : Nat × Nat × Nat × Nat :=
  let a := match siteEntryIn b addr with
    | some e => if e.kind = 3 then addr - 1 else addr
    | none => addr
  let o := leAt b 28 4 + 8 * (a - 1)
  if leAt b 28 4 = 0 then (0, leAt b 20 2, 0, leAt b 26 2)
  else (leAt b o 2, leAt b (o + 2) 2, leAt b (o + 4) 2, leAt b (o + 6) 2)

/-- The CAN rows a module at an address uses. -/
def canRowsIn (b : List Byte) (addr : Nat) : List CanRow :=
  let c := scopeIn b addr
  (List.range c.2.1).map (fun i => canRowAt b (c.1 + i))

/-- The rows in use: none in guard mode. -/
def State.canRows (s : State) : List CanRow := match s.life.guard_, s.siteBlock with
  | false, some b => canRowsIn b s.chain.addr
  | _, _ => []

def State.canRow (s : State) (p o : Nat) : Option CanRow := s.canRows.find? (fun r => decide (r.port = p ∧ r.obj = o))

/-- The Modbus entries in use, with their indices in the whole table. -/
def State.mbRows (s : State) : List (Nat × MbRow) := match s.life.guard_, s.siteBlock with
  | false, some b =>
    let c := scopeIn b s.chain.addr
    (List.range c.2.2.2).map (fun i => (c.2.2.1 + i, mbRowAt b (c.2.2.1 + i)))
  | _, _ => []

def State.mbRow (s : State) (e : Nat) : Option MbRow := (s.mbRows.find? (fun r => decide (r.1 = e))).map (fun r => r.2)

/-- Words an entry delivers or takes: its registers, or half of them where they are joined. -/
def MbRow.words (r : MbRow) : Nat := if r.format / 2 % 2 = 1 then r.count / 2 else r.count

/-- A read entry. -/
def MbRow.reads (r : MbRow) : Bool := decide (r.func = 3 ∨ r.func = 4)

/-! ### Reading an image (Tables 13.8 to 13.10) -/

def sectionAt (b : List Byte) (n : Nat) : Section :=
  let o := 64 + 32 * n
  { code := (List.range (min (leAt b (o + 4) 4) 65537)).map (fun i => wordAt b (leAt b o 4 + 4 * i))
    k := byteAt b (o + 8), events := byteAt b (o + 9)
    err := if leAt b (o + 12) 4 = 0xFFFFFFFF then none else some (leAt b (o + 12) 4)
    localW := leAt b (o + 16) 2, retW := leAt b (o + 18) 2, inst := leAt b (o + 20) 2, worst := leAt b (o + 24) 4 }

/-- Words a symbol holds. -/
def symWords (type len : Nat) : Nat := if type ≤ 1 then 1 else if type = 2 then len else 0

def symbolAt (b : List Byte) (i init : Nat) : Symbol :=
  let o := leAt b 24 4 + 4 + 48 * i
  let type := byteAt b (o + 34)
  let len := leAt b (o + 40) 4
  { name := slice b o 32, engine := byteAt b (o + 32), area := byteAt b (o + 33), type := type
    ret := byteAt b (o + 35) % 2 == 1, index := leAt b (o + 36) 4, len := len
    init := (List.range (min (symWords type len) 16384)).map (fun j => wordAt b (leAt b 36 4 + 4 * (init + j))) }

/-- The symbols, with the running offset of their initial values. -/
def symbolsOf (b : List Byte) : Nat → Nat → Nat → List Symbol
  | 0, _, _ => []
  | k + 1, i, init =>
    let x := symbolAt b i init
    x :: symbolsOf b k (i + 1) (init + x.init.length)

def ioAt (b : List Byte) (i : Nat) : IoEntry :=
  let o := leAt b 28 4 + 4 + 16 * i
  { sym := leAt b o 2, kind := byteAt b (o + 2), out := byteAt b (o + 3) % 2 == 1, fixed := byteAt b (o + 3) / 2 % 2 == 1
    point := leAt b (o + 4) 4, value := wordAt b (o + 8)
    qual := if leAt b (o + 12) 2 = 0xFFFF then none else some (leAt b (o + 12) 2) }

def evAt (b : List Byte) (i : Nat) : EvTask :=
  let o := leAt b 32 4 + 4 + 16 * i
  ⟨leAt b o 4, byteAt b (o + 4), byteAt b (o + 5), leAt b (o + 6) 2, leAt b (o + 8) 2, leAt b (o + 10) 4⟩

/-- Entries of a table: the count at its offset, as far as the image's length could hold them. -/
def tableCount (b : List Byte) (off size : Nat) : Nat := min (leAt b (leAt b off 4) 4) (b.length / size)

def parseImage (b : List Byte) : Gelfoel :=
  { id := wordAt b 8, blMin := byteAt b 6
    secs := (List.range 8).map (fun n => if byteAt b 7 / 2 ^ n % 2 = 1 then some (sectionAt b n) else none)
    syms := symbolsOf b (tableCount b 24 48) 0 0
    io := (List.range (tableCount b 28 16)).map (ioAt b)
    evts := (List.range (tableCount b 32 16)).map (evAt b)
    shared := leAt b 40 2 }

/-- Check 1 of R357: the header and CHECK, and BL_MIN at or below a behaviour level. -/
def headerOk (b : List Byte) (level : Nat) : Bool :=
  decide (256 ≤ b.length ∧ b.length ≤ 4194304 ∧ leAt b 12 4 = b.length ∧ leAt b 0 4 = 0x4C454647 ∧ leAt b 4 2 = 1 ∧ leAt b 8 4 ≠ 0)
    && zerosAt b 42 18 && decide (byteAt b 6 ≤ level)
    && decide (crc32c (b.take 60 ++ [0, 0, 0, 0] ++ b.drop 64) = leAt b 60 4)

/-- A table of entries of a size lies within the image. -/
def tableIn (b : List Byte) (off size : Nat) : Bool :=
  decide (leAt b off 4 + 4 + size * leAt b (leAt b off 4) 4 ≤ b.length)

/-- The parts that Tables 13.8 to 13.10 place lie within the image, and their reserved bits are 0. -/
def layoutOk (b : List Byte) : Bool :=
  let entries (off size : Nat) : List Nat := (List.range (tableCount b off size)).map (fun i => leAt b off 4 + 4 + size * i)
  tableIn b 24 48 && tableIn b 28 16 && tableIn b 32 16
    && (List.range 8).all (fun n => decide (byteAt b 7 / 2 ^ n % 2 = 0) ||
      (let o := 64 + 32 * n
      decide (leAt b o 4 + 4 * leAt b (o + 4) 4 ≤ b.length) && zerosAt b (o + 10) 2 && zerosAt b (o + 22) 2 && zerosAt b (o + 28) 4))
    && (entries 24 48).all (fun o => decide (byteAt b (o + 35) < 2) && zerosAt b (o + 44) 4)
    && (entries 28 16).all (fun o => decide (byteAt b (o + 3) < 4) && zerosAt b (o + 14) 2)
    && (entries 32 16).all (fun o => zerosAt b (o + 14) 2)
    && decide (leAt b 36 4 + 4 * sumN ((symbolsOf b (tableCount b 24 48) 0 0).map (fun x => x.init.length)) ≤ b.length)

/-! ### Instructions (R340, Table 13.3) -/

def opOf (w : Word) : Nat := w.toNat / 2 ^ 24
def kindOf (w : Word) : Nat := w.toNat / 2 ^ 22 % 4
def opdOf (w : Word) : Nat := w.toNat % 2 ^ 22
def areaOf (w : Word) : Nat := opdOf w / 2 ^ 19
def idxOf (w : Word) : Nat := opdOf w % 2 ^ 19
def immOf (w : Word) : Int := signedOf 22 (opdOf w)

/-- Operand shapes of Table 13.3. -/
inductive Shape where
  | bit
  | none
  | index
  | word
  | wordImm
  | imm
  | inst
  | bad
  deriving DecidableEq, Repr

def shapeOf (op : Nat) : Shape :=
  if 0x01 ≤ op ∧ op ≤ 0x0B then .bit
  else if (0x0C ≤ op ∧ op ≤ 0x0F) ∨ op = 0x13 then .none
  else if 0x10 ≤ op ∧ op ≤ 0x12 then .index
  else if op = 0x20 ∨ (0x23 ≤ op ∧ op ≤ 0x27) ∨ (0x2A ≤ op ∧ op ≤ 0x2C) ∨ op = 0x30 ∨ op = 0x31 then .wordImm
  else if op = 0x22 then .word
  else if op = 0x21 ∨ op = 0x28 ∨ op = 0x29 then .imm
  else if 0x40 ≤ op ∧ op ≤ 0x47 then .inst
  else .bad

/-- The weights of Table 13.3. -/
def weightOf (op : Nat) : Nat :=
  if op ≤ 0x13 then 1 else if op ≤ 0x2C then 2 else if op = 0x30 then 6 else if op = 0x31 then 16 else 4

/-- Symbols of engine e, shared words included. -/
def Symbol.of (x : Symbol) (e : Nat) : Bool := decide (x.engine = e ∨ x.engine = 255)

/-- First bit and number of bits a symbol takes in its area. -/
def Symbol.span (x : Symbol) : Nat × Nat := if x.type = 0 then (x.index, 1) else (32 * x.index, 32 * symWords x.type x.len)

/-- Words of an area of an engine: input and output images reach as far as the engine's symbols. -/
def Gelfoel.areaWords (g : Gelfoel) (e area : Nat) : Nat :=
  let sec := (g.secs.getD e none)
  if area ≤ 1 then
    g.syms.foldl (fun m x => if x.engine = e ∧ x.area = area ∧ x.type ≤ 2 then max m ((x.span.1 + x.span.2 + 31) / 32) else m) 0
  else if area = 2 then (match sec with | some c => c.localW | none => 0)
  else if area = 3 then (match sec with | some c => c.retW | none => 0)
  else if area = 4 then g.shared else if area = 5 then 25 else 256

/-- The instruction writes its operand. -/
def writesOp (op : Nat) : Bool := decide ((0x08 ≤ op ∧ op ≤ 0x0B) ∨ op = 0x22)

/-- Opcode, operand kind, address and written area of one instruction (R342). -/
def Gelfoel.instrOk (g : Gelfoel) (e : Nat) (c : Section) (w : Word) : Bool :=
  let op := opOf w
  let k := kindOf w
  let inArea := if k = 0 then decide (idxOf w / 32 < g.areaWords e (areaOf w)) else decide (idxOf w < g.areaWords e (areaOf w))
  let mayWrite := !writesOp op || !(decide (areaOf w = 0 ∨ areaOf w = 5 ∨ areaOf w = 6))
    || (decide (areaOf w = 5 ∧ k = 0) && decide (idxOf w = 2 ∨ idxOf w = 3))
  match shapeOf op with
  | .bit => decide (k = 0) && inArea && mayWrite
  | .none => true
  | .index => decide (k = 3)
  | .word => decide (k = 1) && inArea && mayWrite
  | .wordImm => decide (k = 2) || (decide (k = 1) && inArea)
  | .imm => decide (k = 2) && (decide (op = 0x21) || decide (0 ≤ immOf w ∧ immOf w ≤ 31))
  | .inst => decide (k = 3) && decide (opdOf w < c.inst)
  | .bad => false

/-- No instance is used with two kinds; CLD goes with either counter (R342). -/
def instKindsOk (code : List Word) : Bool :=
  let uses := (code.filter (fun w => decide (shapeOf (opOf w) = .inst))).map (fun w => (opdOf w, opOf w))
  uses.all (fun a => uses.all (fun b => decide (a.1 ≠ b.1 ∨ a.2 = b.2)
    || (decide (a.2 = 0x45) && decide (b.2 = 0x43 ∨ b.2 = 0x44)) || (decide (b.2 = 0x45) && decide (a.2 = 0x43 ∨ a.2 = 0x44))))

/-! ### Paths (R342, R347). `base` is the index of a list's first instruction. -/

/-- For each branch-stack depth 0 to 16, whether every path from an instruction is sound: it meets END with an empty stack. -/
def flowStep (base : Nat) (w : Word) (tail : List (List Bool)) : List Bool :=
  let op := opOf w
  let at_ (t d : Nat) : Bool := decide (base < t) && (tail.getD (t - base - 1) []).getD d false
  (List.range 17).map (fun d =>
    if op = 0x13 then decide (d = 0)
    else if op = 0x0D then decide (d < 16) && at_ (base + 1) (d + 1)
    else if op = 0x0E ∨ op = 0x0F then decide (0 < d) && at_ (base + 1) (d - 1)
    else if op = 0x10 then at_ (opdOf w) d
    else if op = 0x11 ∨ op = 0x12 then at_ (opdOf w) d && at_ (base + 1) d
    else at_ (base + 1) d)

def flow (base : Nat) : List Word → List (List Bool)
  | [] => []
  | w :: l =>
    let t := flow (base + 1) l
    flowStep base w t :: t

/-- The largest sum of weights of a path from each instruction. -/
def costs (base : Nat) : List Word → List Nat
  | [] => []
  | w :: l =>
    let t := costs (base + 1) l
    let op := opOf w
    let target := t.getD (opdOf w - base - 1) 0
    (if op = 0x13 then 1
     else if op = 0x10 then 1 + target
     else if op = 0x11 ∨ op = 0x12 then 1 + max target (t.getD 0 0)
     else weightOf op + t.getD 0 0) :: t

/-- Event tasks of an engine, in table order: task n + 1 is entry n. -/
def Gelfoel.events (g : Gelfoel) (e : Nat) : List EvTask := g.evts.filter (fun t => decide (t.engine = e))

/-- First instructions of an engine's tasks: 0 the cyclic task, at index 0; 7 the error task; 1 to 4 its event tasks. -/
def Gelfoel.entry (g : Gelfoel) (e task : Nat) : Option Nat :=
  match g.secs.getD e none with
  | none => none
  | some c => if task = 0 then some 0 else if task = 7 then c.err else ((g.events e)[task - 1]?).map (fun t => t.first)

/-- A task's instructions end where the next one begins. -/
def Gelfoel.taskCode (g : Gelfoel) (e task : Nat) : List Word :=
  match g.secs.getD e none, g.entry e task with
  | some c, some f =>
    let starts := ([0, 1, 2, 3, 4, 7].filterMap (g.entry e)).filter (fun x => decide (f < x))
    let stop := starts.foldl min c.code.length
    (c.code.drop f).take (stop - f)
  | _, _ => []

/-- A task's worst path. -/
def Gelfoel.taskCost (g : Gelfoel) (e task : Nat) : Nat := (costs ((g.entry e task).getD 0) (g.taskCode e task)).getD 0 0

/-- Every jump of a task goes forward within it (R342). -/
def jumpsOk (base : Nat) (l : List Word) : Bool :=
  (mapIdxL (fun i (w : Word) => decide (shapeOf (opOf w) ≠ .index ∨ (base + i < opdOf w ∧ opdOf w < base + l.length))) l).all id

def Gelfoel.taskOk (g : Gelfoel) (e task : Nat) : Bool :=
  match g.entry e task with
  | none => true
  | some f => jumpsOk f (g.taskCode e task) && ((flow f (g.taskCode e task)).getD 0 []).getD 0 false

/-- An engine's period in µs: base × 2^k (R334). -/
def Section.period (c : Section) (base : Nat) : Nat := 250 * base * 2 ^ c.k

/-- Ceiling of a quotient. -/
def ceilDiv (a b : Nat) : Nat := if b = 0 then 0 else (a + b - 1) / b

/-- The cyclic task's worst path (R347). -/
def Gelfoel.cyclicCost (g : Gelfoel) (e base : Nat) : Nat :=
  match g.secs.getD e none with
  | none => 0
  | some c => g.taskCost e 0 + (if c.err.isSome then g.taskCost e 7 else 0)
    + sumN (mapIdxL (fun i (t : EvTask) => g.taskCost e (i + 1) * ceilDiv (c.period base) (250 * t.interval)) (g.events e))

/-! ### Writers (R338) -/

/-- What a task writes: area, first bit, number of bits. -/
def writeSpans (l : List Word) : List (Nat × Nat × Nat) :=
  (l.filter (fun w => writesOp (opOf w))).map (fun w => if kindOf w = 0 then (areaOf w, idxOf w, 1) else (areaOf w, 32 * idxOf w, 32))

def meets (spans : List (Nat × Nat × Nat)) (area lo n : Nat) : Bool :=
  spans.any (fun x => decide (x.1 = area ∧ x.2.1 < lo + n ∧ lo < x.2.1 + x.2.2))

/-- Task t of engine e as Table 14.4b numbers it: its cyclic task with its error task, or an event task. -/
def Gelfoel.spans (g : Gelfoel) (e t : Nat) : List (Nat × Nat × Nat) :=
  writeSpans (if t = 0 then g.taskCode e 0 ++ g.taskCode e 7 else g.taskCode e t)

/-- Every task of the image with its claimant index. -/
def Gelfoel.writers (g : Gelfoel) : List (Nat × Nat × List (Nat × Nat × Nat)) :=
  (List.range 8).flatMap (fun e => (List.range 5).map (fun t => (e, 0x4000 + 8 * e + t, g.spans e t)))

def Gelfoel.sym (g : Gelfoel) (i : Nat) : Symbol := g.syms.getD i ⟨[], 0, 0, 0, false, 0, 0, []⟩

/-- The tasks that write an output point: those that write one of the symbols bound to it. -/
def Gelfoel.pointWriters (g : Gelfoel) (kind point : Nat) : List Nat :=
  let ws := g.writers
  let bound := g.io.filter (fun x => x.out && decide (x.kind = kind ∧ x.point = point))
  let own := (ws.filter (fun w => bound.any (fun x => let y := g.sym x.sym
    decide (y.engine = w.1) && meets w.2.2 y.area y.span.1 y.span.2))).map (fun w => w.2.1)
  let direct := if kind = 8 then (ws.filter (fun w => meets w.2.2 7 (32 * point) 32)).map (fun w => w.2.1) else []
  (own ++ direct).eraseDups

/-- The tasks that write a shared word. -/
def Gelfoel.sharedWriters (g : Gelfoel) (i : Nat) : List Nat :=
  (g.writers.filter (fun w => meets w.2.2 4 (32 * i) 32)).map (fun w => w.2.1)

/-- The first symbol that holds a shared word. -/
def Gelfoel.sharedSym (g : Gelfoel) (i : Nat) : Nat :=
  (mapIdxL (fun n (x : Symbol) => (n, x)) g.syms).foldr (fun p acc =>
    if p.2.area = 4 ∧ p.2.span.1 < 32 * i + 32 ∧ 32 * i < p.2.span.1 + p.2.span.2 then p.1 else acc) 0

/-- R338: the two claimants of the first output point, CAN object or shared word that has two, the lower index first. -/
def Gelfoel.claims (g : Gelfoel) (can : List CanRow) : Option (Nat × Nat) :=
  let points := (g.io.filter (fun x => x.out)).map (fun x => (x.kind, x.point)) ++ (List.range 256).map (fun n => (8, n))
  let two (p : Nat × Nat) : Option (Nat × Nat) :=
    let owner := if p.1 = 5 then (can.find? (fun r => decide (r.port = p.2 / 256 ∧ r.obj = p.2 % 128 ∧ r.owner ≠ 0))) else none
    match g.pointWriters p.1 p.2, owner with
    | a :: _, some r => some (a, 0x8000 + (r.owner - 1))
    | a :: b :: _, none => some (a, b)
    | _, _ => none
  match (points.filterMap two).head? with
  | some x => some x
  | none => ((List.range g.shared).filterMap (fun i => match g.sharedWriters i with
    | _ :: b :: _ => some (0x3000 + g.sharedSym i, b)
    | _ => none)).head?

/-! ### The limits of Tables 13.8 to 13.10 -/

/-- An I/O entry names a point of Table 13.2, in a direction it has, within the module's scope (15 R409). -/
def ioOk (g : Gelfoel) (can : List CanRow) (mb : List (Nat × MbRow)) (x : IoEntry) : Bool :=
  let y := g.sym x.sym
  let p := x.point
  decide (x.sym < g.syms.length) && (match x.qual with | some q => decide (q < g.syms.length) && decide ((g.sym q).type = 0) | none => true)
    && decide (y.area = if x.out then 1 else 0)
    && (match x.kind with
      | 1 => decide (p ≤ 15 ∧ y.type = 0)
      | 2 => !x.out && decide (p / 8 < 512 ∧ p % 8 ≤ 4 ∧ y.type = 1)
      | 3 => !x.out && decide (p ≤ 255 ∧ y.type = 1)
      | 4 => !x.out && decide (p ≤ 8 ∧ y.type = 1)
      | 5 => decide (y.type = 1 ∨ y.type = 2) && decide (symWords y.type y.len ≤ 16 ∧ p / 2048 = 0 ∧ p / 128 % 2 = 0)
          && can.any (fun r => decide (r.port = p / 256 ∧ r.obj = p % 128 ∧ r.dir = if x.out then 2 else 1))
      | 6 => decide (y.type = 1) && mb.any (fun r => decide (r.1 = p % 256 ∧ p / 256 < r.2.words) && decide (r.2.reads = !x.out))
      | 7 => !x.out && decide (p ≤ 255 ∧ y.type = 1)
      | 8 => x.out && decide (p ≤ 255 ∧ y.type = 1)
      | 9 => x.out && decide (p ≤ 255 ∧ y.type = 0)
      | _ => false)

def Gelfoel.symOk (g : Gelfoel) (x : Symbol) : Bool :=
  decide ((x.engine < 8 ∨ x.engine = 255) ∧ x.area ≤ 7 ∧ x.type ≤ 9)
    && (if x.engine = 255 then decide (x.area = 4) else (g.secs.getD x.engine none).isSome)
    && (if x.type ≤ 2 then decide (x.span.1 + x.span.2 ≤ 32 * g.areaWords (min x.engine 7) x.area) && (decide (x.type = 2) || decide (x.len = 1))
        else (match g.secs.getD x.engine none with | some c => decide (x.index < c.inst) | none => false))

def Gelfoel.limitsOk (g : Gelfoel) (base : Nat) : Bool :=
  decide (g.shared ≤ 16384)
    && (List.range 8).all (fun e => match g.secs.getD e none with
      | none => (g.events e).isEmpty
      | some c => decide (c.code.length ≤ 65536 ∧ c.k ≤ 9 ∧ c.period base ≤ 100000 ∧ c.events ≤ 4 ∧ c.events = (g.events e).length
          ∧ c.localW ≤ 16384 ∧ c.retW ≤ 4096 ∧ c.inst ≤ 4096)
        && (match c.err with | some i => decide (i < c.code.length) | none => true))
    && g.syms.all g.symOk
    && decide ((g.syms.map (fun x => x.name)).eraseDups.length = g.syms.length)
    && g.evts.all (fun t => decide (t.engine < 8 ∧ 1 ≤ t.trigger ∧ t.trigger ≤ 4 ∧ 1 ≤ t.interval ∧ t.interval ≤ 400)
        && (match g.secs.getD t.engine none with | some c => decide (t.first < c.code.length) | none => false))

/-- R342 over every task of every engine. -/
def Gelfoel.codeOk (g : Gelfoel) : Bool :=
  (List.range 8).all (fun e => match g.secs.getD e none with
    | none => true
    | some c => c.code.all (g.instrOk e c) && instKindsOk c.code && [0, 1, 2, 3, 4, 7].all (g.taskOk e))

/-- Check 3 of R357: the recomputed worst paths are those the image states. -/
def Gelfoel.worstOk (g : Gelfoel) (base : Nat) : Bool :=
  (List.range 8).all (fun e => match g.secs.getD e none with
    | none => true
    | some c => decide (c.worst = g.cyclicCost e base)
      && (mapIdxL (fun i (t : EvTask) => decide (t.worst = g.taskCost e (i + 1))) (g.events e)).all (fun x => x))

/-! ### Admission (02 R50, 13 R347) -/

/-- Predicted slack in 0.01 % of a work of so many units at a unit cost in ps, over a time in µs. -/
def slackOf (units cost us : Nat) : Int := 10000 - Sys2Proof.Config.quot (10000 * (30000000 + units * cost : Nat)) (1000000 * us : Nat)

/-- 1 − (30 µs + units × unit cost in ps) ÷ time in µs is at least the trigger, exactly (R50). -/
def fits (units cost us trigger : Nat) : Bool := decide (100 * (30000000 + units * cost) ≤ (100 - trigger) * (1000000 * us))

/-- The first task that fails: engine as the SLACK field numbers it, profile, predicted slack (14 Table 14.4). A program over the
size ceiling fails in the first permitted profile. -/
def Gelfoel.refusal (g : Gelfoel) (p : Plan) (trigger base : Nat) : Option (Nat × Nat × Int) :=
  let profiles := (List.range 3).filter (fun n => p.permitted.getD n false)
  let tests : List (Nat × Nat × Int × Bool) := (List.range 8).flatMap (fun e => match g.secs.getD e none with
    | none => []
    | some c => profiles.flatMap (fun n =>
      let u := p.unitCost.getD n 0
      let test (units us : Nat) (small : Bool) : Nat × Nat × Int × Bool := (e, n, slackOf units u us, small && fits units u us trigger)
      test (g.cyclicCost e base) (c.period base) (decide (c.code.length ≤ p.ceiling))
        :: mapIdxL (fun i (t : EvTask) => test (g.taskCost e (i + 1)) (250 * t.interval) true) (g.events e)))
  (tests.find? (fun t => !t.2.2.2)).map (fun t => (4 + t.1, t.2.1, t.2.2.1))

end Sys2Proof.Machine
end

