-- ==== Sys2Proof/Machine/Loop.lean ====
section
/-! DEFINITION. Commands of the loop engines (09). -/
namespace Sys2Proof.Machine

open Sys2Proof.Config (quot)

/-! ### Budgets (11 R290, R291) -/

/-- The smaller of two magnitudes where given. -/
def minOpt (a b : Option Int) : Option Int := match a, b with
  | some x, some y => some (min x y)
  | some x, none => some x
  | none, b => b

/-- What the sources' budgets ask of a term, nA: terms 0 and 1 current charge and discharge, 2 and 3 power. -/
def State.budgetTarget (s : State) (i : Nat) : Option Int :=
  let l := if i < 2 then s.disp.budI else s.disp.budP
  let conv (v : Int) : Int := if i < 2 then 1000000 * v else quot (1000000000000000 * v) s.loop.vs
  let one (b : Option (Int × Int)) : Option Int := b.map (fun e => conv (if i % 2 = 0 then e.1 else -e.2))
  minOpt (one (l.getD 0 none)) (one (l.getD 1 none))

/-- A base period of a term: a draining one moves towards its target, another stands at it. -/
def BudgetTerm.drain (t : BudgetTerm) (target : Option Int) (step : Int) : BudgetTerm := match target, t.eff with
  | none, _ => ⟨none, false⟩
  | some v, none => ⟨some v, false⟩
  | some v, some e =>
    if t.draining && decide (v < e) then ⟨some (max v (e - step)), decide (v < e - step)⟩ else ⟨some v, false⟩

def State.drainBudgets (s : State) : State :=
  let step := quot (Fld.dispCfg_LIM_SLEW s.cfg * 250000 : Nat) s.fsw
  s.onDisp (fun d => { d with terms := mapIdxL (fun i (t : BudgetTerm) => t.drain (s.budgetTarget i) step) d.terms })

/-! ### BASE_PERIOD -/

/-- The ramp of a base period (R237, Table 9.2): the step, then the clamp to the limits. -/
def State.rampStep (s : State) : State :=
  let l := s.loop
  let lim (x : Int) : Int := clampI s.disp.limD s.disp.limC x
  let slope := s.slopeStep (s.rampTime.getD 0)
  match s.gate.stage with
  | .ramp =>
    let r := lim (toward l.r l.target slope)
    let t := s.onLoop (fun x => { x with r := r })
    if r = l.target then t.onGate (fun g => { g with stage := .run, since := s.now }) else t
  | .run => s.onLoop (fun x => { x with r := lim (if x.tgtMode = 2 then x.target else toward x.r x.target slope) })
  | .stopDelay => s.onLoop (fun x => { x with r := lim x.r })
  | .stopRamp => s.onLoop (fun x => { x with r := lim (toward x.r 0 slope) })
  | .startDelay => s
  | _ => s.onLoop (fun x => { x with r := 0 })

/-- The headroom has fallen below the segment's peak (06 R168): the segment restarts, at most twice in a run. -/
def State.headroomCheck (s : State) : State :=
  if s.exciting && decide (s.headroom < s.est.imp.peakNa) then
    if 2 ≤ s.est.imp.restarts then s.abandonRun 1
    else
      (if s.est.imp.armDue then s else s.lockin 0x80000000).onImp (fun i => { i with
        phase := .waiting, waited := 0, win := 0, restarts := i.restarts + 1, armDue := false })
  else s

/-- Bus under-voltage (08 Table 8.7, class 5): every VBUS below BUS_UV for 1 ms from RAMP to STOP_RAMP. -/
def State.underVoltage (s : State) : State :=
  let on := match s.gate.stage with | .ramp | .run | .stopDelay | .stopRamp => true | _ => false
  let uv := Fld.glLim1_BUS_UV s.cfg
  let low := on && decide (uv ≠ 0) && (List.range s.links).all (fun l => decide (50 * (s.receiver l).vbus < 1000 * uv))
  if !low then s.onGate (fun g => { g with uvSince := none })
  else match s.gate.uvSince with
    | none => s.onGate (fun g => { g with uvSince := some s.now })
    | some a => if a + 1000000 ≤ s.now then s.stageTrip 5 255 255 255 else s

/-- STOP on every link at the first base period after every phase carries MODE 0b00 (08 R226). -/
def State.stopAfterRamp (s : State) : State := match s.gate.stage with
  | .stopRamp => if s.gate.modeOff && s.allOff && !s.gate.stopSent then s.sendStop.onGate (fun g => { g with stopSent := true }) else s
  | _ => s

/-- A link is restored (R249): RESTART on its first frames, its shares rise over 16 phase periods. -/
def State.restoreLink (s : State) (l : Nat) : State :=
  let t := s.onPhases (fun p x => if p / 2 = l then
    (if x.active then { x with fade := 16 - x.fade }
     else { x with active := true, ready := false, share := 0, fade := 16, restart := some s.now }) else x)
  ((t.spread (fun p => decide (p / 2 = l) && !(s.phase p).active)).onLoop (fun x => { x with shed := .restoring l })).onImp
    (fun i => { i with spoiled := true })

/-- The shed and restore conditions of a base period (R248, R249). -/
def State.shedWatch (s : State) : State :=
  let on := s.linksOn
  let n := 2 * on.length
  let r := 100 * mag s.loop.r * (2 * s.links)
  let low := decide (r < Fld.shedCfg_SHED_PCT s.cfg * s.rated * 1000000000 * (n - 2))
  let high := decide (Fld.shedCfg_RESTORE_PCT s.cfg * s.rated * 1000000000 * n < r)
  let t := s.onLoop (fun x => { x with lowSince := if low then (match x.lowSince with | some a => some a | none => some s.now) else none })
  let off := (List.range s.links).find? (fun l => !on.contains l)
  if !high || !s.gate.switching then t
  else match t.loop.shed with
    | .shedding l => t.restoreLink l
    | .steady | .dwell _ => (match off with | some l => t.restoreLink l | none => t)
    | _ => t

/-- Injections: one accepted starts, one whose stage has left RUN ends (R255, R256). -/
def State.injectionWatch (s : State) : State :=
  let t := if s.gate.stage = .run then s else s.endInjections
  (List.range 3).foldl (fun u e =>
    if (u.diag e).startDue then u.onDiag e (fun d => { d with
      startDue := false, injecting := true, injFrom := u.now, st := .capturing, trigIdx := d.mem.length }) else u) t

/-- Phases that do not run swap their bank at the base period. -/
def State.idleSwap (s : State) : State :=
  let bank := Fld.loopCtl_CUR_SEL s.cfg
  let runs := s.gate.switching && decide (s.phasesOn ≠ [])
  (if runs then s else s.bankSwap).onPhases (fun p x =>
    if runs && x.active && decide (p < 2 * s.links) then x else { x with bank := bank })

/-- The work of a base period, in order: budget drains, the limits, the reference, the conditions judged once per base period, the samples
of the captures. -/
def State.periodWork (s : State) : State :=
  let t := ((s.drainBudgets.formLimits.rampStep).headroomCheck.underVoltage).stopAfterRamp
  let t := ((t.shedWatch.injectionWatch).idleSwap).faultCapture
  ((t.diagCycle 0).diagCycle 1).onLoop (fun l => { l with satCur := l.phases.any (fun x => x.active && (x.clampHi || x.clampLo)) })

/-- BASE_PERIOD (R237, R238, 11 R291, 06 R168, 08 R226, R228): the next base period begins. The mean FGI voltage over the one that ends is
a free value, as no row brings it (log 142). -/
def execBasePeriod (s : State) : Result :=
  .next ((s.draw.advance (s.baseNs s.nextBase)).onGate (fun g =>
    { g with fgPeriod := (s.fluxgate (Sys2Proof.Config.fluxgateMean s.free)).getD 0 })).periodWork

/-! ### The current loop (R241, R243) -/

/-- The sample of period k counts for the loop of period k + 1 (R243); joined twins count one that either received 4 µs before the release,
and no later one (16 R420). -/
def State.countSample (s : State) (p k : Nat) (release : Nat) : State :=
  s.onRx p (fun r => { r with fresh := r.fresh && decide (r.seq = BitVec.ofNat 32 k) && (!s.isJoined || decide (r.rxAt + 4000 ≤ release)) })

/-- A phase's loop computes for its period k, which starts at a shift. -/
def State.phaseCompute (s : State) (p k shift : Nat) : State :=
  let x := s.phase p
  let t := s.bankSwap
  let u := t.onPhase p (fun _ => { t.loopStep p ((baseStart s.fsw k + shift) / 2) (mag (shift - x.shift : Int)) x with shift := shift, done := k })
  ((u.onRx p (fun r => { r with fresh := false })).fadeStep p).shedProgress

/-- The phase is in service in a stage that switches. -/
def State.computesPhase (s : State) (p : Nat) : Bool := s.gate.switching && (s.phase p).active && decide (p < 2 * s.links)

/-- STATUS_CUTOFF (R241 to R246): 3 µs before the release of the phase's next EDGE frame its loop computes, on the sample that
has arrived or, missing one, on its own prediction. -/
def execStatusCutoff (p : Fin 16) (s : State) : Result :=
  .next (if !s.computesPhase p then s.onRx p (fun r => { r with fresh := false })
    else
      let shift := moveShift s.fsw (s.phase p)
      let k := max ((s.phase p).done + 1) (firstFrom s.fsw (2 * s.now + 14000 - shift))
      let start := baseStart s.fsw k + shift
      ((s.advance ((start - 14000) / 2)).countSample p (k - 1) ((start - 8000) / 2)).phaseCompute p k shift)

/-- TARGET_RELEASE (R232): g + 240 µs + one sweep period. -/
def execTargetRelease (s : State) : Result :=
  .next (match s.loop.targets with
    | (t, v, m) :: rest => (s.advance t).onLoop (fun l => { l with target := v, tgtMode := m, targets := rest })
    | [] => s)

/-! ### Shedding (R248 to R251) -/

/-- No shed starts outside RUN, in measuring windows, during an injection, a shed, a restore or a dwell (R250, R251). -/
def State.mayShed (s : State) : Bool :=
  Fld.shedCfg_ENABLE s.cfg && decide (s.gate.stage = .run) && decide (s.est.imp.phase ≠ .measuring)
  && s.loop.diags.all (fun d => !d.injecting) && decide (2 ≤ s.linksOn.length)
  && (match s.loop.shed with | .steady => true | _ => false)

/-- SHED_START (R248, R249): 1 s below the shed level, the highest link in service begins its fade. -/
def execShedStart (s : State) : Result :=
  .next (match s.loop.lowSince, s.linksOn.getLast? with
    | some a, some l =>
      if s.mayShed then
        let t := s.advance (a + 1000000000)
        ((t.onPhases (fun p x => if p / 2 = l then { x with fade := 16 } else x)).onLoop (fun x => { x with
          shed := .shedding l, lowSince := none })).onImp (fun i => { i with spoiled := true })
      else s
    | _, _ => s)

/-- A load step while a link is shed or a fade is under way (R250). -/
def State.stepAborts (s : State) : Bool :=
  let shedding := match s.loop.shed with | .shedding _ | .restoring _ => true | _ => false
  let off := (List.range s.links).any (fun l => !(s.phase (2 * l)).active)
  s.gate.switching && decide (Fld.shedCfg_STEP_PCT s.cfg * s.rated * 10000000 < mag s.stepError) && (shedding || off)

/-- Every phase is taken back at equal shares, with RESTART for those that were off. -/
def State.abortShed (s : State) : State :=
  let u := s.onPhases (fun p x =>
    if 2 * s.links ≤ p then x
    else if x.active then { x with fade := 0 }
    else { x with active := true, waiting := true, ready := false, share := 0, fade := 0, restart := some (s.now + 1000) })
  (((u.evenShares).spread (fun p => !(s.phase p).active)).onLoop (fun l => { l with
    shed := .aborting (quot s.stepError 1000000), aborts := satAdd l.aborts 1 255 })).onImp (fun i => { i with spoiled := true })

/-- LOAD_STEP_CHECK (R250): 3.0 µs into the base period. -/
def execLoadStepCheck (s : State) : Result :=
  let k := firstFrom s.fsw (2 * s.now + 1) - 1
  let t := s.advance (s.baseNs k + 3000)
  .next (if t.stepAborts then t.abortShed else t)

/-- SHED_DWELL_END (R250). -/
def execShedDwellEnd (s : State) : Result :=
  .next (match s.loop.shed with
    | .dwell till => (s.advance till).onLoop (fun l => { l with shed := .steady })
    | _ => s)

/-! ### Captures (R254 to R257) -/

/-- A DIAG operation on the engine that ARG byte [1] names. -/
def State.diagRow (s : State) (q op : Nat) (own : State → Nat → Cmd → Verdict) : State :=
  s.hostRow q 0x33 (op0 op) (fun t d => if 3 < d.argByte 1 then .refuse St.fieldRange 33 else own t (d.argByte 1) d.cmd)

/-- DIAG_ARM (R254, R255): with TRIG 0 a trace's capture starts at once. -/
def execDiagArm (q : Fin 32) (s : State) : Result :=
  .next (s.diagRow q 1 (fun t e _ =>
    let use := Fld.diagCfg_USE t.cfg e
    if use = 0 then .refuse St.diagState 0
    else if t.diagDelivering e ∨ (t.diag e).st ≠ .idle then .refuse St.diagBusy 0
    else .accept 0 false [] (t.onDiag e (fun d => { d with
      st := if use = 1 ∧ Fld.diagCfg_TRIG t.cfg e = 0 then .capturing else .armed, use := use, mem := [], cyc := 0, trigIdx := 0
      level := [], armedAt := t.now, aborted := false }))))

/-- DIAG_START (R255, R256): an injection starts in both twins at one base period. -/
def execDiagStart (q : Fin 32) (s : State) : Result :=
  .next (s.diagRow q 2 (fun t e c =>
    if Fld.diagCfg_USE t.cfg e ≠ 2 ∨ (t.diag e).st ≠ .armed then .refuse St.diagState 0
    else if t.gate.stage ≠ .run then .refuse St.stageNotReady 0
    else if t.est.imp.phase ≠ .idle then .refuse St.impBusy 0
    else
      let (u, waits) := t.acceptBoth c
      .accept 0 waits [] u))

/-- The effect of an accepted start at its cycle boundary. -/
def State.applyDiagStart (s : State) (e : Nat) : State :=
  if (s.diag e).st = .armed ∧ s.gate.stage = .run then s.onDiag e (fun d => { d with startDue := true }) else s

/-- DIAG_ABORT (R255). -/
def execDiagAbort (q : Fin 32) (s : State) : Result :=
  .next (s.diagRow q 3 (fun t e _ => .accept 0 false [] (t.diagAbort e)))

/-- The trigger of a trace is met (R255): signal 0 rises or falls through LEVEL at the newest sample, or the stage has tripped. -/
def State.diagMet (s : State) (e : Nat) : Bool :=
  let level := Fld.diagCfg_LEVEL s.cfg e
  match Fld.diagCfg_TRIG s.cfg e, (s.diag e).level with
  | 1, [b, a] => decide (a < level ∧ level ≤ b)
  | 2, [b, a] => decide (level < a ∧ b ≤ level)
  | 3, _ => decide (s.gate.stage = .tripped ∧ (s.diag e).armedAt ≤ s.gate.tripAt)
  | _, _ => false

/-- DIAG_TRIGGER (R255): the trigger of an armed trace is met. -/
def execDiagTrigger (e : Fin 4) (s : State) : Result :=
  .next (if (s.diag e).st = .armed ∧ (s.diag e).use = 1 ∧ s.diagMet e = true then
      s.onDiag e (fun d => { d with st := .capturing, trigIdx := d.mem.length })
    else s)

/-- DIAG_CAPTURE_DONE (R257): the memory is full. -/
def execDiagCaptureDone (e : Fin 4) (s : State) : Result :=
  .next (if (s.diag e).st = .capturing ∧ (s.diag e).mem.length = 16384 then s.diagDeliver e else s)

/-- DIAG_EXPIRED (R256). -/
def execDiagExpired (s : State) : Result :=
  .next (s.expireBoth (fun c => decide (c.opcode = 0x33)) Ev.diagExpired (fun c => [byteAt c.arg 1]))

end Sys2Proof.Machine
end

