-- ==== Sys2Proof/Machine/DispOps.lean ====
section
/-! DEFINITION. Dispatch (11): the checks and the effect of a command, the envelope, the state report. Sources: 0 host, 1 plant. -/
namespace Sys2Proof.Machine

open Sys2Proof.Config (quot)

/-! ### Commands (R282 to R284) -/

/-- Body of a dispatch command (Table 11.2). -/
structure DispBody where
  at_    : Nat
  seq    : Word
  kind   : Nat
  resv   : Option Nat
  value  : Int
  uvalue : Nat
  value2 : Int
  deriving DecidableEq, Repr

/-- The first byte of a body that must be 0 and is not: the reserved bytes, and VALUE and VALUE2 where Table 11.2 gives them as 0
(judged with step 1 of R284). -/
def strayIn (b : List Byte) : Option Nat :=
  ([13, 14, 15].find? (fun i => decide (byteAt b i ≠ 0))).orElse (fun _ =>
    if byteAt b 12 = 6 ∧ leAt b 16 4 ≠ 0 then some 16
    else if byteAt b 12 ≠ 4 ∧ byteAt b 12 ≠ 5 ∧ leAt b 20 4 ≠ 0 then some 20 else none)

def dispBody (b : List Byte) : DispBody :=
  { at_ := leAt b 0 8, seq := BitVec.ofNat 32 (leAt b 8 4), kind := byteAt b 12
    resv := strayIn b
    value := sleAt b 16 4, uvalue := leAt b 16 4, value2 := sleAt b 20 4 }

/-- The source may give a command of this kind (Table 11.1). -/
def State.mayDispatch (s : State) (source kind : Nat) : Bool :=
  decide (kind = 4 ∨ kind = 5)
  || (if source = 1 then s.plantActive || (decide (Fld.dispCfg_SRC s.cfg = 2) && decide (kind ≤ 3)) else !s.plantActive)

/-- A value outside its range (step 3 of R284): the byte of the first such field. -/
def DispBody.range (d : DispBody) : Option Nat :=
  let lim : Int := if d.kind = 1 ∨ d.kind = 4 then 2000000 else 4000000
  if d.kind = 1 ∨ d.kind = 2 then (if d.value < -lim ∨ lim < d.value then some 16 else none)
  else if d.kind = 3 then (if 2200000 < d.uvalue then some 16 else none)
  else if d.kind = 4 ∨ d.kind = 5 then
    (if d.value < 0 ∨ lim < d.value then some 16 else if 0 < d.value2 ∨ d.value2 < -lim then some 20 else none)
  else none

/-- SPSEQ is newer than the source's last accepted one; the first after a start is. -/
def newerSeq (last : Option Word) (new : Word) : Bool := match last with
  | none => true
  | some l => decide (1 ≤ (new - l).toNat ∧ (new - l).toNat ≤ 2 ^ 31)

/-- The checks of R282 and R284 in order: status and byte of the body. -/
def State.dispCheck (s : State) (source : Nat) (d : DispBody) : Nat × Nat :=
  if d.kind = 0 ∨ 6 < d.kind then (St.fieldRange, 12)
  else match d.resv with
    | some i => (St.fieldRange, i)
    | none =>
      if !s.mayDispatch source d.kind then (St.dispatchSource, 0)
      else if d.at_ ≠ 0 ∧ (eventValid d.at_ = false ∨ s.sysNs + 60000000000 < nsOfEvent d.at_) then (St.fieldRange, 0)
      else match d.range with
        | some i => (St.fieldRange, i)
        | none =>
          if d.kind ≤ 3 ∧ d.kind ≠ Fld.loopCtl_MODE s.cfg + 1 then (St.modeMismatch, 0)
          else if newerSeq (s.disp.seq.getD source none) d.seq then (St.ok, 0) else (St.setpointStale, 0)

/-- EV_DISPATCH_SOURCE at a change of the active source (R282). -/
def State.sourceChange (s : State) (was : Bool) : State :=
  if s.plantActive = was then s else s.raise Ev.dispatchSource [bit s.plantActive]

/-- An accepted command waits for its AT, and in the pair for the instant both twins act at; it replaces one of its source that
still waits for its AT. Set-points and refreshes restart the hold timer (R287). -/
def State.dispTake (s : State) (source : Nat) (d : DispBody) (from_ : Nat) : State :=
  let was := s.plantActive
  let at_ := if d.at_ = 0 then 0 else ((nsOfEvent d.at_ : Int) - s.time.stepOffset).toNat
  let w : DispWait := ⟨source, at_, from_, d.kind, if d.kind = 3 then d.uvalue else d.value, d.value2⟩
  (s.onDisp (fun x => { x with
    seq := x.seq.set source (some d.seq)
    waiting := x.waiting.filter (fun v => !(decide (v.source = source) && decide (s.now < v.at_))) ++ [w]
    holdTill := if d.kind ≤ 3 ∨ d.kind = 6 then some (s.now + Fld.dispCfg_HOLD s.cfg * 100000000) else x.holdTill
    expired := x.expired && decide (3 < d.kind)
    plantLive := x.plantLive || (decide (source = 1) && decide (d.kind ≤ 3)) })).sourceChange was

/-- A command is accepted here; the partner is told (R283). -/
def State.dispAccept (s : State) (source : Nat) (c : Cmd) (d : DispBody) : State :=
  (s.pairSend (.command c source s.now)).dispTake source d (if s.actsSingle then s.now else s.now + 1000000)

/-- A forwarded command with its source, as copies are compared (16 R421). -/
def copyKey (c : Cmd) (source : Nat) : Cmd := { c with data := c.data ++ [BitVec.ofNat 8 source] }

/-- The partner gave this command first: a copy that comes here is a duplicate. The last 64 are kept. -/
def State.markSeen (s : State) (c : Cmd) (source : Nat) : State := s.onDisp (fun x => { x with seen := (copyKey c source :: x.seen).take 64 })

/-- A copy of a forwarded command that the partner gave first: answered as the first was, and not acted on again (16 R421). -/
def State.takeCopy (s : State) (c : Cmd) (source : Nat) : Option State :=
  if s.disp.seen.contains (copyKey c source) then some (s.onDisp (fun x => { x with seen := x.seen.erase (copyKey c source) })) else none

/-- One dispatch row from the host. -/
def State.dispRow (s : State) (q kind : Nat) : State :=
  s.hostRow q 0x10 (fun d => decide (d.argByte 12 = kind)) (fun t d =>
    let b := dispBody d.arg
    let (st, i) := t.dispCheck 0 b
    match t.takeCopy d.cmd 0 with
    | some u => .accept 0 false [] u
    | none =>
      if st = St.ok then .accept 0 false [] (t.dispAccept 0 d.cmd b)
      else .refuse st (if st = St.fieldRange then 32 + i else 0))

/-! ### Effects (R284, R290, 09 R234, R239) -/

/-- EV_SETPOINT_LIMITED, at most once per second for each kind (R239). -/
def State.noteLimited (s : State) (kind : Nat) (value present slope : Int) : State :=
  let last := s.loop.limitedAt.getD (kind - 1) none
  if (match last with | some a => decide (s.now < a + 1000000000) | none => false) then s
  else (s.onLoop (fun l => { l with limitedAt := l.limitedAt.set (kind - 1) (some s.now) })).raise Ev.setpointLimited [kind, value, present, slope]

/-- The set-point lies farther off than one sweep period of the slope allows. -/
def State.limitedCheck (s : State) (kind : Nat) (value : Int) : State :=
  if kind = 3 then
    let slew := Fld.droopCfg_VSLEW s.cfg
    if slew * s.fabric.sweepUs < mag (1000 * value - s.loop.vTgt) then
      s.noteLimited 3 value (quot s.loop.vTgt 1000) (1000 * slew : Nat) else s
  else match s.rampTime with
    | some ramp =>
      let far := mag (s.spDemand ⟨kind, value⟩ - s.loop.r)
      if s.slopeMa ramp * s.fabric.sweepUs < (far : Int) then s.noteLimited kind value (quot s.loop.r 1000000) (s.slopeMa ramp) else s
    | none => s

/-- The set-point in force is replaced (R284, R234). -/
def State.setPoint (s : State) (kind : Nat) (value : Int) : State :=
  ((s.limitedCheck kind value).onDisp (fun x => { x with sp := some ⟨kind, value⟩ })).onLoop (fun l => { l with
    vSet := if kind = 3 then 1000 * value else l.vSet })

/-- A budget term after a change: a cut starts a drain, recorded once (R291). -/
def State.cutTerm (s : State) (i : Nat) : State :=
  let t := s.disp.terms.getD i ⟨none, false⟩
  let rated : Int := s.rated * 1000000000
  let sign : Int := if i % 2 = 0 then 1 else -1
  match s.budgetTarget i with
  | none => s.onDisp (fun x => { x with terms := x.terms.set i ⟨none, false⟩ })
  | some v =>
    let e := t.eff.getD rated
    if v < e then
      let u := s.onDisp (fun x => { x with terms := x.terms.set i ⟨some e, true⟩ })
      if t.draining then u
      else u.raise Ev.budgetDraining [if i < 2 then 4 else 5, i % 2, sign * quot e 1000000, sign * quot v 1000000]
    else s.onDisp (fun x => { x with terms := x.terms.set i ⟨some v, false⟩ })

/-- A source's budget of a kind is replaced in both directions (R290). -/
def State.setBudget (s : State) (source kind : Nat) (c d : Int) : State :=
  let t := s.onDisp (fun x => if kind = 4 then { x with budI := x.budI.set source (some (c, d)) }
    else { x with budP := x.budP.set source (some (c, d)) })
  if kind = 4 then (t.cutTerm 0).cutTerm 1 else (t.cutTerm 2).cutTerm 3

/-- A command takes effect. -/
def State.dispEffect (s : State) (w : DispWait) : State :=
  if w.kind ≤ 3 then s.setPoint w.kind w.value
  else if w.kind ≤ 5 then s.setBudget w.source w.kind w.value w.value2 else s

/-- When a waiting command is due. -/
def DispWait.due (w : DispWait) : Nat := max w.at_ w.from_

/-- At a collection deadline the commands that are due take effect, in order of acceptance. -/
def State.dispDue (s : State) (deadline : Nat) : State :=
  if s.ac01Reloading then s else
  let due := s.disp.waiting.filter (fun w => decide (w.due ≤ deadline))
  let t := s.onDisp (fun x => { x with waiting := x.waiting.filter (fun w => decide (deadline < w.due)) })
  due.foldl State.dispEffect t

/-- The first collection deadline at or after an instant. -/
def State.deadlineFrom (s : State) (t : Nat) : Nat := atOrAfter (t - 240000) (s.fabric.sweepUs * 1000) + 240000

/-! ### The envelope (R292, R293) -/

/-- The cell an envelope evaluates: an INVALID one from its latest usable primary voltage, with the highest r0 and the lowest cap
of the VALID cells; none where it has no usable voltage or the string no VALID cell. -/
def State.envModel (s : State) (c : Nat) : Option CellModel :=
  let b := s.estModel
  let x := s.est.pub.getD c EstCell.reset
  let valid := (s.est.pub.take s.cellCount).filter (fun y => decide (y.st = .valid))
  match x.st with
  | .invalid => match valid, s.ring.last.bind (fun w => s.cellV w c) with
    | v :: vs, some volt =>
      let r0 := vs.foldl (fun m y => max m (b.r0At y.model)) (b.r0At v.model)
      let cap := vs.foldl (fun m y => min m y.model.cap) v.model.cap
      let m := b.reseed (1000 * volt) x.model
      some { m with r0 := r0, cap := cap, rct := b.rctAt m, tspec := m.tcore }
    | _, _ => none
  | _ => if valid = [] then none else some x.model

/-- The bounds of ENV_CFG: V_MIN_OP and V_MAX_OP in nV, SOC_MIN and SOC_MAX in 10^-9. -/
def envBounds (c : RegBank) : Int × Int × Int × Int :=
  (2000000000 + 10000000 * Fld.envCfg_V_MIN_OP c, 2000000000 + 10000000 * Fld.envCfg_V_MAX_OP c,
    10000000 * Fld.envCfg_SOC_MIN c, 10000000 * Fld.envCfg_SOC_MAX c)

/-- The largest current in 0.1 A up to a limit that one cell admits, by bisection in 16 steps. -/
def envCell (b : ModelBlock) (e : Int × Int × Int × Int) (chg : Bool) (h limit : Nat) (m : CellModel) : Nat :=
  bisect (fun n => b.holds e.1 e.2.1 e.2.2.1 e.2.2.2 (if chg then 100 * (n : Int) else -(100 * (n : Int))) h m) 16 0 limit

/-- The smallest of the cells' currents in a direction for a horizon, under a limit, 0.1 A: the current, and the cell that bounds it. -/
def envMin (b : ModelBlock) (e : Int × Int × Int × Int) (chg : Bool) (h limit : Nat) (ms : List CellModel) : Nat × Nat :=
  (mapIdxL (fun i (m : CellModel) => (i, envCell b e chg h limit m)) ms).foldl
    (fun a x => if x.2 < a.1 then (x.2, x.1) else a) (limit, 0x3FF)

/-- The envelope of whole second W (an event time). -/
def State.envelope (s : State) (w : Nat) : Envelope :=
  let n := s.cellCount
  let opts := (List.range n).map s.envModel
  let ms := opts.filterMap id
  let zero := decide (n = 0) || decide (ms.length < n)
  let inv := (s.est.pub.take n).any (fun x => decide (x.st = .invalid))
  let b := s.estModel
  let bounds := envBounds s.cfg
  let rated : Int := s.rated * 1000000000
  let ts := s.limitTerms.filter (fun e => decide (e.1 ≠ 4))
  let limC := (bindTerm rated (ts.map (fun e => (e.1, e.2.1)))).2.toNat / 100000000
  let limD := (bindTerm rated (ts.map (fun e => (e.1, e.2.2)))).2.toNat / 100000000
  let volt (i : Int) (h : Nat) : Int := sumI (ms.map (fun m => b.term i (b.predict (h * 1000000000) (1000000 * h * i) m)))
  let row (h : Nat) : Int × Int × Int × Int :=
    if zero then (0, 0, 0, 0) else
      let ic : Int := 100 * ((envMin b bounds true h limC ms).1 : Nat)
      let id : Int := -100 * ((envMin b bounds false h limD ms).1 : Nat)
      (ic, id, quot (ic * volt ic h) (10 ^ 12), quot (id * volt id h) (10 ^ 12))
  { w := w, rows := [row 2, row 10, row 60]
    cellC := if zero then 0x3FF else (envMin b bounds true 60 limC ms).2
    cellD := if zero then 0x3FF else (envMin b bounds false 60 limD ms).2
    flags := bitsNat [inv && !zero, zero, s.isSolo, (s.block 1).isNone] }

def Envelope.bytes (e : Envelope) (seq : Word) : List Byte :=
  sealed (packBytes ([(8, (e.w : Int)), (4, seq.toNat), (1, e.flags), (3, 0)]
    ++ e.rows.flatMap (fun r => [(4, r.1), (4, r.2.1), (4, r.2.2.1), (4, r.2.2.2)]) ++ [(2, (e.cellC : Int)), (2, (e.cellD : Int))]))

/-! ### Reports (R295) -/

/-- AVAIL (Table 11.6): the highest code that applies. -/
def State.avail (s : State) : Nat :=
  let idle := match s.gate.stage with | .off | .armed => true | _ => false
  let limited := (decide (4 ≤ s.disp.bindC ∧ s.disp.bindC ≤ 7) && decide (s.disp.limC < Fld.dispLim_I_CHG s.cfg * 1000000000))
    || (decide (4 ≤ s.disp.bindD ∧ s.disp.bindD ≤ 7) && decide (-s.disp.limD < Fld.dispLim_I_DIS s.cfg * 1000000000))
  if s.life.guard_ then 6
  else if s.safety.safe then 5
  else if s.gate.stage = .tripped then 4
  else if idle && s.disp.notReady then 3
  else if limited then 2
  else if s.isPair && (s.isAlone || s.isSolo) then 1
  else 0

/-- A budget term drains. -/
def Disp.draining (d : Disp) : Bool := d.terms.any (fun t => t.draining)

/-- Fields of a state report (Table 11.7). -/
def State.reportBytes (s : State) : List Byte :=
  let sp := s.disp.sp
  sealed (packBytes [(8, eventOf s.sysNs), (4, s.disp.repSeq.toNat), (1, s.avail), (1, stageCode s.gate.stage),
    (1, ((s.disp.bindC + 16 * s.disp.bindD : Nat) : Int)), (1, s.fabric.profile),
    (1, (bitsNat [s.isPair, s.twin.partnerIn, s.isSolo, s.isSenior] : Nat)),
    (1, (bitsNat (s.ring.lines.map (fun l => decide (l.st = .degraded ∨ l.st = .down))) : Nat)),
    (1, ((min 255 (s.ring.stations.filter (fun x => x.pLost)).length : Nat) : Int)),
    (1, ((s.therm.stepD + 16 * s.therm.stepC : Nat) : Int)), (4, quot s.disp.limC 1000000), (4, quot s.disp.limD 1000000),
    (1, (match sp with | some x => x.kind | none => 0)),
    (1, (bitsNat [s.disp.expired, s.disp.draining, !s.plantActive, s.time.traceable] : Nat)), (2, 0),
    (4, (match sp with | some x => x.value | none => 0)), (4, quot s.loop.r 1000000), (4, s.meas.iLast.getD 0), (4, quot s.loop.vs 1000)])

end Sys2Proof.Machine
end

