-- ==== Sys2Proof/Machine/Flags.lean ====
section
/-! DEFINITION. Status registers that a read answers from the state (19 Table 19.11), as words: those of the safety part (12
Tables 12.18, 12.19), of thermal management (10) and of the margin plan (02 Table 2.10). -/
namespace Sys2Proof.Machine

/-! ### Safety (12 R322) -/

/-- A discrepancy of the input that waits for a reset: it is latched (R310). -/
def DualIn.latch (d : DualIn) : Bool := d.latched

/-- The first condition of R322 that fails, 1 to 5; none: a reset is accepted. -/
def State.resetBlock (s : State) : Option Nat :=
  let x := s.safety
  let dem (e : SafetyEng) := e.demand.any id
  if dem x.engA || dem x.engB then some 1
  else if (x.engA.counters ++ x.engB.counters).any (fun n => decide (n ≠ 0)) then some 2
  else if ((x.engA.inputs ++ x.engA.loops) ++ (x.engB.inputs ++ x.engB.loops)).any (fun d => d.latched && !d.cleared) then some 3
  else if x.outs.any (fun o => decide (o.fault ≠ .none)) || x.weld then some 4
  else if s.now < x.enteredAt + 1000000000 || x.needStart then some 5
  else none

/-- A bit that is 1 in SE-A or SE-B, by position. -/
def latches (a b : List DualIn) : Nat :=
  bitsNat (mapIdxL (fun i (d : DualIn) => d.latched || (b.getD i DualIn.reset).latched) a)

/-- Output switches by readback: bit 2o high side, 2o + 1 low side. -/
def Safety.switches (x : Safety) : Nat := bitsNat (x.outs.flatMap (fun o => [o.hiRead, o.loRead]))

/-- SAFE_STAT (Table 12.18). -/
def State.safeStat (s : State) : Word :=
  let x := s.safety
  BitVec.ofNat 32 (bit x.safe + 2 * x.cause + 32 * bit (x.safe && s.resetBlock.isNone) + 64 * bit x.engA.running + 128 * bit x.engB.running
    + 256 * x.switches + 65536 * latches x.engA.inputs x.engB.inputs)

/-- The coil supply lies within 18 to 32 V; in units of 10 mV. -/
def Safety.coilOk (x : Safety) : Bool := decide (1800 ≤ x.coil ∧ x.coil ≤ 3200)

/-- The main contactor's output. -/
def State.mainOut (s : State) : Option Nat := (List.range 4).find? (fun o => decide (soFunc s.cfg o = 1))
def State.prechargeOut (s : State) : Option Nat := (List.range 4).find? (fun o => decide (soFunc s.cfg o = 2))

/-- SAFE_STAT2 (Table 12.19). -/
def State.safeStat2 (s : State) : Word :=
  let x := s.safety
  let rest (d : DualIn) : Bool := x.engA.running && !d.raw1 && !d.raw2
  let closed := match s.mainOut with
    | some o => let w := x.outs.getD o SafeOut.reset
      w.hiRead && w.loRead
    | none => false
  BitVec.ofNat 32 (x.word0.toNat % 16384 / 2 * 2 + 16384 * latches x.engA.loops x.engB.loops
    + 65536 * bitsNat (x.engA.loops.map rest) + 262144 * bitsNat (x.outs.map (fun o => decide (o.fault ≠ .none)))
    + 4194304 * bit x.coilOk + 8388608 * bit closed)

/-! ### Thermal management (10) -/

/-- THERM_STAT. -/
def State.thermStat (s : State) : Word :=
  let t := s.therm
  BitVec.ofNat 32 (t.stepD + 16 * t.stepC + 256 * bitsNat (t.zones.map (fun z => decide (z.hi ≠ 0 ∨ z.lo ≠ 0)))
    + 65536 * bitsNat (t.zones.map (fun z => z.failed)) + 16777216 * bit t.chgForbid + 33554432 * bit t.disForbid
    + 67108864 * bit (t.zones.any (fun z => decide (z.trip ≠ 0))) + 134217728 * bit (t.sensors.any (fun x => x.core)))

/-- DIE_STAT. -/
def State.dieStat (s : State) : Word :=
  let d := s.therm.die
  BitVec.ofNat 32 ((clampI (-2048) 2047 d.temp % 4096).toNat + 4096 * bit d.hot + 8192 * bit d.barred + 16384 * bitsNat d.sensors)

/-! ### The margin plan (02 Table 2.10) -/

/-- The floor date lies n years of 365.25 days away or less. -/
def State.floorWithin (s : State) (years : Nat) : Bool := match s.fabric.plan.floorDate with
  | some t => decide (nsOfEvent t ≤ s.sysNs + years * 31557600000000000)
  | none => false

/-- MARGIN_STAT. -/
def State.marginStat (s : State) : Word :=
  let p := s.fabric.plan
  BitVec.ofNat 32 (bitsNat s.permittedNow + 8 * p.heather + 256 * s.fabric.worstSlack + 65536 * p.years
    + 16777216 * bit (s.floorWithin 5) + 33554432 * bit (s.floorWithin 1))

end Sys2Proof.Machine
end

