-- ==== Sys2Proof/Machine/PlanOps.lean ====
section
/-! DEFINITION. The margin plan and the service profiles (02 R45 to R56). Profiles: 0 Gorse, 1 Heather, 2 Cowslip. -/
namespace Sys2Proof.Machine

/-! ### Profiles (Table 2.7, R54) -/

/-- A profile's own sweep period, µs. -/
def ownSweep (p : Nat) : Nat := if p = 0 then 250 else if p = 1 then 1000 else 4000

/-- The sweep period that PROFILE_CTL.SWEEP selects with a profile, µs (R54). -/
def sweepOf (p sweep : Nat) : Nat := if sweep = 0 then ownSweep p else 125 * 2 ^ sweep

/-- Supply step of a profile for a Heather step (Table 2.4). -/
def supplyOf (p heather : Nat) : Nat := if p = 0 then heather + 6 else if p = 1 then heather else heather - 4

/-! ### Plans (R45 to R48) -/

/-- The prediction for a profile at its supply, or at 0.90 V where that is higher (R53). -/
def predict (draw p heather : Nat) : Predicted :=
  let step := min 20 (supplyOf p heather)
  ⟨min 22 (Sys2Proof.Config.planEngine draw p step), Sys2Proof.Config.planSlack draw p step⟩

/-- The lowest supply step from one on at which every engine's predicted slack in a profile is at least a percentage; else 0.90 V. -/
def stepFor (draw p from_ percent : Nat) : Nat :=
  ((List.range 21).find? (fun h => decide (from_ ≤ h) && decide (((100 * percent : Nat) : Int) ≤ Sys2Proof.Config.planSlack draw p h))).getD 20

/-- A new plan: cause 0 start, 1 monthly, 2 trigger. Only a monthly plan or one made at start lowers the supply, a monthly one by one
step (R46). The projected floor date needs 90 days of history (R48). -/
def Fabric.newPlan (f : Fabric) (draw cause trigger : Nat) : Plan :=
  let want := stepFor draw 1 0 (trigger + 10)
  let h := if cause = 0 then want else if cause = 1 then max want (f.plan.heather - 1) else max want f.plan.heather
  let pr := (List.range 3).map (fun p => predict draw p h)
  let floor := if f.history.length < 90 then none else Sys2Proof.Config.planFloor draw
  { heather := h
    permitted := mapIdxL (fun p (x : Predicted) => decide (supplyOf p h ≤ 20 ∧ ((100 * trigger : Nat) : Int) ≤ x.slack)) pr
    years := f.plan.years
    ceiling := clampN 4096 65536 (Sys2Proof.Config.planCeiling draw)
    unitCost := (List.range 3).map (fun p => Sys2Proof.Config.planUnitCost draw p)
    predicted := pr
    floorDate := floor
    draw := draw }

/-- Whole years of 365.25 days from a system time to the floor date; 255: none, or beyond 254 years. -/
def yearsTo (sysNs : Nat) (floor : Option Nat) : Nat := match floor with
  | some t => min 255 ((nsOfEvent t - sysNs) / 31557600000000000)
  | none => 255

/-- The eight bytes of EV_REPLAN that name a plan. -/
def Plan.word (p : Plan) : Int :=
  p.heather + 256 * ((p.permitted.getD 0 false).toNat + 2 * (p.permitted.getD 1 false).toNat + 4 * (p.permitted.getD 2 false).toNat)
    + 65536 * p.years + 4294967296 * p.ceiling

/-- The notices of a re-plan (R48). -/
def State.planNotice (s : State) : State := match s.fabric.plan.floorDate with
  | some t => if s.floorWithin 1 then s.raise Ev.marginLow [t] else if s.floorWithin 5 then s.raise Ev.marginNotice [t] else s
  | none => s

/-- The supply that a plan means for the active profile (R46): a plan made at start may choose any, a monthly one lowers it by at most one
step, one caused by the trigger never. Where the plan does not permit the profile it is raised as far as the deadlines need (R55), without
any permitted profile to 0.90 V. -/
def Fabric.planSupply (f : Fabric) (trigger : Nat) : Nat :=
  let own := min 20 (supplyOf f.profile f.plan.heather)
  let want := if f.plan.permitted.getD f.profile false then own
    else if f.plan.permitted.any id then stepFor f.plan.draw f.profile own trigger else 20
  if f.planCause = 0 then want else if f.planCause = 1 then max want (f.vcoreTarget - 1) else max want f.vcoreTarget

/-- What the plans mean for the active profile: it stays, or it is left at the next cycle boundary, or no profile is permitted (R55). -/
def State.planActs (s : State) : State :=
  if s.permits s.fabric.profile then s.onFabric (fun f => { f with profileMove := false, profileHeld := false })
  else if s.permittedNow.any id then s.onFabric (fun f => { f with profileMove := true })
  else (s.onFabric (fun f => { f with vcoreTarget := 20, profileMove := false })).raise Ev.marginLow [0]

/-- Joined twins judge the plans that they exchanged for a whole second at the first cycle boundary half a second later, so that both move
at one boundary (R56); plans judged before are not judged again. -/
def State.planExchanged (s : State) : State := match s.twin.planDue with
  | none => s
  | some w =>
    if s.now < w * 1000000000 + 500000000 then s
    else
      let key := (s.fabric.profile, s.twin.planOwn.getD [], (s.twin.planPeer.map (fun p => p.1)).getD [])
      let t := s.onTwin (fun x => { x with planDue := none, planJudged := some key })
      if s.isJoined && decide (s.twin.planJudged ≠ some key) then t.planActs else t

/-- A re-plan (R45). -/
def State.replan (s : State) (cause : Nat) : State :=
  let old := s.fabric.plan
  let new := s.fabric.newPlan s.free cause (Fld.marginCfg_TRIGGER s.cfg)
  let new := { new with years := yearsTo s.sysNs new.floorDate }
  let t := s.draw.onFabric (fun f => { f with
    plan := new, planAt := if cause = 1 ∨ f.planAt = none then some s.now else f.planAt, planCause := cause, engines := f.engines.map (fun e => { e with low := 0 }) })
  let u := (t.raise Ev.replan [old.word, new.word, cause]).planNotice
  let v := u.onFabric (fun f => { f with vcoreTarget := f.planSupply (Fld.marginCfg_TRIGGER s.cfg) })
  if v.isJoined then v else v.planActs

/-! ### Moves of the profile (R52, R54, R55) -/

/-- PROFILE_CTL in the active registers and in their staging copies. -/
def State.putProfile (s : State) (p sweep : Nat) : State :=
  let e := (Reg.profileCtl, BitVec.ofNat 32 (p + 4 * sweep))
  s.onSetup (fun x => { x with active := x.active.take e, staged := x.staged.take e })

/-- The profile and sweep rate of PROFILE_CTL are taken: the new period begins at the next sweep instant that is a multiple of 4 ms. The
supply and a move that was due stay as they are where the profile stays (R54). -/
def State.takeProfile (s : State) : State :=
  let p := Fld.profileCtl_SELECT s.cfg
  let us := sweepOf p (Fld.profileCtl_SWEEP s.cfg)
  let same := decide (p = s.fabric.profile)
  s.onFabric (fun f => { f with
    profile := p, vcoreTarget := if same then f.vcoreTarget else min 20 (supplyOf p f.plan.heather)
    profileMove := same && f.profileMove, profileHeld := same && f.profileHeld
    sweepNext := if us = f.sweepUs ∧ f.sweepNext = none then none else some us })

/-- The candidates in the order of R55: the next lower sweep rates, then the next higher. -/
def moveOrder (p : Nat) : List Nat := if p = 0 then [1, 2] else if p = 1 then [2, 0] else [1, 0]

/-- A withdrawn profile at a cycle boundary (R55). -/
def State.moveProfile (s : State) : State :=
  if !s.fabric.profileMove then s
  else
    let act := s.fabric.profile
    let idle := match s.gate.stage with | .off | .armed => true | _ => false
    match (moveOrder act).find? (fun p => s.permits p && (idle || s.fswFits p)) with
    | some p =>
      let sweep := Fld.profileCtl_SWEEP s.cfg
      let keep := if sweep ≠ 0 ∧ sweepOf p sweep < ownSweep p then 0 else sweep
      let t := s.onFabric (fun f => { f with profileMove := false, profileHeld := false })
      (t.putProfile p keep).takeProfile.raise Ev.profileWithdrawn [act, p]
    | none =>
      if s.fabric.profileHeld then s
      else
        let up := stepFor s.fabric.plan.draw act s.fabric.vcoreTarget (Fld.marginCfg_TRIGGER s.cfg)
        (s.onFabric (fun f => { f with profileHeld := true, vcoreTarget := max f.vcoreTarget up })).raise Ev.profileHeld [act, s.fabric.plan.heather]

/-- One step of 10 mV a cycle boundary (R47). -/
def State.supplyStep (s : State) : State :=
  s.onFabric (fun f => { f with
    vcore := if f.vcore < f.vcoreTarget then f.vcore + 1 else if f.vcoreTarget < f.vcore then f.vcore - 1 else f.vcore })

end Sys2Proof.Machine
end

