-- ==== Sys2Proof/Machine/ProgOps.lean ====
section
/-! DEFINITION. The cycle engines (13): the instruction set, timers and counters, tasks and their images, points, forces, modes,
restarts and online change. -/
namespace Sys2Proof.Machine

/-- The base cycle in ns, and an engine's period (R333, R334). -/
def State.baseCycle (s : State) : Nat := 250000 * Fld.cycCfg_BASE s.cfg
def State.period (s : State) (e : Nat) : Nat := match s.section_ e with
  | some c => s.baseCycle * 2 ^ c.k
  | none => s.baseCycle

/-! ### Forces (R365) -/

/-- Whether a symbol is one that a force may fix. -/
def Symbol.forcible (x : Symbol) : Bool := decide (x.type ≤ 2 ∧ x.area ≠ 5 ∧ x.area ≠ 6)

/-- The forces that bear on an area of an engine: first bit, number of bits, value. -/
def State.forcesOn (s : State) (e area : Nat) : List (Nat × Nat × Word) :=
  match s.image with
  | none => []
  | some g => s.prog.forces.filterMap (fun f => (g.syms.find? (fun x => decide (x.name = f.name) && x.of e && decide (x.area = area))).map
      (fun x => (x.span.1, if x.type = 0 then 1 else 32, f.value)))

/-- A word with one bit set. -/
def bitW (i : Nat) : Word := 1#32 <<< i

/-- A word with the bits that forces fix, and those of another word in their place. -/
def forceWord (fs : List (Nat × Nat × Word)) (i : Nat) (w : Word) : Word :=
  fs.foldl (fun v f => if f.1 / 32 ≠ i then v else if f.2.1 = 32 then f.2.2
    else (v &&& ~~~bitW (f.1 % 32)) ||| (if f.2.2.getLsbD 0 then bitW (f.1 % 32) else 0)) w

def keepForced (fs : List (Nat × Nat × Word)) (i : Nat) (old new : Word) : Word :=
  fs.foldl (fun v f => if f.1 / 32 ≠ i then v else if f.2.1 = 32 then old
    else (v &&& ~~~bitW (f.1 % 32)) ||| (old &&& bitW (f.1 % 32))) new

/-! ### Memory of a task (R340) -/

def lookupW (l : List (Nat × Word)) (i : Nat) : Option Word := (l.find? (fun x => decide (x.1 = i))).map (fun x => x.2)
def putW (l : List (Nat × Word)) (i : Nat) (w : Word) : List (Nat × Word) := (i, w) :: l.filter (fun x => decide (x.1 ≠ i))

/-- A word of an area as a task of engine e reads it. Shared words are those of the cycle's start (R336). -/
def State.rdWord (s : State) (e : Nat) (c : TaskCtx) (area i : Nat) : Word :=
  let x := s.eng e
  let w := match area with
    | 0 => c.input.getD i 0
    | 1 => x.output.getD i 0
    | 2 => x.local_.getD i 0
    | 3 => x.ret.getD i 0
    | 4 => c.shared.getD i 0
    | 5 => if i = 0 then (c.system.getD 0 0 &&& ~~~(12#32)) ||| BitVec.ofNat 32 (4 * bit x.ovf + 8 * bit x.divz) else c.system.getD i 0
    | 6 => c.host.getD i 0
    | _ => (lookupW x.hostOut i).getD (s.prog.hostOut.getD i 0)
  if area = 2 ∨ area = 3 ∨ area = 4 ∨ area = 7 then forceWord (s.forcesOn e area) i w else w

def State.wrWord (s : State) (e : Nat) (c : TaskCtx) (area i : Nat) (w : Word) : State :=
  let fs := s.forcesOn e area
  s.onEng e (fun x => match area with
    | 1 => { x with output := x.output.set i w }
    | 2 => { x with local_ := x.local_.set i (keepForced fs i (x.local_.getD i 0) w) }
    | 3 => { x with ret := x.ret.set i (keepForced fs i (x.ret.getD i 0) w) }
    | 4 => { x with sharedW := putW x.sharedW i (keepForced fs i (c.shared.getD i 0) w) }
    | 5 => { x with ovf := w.getLsbD 2, divz := w.getLsbD 3 }
    | 7 => { x with hostOut := putW x.hostOut i (keepForced fs i (s.prog.hostOut.getD i 0) w) }
    | _ => x)

def State.rdBit (s : State) (e : Nat) (c : TaskCtx) (w : Word) : Bool := (s.rdWord e c (areaOf w) (idxOf w / 32)).getLsbD (idxOf w % 32)

/-- A bit store into a shared word goes on from what the cycle has written there. -/
def State.wrBit (s : State) (e : Nat) (c : TaskCtx) (w : Word) (v : Bool) : State :=
  let i := idxOf w / 32
  let old := if areaOf w = 4 then (lookupW (s.eng e).sharedW i).getD (s.rdWord e c 4 i) else s.rdWord e c (areaOf w) i
  let m := bitW (idxOf w % 32)
  s.wrWord e c (areaOf w) i (if v then old ||| m else old &&& ~~~m)

/-- The operand of a word instruction: a word, or the immediate. -/
def State.operand (s : State) (e : Nat) (c : TaskCtx) (w : Word) : Word :=
  if kindOf w = 2 then BitVec.ofInt 32 (immOf w) else s.rdWord e c (areaOf w) (idxOf w)

/-! ### Word arithmetic (R341) -/

def satLo : Int := -2147483648
def satHi : Int := 2147483647

/-- A saturated result, and whether it overflowed. -/
def satW (v : Int) : Word × Bool := (BitVec.ofInt 32 (clampI satLo satHi v), decide (v < satLo ∨ satHi < v))

/-- Result, OVF, DIVZ of ADD, SUB, MUL and DIV. -/
def arith (op : Nat) (a b : Int) : Word × Bool × Bool :=
  if op = 0x31 then
    if b = 0 then (0, false, true) else let r := satW (a.tdiv b); (r.1, r.2, false)
  else
    let r := satW (if op = 0x23 then a + b else if op = 0x24 then a - b else a * b)
    (r.1, r.2, false)

/-! ### Timers, counters and edge detectors (R343 to R345, Table 13.4) -/

/-- One execution of an instance: its new state and what it leaves in acc and wacc. `clock` is the program clock of the cycle's
start in µs. -/
def Inst.exec (x : Inst) (op clock : Nat) (acc : Bool) (wacc : Word) : Inst × Bool × Word :=
  let d := match x.last with | some a => clock - a | none => 0
  let pt := 1000 * wacc.toInt.toNat
  let y : Inst := { x with last := some clock }
  let timer (z : Inst) : Inst × Bool × Word := (z, z.q, BitVec.ofNat 32 (z.et / 1000))
  let count (z : Inst) : Inst × Bool × Word := (z, z.q, BitVec.ofInt 32 z.cv)
  let prev := x.prev.getD acc
  let rise := acc && !prev
  if op = 0x40 then
    if acc then
      let et := min (x.et + d) pt
      timer { y with et := et, q := decide (pt ≤ et) }
    else timer { y with et := 0, q := false }
  else if op = 0x41 then
    if acc then timer { y with et := 0, q := true }
    else if x.q then
      let et := min (x.et + d) pt
      timer { y with et := et, q := decide (et < pt) }
    else timer y
  else if op = 0x42 then
    if rise && !x.q then timer { y with et := 0, q := true, prev := some acc }
    else if x.q then
      let et := min (x.et + d) pt
      timer { y with et := et, q := decide (et < pt), prev := some acc }
    else timer { y with prev := some acc }
  else if op = 0x43 then
    let cv := if rise then min (x.cv + 1) satHi else x.cv
    count { y with cv := cv, q := decide (wacc.toInt ≤ cv), prev := some acc }
  else if op = 0x44 then
    let cv := if rise then max (x.cv - 1) satLo else x.cv
    count { y with cv := cv, q := decide (cv ≤ 0), prev := some acc }
  else if op = 0x45 then ({ x with cv := if acc then wacc.toInt else x.cv }, acc, wacc)
  else if op = 0x46 then ({ y with prev := some acc }, acc && !prev, wacc)
  else ({ y with prev := some acc }, prev && !acc, wacc)

/-! ### One instruction (Table 13.3) -/

/-- The state after an instruction and the task's context; none: END. -/
def State.instr (s : State) (e : Nat) (c : TaskCtx) (w : Word) : State × Option TaskCtx :=
  let op := opOf w
  let next : TaskCtx := { c with pc := c.pc + 1, passed := false }
  let setAcc (b : Bool) : State × Option TaskCtx := (s, some { next with acc := b })
  let setW (v : Word) : State × Option TaskCtx := (s, some { next with wacc := v })
  let jump : State × Option TaskCtx := (s, some { next with pc := opdOf w })
  let b := s.rdBit e c w
  let v := s.operand e c w
  if op = 0x01 then setAcc b
  else if op = 0x02 then setAcc (!b)
  else if op = 0x03 then setAcc (c.acc && b)
  else if op = 0x04 then setAcc (c.acc && !b)
  else if op = 0x05 then setAcc (c.acc || b)
  else if op = 0x06 then setAcc (c.acc || !b)
  else if op = 0x07 then setAcc (c.acc != b)
  else if op = 0x08 then (s.wrBit e c w c.acc, some next)
  else if op = 0x09 then (s.wrBit e c w (!c.acc), some next)
  else if op = 0x0A then (if c.acc then s.wrBit e c w true else s, some next)
  else if op = 0x0B then (if c.acc then s.wrBit e c w false else s, some next)
  else if op = 0x0C then setAcc (!c.acc)
  else if op = 0x0D then (s, some { next with stack := c.acc :: c.stack })
  else if op = 0x0E then (s, some { next with acc := c.stack.headD false && c.acc, stack := c.stack.tail })
  else if op = 0x0F then (s, some { next with acc := c.stack.headD false || c.acc, stack := c.stack.tail })
  else if op = 0x10 then jump
  else if op = 0x11 then (if c.acc then jump else (s, some next))
  else if op = 0x12 then (if c.acc then (s, some next) else jump)
  else if op = 0x13 then (s, none)
  else if op = 0x20 then setW v
  else if op = 0x21 then setW ((c.wacc &&& 0x3FFFFF#32) ||| BitVec.ofNat 32 (opdOf w % 1024 * 4194304))
  else if op = 0x22 then (s.wrWord e c (areaOf w) (idxOf w) c.wacc, some next)
  else if op = 0x25 then setW (c.wacc &&& v)
  else if op = 0x26 then setW (c.wacc ||| v)
  else if op = 0x27 then setW (c.wacc ^^^ v)
  else if op = 0x28 then setW (c.wacc <<< opdOf w)
  else if op = 0x29 then setW (c.wacc.sshiftRight (opdOf w))
  else if op = 0x2A then setAcc (c.wacc == v)
  else if op = 0x2B then setAcc (decide (v.toInt < c.wacc.toInt))
  else if op = 0x2C then setAcc (decide (c.wacc.toInt < v.toInt))
  else if 0x40 ≤ op then
    let r := ((s.eng e).inst.getD (opdOf w) ⟨0, 0, false, none, none⟩).exec op c.clock c.acc c.wacc
    (s.onEng e (fun x => { x with inst := x.inst.set (opdOf w) r.1 }), some { next with acc := r.2.1, wacc := r.2.2 })
  else
    let r := arith op c.wacc.toInt v.toInt
    (s.onEng e (fun x => { x with ovf := x.ovf || r.2.1, divz := x.divz || r.2.2 }), some { next with wacc := r.1 })

/-! ### Tasks -/

/-- Tasks of an engine run, the first of its contexts first, for at most so many instructions; the engine freezes before the
instruction its breakpoint names (R350). -/
def State.runTasks (s : State) (e : Nat) : Nat → State
  | 0 => s
  | k + 1 =>
    match (s.eng e).ctx with
    | [] => s
    | c :: rest =>
      if (s.eng e).brk = some (c.task, c.pc) ∧ c.passed = false then
        (s.onEng e (fun x => { x with
          mode := .hold, holdFrom := s.now, ctx := { c with passed := true } :: rest })).raise Ev.progHeld [e, c.task, c.pc, s.eventAt c.start]
      else
        let w := (match s.section_ e with | some x => x.code.getD c.pc 0x13000000 | none => 0x13000000)
        let r := s.instr e c w
        State.runTasks (r.1.onEng e (fun x => { x with ctx := match r.2 with | some c' => c' :: rest | none => rest })) e k

/-- Enough instructions for every task under way: each goes only forward. -/
def State.fuelOf (s : State) (e : Nat) : Nat :=
  ((s.eng e).ctx.length + 1) * ((match s.section_ e with | some x => x.code.length | none => 0) + 1)

def State.runAll (s : State) (e : Nat) : State := if (s.eng e).mode = .run then s.runTasks e (s.fuelOf e) else s

/-! ### Points (Table 13.2) -/

/-- Data words of a CAN object: the payload, and with time words the event time of its start of frame in the last two (15 R406). -/
def State.canWords (s : State) (p n : Nat) : List Word :=
  let o := s.plant.objs.getD (128 * (p / 256) + p % 128) CanObj.reset
  let data := (List.range n).map (fun i => wordAt o.data (4 * i))
  match s.canRow (p / 256) (p % 128) with
  | some r => if r.flags / 8 % 2 = 1 ∧ 2 ≤ n then data.take (n - 2) ++ [BitVec.ofNat 32 o.sof, BitVec.ofNat 32 (o.sof / 4294967296)] else data
  | none => data

/-- A Modbus read word: one register, sign-extended where FORMAT says so, or two joined, high register first. -/
def MbRow.word (r : MbRow) (regs : List Nat) (i : Nat) : Word :=
  if r.format / 2 % 2 = 1 then BitVec.ofNat 32 (regs.getD (2 * i) 0 * 65536 + regs.getD (2 * i + 1) 0)
  else if r.format % 2 = 1 then BitVec.ofInt 32 (signedOf 16 (regs.getD i 0)) else BitVec.ofNat 32 (regs.getD i 0)

/-- Module status points. -/
def State.statusPoint (s : State) (p : Nat) : Word :=
  match p with
  | 0 => BitVec.ofNat 32 (stageCode s.gate.stage)
  | 1 => BitVec.ofNat 32 s.disp.avail
  | 2 => BitVec.ofInt 32 (Sys2Proof.Config.quot s.disp.limC 1000000)
  | 3 => BitVec.ofInt 32 (Sys2Proof.Config.quot s.disp.limD 1000000)
  | 4 => BitVec.ofInt 32 (s.meas.iLast.getD 0)
  | 5 => BitVec.ofInt 32 (Sys2Proof.Config.quot s.loop.vs 1000)
  | 6 => s.safeStat
  | 7 => s.thermStat
  | _ => BitVec.ofNat 32 s.fabric.profile

/-- A cell quantity: primary voltage (05 R131: or its substitute), soc in 0.01 %, surface and core temperature, state of the estimate. -/
def State.cellPoint (s : State) (p : Nat) : Option Word :=
  let c := p / 8
  let x := s.est.pub.getD c EstCell.reset
  match p % 8 with
  | 0 => if (s.meas.cells.getD c Cell.reset).subst then some (BitVec.ofInt 32 (s.meas.cells.getD c Cell.reset).shown)
    else s.ring.last.bind (fun w => (w.cellP c).map (BitVec.ofInt 32))
  | 1 => some (BitVec.ofInt 32 (soc100 x.model.soc))
  | 2 => s.ring.last.bind (fun w => (s.thermistorOf c).bind (fun t => (w.thP t).map (BitVec.ofInt 32)))
  | 3 => some (BitVec.ofInt 32 x.model.core100)
  | _ => some (BitVec.ofNat 32 (match x.st with | .invalid => 0 | .converging => 1 | .valid => 2))

/-- The words an input point delivers; none: no fresh value, the image keeps its last. -/
def State.pointIn (s : State) (x : IoEntry) (n : Nat) : Option (List Word) :=
  match x.kind with
  | 1 => some [if s.prog.dio.getLsbD x.point then 1 else 0]
  | 2 => (s.cellPoint x.point).map (fun w => [w])
  | 3 => s.ring.last.bind (fun w => (w.thP x.point).map (fun v => [BitVec.ofInt 32 v]))
  | 4 => some [s.statusPoint x.point]
  | 5 => some (s.canWords x.point n)
  | 6 => (s.mbRow (x.point % 256)).map (fun r => [r.word (s.plant.mb.getD (x.point % 256) MbEntry.reset).regs (x.point / 256)])
  | _ => some [s.prog.host.getD x.point 0]

/-- The point is lost (last column of Table 13.2; 15 R409: out of scope after a change of the site configuration). -/
def State.pointLost (s : State) (x : IoEntry) : Bool :=
  match x.kind with
  | 2 => let c := x.point / 8
    (s.station (c / 16)).pLost || (decide (x.point % 8 ≠ 0) && decide ((s.est.pub.getD c EstCell.reset).st = .invalid))
  | 3 => (s.therm.sensors.getD x.point Sensor.reset).failed
  | 5 => (s.canRow (x.point / 256) (x.point % 128)).isNone || (s.plant.objs.getD (128 * (x.point / 256) + x.point % 128) CanObj.reset).lost
  | 6 => (s.mbRow (x.point % 256)).isNone || (s.plant.mb.getD (x.point % 256) MbEntry.reset).lost
  | _ => false

/-- The point delivers a substitute voltage, which its quality bit flags (05 R131). -/
def State.pointSubst (s : State) (x : IoEntry) : Bool :=
  decide (x.kind = 2 ∧ x.point % 8 = 0) && (s.meas.cells.getD (x.point / 8) Cell.reset).subst

/-- Words of an I/O entry's symbol, and the last words latched or released. -/
def Gelfoel.ioWords (g : Gelfoel) (x : IoEntry) : Nat := symWords (g.sym x.sym).type (g.sym x.sym).len
def State.lastWords (s : State) (i n : Nat) : List Word :=
  let l := s.prog.ioLast.getD i []
  (List.range n).map (fun j => l.getD j 0)

/-- A value placed in an image at a symbol. -/
def placeSym (img : List Word) (y : Symbol) (v : List Word) : List Word :=
  if y.type = 0 then img.set (y.index / 32) (let old := img.getD (y.index / 32) 0
    let m := bitW (y.index % 32)
    if (v.getD 0 0).getLsbD 0 then old ||| m else old &&& ~~~m)
  else (mapIdxL (fun j (w : Word) => (j, w)) v).foldl (fun l p => l.set (y.index + p.1) p.2) img

/-- What a symbol holds in an image. -/
def readSym (img : List Word) (y : Symbol) : List Word :=
  if y.type = 0 then [if (img.getD (y.index / 32) 0).getLsbD (y.index % 32) then 1 else 0]
  else (List.range (symWords y.type y.len)).map (fun j => img.getD (y.index + j) 0)

/-- The value of an input entry now: the point, or its substitute while it is lost (R337). -/
def State.inputValue (s : State) (g : Gelfoel) (i : Nat) (x : IoEntry) : List Word :=
  let n := g.ioWords x
  if s.prog.ioLost.getD i false then (if x.fixed then List.replicate n x.value else s.lastWords i n)
  else (s.pointIn x n).getD (s.lastWords i n)

/-- The input image of engine e latched now, forces applied, with the words latched by entry (R335, R337, R365). -/
def State.latch (s : State) (e : Nat) : List Word × List (Nat × List Word) :=
  match s.image with
  | none => ([], [])
  | some g =>
    let ins := (mapIdxL (fun i (x : IoEntry) => (i, x)) g.io).filter (fun p => !p.2.out && decide ((g.sym p.2.sym).engine = e))
    let vals := ins.map (fun p => (p.1, s.inputValue g p.1 p.2))
    let base := List.replicate (g.areaWords e 0) 0
    let img := (ins.zip vals).foldl (fun l q => placeSym l (g.sym q.1.2.sym) q.2.2) base
    let img := ins.foldl (fun l p => match p.2.qual with
      | some q => placeSym l (g.sym q) [if s.prog.ioLost.getD p.1 false || s.pointSubst p.2 then 0 else 1]
      | none => l) img
    (mapIdxL (fun i w => forceWord (s.forcesOn e 0) i w) img, vals)

/-! ### System area (Table 13.5) -/

def State.sysArea (s : State) (e start clock : Nat) (n : Nat) (causes : List (Nat × Nat)) : List Word :=
  let x := s.eng e
  let t := s.eventAt start
  let forced := match s.image with
    | some g => s.prog.forces.any (fun f => g.syms.any (fun y => decide (y.name = f.name ∧ y.engine = e)))
    | none => false
  [BitVec.ofNat 32 (bit x.firstScan + 2 * bit x.warm + 16 * bit s.isSolo + 32 * bit forced + 64 * bit s.time.traceable),
   BitVec.ofNat 32 (s.period e / 1000), BitVec.ofNat 32 clock, BitVec.ofNat 32 (clock / 4294967296),
   BitVec.ofNat 32 t, BitVec.ofNat 32 (t / 4294967296), BitVec.ofNat 32 n, 0]
    ++ (List.range 16).map (fun i => match causes[i]? with | some (c, a) => BitVec.ofNat 32 (c + 256 * a) | none => 0)
    ++ [BitVec.ofNat 32 x.lostTrig]

/-- Initial acc and wacc of a task: the spec gives none. -/
def State.taskAt (s : State) (e task start clock : Nat) (input : List Word) (n : Nat) (causes : List (Nat × Nat)) : TaskCtx :=
  { task := task, start := start, clock := clock, pc := ((s.image.bind (fun g => g.entry e task)).getD 0)
    acc := Sys2Proof.Config.taskAcc s.free, wacc := Sys2Proof.Config.taskWacc s.free, stack := []
    input := input, shared := s.prog.shared, system := s.sysArea e start clock n causes, host := s.prog.host, passed := false }

/-! ### Releasing outputs (R335, R337, R363) -/

/-- The module drives its outputs: in service and not withdrawn. -/
def State.driveDio (s : State) (p : Nat) (v : Bool) : State :=
  let t := s.onProg (fun x => { x with dioOut := x.dioOut.set p (some v) })
  if s.sending && decide (s.prog.dioOut.getD p none ≠ some v) then t.emit (.dio p (some v)) else t

/-- A pending frame of an object is cancelled (15 R403). -/
def CanObj.cancel (o : CanObj) (now : Nat) : CanObj := match o.tx with
  | some x => { o with tx := none, last := some { x with at_ := now } }
  | none => o

/-- A junior in the solo state withholds an object while it has heard its identifier within 20 ms or two periods (15 R407). -/
def State.withheld (s : State) (r : CanRow) : Bool :=
  s.isSolo && s.isJunior && (match (s.plant.objs.getD (128 * r.port + r.obj) CanObj.reset).heard with
    | some t => decide (s.now ≤ t + max 20000000 (2000000 * r.period))
    | none => false)

/-- A transmit object's data: it is queued where they differ from the data last queued (15 R400); a frame still pending is replaced
and counted. -/
def State.canQueue (s : State) (r : CanRow) (data : List Byte) : State :=
  let i := 128 * r.port + r.obj
  if s.withheld r || s.twin.txOff then { s with plant := { s.plant with objs := modAt s.plant.objs i (fun y => { y with out := data }) } }
  else
    let o := s.plant.objs.getD i CanObj.reset
    let t := { s with plant := { s.plant with objs := modAt s.plant.objs i (fun y => { y with
      out := data, tx := some ⟨r.ident, data, s.now, y.tx.map (fun z => z.data)⟩ }) } }
    if o.tx.isSome then { t with plant := { t.plant with can := modAt t.plant.can r.port (fun p => { p with
      overrun := satAdd p.overrun 1 7 }) } } else t

/-- New data for a transmit object: kept for its period, and queued at once where it is sent on change. -/
def State.canData (s : State) (r : CanRow) (data : List Byte) : State :=
  let i := 128 * r.port + r.obj
  if Fld.canCfg_EN s.cfg r.port then
    let was := (s.plant.objs.getD i CanObj.reset).out
    if r.period = 0 then (if was = data then s else s.canQueue r data)
    else { s with plant := { s.plant with objs := modAt s.plant.objs i (fun y => { y with out := data }) } }
  else s

/-- The register values a write entry sends, from its output words: a joined word gives its high half first. -/
def MbRow.values (r : MbRow) (out : List Nat) : List Nat :=
  (List.range r.count).map (fun i =>
    if r.format / 2 % 2 = 1 then (if i % 2 = 0 then out.getD (i / 2) 0 / 65536 % 65536 else out.getD (i / 2) 0 % 65536) else out.getD i 0 % 65536)

/-- A bound Modbus output is released: a write entry falls due where it differs from what was last written (15 R410). -/
def State.modbusOut (s : State) (e i v : Nat) : State :=
  { s with plant := { s.plant with mb := modAt s.plant.mb e (fun m =>
      let out := (List.range (max m.out.length (i + 1))).map (fun j => if j = i then v else m.out.getD j 0)
      let due := match s.mbRow e with
        | some r => !r.reads && decide (m.written ≠ some (r.values out))
        | none => false
      { m with out := out, due := match m.due with | some t => some t | none => if due then some s.now else none }) } }

/-- The value of one output entry is released. -/
def State.releasePoint (s : State) (e at_ : Nat) (i : Nat) (x : IoEntry) (v : List Word) : State :=
  let t := s.onProg (fun p => { p with ioLast := p.ioLast.set i v })
  match x.kind with
  | 1 => t.driveDio x.point ((v.getD 0 0).getLsbD 0)
  | 5 => match s.canRow (x.point / 256) (x.point % 128) with
    | some r => t.canData r ((v.flatMap (fun w => toLe w.toNat 4)).take r.length)
    | none => t
  | 6 => t.modbusOut (x.point % 256) (x.point / 256) (v.getD 0 0).toNat
  | 8 => t.onProg (fun p => { p with hostOut := p.hostOut.set x.point (v.getD 0 0) })
  | 9 =>
    let now := (v.getD 0 0).getLsbD 0
    let u := t.onProg (fun p => { p with evtLast := p.evtLast.set x.point now })
    if now && !s.prog.evtLast.getD x.point false then
      { u with rec_ := { u.rec_ with detected := u.rec_.detected ++
        [⟨s.eventAt at_, Ev.progEvent.code, Ev.progEvent.sev, [e, x.point, (s.prog.hostOut.getD x.point 0).toInt]⟩] } }
    else u
  | _ => t

/-- Output entries of engine e, with their indices. -/
def Gelfoel.outs (g : Gelfoel) (e : Nat) : List (Nat × IoEntry) :=
  (mapIdxL (fun i (x : IoEntry) => (i, x)) g.io).filter (fun p => p.2.out && decide ((g.sym p.2.sym).engine = e))

/-- An output's value as released: forces fix it in every state. -/
def State.forcedOut (s : State) (e : Nat) (y : Symbol) (v : List Word) : List Word :=
  match s.prog.forces.find? (fun f => decide (f.name = y.name)) with
  | some f => if y.engine = e ∧ y.type ≤ 1 then [f.value] else v
  | none => v

/-- Outputs are released from a list of entries; host-out points come before program events, whose records carry their words. -/
def State.releaseOuts (s : State) (e at_ : Nat) (l : List (Nat × IoEntry)) (val : Nat → IoEntry → List Word) : State :=
  match s.image with
  | none => s
  | some g =>
    let go (u : State) (p : Nat × IoEntry) : State := u.releasePoint e at_ p.1 p.2 (u.forcedOut e (g.sym p.2.sym) (val p.1 p.2))
    ((l.filter (fun p => decide (p.2.kind = 9)))).foldl go ((l.filter (fun p => decide (p.2.kind ≠ 9))).foldl go s)

/-- Whether a task's release (an event task's, or the cyclic task's with the error task's) carries what covers these bits. -/
def Gelfoel.releases (g : Gelfoel) (e : Nat) (event : Option Nat) (area lo n : Nat) : Bool := match event with
  | some k => meets (g.spans e k) area lo n
  | none => !((List.range 4).any (fun k => meets (g.spans e (k + 1)) area lo n))

/-- The released image of a task: its output entries, and the shared and host-out words it wrote become visible. -/
def State.releaseTask (s : State) (e at_ : Nat) (event : Option Nat) : State :=
  match s.image with
  | none => s
  | some g =>
    let mine (area : Nat) (x : Nat × Word) : Bool := g.releases e event area (32 * x.1) 32
    let outs := (g.outs e).filter (fun p => let y := g.sym p.2.sym
      g.releases e event y.area y.span.1 y.span.2)
    let t := s.onProg (fun p => { p with
      shared := ((s.eng e).sharedW.filter (mine 4)).foldl (fun l x => l.set x.1 x.2) p.shared
      hostOut := ((s.eng e).hostOut.filter (mine 7)).foldl (fun l x => l.set x.1 x.2) p.hostOut })
    (t.onEng e (fun x => { x with sharedW := x.sharedW.filter (fun y => !mine 4 y), hostOut := x.hostOut.filter (fun y => !mine 7 y) })).releaseOuts
      e at_ outs (fun _ x => readSym (s.eng e).output (g.sym x.sym))

/-- The outputs an engine writes take their stop values (R349, R353). -/
def State.stopValues (s : State) (e : Nat) : State :=
  match s.image with
  | none => s
  | some g => s.releaseOuts e s.now (g.outs e) (fun i x => if x.fixed then List.replicate (g.ioWords x) x.value else s.lastWords i (g.ioWords x))

/-- Each output the engine writes takes its stop value (R349). Its pending CAN frames are cancelled (15 R403). -/
def State.stopOuts (s : State) (e : Nat) : State :=
  match s.image with
  | none => s
  | some g =>
    (g.outs e).foldl (fun u p => if p.2.kind = 5 then { u with plant := { u.plant with
      objs := modAt u.plant.objs (128 * (p.2.point / 256) + p.2.point % 128) (fun o => o.cancel u.now) } } else u) (s.stopValues e)

/-! ### Modes (R349 to R352) and restarts (R353 to R355) -/

/-- The program clock accounted up to a time: it moves in RUN and in a switch gap (R343). -/
def CycEng.tickTo (x : CycEng) (now : Nat) : CycEng :=
  { x with clock := if x.mode = .run then x.clock + (now - x.clockAt) / 1000 else x.clock, clockAt := now }

/-- Initial values of an area's symbols of an engine. -/
def Gelfoel.initArea (g : Gelfoel) (e area : Nat) : List Word :=
  (g.syms.filter (fun x => x.of e && decide (x.area = area ∧ x.type ≤ 2))).foldl (fun l x => placeSym l x x.init)
    (List.replicate (g.areaWords e area) 0)

def freshInst : Inst := ⟨0, 0, false, none, none⟩

/-- An engine's variables, instances and clock as of the end of its last cycle. -/
def CycEng.atEnd (x : CycEng) : Ended := x.ended.getD ⟨x.local_, x.ret, x.output, x.inst, x.clock⟩

/-- A cold restart of an engine, or a warm one from a saved copy (Table 13.7). Shared variables take their initial values with
their engine's symbols; outputs their stop values until the restarted program's first release. -/
def State.restartEng (s : State) (e : Nat) (warm : Option SavedCopy) : State :=
  match s.image, s.section_ e with
  | some g, some c =>
    let t := s.onEng e (fun x => { x with
      mode := .run, local_ := g.initArea e 2, output := g.initArea e 1
      ret := match warm with | some v => v.ret | none => g.initArea e 3
      inst := match warm with | some v => v.inst | none => List.replicate c.inst freshInst
      clock := match warm with | some v => v.clock | none => 0
      clockAt := s.now, ovf := false, divz := false, firstScan := true, warm := warm.isSome, warmLast := warm.isSome
      restarts := satAdd x.restarts 1 255, ctx := [], cycleAt := none, sharedW := [], hostOut := [], brk := none, cmd := none, choice := false
      events := List.replicate c.events ⟨none, false, none⟩, ended := none })
    let mine := (List.range g.shared).filter (fun i => (g.sharedWriters i).any (fun w => decide ((w - 0x4000) / 8 = e)))
    (t.onProg (fun p => { p with shared := mine.foldl (fun l i => l.set i ((g.initArea 255 4).getD i 0)) p.shared })).stopValues e
  | _, _ => s

/-- Nothing is under way in an engine, and it is in STOP. -/
def CycEng.stopped (x : CycEng) (now : Nat) : CycEng :=
  { x.tickTo now with mode := .stop, ctx := [], cycleAt := none, brk := none, sharedW := [], hostOut := [], cmd := none
                      events := x.events.map (fun v => { v with waiting := false, release := none }) }

def State.stopEng (s : State) (e : Nat) : State := (s.onEng e (fun x => x.stopped s.now)).stopOuts e

/-- The saved copy is one of the active image (its check value is good), and whether the outage in ns, if known, is within
WARM_MIN. -/
def State.warmOk (s : State) (c : Option SavedCopy) (outage : Option Int) (always : Bool) : Option SavedCopy :=
  match c, s.image with
  | some v, some g =>
    if v.id ≠ g.id then none
    else if always then some v
    else match outage with
      | some d => if d < (60000000000 * Fld.cycCfg_WARM_MIN s.cfg : Nat) then some v else none
      | none => none
  | _, _ => none

/-- The restart choice of one engine at a start (R355). -/
def State.restartChoice (s : State) (e : Nat) : State :=
  match s.section_ e with
  | none => s
  | some _ =>
    let copy := (s.eng e).savedM
    let outage := if s.time.setOnce then copy.map (fun v => (s.sysNs : Int) - nsOfEvent v.time) else none
    match Fld.cycCfg_START s.cfg with
    | 0 => s.restartEng e (s.warmOk copy outage false)
    | 1 => match s.warmOk copy outage true with
      | some v => s.restartEng e (some v)
      | none => (s.restartEng e none).raise Ev.progColdForced [e]
    | 2 => s.restartEng e none
    | _ => s.onEng e (fun x => { x.stopped s.now with choice := false })

/-- Engines of a newly loaded image: those with a section stand in STOP, the others are idle. -/
def State.seatEngines (s : State) : State :=
  match s.image with
  | none => s.onProg (fun p => { p with engines := p.engines.map (fun x => { x with mode := .idle, ctx := [], cycleAt := none }) })
  | some g => s.onProg (fun p => { p with
      engines := mapIdxL (fun e (x : CycEng) => match g.secs.getD e none with
        | none => { x with mode := .idle, ctx := [], cycleAt := none }
        | some c => { x with mode := .stop, local_ := g.initArea e 2, ret := g.initArea e 3, output := g.initArea e 1
                             inst := List.replicate c.inst freshInst, ended := none
                             events := List.replicate c.events ⟨none, false, none⟩ }) p.engines
      shared := g.initArea 255 4
      ioLost := List.replicate g.io.length false, ioLast := g.io.map (fun x => List.replicate (g.ioWords x) x.value) })

end Sys2Proof.Machine
end

