-- ==== Sys2Proof/Machine/Prog.lean ====
section
/-! DEFINITION. Commands of the cycle engines (13): cycles, event tasks, saved copies, breakpoints, restarts, online change, the
program command, and image loading. -/
namespace Sys2Proof.Machine

/-! ### Cycles (R335) -/

/-- The cycle under way is completed: its tasks run to their ends, and unless the engine froze, its outputs are released. -/
def State.endCycle (s : State) (e done : Nat) : State :=
  match (s.eng e).cycleAt with
  | none => s
  | some t0 =>
    if (s.eng e).mode ≠ .run then s
    else
      let p := s.period e
      let u := (s.advance (t0 + p)).runAll e
      if (u.eng e).mode ≠ .run then u
      else ((u.onEng e (fun x => { x with cycleAt := none, slack := (p - min p (1000 * done)) * 100 / p })).releaseTask e (t0 + p) none).onEng e
        (fun x => { x with ended := some ⟨x.local_, x.ret, x.output, x.inst, (x.tickTo (t0 + p)).clock⟩ })

/-- A mode command takes effect at a cycle start (R349 to R351); a held cycle is completed in the period that begins. -/
def State.modeCmd (s : State) (e : Nat) : State :=
  match (s.eng e).cmd with
  | none => s
  | some c =>
    let t := s.onEng e (fun x => { x with cmd := none })
    match c with
    | .run cold => if cold then t.restartEng e none else t.onEng e (fun x => { x with mode := .run, clockAt := s.now, firstScan := true })
    | .stop => t.stopEng e
    | .hold task instr => t.onEng e (fun x => { x with brk := some (task, instr) })
    | .step => t.onEng e (fun x => { x with mode := .run, clockAt := s.now, cycleAt := some s.now })
    | .resume => t.onEng e (fun x => if x.mode = .hold then
        { x with mode := .run, clockAt := s.now, cycleAt := some s.now, brk := none } else { x with brk := none })

/-- A new cycle: the input image is latched; the error task runs first if causes wait (R335, R348). -/
def State.beginCycle (s : State) (e : Nat) : State :=
  let t := s.onEng e (fun x => x.tickTo s.now)
  let x := t.eng e
  let (img, vals) := t.latch e
  let clock := x.clock
  let err := decide (x.nCauses ≠ 0)
  let cyc := t.draw.taskAt e 0 s.now clock img 0 []
  let ctx := if err then [t.taskAt e 7 s.now clock img x.nCauses x.causes, cyc] else [cyc]
  (t.draw.draw.onEng e (fun y => { y with
    ctx := ctx, cycleAt := some s.now, firstScan := false
    nCauses := if err then 0 else y.nCauses, causes := if err then [] else y.causes })).onProg (fun p => { p with
      ioLast := vals.foldl (fun l v => l.set v.1 v.2) p.ioLast })

/-- CYCLE_START (R335, R349): the engine's next cycle start. -/
def execCycleStart (e : Fin 8) (s : State) : Result :=
  let u := s.endCycle e.val 0
  let p := u.period e.val
  let at_ := match (u.eng e.val).cycleAt with
    | some t0 => max (atOrAfter u.now p) (t0 + p)
    | none => atOrAfter u.now p
  let v := (u.advance at_).modeCmd e.val
  let x := v.eng e.val
  .next (if x.mode = .run ∧ x.ctx = [] ∧ x.cycleAt = none ∧ x.startFrom ≤ at_ ∧ v.life.guard_ = false ∧ x.choice = false then v.beginCycle e.val else v)

/-- CYCLE_RELEASE (R335): at the cycle's end; `done` is the completion time of its work in µs (CE_STAT.SLACK). -/
def execCycleRelease (e : Fin 8) (done : Nat) (s : State) : Result := .next (s.endCycle e.val done)

/-! ### Event tasks (R346) -/

/-- Event tasks under way run to their end; then the tasks they interrupted stand as they were. -/
def State.runEvents (s : State) (e : Nat) : State :=
  let l := (s.eng e).ctx
  let ev := l.takeWhile (fun c => decide (1 ≤ c.task ∧ c.task ≤ 4))
  let rest := l.drop ev.length
  let t := (s.onEng e (fun x => { x with ctx := ev })).runAll e
  t.onEng e (fun x => { x with ctx := x.ctx ++ rest })

/-- Event task n starts now: it interrupts the cyclic task after a number of instructions that the spec does not fix. -/
def State.startEvent (s : State) (e n : Nat) : State :=
  let t := s.runEvents e
  let u := if (t.eng e).mode = .run then (t.runTasks e (min (t.fuelOf e) (Sys2Proof.Config.taskProgress s.free))).draw else t
  if (u.eng e).mode ≠ .run then u.onEng e (fun x => { x with lostTrig := x.lostTrig + 1 })
  else
    let interval := match s.image with | some g => ((g.events e)[n]?.map (fun v => 250000 * v.interval)).getD 0 | none => 0
    let v := u.onEng e (fun x => x.tickTo s.now)
    let (img, _) := v.latch e
    let c := v.taskAt e (n + 1) s.now (v.eng e).clock img (v.eng e).nCauses (v.eng e).causes
    v.draw.onEng e (fun x => { x with
      ctx := c :: x.ctx, events := modAt x.events n (fun y => { y with last := some s.now, waiting := false, release := some (s.now + interval) }) })

/-- An event task's outputs are released at its start plus its minimum interval; a trigger that waits is taken. -/
def State.eventRelease (s : State) (e n : Nat) : State :=
  match (s.eng e).events[n]? with
  | some v => match v.release with
    | some r =>
      let t := (s.advance r).runEvents e
      if (t.eng e).mode ≠ .run then t
      else
        let u := (t.releaseTask e t.now (some (n + 1))).onEng e (fun y => { y with
          events := modAt y.events n (fun z => { z with release := none }) })
        if v.waiting then u.startEvent e n else u
    | none => s
  | none => s

/-- EVENT_TASK_TRIGGER (R346): a trigger of event task n of an engine, taken at the next grid instant; within the minimum interval one
waits and the others are lost, and so are those of a frozen engine (R350). A release that is due by then comes first. -/
def execEventTaskTrigger (e : Fin 8) (n : Fin 4) (s : State) : Result :=
  let t := s.advance (atOrAfter s.now 250000)
  let t := match ((t.eng e.val).events[n.val]?).bind (fun v => v.release) with
    | some r => if r ≤ t.now then t.eventRelease e.val n.val else t
    | none => t
  let x := t.eng e.val
  .next (match x.mode, x.events[n.val]? with
    | .hold, some _ => t.onEng e.val (fun y => { y with lostTrig := y.lostTrig + 1 })
    | .run, some v =>
      let due := match v.release with | some r => decide (r ≤ t.now) | none => true
      if x.startFrom ≤ t.now ∧ due = true then t.startEvent e.val n.val
      else if v.waiting then t.onEng e.val (fun y => { y with lostTrig := y.lostTrig + 1 })
      else t.onEng e.val (fun y => { y with events := modAt y.events n.val (fun z => { z with waiting := true }) })
    | _, _ => t)

/-- EVENT_TASK_RELEASE (R346): at the task's start plus its minimum interval; a trigger that waits is taken. -/
def execEventTaskRelease (e : Fin 8) (n : Fin 4) (s : State) : Result := .next (s.eventRelease e.val n.val)

/-! ### Saved copies and breakpoints -/

/-- The saved copy of an engine now: what stood after its last cycle that ended (R354). -/
def State.savedCopy (s : State) (e : Nat) : Option SavedCopy :=
  let x := s.eng e
  match s.image with
  | some g => if x.mode = .idle then none else some ⟨g.id, eventOf s.sysNs, s.now, (x.tickTo s.now).atEnd.ret, (x.tickTo s.now).atEnd.inst, (x.tickTo s.now).atEnd.clock⟩
  | none => none

/-- Every engine's copies, in working memory and, unless writes are barred, in MRAM (R354, 10 R278). -/
def State.saveAll (s : State) : State :=
  let save (e : Nat) (x : CycEng) : CycEng := match s.savedCopy e with
    | some c => { x with savedW := some c, savedM := if s.nvmBarred then x.savedM else some c }
    | none => x
  s.onProg (fun p => { p with engines := mapIdxL save p.engines })

def execSavedCopyWrite (second : Nat) (s : State) : Result := .next (s.advance (second * 1000000000)).saveAll

/-- BREAKPOINT_HIT (R350): the tasks under way reach the breakpoint. -/
def execBreakpointHit (e : Fin 8) (s : State) : Result :=
  let t := s.runAll e.val
  .next (if (s.eng e.val).mode = .run ∧ (t.eng e.val).mode = .hold then t else s)

/-- HOLD_EXPIRED (R352): a hold of HOLD_MAX minutes ends in STOP at the next cycle boundary. -/
def execHoldExpired (e : Fin 8) (s : State) : Result :=
  let x := s.eng e.val
  .next (if x.mode = .hold then
    ((s.advance (atOrAfter (x.holdFrom + 60000000000 * Fld.cycCfg_HOLD_MAX s.cfg) s.baseCycle)).stopEng e.val).raise Ev.holdExpired [e.val]
  else s)

/-- A twin makes no restart choice while it waits for its partner's start or takes its partner's state (R356). -/
def State.takesChoice (s : State) : Bool :=
  s.isPair && (s.twin.waitFrom.isSome || (match s.twin.catchUp with | some c => !c.supplying | none => false))

/-- CYCLE_RESTART_CHOICE (R355): made once the time base has been set or the start wait has ended. In guard mode the engines stay in
STOP. -/
def execCycleRestartChoice (s : State) : Result :=
  .next ((List.range 8).foldl (fun u e =>
    if (u.eng e).choice && !s.takesChoice then
      (if u.life.guard_ then u.onEng e (fun x => { x.stopped u.now with choice := false }) else u.restartChoice e)
    else u) s)

/-! ### The program command (R367, Table 13.12) -/

/-- A switch is armed, or accepted. -/
def State.switchArmed (s : State) : Bool :=
  s.prog.switchAt.isSome || (s.host.accepted ++ s.host.waiting.map (fun (w : WaitCmd) => (0, w.cmd))).any (fun a =>
    decide (a.2.opcode = 0x50) && decide (byteAt a.2.arg 0 = 1 ∨ byteAt a.2.arg 0 = 2))

/-- A breakpoint is about to be armed. -/
def CycEng.holdDue (x : CycEng) : Bool := match x.cmd with
  | some (.hold _ _) => true
  | _ => false

/-- Engines of a mask. -/
def maskEngines (m : Nat) : List Nat := (List.range 8).filter (fun e => decide (m / 2 ^ e % 2 = 1))

def State.idleBank (s : State) : Bank := s.prog.banks.getD (1 - s.prog.active) ⟨0, none, none⟩

/-- SWITCH is possible: the idle bank admitted, no engine in HOLD, no breakpoint armed (R359). -/
def State.maySwitch (s : State) : Bool :=
  decide (s.idleBank.st = 3) && s.prog.engines.all (fun x => decide (x.mode ≠ .hold) && x.brk.isNone && !x.holdDue) && !s.switchArmed && !s.life.guard_

/-- The n-th name of a command's data. -/
def nameAt (b : List Byte) (i : Nat) : List Byte := (List.range 32).map (fun j => b.getD (32 * i + j) 0)

def State.findSym (s : State) (name : List Byte) : Option (Nat × Symbol) :=
  s.image.bind (fun g => (mapIdxL (fun i (x : Symbol) => (i, x)) g.syms).find? (fun p => decide (p.2.name = name)))

/-- FORCE_SET's own checks (R365). -/
def State.forceStatus (s : State) (name : List Byte) (value : Nat) : Option (Nat × Nat) :=
  match s.findSym name with
  | none => some (St.symbolUnknown, 0)
  | some (_, y) =>
    if !y.forcible ∨ y.type = 2 ∨ (y.type = 0 ∧ 1 < value) then some (St.fieldRange, 40)
    else if 256 ≤ s.prog.forces.length ∧ !(s.prog.forces.any (fun f => decide (f.name = name))) then some (St.forceTableFull, 0)
    else none

/-- The state permits an operation, and its arguments are in range: the first failing status and detail. -/
def State.progStatus (s : State) (c : Cmd) : Option (Nat × Nat) :=
  let a (i : Nat) := byteAt c.arg i
  let engs := maskEngines (a 1)
  let x := s.eng (a 1)
  let state (ok : Bool) : Option (Nat × Nat) := if ok then none else some (St.progState, 0)
  match a 0 with
  | 1 => state s.maySwitch
  | 2 => state (s.maySwitch && s.prog.rollback)
  | 3 => if 1 < a 2 then some (St.fieldRange, 34) else state (!s.life.guard_ && engs.all (fun e => decide ((s.eng e).mode = .stop) && !(s.eng e).choice))
  | 4 => state (engs.all (fun e => decide ((s.eng e).mode = .run ∨ (s.eng e).mode = .hold)))
  | 5 =>
    if 7 < a 1 then some (St.fieldRange, 33)
    else if x.mode ≠ .run ∨ s.switchArmed then some (St.progState, 0)
    else if (s.image.bind (fun g => g.entry (a 1) (a 3))).isNone ∨ (4 < a 3 ∧ a 3 ≠ 7) then some (St.fieldRange, 35)
    else if (match s.section_ (a 1) with | some y => decide (leAt c.arg 4 4 < y.code.length) | none => false) then none
    else some (St.fieldRange, 36)
  | 6 => if 7 < a 1 then some (St.fieldRange, 33) else state (decide (x.mode = .hold))
  | 7 => if 7 < a 1 then some (St.fieldRange, 33) else state (decide (x.mode = .hold) || x.brk.isSome)
  | 8 => s.forceStatus (nameAt c.data 0) (leAt c.arg 8 4)
  | 9 => if a 2 % 2 = 1 ∨ s.prog.forces.any (fun f => decide (f.name = nameAt c.data 0)) = true ∨ (s.findSym (nameAt c.data 0)).isSome = true then none
    else some (St.symbolUnknown, 0)
  | _ =>
    if 256 < leAt c.arg 12 2 + a 14 then some (St.fieldRange, 44)
    else if a 14 = 0 ∨ 64 < a 14 ∨ c.data.length ≠ 4 * a 14 then some (St.fieldRange, 46)
    else none

/-- An operation that both twins must accept (R368). -/
def State.progRow (s : State) (q : Fin 32) (op : Nat) : State :=
  s.hostRow q 0x50 (op0 op) (fun t d =>
    match t.progStatus d.cmd with
    | some (st, det) => .refuse st det
    | none =>
      let r := t.acceptBoth d.cmd
      .accept 0 r.2 [] r.1)

def execProgramSwitch (q : Fin 32) (s : State) : Result := .next (s.progRow q 1)
def execProgramRollback (q : Fin 32) (s : State) : Result := .next (s.progRow q 2)
def execProgramRun (q : Fin 32) (s : State) : Result := .next (s.progRow q 3)
def execProgramStop (q : Fin 32) (s : State) : Result := .next (s.progRow q 4)
def execProgramHold (q : Fin 32) (s : State) : Result := .next (s.progRow q 5)
def execProgramStep (q : Fin 32) (s : State) : Result := .next (s.progRow q 6)
def execProgramResume (q : Fin 32) (s : State) : Result := .next (s.progRow q 7)
def execForceSet (q : Fin 32) (s : State) : Result := .next (s.progRow q 8)
def execForceClear (q : Fin 32) (s : State) : Result := .next (s.progRow q 9)
def execHostWrite (q : Fin 32) (s : State) : Result := .next (s.progRow q 11)

/-- The value of a symbol as of the last cycle end (Table 13.12): variables, image words, and one word of an instance: a timer's ET in
ms, a counter's CV, an edge detector's previous state. -/
def State.symValue (s : State) (y : Symbol) : List Word :=
  let x := s.eng y.engine
  let z := x.atEnd
  let i := z.inst.getD y.index freshInst
  if 3 ≤ y.type ∧ y.type ≤ 5 then [BitVec.ofNat 32 (i.et / 1000)]
  else if y.type = 6 ∨ y.type = 7 then [BitVec.ofInt 32 i.cv]
  else if y.type = 8 ∨ y.type = 9 then [if i.prev.getD false then 1 else 0]
  else
    let img := match y.area with
      | 0 => (match s.image with
        | some g => (g.io.zip s.prog.ioLast).foldl (fun l p => if p.1.out then l else placeSym l (g.sym p.1.sym) p.2) (List.replicate (g.areaWords y.engine 0) 0)
        | none => [])
      | 1 => z.output
      | 2 => z.local_
      | 3 => z.ret
      | 4 => s.prog.shared
      | 7 => s.prog.hostOut
      | 6 => s.prog.host
      | _ => []
    readSym (mapIdxL (fun j w => forceWord (s.forcesOn y.engine y.area) j w) img) y

/-- PROGRAM_READ (R367): up to 64 symbols, each with its word count. -/
def execProgramRead (q : Fin 32) (s : State) : Result :=
  .next (s.hostRow q 0x50 (op0 10) (fun t d =>
    let n := d.argByte 14
    if n = 0 ∨ 64 < n ∨ d.body.length ≠ 32 * n then .refuse St.fieldRange 46
    else
      let found := (List.range n).map (fun i => t.findSym (nameAt d.body i))
      match (List.range n).find? (fun i => (found.getD i none).isNone) with
      | some i => .refuse St.symbolUnknown i
      | none =>
        let vals := found.map (fun f => match f with | some (_, y) => t.symValue y | none => [])
        .accept (sumN (vals.map (fun v => 4 + 4 * v.length))) false
          (vals.flatMap (fun v => packBytes ((4, (v.length : Int)) :: v.map (fun w => (4, (w.toNat : Int)))))) t))

/-- The switch boundary: the first multiple of the longest period at least 10 ms after the acceptance (R359). -/
def State.boundaryAfter (s : State) (accepted : Nat) : Nat :=
  let longest := ((List.range 8).filter (fun e => (s.section_ e).isSome)).foldl (fun m e => max m (s.period e)) s.baseCycle
  atOrAfter (accepted + 10000000) longest

/-- Outputs whose forces have changed are released again: forced, or as they stood without (R365). -/
def State.reforce (s : State) (hit : List Byte → Bool) : State :=
  match s.image with
  | none => s
  | some g => (List.range 8).foldl (fun u e => u.releaseOuts e u.now ((g.outs e).filter (fun p => hit (g.sym p.2.sym).name)) (fun _ x =>
      if (u.eng e).mode = .stop ∧ x.fixed = true then List.replicate (g.ioWords x) x.value else readSym (u.eng e).atEnd.output (g.sym x.sym))) s

/-- The effect of an accepted operation at a cycle boundary. -/
def State.applyProg (s : State) (c : Cmd) (accepted : Nat) : State :=
  let a (i : Nat) := byteAt c.arg i
  let order (l : List Nat) (k : CeCmd) : State := l.foldl (fun u e => u.onEng e (fun x => { x with cmd := some k })) s
  match a 0 with
  | 1 | 2 => s.onProg (fun p => { p with
      switchAt := some (s.boundaryAfter accepted), banks := modAt p.banks (1 - p.active) (fun b => { b with st := 5 }) })
  | 3 => order (maskEngines (a 1)) (.run (a 2 % 2 == 1))
  | 4 => order (maskEngines (a 1)) .stop
  | 5 => order [a 1] (.hold (a 3) (leAt c.arg 4 4))
  | 6 => order [a 1] .step
  | 7 => order [a 1] .resume
  | 8 => (s.onProg (fun p => { p with
      forces := (p.forces.filter (fun f => decide (f.name ≠ nameAt c.data 0))) ++ [⟨nameAt c.data 0, wordAt c.arg 8⟩] })).reforce
        (fun n => decide (n = nameAt c.data 0))
  | 9 =>
    let gone (n : List Byte) : Bool := decide (a 2 % 2 = 1) || decide (n = nameAt c.data 0)
    (s.onProg (fun p => { p with forces := p.forces.filter (fun f => !gone f.name) })).reforce
      (fun n => gone n && s.prog.forces.any (fun f => decide (f.name = n)))
  | _ => s.onProg (fun p => { p with
      host := (List.range (a 14)).foldl (fun l i => l.set (leAt c.arg 12 2 + i) (wordAt c.data (4 * i))) p.host })

/-- PROGRAM_CMD_EXPIRED (R368). -/
def execProgramCmdExpired (s : State) : Result :=
  .next (s.expireBoth (fun c => decide (c.opcode = 0x50)) Ev.progCmdExpired (fun c => [byteAt c.arg 0]))

/-- At a cycle boundary points are judged lost or live; a new loss is a cause for the engine that reads the point (R337, R348). -/
def State.ioBoundary (s : State) : State :=
  match s.image with
  | none => s
  | some g =>
    let now := g.io.map (fun x => !x.out && s.pointLost x)
    let newly := (List.range g.io.length).filter (fun i => now.getD i false && !s.prog.ioLost.getD i false)
    let t := newly.foldl (fun u i => u.addCause (g.sym ((g.io.getD i ⟨0, 0, false, false, 0, 0, none⟩).sym)).engine 2 i) s
    t.onProg (fun p => { p with ioLost := now })

/-! ### Online change (R360 to R364) -/

/-- A variable keeps its value (R361): the same name, type and array length in both images. -/
def carries (old new : Symbol) : Bool := decide (old.name = new.name ∧ old.type = new.type ∧ old.len = new.len)

/-- What an old symbol holds at B. -/
def State.oldValue (s : State) (y : Symbol) : List Word :=
  let x := s.eng y.engine
  readSym (match y.area with
    | 1 => x.output
    | 2 => x.local_
    | 3 => x.ret
    | 4 => s.prog.shared
    | 7 => s.prog.hostOut
    | _ => []) y

/-- An area of the new image at B: initial values, and the values carried over. -/
def State.newArea (s : State) (g0 : Option Gelfoel) (g1 : Gelfoel) (e area : Nat) : List Word :=
  (g1.syms.filter (fun y => y.of e && decide (y.area = area ∧ y.type ≤ 2))).foldl (fun l y =>
    placeSym l y (match g0.bind (fun g => g.syms.find? (fun x => carries x y)) with
      | some x => s.oldValue x
      | none => y.init)) (List.replicate (g1.areaWords (min e 7) area) 0)

/-- The output image at B: a point bound in both images keeps its last released value until the new program writes it (R363). -/
def State.boundOuts (s : State) (g0 : Option Gelfoel) (g1 : Gelfoel) (e : Nat) (img : List Word) : List Word :=
  match g0 with
  | none => img
  | some g => (g1.outs e).foldl (fun l p =>
      let y := g1.sym p.2.sym
      if g.syms.any (fun x => carries x y) then l
      else match (g.io.zip s.prog.ioLast).find? (fun q => decide (q.1.kind = p.2.kind ∧ q.1.point = p.2.point) && q.1.out) with
        | some q => placeSym l y q.2
        | none => l) img

/-- The instruction kind an instance is used with. -/
def instKind (c : Section) (i : Nat) : Nat :=
  ((c.code.find? (fun w => decide (shapeOf (opOf w) = .inst ∧ opdOf w = i ∧ opOf w ≠ 0x45))).map opOf).getD 0

/-- Instances carried over by number and kind (R362). -/
def State.newInst (s : State) (c0 : Option Section) (c1 : Section) (e : Nat) : List Inst :=
  (List.range c1.inst).map (fun i => match c0 with
    | some c => if i < c.inst ∧ instKind c i = instKind c1 i ∧ instKind c i ≠ 0 then
        let x := (s.eng e).inst.getD i freshInst
        if instKind c i ≤ 0x42 then { x with prev := none } else x
      else freshInst
    | none => freshInst)

/-- One engine under the new image, from B; its first cycle starts after the gap (R360). -/
def State.switchEng (s : State) (g0 : Option Gelfoel) (g1 : Gelfoel) (gapEnd e : Nat) (x : CycEng) : CycEng :=
  match g1.secs.getD e none with
  | none => { x with mode := .idle, ctx := [], cycleAt := none, brk := none, cmd := none, startFrom := gapEnd }
  | some c =>
    let c0 := g0.bind (fun g => g.secs.getD e none)
    { x.tickTo s.now with
      mode := if x.mode = .stop then .stop else .run
      local_ := s.newArea g0 g1 e 2, ret := s.newArea g0 g1 e 3, output := s.boundOuts g0 g1 e (s.newArea g0 g1 e 1)
      inst := s.newInst c0 c e, ctx := [], cycleAt := none, startFrom := gapEnd, firstScan := true, sharedW := [], hostOut := []
      events := List.replicate c.events ⟨none, false, none⟩
      ended := none }

/-- Outputs of the old image that the new one does not bind take their stop values (R363). -/
def State.dropOuts (s : State) (g0 : Option Gelfoel) (g1 : Gelfoel) : State :=
  match g0 with
  | none => s
  | some g =>
    (List.range 8).foldl (fun u e =>
      let gone := (g.outs e).filter (fun p => !(g1.io.any (fun x => x.out && decide (x.kind = p.2.kind ∧ x.point = p.2.point))))
      u.releaseOuts e s.now gone (fun i x => if x.fixed then List.replicate (g.ioWords x) x.value else s.lastWords i (g.ioWords x))) s

/-- Symbols whose type changed: a cause for their engine and an event (R361). -/
def State.symResets (s : State) (g0 : Option Gelfoel) (g1 : Gelfoel) : State :=
  match g0 with
  | none => s
  | some g =>
    (mapIdxL (fun i (y : Symbol) => (i, y)) g1.syms).foldl (fun u p =>
      if p.2.type ≤ 2 ∧ g.syms.any (fun x => decide (x.name = p.2.name ∧ x.type ≠ p.2.type)) = true then
        (u.addCause p.2.engine 4 p.1).raise Ev.progSymbolReset [p.2.engine, p.1]
      else u) s

/-- Forces whose symbol does not carry over are dropped (R366). -/
def State.dropForces (s : State) (g0 : Option Gelfoel) (g1 : Gelfoel) : State :=
  let keeps (f : Force) : Bool := match g0.bind (fun g => g.syms.find? (fun x => decide (x.name = f.name))) with
    | some x => g1.syms.any (fun y => carries x y)
    | none => false
  let t := (s.prog.forces.filter (fun f => !keeps f)).foldl (fun u f => u.raise Ev.forceDropped [(leAt f.name 0 32 : Int)]) s
  t.onProg (fun p => { p with forces := p.forces.filter keeps })

/-- SWITCH_BOUNDARY (R360 to R364): at B. -/
def State.switchOver (s : State) (b : Nat) (g1 : Gelfoel) : State :=
  let s := (List.range 8).foldl (fun u e => u.endCycle e 0) s
  let g0 := s.image
  let gapEnd := b + atOrAfter 2000000 s.baseCycle
  let engines := mapIdxL (fun e (x : CycEng) => s.switchEng g0 g1 gapEnd e x) s.prog.engines
  let shared := s.newArea g0 g1 255 4
  let hostOut := s.prog.hostOut
  let last := g1.io.map (fun x => match g0 with
    | some g => (match (g.io.zip s.prog.ioLast).find? (fun p => decide (p.1.kind = x.kind ∧ p.1.point = x.point ∧ p.1.out = x.out)) with
      | some p => p.2
      | none => List.replicate (g1.ioWords x) x.value)
    | none => List.replicate (g1.ioWords x) x.value)
  let t := s.dropOuts g0 g1
  let u := t.onProg (fun p => { p with
    engines := engines, shared := shared, hostOut := hostOut, ioLast := last, ioLost := g1.io.map (fun _ => false), switchAt := none
    rollback := g0.isSome, active := 1 - p.active
    banks := mapIdxL (fun i (k : Bank) => if i = p.active then (if g0.isSome then { k with st := 3 } else k) else { k with st := 4 }) p.banks })
  ((u.symResets g0 g1).dropForces g0 g1).raiseAt (nsOfEvent (s.eventAt b)) Ev.progSwitched
    [((g0.map (fun g => g.id.toNat)).getD 0 : Nat), g1.id.toNat, s.eventAt b]

def execSwitchBoundary (s : State) : Result :=
  .next (match s.prog.switchAt with
    | none => s
    | some b =>
      let t := s.advance b
      match t.idleBank.image with
      | some g => t.switchOver b g
      | none => t.onProg (fun p => { p with switchAt := none }))

/-! ### Loading (R357, 14 R385) -/

/-- The descriptor at the head of a load queue of a class. -/
def State.loadRow (s : State) (q cls op : Nat) (own : State → Desc → Verdict) : State :=
  let x := s.queue q
  match x.inMod with
  | [] => s
  | h :: _ =>
    if x.live && decide (s.qClass q = cls) && decide (h.desc.opcode.toNat = op) && (preCheck cls h.credit h.desc).isNone && !s.ac23Reloading then
      s.runHead q none own
    else s

/-- The order of chunks (14 R385): the load after this chunk, and whether it is complete; else the byte that fails. -/
def takeChunk (l : Option Load) (lo hi : Nat) (d : Desc) : Except Nat (Load × Bool) :=
  let off := d.argLe 0 4
  let total := d.argLe 4 4
  let first := d.argByte 8 % 2 == 1
  let last := d.argByte 8 / 2 % 2 == 1
  let have_ : Load := if first then ⟨total, 0, []⟩ else l.getD ⟨total, 0, []⟩
  let n := have_.received + d.body.length
  if 3 < d.argByte 8 then .error 40
  else if total < lo ∨ hi < total ∨ total ≠ have_.total then .error 36
  else if off ≠ have_.received ∨ (first = false ∧ l.isNone = true) then .error 32
  else if total < n ∨ (last = true ∧ n ≠ total) ∨ (last = false ∧ n = total) then .error 40
  else .ok (⟨total, n, have_.bytes ++ d.body⟩, last)

/-- The DETAIL of an admission refusal (14 Table 14.4). -/
def admissionDetail (r : Nat × Nat × Int) : Nat := r.1 + 256 * r.2.1 + 65536 * (clampI (-32768) 32767 r.2.2 % 65536).toNat

/-- The plans that must admit a program, each over the profiles permitted now: this module's own, in the pair the partner's too (02 R51). -/
def State.admitting (s : State) : Plan × Option Plan :=
  let both := s.permittedNow
  ({ s.fabric.plan with permitted := both },
    if s.isJoined then s.twin.planPeer.map (fun p => { s.fabric.plan with permitted := both, ceiling := p.2.1, unitCost := p.2.2 }) else none)

/-- Checks 1 to 4 of R357: the first failing status, its detail and the bank's state; none: admitted. -/
def State.judgeImage (s : State) (b : List Byte) : Option (Nat × Nat × Nat) :=
  let g := parseImage b
  let base := Fld.cycCfg_BASE s.cfg
  let trigger := Fld.marginCfg_TRIGGER s.cfg
  let (own, peer) := s.admitting
  if !headerOk b s.life.blRunning then some (St.imageInvalid, 0, 6)
  else if !g.codeOk then some (St.imageInvalid, 0, 6)
  else match g.claims s.canRows with
    | some (x, y) => some (St.resourceClaimed, min x y + 65536 * max x y, 6)
    | none =>
      if !(layoutOk b && g.limitsOk base && g.io.all (ioOk g s.canRows s.mbRows)) then some (St.imageInvalid, 0, 6)
      else if !g.worstOk base then some (St.imageInvalid, 0, 6)
      else match g.refusal own trigger base with
        | some r => some (St.admissionRefused, admissionDetail r, 2)
        | none => match peer.bind (fun p => g.refusal p trigger base) with
          | some r => some (St.admissionRefused, admissionDetail r, 2)
          | none => none

def State.onIdleBank (s : State) (f : Bank → Bank) : State := s.onProg (fun p => { p with banks := modAt p.banks (1 - p.active) f })

/-- PROGRAM_LOAD_CHUNK (R357): into the idle bank; the last chunk is followed by the checks. Nothing is admitted while the core supply
still rises to what the plan asks for (02 R47): the queue waits for that. -/
def execProgramLoadChunk (q : Fin 32) (s : State) : Result :=
  .next (if s.fabric.vcore < s.fabric.vcoreTarget then s else s.loadRow q 6 0x81 (fun t d =>
    if t.nvmBarred then .refuse St.nvmBarred 0
    else if t.switchArmed then .refuse St.progState 0
    else match takeChunk t.idleBank.load 256 4194304 d with
      | .error b => .refuseAs St.fieldRange b (t.onIdleBank (fun k => { k with load := none, st := if k.st = 1 then 0 else k.st }))
      | .ok (l, false) => .accept 0 false [] ((t.onIdleBank (fun _ => ⟨1, none, some l⟩)).onProg (fun p => { p with rollback := false }))
      | .ok (l, true) =>
        let u := t.onProg (fun p => { p with rollback := false })
        match t.judgeImage l.bytes with
        | none => .accept 0 false [] (u.onIdleBank (fun _ => ⟨3, some (parseImage l.bytes), none⟩))
        | some (st, det, bank) => .refuseAs st det (u.onIdleBank (fun _ => ⟨bank, some (parseImage l.bytes), none⟩))))

end Sys2Proof.Machine
end

