-- ==== Sys2Proof/Machine/SafetyOps.lean ====
section
/-! DEFINITION. The safety functions (12): the two engines' sweep evaluation, dual-channel inputs and loops, output faults, contactors,
the reset, safety frames. SE-A works on primary, SE-B on secondary results. -/
namespace Sys2Proof.Machine

def State.onEngA (s : State) (f : SafetyEng → SafetyEng) : State := s.onSafety (fun x => { x with engA := f x.engA })
def State.onEngB (s : State) (f : SafetyEng → SafetyEng) : State := s.onSafety (fun x => { x with engB := f x.engB })

/-- Engines as EV_SAFE_STATE names them. -/
def engBits (a b : Bool) : Nat := bit a + 2 * bit b

/-! ### Results on each path (R296, R299, R300) -/

/-- The safety engines that run: bit 0 SE-A, bit 1 SE-B. -/
def State.engRun (s : State) : Nat := engBits s.safety.engA.running s.safety.engB.running

/-- A cell's result for one engine: µV, or the codes of R299: beyond both thresholds, beyond the upper one alone. -/
inductive CellRes where
  | none
  | aside
  | volt (uV : Int)
  | beyondBoth
  | beyondHigh
  deriving DecidableEq, Repr

def State.cellResA (s : State) (w : Sweep) (c : Nat) : CellRes :=
  if s.tapOpen c then .none
  else match w.prim1 (c / 16) with
    | none => .none
    | some p =>
      if s.aside c w.at_ && flagsOk p.status p.info then .aside
      else match p.cell (c % 16) with
        | none => .none
        | some v => if v = 8388607 then .beyondBoth else .volt v

def State.cellResB (s : State) (w : Sweep) (c : Nat) : CellRes :=
  if s.tapOpen c then .none
  else match (w.sec1 (c / 16)).bind (fun q => q.cell (c % 16)) with
    | none => .none
    | some v => if s.aside c w.at_ then .aside else if v = 4095 then .beyondHigh else .volt (1250 * v)

def CellRes.over (r : CellRes) (mV : Nat) : Bool := match r with
  | .volt v => decide ((1000 * mV : Nat) < v)
  | .beyondBoth | .beyondHigh => true
  | _ => false

def CellRes.under (r : CellRes) (mV : Nat) : Bool := match r with
  | .volt v => decide (v < (1000 * mV : Nat))
  | .beyondBoth => true
  | _ => false

/-- The result restarts the blind time (R306). -/
def CellRes.usable (r : CellRes) : Bool := match r with
  | .volt _ | .beyondBoth => true
  | _ => false

def CellRes.value (r : CellRes) : Int := match r with
  | .volt v => v
  | .beyondBoth => 8388607
  | .beyondHigh => 4095 * 1250
  | _ => 0

/-- String current of SE-A's path, mA: current station 0, or 1 while 0's result is not usable (Table 12.1). -/
def csUsable (p : Prim) : Bool := !(stLate p.status || stExpired p.status || stFault p.status || infoUnconf p.info)
def State.currentA (_s : State) (w : Sweep) : Option Int :=
  let one (k : Nat) : Option Int := (w.prim1 k).bind (fun p => if csUsable p then some p.i else none)
  match one 32 with
  | some i => some i
  | none => one 33

/-- Of SE-B's path: the fluxgate, or the secondary result of current station 0 where none is fitted, mA. -/
def State.currentB (s : State) (w : Sweep) : Option Int :=
  if s.fgFitted then w.fg
  else (w.sec1 32).bind (fun q => if flagsOk q.status q.info then some (10 * q.i) else none)

/-- The over-current threshold in A (R304). -/
def State.ocLimit (s : State) : Option Nat :=
  if Fld.safeOc_OC s.cfg ≠ 0 then some (Fld.safeOc_OC s.cfg)
  else ((List.range 2).filterMap (fun i => if s.mapped (32 + i) then s.safety.rated.getD i none else none)).foldl
    (fun m r => match m with | some a => some (min a r) | none => some r) none

/-! ### One engine's sweep (R297, R301 to R306, Table 12.2) -/

/-- What one function finds in a sweep: the condition holds for this object and value; or a result that is set aside keeps the
counter. -/
structure Found1 where
  hit  : Option (Nat × Int)
  keep : Bool

/-- A function over the used cells. -/
def State.overCells (s : State) (res : Nat → CellRes) (cond : CellRes → Bool) : Found1 :=
  let cells := List.range s.cellCount
  { hit := (cells.find? (fun c => cond (res c))).map (fun c => (c, (res c).value))
    keep := cells.any (fun c => match res c with | .aside => true | _ => false) }

/-- Thermistors that a function evaluates: those in a zone (R301). -/
def State.evaluated (s : State) : List (Nat × Nat) :=
  (List.range 256).filterMap (fun t => if s.mapped (t / 8) then (s.zoneOf t).bind (fun z => if z < 8 then some (t, z) else none) else none)

def State.overTherms (s : State) (temp : Nat → Option Int) (cond : Nat → Int → Bool) : Found1 :=
  { hit := (s.evaluated.find? (fun p => match temp p.1 with | some v => cond p.2 v | none => false)).map (fun p => (p.1, (temp p.1).getD 0))
    keep := false }

/-- The five confirmed functions of one engine: what each finds. -/
def State.findings (s : State) (res : Nat → CellRes) (temp : Nat → Option Int) (i : Option Int) : List Found1 :=
  let charging := match i with | some a => decide ((1000 * Fld.safeOc_ICHG s.cfg : Nat) < a) | none => false
  let cold := s.overTherms temp (fun z v => decide (v ≤ 100 * Fld.tzBand_CHG_LO s.cfg z))
  [s.overCells res (fun r => r.over (Fld.safeCell_OV s.cfg)),
   s.overCells res (fun r => r.under (Fld.safeCell_UV s.cfg)),
   s.overTherms temp (fun z v => decide (100 * Fld.tzHi_TRIP_HI s.cfg z < v)),
   if charging then cold else ⟨none, false⟩,
   ⟨match i, s.ocLimit with
     | some a, some l => if (1000 * l : Nat) < mag a then some (0, a) else none
     | _, _ => none, false⟩]

/-- Confirmation in sweeps of functions 1 to 5. -/
def State.confirmations (s : State) : List Nat :=
  [Fld.safeConf_N_OV s.cfg, Fld.safeConf_N_UV s.cfg, Fld.safeConf_N_OT s.cfg, Fld.safeConf_N_UT s.cfg, Fld.safeConf_N_OC s.cfg]

def nextCount (n : Nat) (f : Found1) : Nat := if f.hit.isSome then n + 1 else if f.keep then n else 0

/-- Objects that have been blind for longer than their blind time: cell, current, thermistor (object code and number). -/
def State.blindObject (s : State) (x : SafetyEng) (at_ : Nat) : Option (Nat × Nat) :=
  let b := 10000000 * Fld.safeConf_BLIND s.cfg
  match (List.range s.cellCount).find? (fun c => decide (x.cells.getD c 0 + b < at_)) with
  | some c => some (1, c)
  | none =>
    if x.current + b < at_ then some (3, 0)
    else (s.evaluated.find? (fun p => decide (x.therms.getD p.1 0 + 1000000000 * Fld.safeCfg_TH_BLIND s.cfg < at_))).map (fun p => (2, p.1))

/-- One engine after a sweep: its counters, its last usable instants, its demands of functions 1 to 6. -/
def State.engineSweep (s : State) (at_ : Nat) (res : Nat → CellRes) (temp : Nat → Option Int) (i : Option Int) (x : SafetyEng) : SafetyEng :=
  if !x.running then x
  else
    let f := s.findings res temp i
    let counters := mapIdxL (fun k n => nextCount n (f.getD k ⟨none, false⟩)) x.counters
    let y := { x with
      counters := counters
      cells := mapIdxL (fun c t => if c < s.cellCount && (res c).usable then at_ else t) x.cells
      current := if i.isSome then at_ else x.current
      therms := mapIdxL (fun t a => if (temp t).isSome then at_ else a) x.therms }
    let confirmed (k : Nat) : Bool := decide ((s.confirmations.getD k 1) ≤ counters.getD k 0)
    { y with demand := mapIdxL (fun f d => if 1 ≤ f ∧ f ≤ 5 then confirmed (f - 1) else if f = 6 then (s.blindObject y at_).isSome else d) y.demand }

/-- A function that is newly confirmed in one engine or both: the record of R320. -/
def riseBits (oa na ob nb : SafetyEng) (f : Nat) : Nat :=
  engBits (na.demand.getD f false && !oa.demand.getD f false) (nb.demand.getD f false && !ob.demand.getD f false)

/-- The safety sweep of both engines at a collection deadline, and the safe state for what is newly confirmed. -/
def State.safetySweep (s : State) (w : Sweep) : State :=
  let a := s.safety.engA
  let b := s.safety.engB
  let na := s.engineSweep w.at_ (s.cellResA w) w.thP (s.currentA w) a
  let nb := s.engineSweep w.at_ (s.cellResB w) w.thS (s.currentB w) b
  let fa := s.findings (s.cellResA w) w.thP (s.currentA w)
  let fb := s.findings (s.cellResB w) w.thS (s.currentB w)
  let t := (s.onEngA (fun _ => na)).onEngB (fun _ => nb)
  (List.range 6).foldl (fun u k =>
    let fn := k + 1
    let bits := riseBits a na b nb fn
    if bits = 0 then u
    else if fn = 6 then
      let o := ((if bits % 2 = 1 then s.blindObject na w.at_ else s.blindObject nb w.at_)).getD (0, 0)
      u.safeState ⟨6, bits, o.1, o.2, 0⟩
    else
      let h := (((if bits % 2 = 1 then fa else fb).getD k ⟨none, false⟩).hit).getD (0, 0)
      u.safeState ⟨fn, bits, if fn ≤ 2 then 1 else if fn ≤ 4 then 2 else 3, h.1, h.2⟩) t

/-! ### Dual-channel inputs and loops (R308 to R310, R312) -/

/-- One sample of both channels: `r1`, `r2` read demand. A channel is in demand once it has read demand in every sample across FILT
ms; a disagreement across DISC ms latches; the latch may clear once both channels have been in demand and then both at rest. -/
def DualIn.sample (d : DualIn) (filt disc : Nat) (r1 r2 : Bool) (now : Nat) : DualIn :=
  let run1 := if r1 then d.run1 + 1 else 0
  let run2 := if r2 then d.run2 + 1 else 0
  let d1 := decide (filt < run1)
  let d2 := decide (filt < run2)
  let n := if d1 != d2 then d.disc + 1 else 0
  let latchNow := decide (disc < n) && !(d.latched && !d.cleared)
  let seen1 := !latchNow && d.latched && (d.seen1 || d1)
  let seen2 := !latchNow && d.latched && (d.seen2 || d2)
  let rest := !d1 && !d2
  { run1 := run1, run2 := run2, raw1 := r1, raw2 := r2, d1 := d1, d2 := d2, disc := n
    latched := d.latched || latchNow, seen1 := seen1, seen2 := seen2
    cleared := !latchNow && (d.cleared || (d.latched && seen1 && seen2 && rest))
    leftAt := if r1 && r2 then (match d.leftAt with | some a => some a | none => some now)
      else if !r1 && !r2 && !d.raw1 && !d.raw2 then none else d.leftAt }

/-- Either channel in demand, or a latched discrepancy (R308, R309). -/
def DualIn.demands (d : DualIn) : Bool := d.d1 || d.d2 || (d.latched && !d.cleared)

/-- The function code that FUNC of a safety input serves (Table 12.4). -/
def siCode (func : Nat) : Option Nat := match func with
  | 1 => some 8
  | 2 => some 9
  | 3 => some 7
  | 4 => some 11
  | _ => none

def loopMode (b : RegBank) (l : Nat) : Nat := if l = 0 then Fld.loopCfg_MODE0 b else Fld.loopCfg_MODE1 b
def loopFilt (b : RegBank) (l : Nat) : Nat := if l = 0 then Fld.loopCfg_FILT0 b else Fld.loopCfg_FILT1 b
def loopDisc (b : RegBank) (l : Nat) : Nat := if l = 0 then Fld.loopCfg_DISC0 b else Fld.loopCfg_DISC1 b

/-- An engine's inputs after one sample. An unused input is not sampled. -/
def State.sampleEng (s : State) (x : SafetyEng) (p : SafetySample) : SafetyEng :=
  if !x.running then x
  else
    let c := s.cfg
    let si (n : Nat) (d : DualIn) : DualIn :=
      if Fld.siCfg_FUNC c n = 0 then DualIn.reset
      else d.sample (Fld.siCfg_FILT c n) (Fld.siCfg_DISC c n) (!p.si1.getLsbD n)
        (if Fld.siCfg_ANTI c n then p.si2.getLsbD n else !p.si2.getLsbD n) s.now
    let lp (l : Nat) (d : DualIn) : DualIn :=
      if loopMode c l = 0 then DualIn.reset else d.sample (loopFilt c l) (loopDisc c l) (!p.loop1.getLsbD l) (!p.loop2.getLsbD l) s.now
    { x with inputs := mapIdxL si x.inputs, loops := mapIdxL lp x.loops }

/-- A producer of function f demands (R327, R329). -/
def State.producerDemand (s : State) (f n : Nat) : Bool :=
  let x := s.safety.producers.getD n Producer.reset
  decide (Fld.sfPcfg_PORT s.cfg n ≠ 0 ∧ Fld.sfPcfg_FUNC s.cfg n = f) && !Fld.sfPcfg_ALARM s.cfg n && (x.demand || x.expired)

/-- An engine's demands of functions 7, 8, 9 and 11, from its inputs, its loops and the producers. -/
def State.inputDemands (s : State) (x : SafetyEng) : SafetyEng :=
  let c := s.cfg
  let has (f : Nat) : Bool :=
    (mapIdxL (fun n (d : DualIn) => decide (siCode (Fld.siCfg_FUNC c n) = some f) && !Fld.siCfg_ALARM c n && d.demands) x.inputs).any id
    || (mapIdxL (fun l (d : DualIn) => decide (loopMode c l = 1 ∧ (if l = 0 then 8 else 11) = f) && d.demands) x.loops).any id
    || (List.range 8).any (s.producerDemand f)
  if x.running then { x with demand := mapIdxL (fun f d => if f = 7 ∨ f = 8 ∨ f = 9 ∨ f = 11 then has f else d) x.demand } else x

def State.refreshDemands (s : State) : State := (s.onEngA s.inputDemands).onEngB s.inputDemands

/-- An input or a loop that newly demands in one engine or both: the safe state, or an alarm alone; a new latch is recorded. -/
def State.inputEvents (s : State) (object n : Nat) (code : Option Nat) (alarm : Bool) (oa na ob nb : DualIn) : State :=
  let disc := engBits (na.latched && !na.cleared && !(oa.latched && !oa.cleared)) (nb.latched && !nb.cleared && !(ob.latched && !ob.cleared))
  let t := if disc = 0 then s else s.raise Ev.siDiscrepancy [disc, object, n]
  let rise := engBits (na.demands && !oa.demands) (nb.demands && !ob.demands)
  match code with
  | none => t
  | some f => if rise = 0 then t
    else if alarm then t.raise Ev.safetyAlarm [f, rise, object, n] else t.safeState ⟨f, rise, object, n, 0⟩

/-- The engines' inputs at a tick. -/
def State.tickInputs (s : State) (a b : SafetySample) : State :=
  let oa := s.safety.engA
  let ob := s.safety.engB
  let na := s.sampleEng oa a
  let nb := s.sampleEng ob b
  let t := ((s.onEngA (fun _ => na)).onEngB (fun _ => nb)).refreshDemands
  let t := (List.range 16).foldl (fun u n =>
    u.inputEvents 4 n (siCode (Fld.siCfg_FUNC s.cfg n)) (Fld.siCfg_ALARM s.cfg n) (oa.inputs.getD n DualIn.reset) (na.inputs.getD n DualIn.reset)
      (ob.inputs.getD n DualIn.reset) (nb.inputs.getD n DualIn.reset)) t
  (List.range 2).foldl (fun u l =>
    u.inputEvents 5 l (if loopMode s.cfg l = 0 then none else some (if l = 0 then 8 else 11)) (decide (loopMode s.cfg l = 2))
      (oa.loops.getD l DualIn.reset) (na.loops.getD l DualIn.reset) (ob.loops.getD l DualIn.reset) (nb.loops.getD l DualIn.reset)) t

/-! ### Safety outputs (R314 to R319) -/

def Safety.out (x : Safety) (o : Nat) : SafeOut := x.outs.getD o SafeOut.reset

/-- Both switches of an output are commanded; an output with a fault stays off. -/
def State.setOut (s : State) (o : Nat) (on : Bool) : State :=
  s.onSafety (fun x => { x with outs := modAt x.outs o (fun w =>
    let v := on && decide (w.fault = .none)
    if w.hi = v ∧ w.lo = v then w else { w with hi := v, lo := v, testing := none, cmdAt := s.now }) })

/-- A fault of an output switch (R317): the output goes off through the other switch, function 12 demands; in the pair the twin
withdraws. `low` is the low-side switch, SE-B's. -/
def State.outFault (s : State) (o : Nat) (low : Bool) (f : SoFault) : State :=
  let e := if low then 2 else 1
  let t := (s.setOut o false).onSafety (fun x => { x with outs := modAt x.outs o (fun w => { w with fault := f }) })
  let t := t.raise (match f with | .stuck => Ev.soStuck | _ => Ev.soFailed) [e, o, bit low]
  let u := if low then t.onEngB (fun x => { x with demand := x.demand.set 12 true }) else t.onEngA (fun x => { x with demand := x.demand.set 12 true })
  u.selfDiagnosis 7 (fun v => (v.onSafety (fun x => { x with needStart := true })).safeState ⟨12, e, 7, o, 0⟩)

/-- The readbacks of a tick, and the faults they show 5 ms after a command. -/
def State.tickOuts (s : State) (on : BitVec 8) : State :=
  let t := s.onSafety (fun x => { x with outs := mapIdxL (fun o (w : SafeOut) => { w with
    hiRead := on.getLsbD (2 * o), loRead := on.getLsbD (2 * o + 1) }) x.outs })
  (List.range 4).foldl (fun u o =>
    let w := u.safety.out o
    if w.fault ≠ .none ∨ s.now < w.cmdAt + 5000000 ∨ w.testing.isSome = true ∨ !(s.safety.engA.running && s.safety.engB.running) then u
    else if w.hi && !w.hiRead then u.outFault o false .failed
    else if w.lo && !w.loRead then u.outFault o true .failed
    else if !w.hi && w.hiRead then u.outFault o false .stuck
    else if !w.lo && w.loRead then u.outFault o true .stuck
    else u) t

/-- A contactor's feedback input: the first input of function 6 is the main contactor's, the second the precharge contactor's
(R319). -/
def State.feedbackInput (s : State) (pre : Bool) : Option Nat :=
  ((List.range 16).filter (fun n => decide (Fld.siCfg_FUNC s.cfg n = 6)))[bit pre]?

/-- It shows the contactor closed, or open: both channels off rest, or both at rest. -/
def State.feedback (s : State) (pre closed : Bool) : Bool := match s.feedbackInput pre with
  | none => false
  | some n => let d := s.safety.engA.inputs.getD n DualIn.reset
    if closed then d.d1 && d.d2 else !d.d1 && !d.d2

/-- Contactor outputs that are energised. -/
def State.contactorOn (s : State) : Bool :=
  [s.mainOut, s.prechargeOut].any (fun o => match o with
    | some n => (s.safety.out n).hi && (s.safety.out n).lo
    | none => false)

def State.openContactors (s : State) : State :=
  let off (t : State) (o : Option Nat) : State := match o with | some n => t.setOut n false | none => t
  (off (off s s.mainOut) s.prechargeOut).onSafety (fun x => { x with contactor := .open_ })

/-- The tick's part of outputs: permissive outputs follow their rule, an opening waits for the stage, the loops are under command,
feedback and coil supply are taken, demands of function 12 end with their causes. -/
def State.tickState (s : State) (coil : Nat) : State :=
  let perm := s.inService && !s.safety.safe && !s.twin.txOff
  let t := (List.range 4).foldl (fun u o => if soFunc s.cfg o = 3 then u.setOut o perm else if soFunc s.cfg o = 0 then u.setOut o false else u) s
  let t := match s.safety.contactor, s.gate.stage with
    | .opening, .off | .opening, .armed | .opening, .tripped => t.openContactors
    | _, _ => t
  let close (l : Nat) : Bool := !s.safety.safe && decide (loopMode s.cfg l ≠ 0) && !(s.isPair && s.twin.txOff && !s.twin.bridging)
  let t := t.onSafety (fun x => { x with
    loopSw1 := if x.engA.running then [close 0, close 1] else [false, false]
    loopSw2 := if x.engB.running then [close 0, close 1] else [false, false]
    coil := coil, fbMain := s.feedback false true, fbPre := s.feedback true true
    weld := x.weld && !(s.feedback false false && (s.feedbackInput true).isNone || s.feedback false false && s.feedback true false) })
  if decide (coil < 1600) || t.safety.outs.any (fun o => decide (o.fault ≠ SoFault.none)) || decide (t.safety.contactor = Contactor.closed) && !t.safety.fbMain && (s.feedbackInput false).isSome then t
  else (t.onEngA (fun x => { x with demand := x.demand.set 12 false })).onEngB (fun x => { x with demand := x.demand.set 12 false })

/-! ### The contactor command (R315) -/

/-- A close command is refused. -/
def State.closeRefused (s : State) : Bool :=
  s.life.guard_ || s.safety.safe || s.safety.engA.demand.any id || s.safety.engB.demand.any id || !s.safety.coilOk || s.contactorOn

/-- The command's effect at its cycle boundary. -/
def State.applyContactor (s : State) (op : Nat) : State :=
  if op = 1 then
    if s.closeRefused then s
    else match s.prechargeOut, s.mainOut with
      | some p, some _ => (s.setOut p true).onSafety (fun x => { x with contactor := .precharge s.now })
      | none, some m => (s.setOut m true).onSafety (fun x => { x with contactor := .closed })
      | _, none => s
  else match s.gate.stage with
    | .off | .armed | .tripped => s.openContactors
    | _ => s.stageDisable.onSafety (fun x => { x with contactor := .opening })

/-! ### The reset (R322) -/

/-- A reset is judged: accepted, it takes effect at the next cycle boundary. Source 0 reset input, 1 host. -/
def State.resetAccepted (s : State) (source : Nat) : Except Nat State := match s.resetBlock with
  | some n => .error n
  | none => .ok (s.onSafety (fun x => { x with resetDue := some source }))

/-- A latched discrepancy that has cleared ends with a reset (R310). -/
def DualIn.unlatch (d : DualIn) : DualIn :=
  if d.latched && d.cleared then { d with latched := false, cleared := false, seen1 := false, seen2 := false } else d

/-- The reset takes effect at the cycle boundary: the safe state and the cleared latches end; nothing is energised. -/
def State.applyReset (s : State) : State := match s.safety.resetDue with
  | none => s
  | some src =>
    let t := s.onSafety (fun x => { x with resetDue := none })
    if s.resetBlock.isSome then t
    else
      let eng (x : SafetyEng) : SafetyEng := { x with inputs := x.inputs.map DualIn.unlatch, loops := x.loops.map DualIn.unlatch }
      (t.onSafety (fun x => { x with safe := false, engA := eng x.engA, engB := eng x.engB })).raise Ev.safeReset [src]

/-! ### Safety frames (R325 to R329) -/

/-- A frame from its bytes; none: too short, a reserved length, or CHECK fails with the identity it carries as the seed. -/
def parsePdu (b : List Byte) : Option SafetyPdu :=
  let lenw := byteAt b 0 / 16 % 8
  let n := 16 + 4 * lenw
  if 4 < lenw ∨ b.length < n + 4 ∨ leAt b n 4 ≠ crcSeeded (leAt b 12 4) (b.take n) ∨ !eventValid (leAt b 4 8) then none
  else some { type := byteAt b 0 % 16, lenw := lenw
              resv := decide (byteAt b 0 / 128 ≠ 0 ∨ byteAt b 1 / 64 ≠ 0 ∨ (2 ≤ lenw ∧ leAt b 20 4 / 4096 ≠ 0))
              epoch := BitVec.ofNat 4 (byteAt b 1), solo := byteAt b 1 / 16 % 2 == 1, safe := byteAt b 1 / 32 % 2 == 1
              seq := BitVec.ofNat 16 (leAt b 2 2), time := leAt b 4 8, ident := BitVec.ofNat 32 (leAt b 12 4)
              data := (List.range lenw).map (fun i => BitVec.ofNat 32 (leAt b (16 + 4 * i) 4)) }

/-- The junior's identity of a pair named by its senior (R327). -/
def juniorOf (id : Word) : Word := BitVec.ofNat 32 ((id.toNat / 4 + 1) * 4 + 2)

/-- Receipt event time minus TIME, ns. -/
def State.frameDiff (s : State) (p : SafetyPdu) : Int := (s.sysNs : Int) - nsOfEvent p.time

/-- The outcome of checks 3 to 5 of R327 for one producer. -/
inductive PduVerdict where
  | discard
  /-- a duplicate whose data differ -/
  | differs
  /-- accepted; the offset is learnt afresh, from a new epoch -/
  | accept (learn epoch : Bool)

/-- Checks 3 to 5: newer, timely, and in the solo case eligible. -/
def State.judgePdu (s : State) (x : Producer) (wdog : Nat) (junior : Bool) (p : SafetyPdu) : PduVerdict :=
  let newer : Bool := match x.lastSeq with
    | none => true
    | some l => decide (1 ≤ (p.seq - l).toNat ∧ (p.seq - l).toNat ≤ 32767)
  let learn := x.lastSeq.isNone
  let stepped := !learn && decide (p.epoch = x.epoch + 1)
  let d := s.frameDiff p - x.offset
  let timely := learn || stepped || (decide (p.epoch = x.epoch) && decide (-1000000 ≤ d ∧ d ≤ (1000000 * wdog : Nat)))
  let eligible := !junior || !p.solo || decide (x.seniorAt + 5000000 * Fld.safeCfg_RX_TIMEOUT s.cfg ≤ s.now)
  if !newer then (if x.lastSeq = some p.seq ∧ x.lastData ≠ p.data then .differs else .discard)
  else if !timely || !eligible then .discard
  else .accept learn stepped

/-- The offset moves towards the frame's difference by at most 500 ppm of the time since the last accepted frame (R328). -/
def Producer.track (x : Producer) (diff : Int) (now : Nat) (learn : Bool) : Int :=
  if learn then diff else x.offset + clampI (-((now - x.lastAt) / 2000 : Nat)) ((now - x.lastAt) / 2000 : Nat) (diff - x.offset)

/-- A producer's record after an accepted frame; its bit of data word 0. -/
def Producer.accept (x : Producer) (p : SafetyPdu) (diff : Int) (now : Nat) (learn : Bool) (bitNo : Nat) : Producer :=
  let run := if x.expired then x.okRun + 1 else 0
  { x with
    lastSeq := some p.seq, lastData := p.data, offset := x.track diff now learn, epoch := p.epoch, lastAt := now
    expired := x.expired && decide (run < 3), okRun := run
    demand := match p.data with | w :: _ => w.getLsbD bitNo | [] => false }

/-- A frame taken for producer n (R327, both engines). -/
def State.takePdu (s : State) (n : Nat) (p : SafetyPdu) : State :=
  let c := s.cfg
  let id : Word := BitVec.ofNat 32 (Fld.sfId_IDENT c n)
  let junior := Fld.sfPcfg_PAIRED c n && decide (p.ident = juniorOf id)
  if !(decide (p.ident = id) || junior) || decide (p.type ≠ 1) || p.resv then s
  else
    let x := s.safety.producers.getD n Producer.reset
    let v := s.judgePdu x (Fld.sfPcfg_WDOG c n) junior p
    let put (t : State) (y : Producer) : State := t.onSafety (fun z => { z with producers := z.producers.set n y })
    let seen (y : Producer) : Producer := if junior then y else { y with seniorAt := s.now }
    match v with
    | .discard => put s (seen x)
    | .differs => (put s (seen x)).raise Ev.sfDiff [n]
    | .accept learn stepped =>
      let y := seen (x.accept p (s.frameDiff p) s.now (learn || stepped) (Fld.sfPcfg_BIT c n))
      let t := (put s y).refreshDemands
      let t := if stepped then t.raise Ev.sfEpoch [n, p.epoch.toNat] else t
      if y.demand && !x.demand then
        (if Fld.sfPcfg_ALARM c n then t.raise Ev.safetyAlarm [Fld.sfPcfg_FUNC c n, s.engRun, 6, n]
         else t.safeState ⟨Fld.sfPcfg_FUNC c n, s.engRun, 6, n, 0⟩)
      else t

/-- The engines of this twin that demand a function: bit 0 SE-A, bit 1 SE-B. -/
def State.demanding (s : State) (f : Nat) : Nat := engBits (s.safety.engA.demand.getD f false) (s.safety.engB.demand.getD f false)

/-- The partner has entered the safe state: a demand of function 10 (R324). A trip that neither engine here confirmed is recorded, and for
functions 1 to 6 this twin withdraws while joined (16 R438). -/
def State.partnerTrip (s : State) (fn : Nat) : State :=
  let mine := s.demanding fn
  let t := if mine = 0 then s.raise Ev.twinSafetyDiff [fn, mine] else s
  let u := t.safeState ⟨10, s.engRun, 0, 0, 0⟩
  if mine = 0 ∧ 1 ≤ fn ∧ fn ≤ 6 ∧ s.isJoined then u.withdraw 6 false else u

/-- A safety frame of the partner, from the pair links, EP0 and EP1 or SF_CAN (R324, 16 R435). The watchdog that its timeliness is judged
by is the reset value of a producer's: the spec sets none for the partner. -/
def State.takePartner (s : State) (p : SafetyPdu) : State :=
  if !s.isPair || decide (p.ident ≠ s.partnerIdent ∨ p.type ≠ 1) || p.resv then s
  else
    let x := s.safety.partner
    match s.judgePdu x (Fld.sfPcfg_WDOG [] 0) false p with
    | .discard => s
    | .differs => s.raise Ev.sfDiff [8]
    | .accept learn stepped =>
      let y := { x.accept p (s.frameDiff p) s.now (learn || stepped) 0 with demand := p.safe }
      let t := s.onSafety (fun z => { z with partner := y })
      let u := if stepped then t.raise Ev.sfEpoch [8, p.epoch.toNat] else t
      if p.safe && (!x.demand || !s.safety.safe) then
        u.partnerTrip (match p.data with | _ :: w :: _ => w.toNat / 256 % 16 | _ => 0) else u

/-- A frame's bytes arrive on a port: 1 EP0 and EP1, 2 CAN FD port SF_CAN, 3 another, which no producer has. -/
def State.takeFrame (s : State) (port : Nat) (b : List Byte) : State := match parsePdu b with
  | none => s
  | some p => ((List.range 8).foldl (fun u n => if Fld.sfPcfg_PORT u.cfg n = port then u.takePdu n p else u) s).takePartner p

end Sys2Proof.Machine
end

