-- ==== Sys2Proof/Machine/CommitOps.lean ====
section
/-! DEFINITION. The checks of a commit (19 R480): each staged register in ascending offset, a rule that spans several registers at the
highest offset among them, then the staged blocks. -/
namespace Sys2Proof.Machine

/-- The first failure of a commit: its status, OFFSET and DETAIL (19 Table 19.8). -/
structure Fail where
  status : Nat
  offset : Nat
  detail : Nat
  deriving DecidableEq, Repr

/-- A commit as it is judged: the module at the boundary, the registers as they would stand, the offsets the commit changes, and its
blocks. -/
structure Judged where
  m      : State
  n      : RegBank
  off    : List Nat
  blocks : List (Nat × List Byte)

/-- The commit changes one of these registers. -/
def Judged.touches (j : Judged) (l : List Nat) : Bool := l.any (fun o => j.off.contains o)

/-- A field out of range, or a rule broken by a field: the register that holds it and its lowest bit. -/
def rangeFail (off lo : Nat) : Option Fail := some ⟨St.fieldRange, off, lo⟩

/-- The first failure of a list, each made only where those before it pass. -/
def firstFail : List (Bool × Option Fail) → Option Fail
  | [] => none
  | (bad, f) :: l => if bad then f else firstFail l

/-- The stage is OFF or ARMED. -/
def State.stageIdle (s : State) : Bool := match s.gate.stage with | .off | .armed => true | _ => false

/-! ### A register's own fields -/

def FieldRow.bad (f : FieldRow) (b : RegBank) (off : Nat) : Bool :=
  let v := if f.signed then b.sfld off f.hi f.lo else ((b.fld off f.hi f.lo : Nat) : Int)
  decide (v < f.min ∨ f.max < v)

/-- The first field of the register outside its table's range (R181, R281, R413). -/
def Judged.fields (j : Judged) (off : Nat) : Option Fail :=
  match fieldRows.find? (fun f => decide (f.base ≤ off ∧ off < f.base + 4 * f.count) && f.bad j.n off) with
  | some f => rangeFail off f.lo
  | none => none

/-! ### Profile (02 R53, R54), time (03 Table 3.8) -/

/-- PROFILE_CTL (R53, R54). DEDUCED: a commit that leaves SELECT as it is selects no profile and is not refused for one
(log 25). -/
def Judged.profile (j : Judged) : Option Fail :=
  let p := Fld.profileCtl_SELECT j.n
  let x := j.m.fabric.plan.predicted.getD p ⟨0, 0⟩
  let sweep := Fld.profileCtl_SWEEP j.n
  firstFail [
    (decide (p ≠ Fld.profileCtl_SELECT j.m.cfg) && !j.m.permits p,
      some ⟨St.admissionRefused, Reg.profileCtl, admissionDetail (x.engine, p, x.slack)⟩),
    (decide (sweep ≠ 0 ∧ sweepOf p sweep < ownSweep p), some ⟨St.profileConflict, Reg.profileCtl, 0⟩)]

def Judged.ptp (j : Judged) : Option Fail :=
  firstFail [(j.n.fld Reg.ptpCfg 2 2 == 1 && j.n.fld Reg.ptpCfg 1 0 == 2, rangeFail Reg.ptpCfg 2)]

/-! ### The station map (01 R25, R26, 04 R115, R503) -/

/-- Byte p of a ring's two map registers, 0 to 7. -/
def entryAt (b : RegBank) (r p : Nat) : Nat := b.fld (Reg.ringMap + 4 * (2 * r + p / 4)) (8 * (p % 4) + 7) (8 * (p % 4))

/-- The entries in order of ring, then position. -/
def entriesOf (b : RegBank) : List (Nat × Nat × Nat) :=
  (List.range 8).flatMap (fun r => (List.range 8).map (fun p => (r, p, entryAt b r p)))

/-- An entry that is wrong by itself, or follows an empty position, or repeats a station. -/
def entryBad (b : RegBank) (before : List Nat) (x : Nat × Nat × Nat) : Bool :=
  let e := x.2.2
  if e = 0 then false
  else decide (e < 128 ∨ e / 32 % 2 = 1 ∨ 6 ≤ x.2.1 ∨ (e / 64 % 2 = 1 ∧ 1 < e % 32))
    || (decide (0 < x.2.1) && decide (entryAt b x.1 (x.2.1 - 1) = 0)) || before.contains e

def badEntry (b : RegBank) (before : List Nat) : List (Nat × Nat × Nat) → Option (Nat × Nat)
  | [] => none
  | x :: l => if entryBad b before x then some (x.1, x.2.1) else badEntry b (if x.2.2 = 0 then before else x.2.2 :: before) l

/-- The field of a map entry. -/
def entryFail (r p : Nat) : Option Fail := some ⟨St.mapInvalid, Reg.ringMap + 4 * (2 * r + p / 4), 8 * (p % 4)⟩

/-- Cell stations of a register bank's map. -/
def cellsIn (b : RegBank) : Nat := ((entriesOf b).filter (fun x => decide (x.2.2 / 64 = 2))).length

/-- A map judged as a whole: each station number once and without gaps, one or two current stations, the string's cell count. -/
def Judged.map (j : Judged) : Option Fail :=
  let es := entriesOf j.n
  let cells := cellsIn j.n
  let curs := (es.filter (fun x => decide (x.2.2 / 64 = 3))).length
  let n := Fld.ringCells_CELLS j.n
  let cellsBad : Option Fail := some ⟨St.mapInvalid, Reg.ringCells, 0⟩
  if !mapCommitted j.n then (if n = 0 then none else cellsBad)
  else match badEntry j.n [] es with
    | some (r, p) => entryFail r p
    | none =>
      match es.find? (fun x => decide ((x.2.2 / 64 = 2 ∧ cells ≤ x.2.2 % 32) ∨ (x.2.2 / 64 = 3 ∧ curs ≤ x.2.2 % 32))) with
      | some x => entryFail x.1 x.2.1
      | none => firstFail [
          (decide (cells = 0 ∨ curs = 0), some ⟨St.mapInvalid, Reg.ringMap, 0⟩),
          (decide (n ≠ 0 ∧ (n < 16 ∨ 512 < n ∨ (n + 15) / 16 ≠ cells)), cellsBad)]

/-! ### Gate links (08 R229), banks (09 R245), diagnostics (09 R255, 10 R280, 06 R169) -/

def Judged.fsw (j : Judged) : Option Fail :=
  let p := Fld.profileCtl_SELECT j.n
  let judged := j.off.contains Reg.glCfg || decide (p ≠ Fld.profileCtl_SELECT j.m.cfg)
  firstFail [(judged && decide (fswLimit p < 4 * Fld.glCfg_FSW j.n), some ⟨St.profileConflict, Reg.glCfg, 0⟩)]

/-- A change that the stage must be OFF or ARMED for. -/
def Judged.running (j : Judged) (off : Nat) : Option Fail :=
  firstFail [(j.off.contains off && !j.m.stageIdle, some ⟨St.stageRunning, off, 0⟩)]

def Judged.bank (j : Judged) (off : Nat) (active : Bool) : Option Fail :=
  firstFail [(j.off.contains off && active, some ⟨St.bankActive, off, 0⟩)]

def Judged.diagCfg (j : Judged) (e : Nat) : Option Fail :=
  let o := Reg.diagCfg + 4 * e
  firstFail [
    (j.off.contains o && decide (e = 3 ∧ Fld.diagCfg_USE j.n 3 = 2), rangeFail o 0),
    (j.off.contains o && decide (2 ≤ e ∧ Fld.diagCfg_PHASE j.n e ≠ 0), rangeFail o 12),
    (decide (e = 2) && j.touches [Reg.impCfg, o] && Fld.impCfg_ENABLE j.n && decide (Fld.diagCfg_USE j.n 2 ≠ 0),
      some ⟨St.resourceClaimed, o, 0x8200 + 0x8302 * 65536⟩)]

/-- Injection: no trigger, and signal 13 among those captured. -/
def Judged.diagSig (j : Judged) (e : Nat) : Option Fail :=
  let c := Reg.diagCfg + 4 * e
  let o := Reg.diagSig + 4 * e
  let inj := j.touches [c, o] && decide (Fld.diagCfg_USE j.n e = 2)
  firstFail [
    (inj && decide (Fld.diagCfg_TRIG j.n e ≠ 0), rangeFail c 6),
    (inj && !((List.range 8).any (fun k => decide (j.n.fld o (4 * k + 3) (4 * k) = 13))), rangeFail o 0)]

/-- Half the rate of an engine's cycle, Hz. -/
def Judged.nyquist (j : Judged) (e : Nat) : Nat :=
  if e < 2 then 2000 * Fld.glCfg_FSW j.n else 500000 / sweepOf (Fld.profileCtl_SELECT j.n) (Fld.profileCtl_SWEEP j.n)

/-- Frequency code c, 0.1 Hz × 2^(c/4), lies above the Nyquist frequency after decimation. -/
def tooFast (c decim half : Nat) : Bool := decide ((10 * half) ^ 4 < 2 ^ (c + 4 * decim))

def Judged.diagInj (j : Judged) (e : Nat) : Option Fail :=
  let c := Reg.diagCfg + 4 * e
  let o := Reg.diagInj + 4 * e
  let node := Fld.diagInj_NODE j.n e
  let rate := j.touches [c, o] && decide (e < 3)
  let fast (code : Nat) : Bool := tooFast code (Fld.diagCfg_DECIM j.n e) (j.nyquist e)
  firstFail [
    (j.off.contains o && decide ((e = 0 ∧ 2 < node) ∨ ((e = 1 ∨ e = 2) ∧ 1 < node)), rangeFail o 2),
    (j.off.contains o && decide (Fld.diagInj_F_HI j.n e ≤ Fld.diagInj_F_LO j.n e), rangeFail o 17),
    (rate && fast (Fld.diagInj_F_LO j.n e), rangeFail o 11),
    (rate && fast (Fld.diagInj_F_HI j.n e), rangeFail o 17)]

/-! ### Thermal zones (10 R281) and cooling (R273) -/

def Judged.zoneLo (j : Judged) (z : Nat) : Option Fail :=
  let o := Reg.tzLo + 4 * z
  firstFail [(j.off.contains o && decide (Fld.tzLo_WARN_LO j.n z ≤ Fld.tzLo_TRIP_LO j.n z), rangeFail o 16)]

/-- Each line of R281 is one relation, judged at the highest offset of the registers it names (R480, DEDUCED). -/
def Judged.zoneBand (j : Judged) (z : Nat) : Option Fail :=
  let b := j.n
  let hi := Reg.tzHi + 4 * z
  let lo := Reg.tzLo + 4 * z
  let o := Reg.tzBand + 4 * z
  let all := j.touches [hi, lo, o]
  let top := j.touches [hi, o]
  firstFail [
    (top && decide (Fld.tzHi_TRIP_HI b z ≤ Fld.tzHi_WARN_HI b z), rangeFail hi 0),
    (top && decide (Fld.tzHi_TRIP_HI b z ≤ Fld.tzHi_THR_HI b z), rangeFail hi 8),
    (top && decide (Fld.tzHi_TRIP_HI b z < Fld.tzBand_CHG_HI b z), rangeFail o 8),
    (top && decide (Fld.tzHi_TRIP_HI b z < Fld.tzBand_DIS_HI b z), rangeFail o 24),
    (all && decide (Fld.tzBand_DIS_LO b z < Fld.tzLo_TRIP_LO b z), rangeFail lo 16),
    (all && decide (Fld.tzBand_CHG_LO b z < Fld.tzBand_DIS_LO b z), rangeFail o 16),
    (all && decide (Fld.tzLo_THR_LO b z ≤ Fld.tzBand_CHG_LO b z), rangeFail o 0),
    (j.off.contains o && decide (Fld.tzBand_CHG_HI b z ≤ Fld.tzBand_CHG_LO b z), rangeFail o 0),
    (j.off.contains o && decide (Fld.tzBand_DIS_HI b z ≤ Fld.tzBand_DIS_LO b z), rangeFail o 16)]

/-- The site configuration block as it would stand. -/
def Judged.site (j : Judged) : Option (List Byte) := match j.blocks.find? (fun b => decide (b.1 = 3)) with
  | some b => some b.2
  | none => if j.m.life.guard_ then none else j.m.siteBlock

/-- A transmit object that cooling output n owns in the module's scope. -/
def Judged.coolPeer (j : Judged) (n : Nat) : Bool := match j.site with
  | some b => (canRowsIn b j.m.chain.addr).any (fun r => decide (r.dir = 2 ∧ r.owner = n + 1))
  | none => false

def Judged.cool (j : Judged) (n : Nat) : Option Fail :=
  let o := Reg.coolCfg + 4 * n
  firstFail [(j.off.contains o && Fld.coolCfg_DEST j.n n && !j.coolPeer n, some ⟨St.mapInvalid, o, 0⟩)]

def Judged.coolSet (j : Judged) (n : Nat) : Option Fail :=
  let o := Reg.coolSet + 4 * n
  firstFail [(j.off.contains o && decide (Fld.coolSet_T_HIGH j.n n ≤ Fld.coolSet_T_LOW j.n n), rangeFail o 0)]

/-! ### Dispatch (11 R289, R294) -/

def Judged.limits (j : Judged) : Option Fail :=
  let i := Fld.dispRate_I_RATED j.n
  let t := j.touches [Reg.dispRate, Reg.dispLim]
  firstFail [
    (t && decide (i < Fld.dispLim_I_CHG j.n), rangeFail Reg.dispLim 0),
    (t && decide (i < Fld.dispLim_I_DIS j.n), rangeFail Reg.dispLim 11)]

def Judged.env (j : Judged) : Option Fail :=
  let t := j.off.contains Reg.envCfg
  firstFail [
    (t && decide (Fld.envCfg_V_MAX_OP j.n ≤ Fld.envCfg_V_MIN_OP j.n), rangeFail Reg.envCfg 8),
    (t && decide (Fld.envCfg_SOC_MAX j.n ≤ Fld.envCfg_SOC_MIN j.n), rangeFail Reg.envCfg 23)]

/-! ### Safety registers (12 R302, R305, R311, R331) -/

/-- The 38 safety registers, in the order R331 lists them. -/
def safetyRegs : List Nat :=
  (List.range 22).map (fun i => Reg.safeCell + 4 * i) ++ (List.range 16).map (fun i => Reg.sfId + 4 * i)

/-- SAFE_SIG over their values: each as four little-endian bytes. -/
def safeSigOf (b : RegBank) : Nat := crc32c (safetyRegs.flatMap (fun o => toLe (b.get o).toNat 4))

/-- The first two cases of R331, ahead of every field of the safety registers. -/
def Judged.safetyGate (j : Judged) : Option Fail := match safetyRegs.find? (fun o => j.off.contains o) with
  | none => none
  | some low => firstFail [
      (j.m.contactorOn, some ⟨St.safetyLive, low, 0⟩),
      (decide (safeSigOf j.n ≠ Fld.safeSig_SIG j.n), some ⟨St.safetyCheck, Reg.safeSig, 0⟩)]

/-- Operating and protection voltages, mV: V_MAX_OP and V_MIN_OP count 10 mV above 2 V. -/
def Judged.safeCell (j : Judged) : Option Fail :=
  let ov := Fld.safeCell_OV j.n
  let uv := Fld.safeCell_UV j.n
  let t := j.touches [Reg.envCfg, Reg.safeCell]
  firstFail [
    (j.off.contains Reg.safeCell && decide (ov < uv + 100), rangeFail Reg.safeCell 13),
    (t && decide (ov ≤ 2000 + 10 * Fld.envCfg_V_MAX_OP j.n), rangeFail Reg.safeCell 0),
    (t && decide (2000 + 10 * Fld.envCfg_V_MIN_OP j.n ≤ uv), rangeFail Reg.safeCell 13)]

/-- The over-current threshold as it would stand (R304). -/
def Judged.ocLimit (j : Judged) : Option Nat := { j.m with setup := { j.m.setup with active := j.n } }.ocLimit

def Judged.safeOc (j : Judged) : Option Fail :=
  let f := Fld.safeOc_FAST j.n
  let low : Bool := match j.ocLimit with | some l => decide (f ≠ 0 ∧ f < l) | none => false
  firstFail [(j.off.contains Reg.safeOc && low, rangeFail Reg.safeOc 11)]

def Judged.si (j : Judged) (n : Nat) : Option Fail :=
  let o := Reg.siCfg + 4 * n
  firstFail [(j.off.contains o && decide (Fld.siCfg_FUNC j.n n = 1) && Fld.siCfg_ALARM j.n n, rangeFail o 19)]

/-- The first output that repeats a contactor function of one below it; then a precharge output without a main one. -/
def Judged.so (j : Judged) : Option Fail :=
  let f := soFunc j.n
  let twice (o : Nat) : Bool := decide (f o = 1 ∨ f o = 2) && (List.range o).any (fun p => decide (f p = f o))
  let pre := (List.range 4).find? (fun o => decide (f o = 2))
  if !j.off.contains Reg.soCfg then none
  else match (List.range 4).find? twice, pre with
    | some o, _ => rangeFail Reg.soCfg (8 * o)
    | none, some o => if (List.range 4).any (fun p => decide (f p = 1)) then none else rangeFail Reg.soCfg (8 * o)
    | none, none => none

def Judged.sf (j : Judged) (n : Nat) : Option Fail :=
  let i := Reg.sfId + 4 * n
  let o := Reg.sfPcfg + 4 * n
  let used := j.touches [i, o] && decide (Fld.sfPcfg_PORT j.n n ≠ 0)
  let fn := Fld.sfPcfg_FUNC j.n n
  firstFail [
    (used && decide (Fld.sfId_IDENT j.n n = 0), rangeFail i 0),
    (used && decide (fn ≠ 7 ∧ fn ≠ 9 ∧ fn ≠ 11), rangeFail o 18)]

/-! ### Cyclic programs (13 R369) -/

/-- The first engine whose period at a base would be above 100 ms, as an admission failure in the first permitted profile. -/
def Gelfoel.tooLong (g : Gelfoel) (p : Plan) (base : Nat) : Option (Nat × Nat × Int) :=
  let n := ((List.range 3).find? (fun n => p.permitted.getD n false)).getD 0
  ((List.range 8).filterMap (fun e => match g.secs.getD e none with
    | some c => if 100000 < c.period base then some (4 + e, n, slackOf (g.cyclicCost e base) (p.unitCost.getD n 0) (c.period base)) else none
    | none => none)).head?

/-- The active image is admitted again at a base: the first engine that fails. -/
def Judged.readmit (j : Judged) : Option (Nat × Nat × Int) := match j.m.image with
  | none => none
  | some g =>
    let base := Fld.cycCfg_BASE j.n
    let (own, peer) := j.m.admitting
    let fails (p : Plan) : Option (Nat × Nat × Int) := match g.refusal p (Fld.marginCfg_TRIGGER j.n) base, g.tooLong p base with
      | some a, some b => some (if b.1 ≤ a.1 then b else a)
      | some a, none => some a
      | none, r => r
    match fails own with
    | some r => some r
    | none => peer.bind fails

def Judged.cyc (j : Judged) : Option Fail :=
  if Fld.cycCfg_BASE j.n = Fld.cycCfg_BASE j.m.cfg then none
  else if j.m.prog.engines.any (fun x => match x.mode with | .idle | .stop => false | _ => true) then
    some ⟨St.progState, Reg.cycCfg, 0⟩
  else match j.readmit with
    | some r => some ⟨St.admissionRefused, Reg.cycCfg, admissionDetail r⟩
    | none => none

/-! ### Plant ports (15 R390, R398, R413) -/

/-- Offsets of NET_CFG and NET_IP of EP0/EP1, EP2, EP3: n is 0, 2 or 3. -/
def Judged.netAddr (j : Judged) (n : Nat) : Nat :=
  let ip := (j.n.get (Reg.netIp0 + 4 * n)).toNat
  if ip = 0 then 0
  else if Fld.netCfg_ADD j.n n then (if j.m.chain.addr = 0 then 0 else (ip + j.m.chain.addr) % 2 ^ 32) else ip

def Judged.netPrefix (j : Judged) (n : Nat) : Option Fail :=
  let p := Fld.netCfg_PREFIX j.n n
  firstFail [(j.off.contains (Reg.netCfg0 + 4 * n) && decide ((0 < p ∧ p < 8) ∨ 30 < p), rangeFail (Reg.netCfg0 + 4 * n) 3)]

def Judged.net (j : Judged) (n : Nat) : Option Fail :=
  let a := j.netAddr n
  let p := Fld.netCfg_PREFIX j.n n
  let host := 2 ^ (32 - p)
  let t := j.touches [Reg.netCfg0 + 4 * n, Reg.netIp0 + 4 * n] && decide (a ≠ 0)
  firstFail [
    (t && decide (p < 8 ∨ 30 < p), rangeFail (Reg.netCfg0 + 4 * n) 3),
    (t && decide (a % host = 0 ∨ a % host = host - 1), rangeFail (Reg.netIp0 + 4 * n) 0)]

def Judged.gateway (j : Judged) : Option Fail :=
  let g := Fld.netGw0_ADDR j.n
  let a := j.netAddr 0
  let host := 2 ^ (32 - Fld.netCfg_PREFIX j.n 0)
  firstFail [(j.touches [Reg.netCfg0, Reg.netIp0, Reg.netGw0] && decide (g ≠ 0 ∧ a ≠ 0 ∧ g / host ≠ a / host), rangeFail Reg.netGw0 0)]

def Judged.can (j : Judged) (p : Nat) : Option Fail :=
  let o := Reg.canCfg0 + 4 * p
  firstFail [(j.off.contains o && decide (Fld.canCfg_DRATE j.n p ≠ 0) && !Fld.canCfg_FD j.n p, rangeFail o 6)]

/-- The module protocol on two ports. -/
def Judged.proto (j : Judged) : Option Fail :=
  let ps := (List.range 6).filter (fun p => Fld.canCfg_PROTO j.n p)
  match j.touches ((List.range 6).map (fun p => Reg.canCfg0 + 4 * p)), ps with
  | true, a :: b :: _ => some ⟨St.resourceClaimed, Reg.canCfg0 + 4 * b, 0x0100 + a + (0x0100 + b) * 65536⟩
  | _, _ => none

/-! ### Queues (14 R373, 19 R484) -/

/-- The fields of a queue that a commit may not change while it is enabled: register, highest and lowest bit. -/
def queueFields (q : Nat) : List (Nat × Nat × Nat) :=
  [(Reg.qpSqbl + 4 * q, 31, 12), (Reg.qpSqbh + 4 * q, 31, 0), (Reg.qpCqbl + 4 * q, 31, 12), (Reg.qpCqbh + 4 * q, 31, 0),
   (Reg.qpCfg + 4 * q, 4, 1), (Reg.qpCfg + 4 * q, 9, 5), (Reg.qpCfg + 4 * q, 14, 10), (Reg.qpCfg + 4 * q, 20, 15)]

def Judged.queue (j : Judged) (q : Nat) : Option Fail :=
  let o := Reg.qpCfg + 4 * q
  let both := Fld.qpCfg_ENABLE j.n q && Fld.qpCfg_ENABLE j.m.cfg q
  let changed := (queueFields q).find? (fun f => decide (j.n.fld f.1 f.2.1 f.2.2 ≠ j.m.cfg.fld f.1 f.2.1 f.2.2))
  firstFail [
    (j.off.contains o && decide (q = 0 ∧ j.m.life.phase = .recovery ∧ Fld.qpCfg_CLASS j.n 0 ≠ 7), rangeFail o 1),
    (j.off.contains o && decide (Fld.qpCfg_CQ_LOG j.n q < Fld.qpCfg_SQ_LOG j.n q), rangeFail o 10),
    (both && changed.isSome, changed.map (fun f => ⟨St.queueEnabled, f.1, f.2.2⟩))]

/-- Two enabled queues of one class other than command: the first pair. -/
def Judged.classes (j : Judged) : Option Fail :=
  let on := (List.range 32).filter (fun q => Fld.qpCfg_ENABLE j.n q && decide (Fld.qpCfg_CLASS j.n q ≠ 0))
  let twin (b : Nat) : Option Nat := on.find? (fun a => decide (a < b ∧ Fld.qpCfg_CLASS j.n a = Fld.qpCfg_CLASS j.n b))
  if !j.touches ((List.range 32).map (fun q => Reg.qpCfg + 4 * q)) then none
  else (on.filterMap (fun b => (twin b).map (fun a => (⟨St.resourceClaimed, Reg.qpCfg + 4 * b, a + b * 65536⟩ : Fail)))).head?

/-! ### The pass over the registers -/

/-- Member n of a family of registers. -/
def member (off base count : Nat) : Option Nat := if base ≤ off ∧ off < base + 4 * count then some ((off - base) / 4) else none

/-- Simple orders within one register (05 Table 5.8, 06 Table 6.18, 08 Table 8.17, 09 Table 9.13). -/
def Judged.orders (j : Judged) (off : Nat) : Option Fail :=
  let b := j.n
  let t := j.off.contains off
  if off = Reg.balCfg then firstFail [(t && decide (Fld.balCfg_WINDOW b ≤ Fld.balCfg_HYST b), rangeFail off 23)]
  else if off = Reg.impCfg then firstFail [(t && decide (Fld.impCfg_RIPPLE b < Fld.impCfg_AMP b), rangeFail off 7)]
  else if off = Reg.glLim1 then firstFail [
    (j.touches [Reg.glLim0, off] && decide (Fld.glLim1_BUS_UV b ≠ 0 ∧ Fld.glLim0_BUS_OV b ≤ Fld.glLim1_BUS_UV b), rangeFail off 0),
    (t && decide (Fld.glLim1_SW_OT b ≤ Fld.glLim1_SW_WARN b), rangeFail off 20)]
  else if off = Reg.shedCfg then firstFail [(t && decide (Fld.shedCfg_RESTORE_PCT b < Fld.shedCfg_SHED_PCT b + 5), rangeFail off 8)]
  else none

/-- The rules judged at an offset, by chapter. -/
def Judged.rules1 (j : Judged) (off : Nat) : Option Fail :=
  if off = Reg.profileCtl then (if j.off.contains off then j.profile else none)
  else if off = Reg.ptpCfg then (if j.off.contains off then j.ptp else none)
  else if off = Reg.ringMap + 60 then
    (if j.touches (Reg.ringCells :: (List.range 16).map (fun i => Reg.ringMap + 4 * i)) then j.map else none)
  else if off = Reg.glCfg then (j.running off).orElse (fun _ => j.fsw)
  else if off = Reg.glCfg2 ∨ off = Reg.loopHw ∨ off = Reg.dispRate then j.running off
  else if off = Reg.curBankA then j.bank off (!Fld.loopCtl_CUR_SEL j.m.cfg)
  else if off = Reg.curBankB then j.bank off (Fld.loopCtl_CUR_SEL j.m.cfg)
  else if off = Reg.vltBankA then j.bank off (!Fld.loopCtl_VLT_SEL j.m.cfg)
  else if off = Reg.vltBankB then j.bank off (Fld.loopCtl_VLT_SEL j.m.cfg)
  else if off = Reg.dispLim then j.limits
  else if off = Reg.envCfg then j.env
  else if off = Reg.cycCfg then j.cyc
  else j.orders off

def Judged.rules2 (j : Judged) (off : Nat) : Option Fail :=
  match member off Reg.diagCfg 4, member off Reg.diagSig 4, member off Reg.diagInj 4, member off Reg.tzLo 8, member off Reg.tzBand 8,
    member off Reg.coolCfg 8, member off Reg.coolSet 8 with
  | some n, _, _, _, _, _, _ => j.diagCfg n
  | _, some n, _, _, _, _, _ => j.diagSig n
  | _, _, some n, _, _, _, _ => j.diagInj n
  | _, _, _, some n, _, _, _ => j.zoneLo n
  | _, _, _, _, some n, _, _ => j.zoneBand n
  | _, _, _, _, _, some n, _ => j.cool n
  | _, _, _, _, _, _, some n => j.coolSet n
  | _, _, _, _, _, _, _ => none

def Judged.rules3 (j : Judged) (off : Nat) : Option Fail :=
  if off = Reg.safeCell then j.safeCell
  else if off = Reg.safeOc then j.safeOc
  else if off = Reg.soCfg then j.so
  else if off = Reg.netGw0 then j.gateway
  else match member off Reg.siCfg 16, member off Reg.sfPcfg 8, member off Reg.netCfg0 4, member off Reg.netIp0 4, member off Reg.canCfg0 6,
    member off Reg.qpCfg 32 with
  | some n, _, _, _, _, _ => j.si n
  | _, some n, _, _, _, _ => j.sf n
  | _, _, some n, _, _, _ => j.netPrefix n
  | _, _, _, some n, _, _ => j.net n
  | _, _, _, _, some n, _ => (j.can n).orElse (fun _ => if n = 5 then j.proto else none)
  | _, _, _, _, _, some n => (j.queue n).orElse (fun _ => if n = 31 then j.classes else none)
  | _, _, _, _, _, _ => none

/-- What is judged at one offset: the gate of the safety registers, the register's fields, the rules. -/
def Judged.at_ (j : Judged) (off : Nat) : Option Fail :=
  ((((if off = Reg.safeCell then j.safetyGate else none).orElse
    (fun _ => if j.off.contains off then j.fields off else none)).orElse
    (fun _ => j.rules1 off)).orElse (fun _ => j.rules2 off)).orElse (fun _ => j.rules3 off)

/-- Every staged register's offset, ascending. -/
def stagedOffsets : List Nat :=
  (regRows.filter (fun r => decide (r.access = .rw))).flatMap (fun r => (List.range r.count).map (fun i => r.base + 4 * i))

def Judged.registers (j : Judged) : Option Fail := stagedOffsets.findSome? j.at_

/-! ### Blocks: KIND 1 and 2 (06 R143, 10 R261) -/

/-- Cell stations the map as it would stand holds. -/
def Judged.hasStation (j : Judged) (k : Nat) : Bool :=
  if mapCommitted j.n then (entriesOf j.n).any (fun x => decide (x.2.2 / 64 = 2 ∧ x.2.2 % 32 = k))
  else j.m.ring.discovered.any (fun x => decide (x.1 = k))

/-- The first byte at which the map names a thermistor of a station that is not in the station map. -/
def Judged.strayThermistor (j : Judged) (b : List Byte) : Option Nat :=
  ((List.range 512).find? (fun c => match mapThermistor b c with
    | some t => !j.hasStation (t / 8)
    | none => false)).map (fun c => 2 * c)

def Judged.block12 (j : Judged) (kind : Nat) (b : List Byte) : Option Fail :=
  if kind = 1 then firstFail [(blockBad b, some ⟨St.fieldRange, 0xFFF1, Sys2Proof.Config.blockDetail b⟩)]
  else ((mapFault b).orElse (fun _ => j.strayThermistor b)).map (fun d => ⟨St.mapInvalid, 0xFFF2, d⟩)

/-! ### Block KIND 3, the site configuration (18 R458 to R460) -/

/-- The first failing byte of a list of checks. -/
def firstByte : List (Bool × Nat) → Option Nat
  | [] => none
  | (bad, i) :: l => if bad then some i else firstByte l

/-- The first byte of a span that is not 0. -/
def strayByte (b : List Byte) (i n : Nat) : Option Nat := ((List.range n).map (fun k => i + k)).find? (fun k => decide (byteAt b k ≠ 0))

/-- The header's fields, in order. -/
def siteHeader (b : List Byte) : Option Nat :=
  let first := firstByte [
    (decide (leAt b 0 4 ≠ 0x46435453), 0), (decide (leAt b 4 2 ≠ 1), 4), (decide (leAt b 6 2 = 0), 6), (decide (byteAt b 8 = 0), 8)]
  let sizes := firstByte [
    (decide (leAt b 12 4 ≠ b.length ∨ b.length < 568), 12), (decide (768 < leAt b 20 2), 20), (decide (256 < leAt b 26 2), 26)]
  let check := firstByte [(decide (leAt b 60 4 ≠ crc32c (b.take 60 ++ [0, 0, 0, 0] ++ b.drop 64)), 60)]
  (((first.orElse (fun _ => strayByte b 9 3)).orElse (fun _ => sizes)).orElse (fun _ => strayByte b 32 28)).orElse (fun _ => check)

/-- An address entry: its KIND, level, zero bytes, and its place in a pair. -/
def siteEntryBad (b : List Byte) (a : Nat) : Option Nat :=
  let o := 64 + 8 * (a - 1)
  let kind := byteAt b o
  let level := byteAt b (o + 1)
  let next := if a = 63 then 0 else byteAt b (o + 8)
  let prev := if a = 1 then 0 else byteAt b (o - 8)
  (firstByte [(decide (3 < kind), o), (decide (kind ≠ 0 ∧ level = 0), o + 1)]).orElse (fun _ =>
    (strayByte b (o + 2) 6).orElse (fun _ => firstByte [
      (decide (kind = 2 ∧ (next ≠ 3 ∨ byteAt b (o + 9) ≠ level)), o), (decide (kind = 3 ∧ prev ≠ 2), o)]))

/-- The tables: first byte and length of those with an entry. -/
def siteTables (b : List Byte) : List (Nat × Nat) :=
  (if leAt b 20 2 = 0 then [] else [(leAt b 16 4, 16 * leAt b 20 2)])
  ++ (if leAt b 26 2 = 0 then [] else [(leAt b 22 4, 16 * leAt b 26 2)])
  ++ (if leAt b 28 4 = 0 then [] else [(leAt b 28 4, 504)])

def tablesBad (b : List Byte) : Option Nat :=
  let ts := siteTables b
  match ts.find? (fun t => decide (t.1 < 568 ∨ b.length < t.1 + t.2)) with
  | some t => some t.1
  | none => ((mapIdxL (fun i (t : Nat × Nat) =>
      (t.1, (ts.take i).any (fun u => decide (t.1 < u.1 + u.2 ∧ u.1 < t.1 + t.2)))) ts).find? (fun x => x.2)).map (fun x => x.1)

/-- A scope table entry; a junior's own is ignored (R459). -/
def scopeBad (b : List Byte) (a : Nat) : Option Nat :=
  let o := leAt b 28 4 + 8 * (a - 1)
  if leAt b 28 4 = 0 ∨ byteAt b (64 + 8 * (a - 1)) = 3 then none
  else firstByte [
    (decide (767 < leAt b o 2), o), (decide (768 < leAt b (o + 2) 2), o + 2), (decide (255 < leAt b (o + 4) 2), o + 4),
    (decide (256 < leAt b (o + 6) 2), o + 6), (decide (leAt b 20 2 < leAt b o 2 + leAt b (o + 2) 2), o),
    (decide (leAt b 26 2 < leAt b (o + 4) 2 + leAt b (o + 6) 2), o + 4)]

/-- R460: the first failing byte. -/
def siteBad (b : List Byte) : Option Nat :=
  let addrs := (List.range 63).map (fun i => i + 1)
  (((siteHeader b).orElse (fun _ => addrs.findSome? (siteEntryBad b))).orElse (fun _ => tablesBad b)).orElse
    (fun _ => addrs.findSome? (scopeBad b))

/-! ### Its tables (15 R399, R409) -/

def payloadLengths : List Nat := [0, 1, 2, 3, 4, 5, 6, 7, 8, 12, 16, 20, 24, 32, 48, 64]

/-- A CAN entry by itself: its byte that fails. -/
def CanRow.bad (r : CanRow) : Option Nat :=
  let ext := r.flags % 2 = 1
  firstByte [
    (decide (5 < r.port), 0), (decide (127 < r.obj), 1), (decide (r.dir ≠ 1 ∧ r.dir ≠ 2), 2), (decide (16 ≤ r.flags), 3),
    (decide ((ext ∧ (2 ^ 29 ≤ r.ident ∨ r.ident / 65536 % 16 = 10)) ∨ (¬ ext ∧ 2 ^ 11 ≤ r.ident)), 4),
    (decide (r.dir = 2 ∧ r.mask ≠ 0), 8), (!payloadLengths.contains r.length, 12),
    (decide (8 < r.owner ∨ (r.dir = 1 ∧ r.owner ≠ 0)), 13), (decide (60000 < r.period), 14)]

/-- A CAN entry of the module's own scope, against the module's registers. -/
def Judged.canRowBad (j : Judged) (r : CanRow) : Option Nat :=
  firstByte [
    (decide (r.flags / 2 % 2 = 1) && !Fld.canCfg_FD j.n r.port, 3),
    (decide (r.dir = 2 ∧ r.owner ≠ 0) && !Fld.coolCfg_DEST j.n (r.owner - 1), 13)]

/-- The CAN entries of one scope: the first failing byte of the block. -/
def Judged.canScope (j : Judged) (b : List Byte) (a : Nat) : Option Nat :=
  let c := scopeIn b a
  let rows := (List.range c.2.1).map (fun i => (leAt b 16 4 + 16 * (c.1 + i), canRowAt b (c.1 + i)))
  let own := decide (a = j.m.chain.addr)
  let dup (i : Nat) (r : CanRow) : Bool := (rows.take i).any (fun x => decide (x.2.port = r.port ∧ x.2.obj = r.obj))
  ((mapIdxL (fun i (x : Nat × CanRow) => ((x.2.bad.orElse (fun _ => if dup i x.2 then some 0 else none)).orElse
    (fun _ => if own then j.canRowBad x.2 else none)).map (fun k => x.1 + k)) rows).filterMap id).head?

/-- A Modbus entry: its byte that fails. -/
def MbRow.bad (r : MbRow) : Option Nat :=
  firstByte [
    (decide (3 < r.port), 0), (decide (r.slave = 0 ∨ 247 < r.slave), 1),
    (decide (r.func ≠ 3 ∧ r.func ≠ 4 ∧ r.func ≠ 6 ∧ r.func ≠ 16), 2),
    (decide (r.count = 0 ∨ 16 < r.count ∨ (r.func = 6 ∧ r.count ≠ 1)), 3), (decide (65536 < r.start + r.count), 4),
    (decide (if r.period = 0 then r.func = 3 ∨ r.func = 4 else r.period < 10 ∨ 60000 < r.period), 6),
    (decide (4 ≤ r.format ∨ (r.format / 2 % 2 = 1 ∧ r.count % 2 = 1)), 8), (decide (r.fails = 0), 9)]

def mbTableBad (b : List Byte) : Option Nat :=
  ((List.range (leAt b 26 2)).filterMap (fun i =>
    let o := leAt b 22 4 + 16 * i
    ((mbRowAt b i).bad.map (fun k => o + k)).orElse (fun _ => strayByte b (o + 10) 6))).head?

/-- The addresses whose scopes are judged: those of the block's singles and seniors; with no scope table one stands for all. -/
def scopeAddrs (b : List Byte) (own : Nat) : List Nat :=
  let named := (List.range 63).filterMap (fun i =>
    if byteAt b (64 + 8 * i) = 1 ∨ byteAt b (64 + 8 * i) = 2 then some (i + 1) else none)
  let mine := match siteEntryIn b own with | some _ => [own] | none => []
  if leAt b 28 4 = 0 then (if mine = [] then [own] else mine) else (mine ++ named).eraseDups

/-! ### The behaviour level (18 R475) -/

/-- The commit changes this module's behaviour level: the old level and the new. -/
def State.levelChange (s : State) (blocks : List (Nat × List Byte)) : Option (Nat × Nat) :=
  match (if s.life.guard_ then none else s.siteEntry s.chain.addr), (blocks.find? (fun b => decide (b.1 = 3))).bind (fun b => siteEntryIn b.2 s.chain.addr) with
  | some old, some new => if old.level = new.level then none else some (old.level, new.level)
  | _, _ => none

def Judged.level (j : Judged) : Option Fail :=
  let o := 64 + 8 * (j.m.chain.addr - 1) + 1
  match j.m.levelChange j.blocks with
  | none => none
  | some (_, new) => firstFail [
      (decide (j.m.life.blHighest < new), some ⟨St.fwLevel, 0xFFF3, o⟩),
      (!j.m.stageIdle, some ⟨St.stageRunning, 0xFFF3, o⟩)]

def Judged.block3 (j : Judged) (b : List Byte) : Option Fail :=
  match siteBad b with
  | some k => some ⟨St.siteInvalid, 0xFFF3, k⟩
  | none =>
    match ((scopeAddrs b j.m.chain.addr).findSome? (j.canScope b)).orElse (fun _ => mbTableBad b) with
    | some k => some ⟨St.mapInvalid, 0xFFF3, k⟩
    | none => j.level

def Judged.block (j : Judged) (kind : Nat) : Option Fail := match j.blocks.find? (fun b => decide (b.1 = kind)) with
  | none => none
  | some b => if kind = 3 then j.block3 b.2 else j.block12 kind b.2

/-- The whole pass of R480: the first failure. -/
def Judged.first (j : Judged) : Option Fail := j.registers.orElse (fun _ => [1, 2, 3].findSome? j.block)

end Sys2Proof.Machine
end

