-- ==== Sys2Proof/Machine/Host.lean ====
section
/-! DEFINITION. Commands of the host queues (14): doorbells, stream buffers, the link, credits, interrupts, and the block
and slack commands. -/
namespace Sys2Proof.Machine

/-- A doorbell write that is discarded (R375). -/
def State.discardBell (s : State) (q : Nat) : State :=
  s.setQueue q (fun x => { x with discards := satAdd x.discards 1 65535 })

/-- A value at or above the ring's entry count (R375): the queue stops with cause 1, and one completion reports the
value. -/
def State.bellRange (s : State) (q value : Nat) : State :=
  (s.bareCompletion q St.doorbellRange value 0).stopQueue q 1

/-- SQ_TAIL (R375 to R377): the descriptors from the old tail to the new are taken; those standing in host memory are
`descs` in ring order, and an entry the host has not written is all zeros. -/
def zeroDesc : RawDesc := ⟨[], [], false, false⟩

def execSqTail (q : Fin 32) (value width : Nat) (descs : List RawDesc) (s : State) : Result :=
  let x := s.queue q
  let n := s.sqEntries q
  .next (
    if width ≠ 32 ∨ !x.running ∨ x.stopped then s.discardBell q
    else if n ≤ value then s.bellRange q value
    else
      let k := (value + n - x.sqTail) % n
      let t := s.setQueue q (fun y => { y with
        sqTail := value, ring := y.ring ++ (List.range k).map (fun i => (descs.getD i zeroDesc).desc) })
      t.fetchAndPump q)

/-- Entries that a new head releases; with the ring full, a write of the present head releases them all. -/
def Queue.released (x : Queue) (n value : Nat) : Nat :=
  let k := (value + n - x.cqHead) % n
  if k = 0 ∧ x.cqUsed = n then n else k

/-- CQ_HEAD (R375): completion entries up to the new head are released, and the queue fetches what its ring now has room
for. -/
def execCqHead (q : Fin 32) (value width : Nat) (s : State) : Result :=
  let x := s.queue q
  let n := s.cqEntries q
  .next (
    if width ≠ 32 ∨ !x.running ∨ x.stopped then s.discardBell q
    else if n ≤ value then s.bellRange q value
    else
      let t := s.setQueue q (fun y => { y with cqHead := value, cqUsed := y.cqUsed - x.released n value })
      (t.flushCq q x.cqWait.length).fetchAndPump q)

/-- STREAM_BUFFER_POST (R383): the posted buffers of a stream queue take the records that wait. -/
def execStreamBufferPost (q : Fin 32) (s : State) : Result :=
  .next (if (s.queue q).live && decide (classAccepts (s.qClass q) 0x80) && !(s.queue q).stopped then s.fillAll q else s)

/-- STREAM_FLUSH_TIMEOUT (R383): FLUSH ms after its first record the buffer completes. -/
def execStreamFlushTimeout (q : Fin 32) (s : State) : Result :=
  .next (match (s.queue q).inMod with
    | h :: _ => match h.since with
      | some a =>
        let t := s.advance (a + Fld.qpLim_FLUSH s.cfg q * 1000000)
        ((t.complete q 0 St.ok 0 h.used (h.flags (t.backlog (t.qClass q)).next.isSome)).fetchAndPump q).fillAll q
      | none => s
    | [] => s)

/-- Every queue stops with cause 3; descriptors and credits in progress are abandoned, and counted in EV_HOST_LINK
(R372, R382). -/
def State.abandonQueues (s : State) : State :=
  let live := (List.range 32).filter (fun q => (s.queue q).live)
  let waiting (q : Nat) : Nat := ((s.queue q).cqWait.filter (fun w => decide (w.completion.cmdId ≠ 0xFFFF))).length
  let descs := sumN (live.map (fun q => (s.queue q).inMod.length + waiting q))
  let creds := sumN (live.map (fun q => (s.queue q).g - (s.queue q).r))
  let t := live.foldl (fun u q => u.setQueue q (fun x => { x with
    stopped := true, cause := 3, inMod := [], cqWait := [], ring := [], g := x.r, c := x.r, draining := false, irqDue := false })) s
  t.raise Ev.hostLink [0, descs, creds]

/-- Every staging copy takes its active value and staged blocks are dropped (19 R481). -/
def State.discardStaged (s : State) : State :=
  { s with setup := { s.setup with staged := s.setup.active, blocks := [] } }

def execHostLinkDown (s : State) : Result :=
  .next ({ s with host := { s.host with linkUp := false } }.abandonQueues)

def execHostLinkUp (s : State) : Result :=
  .next ({ s with host := { s.host with linkUp := true } }.raise Ev.hostLink [1, 0, 0])

/-- FUNCTION_LEVEL_RESET (R372, R481): the queues stop, staging copies take their active values, and a pending snapshot
is dropped with state 6. -/
def execFunctionLevelReset (s : State) : Result :=
  let t := s.abandonQueues.discardStaged
  .next (match t.setup.pending with
    | some p => { t with setup := { t.setup with pending := none, cState := 6, cTag := p.tag } }
    | none => t)

/-- The counts of R382 hold for a queue. -/
def Queue.creditsOk (x : Queue) : Bool :=
  decide (x.r ≤ x.c) && decide (x.c ≤ x.g) && decide (x.c - x.r = (x.inMod.filter Held.credit).length + (x.cqWait.filter CqWait.credit).length)

/-- CREDIT_CHECK (R382): every second; a failure stops the queue with cause 4. -/
def execCreditCheck (second : Nat) (s : State) : Result :=
  let t := s.advance (second * 1000000000)
  .next ((List.range 32).foldl (fun u q =>
    let x := u.queue q
    if x.live && !x.stopped && !x.creditsOk then
      (u.setQueue q (fun y => { y with stopped := true, cause := 4 })).raise Ev.creditCount [q, x.g, x.c, x.r]
    else u) t)

/-- IRQ_GAP_END (R386): a completion written within the gap is signalled at its end. -/
def execIrqGapEnd (q : Fin 32) (s : State) : Result :=
  let x := s.queue q
  let t := s.advance x.irqAfter
  .next (if x.irqDue then t.raiseIrq q else t)

/-- CMD_EXPIRED (R370): a Both command whose chapter names no expiry event of its own: the contactor command and the key set. -/
def execCmdExpired (s : State) : Result :=
  .next (s.expireBoth (fun c => decide (c.opcode = 0x12 ∨ c.opcode = 0x70)) Ev.cmdExpired (fun c => [c.opcode.toNat]))

/-- CFG_BLOCK_WRITE (06 R143, 10 R261, 18 R458): a block is staged; KIND 1 to 3. -/
def execCfgBlockWrite (q : Fin 32) (s : State) : Result :=
  .next (s.hostRow q 0x01 anyArg (fun t d =>
    let k := d.argByte 0
    if k = 0 ∨ 3 < k then .refuse St.fieldRange 32
    else .accept 0 false []
      { t with setup := { t.setup with blocks := (t.setup.blocks.filter (fun b => decide (b.1 ≠ k))) ++ [(k, d.body)] } }))

/-- CFG_BLOCK_READ: a staged or active block; one that is not there gives ST_NO_RECORD. -/
def blockReadOp (s : State) (d : Desc) : Verdict :=
  let k := d.argByte 0
  if k = 0 ∨ 3 < k then .refuse St.fieldRange 32
  else if 1 < d.argByte 1 then .refuse St.fieldRange 33
  else match (if d.argByte 1 = 0 then s.setup.blocks else s.setup.blocksAct).find? (fun b => decide (b.1 = k)) with
    | some b => .accept b.2.length false b.2 s
    | none => .refuse St.noRecord 0

def execCfgBlockRead (q : Fin 32) (s : State) : Result := .next (s.hostRow q 0x02 anyArg blockReadOp)

/-- The 64 bytes of a slack history record (02 Table 2.3). -/
def SlackRec.bytes (r : SlackRec) : List Byte :=
  sealed (packBytes ([(8, (r.time : Int))] ++ r.slack.map (fun v => (2, v)) ++ [(1, (r.vcoreH : Int)), (1, (r.profile : Int)), (2, r.tdieMax), (2, 0)]))

/-- SLACK_READ (02 R44): records from `first` (0 newest); the required length is 64 × count, the response holds those that exist. -/
def slackReadOp (s : State) (d : Desc) : Verdict :=
  let first := d.argLe 0 2
  let count := d.argLe 2 2
  if 16383 < first then .refuse St.fieldRange 32
  else if count = 0 ∨ 16384 < count then .refuse St.fieldRange 34
  else
    let recs := (s.fabric.history.reverse.drop first).take count
    .acceptRead (64 * count) (64 * recs.length) (recs.flatMap SlackRec.bytes) s

def execSlackRead (q : Fin 32) (s : State) : Result := .next (s.hostRow q 0x34 anyArg slackReadOp)

end Sys2Proof.Machine
end

