-- ==== Sys2Proof/Machine/Meas.lean ====
section
/-! DEFINITION. Commands of cell measurement and balancing (05). -/
namespace Sys2Proof.Machine

def secNs : Nat := 1000000000
def hourNs : Nat := 3600000000000

/-- At least `gap` has passed since a last time, or there was none. -/
def State.since (s : State) (last : Option Nat) (gap : Nat) : Bool := match last with
  | some t => decide (t + gap ≤ s.now)
  | none => true

/-! ### String current (R123) -/

/-- The means a/n and b/m differ by more than 0.6 % of a/n plus 1 A; in mA, both present. -/
def differs (a : Int) (n : Nat) (b : Int) (m : Nat) : Bool :=
  decide (n ≠ 0) && decide (m ≠ 0) && decide (6 * mag a * m + 1000000 * n * m < 1000 * mag (a * m - b * n))

/-- The mean of a sum, 0 where there is nothing. -/
def meanOf (a : Int) (n : Nat) : Int := if n = 0 then 0 else Sys2Proof.Config.quot a n

/-- Which path the third opinion judges wrong: 0 none, 1 primary, 2 fluxgate. -/
def judge (sum : List Int) (n : List Nat) : Nat :=
  let bad (j : Nat) : Bool := differs (sum.getD 2 0) (n.getD 2 0) (sum.getD j 0) (n.getD j 0)
  if bad 0 && !bad 1 then 1 else if bad 1 && !bad 0 then 2 else 0

/-- The disagreement of R123 in its third second: the event, the judgement, and the path entry of 07 R188 where the
judgement moves the ledger's path. -/
def State.disagree (s : State) : State :=
  let m := s.meas
  let v := judge m.curSum m.curN
  let t := s.raise Ev.currentDisagree ((List.range 3).map (fun j => meanOf (m.curSum.getD j 0) (m.curN.getD j 0)) ++ [(v : Int)])
  if v = 0 then t
  else
    let old := t.ledgerPath
    let u := { t with meas := { t.meas with
      wrong := t.meas.wrong.set (if v = 1 then t.primaryCs else 2) true
      agreeFrom := t.meas.agreeFrom.set (if v = 1 then t.primaryCs else 2) none } }
    if u.ledgerPath ≠ old ∧ u.ledgerPath < 3 ∧ u.ledger.open_ then u.bookJudgement old u.ledgerPath else u

/-- The means of two of the second's sums differ. -/
def Meas.apart (m : Meas) (a b : Nat) : Bool := differs (m.curSum.getD a 0) (m.curN.getD a 0) (m.curSum.getD b 0) (m.curN.getD b 0)

/-- The means of two of the second's sums are there and agree. -/
def Meas.agree (m : Meas) (a b : Nat) : Bool := decide (m.curN.getD a 0 ≠ 0) && decide (m.curN.getD b 0 ≠ 0) && !m.apart a b

/-- The comparison of the second's means: the run of disagreeing seconds, and since when each path agrees. -/
def Meas.compare (m : Meas) (now : Nat) : Meas :=
  let from_ (j : Nat) (ok : Bool) : Option Nat := if ok then some ((m.agreeFrom.getD j none).getD (now - secNs)) else none
  { m with
    disRun := if m.apart 0 1 then min 4 (m.disRun + 1) else 0
    agreeFrom := [from_ 0 (m.agree 3 1), from_ 1 (m.agree 4 1), from_ 2 (m.agree 0 1)] }

/-- Since when the path judged wrong that has agreed longest agrees. -/
def Meas.judgedFrom (m : Meas) : Option Nat :=
  (List.range 3).foldl (fun a j => match (if m.wrong.getD j false then m.agreeFrom.getD j none else none), a with
    | some x, some y => some (min x y)
    | some x, none => some x
    | none, y => y) none

/-- CURRENT_COMPARE (R123): at each whole second. -/
def execCurrentCompare (second : Nat) (s : State) : Result :=
  let t := (s.advance (second * secNs)).onMeas (fun m => m.compare (s.advance (second * secNs)).now)
  let u := if t.meas.disRun = 3 then t.disagree else t
  .next (u.onMeas (fun m => { m with curSum := [0, 0, 0, 0, 0], curN := [0, 0, 0, 0, 0] }))

/-- CURRENT_JUDGEMENT_END (R123): after 60 s of agreement a judgement ends; the primary's counter at the next sweep is
its new baseline (07 R188). -/
def execCurrentJudgementEnd (s : State) : Result :=
  .next (match s.meas.judgedFrom with
    | some a =>
      let s := s.advance (a + 60 * secNs)
      { s with
        meas := { s.meas with wrong := mapIdxL (fun j (x : Bool) => x && decide (s.meas.agreeFrom.getD j none ≠ some a)) s.meas.wrong }
        ledger := { s.ledger with held := none, heldFg := 0 } }
    | none => s)

/-! ### Sum and consistency checks (R118, R124, R125) -/

/-- A test of a tap is ordered on suspicion (R127). -/
def State.orderTest (s : State) (k t : Nat) : State := s.onTap k t (fun x => { x with ordered := true })

/-- SUM_MISMATCH (R124): of a station's primary (0) or secondary (1) sum in 10 consecutive sweeps. -/
def execSumMismatch (k : Fin 32) (chain : Fin 2) (s : State) : Result :=
  let m := s.stM k
  .next (if m.sumRun.getD chain 0 ≠ 10 then s
    else
      let t := (s.onStM k (fun x => { x with sumRun := x.sumRun.set chain 11 })).raise Ev.sumMismatch
        [k.val, chain.val, m.sumDiff.getD chain 0]
      (t.orderTest k 0).orderTest k (s.usedOf k))

/-- UNUSED_CHANNEL (R118): an unused channel outside ±5 mV in 10 consecutive sweeps. -/
def execUnusedChannel (k : Fin 32) (c : Fin 16) (s : State) : Result :=
  .next (if (s.stM k).unused.getD c 0 ≠ 10 then s
    else (s.onStM k (fun x => { x with unused := x.unused.set c 11 })).raise Ev.unusedChannel [k.val, c.val])

/-- A station's sum holds (R124): no sum mismatch stands. -/
def State.sumHolds (s : State) (k chain : Nat) : Bool := decide ((s.stM k).sumRun.getD chain 0 < 10)

/-- One cell's comparison of a second (R125): the run, the event, the chain flagged, the test ordered. -/
def State.compareCell (s : State) (c : Nat) : State :=
  let x := s.cell c
  let k := c / 16
  let d := x.sumP - x.sumS
  let far := decide (x.n ≠ 0) && decide (Fld.measCfg_PS s.cfg * 1000 * x.n < mag d)
  let run := if far then min 10 (x.psRun + 1) else 0
  let p := s.sumHolds k 0
  let q := s.sumHolds k 1
  let told := decide (x.psRun = 10) && !(p && q && s.since x.psAt hourNs)
  let s := s.onCell c (fun y => { y with
    psRun := run, sumP := 0, sumS := 0, n := 0
    flagP := decide (run = 10) && !p && q, flagS := decide (run = 10) && p && !q })
  if run = 10 && !told then
    let t := (s.raise Ev.measDisagree [c, meanOf d x.n]).onCell c (fun y => { y with psAt := some s.now })
    if x.psRun = 10 then t else (t.orderTest k (c % 16)).orderTest k (c % 16 + 1)
  else s

/-- Deviations of the pair sums of a station's cells from its median pair sum over the last second, µV, by upper cell
(R132). -/
def State.pairDevs (s : State) : List (Option Int) :=
  (List.range s.cellStations).foldl (fun acc k =>
    let mean (i : Nat) : Option Int :=
      let x := s.cell (16 * k + i)
      if i < s.usedOf k ∧ x.n ≠ 0 then some (meanOf x.sumP x.n) else none
    let pairs := (List.range 16).map (fun i => if i = 0 then none else match mean (i - 1), mean i with
      | some a, some b => some (a + b)
      | _, _ => none)
    let med := median2 (pairs.filterMap id)
    acc ++ pairs.map (fun v => v.map (fun x => x - Sys2Proof.Config.quot med 2))) []

/-- The mean of the last second of each cell less its station's median, µV (R130). -/
def State.cellDevs (s : State) : List (Option Int) :=
  (List.range s.cellStations).foldl (fun acc k =>
    let mean (i : Nat) : Option Int :=
      let x := s.cell (16 * k + i)
      if i < s.usedOf k ∧ x.n ≠ 0 then some (meanOf x.sumP x.n) else none
    let cells := (List.range 16).map mean
    let med := median2 (cells.filterMap id)
    acc ++ cells.map (fun v => v.map (fun x => x - Sys2Proof.Config.quot med 2))) []

/-- The spectrum row of Table 5.3 for a failing cell: the last spectrum physical, its change not flat, or confined to the cell. -/
def State.failingSpectrum (s : State) (c : Nat) : Bool :=
  let x (j : Nat) : EstCell := s.est.cells.getD j EstCell.reset
  !(x c).nonPhys && !((x c).rise && ((decide (0 < c) && (x (c - 1)).rise) || (x (c + 1)).rise))

/-- The move of a cell's pair sums over 30 days, where it is 5 mV or more in every pair that the cell has; the lowest and the highest
used cell of a station have one (Table 5.3). -/
def pairMove (used : Nat) (now old : List (Option Int)) (c : Nat) : Option Int :=
  let d (j : Nat) : Option Int := match now.getD j none, old.getD j none with
    | some a, some b => some (a - b)
    | _, _ => none
  let pick (a b : Int) : Option Int := if 5000 ≤ a ∧ 5000 ≤ b then some (min a b) else if a ≤ -5000 ∧ b ≤ -5000 then some (max a b) else none
  if c % 16 = 0 then match d (c + 1), d (c + 2) with
    | some a, some b => if mag b < 5000 then pick a a else none
    | _, _ => none
  else if c % 16 + 1 = used then match d c, d (c - 1) with
    | some a, some b => if mag b < 5000 then pick a a else none
    | _, _ => none
  else match d c, d (c + 1) with
    | some a, some b => pick a b
    | _, _ => none

/-- The diagnoses of Table 5.3 that R132 repeats once a day while their condition lasts; at rest the day's pair sums are
kept for 30 days. -/
def State.diagnose (s : State) : State :=
  let now := s.pairDevs
  let devs := s.cellDevs
  let rest := decide (30 * secNs ≤ s.meas.rest)
  let s := if rest then s.onMeas (fun m => { m with restDevs := devs }) else if s.meas.rest = 0 then s.onMeas (fun m => { m with loadDevs := devs }) else s
  let due := match s.meas.pairs.head? with | some e => decide (e.1 + day ≤ s.now) | none => true
  let kept := s.meas.pairs.filter (fun e => decide (s.now ≤ e.1 + 30 * day))
  let s := if rest then { s with meas := { s.meas with pairs := if due then (s.now, now) :: kept else kept } } else s
  let old := (s.meas.pairs.getLast?).elim [] (fun e => e.2)
  let s := if !rest then s else (List.range (16 * s.cellStations)).foldl (fun t c =>
    match pairMove (t.usedOf (c / 16)) now old c with
    | some v =>
      if t.tapDoubt c || !t.sumHolds (c / 16) 0 || !t.failingSpectrum c || !t.since ((t.cell c).suspAt.map (fun e => e.1)) day then t
      else (t.onCell c (fun x => { x with suspAt := some (t.now, v) })).raise Ev.cellSuspect [c, v]
    | none => t) s
  s.meas.busbar.foldl (fun t e =>
    if t.since (some e.2.1) day then
      ({ t with meas := { t.meas with busbar := t.meas.busbar.map (fun (f : Nat × Nat × Int × Int) => if f.1 = e.1 then (f.1, t.now, f.2.2) else f) } }).raise
        Ev.busbarSuspect [e.1, e.2.2.1, e.2.2.2]
    else t) s

/-- MEAS_COMPARE (R125, R132): at each whole second. -/
def execMeasCompare (second : Nat) (s : State) : Result :=
  let s := (s.advance (second * secNs)).diagnose
  .next ((List.range s.cellCount).foldl (fun t c => t.compareCell c) s)

/-! ### Open-wire test (R127 to R131) -/

/-- The inputs of a station that have a tap of a used cell. -/
def State.inputs (s : State) (k : Nat) : Nat := 2 ^ (s.usedOf k + 1) - 1

/-- OW_START with a mask. -/
def State.openWire (s : State) (k mask : Nat) : State :=
  if s.mapped k && (s.station k).present then
    (s.command k 2 (Nat.land mask (s.inputs k))).onStM k (fun m => { m with tests := ((s.now, Nat.land mask (s.inputs k)) :: m.tests).take 8 })
  else s

/-- OW_ROUND (R127): at a whole multiple of OW_PERIOD × 10 s plus 300 ms per station number, the even inputs. -/
def execOwRound (k : Fin 32) (s : State) : Result :=
  let period := Fld.measCfg_OW_PERIOD s.cfg * 10 * secNs
  let g := atOrAfter (s.now - k * 300000000) period + k * 300000000
  let s := s.advance g
  .next ((s.openWire k 0x15555).onStM k (fun m => { m with oddAt := some (g + 40000000) }))

/-- OW_ODD_START (R127): 40 ms later, the odd inputs. -/
def execOwOddStart (k : Fin 32) (s : State) : Result :=
  .next (match (s.stM k).oddAt with
    | some a => (((s.advance a).openWire k 0x0AAAA)).onStM k (fun m => { m with oddAt := none })
    | none => s)

/-- OW_RETEST (R128): 1 s after an inconclusive shift. -/
def execOwRetest (k : Fin 32) (t : Fin 17) (s : State) : Result :=
  .next (match (s.tap k t).retestAt with
    | some a => ((s.advance a).openWire k (2 ^ t.val)).onTap k t (fun x => { x with retestAt := none, retests := x.retests + 1 })
    | none => s)

/-- OW_SUSPICION_TEST (R127): the tap concerned by itself, at most once per second. -/
def execOwSuspicionTest (k : Fin 32) (t : Fin 17) (s : State) : Result :=
  .next (if !(s.tap k t).ordered then s
    else
      let s := match (s.tap k t).testedAt with | some a => s.advance (a + secNs) | none => s
      (s.openWire k (2 ^ t.val)).onTap k t (fun x => { x with ordered := false, testedAt := some s.now }))

/-- A tested input's result (R128, R131): open by the station's verdict, intact at 25 mV or less, else inconclusive. -/
def State.tapResult (s : State) (k t : Nat) (verdict : Bool) (shift : Int) : State :=
  let x := s.tap k t
  if verdict then
    let u := s.onTap k t (fun y => { y with suspect := false, open_ := true, intact := 0, retests := 0, retestAt := none, ordered := false })
    if x.open_ then u else u.raise Ev.senseWireOpen [(16 * k + t : Nat), k, t, shift]
  else if mag shift ≤ 250 then
    s.onTap k t (fun y => { y with
      suspect := false, retests := 0, retestAt := none
      open_ := y.open_ && decide (y.intact + 1 < 3), intact := if y.open_ && decide (y.intact + 1 < 3) then y.intact + 1 else 0 })
  else
    s.onTap k t (fun y => { y with
      suspect := true, intact := 0, retestAt := if y.retests < 3 then some (s.now + secNs) else none })

/-- OPEN_WIRE_RESULT_MESSAGE (R129, Table 5.2): the test has ended and is no longer part of the commanded state. -/
def execOpenWireResultMessage (k : Fin 32) (s : State) : Result :=
  .next (match s.takeMessage k 3 with
    | (t, some b) =>
      let mask := leAt b 2 3
      let opens := leAt b 40 3
      let t := t.onStation k (fun x => { x with ow := x.ow - Nat.land x.ow mask })
      (List.range 17).foldl (fun u i =>
        if mask / 2 ^ i % 2 = 1 then u.tapResult k i (decide (opens / 2 ^ i % 2 = 1)) (sleAt b (6 + 2 * i) 2) else u) t
    | (t, none) => t)

/-! ### Calibration, identification, station events (R97, R119, R120, 07 R191) -/

/-- CAL_STEP_ISSUE (R119): the next of a round's 17 steps, 2 s apart; a round once in 24 h, no two stations of one ring
in one second. -/
def execCalStepIssue (k : Fin 32) (s : State) : Result :=
  let m := s.stM k
  .next (match m.calStep with
    | some c =>
      let s := s.advance (m.calAt.getD 0 + 2 * c * secNs)
      (s.command k 4 c).onStM k (fun x => { x with calStep := if c < 16 then some (c + 1) else none })
    | none =>
      let ring := (s.placeOf k).map (fun p => p.1)
      let clash := (List.range 32).any (fun j => decide (j ≠ k.val) && decide ((s.placeOf j).map (fun p => p.1) = ring)
        && match (s.stM j).calAt with | some a => decide (s.now < a + 34 * secNs) | none => false)
      if ring.isNone || clash || !s.since m.calAt day then s
      else (s.command k 4 0).onStM k (fun x => { x with calStep := some 1, calAt := some s.now }))

/-- CALIBRATION_RECORD_MESSAGE (R120): with the references' difference in 0.1 ppm. -/
def execCalibrationRecordMessage (k : Fin 32) (diff : Int) (s : State) : Result :=
  .next (match s.takeMessage k 5 with
    | (t, some _) => if 200 < mag diff then t.raise Ev.calDrift [k.val, clampI (-32768) 32767 diff] else t
    | (t, none) => t)

/-- STATION_EVENT_MESSAGE (R97): acknowledged as it came whole; its content has no further effect here. -/
def execStationEventMessage (k : Fin 34) (s : State) : Result := .next (s.takeMessage k 6).1

/-- The cell's last known voltage, µV. -/
def State.lastVolt (s : State) (c : Nat) : Int :=
  match s.ring.last with
  | some w => s.voltNow w c
  | none => ((s.estCell c).hist.head?).elim 0 (fun h => Sys2Proof.Config.quot h.2.1 1000)

/-- A balancing entry is booked at the next sweep (07 Table 7.2). -/
def State.queueBalance (s : State) (e : BalEntry) : State := s.onLedger (fun l => { l with balWait := l.balWait ++ [e] })

/-- A station restart (07 R191): estimated entries for the channels commanded on since the last booked message. -/
def State.stationRestart (s : State) (k : Nat) : State :=
  let m := s.stM k
  let quiet := min (m.unheard + (s.now - m.heardAt)) s.staTimeout
  let on (c : Nat) : Bool := m.wasOn / 2 ^ c % 2 == 1
  let allow (c : Nat) : Int := if on c then balCharge (s.lastVolt (16 * k + c)) quiet else 0
  (s.queueBalance ⟨s.now, k, 2, [], m.wasOn, (List.range 16).map allow⟩).onStM k (fun x => { x with unheard := 0, wasOn := 0 })

/-- IDENTIFICATION_MESSAGE (07 R191, R504): the station's start count and serial number. A restart loses a current
station's baselines. -/
def execIdentificationMessage (k : Fin 34) (startCount : Nat) (serial : BitVec 64) (s : State) : Result :=
  .next (match s.takeMessage k 1 with
    | (t, some _) =>
      let new := (startCount, serial.toNat)
      let restarted := match t.ledger.starts.getD k none with | some old => decide (old ≠ new) | none => false
      let u := if restarted && decide (k.val < 32) then t.stationRestart k else t
      let v := if restarted && decide (32 ≤ k.val) then
          u.onLedger (fun l => { l with base := l.base.set (k - 32) [] }) else u
      let y := if decide ((t.station k).serial ≠ serial) then v.stationStart k else v
      (y.onLedger (fun l => { l with starts := l.starts.set k (some new) })).onStation k (fun x => { x with serial := serial })
    | (t, none) => t)

/-! ### Balancing (R135, R137, R138, R140, R141) -/

/-- One channel's LEAD bit (R141). -/
def State.leadBit (s : State) (k c : Nat) (bad : Bool) : State :=
  let x := s.cell (16 * k + c)
  let run := if bad then x.leadRun + 1 else 0
  let t := s.onCell (16 * k + c) (fun y => { y with leadRun := run })
  if run = 3 ∧ !x.leadOpen then
    (t.onCell (16 * k + c) (fun y => { y with leadOpen := true, cand := false })).raise Ev.balLeadOpen [k, c]
  else t

/-- BALANCING_COUNTERS_MESSAGE (R135, R140, R141, 07 R190, 06 R146, Table 5.5). -/
def execBalancingCountersMessage (k : Fin 32) (s : State) : Result :=
  .next (match s.takeMessage k 4 with
    | (t, some b) =>
      let duty := leAt b 2 2
      let new := (List.range 16).map (fun c => leAt b (4 + 4 * c) 4)
      let told := decide (duty < 10000) && t.since (t.stM k).deratedAt hourNs
      let t := t.onStM k (fun m => { m with duty := duty, deratedAt := if told then some t.now else m.deratedAt })
      let t := if told then t.raise Ev.balDerated [k.val, duty] else t
      let t := (List.range 16).foldl (fun u c => u.leadBit k c (decide (leAt b 68 2 / 2 ^ c % 2 = 1))) t
      (t.queueBalance ⟨t.now, k, if (t.stM k).unheard = 0 then 0 else 1, new, 0, []⟩).onStM k (fun m => { m with
        unheard := 0, wasOn := (t.station k).bal })
    | (t, none) => t)

/-- The cell's voltage takes part in a decision (R137, R139): a valid result that is not set aside. -/
def State.decisionVolt (s : State) (c : Nat) : Option Int :=
  match s.ring.last with
  | some w => if s.aside c w.at_ || s.tapOpen c || (s.cell c).flagP then none else w.cellP c
  | none => none

/-- A cell at a balancing decision, from the sum of the lowest voltages of n sweeps (R137). -/
def State.balDecided (s : State) (sum : Int) (n c : Nat) (x : Cell) : Cell :=
  let window : Int := 1000 * Fld.balCfg_WINDOW s.cfg * n
  let stopAt : Int := 1000 * (Fld.balCfg_WINDOW s.cfg - Fld.balCfg_HYST s.cfg : Nat) * n
  match s.decisionVolt c with
  | some v =>
    let e := v * n - sum
    if x.on then { x with excess := v, cand := decide (stopAt < e) } else { x with excess := v, cand := decide (window < e) }
  | none => x

def State.balDecide (s : State) : State :=
  let cells := mapIdxL (s.balDecided (sumI (s.meas.lows.map (fun e => e.2))) s.meas.lows.length) s.meas.cells
  { s with meas := { s.meas with cells := cells, decidedAt := s.now } }

/-- BAL_DECISION (R137): at a whole second while at rest in voltage mode. -/
def execBalDecision (second : Nat) (s : State) : Result :=
  let s := s.advance (second * secNs)
  .next (if Fld.balCfg_MODE s.cfg ≠ 1 ∨ s.meas.rest < 30 * secNs ∨ s.meas.lows.length = 0 then s else s.balDecide)

/-- The cells whose estimate takes part in the charge mode's decision: not INVALID, with a charge bound of 2 %/1000 or less (R138). -/
def State.chargeCells (s : State) : List Nat :=
  let est (c : Nat) : EstCell := s.est.pub.getD c EstCell.reset
  (List.range s.cellCount).filter (fun c =>
    decide ((est c).st ≠ .invalid) && decide ((est c).model.bounds.soc ≤ 200))

/-- The lowest charge among them. -/
def State.chargeLow (s : State) : Int :=
  (minI (s.chargeCells.map (fun c => (s.est.pub.getD c EstCell.reset).model.soc))).getD 0

/-- A cell at a charge mode's decision: above the lowest by more than 5 % it is a candidate, down to 2 % (R138). -/
def State.chargeDecided (s : State) (c : Nat) (x : Cell) : Cell :=
  if s.chargeCells.contains c then
    let m := (s.est.pub.getD c EstCell.reset).model
    let e := m.soc - s.chargeLow
    let q := Sys2Proof.Config.quot (e * m.cap) 1000000000000
    if x.cand then (if e < 2000000 then { x with cand := false, excess := q, target := none } else { x with excess := q })
    else if 5000000 < e then { x with cand := true, excess := q, target := some (s.ledger.bal.b.getD c 0, q) }
    else { x with excess := q }
  else { x with cand := false, target := none }

/-- BAL_CHARGE_UPDATE (R138): every 60 s in charge mode. -/
def execBalChargeUpdate (s : State) : Result :=
  .next (if Fld.balCfg_MODE s.cfg = 2 then s.onMeas (fun m => { m with cells := mapIdxL s.chargeDecided m.cells }) else s)

/-- BAL_CHANNEL_TIMEOUT (R137): 2 h without a decision. -/
def execBalChannelTimeout (c : Fin 512) (s : State) : Result :=
  let x := s.cell c
  .next (if Fld.balCfg_MODE s.cfg = 1 && x.on then
      (s.advance (max x.onAt s.meas.decidedAt + 2 * hourNs)).onCell c (fun y => { y with cand := false })
    else s)

end Sys2Proof.Machine
end

