-- ==== Sys2Proof/Machine/PlantOps.lean ====
section
/-! DEFINITION. Plant ports (15): PRP, the checks of a plant message, what the plant commands, CAN FD sending, Modbus transactions. -/
namespace Sys2Proof.Machine

def State.onPlant (s : State) (f : Plant → Plant) : State := { s with plant := f s.plant }

/-! ### Addresses and PRP (R390 to R392) -/

/-- An address lies in a port's subnet. -/
def State.inSubnet (s : State) (ep addr : Nat) : Bool :=
  let k := 2 ^ (32 - Fld.netCfg_PREFIX s.cfg (if ep ≤ 1 then 0 else ep))
  decide (addr / k = s.netAddr ep / k)

/-- A frame with its LAN's identifier has arrived from another node: the LAN is up. -/
def State.lanHeard (s : State) (lan : Nat) : State :=
  let t := s.onEth lan (fun x => { x with lanAt := some s.now, prpUp := true })
  if (s.ethPort lan).prpUp then t else t.raise Ev.prpLanUp [lan]

/-- A duplicate (Table 15.1): its source and sequence number were taken within DUP_MS. -/
def State.prpSeen (s : State) (mac seq : Nat) : Bool :=
  s.plant.dups.any (fun e => decide (e.1 = mac ∧ e.2.1 = seq ∧ s.now ≤ e.2.2 + 1000000 * Fld.prpCfg_DUP_MS s.cfg))

/-- Frames seen, newest first, at most 1,024. -/
def State.prpNote (s : State) (mac seq : Nat) : State :=
  s.onPlant (fun p => { p with dups := ((mac, seq, s.now) :: p.dups).take 1024 })

/-- The node table: the node is entered, while it has room, or refreshed. -/
def nodeSeen (l : List (Nat × Nat)) (mac now : Nat) : List (Nat × Nat) :=
  if l.any (fun e => decide (e.1 = mac)) then l.map (fun e => if e.1 = mac then (mac, now) else e)
  else if l.length < 256 then l ++ [(mac, now)] else l

/-! ### What the plant commands (R394) -/

/-- The answer of check 4 and 5: status, number and KIND of the ACK, and the state. -/
structure PlantAnswer where
  status : Nat
  seq    : Word
  kind   : Nat
  next   : State

/-- A DISPATCH body from the plant. -/
def State.plantDispatch (s : State) (b : List Byte) : PlantAnswer :=
  let d := dispBody b
  let c : Cmd := ⟨0x10, b.take 24, []⟩
  if !Fld.plantCfg_DISP s.cfg then ⟨St.dispatchSource, d.seq, d.kind, s⟩
  else match s.takeCopy c 1 with
    | some t => ⟨St.ok, d.seq, d.kind, t⟩
    | none =>
      let st := (s.dispCheck 1 d).1
      ⟨st, d.seq, d.kind, if st = St.ok then s.dispAccept 1 c d else s⟩

/-- The effect of a STAGE message that is accepted. -/
def State.plantStageTake (s : State) (c : Cmd) (op : Nat) (seq : Word) : State :=
  ((s.onPlant (fun p => { p with sseq := some seq })).onDisp (fun x => { x with notReady := x.notReady && decide (op ≠ 1) })).forward c 1
    (fun u => u.stageOp op)

/-- A STAGE body from the plant. -/
def State.plantStage (s : State) (b : List Byte) : PlantAnswer :=
  let op := byteAt b 0
  let seq : Word := BitVec.ofNat 32 (leAt b 4 4)
  let kind := (0x10 + op) % 256
  let c : Cmd := ⟨0x11, b.take 8, []⟩
  if !Fld.plantCfg_DISP s.cfg then ⟨St.dispatchSource, seq, kind, s⟩
  else match s.takeCopy c 1 with
    | some t => ⟨St.ok, seq, kind, t⟩
    | none =>
      let st :=
        if op = 1 ∧ s.plantActive = false then St.dispatchSource
        else if !zerosAt b 1 3 || decide (op = 0 ∨ 4 < op) then St.fieldRange
        else if !newerSeq s.plant.sseq seq then St.setpointStale
        else s.stageStatus 1 op
      ⟨st, seq, kind, if st = St.ok then s.plantStageTake c op seq
        else if st = St.stageNotReady then s.noteNotReady else s⟩

/-- In the pair an ACK is released 1 ms after the acceptance (16 R421). -/
def State.ackLater (s : State) : Nat := if s.isJoined then 1000000 else 0

/-- Body of an ACK (Table 15.3). -/
def PlantAnswer.ackBody (a : PlantAnswer) : List Byte :=
  packBytes [(4, (a.seq.toNat : Int)), (2, (a.status : Int)), (1, (a.kind : Int)), (1, 0)]

/-- The ACK to a source address. -/
def PlantAnswer.ack (a : PlantAnswer) (ep src : Nat) : State :=
  a.next.plantSendAt a.next.ackLater ep src 0x03 a.ackBody

/-- The acknowledgement frame on a CAN FD port. -/
def PlantAnswer.ackCan (a : PlantAnswer) (p : Nat) : State :=
  a.next.express p 1 (protoIdent 2 4 a.next.chain.identity) a.ackBody

/-- LEN fits the type (Table 15.3). -/
def plantLen (type len : Nat) : Bool :=
  if type = 1 then len == 24 else if type = 2 then len == 8 else if type = 0x20 then decide (20 ≤ len ∧ len ≤ 36) else false

/-- Checks of a plant message that arrives on a port at a UDP port from a source address (R394). -/
def State.plantMessage (s : State) (ep udp src : Nat) (b : List Byte) : State :=
  let body := b.drop 32
  let type := byteAt b 1
  let onPath := match Fld.plantCfg_PATH s.cfg with | 0 => decide (ep ≤ 1) | 1 => ep == 2 | _ => ep == 3
  let good := onPath && decide (udp = Fld.plantCfg_UDP s.cfg) && decide (32 ≤ b.length) && decide (byteAt b 0 = 1)
    && decide (leAt b 2 2 = body.length) && plantLen type body.length && decide (leAt b 28 4 = crc32c (b.take 28 ++ body)) && eventValid (leAt b 12 8)
  let srcOk := if s.cfg.get Reg.plantSrc = 0 then s.inSubnet ep src else decide (src = (s.cfg.get Reg.plantSrc).toNat)
  let id := (s.cfg.get Reg.plantId).toNat
  if !good then s.ethDrop ep
  else if type = 0x20 then s.takeFrame (if ep ≤ 1 then 1 else 3) body
  else if !srcOk || decide (id = 0 ∨ leAt b 4 4 ≠ id) then s.ethDrop ep
  else if type = 1 then (s.plantDispatch body).ack ep src
  else (s.plantStage body).ack ep src

/-! ### CAN FD (R398 to R407) -/

def State.onCan (s : State) (p : Nat) (f : CanPort → CanPort) : State := s.onPlant (fun x => { x with can := modAt x.can p f })
def State.onObj (s : State) (p o : Nat) (f : CanObj → CanObj) : State := s.onPlant (fun x => { x with objs := modAt x.objs (128 * p + o) f })
def State.canPort (s : State) (p : Nat) : CanPort := s.plant.can.getD p CanPort.reset
def State.canObj (s : State) (p o : Nat) : CanObj := s.plant.objs.getD (128 * p + o) CanObj.reset

/-- The port is on the bus: enabled, not in bus-off, and not in standby (a withdrawn twin, R407). -/
def State.canOn (s : State) (p : Nat) : Bool :=
  Fld.canCfg_EN s.cfg p && !(s.isPair && s.twin.txOff) && decide ((s.canPort p).st < 2)

/-- Error-active at 127 and below in both counters, error-passive above (ISO 11898-1). -/
def CanPort.settle (x : CanPort) : CanPort :=
  if 2 ≤ x.st then x else { x with st := if 127 < x.tec ∨ 127 < x.rec_ then 1 else 0 }

/-- A frame was received without error: the receive error counter falls; from above 127 it returns to a value of 119 to 127 that ISO
11898-1 leaves open. -/
def State.canHeard (s : State) (p : Nat) : State :=
  let back := 119 + (Sys2Proof.Config.freeValue s.free).toNat % 9
  let above := decide (127 < (s.canPort p).rec_)
  let t := s.onCan p (fun x => { x with rec_ := if above then back else x.rec_ - 1 }.settle)
  if above then t.draw else t

/-- A receive object takes the frame (R401): at once, and in the pair from the first grid instant at least 100 µs later (16 R419),
the partner being told. -/
def State.objectTakes (s : State) (r : CanRow) (data : List Byte) (sof : Nat) : State :=
  let d := padTo r.length (data.take r.length)
  let at_ := s.eventAt sof
  if s.isJoined then
    (s.onObj r.port r.obj (fun o => { o with
      lastAt := some s.now, lost := false, next := some (atOrAfter (s.now + 100000) 250000, d, at_) })).pairSend
        (.inputs [.can r.port r.obj s.now at_ d])
  else s.onObj r.port r.obj (fun o => { o with data := d, sof := at_, lastAt := some s.now, lost := false })

/-- The row whose filter takes an identifier: the lowest object number. -/
def State.objectFor (s : State) (p : Nat) (ext : Bool) (ident : Nat) : Option CanRow :=
  (s.canRows.filter (fun r => decide (r.port = p ∧ r.dir = 1 ∧ (r.flags % 2 = 1) = (ext = true)) && decide (Nat.land (Nat.xor ident r.ident) r.mask = 0))).foldl
    (fun m r => match m with | some a => if r.obj < a.obj then some r else some a | none => some r) none

/-- Echo suppression for a transmit object of the twins (R407). -/
def State.echo (s : State) (r : CanRow) (data : List Byte) : State :=
  let o := s.canObj r.port r.obj
  let t := s.onObj r.port r.obj (fun o => { o with heard := some s.now })
  match o.tx with
  | none => t
  | some x =>
    if x.data = data then t.onObj r.port r.obj (fun o => { o with tx := none })
    else
      let u := t.raise Ev.canTwinDiff [r.port, r.obj]
      if s.isJunior then u.onObj r.port r.obj (fun o => { o with tx := none }) else u

/-- A module-protocol frame (Table 15.5). -/
def State.protoFrame (s : State) (p ident : Nat) (data : List Byte) : State :=
  let type := ident / 2 ^ 20 % 64
  let mine := decide (ident % 65536 = s.target % 65536)
  if type = 1 then (if p = Fld.safeCfg_SF_CAN s.cfg then s.takeFrame 2 data else s)
  else if !Fld.canCfg_PROTO s.cfg p || !mine then s
  else if type = 2 ∧ data.length = 24 then (s.plantDispatch data).ackCan p
  else if type = 3 ∧ data.length = 8 then (s.plantStage data).ackCan p
  else s

/-- A frame pending in the controller: its source (object number, or 128 and up for the express buffers), identifier form, and data. -/
structure Offer where
  src   : Nat
  ext   : Bool
  ident : Nat
  data  : List Byte
  deriving DecidableEq, Repr

/-- The arbitration field as a number: the lower one wins; a base identifier wins against an extended one with the same first bits. -/
def Offer.key (x : Offer) : Nat := if x.ext then x.ident / 2 ^ 18 * 2 ^ 19 + 2 ^ 18 + x.ident % 2 ^ 18 else x.ident * 2 ^ 19

/-- What a buffer held at an instant: a frame queued by then, or the one that has since been replaced. -/
def CanTx.at_begin (x : CanTx) (began : Nat) : Option (List Byte) := if x.at_ ≤ began then some x.data else x.old

/-- The frame that an attempt begun at an instant carried (R402): of all pending then, the one that wins arbitration. -/
def State.offered (s : State) (p began : Nat) : Option Offer :=
  let ex := (List.range 3).filterMap (fun i => ((s.canPort p).express.getD i none).bind (fun x =>
    (x.at_begin began).map (fun d => (⟨128 + i, true, x.ident, d⟩ : Offer))))
  let ob := (s.canRows.filter (fun r => decide (r.port = p ∧ r.dir = 2))).filterMap (fun r =>
    let o := s.canObj p r.obj
    let d := match o.tx with
      | some x => x.at_begin began
      | none => o.last.bind (fun x => if began < x.at_ then some x.data else none)
    d.map (fun d => (⟨r.obj, decide (r.flags % 2 = 1), r.ident, d⟩ : Offer)))
  (ex ++ ob).foldl (fun m x => match m with | some a => if x.key < a.key then some x else some a | none => some x) none

/-- After an attempt: a frame that was sent is gone; one that was replaced or cancelled meanwhile is dropped (R403). -/
def CanTx.after (x : CanTx) (began : Nat) (ok : Bool) : Option CanTx :=
  if began < x.at_ then some { x with old := none } else if ok then none else some x

def State.attemptDone (s : State) (p began : Nat) (x : Offer) (ok : Bool) : State :=
  let t := if ok then s.emit (.can p x.ident x.data) else s
  if x.src < 128 then t.onObj p x.src (fun o => { o with tx := o.tx.bind (fun z => z.after began ok), last := none })
  else t.onCan p (fun c => { c with express := modAt c.express (x.src - 128) (fun e => e.bind (fun z => z.after began ok)) })

/-! ### Modbus (R408 to R412) -/

def State.onMb (s : State) (e : Nat) (f : MbEntry → MbEntry) : State := s.onPlant (fun x => { x with mb := modAt x.mb e f })
def State.onSb (s : State) (p : Nat) (f : SbPort → SbPort) : State := s.onPlant (fun x => { x with sb := modAt x.sb p f })
def State.mbEntry (s : State) (e : Nat) : MbEntry := s.plant.mb.getD e MbEntry.reset
def State.sbPort (s : State) (p : Nat) : SbPort := s.plant.sb.getD p SbPort.reset

/-- The entries of a port in the module's scope. -/
def State.portRows (s : State) (p : Nat) : List (Nat × MbRow) := s.mbRows.filter (fun r => decide (r.2.port = p))

/-- The next multiple of its period at which an entry falls due. -/
def MbEntry.nextAt (m : MbEntry) (r : MbRow) (now : Nat) : Option Nat :=
  if r.period = 0 then none
  else match m.nextDue with
    | some t => some t
    | none => some (atOrAfter now (1000000 * r.period))

/-- When the first entry of a port is due. -/
def State.firstDue (s : State) (p : Nat) : Option Nat :=
  (s.portRows p).foldl (fun m e =>
    let x := s.mbEntry e.1
    let t := match x.due with | some a => some a | none => x.nextAt e.2 s.now
    match m, t with
    | some a, some b => some (min a b)
    | some a, none => some a
    | none, t => t) none

/-- An entry at an instant: each multiple of its period that has passed makes it due, or is counted late while it waits. -/
def State.dueEntry (s : State) (p : Nat) (e : Nat × MbRow) : State :=
  let x := s.mbEntry e.1
  match x.nextAt e.2 s.now with
  | none => s
  | some t =>
    let per := 1000000 * e.2.period
    if s.now < t then s.onMb e.1 (fun m => { m with nextDue := some t })
    else
      let n := (s.now - t) / per + 1
      let late := if x.due.isSome then n else n - 1
      (s.onMb e.1 (fun m => { m with due := (match m.due with | some a => some a | none => some t), nextDue := some (t + n * per) })).onSb p
        (fun y => { y with late := satAdd y.late late 2047 })

/-- The entry due earliest, ties to the lower number. -/
def State.earliest (s : State) (p : Nat) : Option (Nat × MbRow) :=
  ((s.portRows p).foldl (fun (m : Option (Nat × (Nat × MbRow))) e => match (s.mbEntry e.1).due, m with
    | some t, some a => if t < a.1 then some (t, e) else some a
    | some t, none => some (t, e)
    | none, m => m) none).map (fun x => x.2)

/-- Master on a port (R412): the senior while in service; the junior alone, or in the solo state after the port's silence. -/
def State.mbMaster (s : State) (p : Nat) : Bool :=
  if !s.isPair then true
  else if s.isSenior then s.inService
  else if s.isAlone then true
  else if s.isSolo then
    let longest := (s.portRows p).foldl (fun m r => max m r.2.period) 0
    (s.sbPort p).master || decide ((s.sbPort p).heard + max 20000000 (2000000 * longest) ≤ s.now)
  else false

/-- A request goes out. -/
def State.mbSend (s : State) (p e : Nat) (r : MbRow) (tries : Nat) : State :=
  let out := r.values (s.mbEntry e).out
  let vals : List Int := if r.reads then [(r.count : Int)] else out.map (fun (v : Nat) => (v : Int))
  let t := s.onSb p (fun x => { x with cur := some (e, tries, s.now), sent := if r.reads then [] else out })
  if (s.sbPort p).master && s.sending then t.emit (.modbus p ([(r.slave : Int), r.func, r.start] ++ vals)) else t

/-- A try fails: it is repeated at once up to RETRY times; then the transaction has failed (R411). -/
def State.mbFail (s : State) (p cause code : Nat) : State := match (s.sbPort p).cur with
  | none => s
  | some (e, tries, _) => match s.mbRow e with
    | none => s.onSb p (fun x => { x with cur := none })
    | some r =>
      if tries < Fld.sbCfg_RETRY s.cfg p then s.mbSend p e r (tries + 1)
      else
        let m := s.mbEntry e
        let lost := decide (r.fails ≤ m.fails + 1)
        let t := (s.onSb p (fun x => { x with cur := none, failed := satAdd x.failed 1 4095 })).onMb e (fun m => { m with
          fails := satAdd m.fails 1 255, lost := m.lost || lost })
        if lost && !m.lost then t.raise Ev.modbusLost [e, cause, code] else t

/-- CRC-16 of the Modbus serial line: reflected polynomial 0xA001, initial value all ones. -/
def crcModbus (l : List Byte) : Nat := l.foldl (fun c b => (List.range 8).foldl
  (fun c _ => if c % 2 = 1 then Nat.xor (c / 2) 0xA001 else c / 2) (Nat.xor c b.toNat)) 0xFFFF

/-- What a reply says: registers read or written, or the cause of EV_MODBUS_LOST and the exception code. -/
def mbReply (r : MbRow) (sent : List Nat) (b : List Byte) (whole : Bool) : Except (Nat × Nat) (List Nat) :=
  let n := b.length - 2
  if !whole || decide (b.length < 5) || decide (leAt b n 2 ≠ crcModbus (b.take n)) then .error (2, 0)
  else if byteAt b 0 ≠ r.slave then .error (3, 0)
  else if byteAt b 1 = r.func + 128 then .error (0, byteAt b 2)
  else if byteAt b 1 ≠ r.func then .error (3, 0)
  else if r.reads then
    if byteAt b 2 = 2 * r.count ∧ n = 3 + 2 * r.count then .ok ((List.range r.count).map (fun i => beAt b (3 + 2 * i) 2)) else .error (3, 0)
  else if n = 6 ∧ beAt b 2 2 = r.start ∧ (if r.func = 6 then beAt b 4 2 = sent.getD 0 0 else beAt b 4 2 = r.count) then .ok sent
  else .error (3, 0)

/-- A successful transaction: the registers are taken, at once or in the pair from a later grid instant (16 R419), and the partner
is told; a lost entry returns. -/
def State.mbDone (s : State) (p e : Nat) (r : MbRow) (regs : List Nat) : State :=
  let m := s.mbEntry e
  let take (x : MbEntry) : MbEntry :=
    if !r.reads then { x with written := some regs }
    else if s.isJoined then { x with next := some (atOrAfter (s.now + 100000) 250000, regs) } else { x with regs := regs }
  let t := (s.onSb p (fun x => { x with cur := none })).onMb e (fun x => { take x with fails := 0, lost := false })
  let t := if s.isJoined && r.reads then t.pairSend (.inputs [.modbus e s.now regs]) else t
  if m.lost then t.raise Ev.modbusReturned [e] else t

end Sys2Proof.Machine
end

