-- ==== Sys2Proof/Machine/Plant.lean ====
section
/-! DEFINITION. Plant port commands (15): Ethernet, PRP, plant messages, CAN FD, Modbus, and the reads that clear their counters. -/
namespace Sys2Proof.Machine

/-! ### Ethernet (R389 to R395) -/

/-- An answer leaves on a port; one of the plant pair on both LANs (R391). -/
def State.ethAnswer (s : State) (ep type : Nat) (fields : List Int) : State :=
  (s.emit (.eth (if ep ≤ 1 then 0 else ep) type fields)).prpTrailer ep

/-- A port has an IPv4 address and may send. -/
def State.answers (s : State) (ep target : Nat) : Bool :=
  s.sending && decide (s.netAddr ep ≠ 0 ∧ target = s.netAddr ep)

/-- ARP_REQUEST (R389): answered for the port's own address. -/
def execArpRequest (ep : Fin 4) (target : Nat) (s : State) : Result :=
  .next (s.ethIn ep (fun t => if t.answers ep target then t.ethAnswer ep 1 [(target : Int)] else t))

/-- The data of an ICMP echo that fit a frame of 1,518 bytes, 20 of IPv4 and 8 of ICMP in it (R389). -/
def icmpMax : Nat := 1472

/-- ICMP_ECHO_REQUEST (R389): the identifier, sequence number and data come back; a longer frame is dropped. -/
def execIcmpEchoRequest (ep : Fin 4) (target : Nat) (ident seq : BitVec 16) (data : List Byte) (s : State) : Result :=
  .next (s.ethIn ep (fun t => if icmpMax < data.length then t.ethDrop ep
    else if t.answers ep target then t.ethAnswer ep 2 ([(ident.toNat : Int), seq.toNat] ++ data.map (fun b => (b.toNat : Int))) else t))

/-- PLANT_MESSAGE (R394, R391, R389): a UDP datagram on a port, from a source address; `rct` is the source MAC address and the sequence
number of a PRP trailer. -/
def execPlantMessage (ep : Fin 4) (udp src : Nat) (rct : Option (Nat × BitVec 16)) (bytes : List Byte) (s : State) : Result :=
  .next (s.ethIn ep (fun t =>
    if t.netAddr ep = 0 ∨ t.inService = false then t.ethDrop ep
    else match (if ep.val ≤ 1 then rct else none) with
      | none => t.plantMessage ep udp src bytes
      | some (mac, seq) =>
        let u := t.lanHeard ep
        if t.prpSeen mac seq.toNat then u else (u.prpNote mac seq.toNat).plantMessage ep udp src bytes))

/-- ETH_LINK_CHANGE (R389): the link comes up, at 1000BASE-T or not, or goes down. -/
def execEthLinkChange (ep : Fin 4) (up gig : Bool) (s : State) : Result :=
  let n := if ep.val ≤ 1 then 0 else ep.val
  let on := up && Fld.netCfg_EN s.cfg n
  .next (s.onEth ep (fun x => { x with link := on, gig := on && gig && !Fld.netCfg_SPEED s.cfg n }))

/-- PRP_SUPERVISION_SEND (R391): every LIFE, on both LANs. -/
def execPrpSupervisionSend (s : State) : Result :=
  let t := s.advance (s.plant.prpSent + 100000000 * Fld.prpCfg_LIFE s.cfg)
  .next (if t.sending && Fld.netCfg_EN t.cfg 0 then
    (t.ethAnswer 0 3 []).onPlant (fun p => { p with prpSent := t.now })
  else t)

/-- PRP_SUPERVISION_RECEIVED (R391, R392): another node's supervision frame on a LAN. -/
def execPrpSupervisionReceived (lan : Fin 2) (mac : Nat) (s : State) : Result :=
  .next (s.ethIn lan (fun t => (t.lanHeard lan).onPlant (fun p => { p with nodes := nodeSeen p.nodes mac t.now })))

/-- The node refreshed longest ago. -/
def oldestNode (l : List (Nat × Nat)) : Option (Nat × Nat) :=
  l.foldl (fun m e => match m with | some a => if e.2 < a.2 then some e else some a | none => some e) none

/-- PRP_NODE_AGED_OUT (R391): a node not refreshed for 60 s leaves the table. -/
def execPrpNodeAgedOut (s : State) : Result :=
  .next (match oldestNode s.plant.nodes with
    | none => s
    | some e => (s.advance (e.2 + 60000000000)).onPlant (fun p => { p with nodes := p.nodes.erase e }))

/-- PRP_LAN_DOWN (R392): no frame with a LAN's identifier for 3 × LIFE. -/
def execPrpLanDown (lan : Fin 2) (s : State) : Result :=
  let x := s.ethPort lan
  .next (match x.lanAt with
    | some t => if x.prpUp then
        ((s.advance (t + 300000000 * Fld.prpCfg_LIFE s.cfg)).onEth lan (fun y => { y with prpUp := false })).raise Ev.prpLanDown [(lan.val : Int)]
      else s
    | none => s)

/-- PRP_LAN_UP (R392): the first frame with the identifier of a down LAN. -/
def execPrpLanUp (lan : Fin 2) (s : State) : Result := .next (s.ethIn lan (fun t => t.lanHeard lan))

/-! ### CAN FD (R397 to R407) -/

/-- CAN_FRAME_RECEIVED (R401, R398, R407): a frame, its form and identifier, the fine-counter time of its start-of-frame edge, its data. -/
def execCanFrameReceived (p : Fin 6) (ext : Bool) (ident sof : Nat) (data : List Byte) (s : State) : Result :=
  .next (if !s.canOn p then s
    else
      let t := s.canHeard p
      if ext && decide (ident / 65536 % 16 = 0xA) then t.protoFrame p ident data
      else
        let u := if t.isPair then (t.canRows.filter (fun r => decide (r.port = p.val ∧ r.dir = 2 ∧ r.ident = ident ∧ (r.flags % 2 = 1) = (ext = true)))).foldl
          (fun v r => v.echo r data) t else t
        match u.objectFor p ext ident with
        | some r => u.objectTakes r data sof
        | none => u)

/-- CAN_OBJECT_TIMEOUT (R401): a receive object has had no frame for PERIOD ms. -/
def execCanObjectTimeout (p : Fin 6) (o : Fin 128) (s : State) : Result :=
  .next (match s.canRow p o with
    | some r => if r.dir = 1 ∧ r.period ≠ 0 ∧ (s.canObj p o).lost = false then
        (s.advance (((s.canObj p o).lastAt.getD s.life.serviceAt) + 1000000 * r.period)).onObj p o (fun x => { x with lost := true })
      else s
    | none => s)

/-- CAN_PERIODIC_QUEUE (R400): at a whole multiple of its PERIOD a periodic transmit object is queued. -/
def execCanPeriodicQueue (p : Fin 6) (o : Fin 128) (s : State) : Result :=
  .next (match s.canRow p o with
    | some r => if r.dir = 2 ∧ r.period ≠ 0 ∧ Fld.canCfg_EN s.cfg p = true then
        let per := 1000000 * r.period
        let a := atOrAfter s.now per
        let a := if (s.canObj p o).qAt = some a then a + per else a
        let t := (s.advance a).onObj p o (fun x => { x with qAt := some a })
        t.canQueue r (padTo r.length (t.canObj p o).out)
      else s
    | none => s)

/-- CAN_ANNOUNCE (R398): at a whole second plus chain address × 10 ms, on a port with ANNOUNCE; not where state reports go out. -/
def execCanAnnounce (p : Fin 6) (s : State) : Result :=
  .next (if Fld.canCfg_ANNOUNCE s.cfg p && !(Fld.canCfg_PROTO s.cfg p && !s.life.guard_) then
    let off := 10000000 * s.chain.addr
    let a := atOrAfter (s.now - off) 1000000000 + off
    let a := if (s.canPort p).annAt = some a then a + 1000000000 else a
    let t := (s.advance a).onCan p (fun x => { x with annAt := some a })
    t.express p 2 (protoIdent 6 6 t.chain.identity) (packBytes [(4, (t.chain.identity.toNat : Int)), (8, (t.life.serial.toNat : Int)),
      (1, (t.life.blHighest : Int)), (1, (t.avail : Int)),
      (1, ((bit (decide (t.chain.addr ≠ 0)) + 2 * bit t.chain.stale + 4 * bit t.life.guard_ : Nat) : Int)), (1, 0)])
  else s)

/-- Counters and state after a successful attempt (R404, R405). -/
def State.attemptOk (s : State) (p : Nat) : State :=
  let alone := (s.canPort p).alone
  let t := s.onCan p (fun x => { x with tec := x.tec - 1, alone := false, ackRun := 0 }.settle)
  if alone then t.raise Ev.canPeer [p] else t

/-- After a failed one, with its error code (Table 15.15) and whether a dominant bit was seen during a passive error flag: above 255 the
controller is bus-off, and recovers at once. -/
def State.attemptErr (s : State) (p err : Nat) (dominant : Bool) : State :=
  let x := s.canPort p
  let spared := decide (err = 3) && decide (x.st = 1) && !dominant
  let tec := if spared then x.tec else x.tec + 8
  let run := if err = 3 then x.ackRun + 1 else 0
  let alone := decide (run = 16) && !x.alone
  let off := decide (255 < tec)
  let t := s.onCan p (fun x => { x with tec := min tec 255, lec := err, ackRun := min run 16, alone := x.alone || alone, st := if off then 3 else x.st, busoff := if off then satAdd x.busoff 1 15 else x.busoff }.settle)
  let t := if alone then t.raise Ev.canAlone [p] else t
  if off then t.raise Ev.canBusOff [p] else t

/-- CAN_TX_ATTEMPT_END (R402 to R405): an attempt that began at a fine-counter time ends; `err` 0 success, else the error as LEC has it;
`dominant`: a dominant bit was seen during the passive error flag. -/
def execCanTxAttemptEnd (p : Fin 6) (began : Nat) (err : Fin 7) (dominant : Bool) (s : State) : Result :=
  .next (if !s.canOn p then s
    else match s.offered p began with
      | none => s
      | some x =>
        let t := s.attemptDone p began x (decide (err.val = 0))
        if err.val = 0 then t.attemptOk p else t.attemptErr p err dominant)

/-- CAN_RECOVERED (R404): 128 occurrences of 11 recessive bits after bus-off. -/
def execCanRecovered (p : Fin 6) (s : State) : Result :=
  .next (if (s.canPort p).st < 2 then s
    else (s.onCan p (fun x => { x with st := 0, tec := 0, rec_ := 0, ackRun := 0 })).raise Ev.canRecovered [(p.val : Int)])

/-! ### Modbus (R408 to R412) -/

/-- MODBUS_POLL (R410, R412): the port is idle, and the entry due earliest starts its transaction. -/
def execModbusPoll (p : Fin 4) (s : State) : Result :=
  .next (if !Fld.sbCfg_EN s.cfg p || (s.sbPort p).cur.isSome || s.twin.txOff then s
    else match s.firstDue p with
      | none => s
      | some t =>
        let u := s.advance t
        let u := (u.portRows p).foldl (fun v e => v.dueEntry p e) u
        let u := u.onSb p (fun x => { x with master := u.mbMaster p })
        match u.earliest p with
        | none => u
        | some (e, r) => (u.onMb e (fun m => { m with due := none })).mbSend p e r 0)

/-- MODBUS_REPLY (R411): a reply frame; `whole`: no gap above 1.5 character times (R408). -/
def execModbusReply (p : Fin 4) (bytes : List Byte) (whole : Bool) (s : State) : Result :=
  .next (match (s.sbPort p).cur with
    | none => s
    | some (e, _, _) => match s.mbRow e with
      | none => s.onSb p (fun x => { x with cur := none })
      | some r => match mbReply r (s.sbPort p).sent bytes whole with
        | .ok regs => s.mbDone p e r regs
        | .error (cause, code) => s.mbFail p cause code)

/-- MODBUS_TIMEOUT (R411): no complete reply within RESP. -/
def execModbusTimeout (p : Fin 4) (s : State) : Result :=
  .next (match (s.sbPort p).cur with
    | none => s
    | some (_, _, t) => (s.advance (t + 10000000 * Fld.sbCfg_RESP s.cfg p)).mbFail p 1 0)

/-- MODBUS_REQUEST_HEARD (R412): the junior hears the senior's request on a port. -/
def execModbusRequestHeard (p : Fin 4) (s : State) : Result := .next (s.onSb p (fun x => { x with heard := s.now }))

/-! ### Reads that clear (19 R478) -/

/-- ETH_STATn (Table 15.13). -/
def EthPort.word (x : EthPort) (n : Nat) : Word :=
  BitVec.ofNat 32 (bit x.link + 2 * bit x.gig + 4 * bit (x.prpUp && decide (n ≤ 1)) + 65536 * x.drops)

/-- CAN_STATn (Table 15.15). -/
def CanPort.word (x : CanPort) : Word :=
  BitVec.ofNat 32 (min x.tec 255 + 256 * min x.rec_ 255 + 65536 * x.st + 262144 * bit x.alone + 524288 * x.lec + 4194304 * x.busoff
    + 67108864 * x.lost + 536870912 * x.overrun)

/-- SB_STATn (Table 15.17). MASTER of a junior is what its last due entry made of it (R412). -/
def State.sbWord (s : State) (p : Nat) : Word :=
  let x := s.sbPort p
  let lost := ((s.portRows p).filter (fun r => (s.mbEntry r.1).lost)).length
  let master := if s.isJunior then x.master else s.mbMaster p
  BitVec.ofNat 32 (bit (master && Fld.sbCfg_EN s.cfg p) + 2 * min lost 255 + 512 * min x.late 2047 + 1048576 * min x.failed 4095)

/-- ETH_STAT_READ: the read clears DROPS. -/
def execEthStatRead (n : Fin 4) (s : State) : Result :=
  .next (s.readReg (Reg.ethStat + 4 * n.val) ((s.ethPort n).word n) (fun t => t.onEth n (fun x => { x with drops := 0 })))

/-- CAN_STAT_READ: the read clears LOST and OVERRUN. -/
def execCanStatRead (n : Fin 6) (s : State) : Result :=
  .next (s.readReg (Reg.canStat + 4 * n.val) (s.canPort n).word (fun t => t.onCan n (fun x => { x with lost := 0, overrun := 0 })))

/-- SB_STAT_READ: the read clears LATE and FAILED. -/
def execSbStatRead (n : Fin 4) (s : State) : Result :=
  .next (s.readReg (Reg.sbStat + 4 * n.val) (s.sbWord n) (fun t => t.onSb n (fun x => { x with late := 0, failed := 0 })))

end Sys2Proof.Machine
end

