-- ==== Sys2Proof/Machine/Recorder.lean ====
section
/-! DEFINITION. Commands of the event recorder (17). -/
namespace Sys2Proof.Machine

/-- Slots of the recorder (R439); the last takes the full marker (R443). -/
def recSlots : Nat := 1048576

/-- An event that gets no record is added to a tally (R442, R443, R445). -/
def Tally.add (t : Tally) (e : Event) : Tally :=
  if t.count = 0 then ⟨1, e.time, e.time, e.sev⟩
  else ⟨satAdd t.count 1 0xFFFFFFFF, min t.earliest e.time, max t.latest e.time, max t.sev e.sev⟩

/-- The suppressed tally keeps the time of the first suppressed event (R443). -/
def Tally.addFirst (t : Tally) (e : Event) : Tally :=
  if t.count = 0 then ⟨1, e.time, e.time, e.sev⟩
  else ⟨satAdd t.count 1 0xFFFFFFFF, t.earliest, max t.latest e.time, max t.sev e.sev⟩

/-- Writes are stopped (R447): a freeze, the bar of 10 R278, a fault of AC2/AC3, a start that has not reached it. -/
def State.recStopped (s : State) : Bool :=
  s.rec_.freezeHost.isSome || s.rec_.freezeSvc.isSome || !s.rec_.started || s.ac23Reloading || s.nvmBarred

def Recorder.full (r : Recorder) : Bool := decide (recSlots ≤ r.slots.length)

/-- DATA of an event: its arguments at their places in 40 bytes (Table 17.4b). -/
def dataBytes (code : Nat) (args : List Int) : List Byte := match Ev.table.find? (fun d => decide (d.code = code)) with
  | some d => (d.args.zip args).foldl (fun l a =>
      l.take a.1.1 ++ packBytes [(a.1.2.1, a.2)] ++ l.drop (a.1.1 + a.1.2.1)) (List.replicate 40 0)
  | none => List.replicate 40 0

/-- The 64 bytes of a record (Table 17.1). -/
def Rec.bytes (r : Rec) : List Byte :=
  sealed (packBytes [(8, r.event.time), (4, r.rseq.toNat), (4, r.ident.toNat), (1, ((r.event.code / 256 : Nat) : Int)),
    (1, ((r.event.sev + 8 * bit r.solo + 16 * bit r.late : Nat) : Int)), (2, r.event.code)] ++ dataBytes r.event.code r.event.args)

/-- The EVENT message and the event stream carry every written record (15 R395, R448). -/
def State.publish (s : State) (r : Rec) : State :=
  let t := s.release 2 ⟨8, 64, r.event.time, r.bytes⟩
  if Fld.plantCfg_EVT t.cfg && decide (Fld.plantCfg_SEV t.cfg ≤ r.event.sev) then
    t.plantSend 0x12 r.bytes
  else t

/-- A record is written to the next slot, its RSEQ assigned now (R440). -/
def State.writeRec (s : State) (e : Event) (late : Bool) : State :=
  let r : Rec := ⟨s.rec_.nextRseq, s.chain.identity, e, s.isSolo, late⟩
  { s with rec_ := { s.rec_ with
      slots := s.rec_.slots ++ [r]
      firstRseq := if s.rec_.slots.isEmpty then r.rseq else s.rec_.firstRseq
      nextRseq := s.rec_.nextRseq + 1 } }.publish r

/-- An event reaches the slots: suppressed while full (R443), else written; the record before the last slot brings the
full marker with it. `counted` is false for the recorder's own records (R444). -/
def State.store (s : State) (e : Event) (late counted : Bool) : State :=
  if s.rec_.full then
    { s with rec_ := { s.rec_ with
        suppressed := s.rec_.suppressed.addFirst e
        nSuppressed := if counted then s.rec_.nSuppressed + 1 else s.rec_.nSuppressed } }
  else
    let t := s.writeRec e late
    let u := { t with rec_ := { t.rec_ with nWritten := if counted then t.rec_.nWritten + 1 else t.rec_.nWritten } }
    if u.rec_.slots.length + 1 = recSlots then
      u.writeRec ⟨eventOf u.sysNs, Ev.recorderFull.code, Ev.recorderFull.sev,
        [match u.rec_.slots.head? with | some r => (r.event.time : Int) | none => 0]⟩ false
    else u

/-- The newest queued event of a severity below sev. -/
def displacedBelow (l : List Event) (sev : Nat) : Option Nat :=
  (List.range l.length).foldl (fun a i => match l[i]? with | some e => if e.sev < sev then some i else a | none => a) none

/-- The event of a clear is the recorder's own: R444 counts it on neither side. -/
def State.overflowed (s : State) (e : Event) : State :=
  { s with rec_ := { s.rec_ with
      overflow := s.rec_.overflow.add e
      nOverflowed := if e.code = Ev.recorderCleared.code then s.rec_.nOverflowed else s.rec_.nOverflowed + 1 } }

/-- An event waits in the holding queue, which holds 4,096 (R442). -/
def State.hold (s : State) (e : Event) : State :=
  if s.rec_.holding.length < 4096 then { s with rec_ := { s.rec_ with holding := s.rec_.holding ++ [e] } }
  else match (if 5 ≤ e.sev then displacedBelow s.rec_.holding e.sev else none) with
    | some i => match s.rec_.holding[i]? with
      | some v => { s with rec_ := { s.rec_ with holding := s.rec_.holding.eraseIdx i ++ [e] } }.overflowed v
      | none => s.overflowed e
    | none => s.overflowed e

/-- RECORDER_WRITE (R440 to R443): the oldest detected event is written, held, overflowed or suppressed. -/
def State.takeEvent (s : State) : State :=
  match s.rec_.detected with
  | [] => s
  | e :: rest =>
    let t := { s with rec_ := { s.rec_ with detected := rest, nDetected := s.rec_.nDetected + 1 } }
    if t.recStopped || !t.rec_.holding.isEmpty then t.hold e else t.store e false true

def execRecorderWrite (s : State) : Result := .next s.takeEvent

/-- The queue is written in order with SEV bit 4, then any overflow record, and the counts restart (R442). -/
def State.drainHolding (s : State) : State :=
  let t := s.rec_.holding.foldl (fun u e => u.store e true (decide (e.code ≠ Ev.recorderCleared.code)))
    { s with rec_ := { s.rec_ with holding := [] } }
  let o := t.rec_.overflow
  if o.count = 0 then t
  else { t with rec_ := { t.rec_ with overflow := Tally.zero } }.store
    ⟨eventOf t.sysNs, Ev.recorderOverflow.code, Ev.recorderOverflow.sev, [(o.count : Int), o.earliest, o.latest, o.sev, 0]⟩ false false

def execRecorderResume (s : State) : Result := .next (if s.recStopped then s else s.drainHolding)

/-- Events queued, the recorder's own left out (R444). -/
def Recorder.queued (r : Recorder) : Nat := (r.holding.filter (fun e => decide (e.code ≠ Ev.recorderCleared.code))).length

/-- RECORDER_COUNT_CHECK (R444): the conservation equation, every second. -/
def Recorder.conserved (r : Recorder) : Bool :=
  decide (r.nDetected = r.nWritten + r.queued + r.nOverflowed + r.nSuppressed + r.nLost)

def execRecorderCountCheck (second : Nat) (s : State) : Result :=
  let t := s.advance (second * 1000000000)
  .next (if t.rec_.conserved then t
    else { t with rec_ := { t.rec_ with countErr := true } }.raise Ev.recorderCount
      [t.rec_.nDetected, t.rec_.nWritten, t.rec_.queued, t.rec_.nOverflowed, t.rec_.nSuppressed, t.rec_.nLost])

/-- CLEAR_REGISTER_POINTER (R446): the header's write pointer, every second. -/
def execClearRegisterPointer (second : Nat) (s : State) : Result :=
  let t := s.advance (second * 1000000000)
  .next (if t.nvmBarred then t else { t with rec_ := { t.rec_ with hdrNext := t.rec_.slots.length } })

/-- FREEZE_TIMEOUT (R447): the freeze of the host or of the service port ends by itself. -/
def execFreezeTimeout (svc : Bool) (s : State) : Result :=
  .next (match (if svc then s.rec_.freezeSvc else s.rec_.freezeHost) with
    | some till =>
      let t := s.advance till
      { t with rec_ := { t.rec_ with
          freezeHost := if svc then t.rec_.freezeHost else none
          freezeSvc := if svc then none else t.rec_.freezeSvc } }.raise Ev.recorderThawed [bit svc]
    | none => s)

/-! ### The RECORDER command (R447 to R449): shared by the host and the service port -/

def State.freezeUntil (s : State) : Nat := s.now + Fld.recCfg_FREEZE_S s.cfg * 1000000000

/-- A read by a holder restarts its own timer. -/
def State.touchFreeze (s : State) (svc : Bool) : State :=
  if svc then { s with rec_ := { s.rec_ with freezeSvc := s.rec_.freezeSvc.map (fun _ => s.freezeUntil) } }
  else { s with rec_ := { s.rec_ with freezeHost := s.rec_.freezeHost.map (fun _ => s.freezeUntil) } }

/-- READ: records held from the first RSEQ on, at most count. -/
def recorderRead (svc : Bool) (s : State) (d : Desc) : Verdict :=
  let first := BitVec.ofNat 32 (d.argLe 4 4)
  let count := d.argLe 8 4
  let i := (first - s.rec_.firstRseq).toNat
  if count = 0 ∨ 262144 < count then .refuse St.fieldRange 40
  else if s.rec_.slots.length ≤ i then .refuse St.recGone 0
  else
    let recs := (s.rec_.slots.drop i).take count
    .accept (64 * recs.length) false (recs.flatMap Rec.bytes) (s.touchFreeze svc)

def recorderFreeze (svc : Bool) (s : State) (_ : Desc) : Verdict :=
  .accept 0 false [] (if svc then { s with rec_ := { s.rec_ with freezeSvc := some s.freezeUntil } }
    else { s with rec_ := { s.rec_ with freezeHost := some s.freezeUntil } })

def recorderThaw (svc : Bool) (s : State) (_ : Desc) : Verdict :=
  match (if svc then s.rec_.freezeSvc else s.rec_.freezeHost) with
  | none => .refuse St.recNotFrozen 0
  | some _ => .accept 0 false [] (if svc then { s with rec_ := { s.rec_ with freezeSvc := none } }
    else { s with rec_ := { s.rec_ with freezeHost := none } })

/-- CLEAR (R449): the named RSEQ is the last written; a free entry of the clear register; no bar. -/
def recorderClear (svc : Bool) (s : State) (d : Desc) : Verdict :=
  let last := BitVec.ofNat 32 (d.argLe 4 4)
  if last ≠ s.rec_.nextRseq - 1 then .refuse St.recClearStale 0
  else if 64 ≤ s.rec_.clears.length then .refuse St.clearRegisterFull 0
  else if s.nvmBarred then .refuse St.nvmBarred 0
  else
    let entry : ClearEntry :=
      { time := eventOf s.sysNs
        first := if s.rec_.slots.isEmpty then s.rec_.nextRseq else s.rec_.firstRseq
        last := last
        suppressed := s.rec_.suppressed.count
        suppTime := s.rec_.suppressed.earliest
        slot := byteAt d.data d.trailer
        nonce := leAt d.data (d.trailer + 16) 8
        ident := s.chain.identity }
    let undelivered := s.backlog 2
    let t := { s with rec_ := { s.rec_ with
      clears := s.rec_.clears ++ [entry], suppressed := Tally.zero, slots := [], firstRseq := s.rec_.nextRseq, hdrNext := 0 } }
    let u := t.setBacklog 2 (fun _ => ⟨[], undelivered.recs.foldl noteLost undelivered.lost⟩)
    let ev : Event := ⟨eventOf s.sysNs, Ev.recorderCleared.code, Ev.recorderCleared.sev, [s.rec_.clears.length]⟩
    .accept 0 false [] ((if u.recStopped || !u.rec_.holding.isEmpty then u.hold ev else u.store ev false false).touchFreeze svc)

/-- An entry of the clear register, 64 bytes. -/
def ClearEntry.bytes (e : ClearEntry) : List Byte :=
  sealed (packBytes [(8, e.time), (4, e.first.toNat), (4, e.last.toNat), (4, e.suppressed), (8, e.suppTime), (1, e.slot), (3, 0), (8, e.nonce),
    (4, e.ident.toNat), (16, 0)])

/-- CLEAR_REG: the header and 64 entries (Table 17.6). -/
def recorderClearReg (svc : Bool) (s : State) (_ : Desc) : Verdict :=
  .accept 4160 false
    (padTo 4160 (sealed (packBytes [(4, s.rec_.hdrNext), (4, s.rec_.firstRseq.toNat), (4, s.rec_.suppressed.count),
      (8, s.rec_.suppressed.earliest), (1, s.rec_.suppressed.sev), (1, s.rec_.clears.length), (2, 0), (4, s.rec_.powerLoss.count),
      (8, s.rec_.powerLoss.earliest), (8, s.rec_.powerLoss.latest), (1, s.rec_.powerLoss.sev), (15, 0)])
      ++ s.rec_.clears.flatMap ClearEntry.bytes)) (s.touchFreeze svc)

/-- CODES: the code table, 64 bytes an entry (Table 17.4): code, source, severity, name and argument descriptors. -/
def EvDef.bytes (e : EvDef) : List Byte :=
  padTo 64 (packBytes [(2, e.code), (1, ((e.code / 256 : Nat) : Int)), (1, e.sev)]
    ++ padTo 32 (e.name.toList.map (fun c => BitVec.ofNat 8 c.toNat))
    ++ e.args.flatMap (fun a => packBytes [(1, a.1), (1, a.2.1), (1, a.2.2), (1, 0)]))

def recorderCodes (svc : Bool) (s : State) (_ : Desc) : Verdict :=
  .accept (64 * Ev.table.length) false (Ev.table.flatMap EvDef.bytes) (s.touchFreeze svc)

def execRecorderRead (q : Fin 32) (s : State) : Result := .next (s.hostRow q 0x60 (op0 1) (recorderRead false))
def execRecorderFreeze (q : Fin 32) (s : State) : Result := .next (s.hostRow q 0x60 (op0 2) (recorderFreeze false))
def execRecorderThaw (q : Fin 32) (s : State) : Result := .next (s.hostRow q 0x60 (op0 3) (recorderThaw false))
def execRecorderClear (q : Fin 32) (s : State) : Result := .next (s.hostRow q 0x60 (op0 4) (recorderClear false))
def execClearReg (q : Fin 32) (s : State) : Result := .next (s.hostRow q 0x60 (op0 5) (recorderClearReg false))
def execCodes (q : Fin 32) (s : State) : Result := .next (s.hostRow q 0x60 (op0 6) (recorderCodes false))

end Sys2Proof.Machine
end

