-- ==== Sys2Proof/Machine/Digest.lean ====
section
/-! DEFINITION. What the twins compare and carry over (16 R416, Tables 16.3, 16.6): the digests and the snapshot. The byte layouts under
the digests and of the snapshot's items are not given: they are constants with no body. -/
namespace Sys2Proof.Machine

/-- The stage's state as both twins hold it: without what each keeps of its own circuits and records. -/
def Gate.common (x : Gate) : Gate :=
  { x with
    slots := [], newBits := [], captures := [], ring := []
    receivers := x.receivers.map (fun r => { r with miswired := false, seen1 := 0, seen2 := 0, delay := 0, delaySum := 0, delayN := 0, statusAt := 0, confAt := 0 })
    phases := x.phases.map (fun p => { p with noPeer := 0, rxAt := 0 }) }

/-- The loop's: traces are each twin's own. -/
def Loop.common (x : Loop) : Loop := { x with diags := [] }

/-- The safety state's: the safe state and what the engines make of the agreed results; inputs, loops, outputs and frames are each twin's
own, and so is the cause of a demand that came from them. -/
def SafetyEng.common (x : SafetyEng) : SafetyEng := { x with running := true, demand := x.demand.take 7, inputs := [], loops := [] }
def Safety.common (x : Safety) : Safety := { Safety.reset with engA := x.engA.common, engB := x.engB.common, safe := x.safe }

/-- A partner's ring state beside this twin's own ports. -/
def RingLine.onOwn (x mine : RingLine) : RingLine :=
  { x with los := mine.los, crcErr := mine.crcErr, miswired := mine.miswired, tokenAt := mine.tokenAt, tokenCnt := mine.tokenCnt }
def Ring.onOwn (x mine : Ring) : Ring :=
  { x with lines := x.lines.zipWith RingLine.onOwn mine.lines, tcnt := mine.tcnt, lost := mine.lost }

/-- What a state digest covers (16 R416). -/
structure Digested where
  image   : Option Image
  est     : List EstCell
  copies  : List (Option SavedCopy)
  gate    : Gate
  loop    : Loop
  safety  : Safety
  active  : RegBank
  images  : List Word
  deriving DecidableEq, Repr

/-- The items of catch-up (16 Table 16.6): what the partner's state replaces. -/
structure Items where
  active  : RegBank
  staged  : RegBank
  blocks  : List (Nat × List Byte)
  blocksAct : List (Nat × List Byte)
  stored  : RegBank
  storedBlk : List (Nat × List Byte)
  nonces  : List Nat
  prog    : Prog
  ledger  : Ledger
  est     : Est
  ring    : Ring
  meas    : Meas
  gate    : Gate
  loop    : Loop
  disp    : Disp
  therm   : Therm
  safety  : Safety
  plant   : Plant
  profile : Nat
  sweepUs : Nat
  /-- the behaviour level -/
  level   : Nat
  /-- opening time of the exposure window (20 R498) -/
  openAt  : Option Nat
  deriving DecidableEq, Repr

end Sys2Proof.Machine

namespace Sys2Proof.Config
open Sys2Proof.Machine

/-- The CRC-32C of 16 R416 over what the twins' state digest covers. -/
opaque stateDigest : Digested → BitVec 32

/-- The CRC-32C of 16 R416 over every frame released and every pin level set in one grid interval, oldest first. -/
opaque outputDigest : List Out → BitVec 32

/-- The bytes of an item of the snapshot, 1 to 9 in the order of Table 16.6, and what the items loaded stand for; none: they do not make
up a snapshot. -/
opaque snapshotBytes : Items → (item : Nat) → List Byte
opaque snapshotItems : List (Nat × List Byte) → Option Items

/-- The digest of the key set in the one-time-programmable store (16 R431). -/
opaque keyDigest : List KeySlot → BitVec 32

end Sys2Proof.Config
end

