-- ==== Sys2Proof/Machine/Ring.lean ====
section
/-! DEFINITION. Commands of the cell ring (04). -/
namespace Sys2Proof.Machine

/-! ### Launching (R94, R106 to R109) -/

/-- The token's state byte (Table 4.11). -/
def State.tokenState (s : State) : Nat := bit s.inService + 2 * bit s.isSolo + 4 * bit s.time.leader

/-- The command area of the station at a position. -/
def State.areaAt (s : State) (r p : Nat) : List Byte := match s.stationAt r p with
  | some k => (s.station k).area r p
  | none => commandArea r p 0 0 0

/-- The presence token (Table 4.11). -/
def State.token (s : State) : List Byte :=
  let t := packBytes [(4, s.chain.identity.toNat), (1, s.tokenState), (1, s.ring.tcnt.toNat)]
  t ++ toLe (crc16 t) 2

/-- The slots of a SWEEP or CATCHUP frame, or the command areas of a PILOT frame, as they leave the module: in a slot the area, then
zeros, FILLED among them (Tables 4.5, 4.6). -/
def State.frameBody (s : State) (r type : Nat) (ps : List Nat) : List Byte :=
  ps.flatMap (fun p => s.areaAt r p ++ if type = 2 then [] else List.replicate 136 0)

/-- A frame is launched for positions that follow one another in the order of its end (R92): header, body and token. -/
def State.launch (s : State) (r : Nat) (e : End) (type grid time : Nat) (ps : List Nat) : State :=
  s.emit (.ring r e (ringHeader type e s.isSolo r s.cls (ps.headD 0) ps.length grid time ++ s.frameBody r type ps ++ s.token))

/-- Positions in the order an end serves them (R92). -/
def order (e : End) (ps : List Nat) : List Nat := match e with
  | .a => ps
  | .b => ps.reverse

/-- The positions an end reaches. -/
def State.reached (s : State) (r : Nat) (e : End) : List Nat :=
  let n := s.ringCount r
  match e with
  | .a => List.range (s.line r).reachA
  | .b => (List.range (s.line r).reachB).map (fun i => n - 1 - i)

/-- What an end launches on a ring at a grid instant. -/
def State.launchEnd (s : State) (g : Nat) (sweep : Bool) (r : Nat) (e : End) : State :=
  let l := s.line r
  let all := order e (List.range (s.ringCount r))
  let runs := decide (l.st = .normal ∨ l.st = .degraded ∨ l.st = .down) && decide (l.startAt ≤ g)
  if !runs || !s.ownsEnd e || (!s.sending && s.inService) then s
  else if sweep && (l.st = .degraded) then s.launch r e 1 g (g + 20000) (s.reached r e)
  else if sweep && decide (s.collectingEnd = e) then s.launch r e 1 g (g + 20000) all
  else s.launch r e 2 g (g + 20000) all

/-- CAN objects and Modbus replies that the pair uses from this grid instant (16 R419). -/
def State.gridInputs (s : State) (g : Nat) : State :=
  { s with plant := { s.plant with
      objs := s.plant.objs.map (fun o => match o.next with
        | some (t, d, f) => if t ≤ g then { o with data := d, sof := f, next := none } else o
        | none => o)
      mb := s.plant.mb.map (fun m => match m.next with
        | some (t, r) => if t ≤ g then { m with regs := r, next := none } else m
        | none => m) } }

/-- An output that both twins release (16 R422). -/
def Out.shared : Out → Bool
  | .ring .. | .ringService .. | .gate .. | .gateConfig .. | .plant .. | .can .. | .dio .. | .fan .. => true
  | _ => false

/-- In the pair, at a grid instant: the output digest of the interval that ends, and the INPUTS frame with the DIO samples, the MT readings
and that digest (16 R416, Table 16.2). -/
def State.closeInterval (s : State) (g : Nat) (dio : BitVec 16) : State :=
  if !s.isPair then s
  else
    let d := Sys2Proof.Config.outputDigest ((s.out.take (s.out.length - s.twin.outMark)).reverse.filter Out.shared)
    let mt := (s.therm.sensors.drop 256).map (fun x => x.own)
    (s.onTwin (fun x => { x with outDigest := some (g, d), outMark := s.out.length })).pairSend
      (.inputs [.dio g dio, .mt mt, .digest g d])

/-- At the sweep instant for which it was set the ring is normal again (R110). -/
def State.restoreLine (s : State) (g r : Nat) : State :=
  match (s.line r).restoreAt with
  | some t =>
    let n := s.ringCount r
    if t ≤ g ∧ g % 4000000 = 0 then (s.onLine r (fun l => { l with
      st := .normal, reachA := n, reachB := n, breakPos := 7, wholeSince := none, untold := none, restoreAt := none })).raise
        Ev.ringRestored [r]
    else s
  | none => s

/-- The mean bus voltage of the sweep interval that ends (09 R233). -/
def State.latchBus (s : State) : State :=
  s.onLoop (fun l => { l with
    busMean := if l.busN = 0 then 0 else Sys2Proof.Config.quot l.busSum l.busN, busSum := 0, busN := 0 })

/-- Fluxgate readings kept: 4 s, or as far back as booking still has to go (07 R201). -/
def State.fgKept (s : State) (g : Nat) : Nat :=
  let l := s.ledger
  let from_ := if l.gap.isSome then l.gapFrom.getD g else if l.booked = 0 then g else l.booked
  max 16000 ((g - from_) / 250000 + 1)

/-- GRID_INSTANT (R94, R69, R98, 05 R122, 02 R52, 13 R335): the next grid instant, with the mean FGI voltage of the interval that
ends at it and the levels of the DIO pins. Each station is issued at most one command, each owned end launches its frames,
and at a sweep instant a sweep begins. -/
def execGridInstant (fgi : Int) (dio : BitVec 16) (s : State) : Result :=
  let g := max (atOrAfter s.now 250000) (s.ring.grid + 250000)
  let s : State := (s.advance g).impTick g
  let s : State := match s.fabric.sweepNext with
    | some p => if g % 4000000 = 0 then { s with fabric := { s.fabric with sweepUs := p, sweepNext := none } } else s
    | none => s
  let sweep := decide (g % (s.fabric.sweepUs * 1000) = 0)
  let fg := s.fluxgate fgi
  let s : State := if sweep then (List.range 8).foldl (fun t r => t.restoreLine g r) s else s
  let s : State := { s with ring := { s.ring with
    grid := g, tcnt := s.ring.tcnt + 1
    stations := s.ring.stations.map Station.issue
    fg := match fg with | some i => (i :: s.ring.fg).take (s.fgKept g) | none => []
    lines := if sweep then s.ring.lines.map (fun (l : RingLine) => { l with seenAB := false, seenBA := false }) else s.ring.lines
    cur := if sweep && s.ring.lines.any (fun (l : RingLine) => decide (l.st ≠ .off ∧ l.startAt ≤ g)) && s.inService then
        some ⟨g, List.replicate 34 none, List.replicate 34 none, fg⟩ else s.ring.cur } }
  let s : State := ((s.onProg (fun p => { p with dio := dio, dioOwn := dio })).gridInputs g).closeInterval g dio
  let s : State := if sweep then s.latchBus else s
  .next ((List.range 8).foldl (fun t r => (t.launchEnd g sweep r .a).launchEnd g sweep r .b) s)

/-- RETURN_TIMEOUT (R106): no SWEEP start has reached the far end: it launches a reverse SWEEP with slots for every
station. -/
def execReturnTimeout (r : Fin 8) (s : State) : Result :=
  let far : End := match s.collectingEnd with | .a => .b | .b => .a
  let l := s.line r
  let seen := match s.collectingEnd with | .a => l.seenAB | .b => l.seenBA
  .next (match s.ring.cur with
    | some w =>
      if s.ac01Reloading = false ∧ l.st = .normal ∧ s.ownsEnd far = true ∧ seen = false then
        let t := s.advance (w.at_ + 20000 + Fld.ringCfg_RET_TIMEOUT s.cfg * 1000 + 1000)
        t.launch r far 1 w.at_ (w.at_ + 21000 + Fld.ringCfg_RET_TIMEOUT s.cfg * 1000) (order far (List.range (s.ringCount r)))
      else s
    | none => s)

/-! ### Receiving (R91, R102, R107) -/

/-- Number of an end in a frame's DIR bit. -/
def dirEnd (b : Nat) : End := if b / 16 % 2 = 0 then .a else .b

/-- A presence token (R102): a valid partner token; in the single configuration the B-end's own one confirms the B-to-A direction and
nothing else. -/
def State.takeToken (s : State) (r : Nat) (from_ : End) (b : List Byte) : State :=
  let cnt := b.getD 5 0
  let ident := if s.isPair then s.partnerIdent else s.chain.identity
  if crc16 (slice b 0 6) ≠ leAt b 6 2 ∨ leAt b 0 4 ≠ ident.toNat ∨ (s.line r).tokenCnt = some cnt then s
  else if s.isPair then
    let t := s.onLine r (fun l => { l with tokenAt := some s.now, tokenCnt := some cnt })
    { t with ring := { t.ring with lost := false } }
  else if from_ = .b then s.onLine r (fun l => { l with tokenCnt := some cnt, baOk := true })
  else s

/-- A frame crossed the ring unwrapped to the other end. One cut short is a break whose place is not known yet (R107). In the single
configuration the B-to-A direction is good only by its token. -/
def State.crossed (s : State) (r : Nat) (from_ : End) (whole : Bool) : State :=
  let s := s.onLine r (fun l => match from_ with
    | .a => { l with seenAB := true, abOk := whole }
    | .b => { l with seenBA := true, baOk := whole && (s.isPair || l.baOk) })
  let l := s.line r
  let both := s.isPair || (l.abOk && l.baOk)
  if !whole then (s.onLine r (fun l => { l with wholeSince := none, restoreAt := none })).breakUnplaced r
  else if both && decide (l.st = .degraded ∨ l.st = .down) && l.wholeSince.isNone then
    s.onLine r (fun l => { l with st := .degraded, wholeSince := some s.now })
  else s

/-- A frame came back wrapped: a break after WPOS seen from the A-end, before it seen from the B-end; none where the
partner's end is dark, from its notice of withdrawal on, and the far station wrapped it (R109). -/
def State.wrapped (s : State) (r : Nat) (from_ : End) (wpos : Nat) : State :=
  let n := s.ringCount r
  let l := s.line r
  let farthest := match from_ with | .a => n - 1 | .b => 0
  if s.partnerDark && decide (wpos = farthest) then s
  else
    let s := s.onLine r (fun l => match from_ with | .a => { l with abOk := false } | .b => { l with baOk := false })
    match from_ with
    | .a =>
      let b := if l.st = .degraded then min l.reachB (n - 1 - wpos) else n - 1 - wpos
      s.degrade r (wpos + 1) b
    | .b =>
      let a := if l.st = .degraded then min l.reachA wpos else wpos
      s.degrade r a (n - wpos)

/-- The slots of a SWEEP or CATCHUP frame are taken one after another. -/
def State.takeSlots (s : State) (r : Nat) (from_ : End) (first count grid : Nat) (late : Bool) (receipt : Nat) (b : List Byte) : State :=
  (List.range count).foldl (fun t i =>
    let p := match from_ with | .a => first + i | .b => first - i
    t.takeSlot r p grid late (decide (from_ = .b)) receipt (slice b (16 + 144 * i) 144)) s

/-- RING_FRAME_RECEIVED (R91, R107): the bytes between the delimiters, or those that arrived of a frame cut short, at
the port of an end. A frame at a port the configuration leaves unused is a miswired ring (01 R22). DEDUCED: such a
frame is what detects the live partner, and it is recorded once per ring until the next ring start (log 15). -/
def execRingFrameReceived (r : Fin 8) (e : End) (bytes : List Byte) (cut : Bool) (s : State) : Result :=
  .next (if !s.ownsEnd e then
      if (s.line r).miswired then s
      else (s.onLine r (fun l => { l with miswired := true })).raise Ev.ringMiswired [r.val, endIdx e]
    else if bytes.length < 16 ∨ crc16 (slice bytes 0 14) ≠ leAt bytes 14 2 then
      s.onLine r (fun l => { l with crcErr := min 65535 (l.crcErr + 1) })
    else if byteAt bytes 1 % 8 ≠ r.val ∨ (s.line r).st = .off ∨ (s.line r).st = .refused then s
    else
      let type := byteAt bytes 0 % 16
      let from_ := dirEnd (byteAt bytes 0)
      let wrap := byteAt bytes 0 / 32 % 2 = 1
      let first := byteAt bytes 2 % 8
      let count := byteAt bytes 2 / 8 % 8
      let grid := leAt bytes 4 2
      let len := if type = 2 then 8 else 144
      let s := if !cut ∧ wrap = false ∧ from_ ≠ e ∧ (type = 1 ∨ type = 2 ∨ type = 3) ∧ 24 + len * count ≤ bytes.length then
          s.takeToken r from_ (slice bytes (16 + len * count) 8) else s
      let s := if wrap then (if from_ = e then s.wrapped r from_ (byteAt bytes 3 % 8) else s)
        else if from_ ≠ e then s.crossed r from_ (!cut) else s
      let s := if type = 1 ∨ type = 3 then s.takeSlots r from_ first count grid (decide (type = 3)) s.now bytes else s
      if (type = 1 ∨ type = 3) ∧ s.isPair then
        s.pairSend (.slots ([(r.val : Int), endIdx from_, type, first, count, grid, s.now] ++ (bytes.drop 16).map (fun x => (x.toNat : Int))))
      else s)

/-- Positions in rising or falling order cut into runs that follow one another. -/
def runsOf : List Nat → List (List Nat)
  | [] => []
  | p :: l => match runsOf l with
    | (q :: m) :: rest => if q = p + 1 ∨ p = q + 1 then (p :: q :: m) :: rest else [p] :: (q :: m) :: rest
    | rest => [p] :: rest

/-- CATCHUP_LAUNCH (R108, R92): in spare time an end that reaches the stations launches CATCHUP frames for the oldest owed grid instant,
one for each run of positions that follow one another. -/
def execCatchupLaunch (r : Fin 8) (e : End) (s : State) : Result :=
  let onRing := s.ring.owed.filter (fun o => match s.placeOf o.station with
    | some (q, p) => decide (q = r.val) && (decide ((s.line r).st = .normal) || (s.reached r e).contains p)
    | none => false)
  .next (if !s.ownsEnd e || !s.sending then s
    else match onRing.foldl (fun (m : Option Nat) o => match m with
        | some t => some (if o.at_ < t then o.at_ else t)
        | none => some o.at_) none with
      | none => s
      | some t =>
        let ps := (List.range (s.ringCount r)).filter (fun p => onRing.any (fun o => decide (o.at_ = t ∧ s.placeOf o.station = some (r.val, p))))
        (runsOf (order e ps)).foldl (fun u run => u.launch r e 3 t u.now run) s)

/-! ### Signals and states (R89, R102, R110) -/

/-- LOSS_OF_SIGNAL (R89, R107): the port of an end hears nothing; that end reaches no station. -/
def execLossOfSignal (r : Fin 8) (e : End) (s : State) : Result :=
  let s := s.onLine r (fun l => { l with los := l.los.set (endIdx e) true })
  let l := s.line r
  let n := s.ringCount r
  .next (if !s.ownsEnd e || !decide (l.st = .normal ∨ l.st = .degraded) then s
    else
      let s := s.onLine r (fun l => match e with | .a => { l with baOk := false } | .b => { l with abOk := false })
      match e with
      | .a => s.degrade r 0 (if l.st = .degraded then l.reachB else n)
      | .b => s.degrade r (if l.st = .degraded then l.reachA else n) 0)

/-- LOSS_OF_SIGNAL_CLEARED (R89). -/
def execLossOfSignalCleared (r : Fin 8) (e : End) (s : State) : Result :=
  .next (s.onLine r (fun l => { l with los := l.los.set (endIdx e) false }))

/-- RING_PRESENCE_TIMEOUT (R102): no valid partner token on any ring within TOKEN_MS. -/
def execRingPresenceTimeout (s : State) : Result :=
  .next (if s.isPair && !s.ringPath then { s with ring := { s.ring with lost := true } } else s)

/-- RING_RESTORE (R110): after 1 s of whole unwrapped crossings the ring is normal from the next sweep instant that is a
whole multiple of 4 ms; until then it stays degraded and its ends collect as before. -/
def execRingRestore (r : Fin 8) (s : State) : Result :=
  let l := s.line r
  .next (match l.wholeSince with
    | some t =>
      if l.st = .degraded ∧ t + 1000000000 ≤ s.now then
        s.onLine r (fun l => { l with restoreAt := some (atOrAfter s.now 4000000) })
      else s
    | none => s)

/-! ### Ring start (R103, Table 4.12) -/

/-- RING_START (R103, R115): the ring's ports come up and DISCOVER leaves each owned end 1 ms later. A ring with no
mapped stations stays off (01 R24). Balance leads judged open may be commanded again (05 R141). -/
def State.ringStart (s : State) (r : Nat) : State :=
  if mapCommitted s.cfg && decide (s.ringCount r = 0) then s.onLine r (fun _ => RingLine.reset)
  else
    let s := s.onLine r (fun l => { RingLine.reset with st := .start, crcErr := l.crcErr, los := l.los })
    let mine := (s.map.filter (fun m => decide (m.2.1 = r))).map (fun m => m.1)
    let s := { s with
      ring := { s.ring with stations := mapIdxL (fun k (x : Station) => if mine.contains k then { Station.reset with delay := x.delay } else x) s.ring.stations }
      meas := { s.meas with cells := mapIdxL (fun c (x : Cell) => if mine.contains (c / 16) then { x with leadOpen := false, leadRun := 0 } else x) s.meas.cells } }
    let t := if s.ownsEnd .a then s.ringService r .a 4 0 [] else s
    if s.ownsEnd .b then t.ringService r .b 4 0 [] else t

def execRingStart (r : Fin 8) (s : State) : Result := .next (s.ringStart r)

/-- Stations found from an end, and whether its DISCOVER has returned. -/
def RingLine.foundOf (l : RingLine) (e : Nat) : List Found := (l.found.getD e none).getD []

/-- The number of stations of the ring (R103). -/
def State.ringNumber (s : State) (r : Nat) : Nat :=
  let l := s.line r
  if mapCommitted s.cfg then s.ringCount r
  else if l.whole then (l.foundOf 0).length else (l.foundOf 0).length + (l.foundOf 1).length

/-- The cases in which R103 does not take the ring into service. -/
def State.ringRefused (s : State) (r : Nat) : Bool :=
  let l := s.line r
  let a := l.foundOf 0
  let b := l.foundOf 1
  let n := s.ringNumber r
  let together := if l.whole then max a.length b.length else a.length + b.length
  let twice := (List.range a.length).any (fun i => (List.range b.length).any (fun j =>
    decide ((a.getD i ⟨0, 0, 0, 0, 0⟩).serial = (b.getD j ⟨0, 0, 0, 0, 0⟩).serial ∧ i ≠ n - 1 - j)))
  decide (together ≠ n) || twice || (l.whole && decide (b.length ≠ a.length))

/-- Firmware is written by CONFIG to every station of the ring whose version differs (01 R5). -/
def State.writeFirmware (s : State) (r : Nat) : State :=
  (List.range (s.ringCount r)).foldl (fun t p => match t.stationAt r p with
    | some k => if (t.station k).present && decide ((t.station k).fw ≠ t.preferred k)
        then t.ringService r t.ownEnd 5 p [p, 3, (t.preferred k).toNat] else t
    | none => t) s

/-- The configuration blocks are written to every station of the ring and committed, which clears UNCONF; a station that still runs a version
on neither list is not used. -/
def State.configureRing (s : State) (r : Nat) : State :=
  (List.range (s.ringCount r)).foldl (fun t p => match t.stationAt r p with
    | some k =>
      if !(t.station k).present then t
      else if !t.listed k (t.station k).fw then t.unlisted r p k
      else (((t.ringService r t.ownEnd 5 p [p, 0, Fld.ringCfg_STA_TIMEOUT t.cfg, Fld.pairCfg_STA_RX t.cfg]).ringService r t.ownEnd 5 p
        [p, 2]).onStation k (fun x => { x with unconf := false }))
    | none => t) s

/-- The stations found take their places: a type that contradicts the map is a mismatch (01 R27). -/
def State.placeStations (s : State) (r : Nat) : State :=
  let l := s.line r
  let a := l.foundOf 0
  let b := l.foundOf 1
  let n := s.ringNumber r
  let at_ (p : Nat) : Option Found := if p < a.length then a[p]? else if n - 1 - p < b.length then b[n - 1 - p]? else none
  ((List.range n).foldl (fun t p => match at_ p, t.stationAt r p with
    | some f, some k =>
      let want := if k < 32 then 1 else 2
      if f.kind = want then
        let u := t.onStation k (fun x => { x with
          present := true, serial := f.serial, fw := f.fw, unconf := true
          bal := 0, plan := none })
        if k < 32 then u else { u with safety := { u.safety with rated := u.safety.rated.set (k - 32) (some f.rated) } }
      else (t.onStation k (fun x => { x with present := false })).raise Ev.stationMismatch [r, p, want, f.kind]
    | _, _ => t) s).writeFirmware r

/-- The ring is refused (R103): the event, and every station of it is treated as missing. -/
def State.refuseRing (s : State) (r : Nat) : State :=
  let l := s.line r
  let n := s.ringNumber r
  let mine := (s.map.filter (fun m => decide (m.2.1 = r))).map (fun m => m.1)
  ({ s.onLine r (fun l => { l with st := .refused }) with ring := { (s.onLine r (fun l => { l with st := .refused })).ring with
      stations := mapIdxL (fun k (x : Station) => if mine.contains k then { x with present := false } else x) s.ring.stations } }).raise
    Ev.ringCountMismatch [r, (l.foundOf 0).length, (l.foundOf 1).length, n]

/-- What the end's DISCOVER found. -/
def State.takeFound (s : State) (r : Nat) (from_ : End) (whole : Bool) (recs : List Found) : State :=
  s.onLine r (fun l => { l with
    found := l.found.set (endIdx from_) (some recs), whole := l.whole || (whole && decide (from_ = .a)) })

/-- Both ends' answers are there. -/
def RingLine.answered (l : RingLine) : Bool := l.found.all (fun f => f.isSome)

/-- With no map committed the map is built, once, from what all eight rings have answered; then the stations take their places (R115). -/
def State.mapFound (s : State) : State :=
  if mapCommitted s.cfg || decide (s.ring.discovered ≠ []) || !s.ring.lines.all RingLine.answered then s
  else
    let t := s.onRing (fun x => { x with discovered := discoverMap x.lines })
    (List.range 8).foldl (fun u r => if (u.line r).st = .start then u.placeStations r else u) t

/-- Both ends have answered: the ring is judged; under a committed map its stations take their places. -/
def State.judgeRing (s : State) (r : Nat) : State :=
  if (s.line r).st = .start ∧ (s.line r).answered = true then
    if s.ringRefused r then s.refuseRing r else if mapCommitted s.cfg || decide (s.ring.discovered ≠ []) then s.placeStations r else s
  else s

/-- An end that has not answered by the end of the ring start has found nothing. -/
def State.silentEnds (s : State) (r : Nat) : State :=
  if (s.line r).answered then s
  else (s.onLine r (fun l => { l with found := l.found.map (fun f => some (f.getD [])) })).judgeRing r

/-- DISCOVER_RECEIVED (R103): the DISCOVER sent from an end has come back to the module or to its partner with the
identity records in hop order, and whether it crossed the whole ring. With both ends' answers the ring is judged. -/
def execDiscoverReceived (r : Fin 8) (from_ : End) (whole : Bool) (recs : List Found) (s : State) : Result :=
  .next (if (s.line r).st ≠ .start then s else ((s.takeFound r from_ whole recs).judgeRing r).mapFound)

/-- RING_START_DONE (R103, Table 4.12): the stations are configured and locked; the first SWEEP is at the next 4 ms grid
instant. An end that has not answered has found nothing. -/
def execRingStartDone (r : Fin 8) (s : State) : Result :=
  .next (if (s.line r).st ≠ .start then s
    else
      let s : State := if mapCommitted s.cfg then s.silentEnds r
        else ((List.range 8).foldl (fun t q => if (t.line q).st = .start then t.silentEnds q else t) s).mapFound
      if (s.line r).st ≠ .start then s
      else
        let l := s.line r
        let n := s.ringNumber r
        let a := if l.whole then n else (l.foundOf 0).length
        let b := if l.whole then n else (l.foundOf 1).length
        (s.configureRing r).onLine r (fun l => { l with
          st := if n = 0 then .off else if l.whole then .normal else if a + b = 0 then .down else .degraded
          reachA := a, reachB := b, breakPos := if l.whole then 7 else a, abOk := l.whole, baOk := l.whole
          startAt := nextMultiple s.now 4000000 }))

/-- STATION_FW_SLOT_CHANGE (18 R456): between two grid instants the station changes to the slot just written; no sample is lost. -/
def execStationFwSlotChange (k : Fin 34) (s : State) : Result :=
  .next (s.onStation k (fun x => match x.fwPending with
    | some v => { x with fw := v, fwPending := none }
    | none => x))

/-- CONFIG_FRAME_RECEIVED (R103, R104): a CONFIG frame of a position returns: 0 block write, 1 block read, 2 commit. A
commit clears UNCONF and ends a station start; a write is followed by its commit; a failed one is sent again. -/
def execConfigFrameReceived (r : Fin 8) (e : End) (p kind : Nat) (good : Bool) (s : State) : Result :=
  .next (match s.stationAt r p with
    | none => s
    | some k =>
      if !s.ownsEnd e || !(s.station k).starting then s
      else if !good then s.ringService r e 5 p [p, kind]
      else if kind = 0 then s.ringService r e 5 p [p, 2]
      else if kind = 1 then s
      else (s.onStation k (fun x => { x with starting := false, unconf := false })).onStation k (fun x => x.resync x.cnt false))

/-! ### Delays (R105), counts (R100) -/

/-- DELAY_MEASURE (R105): the time leader's end sends a DELAY frame to a position. -/
def execDelayMeasure (k : Fin 34) (s : State) : Result :=
  .next (match s.placeOf k with
    | some (r, p) =>
      if s.isPair && !s.time.leader then s
      else s.ringService r s.ownEnd 6 p [p]
    | none => s)

/-- DELAY_RECEIVED (R105): half of the round trip less the total residence, plus the outward residence, ns; written to
the station by CONFIG. -/
def execDelayReceived (k : Fin 34) (roundTrip total outward : Nat) (s : State) : Result :=
  .next (match s.placeOf k with
    | some (r, p) =>
      let d := Sys2Proof.Config.quot ((roundTrip : Int) - total) 2 + outward
      (s.onStation k (fun x => { x with delay := d })).ringService r s.ownEnd 5 p [p, 0, d]
    | none => s)

/-- The counters still unanswered. -/
def Station.waitingCnt (x : Station) : Nat := x.unanswered + bit x.open_.isSome

/-- RING_CMD_COUNT_CHECK (R100). -/
def execRingCmdCountCheck (second : Nat) (s : State) : Result :=
  let s := s.advance (second * 1000000000)
  .next ((List.range 34).foldl (fun t k =>
    let x := t.station k
    if x.issued = x.executed + x.gaps + x.refused + x.waitingCnt then t
    else t.raise Ev.ringCmdCount [stationNo k, x.issued, x.executed, x.gaps, x.refused, x.waitingCnt]) s)

/-! ### Stations lost and returned (R111, R114) -/

def State.drop (s : State) : Nat := Fld.ringCfg_DROP s.cfg + 1

/-- STATION_LOST (R111): substitutes, the error task and the estimator follow at the next cycle boundary. -/
def execStationLost (k : Fin 34) (s : State) : Result :=
  let x := s.station k
  .next (if s.mapped k && !x.pLost && decide (s.drop ≤ x.pMiss) then
      ((s.onStation k (fun y => { y with pLost := true })).raise Ev.stationLost [stationNo k]).causeAll 1 (stationNo k).toNat
    else s)

/-- STATION_SEC_LOST (R111). -/
def execStationSecLost (k : Fin 34) (s : State) : Result :=
  let x := s.station k
  .next (if s.mapped k && !x.sLost && decide (s.drop ≤ x.sMiss) then
      (s.onStation k (fun y => { y with sLost := true })).raise Ev.stationSecLost [stationNo k]
    else s)

/-- STATION_RETURNED (R114): the commanded state is reissued. A station that reports UNCONF goes through its start
first. -/
def execStationReturned (k : Fin 34) (s : State) : Result :=
  let x := s.station k
  .next (if x.pLost && decide (s.drop ≤ x.pGood) && !x.unconf then
      (s.onStation k (fun y => { (y.resync y.cnt false) with pLost := false })).raise Ev.stationReturned [stationNo k]
    else s)

/-- STATION_SEC_RETURNED (R111). -/
def execStationSecReturned (k : Fin 34) (s : State) : Result :=
  let x := s.station k
  .next (if x.sLost && decide (s.drop ≤ x.sGood) then
      (s.onStation k (fun y => { y with sLost := false })).raise Ev.stationSecReturned [stationNo k]
    else s)

/-! ### Collection (R95, R108, R111) -/

/-- One station at the collection deadline of a sweep: its counts of missing and valid sweeps. -/
def Station.collect (x : Station) (p q : Bool) : Station :=
  { x with fresh := x.fresh && !p, pMiss := if p then 0 else x.pMiss + 1, pGood := if p then x.pGood + 1 else 0
           sMiss := if q then 0 else x.sMiss + 1, sGood := if q then x.sGood + 1 else 0 }

/-- A ring at a collection deadline: a direction in which nothing has crossed since the sweep instant is a break (R107); a break whose place
has not shown by the sweep after it is recorded without one. -/
def State.lineDeadline (s : State) (w : Sweep) (r : Nat) : State :=
  let l := s.line r
  match l.untold with
  | some t => if t < w.at_ then s.degrade r l.reachA l.reachB else s
  | none =>
    if s.partnerDark || decide (l.st ≠ .normal ∨ w.at_ < l.startAt) then s
    else
      let ab := l.seenAB || s.isSenior
      let ba := l.seenBA || s.isJunior
      if ab && ba then s
      else (s.onLine r (fun l => { l with abOk := l.abOk && ab, baOk := l.baOk && ba })).breakUnplaced r

/-- The ring part of a collection deadline: counts, owed results, directions that carried nothing. -/
def State.collectRing (s : State) (w : Sweep) : State :=
  let has (k : Nat) : Bool × Bool := ((w.prim.getD k none).isSome, (w.sec.getD k none).isSome)
  let came (k : Nat) (f : Late → Bool) : Bool := s.ring.late.any (fun l => decide (l.station = k ∧ l.at_ = w.at_) && f l)
  let new := (List.range 34).filterMap (fun k =>
    let p := (has k).1 || came k (fun l => l.prim.isSome)
    let q := (has k).2 || came k (fun l => l.sec.isSome)
    if s.mapped k && (s.station k).present && !(p && q) then some ⟨k, w.at_, !p, !q⟩ else none)
  let s := (List.range 8).foldl (fun t r => t.lineDeadline w r) s
  { s with ring := { s.ring with
      cur := none, last := some w
      owed := (s.ring.owed ++ new).filter (fun o => decide (w.at_ < o.at_ + 64 * 250000))
      stations := mapIdxL (fun k (x : Station) => if s.mapped k then x.collect (has k).1 (has k).2 else x) s.ring.stations } }

/-! ### Reads that clear (19 R478) -/

def RingSt.code : RingSt → Nat
  | .off => 0
  | .start => 1
  | .normal => 2
  | .degraded => 3
  | .down => 4
  | .refused => 5

/-- RING_STATn (Table 4.17). -/
def State.ringStat (s : State) (l : RingLine) : Word :=
  let token := match l.tokenAt with
    | some t => decide (s.now ≤ t + 1000000 * Fld.ringCfg_TOKEN_MS s.cfg)
    | none => false
  BitVec.ofNat 32 (l.st.code + 8 * (l.reachA % 8) + 64 * (l.reachB % 8) + 512 * (l.breakPos % 8) + 4096 * bit l.abOk + 8192 * bit l.baOk
    + 16384 * bit token + 65536 * min l.crcErr 65535)

/-- RING_STAT_READ: a read of RING_STATn at its own offset clears CRC_ERR. -/
def execRingStatRead (r : Fin 8) (s : State) : Result :=
  .next (s.readReg (Reg.ringStat + 4 * r.val) (s.ringStat (s.ring.lines.getD r.val RingLine.reset)) (fun t => t.onLine r (fun l => { l with crcErr := 0 })))

end Sys2Proof.Machine
end

