-- ==== Sys2Proof/Machine/Safety.lean ====
section
/-! DEFINITION. Safety function commands (12): ticks, switches, contactors, the reset, safety frames. -/
namespace Sys2Proof.Machine

/-! ### Test pulses (R316, R317) -/

/-- A pulse ends after the demands of the same engine step: the switch goes on again, or shows that it is stuck; a switch a demand has
turned off stays off and the result is discarded. -/
def State.endTest (s : State) (o : Nat) : State := match (s.safety.out o).testing with
  | none => s
  | some k =>
    let t := s.onSafety (fun x => { x with outs := modAt x.outs o (fun w => { w with testing := none }) })
    if k < 2 then t else t.outFault o (decide (k = 3)) .stuck

def State.endTests (s : State) : State := (List.range 4).foldl State.endTest s

/-- SAFETY_TICK (R297, R308 to R319): at each whole millisecond both engines sample their inputs (`a` SE-A's, `b` SE-B's sample, `on` the
readbacks of the eight switches, `coil` the coil supply in 10 mV). -/
def execSafetyTick (a b : SafetySample) (on : BitVec 8) (coil : Nat) (s : State) : Result :=
  let t := s.periodic 4 1000000
  .next (((((t.tickInputs a b).tickOuts on).tickState coil)).endTests)

/-- SAFETY_CROSS_LINK (R297): the other engine's confirmed demand arrives; this one (`toB`: SE-B) opens its switches. -/
def execSafetyCrossLink (toB : Bool) (s : State) : Result :=
  .next (if s.safety.safe then s.openSwitches (if toB then 2 else 1) else s)

/-- One output switch opens. -/
def SafeOut.openSide (w : SafeOut) (low : Bool) (now : Nat) : SafeOut :=
  if low then { w with lo := false, loRead := false, cmdAt := now } else { w with hi := false, hiRead := false, cmdAt := now }

/-- SWITCH_WATCHDOG_EXPIRY (R298): a switch that got no keep-alive for 1 ms opens in hardware. Switches 0 to 7: bit 2o high side, 2o + 1
low side of SOo; 8 to 11: channels 1 and 2 of loop 0, then of loop 1. -/
def execSwitchWatchdogExpiry (w : Fin 12) (s : State) : Result :=
  .next (s.onSafety (fun x =>
    if w.val < 8 then { x with outs := modAt x.outs (w.val / 2) (fun o => o.openSide (decide (w.val % 2 = 1)) s.now) }
    else if w.val % 2 = 0 then { x with loopSw1 := x.loopSw1.set ((w.val - 8) / 2) false }
    else { x with loopSw2 := x.loopSw2.set ((w.val - 8) / 2) false }))

/-- FAST_OC_TRIP (R305): the comparator trips in the charge or the discharge direction; while SCALE is 0 it is not armed. -/
def execFastOcTrip (charge : Bool) (s : State) : Result :=
  .next (if Fld.fgiCfg_SCALE s.cfg = 0 then s
    else (s.raise Ev.fastOc [if charge then 0 else 1]).stageTrip 6 255 255 255)

/-- The next slot of a switch's test: 1.25 s apart in a cycle of 10 s, the junior's 625 ms later (R316). -/
def State.testSlot (s : State) (k : Nat) : Nat :=
  let base := 1250000000 * k + if s.isJunior then 625000000 else 0
  atOrAfter (s.now - base) 10000000000 + base

/-- SO_TEST_PULSE (R316, R317): the slot of one switch of an energised output: it is switched off; `readOff` says that it read off
within 150 µs. -/
def execSoTestPulse (o : Fin 4) (low readOff : Bool) (s : State) : Result :=
  let t := s.advance (s.testSlot (2 * o.val + bit low))
  let w := t.safety.out o.val
  let runs := if low then t.safety.engB.running else t.safety.engA.running
  .next (if w.hi && w.lo && decide (w.fault = .none) && !t.safety.safe && runs then
    t.onSafety (fun x => { x with outs := modAt x.outs o.val (fun w => { w with testing := some (bit low + if readOff then 0 else 2) }) })
  else t)

/-- Function 12 demands in both engines. -/
def State.demand12 (s : State) (object number : Nat) : State :=
  ((s.onEngA (fun x => { x with demand := x.demand.set 12 true })).onEngB (fun x => { x with demand := x.demand.set 12 true })).safeState
    ⟨12, 3, object, number, 0⟩

/-- COIL_SUPPLY_LOW (R318): the coil supply, 10 mV, has been below 16 V for 10 ms while a contactor output is energised. -/
def execCoilSupplyLow (coil : Nat) (s : State) : Result :=
  .next (if s.contactorOn && decide (coil < 1600) then
    ((s.onSafety (fun x => { x with coil := coil })).raise Ev.coilSupply [coil]).demand12 7 (s.mainOut.getD 0)
  else s)

/-- CONTACTOR_FEEDBACK_TIMEOUT (R319): 100 ms after the command of the main or the precharge contactor its feedback does not show it: an
energised one is a demand, a de-energised one a weld. A withdrawn twin judges no weld: the partner may hold the coil (R314). -/
def execContactorFeedbackTimeout (pre : Bool) (s : State) : Result :=
  .next (match (if pre then s.prechargeOut else s.mainOut), s.feedbackInput pre with
    | some o, some n =>
      let w := s.safety.out o
      let t := s.advance (w.cmdAt + 100000000)
      if w.hi && w.lo then (if t.feedback pre true then t else t.demand12 7 o)
      else if t.feedback pre false || t.twin.txOff then t
      else (t.raise Ev.contactorWeld [o, n]).onSafety (fun x => { x with weld := true })
    | _, _ => s)

/-! ### Contactors (R315) -/

/-- CONTACTOR_CLOSE (R315). -/
def execContactorClose (q : Fin 32) (s : State) : Result :=
  .next (s.hostRow q 0x12 (op0 1) (fun t d =>
    if t.closeRefused then .refuse St.contactorState 0
    else let (u, w) := t.acceptBoth d.cmd
      .accept 0 w [] u))

/-- CONTACTOR_OPEN (R315). -/
def execContactorOpen (q : Fin 32) (s : State) : Result :=
  .next (s.hostRow q 0x12 (op0 2) (fun t d => let (u, w) := t.acceptBoth d.cmd
    .accept 0 w [] u))

/-- PRECHARGE_END (R315): the main contactor is energised. -/
def execPrechargeEnd (s : State) : Result :=
  .next (match s.safety.contactor, s.mainOut with
    | .precharge since, some m =>
      let t := s.advance (since + 10000000 * Fld.safeCfg_PRECHG s.cfg)
      (t.setOut m true).onSafety (fun x => { x with contactor := .mainOn t.now })
    | _, _ => s)

/-- PRECHARGE_RELEASE (R315): 50 ms later the precharge output is de-energised. -/
def execPrechargeRelease (s : State) : Result :=
  .next (match s.safety.contactor, s.prechargeOut with
    | .mainOn since, some p => ((s.advance (since + 50000000)).setOut p false).onSafety (fun x => { x with contactor := .closed })
    | _, _ => s)

/-! ### The reset (R322, R323) -/

/-- SAFETY_RESET: the host's command. -/
def execSafetyReset (q : Fin 32) (s : State) : Result :=
  .next (s.hostRow q 0x13 anyArg (fun t d =>
    if !Fld.safeCfg_REMOTE_RESET t.cfg then .refuse St.safetyState 0
    else match t.resetBlock with
      | some n => .refuseAs St.safetyState 0 (t.raise Ev.resetRefused [1, n])
      | none => let (u, w) := t.acceptBoth d.cmd
        .accept 0 w [] u))

/-- The reset input has left rest on both channels, and returned after 0.2 s to 3 s, as one engine sees it. -/
def DualIn.resetPress (d : DualIn) (now : Nat) : Bool := !d.raw1 && !d.raw2 && (match d.leftAt with
  | some a => decide (a + 200000000 ≤ now ∧ now ≤ a + 3000000000)
  | none => false)

/-- RESET_INPUT: a reset input has returned to rest, and the reset is judged. -/
def execResetInput (n : Fin 16) (s : State) : Result :=
  let a := s.safety.engA.inputs.getD n.val DualIn.reset
  let b := s.safety.engB.inputs.getD n.val DualIn.reset
  let done (x : SafetyEng) : SafetyEng := { x with inputs := modAt x.inputs n.val (fun d => { d with leftAt := none }) }
  .next (if decide (Fld.siCfg_FUNC s.cfg n.val = 5) && a.resetPress s.now && b.resetPress s.now then
    let t := (s.onEngA done).onEngB done
    match t.resetAccepted 0 with
    | .error k => t.raise Ev.resetRefused [0, k]
    | .ok u => u
  else s)

/-- SAFE_RESET_EXPIRED (R323). -/
def execSafeResetExpired (s : State) : Result :=
  .next (s.expireBoth (fun c => decide (c.opcode = 0x13)) Ev.safeResetExpired (fun _ => []))

/-! ### Safety frames (R326 to R329) -/

/-- SAFETY_FRAME_SEND (R326): at the tick once SF_PERIOD ms have passed since the last frame, or at once on a change. -/
def execSafetyFrameSend (s : State) : Result :=
  let changed := decide (s.safety.word0 ≠ s.safety.sfWord0 ∨ s.safety.safe ≠ s.safety.sfSafe)
  .next ((if changed then s else s.advance (atOrAfter (s.safety.sfLastAt + 1000000 * Fld.safeCfg_SF_PERIOD s.cfg) 1000000)).sendSafetyFrame)

/-- SAFETY_FRAME_RECEIVED (R327): a producer's frame arrives over EP0 or EP1, or over the CAN FD port SF_CAN. -/
def execSafetyFrameReceived (can : Bool) (bytes : List Byte) (s : State) : Result :=
  .next (s.takeFrame (if can then 2 else 1) bytes)

/-- SAFETY_FRAME_WATCHDOG (R329): WDOG ms without an accepted frame of producer n: its function demands, and its next good frame counts
as newer. -/
def execSafetyFrameWatchdog (n : Fin 8) (s : State) : Result :=
  let x := s.safety.producers.getD n.val Producer.reset
  let f := Fld.sfPcfg_FUNC s.cfg n.val
  .next (if Fld.sfPcfg_PORT s.cfg n.val = 0 ∨ x.expired = true then s
    else
      let t := (s.advance (x.lastAt + 1000000 * Fld.sfPcfg_WDOG s.cfg n.val)).onSafety (fun z => { z with
        producers := z.producers.set n.val { x with expired := true, okRun := 0, lastSeq := none } })
      let t := (t.raise Ev.sfTimeout [n.val]).refreshDemands
      if Fld.sfPcfg_ALARM s.cfg n.val then t.raise Ev.safetyAlarm [f, s.engRun, 6, n.val] else t.safeState ⟨f, s.engRun, 6, n.val, 0⟩)

end Sys2Proof.Machine
end

