-- ==== Sys2Proof/Machine/Therm.lean ====
section
/-! DEFINITION. Commands of thermal management (10). Temperatures in 0.01 °C, the die's in 0.1 °C. -/
namespace Sys2Proof.Machine

open Sys2Proof.Config (quot)

/-! ### Sensors (R261 to R263, R270 to R272): thermistors 0 to 255, pins 256 to 263 -/

def State.sensor (s : State) (i : Nat) : Sensor := s.therm.sensors.getD i Sensor.reset
def State.zone (s : State) (z : Nat) : Zone := s.therm.zones.getD z Zone.reset
def State.onZone (s : State) (z : Nat) (f : Zone → Zone) : State := s.onTherm (fun t => { t with zones := modAt t.zones z f })

/-- The zone of a sensor in use; none: excluded, not mapped, or a pin that is off. -/
def State.sensorZone (s : State) (i : Nat) : Option Nat :=
  if i < 256 then (if i < 8 * s.cellStations then s.zoneOf i else none)
  else if Fld.mtCfg_TYPE s.cfg (i - 256) = 0 then none else some (Fld.mtCfg_ZONE s.cfg (i - 256))

/-- Kind and number as events give them. -/
def sensorName (i : Nat) : List Int := if i < 256 then [0, (i : Int)] else [1, ((i - 256 : Nat) : Int)]

/-- A thermistor whose two results have differed by more than 3 K for 10 s. -/
def Sensor.disagrees (x : Sensor) (now : Nat) : Bool := match x.disFrom with
  | some a => decide (a + 10000000000 ≤ now)
  | none => false

/-- A result lies in the sensor's range: an NTC pin's is −40 to +125 °C, a remote diode's −55 to +150 °C (Table 10.1). -/
def State.inRange (s : State) (i : Nat) (v : Int) : Bool :=
  if i < 256 then decide (-5000 ≤ v ∧ v ≤ 15000)
  else if Fld.mtCfg_TYPE s.cfg (i - 256) = 2 then decide (-4000 ≤ v ∧ v ≤ 12500) else decide (-5500 ≤ v ∧ v ≤ 15000)

/-- What a pin's measurement says (R259), 0.01 °C: of a remote diode the absolute temperature in 0.01 K that it shows at an ideality of 1,
of an NTC its resistance in mΩ, by the thermistor's B value from 10 kΩ at 25 °C. -/
def State.pinTemp (s : State) (n : Nat) (raw : Int) : Int :=
  if Fld.mtCfg_TYPE s.cfg n = 2 then
    let b : Int := Fld.mtCfg_BETA s.cfg n
    quot (2981500000000000 * b) (100000000000 * b + 29815 * Sys2Proof.Config.lnTable (100 * raw)) - 27315
  else quot (1000 * raw) (900 + Fld.mtCfg_IDEAL s.cfg n) - 27315

/-- The partner's reading of a pin counts while both twins decide from the same inputs (R260). -/
def State.peerPin (s : State) (x : Sensor) : Option Int := if s.isJoined || decide (s.twin.st = .catching) then x.peer else none

/-- The round's reading of a sensor from what is usable: towards the high and the low side; none where nothing is. -/
def State.reading (s : State) (pins : List (Option Int)) (i : Nat) (x : Sensor) : Option (Int × Int) :=
  let use (v : Option Int) : Option Int := v.filter (s.inRange i)
  if i < 256 then
    match s.ring.last with
    | none => none
    | some w => match use (w.thP i), use (w.thS i) with
      | some p, some q => if x.disagrees s.now then some (max p q, min p q) else some (p, p)
      | some p, none => some (p, p)
      | none, some q => some (q, q)
      | none, none => none
  else match use (pins.getD (i - 256) none), use (s.peerPin x) with
    | some a, some b => some (max a b, min a b)
    | some a, none => some (a, a)
    | none, some b => some (b, b)
    | none, none => none

/-- The run of disagreement of a thermistor's two results. -/
def State.thDisagree (s : State) (i : Nat) (x : Sensor) : Sensor :=
  match s.ring.last with
  | some w => match (if i < 256 then w.thP i else none), (if i < 256 then w.thS i else none) with
    | some p, some q =>
      if 300 < mag (p - q) then { x with disFrom := match x.disFrom with | some a => some a | none => some s.now }
      else { x with disFrom := none }
    | _, _ => { x with disFrom := none }
  | none => x

/-- The cells a thermistor serves. -/
def State.cellsOf (s : State) (t : Nat) : List Nat := (List.range s.cellCount).filter (fun c => decide (s.thermistorOf c = some t))

/-- A cell's validated core temperature. -/
def State.coreTemp (s : State) (c : Nat) : Option Int :=
  let x := s.est.pub.getD c EstCell.reset
  if x.coreOk then some x.model.core100 else none

/-- The core temperature that stands in for a thermistor: the highest of its cells', all validated (R272). -/
def State.standIn (s : State) (t : Nat) : Option Int :=
  let l := (s.cellsOf t).map s.coreTemp
  if l ≠ [] ∧ l.all (fun x => x.isSome) = true then maxI (l.filterMap id) else none

/-- One round of one sensor: runs, failure, return, last good values, the stand-in. -/
def State.sensorRound (s : State) (pins : List (Option Int)) (i : Nat) (x : Sensor) : Sensor :=
  if (s.sensorZone i).isNone || (decide (i < 256) && s.ring.last.isNone) then x
  else
    let x := s.thDisagree i x
    let r := s.reading pins i x
    let lost := decide (i < 256) && (s.station (i / 8)).pLost
    let x := match r with
      | some (h, l) =>
        { x with
          bad := 0, good := x.good + 1
          lastHi := if x.core then x.lastHi else h, lastAt := if x.core then x.lastAt else s.now
          lastLo := l, lowAt := s.now }
      | none => { x with bad := x.bad + 1, good := 0 }
    let failed := if x.failed then decide (x.good < 100) || lost else decide (3 ≤ x.bad) || lost
    let x := { x with failed := failed, core := x.core && failed }
    if x.core then
      match s.standIn i with
      | some v => { x with lastHi := v, lastAt := s.now }
      | none => { x with core := false }
    else x

/-- What a sensor counts with in its zone: high side, low side, and whether it is a substitute. -/
def State.sensorCounts (s : State) (pins : List (Option Int)) (i : Nat) (x : Sensor) : Option (Nat × Int × Int × Bool) :=
  match s.sensorZone i with
  | none => none
  | some z =>
    if x.failed then
      let hi := s.substitute z x
      let lo := max (x.lastLo - s.rise z (s.now - x.lowAt)) (100 * Fld.tzLo_TRIP_LO s.cfg z)
      some (z, hi, lo, true)
    else (s.reading pins i x).map (fun r => (z, r.1, r.2, false))

/-- Events of a round about one sensor. -/
def State.sensorEvents (s : State) (i : Nat) (old new : Sensor) : State :=
  let t := if new.failed && !old.failed then s.raise Ev.thFailed (sensorName i)
    else if old.failed && !new.failed then s.raise Ev.thReturned (sensorName i) else s
  let u := if old.core && !new.core && new.failed then
      (match (s.cellsOf i).find? (fun c => (s.coreTemp c).isNone) with
       | some c => t.raise Ev.thFailed [2, c]
       | none => t)
    else t
  if new.disagrees s.now && (match new.disAt with | some a => decide (a + 3600000000000 ≤ s.now) | none => true) then
    match s.ring.last with
    | some w => (u.raise Ev.thDisagree [i, (w.thP i).getD 0, (w.thS i).getD 0]).onTherm (fun t => { t with
        sensors := modAt t.sensors i (fun x => { x with disAt := some s.now }) })
    | none => u
  else u

/-- The sensors' part of a round. -/
def State.sensorsRound (s : State) (pins : List (Option Int)) : State :=
  let old := s.therm.sensors
  let new := mapIdxL (fun i (x : Sensor) => s.sensorRound pins i (if 256 ≤ i then { x with own := pins.getD (i - 256) none } else x)) old
  let t := s.onTherm (fun x => { x with sensors := new })
  (List.range 264).foldl (fun u i => u.sensorEvents i (old.getD i Sensor.reset) (new.getD i Sensor.reset)) t

/-- A thermistor whose primary result reads open at the first sweep after its ring start is excluded where no map block is in force (R261);
an exclusion is recorded once. -/
def State.absentCheck (s : State) (w : Sweep) : State :=
  (List.range (8 * s.cellStations)).foldl (fun u i => match w.prim1 (i / 8) with
    | some p =>
      let open_ := decide (p.th.getD (i % 8) 0 = -32768)
      if !(s.station (i / 8)).fresh || (s.block 2).isSome then u
      else
        let v := if open_ && !(u.sensor i).absent then u.raise Ev.thAbsent [i / 8, i % 8] else u
        v.onTherm (fun t => { t with sensors := modAt t.sensors i (fun x => { x with absent := open_ }) })
    | none => u) s

/-! ### Zones (R263 to R269) -/

/-- One contribution to a zone: zone, kind and number as EV_THERMAL_TRIP names them, high value, low value (none for a core). -/
structure Contribution where
  zone : Nat
  kind : Nat
  no   : Nat
  hi   : Int
  lo   : Option Int
  deriving DecidableEq, Repr

/-- Everything that counts in a round. -/
def State.contributions (s : State) (pins : List (Option Int)) : List Contribution :=
  let sens := (mapIdxL (fun i (x : Sensor) => (s.sensorCounts pins i x).map (fun e =>
    (⟨e.1, if e.2.2.2 then 3 else if i < 256 then 0 else 1, if i < 256 then i else i - 256, e.2.1, some e.2.2.1⟩ : Contribution)))
    s.therm.sensors).filterMap id
  let cores := (List.range s.cellCount).filterMap (fun c => match s.coreTemp c, (s.thermistorOf c).bind s.zoneOf with
    | some v, some z => some (⟨z, 2, c, v, none⟩ : Contribution)
    | _, _ => none)
  sens ++ cores

/-- Entry temperature of a high step n ≥ 1. -/
def State.hiEntry (s : State) (z n : Nat) : Int := 100 * Fld.tzHi_THR_HI s.cfg z + 10 * (n - 1 : Nat) * Fld.thrStep_STEP_K s.cfg

/-- Seven times the entry temperature of a low step n ≥ 1. -/
def State.loEntry7 (s : State) (z n : Nat) : Int :=
  700 * Fld.tzLo_THR_LO s.cfg z - 100 * (n - 1 : Nat) * (Fld.tzLo_THR_LO s.cfg z - Fld.tzBand_CHG_LO s.cfg z)

/-- The targets of a zone. -/
def State.hiTarget (s : State) (z : Nat) (t : Option Int) : Nat := match t with
  | some v => ((List.range 9).filter (fun n => decide (n ≠ 0 ∧ s.hiEntry z n ≤ v))).foldl max 0
  | none => 0

def State.loTarget (s : State) (z : Nat) (t : Option Int) : Nat := match t with
  | some v => ((List.range 8).filter (fun n => decide (n ≠ 0 ∧ 7 * v ≤ s.loEntry7 z n))).foldl max 0
  | none => 0

/-- HYST in 0.01 K, DWELL and GAP in ns. -/
def State.hyst (s : State) : Int := 10 * Fld.thrStep_HYST s.cfg
def State.dwell (s : State) : Nat := Fld.thrStep_DWELL s.cfg * 1000000000
def State.gap (s : State) : Nat := Fld.thrStep_GAP s.cfg * 1000000000

/-- A condition's start time. -/
def sinceHeld (now : Nat) (holds : Bool) (from_ : Option Nat) : Option Nat := if holds then (match from_ with | some a => some a | none => some now) else none
def lasted (now dur : Nat) (from_ : Option Nat) : Bool := match from_ with | some a => decide (a + dur ≤ now) | none => false

/-- The high step of a zone in a round (R265): its change and the relaxation clock. `held`: it may not relax. -/
def State.hiStep (s : State) (z : Nat) (held : Bool) (x : Zone) : Zone :=
  let target := s.hiTarget z x.hot
  let calm := match x.hot with | some v => decide (v ≤ s.hiEntry z x.hi - s.hyst) | none => false
  let rel := sinceHeld s.now (calm && decide (x.hi ≠ 0)) x.hiRelax
  if s.therm.first then { x with hi := target, hiAt := if target = x.hi then x.hiAt else some s.now, hiRelax := none }
  else if x.hi < target ∧ (match x.hiAt with | some a => decide (a + s.gap ≤ s.now) | none => true) = true then
    { x with hi := x.hi + 1, hiAt := some s.now, hiRelax := none }
  else if x.hi ≠ 0 ∧ held = false ∧ lasted s.now s.dwell rel = true then
    { x with hi := x.hi - 1, hiAt := some s.now, hiRelax := none }
  else { x with hiRelax := rel }

/-- The low step (R266). -/
def State.loStep (s : State) (z : Nat) (held : Bool) (x : Zone) : Zone :=
  let target := s.loTarget z x.cold
  let calm := match x.cold with | some v => decide (s.loEntry7 z x.lo + 7 * s.hyst ≤ 7 * v) | none => false
  let rel := sinceHeld s.now (calm && decide (x.lo ≠ 0)) x.loRelax
  if s.therm.first then { x with lo := target, loAt := if target = x.lo then x.loAt else some s.now, loRelax := none }
  else if x.lo < target ∧ (match x.loAt with | some a => decide (a + s.gap ≤ s.now) | none => true) = true then
    { x with lo := x.lo + 1, loAt := some s.now, loRelax := none }
  else if x.lo ≠ 0 ∧ held = false ∧ lasted s.now s.dwell rel = true then
    { x with lo := x.lo - 1, loAt := some s.now, loRelax := none }
  else { x with loRelax := rel }

/-- The zone trip (R269): only contributions that are no substitute can cause it; it ends after DWELL back inside by HYST, and a
high-side trip leaves the high step at 8. -/
def State.zoneTrip (s : State) (z : Nat) (real : List Contribution) (x : Zone) : Zone :=
  let hiT := 100 * Fld.tzHi_TRIP_HI s.cfg z
  let loT := 100 * Fld.tzLo_TRIP_LO s.cfg z
  let high := real.any (fun c => decide (hiT < c.hi))
  let low := real.any (fun c => match c.lo with | some v => decide (v < loT) | none => false)
  if x.trip = 0 then { x with trip := if high then 1 else if low then 2 else 0, tripBack := none }
  else
    let inside := if x.trip = 1 then (match x.hot with | some v => decide (v ≤ hiT - s.hyst) | none => false)
      else (match x.cold with | some v => decide (loT + s.hyst ≤ v) | none => false)
    let back := sinceHeld s.now (inside && !high && !low) x.tripBack
    if lasted s.now s.dwell back then
      { x with trip := 0, tripBack := none, hi := if x.trip = 1 then 8 else x.hi, hiAt := if x.trip = 1 then some s.now else x.hiAt
               hiRelax := if x.trip = 1 then none else x.hiRelax }
    else { x with tripBack := back }

/-- What a zone forbids now: bit 0 on the high side, bit 1 on the low side. -/
def forbids (hi lo : Int) (x : Zone) : Nat :=
  (match x.hot with | some v => bit (decide (100 * hi ≤ v)) | none => 0) + 2 * (match x.cold with | some v => bit (decide (v ≤ 100 * lo)) | none => 0)

/-- A zone is inside a band by HYST. -/
def State.insideBand (s : State) (hi lo : Int) (x : Zone) : Bool :=
  (match x.hot with | some v => decide (v ≤ 100 * hi - s.hyst) | none => true)
  && (match x.cold with | some v => decide (100 * lo + s.hyst ≤ v) | none => true)

/-- Warnings, with their hysteresis (R264). -/
def State.warnings (s : State) (z : Nat) (x : Zone) : Zone :=
  let hi := 100 * Fld.tzHi_WARN_HI s.cfg z
  let lo := 100 * Fld.tzLo_WARN_LO s.cfg z
  { x with
    warnHi := match x.hot with | some v => decide (hi ≤ v) || (x.warnHi && decide (hi - s.hyst < v)) | none => x.warnHi
    warnLo := match x.cold with | some v => decide (v ≤ lo) || (x.warnLo && decide (v < lo + s.hyst)) | none => x.warnLo }

/-- One round of one zone. `dead`: it has a failed sensor; `bare`: one that no core temperature stands in for. -/
def State.zoneRound (s : State) (cs : List Contribution) (dead bare : Bool) (z : Nat) (x : Zone) : Zone :=
  let mine := cs.filter (fun c => decide (c.zone = z))
  let y := { x with hot := maxI (mine.map (fun c => c.hi)), cold := minI (mine.filterMap (fun c => c.lo)), failed := dead }
  let y := s.warnings z y
  let y := s.loStep z dead (s.hiStep z bare y)
  let y := s.zoneTrip z (mine.filter (fun c => decide (c.kind ≠ 3))) y
  { y with
    chgF := Nat.lor y.chgF (forbids (Fld.tzBand_CHG_HI s.cfg z) (Fld.tzBand_CHG_LO s.cfg z) y)
    disF := Nat.lor y.disF (forbids (Fld.tzBand_DIS_HI s.cfg z) (Fld.tzBand_DIS_LO s.cfg z) y) }

/-- Events of a round about one zone. -/
def State.zoneEvents (s : State) (cs : List Contribution) (z : Nat) (old new : Zone) : State :=
  let hot := new.hot.getD 0
  let cold := new.cold.getD 0
  let t := if new.warnHi && !old.warnHi then s.raise Ev.thermalWarn [z, 0, hot] else s
  let t := if new.warnLo && !old.warnLo then t.raise Ev.thermalWarn [z, 1, cold] else t
  let t := if new.hi ≠ old.hi then t.raise Ev.throttleStep [z, if old.hi < new.hi then 0 else 1, new.hi, hot] else t
  let t := if new.lo ≠ old.lo then t.raise Ev.throttleStep [z, if old.lo < new.lo then 2 else 3, new.lo, cold] else t
  if new.trip ≠ 0 ∧ old.trip = 0 then
    let mine := cs.filter (fun c => decide (c.zone = z ∧ c.kind ≠ 3))
    let who := if new.trip = 1 then mine.find? (fun c => decide (100 * Fld.tzHi_TRIP_HI s.cfg z < c.hi))
      else mine.find? (fun c => match c.lo with | some v => decide (v < 100 * Fld.tzLo_TRIP_LO s.cfg z) | none => false)
    match who with
    | some c => t.raise Ev.thermalTrip [z, new.trip - 1, c.kind, c.no, if new.trip = 1 then c.hi else c.lo.getD 0]
    | none => t
  else t

/-- A zone holds a failed sensor; one that nothing stands in for. -/
def State.zoneDead (s : State) (bare : Bool) (z : Nat) : Bool :=
  (mapIdxL (fun i (x : Sensor) => x.failed && !(bare && x.core) && decide (s.sensorZone i = some z)) s.therm.sensors).any id

/-- A direction's rule over all zones (R268, R271): forbidden while a zone forbids it; permitted again after DWELL with every zone
inside by HYST and no zone that forbids it with a failed sensor. -/
def State.direction (s : State) (dis : Bool) : State :=
  let c := s.cfg
  let f (x : Zone) : Nat := if dis then x.disF else x.chgF
  let hi (z : Nat) : Int := if dis then Fld.tzBand_DIS_HI c z else Fld.tzBand_CHG_HI c z
  let lo (z : Nat) : Int := if dis then Fld.tzBand_DIS_LO c z else Fld.tzBand_CHG_LO c z
  let was := if dis then s.therm.disForbid else s.therm.chgForbid
  let first := (List.range 8).find? (fun z => decide (f (s.zone z) ≠ 0))
  let inside := (List.range 8).all (fun z => s.insideBand (hi z) (lo z) (s.zone z))
  let held := (List.range 8).any (fun z => decide (f (s.zone z) ≠ 0) && (s.zoneDead true z || (decide (2 ≤ f (s.zone z)) && s.zoneDead false z)))
  let back := sinceHeld s.now inside (if dis then s.therm.disBack else s.therm.chgBack)
  let permit := was && lasted s.now s.dwell back && !held
  let now := first.isSome && !permit
  let t := s.onTherm (fun t =>
    let zones := if permit then t.zones.map (fun x => if dis then { x with disF := 0 } else { x with chgF := 0 }) else t.zones
    if dis then { t with disForbid := now, disBack := back, zones := zones } else { t with chgForbid := now, chgBack := back, zones := zones })
  if now ≠ was then t.raise Ev.thermalForbid [first.getD 0, bit dis, bit now] else t

/-- The zones' part of a round. -/
def State.zonesRound (s : State) (pins : List (Option Int)) : State :=
  let cs := s.contributions pins
  let old := s.therm.zones
  let new := mapIdxL (fun z (x : Zone) => s.zoneRound cs (s.zoneDead false z) (s.zoneDead true z) z x) old
  let t := s.onTherm (fun x => { x with zones := new })
  let t := (List.range 8).foldl (fun u z => u.zoneEvents cs z (old.getD z Zone.reset) (new.getD z Zone.reset)) t
  let t := (t.direction false).direction true
  t.onTherm (fun x => { x with
    stepC := x.zones.foldl (fun m z => max m (max z.hi z.lo)) 0, stepD := x.zones.foldl (fun m z => max m z.hi) 0
    first := x.first && s.ring.last.isNone })

/-! ### Cooling outputs (R273 to R275) -/

/-- The hot temperature of an output's source. -/
def State.coolTemp (s : State) (n : Nat) : Option Int :=
  let src := Fld.coolCfg_SRC s.cfg n
  if src < 8 then (s.zone src).hot else maxI (s.therm.zones.filterMap (fun z => z.hot))

/-- An output's speed in rpm (R275): from the period of FTn in ns, 0 where it stands still, and the pulses of a revolution. -/
def State.coolSpeed (s : State) (n period : Nat) : Nat :=
  if period = 0 then 0 else (quot 60000000000 ((period * (Fld.coolCfg_PPR s.cfg n + 1) : Nat) : Int)).toNat

/-- One round of one output: duty, integrator, failure. -/
def State.coolRound (s : State) (tach : List Nat) (n : Nat) (x : Cooler) : Cooler :=
  let c := s.cfg
  let mode := Fld.coolCfg_MODE c n
  let least : Int := 10 * Fld.coolCfg_MIN c n
  let (duty, integ) := match s.coolTemp n with
    | none => ((x.duty : Int), x.integ)
    | some t =>
      if mode = 1 then
        let a := 100 * Fld.coolSet_T_LOW c n
        let b := 100 * Fld.coolSet_T_HIGH c n
        (least + (if t ≤ a then 0 else if b ≤ t then 1000 - least else quot ((1000 - least) * (t - a)) (b - a)), x.integ)
      else if mode = 2 then
        let err := t - 100 * Fld.coolSet_T_SET c n
        let p := 1000 * Fld.coolPi_KP c n * err
        let lo := 100000 * least
        let u := p + x.integ
        let i := if (u < 100000000 ∨ err < 0) ∧ (lo < u ∨ 0 < err) then x.integ + Fld.coolPi_KI c n * err else x.integ
        let i := clampI lo 100000000 i
        (quot (clampI lo 100000000 (p + i)) 100000, i)
      else (0, x.integ)
  let peerDown := (List.range 8).any (fun m => decide (m ≠ n) && (s.therm.coolers.getD m Cooler.reset).failed
    && decide (Fld.coolCfg_SRC c m = Fld.coolCfg_SRC c n))
  let duty := if mode = 0 then 0 else if peerDown then 1000 else duty.toNat
  let speed := s.coolSpeed n (tach.getD n 0)
  let lim := 50 * Fld.coolCfg_RPM_MIN c n
  let from_ := sinceHeld s.now (decide (300 ≤ duty)) x.dutyFrom
  let watched := decide (lim ≠ 0) && !Fld.coolCfg_DEST c n
  let fast := sinceHeld s.now (decide (lim < speed)) x.fastFrom
  { duty := duty, integ := integ, rpm := min speed 65535, dutyFrom := from_, fastFrom := fast
    failed := watched && (if x.failed then !lasted s.now 10000000000 fast
      else lasted s.now 5000000000 from_ && decide (speed < lim)) }

/-- The cooling part of a round. -/
def State.coolersRound (s : State) (tach : List Nat) : State :=
  let old := s.therm.coolers
  let new := mapIdxL (fun n (x : Cooler) => s.coolRound tach n x) old
  let t := s.onTherm (fun x => { x with coolers := new })
  (List.range 8).foldl (fun u n =>
    let a := old.getD n Cooler.reset
    let b := new.getD n Cooler.reset
    let u := if b.failed && !a.failed then u.raise Ev.fanFail [n] else u
    if a.duty ≠ b.duty then u.driveFan n else u) t

/-- Duties that go out as CAN FD objects owned by their output (R273, 15 R400): 0.1 % at bytes [1:0], the rest 0. -/
def State.coolersCan (s : State) : State :=
  s.canRows.foldl (fun u r =>
    if r.dir = 2 ∧ 1 ≤ r.owner ∧ r.owner ≤ 8 ∧ Fld.coolCfg_DEST s.cfg (r.owner - 1) = true then
      u.canData r (padTo r.length (toLe (s.therm.coolers.getD (r.owner - 1) Cooler.reset).duty 2))
    else u) s

/-- THERMAL_ROUND (R258 to R275): the next whole multiple of 10 ms, with what the temperature pins measure (none: open or short)
and the periods of the tachometers. No round runs until LE3 is loaded (18 Table 18.1), or while it reloads (02 Table 2.11). -/
def execThermalRound (pins : List (Option Int)) (tach : List Nat) (s : State) : Result :=
  let t := s.periodic 0 10000000
  let pins := mapIdxL (fun n (p : Option Int) => p.map (t.pinTemp n)) pins
  .next (if !t.therm.running || (t.fabric.engines.getD 15 Engine.reset).reloading then t
    else ((((t.sensorsRound pins).zonesRound pins).coolersRound tach).coolersCan).diagCycle 3)

/-! ### Acknowledgement (R272) -/

/-- The thermistor may be acknowledged. -/
def State.mayAck (s : State) (t : Nat) : Bool :=
  (s.sensor t).failed && !(s.sensor t).core && (s.standIn t).isSome

/-- THERMAL_ACK (R272): Both. -/
def execThermalAck (q : Fin 32) (s : State) : Result :=
  .next (s.hostRow q 0x14 anyArg (fun t d =>
    if !t.mayAck (d.argByte 0) then .refuse St.thermalState 0
    else
      let (u, waits) := t.acceptBoth d.cmd
      .accept 0 waits [] u))

/-- Its effect at the cycle boundary: from the next round the core temperature stands in. -/
def State.applyAck (s : State) (t : Nat) : State :=
  if s.mayAck t then
    (s.onTherm (fun x => { x with sensors := modAt x.sensors t (fun y => { y with core := true }) })).raise Ev.thCoreSubst [t]
  else s

/-- THERMAL_ACK_EXPIRED (R272). -/
def execThermalAckExpired (s : State) : Result :=
  .next (s.expireBoth (fun c => decide (c.opcode = 0x14)) Ev.thAckExpired (fun c => [byteAt c.arg 0]))

/-! ### The die (R277 to R279) -/

/-- The four sensors: which are within 5 K of their median, and the highest of those. -/
def dieUse (r : List Int) : List Bool := r.map (fun v => decide (mag (2 * v - median2 r) ≤ 100))
def dieTemp (r : List Int) : Int := (maxI ((r.zip (dieUse r)).filterMap (fun e => if e.2 then some e.1 else none))).getD 0

/-- The die's record after a sample: hot, barred, cooling. -/
def Die.sample (d : Die) (r : List Int) (now : Nat) : Die :=
  let t := dieTemp r
  { d with
    temp := t, sensors := dieUse r
    hot := decide (1000 ≤ t) || (d.hot && decide (950 < t))
    barred := decide (1100 < t ∨ t < -400) || (d.barred && !decide (t < 1050 ∧ -350 < t))
    coolFrom := sinceHeld now (d.off && decide (t ≤ 1000)) d.coolFrom }

/-- What a sample of the die records: a sensor that leaves the median, hot, writes barred and resumed. -/
def State.dieEvents (s : State) (old new : Die) : State :=
  let t := (List.range 4).foldl (fun v i => if old.sensors.getD i true && !new.sensors.getD i true then v.raise Ev.dieSensor [i] else v) s
  let t := if new.hot && !old.hot then t.raise Ev.dieHot [new.temp] else t
  if new.barred && !old.barred then t.raise Ev.nvmBarred [new.temp]
  else if old.barred && !new.barred then t.raise Ev.nvmResumed [new.temp] else t

/-- A sample of the die is taken. -/
def State.dieRead (s : State) (r : List Int) : State :=
  let old := s.therm.die
  let new := old.sample r s.now
  (((s.onTherm (fun x => { x with die := new })).onFabric (fun f => { f with tdieMax := max f.tdieMax new.temp })).dieEvents old new).writeHistory

/-- The shutdown is latched: the twin withdraws, a module that acts alone takes the safe state (R279). -/
def State.dieShutdown (s : State) : State :=
  (s.onTherm (fun x => { x with die := { x.die with shutdown := some (eventOf s.sysNs) } })).selfDiagnosis 3 (fun w => w.internalFault 0 true)

/-- DIE_SAMPLE (R277 to R279): the next whole millisecond, with the four sensors' readings; at 125 °C the shutdown. -/
def execDieSample (r0 r1 r2 r3 : Int) (s : State) : Result :=
  let t := (s.periodic 1 1000000).dieRead [r0, r1, r2, r3]
  .next (if 1250 ≤ t.therm.die.temp ∧ t.therm.die.shutdown.isNone ∧ t.therm.die.off = false then t.dieShutdown else t)

/-- DIE_WRITE_WINDOW_END (R279): the core supply goes off; writes not finished are abandoned. -/
def execDieWriteWindowEnd (s : State) : Result :=
  .next (match s.therm.die.shutdown with
    | some _ =>
      if s.therm.die.off then s
      else
        let t := s.advance (s.now + 2000000)
        (((t.outsOff.loopsOpen.onTherm (fun x => { x with die := { x.die with off := true, coolFrom := none } })).onLedger (fun l => { l with
          writing := none })).onGate (fun g => { g with stage := .off, captures := [] })).onLife (fun l => { l with phase := .off })
    | none => s)

end Sys2Proof.Machine
end

