-- ==== Sys2Proof/Machine/Time.lean ====
section
/-! DEFINITION. Commands of the time base (03). -/
namespace Sys2Proof.Machine

/-- Nominal increment and its bound (R62, R63). -/
def nominalInc : Int := 0x400000000
def incBound : Int := 3435974

/-- An increment from a deviation, held within R63. -/
def incOf (dev : Int) : BitVec 36 := BitVec.ofInt 36 (nominalInc + clampI (-incBound) incBound dev)

/-- The present deviation, TB_TRIM.DEV. -/
def TimeBase.dev (t : TimeBase) : Int := (t.increment.toNat : Int) - nominalInc

/-- The fine counter is set (at start only, R84): by minus an offset. -/
def TimeBase.setBy (t : TimeBase) (off : Int) : TimeBase :=
  { t with fine := BitVec.ofInt 96 ((t.fine.toNat : Int) - off * 4294967296) }

/-- An instant of the fine counter as it reads after the counter has been set by an offset. -/
def shiftNs (off : Int) (t : Nat) : Nat := ((t : Int) - off).toNat

def RingLine.shift (x : RingLine) (off : Int) : RingLine :=
  { x with tokenAt := x.tokenAt.map (shiftNs off), startAt := shiftNs off x.startAt, wholeSince := x.wholeSince.map (shiftNs off) }

def Sweep.shift (w : Sweep) (off : Int) : Sweep := { w with at_ := shiftNs off w.at_ }

/-- Instants kept by the rings; the grid goes on at the whole multiples of 250 µs (R69). -/
def Ring.shift (x : Ring) (off : Int) : Ring :=
  { x with
    lines := x.lines.map (fun l => l.shift off), grid := shiftNs off x.grid / 250000 * 250000, cur := x.cur.map (fun w => w.shift off)
    last := x.last.map (fun w => w.shift off), owed := x.owed.map (fun o => { o with at_ := shiftNs off o.at_ })
    late := x.late.map (fun l => { l with at_ := shiftNs off l.at_, from_ := shiftNs off l.from_ }) }

/-- Instants kept by the ledger until its gap is booked. -/
def Ledger.shift (x : Ledger) (off : Int) : Ledger :=
  { x with
    gapFrom := x.gapFrom.map (shiftNs off)
    base := x.base.map (fun l => l.map (fun b => { b with at_ := shiftNs off b.at_ })) }

/-- The counter is set in the start wait (R84): the lengths of what began before stay as they were. -/
def State.setCounter (s : State) (off : Int) : State :=
  { s with
    time := { s.time.setBy off with setOnce := true, startWait := s.time.startWait.map (shiftNs off) }
    ring := s.ring.shift off
    ledger := s.ledger.shift off
    twin := { s.twin with lastFrame := s.twin.lastFrame.map (fun o => o.map (shiftNs off)) }
    life := { s.life with t0 := shiftNs off s.life.t0, checkedAt := shiftNs off s.life.checkedAt } }

/-- Locked on a port (Table 3.11). -/
def lockState (port : Ep) : TimeState := if port = 0 then .lockedEp0 else if port = 1 then .lockedEp1 else .lockedEp2

/-- The servo slews an offset away (R80): the increment within R63, the run of small offsets, LOCKED and TRACEABLE. -/
def TimeBase.slew (t : TimeBase) (off : Int) : TimeBase :=
  let run := if mag off ≤ 1000 then t.lockRun + 1 else 0
  let locked := decide (mag off ≤ 1000) && (t.locked || decide (8 ≤ run))
  { t with
    increment := incOf (Config.servo off t.dev)
    lockRun := run
    locked := locked
    traceable := t.traceable || (locked && !t.locked && t.gm.isSome)
    st := lockState t.port }

def State.onTime (s : State) (f : TimeBase → TimeBase) : State := { s with time := f s.time }

/-- This module follows the twin's leader (R72, R73): it is no leader itself, and a partner in service is heard. -/
def State.isFollower (s : State) : Bool := s.isPair && !s.time.leader && (s.isJoined || (s.twin.partnerIn && s.twin.linkUp.any id))

/-- The ports' offsets are compared once both have measured since the last comparison (R78). -/
def State.portSkew (s : State) (ep : Ep) (off : Int) : State :=
  let t := s.onTime (fun x => { x with portOffset := x.portOffset.set ep (some off) })
  match t.time.portOffset.getD 0 none, t.time.portOffset.getD 1 none with
  | some a, some b =>
    let run := if 1000 < mag (a - b) then t.time.skewRun + 1 else 0
    let u := t.onTime (fun x => { x with skewRun := run, portOffset := [none, none, x.portOffset.getD 2 none] })
    if run = 10 then u.raise Ev.ptpPortSkew [a - b] else u
  | _, _ => t

/-- The port that serves (R78, Table 3.8): EP2 where it is the source, else EP0 or EP1. -/
def State.servoPort (s : State) : Ep :=
  if Fld.ptpCfg_SOURCE s.cfg = 1 then 2 else if s.time.port = 2 then 0 else s.time.port

/-- The jump threshold in ns (Table 3.7). -/
def State.jumpNs (s : State) : Nat := Fld.timeCfg_JUMP_US s.cfg * 1000

/-- A refused offset (R81). -/
def State.refuseJump (s : State) (off : Int) : State :=
  (s.onTime (fun x => { x with st := .refused, traceable := false, locked := false, lockRun := 0, jumpTest := false, taken := true })).raise
    Ev.timeJumpRefused [off, (s.time.gm.getD 0).toNat]

/-- An offset is measured on a port (R74, R78, R80 to R84); with no master selected there is none to act on. -/
def State.measured (s : State) (ep : Ep) (off : Int) : State :=
  let s := (s.portSkew ep off).onTime (fun x => { x with port := s.servoPort })
  if ep ≠ s.time.port ∨ s.time.gm = none then s
  else
    let s := s.onTime (fun x => { x with offset := off })
    if s.isFollower then
      let run := if 1000 < mag off then s.time.disagreeRun + 1 else 0
      let t := s.onTime (fun x => { x with disagreeRun := run })
      if run = 10 then t.raise Ev.timeDisagree [off] else t
    else if s.time.st = .refused then s
    else if !s.inService && s.time.startWait.isSome && !s.time.setOnce then
      (s.setCounter off).onTime (fun x => { x with st := lockState x.port, taken := true })
    else if (s.time.jumpTest || (s.inService && !s.time.taken)) && decide (s.jumpNs < mag off) then s.refuseJump off
    else s.onTime (fun x => { (x.slew off) with jumpTest := false, taken := true })

/-- The asymmetry correction of a port (R77). -/
def State.asym (s : State) (ep : Ep) : Int :=
  if ep = 0 then Fld.ptpAsym0_EP0 s.cfg else if ep = 1 then Fld.ptpAsym0_EP1 s.cfg else Fld.ptpAsym1_EP2 s.cfg

/-- The port serves the chosen source (Table 3.8), and the message is of the module's domain. -/
def State.ptpAccepts (s : State) (ep domain : Nat) : Bool :=
  let src := Fld.ptpCfg_SOURCE s.cfg
  decide (domain = Fld.ptpCfg_DOMAIN s.cfg) && (decide (src = 0 ∧ ep < 2) || decide (src = 1 ∧ ep = 2))

/-- Offset from master: arrival less origin, correction and the path delay with its asymmetry (R77). -/
def State.offsetOf (s : State) (ep : Ep) (ingress origin correction : Int) : Int :=
  ingress - origin - correction - (s.time.pathDelay.getD ep 0 - s.asym ep)

/-- PTP_SYNC (R80): a one-step Sync completes an offset; a two-step one waits for its Follow_Up. Times in system ns. -/
def execPtpSync (ep : Fin 3) (domain : Nat) (seq : BitVec 16) (twoStep : Bool) (ingress origin correction : Int) (s : State) : Result :=
  .next (s.ethIn ep (fun s => if !s.ptpAccepts ep domain then s
    else if twoStep then s.onTime (fun x => { x with syncWait := x.syncWait.set ep (some (seq, ingress - correction)) })
    else s.measured ep (s.offsetOf ep ingress origin correction)))

/-- PTP_FOLLOW_UP (R80). -/
def execPtpFollowUp (ep : Fin 3) (domain : Nat) (seq : BitVec 16) (origin correction : Int) (s : State) : Result :=
  .next (s.ethIn ep (fun s => match s.time.syncWait.getD ep none with
    | some (q, ingress) =>
      if s.ptpAccepts ep domain && decide (q = seq) then
        (s.onTime (fun x => { x with syncWait := x.syncWait.set ep none })).measured ep (s.offsetOf ep ingress origin correction)
      else s
    | none => s))

/-- A master is selected (R83): the first one after a start is no change; any other is recorded, and the first offset from it passes the
jump test. -/
def State.newMaster (s : State) (gm : BitVec 64) : State := match s.time.gmLast with
  | none => s.onTime (fun x => { x with gm := some gm, gmLast := some gm })
  | some old => (s.onTime (fun x => { x with
      gm := some gm, gmLast := some gm, traceable := false, jumpTest := true, lockRun := 0
      portOffset := [none, none, none] })).raise Ev.timeSourceChanged [gm.toNat, old.toNat]

/-- PTP_ANNOUNCE (R82, R83): `selected` is the master the BMCA picks among the qualified masters with this message,
`other` another qualified one; UTC offset and leap flags are taken. -/
def execPtpAnnounce (ep : Fin 3) (domain : Nat) (selected other : Option (BitVec 64)) (utc : Int) (leap61 leap59 utcValid : Bool)
    (s : State) : Result :=
  .next (s.ethIn ep (fun s => if !s.ptpAccepts ep domain then s
    else
      let t := s.onTime (fun x => { x with
        utcOffset := utc, leap61 := leap61, leap59 := leap59, utcValid := utcValid, otherMaster := other })
      match selected with
      | none => t
      | some g =>
        if t.time.gm = some g then t else t.newMaster g))

/-- PTP_DELAY_REQ_SEND (R77): a Delay_Req, or in the peer-to-peer profiles a Pdelay_Req, with its one-step origin time. -/
def execPtpDelayReqSend (ep : Fin 3) (s : State) : Result :=
  let seq := s.time.reqSeq.getD ep 0
  .next ((s.onTime (fun x => { x with reqSeq := x.reqSeq.set ep (seq + 1) })).emit
    (.ptp ep (if Fld.ptpCfg_PROFILE s.cfg = 0 then 1 else 2) [seq.toNat, s.sysNs]))

/-- PTP_DELAY_RESP (R77): from the four instants of the exchange, the mean path delay of the port.
DESIGN CHOICE: rounded down to whole nanoseconds (log 41). -/
def execPtpDelayResp (ep : Fin 3) (seq : BitVec 16) (t1 t2 t3 t4 : Int) (s : State) : Result :=
  .next (s.ethIn ep (fun s => if seq + 1 = s.time.reqSeq.getD ep 0 then
      s.onTime (fun x => { x with pathDelay := x.pathDelay.set ep (((t2 - t1) + (t4 - t3)) / 2) })
    else s))

/-- PTP_PDELAY_REQ (R77): answered by a one-step Pdelay_Resp whose correctionField carries the turnaround. -/
def execPtpPdelayReq (ep : Fin 3) (domain : Nat) (seq : BitVec 16) (ingress : Int) (s : State) : Result :=
  .next (s.ethIn ep (fun s => if s.ptpAccepts ep domain && decide (Fld.ptpCfg_PROFILE s.cfg ≠ 0) then
      s.emit (.ptp ep 3 [seq.toNat, (s.sysNs : Int) - ingress]) else s))

/-- ANNOUNCE_TIMEOUT (R82, R83): a move to another qualified master, or holdover; a refused state goes on, with no grandmaster. -/
def execAnnounceTimeout (s : State) : Result :=
  .next (match s.time.otherMaster with
    | some g => (s.onTime (fun x => { x with otherMaster := none })).newMaster g
    | none =>
      if s.time.gm.isNone then s
      else
        let t := s.onTime (fun x => { x with
          st := if x.st = .refused then .refused else .holdover
          traceable := false, locked := false, lockRun := 0, gm := none, jumpTest := true })
        if s.time.st = .refused then t else t.raise Ev.timeHoldover [])

/-- PTP_PORT_SWITCH (R78): EP0 has carried no valid Sync for 3 intervals. No change of source. -/
def execPtpPortSwitch (s : State) : Result :=
  .next (if Fld.ptpCfg_SOURCE s.cfg = 0 ∧ s.time.port = 0 then
      s.onTime (fun x => { x with port := 1, st := if x.st = .lockedEp0 then .lockedEp1 else x.st }) else s)

/-- PTP_PORT_SWITCH_BACK (R78). -/
def execPtpPortSwitchBack (s : State) : Result :=
  .next (if Fld.ptpCfg_SOURCE s.cfg = 0 ∧ s.time.port = 1 then
      s.onTime (fun x => { x with port := 0, st := if x.st = .lockedEp1 then .lockedEp0 else x.st }) else s)

/-- START_WAIT_EXPIRY (R84): a module that no source has set runs on from the checkpoint time; any later source passes the jump test. -/
def execStartWaitExpiry (s : State) : Result :=
  .next (match s.time.startWait with
    | some till => (s.advance till).onTime (fun x => { x with startWait := none, jumpTest := x.jumpTest || !x.setOnce })
    | none => s)

/-! ### Time commands (R85 to R87) -/

/-- The mode is permitted in this state (Table 3.5). -/
def State.timePermits (s : State) (mode : Nat) : Bool :=
  if mode = 3 then decide (Fld.ptpCfg_SOURCE s.cfg = 2) || (s.time.gm.isNone && s.time.otherMaster.isNone)
  else decide (s.time.st = .refused)

/-- The identity named is the present grandmaster (modes 1 and 2). -/
def State.timeNames (s : State) (mode : Nat) (gm : BitVec 64) : Bool := decide (mode = 3) || decide (s.time.gm = some gm)

/-- The step offset changes (R86): EV_TIME_STEPPED at the old system time; EPOCH rises (12 Table 12.5). -/
def State.stepTo (s : State) (newOffset : Int) : State :=
  let old := s.sysNs
  let t := { s with
    time := { s.time with stepOffset := newOffset, stepped := true }
    safety := { s.safety with sfEpoch := s.safety.sfEpoch + 1 } }
  t.raiseAt old Ev.timeStepped [eventOf old, eventOf t.sysNs]

/-- An accepted time command at its cycle boundary: judged again, then its effect (R85, Table 3.5). Each ends a refused state (R81): a step
or a resume follows the grandmaster it names with no further test, a set leaves the module in holdover. A follower steps by the leader's
offset, as both apply the same value (R87). -/
def State.applyTime (s : State) (c : Cmd) : State :=
  let mode := byteAt c.arg 0
  let gm := BitVec.ofNat 64 (leAt c.arg 8 8)
  let goesOn (x : TimeBase) : TimeBase :=
    { x with st := if s.isFollower then .follower else lockState s.servoPort, lockRun := 0, jumpTest := false }
  if !s.timePermits mode || !s.timeNames mode gm then s.raise Ev.timeStepExpired [mode, 1]
  else if mode = 1 then (s.stepTo (s.time.stepOffset - (if s.isFollower then s.time.leadOffset else s.time.offset))).onTime goesOn
  else if mode = 2 then s.onTime goesOn
  else (s.stepTo ((nsOfEvent (leAt c.arg 16 8) : Int) - s.now)).onTime (fun x => { x with
    st := if x.st = .refused then .holdover else x.st, traceable := false, jumpTest := true })

/-- The command's own checks in order (R65, R85), then acceptance as a Both command (R87). -/
def timeCommand (mode : Nat) (s : State) (d : Desc) : Verdict :=
  if mode = 3 ∧ !eventValid (d.argLe 16 8) then .refuse St.fieldRange 48
  else if !s.timePermits mode then .refuse St.timeState 0
  else if !s.timeNames mode (BitVec.ofNat 64 (d.argLe 8 8)) then .refuse St.timeSourceChanged 0
  else match s.acceptBoth d.cmd with
    | (t, waits) => .accept 0 waits [] t

def execTimeStep (q : Fin 32) (s : State) : Result := .next (s.hostRow q 0x20 (op0 1) (timeCommand 1))
def execTimeResume (q : Fin 32) (s : State) : Result := .next (s.hostRow q 0x20 (op0 2) (timeCommand 2))
def execTimeSet (q : Fin 32) (s : State) : Result := .next (s.hostRow q 0x20 (op0 3) (timeCommand 3))

/-- TIME_CMD_EXPIRED (R87). -/
def execTimeCmdExpired (s : State) : Result :=
  .next (s.expireBoth (fun c => decide (c.opcode = 0x20)) Ev.timeStepExpired (fun c => [byteAt c.arg 0, 0]))

/-- TIME_STAT as read (Table 3.11). -/
def TimeState.code : TimeState → Nat
  | .free => 0
  | .lockedEp0 => 1
  | .lockedEp1 => 2
  | .lockedEp2 => 3
  | .follower => 4
  | .holdover => 5
  | .refused => 6

def TimeBase.stat (t : TimeBase) : Word :=
  BitVec.ofNat 32 (t.st.code + putAt (bit t.rateValid) 3 + putAt (bit t.traceable) 4 + putAt (bit t.locked) 5
    + putAt (bit t.leader) 6 + putAt (bit t.stepped) 7
    + putAt (BitVec.ofInt 24 (clampI (-8388607) 8388607 t.offset)).toNat 8)

/-- TIME_STATUS (R64): the fields of its 32-byte response. -/
def timeStatusBytes (s : State) : List Byte :=
  packBytes [(8, eventOf s.sysNs), (8, (s.time.gm.getD 0).toNat), (4, s.time.stat.toNat), (2, s.time.utcOffset),
    (1, ((bit s.time.leap61 + 2 * bit s.time.leap59 + 4 * bit s.time.utcValid : Nat) : Int)), (1, 0), (8, s.time.stepOffset)]

def timeStatusOp (s : State) (_ : Desc) : Verdict := .accept 32 false (timeStatusBytes s) s

def execTimeStatus (q : Fin 32) (s : State) : Result := .next (s.hostRow q 0x21 anyArg timeStatusOp)

/-! ### The twin's time (R72 to R76) -/

/-- The two links' results stand more than 10 ns apart (R72): recorded once they have for 1 s. -/
def State.pairSkew (s : State) : State :=
  let a := s.time.pairResult.getD 0 none
  let b := s.time.pairResult.getD 1 none
  let apart := match a, b with
    | some x, some y => decide (10 < mag (x - y))
    | _, _ => false
  let from_ := if apart then some (s.time.pairSkewSince.getD s.now) else none
  let due := match from_ with | some t => decide (t + 1000000000 ≤ s.now) && !s.time.pairSkewTold | none => false
  let u := s.onTime (fun x => { x with pairSkewSince := from_, pairSkewTold := apart && (x.pairSkewTold || due) })
  if due then u.raise Ev.pairTimeSkew [a.getD 0 - b.getD 0] else u

/-- The follower takes the leader's step offset (R72). -/
def State.copyStep (s : State) (stepOffset : Int) : State :=
  if s.time.stepOffset = stepOffset then s
  else { s with
    time := { s.time with stepOffset := stepOffset, stepped := true }
    safety := { s.safety with sfEpoch := s.safety.sfEpoch + 1 } }

/-- PAIR_TIME_MESSAGE (R72, R73, R84): `diff` is this module's fine counter less the leader's by this link's exchange, with
half its round trip taken out; the leader's step offset, its latest measured offset, TRACEABLE and whether it is in the refused state come
with it, and whether the partner's committed time registers equal this twin's. The counter is set once before service, and steered from then
on. -/
def execPairTimeMessage (link : Fin 2) (diff stepOffset : Int) (lead : LeadTime) (cfgSame : Bool) (s : State) : Result :=
  let s := s.linkHeard link
  let s := if !cfgSame && !s.time.cfgDiff && s.isPair then s.raise Ev.timeCfgMismatch [] else s
  let s := s.onTime (fun x => { x with cfgDiff := !cfgSame, pairResult := x.pairResult.set link (some diff), leadOffset := lead.offset })
  .next (if !s.isPair || s.time.leader then s
    else
      let used := if s.twin.linkUp.getD 0 false then 0 else 1
      let s := s.pairSkew
      if link.val ≠ used then s
      else
        let st := if lead.refused then TimeState.refused else .follower
        if !s.inService && !s.time.setOnce then (s.setCounter diff).onTime (fun x => { x with stepOffset := stepOffset, st := st })
        else (s.copyStep stepOffset).onTime (fun x => { x with
          increment := incOf (Config.servo diff x.dev), locked := decide (mag diff ≤ 100), traceable := lead.traceable, st := st }))

/-- A follower becomes its own leader (R73, R75): it goes on from its own measurement, in holdover without a grandmaster. -/
def TimeBase.leads (x : TimeBase) : TimeBase :=
  { x with leader := true, st := if x.st = .follower then (if x.gm.isSome then lockState x.port else .holdover) else x.st }

/-- PAIR_TIME_SEND (R72): every 1 ms on each link. -/
def execPairTimeSend (link : Fin 2) (s : State) : Result := .next (s.pairSendOn link (.time s.now s.time.stepOffset))

/-! ### Oscillator (R67, R68) and EVT_NOW -/

/-- OSC_FAIL: the time base is not valid; a failed self-diagnosis in the pair, else the safe state (function 13). -/
def execOscFail (s : State) : Result :=
  .next (((s.raise Ev.oscFail []).onTime (fun x => { x with rateValid := false })).selfDiagnosis 2
    (fun t => t.internalFault 255 false))

/-- OSC_BACKUP_SWITCH: 100 µs later the tick continues on the backup oscillator. -/
def execOscBackupSwitch (s : State) : Result := .next (s.onTime (fun x => { x with onBackup := !x.rateValid }))

/-- EVT_NOW_LO_READ (Table 3.2): HI is latched. -/
def execEvtNowLoRead (s : State) : Result :=
  .next (s.readReg Reg.evtNow (BitVec.ofNat 32 (eventOf s.sysNs)) (fun t => t.onTime (fun x => { x with
    hiLatch := BitVec.ofNat 32 (eventOf s.sysNs / 2 ^ 32) })))

end Sys2Proof.Machine
end

