-- ==== Sys2Proof/Machine/StartOps.lean ====
section
/-! DEFINITION. A start of the module (18 R452 to R458): what each part keeps, the load of the configuration, the saved state and the
ledger, the load of the engines. -/
namespace Sys2Proof.Machine

/-! ### What a start leaves of each part: what MRAM, flash, the one-time-programmable store and the standby domain hold -/

def Chain.restart (x : Chain) : Chain := { Chain.reset with stored := x.stored }

def Engine.restart (x : Engine) : Engine := { Engine.reset with faults := x.faults, failed := x.failed }

def Fabric.restart (x : Fabric) : Fabric :=
  { Fabric.reset with
    engines := x.engines.map Engine.restart, history := x.history, historyWaits := x.historyWaits, readDays := x.readDays, planAt := x.planAt }

/-- The ledger image a start goes on from: the newest whose check value is good (07 R198). -/
def newestOf : List (Option Image) → Option Image
  | [] => none
  | i :: l => match i.filter (fun a => a.good), newestOf l with
    | some a, some b => some (if b.w ≤ a.w then a else b)
    | some a, none => some a
    | none, r => r

def Ledger.newest (x : Ledger) : Option Image := newestOf x.images

/-- The time base at t0: the fine counter from the event time of the last ledger checkpoint (03 R84). -/
def TimeBase.start (ns : Nat) (osc : Bool) : TimeBase :=
  { TimeBase.reset with fine := BitVec.ofNat 96 (ns * 2 ^ 32), rateValid := osc, onBackup := !osc }

/-- The place that a start writes first: the one that does not hold the image it goes on from. -/
def Ledger.freePlace (x : Ledger) : Nat := match x.images.getD 0 none, newestOf x.images with
  | some a, some i => if a.good && decide (a = i) then 1 else 0
  | _, _ => 0

def Ledger.restart (x : Ledger) : Ledger := { Ledger.reset with images := x.images, place := x.freePlace, store := x.store }

def Gate.restart (x : Gate) : Gate := { Gate.reset with slots := x.slots, newBits := x.newBits }

def Therm.restart (x : Therm) : Therm :=
  { Therm.reset with die := { Die.reset with temp := x.die.temp, sensors := x.die.sensors, barred := x.die.barred, shutdown := x.die.shutdown } }

/-- A load cut short leaves its bank empty; a switch that was armed leaves it admitted. -/
def Bank.restart (x : Bank) : Bank := { x with load := none, st := if x.st = 1 then 0 else if x.st = 5 then 3 else x.st }

def CycEng.restart (x : CycEng) : CycEng := { CycEng.reset with savedM := x.savedM }

def Prog.restart (x : Prog) : Prog :=
  { Prog.reset with
    banks := x.banks.map Bank.restart, active := x.active, rollback := x.rollback, forces := x.forces
    engines := x.engines.map CycEng.restart }

def HostPort.restart (x : HostPort) : HostPort := { HostPort.reset with keys := x.keys, linkUp := x.linkUp }

def Recorder.restart (x : Recorder) : Recorder :=
  { Recorder.reset with
    slots := x.slots, firstRseq := x.firstRseq, nextRseq := x.nextRseq, suppressed := x.suppressed, clears := x.clears
    hdrNext := x.hdrNext, powerLoss := x.powerLoss }

/-- A catch-up that failed for good is remembered (16 R431). -/
def CatchUp.lasting (c : CatchUp) : Bool := (match c.step with | .failed => true | _ => false) && decide (c.attempt = 3)

/-- A retired twin stays so (16 R427). -/
def Twin.restart (x : Twin) : Twin :=
  { Twin.reset with
    st := if x.st = .retired then .retired else .single
    cause := x.cause, history := x.history, exposure := x.exposure, catchUp := x.catchUp.filter CatchUp.lasting }

def Setup.restart (x : Setup) : Setup := { Setup.reset with stored := x.stored, storedBlk := x.storedBlk }

/-- An install cut short leaves a slot that fails its checks (R465). -/
def Life.restart (x : Life) (now : Nat) : Life :=
  { Life.reset with
    phase := .held, t0 := now, serial := x.serial, grade := x.grade, board := x.board, lineage := x.lineage
    blHighest := x.blHighest, recNext := x.recNext, holdupLow := x.holdupLow, probation := x.probation
    verSlot := x.verSlot, slotNew := x.slotNew
    recCause := if x.phase = .recovery then x.recCause else 0
    slotOk := x.slotOk && decide (x.fw ≠ .installing)
    fw := if x.slotNew then .installed else .nothing }

/-! ### t0 (R452) -/

/-- Detected events that the recorder has not taken up are taken up before the engines stop. -/
def State.flushEvents (s : State) : State := s.rec_.detected.foldl (fun u _ => u.takeEvent) s

def State.restart1 (s : State) : State :=
  { s with
    chain := s.chain.restart, fabric := s.fabric.restart, ring := Ring.reset, meas := Meas.reset
    est := { Est.reset with saved := s.est.saved } }

def State.restart2 (s : State) : State :=
  { s with
    ledger := s.ledger.restart, gate := s.gate.restart, loop := Loop.reset, therm := s.therm.restart, disp := Disp.reset
    safety := Safety.reset }

def State.restart3 (s : State) : State :=
  { s with
    prog := s.prog.restart, host := s.host.restart, plant := Plant.reset, twin := s.twin.restart, rec_ := s.rec_.restart
    setup := s.setup.restart }

/-- The entry of the stored site configuration for an address. -/
def State.storedEntry (s : State) (a : Nat) : Option SiteEntry :=
  ((s.setup.storedBlk.find? (fun b => decide (b.1 = 3))).map (fun b => b.2)).bind (fun b => siteEntryIn b a)

/-- The stored configuration makes the module a twin. -/
def State.storedPair (s : State) : Bool := match s.storedEntry (s.chain.stored.getD 0) with
  | some e => decide (2 ≤ e.kind)
  | none => false

/-- A start (R452): every engine stops, the fine counter goes on from the newest ledger image, pins are released, outputs off, in the
pair the loop bridges closed. A die shutdown that was latched is recorded (10 R279). DESIGN CHOICE: with no checkpoint
in MRAM the counter begins at 0 (log 42). -/
def State.beginStart (s : State) (osc : Bool) : State :=
  let s := s.flushEvents
  let ns := match s.ledger.newest with | some i => nsOfEvent i.w | none => 0
  let t := ((s.restart1.restart2).restart3)
  let u := (({ t with time := TimeBase.start ns osc }).onLife (fun l => l.restart ns)).onSafety (fun x => { x with bridges := t.storedPair })
  let u := u.onTime (fun x => { x with startWait := some (ns + Fld.timeCfg_START_WAIT u.cfg * 1000000000) })
  let u := u.releasePins
  match u.therm.die.shutdown with
  | some e => (u.onTherm (fun x => { x with die := { x.die with shutdown := none } })).raise Ev.dieShutdown [e]
  | none => u

/-! ### The configuration and the saved state (R453, R457, R483, 07 R198, 06 R155, 13 R358) -/

/-- Guard mode at a start (R457, 00 R7, 03 R68), and the behaviour level taken. -/
def State.startsInGuard (s : State) : Bool := match s.storedEntry s.chain.addr with
  | some e => decide (s.life.blHighest < e.level) || !s.time.rateValid
  | none => true

/-- The configuration loaded from MRAM: in guard mode the reset values and the built-in blocks. -/
def State.loadConfig (s : State) : State :=
  let guard := s.startsInGuard
  let e := s.storedEntry s.chain.addr
  let level := match e with
    | some x => if x.level ≤ s.life.blHighest then x.level else 1
    | none => 1
  let t := s.onSetup (fun x => { x with
    active := if guard then [] else x.stored, staged := if guard then [] else x.stored, blocks := [], blocksAct := if guard then [] else x.storedBlk })
  let u := t.onLife (fun l => { l with guard_ := guard, blRunning := level })
  match e with
  | some x => if u.life.blHighest < x.level then u.raise Ev.blUnsupported [x.level, u.life.blHighest] else u
  | none => u

/-- The identity is formed, and the role it gives is taken (01 R35, R36). -/
def State.takeRole (s : State) : State := s.takeClass (match s.life.guard_, s.storedEntry s.chain.addr with
  | false, some e => e.kind - 1
  | _, _ => 0)

/-- The ledger goes on from an image; nothing is booked until the gap is (07 R198, R201). -/
def Ledger.load (x : Ledger) (i : Image) : Ledger :=
  { x with
    open_ := true, bal := i.bal, lseq := i.lseq, number := i.number, rem := i.rem, path := i.path
    base := i.base.map (fun b => b.toList), held := i.held, heldCs := i.heldCs, heldFg := i.heldFg, starts := i.starts
    qbal := i.qbal.map (fun q => if q = [] then none else some q), gap := some i }

/-- What an image journalled and the stream does not have yet is released, in LSEQ order (07 R202). -/
def State.releaseJournalled (s : State) (i : Image) : State :=
  s.releaseRecs (i.recs.filter (fun r => !s.ledger.store.contains r))

/-- The ledger at a start (07 R198, R199, R202): the newest image, or a new ledger where none is usable or the identity is another's. A
twin waits for its partner's, and opens one only when it enters service by itself. -/
def State.loadLedger (s : State) : State :=
  let ident := s.chain.identityNext.getD s.chain.identity
  let new (old : Nat) : State := if s.isPair then s.onLedger (fun l => { l with oldNumber := old }) else s.openLedger old
  match s.ledger.newest with
  | some i =>
    if ident.toNat / 4 = i.ident.toNat / 4 then (s.onLedger (fun l => l.load i)).releaseJournalled i else new i.number.toNat
  | none => new 0

/-- The estimator's saved state: every cell starts CONVERGING, with the time and the charge that the ledger booked from the checkpoint to
its final image to be made up (06 R155); without one every cell starts from the model block. -/
def State.loadEst (s : State) : State := match s.est.saved with
  | some (t, cells, q) =>
    let lag := match s.ledger.gap with | some i => nsOfEvent i.booked - nsOfEvent t | none => 0
    let away (c : Nat) : Int := if s.ledger.gap.isSome then 1000000 * (s.ledger.bal.booked.getD c 0 - q.getD c 0) else 0
    s.onEst (fun e => { e with
      cells := mapIdxL (fun c (x : EstCell) =>
        { x with st := .converging, since := s.now, usable := 0, usedAt := 0, extra := 0, lag := lag, away := away c }) cells })
  | none => s.onEst (fun e => { e with cells := e.cells.map (fun x => { x with model := (modelOf s.modelBlock).start }) })

/-- The active image is checked (13 R358); forces are kept (13 R366). -/
def State.loadProg (s : State) : State :=
  let b := s.prog.banks.getD s.prog.active ⟨0, none, none⟩
  let t := match b.image with
    | some g => if b.st = 4 ∧ g.blMin ≤ s.life.blRunning then s
        else (s.onProg (fun p => { p with banks := p.banks.set p.active ⟨6, none, none⟩ })).raise Ev.progInvalid [g.id.toNat]
    | none => s
  if t.prog.forces = [] then t else t.raise Ev.forcesActive [t.prog.forces.length]

/-- The recorder is reached: events lost at the last supply loss get their record (17 R445), a ROM recovery that has ended its event
(18 R470). -/
def State.startRecorder (s : State) : State :=
  let o := s.rec_.powerLoss
  let s := if s.life.recCause = 0 then s else s.raise Ev.romRecovery [s.life.recCause]
  let t := { s with rec_ := { s.rec_ with started := true, powerLoss := Tally.zero } }
  if o.count = 0 then t
  else t.store ⟨eventOf t.sysNs, Ev.recorderOverflow.code, Ev.recorderOverflow.sev,
    [(o.count : Int), o.earliest, o.latest, o.sev, 1]⟩ false false

/-- The start wait of 03 R84, from t0. -/
def State.startWaitFrom (s : State) : State := s.onTime (fun x => { x with
  startWait := if x.startWait.isSome then some (s.life.t0 + Fld.timeCfg_START_WAIT s.cfg * 1000000000) else none })

/-- What is loaded from MRAM once the image has been checked. -/
def State.loadSaved (s : State) : State :=
  ((((((s.loadConfig).takeRole).startWaitFrom).startRecorder).loadLedger).loadEst).loadProg

/-! ### The other engines (R453) -/

/-- The profile and sweep rate in force at a start. -/
def State.startProfile (s : State) : State :=
  let p := Fld.profileCtl_SELECT s.cfg
  s.onFabric (fun f => { f with profile := p, sweepUs := sweepOf p (Fld.profileCtl_SWEEP s.cfg), sweepNext := none })

/-- The engines are loaded, the cycle engines in STOP until their restart choice; the transmitters come on. -/
def State.loadEngines (s : State) : State :=
  let t := (s.startProfile).onEst (fun e => { e with running := [true, true, true, true] })
  let u := t.seatEngines
  let v := u.onProg (fun p => { p with engines := p.engines.map (fun x => { x with choice := decide (x.mode ≠ .idle) }) })
  v.onLoop (fun l => { l with mode := Fld.loopCtl_MODE v.cfg })

/-- Ring starts of every ring, and a link start. -/
def State.startLines (s : State) : State :=
  let t := (List.range 8).foldl (fun u r => u.ringStart r) s
  t.linkStart

end Sys2Proof.Machine
end

