-- ==== Sys2Proof/Machine/Commit.lean ====
section
/-! DEFINITION. The commit of the set-up registers (19 R478 to R484): staging, snapshots, the boundary, the pair's matching (16 R415), and
what an applied commit does. -/
namespace Sys2Proof.Machine

/-! ### Staging (R478, R481) -/

def State.discardCounted (s : State) : State := s.onSetup (fun x => { x with discards := satAdd x.discards 1 65535 })

/-- In ROM recovery only the registers up to 0x005B and those of queue pair 0 are present (R484). -/
def inRecovery (off : Nat) : Bool :=
  decide (off < 0x5C) || [Reg.qpSqbl, Reg.qpSqbh, Reg.qpCqbl, Reg.qpCqbh, Reg.qpCfg, Reg.qpLim, Reg.qpStat, Reg.qpCred].contains off

/-- A register with an RW field takes the bits of its RW fields; every other write is discarded (R478). -/
def State.stageWrite (s : State) (off : Nat) (value : Word) : State :=
  match rowOf off with
  | some r =>
    if r.access = .rw ∧ (s.life.phase = .recovery → inRecovery off) then
      s.onSetup (fun x => { x with staged := x.staged.take (off, value) })
    else s.discardCounted
  | none => s.discardCounted

/-- A register and value put in ascending order of offset. -/
def insertReg (e : Nat × Word) : List (Nat × Word) → List (Nat × Word)
  | [] => [e]
  | x :: l => if e.1 < x.1 then e :: x :: l else if e.1 = x.1 then e :: l else x :: insertReg e l

/-- The staging copies that differ from their active values, ascending. -/
def regDiff (staged active : RegBank) : List (Nat × Word) :=
  let offs := (staged.map (fun e => e.1)) ++ ((active.map (fun e => e.1)).filter (fun o => !staged.any (fun e => decide (e.1 = o))))
  (offs.filter (fun o => decide (staged.get o ≠ active.get o))).foldl (fun l o => insertReg (o, staged.get o) l) []

/-! ### A commit's end -/

/-- The pending commit ends in a state, and raises its vector on states 3 to 6 where IRQ was set. -/
def State.commitEnds (s : State) (p : Snapshot) (st : Nat) : State :=
  let t := s.onSetup (fun x => { x with pending := none, cState := st, cTag := p.tag })
  if p.irq then t.emit (.irq p.vector) else t

/-! ### GO and DISCARD (R479, R481) -/

/-- A queue register, which is no pair register (16 R415). -/
def queueReg (off : Nat) : Bool := decide (0x1000 ≤ off ∧ off < 0x1300)

/-- The pair registers of a snapshot. -/
def Snapshot.pairRegs (p : Snapshot) : List (Nat × Word) := p.regs.filter (fun r => !queueReg r.1)

/-- It holds something that both twins must commit. -/
def Snapshot.both (p : Snapshot) : Bool := !p.pairRegs.isEmpty || !p.blocks.isEmpty

/-- How the module tells its partner of a commit of pair registers: a COMMAND frame of opcode 0 (DESIGN CHOICE: the spec names no frame
for it). -/
def Snapshot.cmd (p : Snapshot) : Cmd :=
  ⟨0, toLe p.pairRegs.length 2,
    p.pairRegs.flatMap (fun r => toLe r.1 4 ++ toLe r.2.toNat 4) ++ p.blocks.flatMap (fun b => toLe b.1 4 ++ toLe b.2.length 4 ++ b.2)⟩

def readRegs (l : List Byte) : Nat → List (Nat × Word)
  | 0 => []
  | n + 1 => (leAt l 0 4, BitVec.ofNat 32 (leAt l 4 4)) :: readRegs (l.drop 8) n

def readBlocks (l : List Byte) : Nat → List (Nat × List Byte)
  | 0 => []
  | n + 1 => if l = [] then [] else
      let k := leAt l 4 4
      (leAt l 0 4, (l.drop 8).take k) :: readBlocks (l.drop (8 + k)) n

/-- The partner's commit, received. -/
def State.takePeerGo (s : State) (c : Cmd) (at_ : Nat) : State :=
  let n := leAt c.arg 0 2
  s.onSetup (fun x => { x with peerGo := some ⟨readRegs c.data n, readBlocks (c.data.drop (8 * n)) 3, at_⟩ })

/-- A snapshot that still waits is superseded (R479). -/
def State.supersede (s : State) : State := match s.setup.pending with
  | some p => s.commitEnds p 6
  | none => s

/-- A snapshot is taken; an earlier one that still waits is superseded. -/
def State.go (s : State) (irq : Bool) (vector : Nat) (tag : BitVec 16) : State :=
  let t := s.supersede
  let p : Snapshot := ⟨tag, irq, vector, regDiff t.setup.staged t.setup.active, t.setup.blocks, t.now, none⟩
  let u := t.onSetup (fun x => { x with
    pending := some p, cState := 1, cTag := tag, cStatus := 0, cOffset := 0, cDetail := 0 })
  if p.both then u.pairSend (.command p.cmd 0 u.now) else u

/-- A write of CFG_COMMIT (R479, R481). -/
def State.commitWord (s : State) (w : Word) : State :=
  let go := bitsOf w 0 0 = 1
  let discard := bitsOf w 1 1 = 1
  if go ∧ discard then s.discardCounted
  else if go then s.go (decide (bitsOf w 8 8 = 1)) (bitsOf w 14 9) (BitVec.ofNat 16 (bitsOf w 31 16))
  else if discard then s.discardStaged
  else s

/-- CFG_COMMIT_GO (R479): a write with GO; one with DISCARD too is discarded and counted (R481). -/
def execCfgCommitGo (discard irq : Bool) (vector : Fin 64) (tag : BitVec 16) (s : State) : Result :=
  .next (if discard then s.discardCounted else s.go irq vector.val tag)

/-- CFG_COMMIT_DISCARD (R481). -/
def execCfgCommitDiscard (s : State) : Result := .next s.discardStaged

/-- STAGED_REGISTER_WRITE (R478): a write at a byte offset of BAR0 with a width in bits. -/
def execStagedRegisterWrite (offset : BitVec 16) (value : Word) (width : Nat) (s : State) : Result :=
  let off := offset.toNat
  .next (if width ≠ 32 ∨ off % 4 ≠ 0 ∨ 0x8000 ≤ off then s.discardCounted
    else if off = Reg.cfgCommit then s.commitWord value
    else s.stageWrite off value)

/-- CFG_PEND (Table 19.9). -/
def State.pendWord (s : State) : Word :=
  let n := (regDiff s.setup.staged s.setup.active).length
  let k := fun i => bit (s.setup.blocks.any (fun b => decide (b.1 = i)))
  BitVec.ofNat 32 (n % 1024 + 1024 * (k 1 + 2 * k 2 + 4 * k 3) + 65536 * s.setup.discards)

/-- CFG_PEND_READ: DISCARDS clears. -/
def execCfgPendRead (s : State) : Result :=
  .next (s.readReg Reg.cfgPend s.pendWord (fun t => t.onSetup (fun x => { x with discards := 0 })))

/-- CFG_CTIME_LO_READ: LO is read and HI latched. -/
def execCfgCtimeLoRead (s : State) : Result :=
  .next (s.readReg Reg.cfgCtime (s.setup.cTime.setWidth 32)
    (fun t => t.onSetup (fun x => { x with cTimeHi := (x.cTime >>> 32).setWidth 32 })))

/-! ### The boundary (R479, R415, 18 R475) -/

/-- The commit must be matched in the other twin: in the pair, unless this twin runs alone (R415, R435). -/
def State.mustMatch (s : State) (p : Snapshot) : Bool := s.isPair && !s.isAlone && p.both

/-- The partner's matching commit, while joined: when it was given. -/
def State.matchOf (s : State) (p : Snapshot) : Option Nat := match s.setup.peerGo with
  | some g =>
    if s.isJoined ∧ g.regs = p.pairRegs ∧ g.blocks = p.blocks ∧ p.at_ ≤ g.at_ + 10000000000 ∧ g.at_ ≤ p.at_ + 10000000000 then some g.at_
    else none
  | none => none

/-- The boundary for a GO at an instant: 0.5 ms on; a change of the behaviour level waits for the first whole second at least 10 ms on. -/
def State.boundaryFor (s : State) (p : Snapshot) (at_ : Nat) : Nat :=
  if (s.levelChange p.blocks).isSome then atOrAfter (at_ + 10000000) (Nat.lcm s.baseCycle 1000000000)
  else atOrAfter (at_ + 500000) s.baseCycle

/-- When the snapshot takes effect; none while it has no match. -/
def State.effectAt (s : State) (p : Snapshot) : Option Nat :=
  if s.mustMatch p then (s.matchOf p).map (fun g => s.boundaryFor p (max p.at_ g)) else some (s.boundaryFor p p.at_)

/-- The commit as it stands at this boundary. -/
def State.judged (s : State) (p : Snapshot) : Judged :=
  ⟨s, p.regs.foldl (fun b r => b.put r.1 r.2) s.setup.active, p.regs.map (fun r => r.1), p.blocks⟩

/-- A refusal (R480): nothing of the commit takes effect, and it stays staged. -/
def State.refuseCommit (s : State) (p : Snapshot) (f : Fail) : State :=
  let t := s.raise Ev.commitRefused [p.tag.toNat, f.status, f.offset, f.detail]
  let u := if f.status = St.admissionRefused ∧ f.offset = Reg.profileCtl then
      t.raise Ev.profileRefused [Fld.profileCtl_SELECT (s.judged p).n, 0] else t
  (u.onSetup (fun x => { x with
    cStatus := f.status, cOffset := f.offset, cDetail := f.detail, peerGo := if p.both then none else x.peerGo })).commitEnds p 4

/-! ### The store (R483, R457) -/

/-- Blocks by KIND, newer ones before older ones. -/
def mergeBlocks (new old : List (Nat × List Byte)) : List (Nat × List Byte) :=
  [1, 2, 3].filterMap (fun k => (new ++ old).find? (fun b => decide (b.1 = k)))

/-- The configuration region is written; while writes are barred it waits (10 R278). Queue registers are never stored. -/
def State.storeConfig (s : State) : State :=
  if s.life.phase = .recovery then s
  else if s.nvmBarred then s.onSetup (fun x => { x with storeDue := true })
  else s.onSetup (fun x => { x with
    stored := x.active.filter (fun e => !queueReg e.1), storedBlk := mergeBlocks x.blocksAct x.storedBlk, storeDue := false })

/-! ### What an applied commit does -/

/-- The registers and blocks become active; what was staged again since stays staged. -/
def State.takeSnapshot (s : State) (p : Snapshot) : State :=
  s.onSetup (fun x => { x with
    active := (s.judged p).n
    blocksAct := mergeBlocks p.blocks x.blocksAct
    blocks := x.blocks.filter (fun b => !p.blocks.contains b)
    cTime := BitVec.ofNat 64 (eventOf s.sysNs)
    peerGo := if p.both then none else x.peerGo })

/-- Guard mode ends where the block gives the address an entry of the single configuration (18 R457): the stored blocks come into use,
and the entry's level runs (00 R7). -/
def State.leaveGuard (s : State) : State := match s.siteEntry s.chain.addr with
  | some e =>
    if !s.life.guard_ || decide (e.kind ≠ 1) || !s.time.rateValid then s
    else if s.life.blHighest < e.level then s.raise Ev.blUnsupported [e.level, s.life.blHighest]
    else (s.onSetup (fun x => { x with blocksAct := mergeBlocks x.blocksAct x.storedBlk })).onLife
      (fun l => { l with guard_ := false, blRunning := e.level })
  | none => s

/-- A site configuration: guard mode may end, the level may change (18 R475), an identity is formed (01 R36). -/
def State.newSite (s : State) (p : Snapshot) (change : Option (Nat × Nat)) : State :=
  if p.blocks.any (fun b => decide (b.1 = 3)) then
    let t := (s.leaveGuard).formIdentity
    match change with
    | some (old, new) => (t.onLife (fun l => { l with blRunning := new })).raise Ev.blChanged [old, new]
    | none => t
  else s

/-- A model block that comes into use gives every cell its starting parameters (06 R143). -/
def State.newModel (s : State) (old : List Byte) : State :=
  if s.modelBlock = old then s
  else s.onEst (fun e => { e with cells := e.cells.map (fun x => { x with model := (modelOf s.modelBlock).onto x.model, prevFit := none, anchors := [] }) })

/-- A parameter is written to every station (Table 4.10). -/
def State.stationParam (s : State) (number value : Nat) : State :=
  s.onRing (fun r => { r with stations := r.stations.map (fun x => if x.present then x.command 6 (65536 * number + value) else x) })

/-- A register that two banks hold differently. -/
def changed (a b : RegBank) (off : Nat) : Bool := decide (a.get off ≠ b.get off)

/-- A family of registers in which two banks differ. -/
def changedIn (a b : RegBank) (base count : Nat) : Bool := (List.range count).any (fun i => changed a b (base + 4 * i))

/-- The ring: a new map starts every ring anew (04 Table 4.13); new station parameters are written (04 R113, 16 R436). -/
def State.newRing (s : State) (old : RegBank) : State :=
  let t := if Fld.ringCfg_STA_TIMEOUT old ≠ Fld.ringCfg_STA_TIMEOUT s.cfg then s.stationParam 1 (Fld.ringCfg_STA_TIMEOUT s.cfg) else s
  let u := if Fld.pairCfg_STA_RX old ≠ Fld.pairCfg_STA_RX s.cfg then t.stationParam 2 (Fld.pairCfg_STA_RX s.cfg) else t
  if changedIn old s.cfg Reg.ringMap 16 || changed old s.cfg Reg.ringCells then (List.range 8).foldl (fun v r => v.ringStart r) u else u

/-- The gate links: a link start for new link registers, CONFIG for a new comparator limit (08 R223). -/
def State.newLinks (s : State) (old : RegBank) : State :=
  if changed old s.cfg Reg.glCfg || changed old s.cfg Reg.glCfg2 then s.linkStart
  else if Fld.glLim0_PHASE_OC old ≠ Fld.glLim0_PHASE_OC s.cfg then (List.range s.links).foldl (fun t l => t.linkConfig l) s
  else s

/-- The profile and the dispatch source (02 R54, 11 R282). -/
def State.newProfile (s : State) (old : RegBank) (plant : Bool) : State :=
  let t := if changed old s.cfg Reg.profileCtl then s.takeProfile else s
  t.sourceChange plant

/-- A CAN or RS-485 port with a new configuration starts anew, error-active and with nothing pending (15 R400). -/
def State.newPort (s : State) (p : Nat) : State :=
  { s with plant := { s.plant with
      can := modAt s.plant.can p (fun x => { CanPort.reset with annAt := x.annAt })
      objs := mapIdxL (fun i (o : CanObj) => if i / 128 = p then { o with tx := none, last := none } else o) s.plant.objs } }

def State.newSerial (s : State) (p : Nat) : State := { s with plant := { s.plant with sb := s.plant.sb.set p SbPort.reset } }

/-- An Ethernet port that is disabled has no link. -/
def State.newNet (s : State) : State := { s with plant := { s.plant with
  eth := mapIdxL (fun ep (x : EthPort) => if Fld.netCfg_EN s.cfg (if ep ≤ 1 then 0 else ep) then x else { x with link := false, gig := false }) s.plant.eth } }

def State.newPorts (s : State) (old : RegBank) : State :=
  let t := (List.range 6).foldl (fun u p => if changed old s.cfg (Reg.canCfg0 + 4 * p) then u.newPort p else u) s
  ((List.range 4).foldl (fun u p => if changed old s.cfg (Reg.sbCfg + 4 * p) then u.newSerial p else u) t).newNet

/-! ### Queues (14 R374, R380, R381) -/

/-- Every descriptor still in the module completes as its queue leaves: a stream buffer still empty with ST_QUEUE_DISABLED. -/
def State.emptyQueue (s : State) (q : Nat) (more : Bool) : Nat → State
  | 0 => s
  | k + 1 => match (s.queue q).inMod with
    | [] => s
    | h :: _ => State.emptyQueue (if h.used = 0 then s.complete q 0 St.queueDisabled 0 0 0 else s.complete q 0 St.ok 0 h.used (h.flags more)) q more k

/-- A queue is enabled: ring indices 0, phase 1, the next epoch, the initial grant. -/
def State.enableQueue (s : State) (q : Nat) : State :=
  let t := s.emptyQueue q false (s.queue q).inMod.length
  t.setQueue q (fun x => { Queue.reset with
    running := true, epoch := x.epoch + 1, g := t.budget q, discards := x.discards })

/-- A queue is disabled: it fetches nothing more; its stream buffers complete, and commands fetched complete as they are executed. -/
def State.disableQueue (s : State) (old : RegBank) (q : Nat) : State :=
  let t := s.setQueue q (fun x => { x with running := false, ring := [], draining := !(x.inMod.isEmpty && x.cqWait.isEmpty) })
  if classAccepts (Fld.qpCfg_CLASS old q) 0x80 then t.emptyQueue q (t.backlog (Fld.qpCfg_CLASS old q)).next.isSome (t.queue q).inMod.length else t

/-- A budget that rises with nothing in the module is granted by a credit-only completion. -/
def State.raiseBudget (s : State) (old : RegBank) (q : Nat) : State :=
  let x := s.queue q
  let was := min (Fld.qpLim_BUDGET old q) (s.sqEntries q - 1)
  let g := grantOf (s.budget q) x.g x.r
  if was < s.budget q ∧ x.c = x.r ∧ 0 < g ∧ !x.stopped then
    (s.bareCompletion q St.ok 0 g).setQueue q (fun y => { y with g := y.g + g })
  else s

def State.newQueue (s : State) (old : RegBank) (q : Nat) : State :=
  let was := Fld.qpCfg_ENABLE old q
  let is := Fld.qpCfg_ENABLE s.cfg q
  if is && !was then s.enableQueue q
  else if was && !is then s.disableQueue old q
  else if is then s.raiseBudget old q
  else s

/-- A backlog is kept only while its class has an enabled queue (14 R384); a new event queue begins with the first record written after it
is enabled (17 R448); the ledger's lies in its store. -/
def State.dropBacklogs (s : State) : State :=
  [1, 2, 4, 5, 8].foldl (fun t c =>
    if (List.range 32).any (fun q => (t.queue q).running && decide (t.qClass q = c)) then t else t.setBacklog c (fun _ => ⟨[], []⟩)) s

def State.newQueues (s : State) (old : RegBank) : State :=
  if changedIn old s.cfg Reg.qpCfg 32 || changedIn old s.cfg Reg.qpLim 32 then
    ((List.range 32).foldl (fun t q => t.newQueue old q) s).dropBacklogs
  else s

/-! ### The commit at its boundary -/

/-- The whole snapshot takes effect (R479). -/
def State.applyCommit (s : State) (p : Snapshot) : State :=
  let old := s.cfg
  let plant := s.plantActive
  let change := s.levelChange p.blocks
  let t := (((s.takeSnapshot p).newSite p change).newModel s.modelBlock).storeConfig
  let u := ((t.newProfile old plant).newRing old).newLinks old
  ((u.newPorts old).newQueues old).commitEnds p 3

/-- The pending commit at a boundary: judged and applied or refused where it takes effect; judged, and left waiting, where the other twin
has yet to match it (R480, R415). -/
def State.commitDue (s : State) : State := match s.setup.pending with
  | none => s
  | some p =>
    match s.effectAt p with
    | some t =>
      if t ≤ s.now then
        match (s.judged p).first with
        | some f => s.refuseCommit p f
        | none => s.applyCommit p
      else s
    | none =>
      if p.waitTill.isNone ∧ s.boundaryFor p p.at_ ≤ s.now then
        match (s.judged p).first with
        | some f => s.refuseCommit p f
        | none => s.onSetup (fun x => { x with pending := some { p with waitTill := some (p.at_ + 10000000000) }, cState := 2 })
      else s

/-- COMMIT_APPLY (R480): the commit's cycle boundary has come. -/
def execCommitApply (s : State) : Result :=
  .next (match s.setup.pending with
    | none => s
    | some p => (s.advance ((s.effectAt p).getD (s.boundaryFor p p.at_))).commitDue)

/-! ### Expiry (16 R415, 02 R56, 12 R331) -/

/-- The safety registers of a snapshot, its profile selection, and the rest. -/
def Snapshot.hasSafety (p : Snapshot) : Bool := p.regs.any (fun r => safetyRegs.contains r.1 || decide (r.1 = Reg.safeSig))
def Snapshot.hasProfile (p : Snapshot) : Bool := p.regs.any (fun r => decide (r.1 = Reg.profileCtl))
def Snapshot.hasOther (p : Snapshot) : Bool :=
  !p.blocks.isEmpty || p.pairRegs.any (fun r => decide (r.1 ≠ Reg.profileCtl ∧ r.1 ≠ Reg.safeSig) && !safetyRegs.contains r.1)

/-- 10 s have passed without a match: the values stay staged, and each kind of register has its own event. -/
def State.expireCommit (s : State) (sel : Snapshot → Bool) : State := match s.setup.pending with
  | none => s
  | some p => match p.waitTill with
    | none => s
    | some till =>
      if sel p && (s.effectAt p).isNone then
        let t := s.advance till
        let u := if p.hasProfile then t.raise Ev.profileRefused [Fld.profileCtl_SELECT (s.judged p).n, 1] else t
        let v := if p.hasSafety then u.raise Ev.safetyCfgExpired [] else u
        let w := if p.hasOther then v.raise Ev.commitExpired [p.tag.toNat] else v
        w.commitEnds p 5
      else s

def execCommitExpired (s : State) : Result := .next (s.expireCommit Snapshot.hasOther)
def execProfileCommitExpired (s : State) : Result := .next (s.expireCommit Snapshot.hasProfile)
def execSafetyCfgExpired (s : State) : Result := .next (s.expireCommit Snapshot.hasSafety)

end Sys2Proof.Machine
end

