-- ==== Sys2Proof/Machine/Fit.lean ====
section
/-! DEFINITION. The fit of a spectrum (06 R176): the model's impedance, its derivatives, eight Gauss–Newton iterations, convergence. -/
namespace Sys2Proof.Machine

open Sys2Proof.Config (quot)

/-- A complex number in fixed point. -/
structure Cx where
  re : Int
  im : Int
  deriving DecidableEq, Repr, Inhabited

def Cx.add (a b : Cx) : Cx := ⟨a.re + b.re, a.im + b.im⟩
/-- A product of numbers in 10^-9. -/
def Cx.mul (a b : Cx) : Cx := ⟨quot (a.re * b.re - a.im * b.im) (10 ^ 9), quot (a.re * b.im + a.im * b.re) (10 ^ 9)⟩
/-- 1 / (1 + a), in 10^-9. -/
def Cx.inv1 (a : Cx) : Cx :=
  let m := (10 ^ 9 + a.re) * (10 ^ 9 + a.re) + a.im * a.im
  ⟨quot ((10 ^ 9 + a.re) * 10 ^ 18) m, quot (-(a.im * 10 ^ 18)) m⟩
/-- A real factor n/d. -/
def Cx.scale (a : Cx) (n d : Int) : Cx := ⟨quot (a.re * n) d, quot (a.im * n) d⟩
def Cx.norm2 (a : Cx) : Int := a.re * a.re + a.im * a.im

/-- The angular frequency of point n, 10^-9 rad/s. -/
def omega (n : Nat) : Int := let f := toneTable.getD n (0, 1); quot (6283185307 * f.1) f.2

/-- (j w tau1)^alpha, and ln (j w tau1). -/
def FitPar.x (p : FitPar) (n : Nat) : Cx :=
  let m := Sys2Proof.Config.expTable (quot (p.alpha * Sys2Proof.Config.lnTable (quot (omega n * p.tau1) (10 ^ 9))) (10 ^ 6))
  ⟨quot (m * Sys2Proof.Config.cosTable (250 * p.alpha)) (10 ^ 9), quot (m * Sys2Proof.Config.cosTable (250 * p.alpha - 250000000)) (10 ^ 9)⟩
def FitPar.lnx (p : FitPar) (n : Nat) : Cx := ⟨Sys2Proof.Config.lnTable (quot (omega n * p.tau1) (10 ^ 9)), 1570796327⟩

/-- j w tau2. -/
def FitPar.y (p : FitPar) (n : Nat) : Cx := ⟨0, quot (omega n * p.tau2) (10 ^ 6)⟩

/-- z(f) in nΩ. -/
def FitPar.z (p : FitPar) (n : Nat) : Cx :=
  ((⟨p.r0, quot (omega n * p.l) (10 ^ 12)⟩ : Cx).add ((p.x n).inv1.scale p.rct (10 ^ 9))).add ((p.y n).inv1.scale p.r2 (10 ^ 9))

/-- The derivatives of z by r0, r_ct, tau1, alpha, r2, tau2, l, in 10^-9 nΩ per unit of each. -/
def FitPar.grad (p : FitPar) (n : Nat) : List Cx :=
  let q := (p.x n).inv1
  let xq := ((p.x n).mul q).mul q
  let q2 := (p.y n).inv1
  let jq := q2.mul q2
  [⟨10 ^ 9, 0⟩, q, xq.scale (-(p.rct * p.alpha)) (10 ^ 6 * p.tau1), (xq.mul (p.lnx n)).scale (-p.rct) (10 ^ 6), q2,
    (⟨-jq.im, jq.re⟩ : Cx).scale (-(p.r2 * omega n)) (10 ^ 15), ⟨0, quot (omega n) 1000⟩]

/-- A determinant of n rows, by its first row. -/
def det : Nat → List (List Int) → Int
  | 0, _ => 1
  | n + 1, rows =>
    let rest := rows.tail
    sumI (mapIdxL (fun j (a : Int) => (if j % 2 = 0 then a else -a) * det n (rest.map (fun r => r.eraseIdx j))) (rows.headD []))

/-- One Gauss–Newton iteration: the weighted least-squares step, each point weighted by 1/|Z|². -/
def FitPar.step (pts : List (Nat × Cx)) (p : FitPar) : FitPar :=
  let rows := pts.map (fun e =>
    let z := p.z e.1
    (quot (10 ^ 30) e.2.norm2, p.grad e.1, (⟨e.2.re - z.re, e.2.im - z.im⟩ : Cx)))
  let dot (a b : Cx) : Int := a.re * b.re + a.im * b.im
  let n (k l : Nat) : Int := sumI (rows.map (fun r => r.1 * dot (r.2.1.getD k default) (r.2.1.getD l default)))
  let g (k : Nat) : Int := sumI (rows.map (fun r => r.1 * dot (r.2.1.getD k default) r.2.2))
  let mat := (List.range 7).map (fun k => (List.range 7).map (fun l => n k l))
  let d := det 7 mat
  let s (j : Nat) : Int := quot (10 ^ 9 * det 7 (mapIdxL (fun k (row : List Int) => row.set j (g k)) mat)) d
  { r0 := p.r0 + s 0, rct := p.rct + s 1, tau1 := p.tau1 + s 2, alpha := p.alpha + s 3, r2 := p.r2 + s 4, tau2 := p.tau2 + s 5, l := p.l + s 6 }

/-- Exactly so many iterations. -/
def FitPar.iterate (pts : List (Nat × Cx)) : Nat → FitPar → FitPar
  | 0, p => p
  | k + 1, p => FitPar.iterate pts k (p.step pts)

/-- Every parameter lies within the range of its field (Table 6.14). -/
def FitPar.inRange (p : FitPar) : Bool :=
  [p.r0, p.rct, p.r2].all (fun r => decide (0 ≤ r ∧ r < 2 ^ 32)) && decide (100000 ≤ p.tau1 ∧ p.tau1 ≤ 20000000)
  && decide (600000 ≤ p.alpha ∧ p.alpha ≤ 1000000) && decide (100000 ≤ p.tau2 ∧ p.tau2 ≤ 600000000) && decide (0 ≤ p.l ∧ p.l ≤ 1000000)

/-- The fit of the valid points, nΩ, from a start: 8 iterations; it converges when every parameter is in range and the rms residual is at
most 3 µΩ plus 1 % of the mean |Z|. -/
def fitSpectrum (pts : List (Nat × Cx)) (start : FitPar) : Fit :=
  let p := FitPar.iterate pts 8 start
  let n : Int := pts.length
  let far := sumI (pts.map (fun e => (⟨e.2.re - (p.z e.1).re, e.2.im - (p.z e.1).im⟩ : Cx).norm2))
  let resid := root (quot far n)
  let mean := quot (sumI (pts.map (fun e => root e.2.norm2))) n
  ⟨p, resid, p.inRange && decide (100 * resid ≤ 300000 + mean)⟩

/-- Where a cell's fit starts: its previous fit, or for the first one the parameters its model holds. -/
def EstCell.fitStart (b : ModelBlock) (x : EstCell) : FitPar := match x.prevFit with
  | some p => p
  | none => ⟨b.r0At x.model, b.rctAt x.model, 1000 * x.model.tau1, Sys2Proof.Config.startAlpha, x.model.r2, x.model.tau2, Sys2Proof.Config.startL⟩

end Sys2Proof.Machine
end

