-- ==== Sys2Proof/Machine/Spectrum.lean ====
section
/-! DEFINITION. Assembling spectra (06 R175 to R180): points, fits, baselines, outliers, classification, records. -/
namespace Sys2Proof.Machine

open Sys2Proof.Config (quot)

/-- The nearest whole number; where two are equally near, which one is open. -/
def nearest (num den : Int) : Int :=
  if 2 * (num % den) = den then quot num den else (2 * num + den) / (2 * den)

/-- A point of a spectrum: its impedance in nΩ, whether it is valid. -/
structure Point where
  re    : Int
  im    : Int
  valid : Bool
  deriving DecidableEq, Repr

/-- Fewest windows accepted, by segment (R175). -/
def minWindows (seg : Nat) : Nat := [1, 3, 15, 100].getD seg 100

/-- The lock-in result of a station for point n, of the run's segment, as it came. -/
def State.toneOf (s : State) (d : DoneRun) (k n : Nat) : Option Tone :=
  s.est.imp.tones.find? (fun t => decide (t.station = k ∧ t.seg = n / 6 ∧ t.tone = n % 6
    ∧ t.grid.toNat = (d.segPeaks.getD (n / 6) (70000, 0)).1))

/-- It counts: enough windows accepted, no input over range (R175). -/
def Tone.counts (t : Tone) (n : Nat) : Bool := decide (minWindows (n / 6) ≤ t.acc ∧ t.sflags / 4 % 2 = 0)

/-- The stack check of R175: 50 |D| ≤ |S| + 2500 in units of 0.01 µV, over the squares. -/
def stackOk (ph : List (Int × Int)) : Bool :=
  let cells := ph.take 16
  let st := ph.getD 16 (0, 0)
  let dr := sumI (cells.map (fun p => p.1)) - 10 * st.1
  let di := sumI (cells.map (fun p => p.2)) - 10 * st.2
  let d2 := dr * dr + di * di
  let s2 := 100 * (st.1 * st.1 + st.2 * st.2)
  let l := 2500 * d2 - s2 - 6250000
  decide (l ≤ 0) || decide (l * l ≤ 25000000 * s2)

/-- The magnitude of the current phasor is at least half the tone amplitude a, which is the peak ÷ 2.75 (R175): in 10 µA and nA,
2.75² × 4 × 10^8. -/
def currentOk (c : Int × Int) (peak : Int) : Bool := decide (peak * peak ≤ 3025000000 * (c.1 * c.1 + c.2 * c.2))

/-- Point n of cell c in an ended run. -/
def State.point (s : State) (d : DoneRun) (c n : Nat) : Point :=
  match s.toneOf d (c / 16) n, s.toneOf d (32 + s.primaryCs) n with
  | some v, some cur =>
    let a := v.ph.getD (c % 16) (0, 0)
    let b := cur.ph.getD 0 (0, 0)
    let m := b.1 * b.1 + b.2 * b.2
    if v.counts n && cur.counts n && decide (n / 6 < d.segsDone) && decide (m ≠ 0) && currentOk b (d.segPeaks.getD (n / 6) (0, 0)).2
        && stackOk v.ph then
      ⟨nearest ((a.1 * b.1 + a.2 * b.2) * 1000000) m, nearest ((a.2 * b.1 - a.1 * b.2) * 1000000) m, true⟩
    else ⟨0, 0, false⟩
  | _, _ => ⟨0, 0, false⟩

def State.points (s : State) (d : DoneRun) (c : Nat) : List Point := (List.range 24).map (fun n => s.point d c n)

/-- Non-physical (05 R130): points 0 to 16 lie below 100 Hz. -/
def nonPhys (n : Nat) (p : Point) : Bool := p.valid && (decide (p.re ≤ 0) || (decide (n < 17) && decide (0 < p.im)))

/-- EV_IMP_SUM of stations and points whose stack check fails (R175). -/
def State.impSums (s : State) (d : DoneRun) : State :=
  (List.range s.cellStations).foldl (fun t k => (List.range 24).foldl (fun u n =>
    match u.toneOf d k n with
    | some v => if stackOk v.ph then u else u.raise Ev.impSum [k, n]
    | none => u) t) s

/-- A cell's spectrum of the run. -/
structure Result1 where
  cell  : Nat
  pts   : List Point
  fit   : Option Fit
  tsurf : Int
  soc   : Int
  complete : Bool
  /-- rises of the real parts over twice the baseline, 0.5 nΩ; none without a baseline or points -/
  rises : Option (List Int)
  deriving DecidableEq, Repr

/-- The baseline spectra of a cell (R178). -/
def State.baseSpectra (s : State) (c : Nat) (tsurf soc : Int) : List Spectrum :=
  s.est.spectra.filter (fun x => decide (x.cell = c) && x.clean && decide (s.now ≤ x.time + 30 * day)
    && decide (mag (x.tsurf - tsurf) ≤ 300) && decide (mag (x.soc - soc) ≤ 1000))

/-- A rise at every frequency (05 R130): at least 15 µΩ at every point, the highest frequency's within ±25 % of the
lowest's. -/
def riseAll (r : List Int) : Bool :=
  r.all (fun x => decide (30000 ≤ x)) && decide (4 * mag (r.getD 23 0 - r.getD 0 0) ≤ mag (r.getD 0 0))

/-- The fit of a cell's valid points: at least 16, none non-physical (R176). -/
def State.fitOf (s : State) (c : Nat) (pts : List Point) : Option Fit :=
  let good := (mapIdxL (fun n (p : Point) => (n, p)) pts).filter (fun p => p.2.valid)
  let bad := (mapIdxL nonPhys pts).any id
  if 16 ≤ good.length ∧ bad = false then
    some (fitSpectrum (good.map (fun p => (p.1, ⟨p.2.re, p.2.im⟩))) ((s.estCell c).fitStart s.estModel))
  else none

/-- One cell of the run. -/
def State.result1 (s : State) (d : DoneRun) (c : Nat) : Result1 :=
  let pts := s.points d c
  let tsurf := if d.tsN = 0 then 0 else quot (d.tsSum.getD c 0) d.tsN
  let soc := d.soc0.getD c 0
  let base := s.baseSpectra c tsurf soc
  let allOk := pts.all (fun p => p.valid)
  { cell := c, pts := pts, tsurf := tsurf, soc := soc
    complete := !d.abandoned && allOk
    fit := s.fitOf c pts
    rises := if Fld.impCfg2_MIN_BASE s.cfg ≤ base.length ∧ allOk = true then
        some ((List.range 24).map (fun n => 2 * (pts.getD n ⟨0, 0, false⟩).re - median2 (base.map (fun x => (x.z.getD n (0, 0)).1))))
      else none }

def Result1.bad (r : Result1) : Bool := (mapIdxL nonPhys r.pts).any id
def Result1.rise (r : Result1) : Bool := match r.rises with | some l => riseAll l | none => false

/-- The size of a rise in µΩ: its smallest over the points. -/
def Result1.size (r : Result1) : Int := match r.rises with | some l => quot ((minI l).getD 0) 2000 | none => 0

/-- A converged fit. -/
def Result1.good (r : Result1) : Option Fit := r.fit.bind (fun f => if f.converged then some f else none)

/-! ### What a spectrum changes (R161, R177) -/

/-- The spectrum is an isothermal moment for the cell (R161): the first after 2 h of rest, the thermistors of its station within
1 K. -/
def State.isothermal (s : State) (c : Nat) : Bool :=
  let ts := (List.range 8).filterMap (fun i => s.ring.last.bind (fun w => w.thP (8 * (c / 16) + i)))
  decide (7200000000000 ≤ s.meas.rest) && !s.est.isoDone
    && match maxI ts, minI ts with
      | some a, some b => decide (a - b ≤ 100)
      | _, _ => false

/-- A converged spectrum takes a core temperature measurement: it is not an isothermal moment, and a reference has been learned. -/
def State.measuresCore (s : State) (r : Result1) : Bool :=
  r.good.isSome && !s.isothermal r.cell && decide ((s.estCell r.cell).model.rctRef ≠ 0)

/-- That measurement, and its variance. -/
def State.coreOf (s : State) (f : Fit) (m : CellModel) : Int × Int :=
  (s.estModel.coreFrom f.par.rct m, Sys2Proof.Config.fitCoreVar f.par.rct f.resid)

/-- A converged fit changes the parameters at the next whole second, and is an isothermal moment or a core temperature
measurement (R161, R177). -/
def State.applyFit (s : State) (r : Result1) (x : EstCell) : EstCell :=
  let x := { x with rise := r.rise, nonPhys := r.bad }
  match r.good with
  | none => x
  | some f =>
    let y := { x with
      changed := true, prevFit := some f.par
      next := some { (x.next.getD ⟨s.now, none, none⟩) with at_ := s.now, fit := some (f, x.model.tcore) } }
    if s.isothermal r.cell then
      { y with isoAt := s.now :: y.isoAt.filter (fun t => decide (s.now ≤ t + 90 * day)), model := y.model.isothermal f.par.rct r.tsurf }
    else if s.measuresCore r then
      let e := s.coreOf f y.model
      { y with model := y.model.coreUpdate e.1 e.2 }
    else y

/-- Validation of the core temperature (R161). -/
def State.coreCheck (s : State) (x : EstCell) : EstCell :=
  let b := x.model.bounds.tcore
  let iso := (x.isoAt.filter (fun t => decide (s.now ≤ t + 90 * day))).length
  { x with coreOk := if x.coreOk then decide (b ≤ 500) else decide (3 ≤ iso ∧ b ≤ 300) }

/-- The spectra change the cells; the events of validation once per string. -/
def State.applyFits (s : State) (rs : List Result1) : State :=
  let upd (c : Nat) (x : EstCell) : EstCell := match rs.find? (fun r => decide (r.cell = c)) with
    | some r => s.coreCheck (s.applyFit r x)
    | none => x
  let cells := mapIdxL upd s.est.cells
  (s.onEst (fun e => { e with cells := cells, isoDone := e.isoDone || decide (7200000000000 ≤ s.meas.rest) })).tellCores s.est.cells cells

/-! ### Diagnoses (R179, 05 R130) -/

/-- One parameter's outliers. -/
def State.outliers (s : State) (rs : List Result1) (par : Nat) : State :=
  let val (f : Fit) : Int := if par = 0 then f.par.r0 else f.par.rct
  let cells := rs.filterMap (fun r => r.good.map (fun f => (r.cell, val f)))
  let med2 := median2 (cells.map (fun e => e.2))
  let mad4 := median2 (cells.map (fun e => ((mag (2 * e.2 - med2) : Nat) : Int)))
  let k : Int := Fld.impCfg2_OUTLIER_K s.cfg
  cells.foldl (fun t e =>
    let far := decide (max (50 * k * mad4) (k * med2) < 1000 * (mag (2 * e.2 - med2) : Nat))
    let fresh := match (t.cell e.1).outAt.getD par none with | some a => decide (a + day ≤ t.now) | none => true
    if far && fresh then
      (t.onCell e.1 (fun x => { x with outAt := x.outAt.set par (some t.now) })).raise Ev.impOutlier [e.1, par, e.2, quot med2 2]
    else t) s

/-- Cells k − 1 and k read wrong with the same sign under current alone, and their pair sum is unchanged at rest (05 Table 5.3): the
deviations under current less those at rest have one sign, and at rest the pair sum has moved less than the 5 mV of R132. -/
def State.sameSign (s : State) (k : Nat) : Bool :=
  let d (c : Nat) : Option Int := (s.meas.loadDevs.getD c none).map (fun x => x - (s.meas.restDevs.getD c none).getD 0)
  let steady := match s.meas.pairs.head?.bind (fun e => e.2.getD k none), s.meas.pairs.getLast?.bind (fun e => e.2.getD k none) with
    | some a, some b => decide (mag (a - b) < 5000)
    | _, _ => true
  steady && match d (k - 1), d k with
    | some a, some b => decide (0 < a * b)
    | _, _ => false

/-- Loose busbars (05 Table 5.3): both cells of a tap rise at every frequency, beginning in the same spectrum, read wrong alike under
current only, with the wires intact and the sums holding; a diagnosis ends with its condition. -/
def State.busbars (s : State) (rs : List Result1) : State :=
  let find (c : Nat) : Option Result1 := rs.find? (fun r => decide (r.cell = c))
  let was (c : Nat) : Bool := (s.estCell c).rise
  (List.range 512).foldl (fun t k =>
    if k = 0 then t
    else match find (k - 1), find k with
      | some a, some b =>
        let known := t.meas.busbar.any (fun e => decide (e.1 = k))
        if !(a.rise && b.rise) then t.onMeas (fun m => { m with busbar := m.busbar.filter (fun e => decide (e.1 ≠ k)) })
        else if known then t.onMeas (fun m => { m with busbar := m.busbar.map (fun (e : Nat × Nat × Int × Int) =>
          if e.1 = k then (k, e.2.1, a.size, b.size) else e) })
        else if was (k - 1) || was k || !t.sameSign k || t.tapDoubt (k - 1) || t.tapDoubt k
            || decide (10 ≤ ((t.stM (k / 16)).sumRun.getD 0 0)) then t
        else (t.onMeas (fun m => { m with busbar := (k, t.now, a.size, b.size) :: m.busbar })).raise Ev.busbarSuspect [k, a.size, b.size]
      | _, _ => t) s

/-! ### Records and the store (R178, R180) -/

/-- STATUS of a spectrum record. -/
def State.specStatus (s : State) (d : DoneRun) (r : Result1) : Nat :=
  bit (!d.abandoned) + 2 * bit d.abandoned + 4 * bit r.bad + 8 * bit r.rise + 16 * bit r.good.isSome + 32 * bit (s.measuresCore r)

/-- Bit n of a set of points. -/
def pointBits (l : List Bool) : Nat := sumN (mapIdxL (fun n (b : Bool) => bit b * 2 ^ n) l)

/-- A spectrum record (Table 6.14): fields that cannot hold their value saturate. -/
def State.specRecord (s : State) (d : DoneRun) (r : Result1) : StreamRec :=
  let t := eventOf ((d.tA : Int) + s.time.stepOffset).toNat
  let f := r.fit.getD default
  let core := s.measuresCore r
  let tc := s.coreOf f (s.estCell r.cell).model
  let mean := if d.runN = 0 then 0 else quot d.runSum (100 * d.runN)
  ⟨5, 256, t, sealed (packBytes ([(8, (t : Int)), (4, (d.run.toNat : Int)), (2, (r.cell : Int)), (1, (s.specStatus d r : Int)), (1, (d.kind : Int)),
      (3, (pointBits (r.pts.map (fun p => p.valid)) : Int)), (3, (pointBits (mapIdxL nonPhys r.pts) : Int)), (2, satS 16 r.tsurf),
      (2, satS 16 r.soc), (2, satS 16 mean), (2, satU 16 d.minPeak), (2, 0)]
    ++ r.pts.flatMap (fun p => [(4, satS 32 p.re), (4, satS 32 p.im)])
    ++ [(4, satU 32 f.par.r0), (4, satU 32 f.par.rct), (2, clampI 1 200 (quot f.par.tau1 100000)), (1, clampI 60 100 (quot f.par.alpha 10000)), (1, 0),
      (4, satU 32 f.par.r2), (2, clampI 1 6000 (quot f.par.tau2 100000)), (2, clampI 0 10000 (quot f.par.l 100)),
      (2, if core then satS 16 (quot tc.1 10000000) else -32768), (2, if core then satU 16 (twoSigma tc.2 10000000 : Nat) else 0),
      (2, satU 16 (quot f.resid 100)), (2, 0)]))⟩

/-- The spectrum gave rise to a connection diagnosis of the cell (R178): its wire was open during the run, or it is one of a loose
busbar's. -/
def State.connection (s : State) (d : DoneRun) (r : Result1) : Bool :=
  (r.bad && s.tapOpen r.cell) || d.opens.contains r.cell
    || (r.rise && s.meas.busbar.any (fun e => decide (e.1 = r.cell ∨ e.1 = r.cell + 1)))

/-- The first complete spectrum of every 2-hour slot is kept, those of 30 days. -/
def State.keepSpectrum (s : State) (d : DoneRun) (r : Result1) : State :=
  let slot (t : Nat) : Nat := t / 7200000000000
  if !r.complete || s.est.spectra.any (fun x => decide (x.cell = r.cell ∧ slot x.time = slot s.now)) then s
  else
    s.onEst (fun e => { e with
      spectra := (e.spectra.filter (fun x => decide (s.now ≤ x.time + 30 * day)))
        ++ [⟨r.cell, s.now, r.tsurf, r.soc, r.pts.map (fun p => (p.re, p.im)), !s.connection d r⟩] })

end Sys2Proof.Machine
end

