-- ==== Sys2Proof/Machine/Est.lean ====
section
/-! DEFINITION. Commands of estimation and impedance spectra (06). -/
namespace Sys2Proof.Machine

open Sys2Proof.Config (quot)

/-! ### Estimates -/

/-- ESTIMATE_RELEASE (R150): a sweep's estimates are released. -/
def execEstimateRelease (s : State) : Result :=
  .next (match s.est.release with
    | some g => (s.advance (g + 240000 + s.fabric.sweepUs * 1000)).onEst (fun e => { e with
        release := none, pub := e.cells, pubAt := g, pubI := e.iSweep, pubSrc := e.iSrc })
    | none => s)

/-- The whole millicoulombs of a cell's released corrections (R157). -/
def State.handOver (s : State) (c : Nat) : Int := (s.est.pub.getD c EstCell.reset).corr.tdiv 1000

/-- EV_CAPACITY_UPDATED, once per day (R159). -/
def State.tellCapacity (s : State) : State :=
  if s.est.capN ≠ 0 ∧ s.since s.est.capTold day = true then
    (s.onEst (fun e => { e with capN := 0, capMax := 0, capTold := some s.now })).raise Ev.capacityUpdated
      [s.est.capN, quot s.est.capMax 3600000]
  else s

/-- ESTIMATOR_CHECKPOINT (R155, R157): at a whole second; the saved restart state goes with the ledger's image. -/
def execEstimatorCheckpoint (second : Nat) (s : State) : Result :=
  let s := s.advance (second * secNs)
  let take (c : Nat) (x : EstCell) : EstCell := { x with corr := x.corr - 1000 * s.handOver c }
  let t := s.onLedger (fun l => { l with adjust := mapIdxL (fun c (a : Int) => a + s.handOver c) l.adjust })
  let u := t.onEst (fun e => { e with cells := mapIdxL take e.cells, pub := mapIdxL take e.pub })
  .next ((u.onEst (fun e => { e with ckpt := e.cells, ckptAt := s.now, ckptQ := u.ledger.bal.booked })).tellCapacity)

def Validity.code : Validity → Nat
  | .invalid => 0
  | .converging => 1
  | .valid => 2

/-- A cell record (Table 6.7). -/
def State.cellRecord (s : State) (c : Nat) : List Byte :=
  let x := s.est.pub.getD c EstCell.reset
  let m := x.model
  let b := m.bounds
  let k := s.estModel
  packBytes [(2, ((c + 1024 * x.st.code + 4096 * bit x.secUsed + 8192 * bit x.predictOnly + 16384 * bit x.coreOk
      + 32768 * bit x.changed : Nat) : Int)),
    (2, satS 16 (soc100 m.soc)), (2, satU 16 b.soc), (4, satU 32 (quot m.cap 3600000)), (2, satU 16 b.cap), (4, satU 32 (k.r0At m)),
    (2, satU 16 b.r0), (4, satU 32 (k.rctAt m)), (2, satU 16 b.rct), (3, satS 24 (quot m.v1 100)), (3, satS 24 (quot m.v2 100)),
    (2, satU 16 b.v1), (2, satU 16 b.v2), (2, satS 16 m.core100), (2, satU 16 b.tcore), (2, satU 16 (quot m.tau1 100)),
    (2, satU 16 (quot m.tau2 100000)), (2, satS 16 (if x.predictOnly then 0 else quot x.innov 10)),
    (2, satU 16 (quot (k.ocvOf m) 100000)), (2, satU 16 (quot m.r2 1000))]

/-- The estimator block of an engine (Table 6.6). -/
def State.estBlock (s : State) (e : Nat) : StreamRec :=
  let n := min 128 (s.cellCount - 128 * e)
  let t := eventOf ((s.est.pubAt : Int) + s.time.stepOffset).toNat
  let head := packBytes [(8, t), (4, (s.est.seq.getD e 0).toNat), (1, e), (1, s.fabric.profile), (2, n), (2, ((128 * e : Nat) : Int)),
    (4, s.est.pubI), (1, s.est.pubSrc), (1, ((bit (s.block 1).isNone + 2 * bit s.exciting + 4 * bit s.time.traceable : Nat) : Int)), (4, 0)]
  let cells := ((List.range n).map (fun i => s.cellRecord (128 * e + i))).flatten
  ⟨1, 32 + 48 * n, t, head ++ toLe (crc32c (head ++ cells)) 4 ++ cells⟩

/-- When the published sweep was released. -/
def State.released (s : State) : Nat := s.est.pubAt + 240000 + s.fabric.sweepUs * 1000

/-- The published sweep is the first released at or after a whole multiple of OUT_INT (R162). -/
def State.estBlocksDue (s : State) : Bool :=
  let gap := Fld.estCfg_OUT_INT s.cfg * 1000000
  decide (gap ≠ 0) && decide (s.est.pubAt ≠ 0) && !(decide (s.est.blockAt ≠ 0) && decide (s.released / gap = s.est.blockAt / gap))

/-- The engines that serve cells and run. -/
def State.estEngines (s : State) : List Nat := (List.range 4).filter (fun e => s.est.running.getD e false && decide (128 * e < s.cellCount))

/-- An engine's block is released, and numbered. -/
def State.sendEstBlock (s : State) (e : Nat) : State :=
  (s.release 1 (s.estBlock e)).onEst (fun x => { x with seq := modAt x.seq e (fun n => n + 1) })

/-- The blocks of a sweep have been sent: the changes they told are no longer new. -/
def Est.told (x : Est) (rel : Nat) : Est :=
  { x with blockAt := rel, cells := x.cells.map (fun c => { c with changed := false }), pub := x.pub.map (fun c => { c with changed := false }) }

/-- EST_BLOCK_SEND (R162). -/
def execEstBlockSend (s : State) : Result :=
  .next (if s.estBlocksDue then (s.estEngines.foldl State.sendEstBlock s).onEst (fun x => x.told s.released) else s)

/-! ### Impedance runs -/

/-- The next scheduled start (Table 6.9). -/
def State.impNext (s : State) : Nat :=
  match s.fabric.profile with
  | 0 => atOrAfter s.now 180000000000
  | 1 => atOrAfter s.now 600000000000
  | _ =>
    let today := s.sysNs - s.sysNs % day + Fld.impCfg_CS_HOUR s.cfg * hourNs
    let at_ (sys : Nat) : Nat := atOrAfter ((sys : Int) - s.time.stepOffset).toNat 180000000000
    if s.now ≤ at_ today then at_ today else at_ (today + day)

/-- EV_IMP_SKIPPED, once per hour while starts are skipped (R174). -/
def State.impSkip (s : State) (cause : Nat) : State :=
  let t := s.onImp (fun i => { i with skipping := true })
  if s.since s.est.imp.skipAt hourNs then (t.onImp (fun i => { i with skipAt := some s.now })).raise Ev.impSkipped [cause] else t

/-- A run begins; its first segment is due. -/
def State.impBegin (s : State) (kind : Nat) : State :=
  s.onImp (fun i => { Imp.reset with
    phase := .waiting, run := i.run + 1, kind := kind, lastRun := some s.now, lastOk := i.lastOk, skipAt := i.skipAt
    done := i.done, tones := i.tones, request := i.request })

/-- A start: a running run goes on, a start that finds the stage not running or runs disabled is skipped. -/
def State.impLaunch (s : State) (kind : Nat) : State :=
  if s.est.imp.phase ≠ .idle then s
  else if s.gate.stage ≠ .run then s.impSkip 0
  else if !Fld.impCfg_ENABLE s.cfg && decide (kind = 0) then s.impSkip 1
  else if (s.loop.diags.getD 2 Diag.reset).injecting then s.impSkip 2
  else s.impBegin kind

/-- The requested start, with its request taken. -/
def State.impRequested (s : State) : State := (s.onImp (fun i => { i with request := none })).impLaunch 1

/-- A scheduled start; in Cowslip at most one run per 20 h. -/
def State.impScheduled (s : State) : State :=
  if decide (s.fabric.profile = 2) && !s.since s.est.imp.lastRun 72000000000000 then s else s.impLaunch 0

/-- IMP_RUN_START (R164, R165, R174): a scheduled start, or the requested one, which takes the place of a scheduled start at its
instant. -/
def execImpRunStart (requested : Bool) (s : State) : Result :=
  .next (if requested then match s.est.imp.request with
      | some r => (s.advance r).impRequested
      | none => s
    else
      let t := s.advance s.impNext
      match t.est.imp.request with
      | some r => if r ≤ t.now then t.impRequested else t.impScheduled
      | none => t.impScheduled)

/-- The effect of an accepted impedance run command. -/
def State.applyImpRun (s : State) : State :=
  s.onImp (fun i => { i with request := some (nextMultiple s.now 180000000000) })

/-- IMP_RUN (R165): Forwarded; in the pair it takes effect at the cycle boundary of 16 R421. -/
def execImpRun (q : Fin 32) (s : State) : Result :=
  .next (s.hostRow q 0x30 anyArg (fun t d =>
    if t.est.imp.phase ≠ .idle then .refuse St.impBusy 0
    else if t.gate.stage ≠ .run then .refuse St.impStageOff 0
    else .accept 0 false [] (t.forward d.cmd 0 State.applyImpRun)))

/-- A segment is tried: it starts, or it waits. -/
def State.impTry (s : State) : State :=
  if s.impReady then s.impStart else s.onImp (fun i => { i with ts := s.now, waited := i.waited + 1 })

/-- IMP_SEGMENT_START (R166, R167, R170). -/
def execImpSegmentStart (s : State) : Result :=
  .next (if s.est.imp.phase = .waiting ∧ s.est.imp.waited = 0 then s.impTry else s)

/-- IMP_HEADROOM_RETEST (R167): a second later; after 60 s the run is abandoned. -/
def execImpHeadroomRetest (s : State) : Result :=
  .next (if s.est.imp.phase = .waiting ∧ s.est.imp.waited ≠ 0 then
      let s := s.advance (s.est.imp.ts + secNs)
      if !s.impReady && decide (60 ≤ s.est.imp.waited) then s.abandonRun 2 else s.impTry
    else s)

/-- A window is discarded (Table 6.13): the set-point changed sign, its mean drifted, a phase was shed or restored. -/
def State.impDiscards (s : State) : Bool :=
  let i := s.est.imp
  let mean := meanOf i.winSum i.winN
  decide (2 ≤ i.signs.length) || i.spoiled
    || match i.prevMean with
      | some p => decide (10 * Fld.impCfg_DRIFT s.cfg * s.rated < mag (mean - p))
      | none => false

/-- The next window, the next segment, or the run's end. -/
def State.impAdvance (s : State) : State :=
  s.onImp (fun i =>
    let j := { i with prevMean := some (meanOf i.winSum i.winN), winSum := 0, winN := 0, signs := [], spoiled := false }
    if i.win + 1 < segWindows i.seg then { j with win := i.win + 1 }
    else if i.seg < 3 then { j with seg := i.seg + 1, segsDone := i.seg + 1, phase := .waiting, waited := 0, win := 0 }
    else { j with segsDone := 4 }.finish false |> fun e => { e with lastOk := true })

/-- IMP_WINDOW_END (R171, R173). -/
def execImpWindowEnd (s : State) : Result :=
  .next (if s.est.imp.phase = .measuring then
      let s := s.advance (s.est.imp.ts + (s.est.imp.win + 1) * segWindow s.est.imp.seg)
      (if s.impDiscards then s.lockin (0x40000000 + s.est.imp.win) else s).impAdvance
    else s)

/-- LOCKIN_RESULT_MESSAGE (R172, Tables 6.11 and 6.12). -/
def execLockinResultMessage (k : Fin 34) (s : State) : Result :=
  .next (match s.takeMessage k 2 with
    | (t, some b) =>
      let ph : List (Int × Int) := if k.val < 32 then
          (List.range 16).map (fun c => (sleAt b (6 + 6 * c) 3, sleAt b (9 + 6 * c) 3)) ++ [(sleAt b 102 3, sleAt b 105 3)]
        else [(sleAt b 6 4, sleAt b 10 4)]
      t.onImp (fun i => { i with
        tones := i.tones ++ [⟨k, byteAt b 2 % 4, byteAt b 2 / 4 % 8, BitVec.ofNat 16 (leAt b 0 2), byteAt b 3, byteAt b 4, ph⟩] })
    | (t, none) => t)

/-- The cells' results of a run that ended. -/
def State.runResults (s : State) (d : DoneRun) : List Result1 := (List.range s.cellCount).map (fun c => s.result1 d c)

/-- Table 5.3 is looked at after every run, outliers after a complete one alone (R179). -/
def State.diagnoseRun (s : State) (rs : List Result1) (abandoned : Bool) : State :=
  (if abandoned then s else (s.outliers rs 0).outliers rs 1).busbars rs

/-- The results of a run are done with. -/
def Imp.drop (i : Imp) (d : DoneRun) : Imp :=
  { i with done := i.done.tail, tones := i.tones.filter (fun t => !d.segPeaks.any (fun p => decide (p.1 = t.grid.toNat))) }

/-- The records of a run, what they diagnose and change, and what is kept of them. -/
def State.sendSpectra (s : State) (d : DoneRun) : State :=
  let rs := s.runResults d
  let t := (rs.foldl (fun u r => u.release 5 (s.specRecord d r)) s).diagnoseRun rs d.abandoned
  (rs.foldl (fun u r => u.keepSpectrum d r) (t.applyFits rs)).onImp (fun i => i.drop d)

/-- SPECTRUM_SEND (R175 to R180, R161, 05 R130, R132): within 2 s of a run's end. -/
def execSpectrumSend (s : State) : Result :=
  .next (match s.est.imp.done with
    | [] => s
    | d :: _ => (s.impSums d).sendSpectra d)

end Sys2Proof.Machine
end

