-- ==== Sys2Proof/Machine/EngineOps.lean ====
section
/-! DEFINITION. Engine faults (02 R59 to R61, Table 2.11) and failed first starts (18 R468). Engines are numbered as Table 2.3 orders
them: AC0 to AC3 0 to 3 (a compared pair by its first core), CE0 to CE7 4 to 11, LE0 to LE3 12 to 15, EE0 to EE3 16 to 19, SE-A 20,
SE-B 21, the warden 22. -/
namespace Sys2Proof.Machine

def State.engine (s : State) (e : Nat) : Engine := s.fabric.engines.getD e Engine.reset
def State.onEngine (s : State) (e : Nat) (f : Engine → Engine) : State := s.onFabric (fun x => { x with engines := modAt x.engines e f })

/-- A compared pair is named by its first core. -/
def pairOf (e : Nat) : Nat := if e < 4 then e / 2 * 2 else e

/-- The adjustments of the frozen second are posted, to the live balances and to the image copy (07 R192, Table 7.4). -/
def State.postAdjust (s : State) : State :=
  s.onLedger (fun l => { l with
    bal := l.bal.postAll l.adjDue
    writing := l.writing.map (fun i => { i with bal := i.bal.postAll l.adjDue })
    adjDue := [] })

/-! ### The immediate actions of Table 2.11 -/

/-- AC0/AC1: the stage ramps to zero at its stop ramp and switches off. -/
def State.faultDispatch (s : State) : State := match s.gate.stage with
  | .startDelay => s.stageDisable
  | .ramp | .run | .stopDelay => s.enterStopRamp.abandonRun 0
  | _ => s

/-- LE0 to LE2: every gate off through STOP, the stage stopped; an impedance run is abandoned. -/
def State.faultLoop (s : State) : State :=
  let t := s.sendStop.abandonRun 3
  match s.gate.stage with
  | .off | .tripped => t
  | _ => (t.onGate (fun g => { g with stage := .stopRamp, since := s.now, modeOff := true, stopSent := true, armAt := none })).onLoop
      (fun l => { l with r := 0, target := 0, targets := [] })

/-- LE3: every cooling output at 100 %; the steps stay. -/
def State.faultThermal (s : State) : State :=
  let t := s.onTherm (fun t => { t with coolers := t.coolers.map (fun c => { c with duty := 1000, dutyFrom := some (c.dutyFrom.getD s.now) }) })
  ((List.range 8).foldl State.driveFan t).coolersCan

/-- LE3 resumes from the held steps, with GAP and DWELL restarted (10 R275). -/
def State.reloadThermal (s : State) : State :=
  s.onTherm (fun t => { t with
    zones := t.zones.map (fun z => { z with hiAt := some s.now, loAt := some s.now, hiRelax := none, loRelax := none, tripBack := none })
    chgBack := none, disBack := none })

/-- The record of a cell taken back to the checkpoint: the charge and time since then are to be made up (06 R156). -/
def EstCell.rewind (live saved : EstCell) (lag : Nat) : EstCell :=
  { saved with extra := 0, away := live.away + live.extra + (live.booked - saved.booked), lag := live.lag + lag }

/-- EE n: its cells go back to the working-memory checkpoint and are flagged INVALID; `keep` leaves their validity (18 Table 18.7). -/
def State.faultEst (s : State) (n : Nat) (keep : Bool) : State :=
  let lag := s.est.predTo - s.est.ckptAt
  let flag (c : Nat) (x : EstCell) : EstCell := if c / 128 = n && !keep then { x with st := .invalid, since := s.now, usable := 0 } else x
  s.onEst (fun e => { e with
    running := e.running.set n false
    pub := mapIdxL flag e.pub
    cells := mapIdxL (fun c (x : EstCell) =>
      if c / 128 = n then
        let y := match e.ckpt[c]? with | some k => x.rewind k lag | none => x
        flag c { y with st := x.st, since := x.since }
      else x) e.cells })

/-- CE n: its outputs take their substitute values. -/
def State.faultCyc (s : State) (n : Nat) : State := if (s.eng n).mode = .idle then s else s.stopEng n

/-- What the fault of an engine brings about at once in a module that acts alone; the engine begins to reload. -/
def State.faultAction (s : State) (e : Nat) : State :=
  let t := s.onEngine e (fun x => { x with reloading := true })
  if e < 2 then t.faultDispatch
  else if e < 4 then t
  else if e < 12 then t.faultCyc (e - 4)
  else if e < 15 then t.faultLoop
  else if e = 15 then t.faultThermal
  else if e < 20 then t.faultEst (e - 16) false
  else if e = 20 then (t.onEngA (fun x => { x with running := false })).internalFaultBy 2 e true
  else if e = 21 then (t.onEngB (fun x => { x with running := false })).internalFaultBy 1 e true
  else (t.internalFault e false).beginStart s.time.rateValid

/-! ### A fault (R59 to R61, R505, 18 R468) -/

/-- A failed first start: the module restarts into ROM recovery. -/
def State.firstStartFailed (s : State) : State :=
  (s.raise Ev.fwFirstStartFailed [s.life.verRun.toNat]).onLife (fun l => { l with probation := false, recNext := 3, restartDue := true })

/-- The faults of an engine in the last 24 h, this one with them. -/
def State.noteFault (s : State) (e cause : Nat) : State :=
  (s.raise Ev.engineFault [e, cause]).onEngine e (fun x => { x with
    faults := s.now :: x.faults.filter (fun t => decide (s.now < t + day)) })

/-- The third fault within 24 h: the engine is not restarted. -/
def State.thirdFault (s : State) (e : Nat) : Bool := decide (3 ≤ (s.engine e).faults.length)

/-- A twin that is neither alone nor in service already is out of service: it restarts, after a third fault it stays withdrawn. -/
def State.faultTwin (s : State) (e : Nat) : State :=
  let third := s.thirdFault e
  let t := if third then (s.onEngine e (fun x => { x with failed := true })).raise Ev.engineFailed [e] else s
  match s.twin.st with
  | .withdrawn | .catching =>
    if third then t.onTwin (fun x => { x with st := .retired, catchUp := none }) else t.onLife (fun l => { l with restartDue := true })
  | _ => t.withdraw 1 third

/-- A module that acts alone. -/
def State.faultSingle (s : State) (e : Nat) : State :=
  let third := s.thirdFault e
  let t := if third && decide (e = 22) then s else s.faultAction e
  if third then
    ((t.onEngine e (fun x => { x with failed := true })).internalFault e true).raise Ev.engineFailed [e]
  else t

/-- An engine fault. Causes: 1 residue mismatch on a retry, 2 compared pair, 3 deadline miss, 4 memory word, 5 ledger invariant. -/
def State.engineFault (s : State) (engine cause : Nat) : State :=
  let e := pairOf engine
  let t := s.noteFault e cause
  if t.life.probation then
    let u := t.firstStartFailed
    if t.actsSingle then u.internalFault e false else u.faultTwin e
  else if t.actsSingle then t.faultSingle e else t.faultTwin e

/-! ### The end of a reload (Table 2.11) -/

/-- A failed cell equation is recorded and is an engine fault of AC2/AC3 (R183). -/
def State.checkBalances (s : State) (b : Balances) : State := match b.failed s.cellCount with
  | some args => (s.raise Ev.ledgerInvariant args).engineFault 2 5
  | none => s

/-- The bookings of a sweep, and the check after them (R183). -/
def State.ledgerChecked (s : State) (w : Sweep) : State :=
  let t := s.ledgerSweep w
  if t.ledger.books then t.checkBalances t.ledger.bal else t

/-- Sweeps kept while AC2/AC3 reloaded are booked in order, with the balancing messages and the adjustments of their time; the estimator
makes up their charge. -/
def State.bookBuffer (s : State) : State :=
  let t := s.ledger.buffer.reverse.foldl (fun u w =>
    let v := (u.ledgerChecked w).postAdjust
    v.onEst (fun e => { e with
      cells := e.cells.map (fun c => { c with away := c.away + c.extra + e.dqNow.getD 0 + e.gapQ, extra := 0 }), dqNow := none, gapQ := 0 })) s
  let u := t.onLedger (fun l => { l with buffer := [] })
  if s.est.predTo = 0 then u
  else u.onEst (fun e => { e with
    predTo := max e.predTo u.ledger.booked, cells := e.cells.map (fun c => { c with lag := c.lag + (u.ledger.booked - e.predTo) }) })

/-- A cycle engine restarts by the automatic choice from the copy in working memory; its error task runs once (13 R355). -/
def State.reloadCyc (s : State) (n cause : Nat) : State :=
  if (s.section_ n).isNone then s
  else
    let copy := (s.eng n).savedW
    let t := s.restartEng n (s.warmOk copy (copy.map (fun c => (s.now : Int) - c.fine)) false)
    t.addCause n cause n

/-- EE n resumes: its cells are CONVERGING (06 R156). -/
def State.reloadEst (s : State) (n : Nat) (keep : Bool) : State :=
  s.onEst (fun e => { e with
    running := e.running.set n true
    cells := if keep then e.cells else mapIdxL (fun c (x : EstCell) =>
      if c / 128 = n then { x with st := .converging, since := s.now, usable := 0 } else x) e.cells })

/-- An engine has reloaded. An engine that failed for good, a safety engine and the warden do not reload while running. -/
def State.reloaded (s : State) (e : Nat) : State :=
  let x := s.engine e
  if !x.reloading || x.failed || decide (20 ≤ e) then s
  else
    let t := s.onEngine e (fun y => { y with reloading := false })
    if e = 2 then t.postAdjust.bookBuffer
    else if 4 ≤ e ∧ e < 12 then t.reloadCyc (e - 4) 3
    else if 16 ≤ e ∧ e < 20 then t.reloadEst (e - 16) false
    else if e = 15 then t.reloadThermal
    else t

end Sys2Proof.Machine
end

