-- ==== Sys2Proof/Machine/Ledger.lean ====
section
/-! DEFINITION. Commands of the charge ledger (07): the second, its image, supply loss, the gap after a start, notes and replays. -/
namespace Sys2Proof.Machine

/-! ### One second (R192, R194 to R197, Table 7.4) -/

/-- LEDGER_SECOND: 5 ms after W the adjustments are posted to the live balances and the image copy, and the equation is checked on
both. -/
def execLedgerSecond (s : State) : Result :=
  .next (match s.ledger.writing with
    | some i =>
      if s.ac23Reloading then s
      else
        let t := (s.advance (s.fineOf i.w + 5000000)).postAdjust
        let copy := match t.ledger.writing with | some j => j.bal | none => i.bal
        if (copy.failed t.cellCount).isSome then t.checkBalances copy else t.checkBalances t.ledger.bal
    | none => s)

/-- Images are written alternately (R196). -/
def Ledger.putImage (l : Ledger) (i : Image) : Ledger := { l with images := l.images.set l.place (some i), place := 1 - l.place }

/-- The estimator's checkpoint goes to MRAM with the journal's, with the event time of its sweep (06 R155). -/
def State.saveEst (s : State) : State :=
  s.onEst (fun e => if e.ckpt = [] then e else { e with saved := some (s.eventAt e.ckptAt, e.ckpt, e.ckptQ) })

/-- The records of the seconds up to an image are released in LSEQ order (R195). -/
def State.releaseUpTo (s : State) (i : Image) : State :=
  let ready := s.ledger.waiting.filter (fun e => decide (e.1 ≤ i.w))
  (s.onLedger (fun l => { l with waiting := l.waiting.filter (fun e => decide (i.w < e.1)) })).releaseRecs
    (ready.map (fun e => e.2)).flatten

/-- LEDGER_IMAGE_WRITTEN: by 8 ms after W the image is in MRAM and the records leave; while writes are barred (10 R278) the image is not
written and the records wait (R195); while AC2/AC3 reload it waits for its adjustments. -/
def execLedgerImageWritten (s : State) : Result :=
  .next (match s.ledger.writing with
    | some i =>
      if s.ac23Reloading || decide (s.ledger.adjDue ≠ []) then s
      else
        let t := (s.advance (s.fineOf i.w + 8000000)).onLedger (fun l => { l with writing := none })
        if s.nvmBarred then t else ((t.onLedger (fun l => l.putImage i)).saveEst).releaseUpTo i
    | none => s)

/-! ### Supply loss (R200, 13 R354, 16 R424, 17 R445, 20 R488) -/

/-- The sweep whose grid instant has come is measured and booked (R200). -/
def State.lastSweep (s : State) : State :=
  let t := match s.ring.cur with
    | some w =>
      let u := (s.advance (w.at_ + 240000)).collectRing w
      (u.measSweep w).ledgerChecked w
    | none => s
  t.postAdjust

/-- The final image: the balances after that sweep, and every record not released, the sweep entries of the second cut short in a SECOND
record at the last booked instant (R200, R202). An image whose write was under way is left torn in its place, which the final image
takes. -/
def State.finalImage (s : State) : State :=
  let w := s.eventAt s.ledger.booked
  let t := s.onLedger (fun l => { l with recs := if l.sweeps = 0 then sortRecs l.recs else sortRecs (l.recs ++ [s.secondRec w]) })
  s.onLedger (fun l => (l.putImage (t.makeImage w true)))

/-- An image whose write a supply loss cuts short fails its check (R198). -/
def Ledger.tear (l : Ledger) : Ledger := match l.writing with
  | some i => if l.adjDue = [] then { l with images := l.images.set l.place (some { i with good := false }), writing := none } else l
  | none => l

/-- The recorder writes what waits as far as the hold-up allows, a freeze notwithstanding, and counts the rest in the header. -/
def State.lastRecords (s : State) (written : Nat) (header : Bool) : State :=
  let late := s.rec_.holding.map (fun e => (e, true))
  let fresh := s.rec_.detected.map (fun e => (e, false))
  let all := late ++ fresh
  let t := (all.take written).foldl (fun u e => u.store e.1 e.2 (decide (e.1.code ≠ Ev.recorderCleared.code)))
    { s with rec_ := { s.rec_ with holding := [], detected := [], nDetected := s.rec_.nDetected + s.rec_.detected.length } }
  let left := (all.drop written).foldl (fun (x : Tally) e => x.add e.1) t.rec_.overflow
  { t with rec_ := { t.rec_ with
      overflow := Tally.zero, powerLoss := if header then left else Tally.zero
      nLost := t.rec_.nLost + ((all.drop written).filter (fun e => decide (e.1.code ≠ Ev.recorderCleared.code))).length } }

/-- The part of a supply loss that needs a module in service: the last sweep, the final image and the final copies, as far as the hold-up
carries them and writes are not barred. -/
def State.saveLast (s : State) (image copies : Bool) : State :=
  let t := if s.ledger.books then (s.onLedger Ledger.tear).lastSweep else s
  let u := if image && t.ledger.books && !t.nvmBarred then t.finalImage else t
  if copies && !u.nvmBarred then u.saveAll else u

/-- The module goes dark: outputs de-energised, gates stopped (a twin by ceasing to send, R424), the last sweep booked, the final image,
the final copies and the last records written; then the core supply switches off. -/
def State.powerDown (s : State) (image copies header : Bool) (written : Nat) : State :=
  let t := if s.actsSingle then s.outsOff.loopsOpen.sendStop else s.withdraw 4 false
  let u := if s.inService then t.saveLast image copies else t
  let v := if s.rec_.started && !s.nvmBarred then u.lastRecords written header else u
  let w := (v.onLife (fun l => { l with phase := .off, restartDue := false })).onTwin (fun x => { x with txOff := true })
  (w.onGate (fun g => { g with stage := .off })).outsOff

/-- SUPPLY_LOSS: the supply has been below 27 V for 1 ms. -/
def execSupplyLoss (image copies header : Bool) (written : Nat) (s : State) : Result :=
  .next (s.powerDown image copies header written)

/-! ### The gap after a start (R201, R202) -/

/-- The bounds of an unobserved gap in mC, lower and upper. -/
def State.gapBounds (s : State) (i : Image) : Int × Int :=
  let ms := Fld.ledgerCfg_DROPOUT_MS s.cfg
  if i.final then
    let wide := 2 * (i.iLast.natAbs : Int) + 100000
    let q := Sys2Proof.Config.quot ((if i.iLast < 0 then 100 * i.iLast - wide else 100 * i.iLast + wide) * ms) 100000
    if i.iLast < 0 then (q, 0) else (0, q)
  else
    let ns := 1025000000 + ms * 1000000
    (limitCharge i.limits.2 ns, limitCharge i.limits.1 ns)

/-- The counter of the gap: the station, its value in the image, or the one held there with the fluxgate charge booked since, and its
value at the first sweep after the start or the first later one with a result, with one start count; the station in use now before the
image's. -/
def State.gapCounter (s : State) (i : Image) (from_ : Nat) : Option (Nat × Baseline × Baseline × Int) :=
  ([s.ledgerPath, i.path, i.heldCs].filterMap (fun k =>
    let old : Option (Baseline × Int) := match i.base.getD k none with
      | some a => some (a, 0)
      | none => if i.heldCs = k then i.held.map (fun h => (h, i.heldFg)) else none
    match old, ((s.ledger.base.getD k []).reverse).find? (fun b => decide (from_ ≤ b.at_)) with
    | some (a, fg), some b => if a.start = b.start then some (k, a, b, fg) else none
    | _, _ => none)).head?

/-- An unobserved entry for the gap; booking goes on from the first sweep after the start. -/
def State.gapLost (s : State) (i : Image) (from_ path : Nat) : State :=
  (s.bookUnobserved 0 (s.gapBounds i).1 (s.gapBounds i).2 i.booked).onLedger (fun l => { l with booked := from_, path := path })

/-- The gap is booked: a path entry where the counter is continuous over a known gap, else an unobserved entry. Booking goes on from the
first sweep after the start; the estimator makes up the time (06 R147). -/
def State.bookGap (s : State) (i : Image) (from_ : Nat) : State :=
  let len := ((from_ : Int) + s.time.stepOffset - nsOfEvent i.booked).toNat
  let path := s.ledgerPath
  let u := match s.gapCounter i from_ with
    | some (k, a, b, fg) =>
      if s.time.setOnce && s.continuous k a b len then
        (s.bookPath 2 i.path k (1000 * qDiff b.q a.q - fg) i.booked).onLedger (fun l => { l with booked := b.at_, path := k })
      else s.gapLost i from_ path
    | none => s.gapLost i from_ path
  let v := u.onLedger (fun l => { l.markBooked with gap := none, gapFrom := none, held := none, heldFg := 0 })
  v.onEst (fun e => { e with
    predTo := from_, dqNow := none, gapQ := 0
    cells := e.cells.map (fun c => { c with lag := c.lag + len, away := c.away + c.extra + e.gapQ, extra := 0 }) })

/-- The gap can be booked at this sweep (R201): the station has restarted or is judged wrong, or the time base has been set, or the start
wait has ended. -/
def State.gapDue (s : State) (i : Image) : Bool :=
  let k := if i.path < 2 then i.path else i.heldCs
  s.time.setOnce || s.time.startWait.isNone || s.meas.wrong.getD k false
    || decide ((s.ledger.starts.getD (32 + k) none) ≠ (i.starts.getD (32 + k) none))

/-- LEDGER_GAP_BOOKING: once the first sweep after the start has been collected. -/
def execLedgerGapBooking (s : State) : Result :=
  .next (match s.ledger.gap, s.ledger.gapFrom with
    | some i, some g => if s.gapDue i then s.bookGap i g else s
    | _, _ => s)

/-! ### Host commands (R206, R196) -/

/-- A note is booked as a marker of code 0x0002; it waits while the ledger books nothing. -/
def State.applyNote (s : State) (c : Cmd) : State :=
  if s.ledger.books then s.bookMarker 2 (leAt c.arg 0 2) 0 ((List.range 24).map (fun i => ((byteAt c.data i : Nat) : Int)))
  else { s with host := { s.host with accepted := s.host.accepted ++ [(s.now, c)] } }

/-- LEDGER_NOTE: exactly 24 bytes of data. -/
def execLedgerNote (q : Fin 32) (s : State) : Result :=
  .next (s.hostRow q 0x40 anyArg (fun t d =>
    if d.dataLen ≠ 24 + (if d.signed then 96 else 0) then .refuse St.fieldRange 16
    else .accept 0 false [] (t.acceptForwarded d.cmd 0)))

/-- The record holds an entry, or stands at a number, of a span of LSEQ. -/
def LedgerRec.within (r : LedgerRec) (first last : Nat) : Bool :=
  decide (r.lseq.toNat ≤ last ∧ first < r.lseq.toNat + max 1 r.nent)

/-- LEDGER_REPLAY: the records of the store that hold entries of the span, with FLAGS bit 2. -/
def execLedgerReplay (q : Fin 32) (s : State) : Result :=
  .next (s.hostRow q 0x41 anyArg (fun t d =>
    let first := d.argLe 0 8
    let last := d.argLe 8 8
    if last < first then .refuse St.fieldRange 40
    else match t.ledger.store.head? with
      | none => .refuse St.ledgerGone 0
      | some r =>
        if first < r.lseq.toNat then .refuse St.ledgerGone 0
        else .accept 0 false [] ((t.ledger.store.filter (fun x => x.within first last)).foldl (fun u x =>
          u.release 3 ({ x with flags := x.flags + 4 }.toStream u.ledger.number)) t)))

/-- LEDGER_LSEQ.LO is read at its own offset: HI is latched (19 R478). -/
def execLedgerLseqLoRead (s : State) : Result :=
  .next (s.readReg Reg.ledgerLseq (s.ledger.lseq.setWidth 32) (fun t =>
    t.onLedger (fun l => { l with hiLatch := (l.lseq >>> 32).setWidth 32 })))

end Sys2Proof.Machine
end

