-- ==== Sys2Proof/Machine/FirmwareOps.lean ====
section
/-! DEFINITION. Firmware images and keys (18 R461 to R473): SHA-256 and the P-256 curve that the spec names, the header of an image, the key
set block. -/
namespace Sys2Proof.Machine

/-! ### SHA-256 -/

def shaK0 : List Word := [
  0x428A2F98, 0x71374491, 0xB5C0FBCF, 0xE9B5DBA5, 0x3956C25B, 0x59F111F1, 0x923F82A4, 0xAB1C5ED5,
  0xD807AA98, 0x12835B01, 0x243185BE, 0x550C7DC3, 0x72BE5D74, 0x80DEB1FE, 0x9BDC06A7, 0xC19BF174,
  0xE49B69C1, 0xEFBE4786, 0x0FC19DC6, 0x240CA1CC, 0x2DE92C6F, 0x4A7484AA, 0x5CB0A9DC, 0x76F988DA,
  0x983E5152, 0xA831C66D, 0xB00327C8, 0xBF597FC7, 0xC6E00BF3, 0xD5A79147, 0x06CA6351, 0x14292967]

def shaK1 : List Word := [
  0x27B70A85, 0x2E1B2138, 0x4D2C6DFC, 0x53380D13, 0x650A7354, 0x766A0ABB, 0x81C2C92E, 0x92722C85,
  0xA2BFE8A1, 0xA81A664B, 0xC24B8B70, 0xC76C51A3, 0xD192E819, 0xD6990624, 0xF40E3585, 0x106AA070,
  0x19A4C116, 0x1E376C08, 0x2748774C, 0x34B0BCB5, 0x391C0CB3, 0x4ED8AA4A, 0x5B9CCA4F, 0x682E6FF3,
  0x748F82EE, 0x78A5636F, 0x84C87814, 0x8CC70208, 0x90BEFFFA, 0xA4506CEB, 0xBEF9A3F7, 0xC67178F2]

def shaH : List Word := [
  0x6A09E667, 0xBB67AE85, 0x3C6EF372, 0xA54FF53A, 0x510E527F, 0x9B05688C, 0x1F83D9AB, 0x5BE0CD19]

/-- The message schedule, newest word first. -/
def shaSchedule (w : List Word) : Nat → List Word
  | 0 => w
  | k + 1 =>
    let a := w.getD 1 0
    let b := w.getD 14 0
    let s1 := a.rotateRight 17 ^^^ a.rotateRight 19 ^^^ (a >>> 10)
    let s0 := b.rotateRight 7 ^^^ b.rotateRight 18 ^^^ (b >>> 3)
    shaSchedule ((s1 + w.getD 6 0 + s0 + w.getD 15 0) :: w) k

/-- One round on the working variables a to h. -/
def shaRound (v : List Word) (kw : Word × Word) : List Word :=
  let x := fun i => v.getD i 0
  let e := x 4
  let a := x 0
  let t1 := x 7 + (e.rotateRight 6 ^^^ e.rotateRight 11 ^^^ e.rotateRight 25) + ((e &&& x 5) ^^^ (~~~e &&& x 6)) + kw.1 + kw.2
  let t2 := (a.rotateRight 2 ^^^ a.rotateRight 13 ^^^ a.rotateRight 22) + ((a &&& x 1) ^^^ (a &&& x 2) ^^^ (x 1 &&& x 2))
  [t1 + t2, a, x 1, x 2, x 3 + t1, e, x 5, x 6]

/-- One block of 64 bytes. -/
def shaBlock (h : List Word) (b : List Byte) : List Word :=
  let w := (List.range 16).map (fun i => BitVec.ofNat 32 (beAt b (4 * i) 4))
  let ws := (shaSchedule w.reverse 48).reverse
  let v := ((shaK0 ++ shaK1).zip ws).foldl shaRound h
  (h.zip v).map (fun p => p.1 + p.2)

def shaBlocks (h : List Word) (b : List Byte) : Nat → List Word
  | 0 => h
  | n + 1 => shaBlocks (shaBlock h (b.take 64)) (b.drop 64) n

/-- SHA-256 of bytes. -/
def sha256 (b : List Byte) : BitVec 256 :=
  let n := b.length
  let m := b ++ [0x80#8] ++ List.replicate ((119 - n % 64) % 64) 0#8 ++ (toLe (8 * n) 8).reverse
  BitVec.ofNat 256 ((shaBlocks shaH m (m.length / 64)).foldl (fun a w => a * 2 ^ 32 + w.toNat) 0)

/-! ### P-256 -/

def p256 : Nat := 2 ^ 256 - 2 ^ 224 + 2 ^ 192 + 2 ^ 96 - 1
def p256b : Nat := 0x5AC635D8AA3A93E7B3EBBD55769886BC651D06B0CC53B0F63BCE3C3E27D2604B

/-- The point lies on the curve. -/
def onCurve (x y : Nat) : Bool := decide (x < p256 ∧ y < p256 ∧ y * y % p256 = (x * x * x + (p256 - 3) * x + p256b) % p256)

/-! ### Images (Table 18.4) -/

/-- Header ranges and CHECK (R463, check 1). The code parts' directory has no layout of its own. -/
def fwHeaderOk (b : List Byte) : Bool :=
  decide (leAt b 0 4 = 0x5746474E ∧ leAt b 4 2 = 1 ∧ 1 ≤ byteAt b 6 ∧ leAt b 12 4 = b.length)
  && eventValid (leAt b 16 8) && zerosAt b 44 16 && decide (leAt b 60 4 = crc32c (b.take 60))
  && decide (leAt b 36 4 + 4 ≤ b.length ∧ leAt b 36 4 + 4 + 8 * leAt b (leAt b 36 4) 4 ≤ b.length ∧ leAt b 40 4 < b.length)

/-- The checks of R463 after the last chunk, in order: the first failing status. `sig` says that the release signature verifies. -/
def State.judgeFirmware (s : State) (b : List Byte) (sig : Bool) : Option Nat :=
  if !fwHeaderOk b then some St.fwImageInvalid
  else if !sig then some St.fwSignature
  else if byteAt b 7 / 2 ^ s.life.lineage.toNat % 2 = 0 then some St.fwHardware
  else match s.siteEntry s.chain.addr with
    | some e => if byteAt b 6 < e.level then some St.fwLevel else none
    | none => none

def stagedOf (b : List Byte) : Staged := ⟨BitVec.ofNat 32 (leAt b 8 4), byteAt b 6, BitVec.ofNat 8 (byteAt b 7), b.length, sha256 b⟩

/-- The status of the last firmware operation is kept in FW_STAT.LAST. -/
def fwVerdict (s : State) (st detail : Nat) : Verdict := .refuseAs st detail (s.onLife (fun l => { l with lastFw := st }))

/-- A chunk of an image (R463). The first one discards the staging area. -/
def firmwareChunk (sig : Bool) (s : State) (d : Desc) : Verdict :=
  let first := d.argByte 8 % 2 == 1
  let s := if first then s.onLife (fun l => { l with staged := none }) else s
  let show_ (st : FwSt) (l : Life) : Life := match l.fw with
    | .nothing | .loading | .staged | .installed => { l with fw := st }
    | _ => l
  match takeChunk s.life.load 4096 62914560 d with
  | .error b => fwVerdict (s.onLife (fun l => show_ .nothing { l with load := none })) St.fieldRange b
  | .ok (l, false) => .accept 0 false [] (s.onLife (fun x => show_ .loading { x with load := some l, lastFw := 0 }))
  | .ok (l, true) => match s.judgeFirmware l.bytes sig with
    | some st => fwVerdict (s.onLife (fun x => show_ .nothing { x with load := none })) st 0
    | none => .accept 0 false [] (s.onLife (fun x => show_ .staged { x with load := none, staged := some (stagedOf l.bytes), lastFw := 0 }))

/-! ### The FIRMWARE command (R464, Table 18.5) -/

/-- No install and no activation is under way. -/
def Life.fwIdle (l : Life) : Bool := decide (l.fw ≠ .installing ∧ l.act = .none) && !l.actDue

/-- INSTALL: from now on the slot holds no whole image. -/
def installOp (s : State) (d : Desc) : Verdict := match s.life.staged with
  | none => fwVerdict s St.fwState 0
  | some i =>
    if !s.life.fwIdle then fwVerdict s St.fwState 0
    else if d.body.length ≠ 32 then fwVerdict s St.fieldRange 16
    else if BitVec.ofNat 256 (beAt d.body 0 32) ≠ i.digest then fwVerdict s St.fwNotStaged 0
    else .accept 0 false [] (s.onLife (fun l => { l with
      fw := .installing, progress := 0, verSlot := i.version, slotOk := false, slotNew := false, lastFw := 0 }))

/-- ACTIVATE: due at the next cycle boundary (R466, R467). -/
def activateOp (s : State) (_ : Desc) : Verdict :=
  if !s.life.slotNew || !s.life.fwIdle then fwVerdict s St.fwState 0
  else if s.isPair && !s.isJoined then fwVerdict s St.fwPartner 0
  else .accept 0 false [] (s.onLife (fun l => { l with actDue := true, fw := .activating, progress := 0, lastFw := 0 }))

/-- RESTART: due at the next cycle boundary. -/
def restartOp (s : State) (_ : Desc) : Verdict := .accept 0 false [] (s.onLife (fun l => { l with restartDue := true, lastFw := 0 }))

/-! ### Keys (R471 to R473) -/

/-- The sixteen entries of a key set block. -/
def keyEntries (b : List Byte) : List KeySlot :=
  (List.range 16).map (fun n => ⟨byteAt b (72 * n), byteAt b (72 * n + 1), beAt b (72 * n + 8) 32, beAt b (72 * n + 40) 32, 0⟩)

/-- The first byte out of range. -/
def keyBadByte (b : List Byte) : Option Nat := (List.range 16).findSome? (fun n =>
  if 2 < byteAt b (72 * n) then some (72 * n)
  else if byteAt b (72 * n) ≠ 0 ∧ (byteAt b (72 * n + 1) = 0 ∨ 6 < byteAt b (72 * n + 1)) then some (72 * n + 1)
  else (List.range 6).findSome? (fun i => if byteAt b (72 * n + 2 + i) = 0 then none else some (72 * n + 2 + i)))

/-- A slot may go from what the store holds to what the block gives. -/
def KeySlot.mayBecome (old new : KeySlot) : Bool :=
  if old.st = new.st then old.st == 0 || decide (old.role = new.role ∧ old.x = new.x ∧ old.y = new.y)
  else decide (old.st = 0 ∧ new.st = 1) || decide (old.st = 1 ∧ new.st = 2 ∧ old.role = new.role ∧ old.x = new.x ∧ old.y = new.y)

def storeEmpty (keys : List KeySlot) : Bool := keys.all (fun k => decide (k.st = 0))

/-- The changes that R472 permits. -/
def keysPermitted (old new : List KeySlot) : Bool :=
  new.all (fun k => decide (k.st = 0) || onCurve k.x k.y) && new.any (fun k => decide (k.st = 1 ∧ k.role = 6))
  && (storeEmpty old || (old.zip new).all (fun p => p.1.mayBecome p.2))

/-- One slot is written or revoked. -/
def State.putKey (s : State) (n : Nat) (new : KeySlot) : State :=
  let old := s.host.keys.getD n ⟨0, 0, 0, 0, 0⟩
  if new.st = 0 ∨ new.st = old.st then s
  else (s.onHost (fun h => { h with keys := h.keys.set n { new with nonce := old.nonce } })).raise
    (if new.st = 1 then Ev.keyWritten else Ev.keyRevoked) [n, new.role]

/-- A key set is written into the store. -/
def State.putKeys (s : State) (keys : List KeySlot) : State :=
  (List.range 16).foldl (fun t n => t.putKey n (keys.getD n ⟨0, 0, 0, 0, 0⟩)) s

/-- KEYS: a Both command. The first key set is written in guard mode only (R472). -/
def keysOp (s : State) (d : Desc) : Verdict :=
  if storeEmpty s.host.keys && !s.life.guard_ then fwVerdict s St.fwState 0
  else if d.body.length ≠ 1152 then fwVerdict s St.fieldRange 16
  else match keyBadByte d.body with
    | some i => fwVerdict s St.fieldRange (0x80000000 + i)
    | none =>
      if keysPermitted s.host.keys (keyEntries d.body) then
        let t := (s.onLife (fun l => { l with lastFw := 0 })).acceptBoth d.cmd
        .accept 0 t.2 [] t.1
      else fwVerdict s St.keySlot 0

/-- Its effect at the cycle boundary; a set that the store no longer permits has none. -/
def State.applyKeys (s : State) (c : Cmd) : State :=
  if keysPermitted s.host.keys (keyEntries c.data) then s.putKeys (keyEntries c.data) else s

end Sys2Proof.Machine
end

