-- ==== Sys2Proof/Machine/TwinOps.lean ====
section
/-! DEFINITION. Operations of the pair that starts, notices and catch-ups share (16, 20 R498): the exposure window, catch-up steps and
their progress records, service alone. -/
namespace Sys2Proof.Machine

/-! ### The exposure window (20 R498) -/

/-- The pair is not joined: a window opens, or one that is open stays so. -/
def State.exposureOpens (s : State) (cause : Nat) : State :=
  let x := s.twin.exposure
  if x.openAt.isSome then s.onTwin (fun t => { t with exposure := { x with joinedSince := none } })
  else (s.onTwin (fun t => { t with exposure := ⟨some s.now, eventOf s.sysNs, none, false, none⟩ })).raise Ev.exposureOpen [cause]

/-! ### Links (16 R418) -/

/-- The pair-link path is alive: a link is in service. -/
def State.linkAlive (s : State) : Bool := s.twin.linkUp.any (fun b => b)

/-- Either path is alive. -/
def State.pathAlive (s : State) : Bool := s.linkAlive || s.ringPath

/-! ### Catch-up steps (R433, Table 16.7) -/

def CatchStep.code : CatchStep → Nat
  | .restarting => 0
  | .transfer => 1
  | .replay => 2
  | .comparing => 3
  | .exact => 4
  | .inService => 5
  | .failed => 6

/-- A catch-up progress record, sent on the pair catch-up stream (class 8, kind 0x0A). -/
def State.sendProgress (s : State) : State := match s.twin.catchUp with
  | none => s
  | some c => s.release 8 ⟨0x0A, 32, eventOf s.sysNs,
      sealed (packBytes [(8, eventOf s.sysNs), (1, c.step.code), (1, (bit c.supplying : Nat)), (1, s.twin.cause), (1, c.attempt),
        (4, c.doneKiB), (4, c.totalKiB), (8, c.snapW)])⟩

def State.onCatch (s : State) (f : CatchUp → CatchUp) : State := s.onTwin (fun t => { t with catchUp := t.catchUp.map f })

/-- A change of STEP sends a record. -/
def State.catchStep (s : State) (st : CatchStep) : State := (s.onCatch (fun c => { c with step := st })).sendProgress

/-- NOTICE restarting, and a catch-up of this twin begins (R428, R431). -/
def State.beginCatchUp (s : State) (attempt : Nat) : State :=
  let t := s.onTwin (fun x => { x with
    st := .catching, txOff := true
    catchUp := some ⟨.restarting, false, attempt, s.now, 0, 0, [], 0, none, false⟩ })
  (t.pairSend (.notice 2 t.twin.cause 0)).sendProgress

/-- The twin does not enter service by itself: retired, catching up, its catch-up has failed (R427, R431), or an engine of its has failed
for good (02 R61). -/
def State.keptOut (s : State) : Bool :=
  decide (s.twin.st = .retired) || s.twin.catchUp.isSome || (s.isPair && s.fabric.engines.any (fun e => e.failed))

/-! ### Entering service (18 R453, R454, 16 R432) -/

/-- The blind-time clocks of the safety engines start (18 R454). -/
def SafetyEng.startClocks (x : SafetyEng) (now : Nat) : SafetyEng :=
  { x with cells := x.cells.map (fun _ => now), current := now, therms := x.therms.map (fun _ => now) }

def State.startClocks (s : State) : State := (s.onEngA (fun x => x.startClocks s.now)).onEngB (fun x => x.startClocks s.now)

/-- The module enters service by itself: in the pair it runs alone. A module of the single configuration whose engine has failed for good
takes the safe state (02 R61). A twin whose ledger nobody can supply opens a new one (07 R198, R199). -/
def State.enterService (s : State) : State :=
  let t := s.onLife (fun l => { l with phase := .service, serviceAt := s.now, probationAt := s.now })
  let u := (t.startClocks).onSafety (fun x => { x with bridges := false })
  let v := u.onTime (fun x => { x with leader := true })
  let w := v.onTwin (fun x => { x with st := if v.isPair then .alone else .single, txOff := false, waitFrom := none, catchUp := none })
  let w := w.drivePins
  let w := if w.ledger.open_ then w else w.openLedger w.ledger.oldNumber
  let x := if w.isPair then w.exposureOpens 0 else w
  match (List.range 23).find? (fun e => (x.engine e).failed) with
  | some e => x.internalFault e true
  | none => x

end Sys2Proof.Machine
end

