-- ==== Sys2Proof/Machine/Life.lean ====
section
/-! DEFINITION. Commands of the life cycle (18, 20): power-up, the start, guard mode, firmware, recovery, keys, the service port, the supply,
the exposure window. -/
namespace Sys2Proof.Machine

/-! ### Power-up (18 R452, R453, R455) -/

/-- POWER_UP: the supply has stayed at or above 29 V for 10 ms. A twin that was withdrawn for good may start again, unless an engine of
its failed (16 R427, 02 R61); a die shutdown that still waited is forgotten with the standby supply. `oscOk`: the OCXO runs. -/
def execPowerUp (oscOk : Bool) (s : State) : Result :=
  .next (if s.life.phase ≠ .off ∨ s.life.inputOpen then s
    else
      let broken := s.fabric.engines.any (fun e => e.failed)
      let t := s.onTwin (fun x => { x with st := if x.st = .retired ∧ !broken then .withdrawn else x.st, catchUp := none })
      let u := t.onTherm (fun x => { x with die := { x.die with shutdown := if x.die.off then none else x.die.shutdown } })
      (u.beginStart oscOk).onLife (fun l => { l with recCause := 0 }))

/-- IMAGE_CHECKED: the slot passes R461 and R462; its version, the highest level of the module and the image, and the companion firmware it names. SE-A, SE-B and LE3 run;
configuration, saved state and ledger are loaded. -/
def execImageChecked (version : Word) (image : ImageHead) (s : State) : Result :=
  .next (if s.life.phase ≠ .held ∨ s.life.recNext ≠ 0 ∨ !s.life.slotOk then s
    else
      let t := s.onLife (fun l => { l with
        phase := .watching, checkedAt := s.now, verRun := version, verSlot := version, blHighest := image.highest.toNat, parts := image.parts
        probation := l.probation || l.slotNew, fw := if l.probation || l.slotNew then .probation else .nothing, slotNew := false })
      let u := (t.onEngA (fun x => { x with running := true })).onEngB (fun x => { x with running := true })
      (u.onTherm (fun x => { x with running := true })).loadSaved)

/-- The other engines, the plan at start, ring starts and link starts. -/
def State.startRest (s : State) : State :=
  let t := (s.loadEngines).replan 0
  (t.onLife (fun l => { l with phase := .starting })).startLines

/-- The twin of a partner in service: it does no ring start and no link start, and catches up; `cls` is the class that the partner's site
configuration gives its address. -/
def State.startCatchUp (s : State) (cls : Nat) : State :=
  let t := if s.isPair then s else s.takeClass cls
  let u := (t.loadEngines).replan 0
  ((u.onLife (fun l => { l with phase := .starting })).onTime (fun x => { x with leader := false })).beginCatchUp 1

/-- PAIR_WATCH_END: 550 ms after the configuration step; `named`: how the partner's site configuration names this address, 0 not at all, 1
senior, 2 junior. A junior whose senior is starting too goes on waiting, and its watch ends again when the senior is in service
(R432); a module whose OCXO has failed stays in guard mode (03 R68). -/
def execPairWatchEnd (named : Fin 3) (s : State) : Result :=
  .next (match s.life.phase with
    | .watching | .starting =>
      let t := if s.life.phase = .watching then s.advance (s.life.checkedAt + 550000000) else s
      if t.keptOut then t
      else if t.linkAlive && t.twin.partnerIn && t.time.rateValid && decide (named.val ≠ 0) then t.startCatchUp named.val
      else if s.life.phase = .starting ∨ (t.isJunior && t.linkAlive) then t
      else t.startRest
    | _ => s)

/-- ENTER_SERVICE: the ring starts have ended. A senior whose partner is starting goes first; a twin that hears neither path waits. -/
def execEnterService (s : State) : Result :=
  .next (if s.life.phase ≠ .starting ∨ s.keptOut = true then s
    else if !s.isPair then s.enterService
    else if s.pathAlive then (if s.isSenior then s.enterService else s)
    else if s.twin.waitFrom.isSome then s
    else s.onTwin (fun x => { x with waitFrom := some s.now }))

/-- PARTNER_WAIT_TIMEOUT (16 R432): 10 s without either path. -/
def execPartnerWaitTimeout (s : State) : Result :=
  .next (match s.twin.waitFrom with
    | some t =>
      let u := s.advance (t + 10000000000)
      if u.life.phase = .starting ∧ u.keptOut = false ∧ u.pathAlive = false then u.enterService else u
    | none => s)

/-! ### The supply and the die (20 R488, R490, 10 R279) -/

/-- HOLDUP_MEASURED (20 R490): the predicted hold-up at 46 W in 0.1 ms. -/
def execHoldupMeasured (tenths : Nat) (s : State) : Result :=
  .next (if s.life.phase = .off then s
    else
      let t := s.onLife (fun l => { l with holdupLow := decide (tenths < 250) })
      if tenths < 300 then t.raise Ev.holdupLow [tenths] else t)

/-- SUPPLY_HIGH (20 R488): above 80 V for 1 s, in 0.1 V; `again`: it has stayed there since the last record. -/
def execSupplyHigh (tenths : Nat) (again : Bool) (s : State) : Result :=
  .next (if s.life.phase = .off ∨ tenths ≤ 800 then s
    else
      let t := match again, s.life.supplyHighAt with
        | true, some a => s.advance (a + 3600000000000)
        | _, _ => s
      (t.onLife (fun l => { l with supplyHighAt := some t.now })).raise Ev.supplyHigh [tenths])

/-- SUPPLY_OVERVOLTAGE: the input switch opens, as on a supply loss. -/
def execSupplyOvervoltage (image copies header : Bool) (written : Nat) (s : State) : Result :=
  .next (if s.life.phase = .off then s.onLife (fun l => { l with inputOpen := true })
    else (s.powerDown image copies header written).onLife (fun l => { l with inputOpen := true }))

/-- SUPPLY_RECONNECT: the input switch closes; a start follows with POWER_UP. -/
def execSupplyReconnect (s : State) : Result := .next (s.onLife (fun l => { l with inputOpen := false }))

/-- DIE_COOL_RESTART (10 R279): at or below 100 °C for 60 s. -/
def execDieCoolRestart (s : State) : Result :=
  .next (match s.therm.die.off, s.therm.die.coolFrom with
    | true, some t => (s.advance (t + 60000000000)).beginStart s.time.rateValid
    | _, _ => s)

/-- WARDEN_WATCHDOG_EXPIRY (02 R60): a fault of the warden. -/
def execWardenWatchdogExpiry (s : State) : Result := .next (s.engineFault 22 3)

/-- PORT_SELFTEST (16 R423, R505): every 10 s the warden tests the port circuits; `kind` and `port` name one that failed. -/
def execPortSelftest (kind port : Byte) (ok : Bool) (s : State) : Result :=
  .next (if ok then s else s.selfDiagnosis 9 (fun t => t.raise Ev.portSelftest [kind.toNat, port.toNat]))

/-! ### Firmware (18 R463 to R468) -/

/-- FIRMWARE_LOAD_CHUNK: on the firmware load queue; `sig`: the release signature of the whole image verifies. -/
def execFirmwareLoadChunk (q : Fin 32) (sig : Bool) (s : State) : Result := .next (s.loadRow q 7 0x82 (firmwareChunk sig))

def execInstall (q : Fin 32) (s : State) : Result := .next (s.hostRow q 0x70 (op0 1) installOp)
def execActivate (q : Fin 32) (s : State) : Result := .next (s.hostRow q 0x70 (op0 2) activateOp)
def execRestart (q : Fin 32) (s : State) : Result := .next (s.hostRow q 0x70 (op0 3) restartOp)
def execKeys (q : Fin 32) (s : State) : Result := .next (s.hostRow q 0x70 (op0 4) keysOp)

/-- INSTALL_DONE: the last sector is written; writes must not be barred. In ROM recovery the module starts (R470). -/
def execInstallDone (s : State) : Result :=
  .next (if s.life.fw ≠ .installing ∨ s.nvmBarred then s
    else
      let t := (s.onLife (fun l => { l with fw := .installed, progress := 100, slotOk := true, slotNew := true })).raise
        Ev.fwInstalled [s.life.verSlot.toNat]
      if s.life.phase = .recovery then (t.onLife (fun l => { l with recNext := 0 })).beginStart s.time.rateValid else t)

/-- The engines that an activation loads from the new image, in order: LE0 to LE2, the estimators, the cycle engines, the application
cores. -/
def activationEngines : List Nat := [12, 13, 14, 16, 17, 18, 19, 4, 5, 6, 7, 8, 9, 10, 11, 0, 2]

/-- An engine stops to be loaded anew (Table 18.7): a cycle engine's outputs take their stop values, cells keep their validity. -/
def State.activationStop (s : State) (e : Nat) : State :=
  let t := s.onEngine e (fun x => { x with reloading := true })
  if 4 ≤ e ∧ e < 12 then t.faultCyc (e - 4) else if 16 ≤ e ∧ e < 20 then t.faultEst (e - 16) true else t

/-- It goes on: buffered sweeps are booked, a cycle engine restarts by the automatic choice. -/
def State.activationGo (s : State) (e : Nat) : State :=
  let t := s.onEngine e (fun x => { x with reloading := false })
  if e = 2 then t.bookBuffer
  else if 16 ≤ e ∧ e < 20 then t.reloadEst (e - 16) true
  else if 4 ≤ e ∧ e < 12 ∧ (t.section_ (e - 4)).isSome then
    let copy := (t.eng (e - 4)).savedW
    t.restartEng (e - 4) (t.warmOk copy (copy.map (fun c => (t.now : Int) - c.fine)) false)
  else t

/-- An activation at its cycle boundary (R466, R467): a joined twin withdraws and restarts into the new image; alone, the stage is disabled
and an enable refused. -/
def State.activate (s : State) : State :=
  if !s.life.actDue then s
  else
    let t := s.onLife (fun l => { l with actDue := false })
    if t.isPair then
      (if t.isJoined then t.withdraw 10 false else t.onLife (fun l => { l with fw := .installed, lastFw := St.fwPartner }))
    else ((t.onLife (fun l => { l with act := .stopping })).onGate (fun g => { g with blocked := true })).stageDisable

/-- t1 of Table 18.6: the stage has come to rest; a running impedance run is abandoned. -/
def State.activationRest (s : State) : State :=
  match s.life.act, s.gate.stage with
  | .stopping, .off | .stopping, .armed | .stopping, .tripped =>
    (s.onLife (fun l => { l with act := .checking })).abandonRun 4
  | _, _ => s

/-- ACTIVATION_IMAGE_CHECKED: the new image passes; the engines begin to load it. SE-A, SE-B, LE3 and the warden keep the code they run. -/
def execActivationImageChecked (image : ImageHead) (s : State) : Result :=
  .next (match s.life.act with
    | .checking =>
      let t := s.onLife (fun l => { l with
        act := .reloading, verRun := l.verSlot, blHighest := image.highest.toNat, parts := image.parts, slotNew := false, pendingFw := true })
      activationEngines.foldl State.activationStop t
    | _ => s)

/-- ACTIVATION_RELOAD_DONE: every engine has been loaded; the plan is made again, then comes the link start and the probation. -/
def execActivationReloadDone (s : State) : Result :=
  .next (match s.life.act with
    | .reloading =>
      let t := (activationEngines.foldl State.activationGo s).replan 0
      (t.partsFirmware.linkStart).onLife (fun l => { l with act := .linkStart, fw := .probation, probation := true, probationAt := t.now })
    | _ => s)

/-- PROBATION_END (R468): 25 s of service without an engine fault. -/
def execProbationEnd (s : State) : Result :=
  .next (if !s.life.probation || s.isPair || !s.inService then s
    else
      let t := s.advance (s.life.probationAt + 25000000000)
      ((t.onLife (fun l => { l with probation := false, act := .none, fw := .nothing, progress := 100 })).onGate
        (fun g => { g with blocked := false })).raise Ev.fwActivated [t.life.verRun.toNat])

/-! ### ROM recovery (18 R469) -/

/-- The registers in ROM recovery: at reset, but that QP_CFG0.CLASS reads 7 (19 R484). -/
def recoveryBank : RegBank := RegBank.take [] (Reg.qpCfg, regReset Reg.qpCfg ||| 0xE)

def State.recoveryRegs (s : State) : State := s.onSetup (fun x => { x with active := recoveryBank, staged := recoveryBank })

/-- Only the warden runs. -/
def State.recover (s : State) (cause : Nat) : State :=
  let t := s.onLife (fun l => { l with phase := .recovery, recCause := cause })
  let u := ((t.onEngA (fun x => { x with running := false })).onEngB (fun x => { x with running := false })).onTherm
    (fun x => { x with running := false })
  let v := u.releasePins.outsOff.loopsOpen.recoveryRegs
  v.onTwin (fun x => { x with txOff := true, st := if v.storedPair ∧ x.st ≠ .retired then .withdrawn else x.st })

/-- A recovery request is in time for 1 s from t0. -/
def State.mayRecover (s : State) : Bool :=
  (match s.life.phase with
    | .held | .watching | .starting => true
    | _ => false) && decide (s.now ≤ s.life.t0 + 1000000000)

/-- ROM_RECOVERY: 1 the loader fails its check, 2 the slot fails, 3 the last start was a failed first start, 4 a request on the service
port. -/
def execRomRecovery (cause : Fin 5) (s : State) : Result :=
  .next (if cause.val = 4 then (if s.mayRecover then s.recover 4 else s)
    else if s.life.phase ≠ .held ∨ cause.val = 0 ∨ (cause.val = 3 ∧ s.life.recNext ≠ 3) then s
    else s.recover cause.val)

/-! ### The service port (18 R477) -/

/-- What a request executes; none: an opcode the port does not accept. -/
def svcOp (sig : Bool) (op a0 : Nat) : Option (State → Desc → Verdict) :=
  if op = 0x02 then some blockReadOp
  else if op = 0x21 then some timeStatusOp
  else if op = 0x32 then some faultReadOp
  else if op = 0x34 then some slackReadOp
  else if op = 0x60 then some (match a0 with
    | 1 => recorderRead true
    | 2 => recorderFreeze true
    | 3 => recorderThaw true
    | 4 => recorderClear true
    | 5 => recorderClearReg true
    | 6 => recorderCodes true
    | _ => fun _ _ => .refuse St.fieldRange 32)
  else if op = 0x70 then some (match a0 with
    | 1 => installOp
    | 2 => activateOp
    | 3 => restartOp
    | 4 => keysOp
    | _ => fun _ _ => .refuse St.fieldRange 32)
  else if op = 0x82 then some (firmwareChunk sig)
  else none

/-- A message of the service port (Table 18.9): its header with CHECK, and its body. -/
def svcBytes (kind tag : Nat) (body : List Byte) : List Byte :=
  let head := packBytes [(2, 0x5653), (1, kind), (1, 0), (4, body.length), (4, tag)]
  head ++ toLe (crc32c (head ++ body)) 4 ++ body

/-- A response leaves on the port: its completion and its data. -/
def State.svcAnswer (s : State) (tag : Nat) (d : Desc) (status detail len flags : Nat) (resp : List Byte) : State :=
  let c : Completion :=
    { time := eventOf s.sysNs, resultLen := len, detail := detail, cmdId := d.cmdId, sqHead := 0, status := status, grant := 0
      flags := flags, phase := false }
  s.emit (.svc (svcBytes 2 tag (c.bytes ++ resp)))

/-- In ROM recovery the port accepts chunks and INSTALL only. -/
def State.svcTakes (s : State) (op a0 : Nat) : Bool :=
  decide (s.life.phase ≠ .recovery) || decide (op = 0x82 ∨ (op = 0x70 ∧ a0 = 1))

/-- A request: the checks of R377 but for credits, then the opcode's own. -/
def State.svcRequest (s : State) (tag : Nat) (d : Desc) (sig : Bool) : State :=
  let op := d.opcode.toNat
  let a0 := d.argByte 0
  match (if s.svcTakes op a0 then svcOp sig op a0 else none) with
  | none => s.svcAnswer tag d St.opcode 0 0 0 []
  | some own => match preCheck (if op = 0x82 then 7 else 0) true d with
    | some (st, det) => s.svcAnswer tag d st det 0 0 []
    | none => match s.authorise d (s.roleFor op a0) with
      | (t, some (st, det)) => t.svcAnswer tag d st det 0 0 []
      | (t, none) => match own t d with
        | .refuse st det => t.svcAnswer tag d st det 0 0 []
        | .refuseAs st det next => next.svcAnswer tag d st det 0 0 []
        | .accept need awaiting resp next =>
          if descUsesResp d && decide (d.respLen < need) then t.svcAnswer tag d St.bufferShort 0 need 0 []
          else next.svcAnswer tag d St.ok 0 need (bit awaiting) resp
        | .acceptRead need len resp next =>
          if d.respLen < need then t.svcAnswer tag d St.bufferShort 0 need 0 [] else next.svcAnswer tag d St.ok 0 len 0 resp

/-- A message whose MAGIC, reserved byte, LEN or CHECK is wrong is discarded. -/
def svcGood (msg : List Byte) : Bool :=
  decide (leAt msg 0 2 = 0x5653 ∧ byteAt msg 3 = 0 ∧ 16 + leAt msg 4 4 = msg.length ∧ leAt msg 4 4 ≤ 16777312)
  && decide (leAt msg 12 4 = crc32c (msg.take 12 ++ msg.drop 16))

/-- The descriptor and data of a request; data that the body does not hold cannot be read. -/
def svcDesc (msg : List Byte) (sig : Bool) : Desc :=
  let r : RawDesc := ⟨slice msg 16 64, slice msg 80 (leAt msg 32 4), decide (80 + leAt msg 32 4 ≤ msg.length), sig⟩
  r.desc

/-- The bytes of a message that arrives: MAGIC, KIND and the reserved byte, LEN as many as the body has, TAG, CHECK and the body. -/
def svcHeard (first tag check : Word) (body : List Byte) : List Byte :=
  toLe first.toNat 4 ++ toLe body.length 4 ++ toLe tag.toNat 4 ++ toLe check.toNat 4 ++ body

/-- SVC_MESSAGE (R477): a message has arrived whole; whether the signature of a request's trailer verifies. -/
def execSvcMessage (first tag check : Word) (body : List Byte) (sig : Bool) (s : State) : Result :=
  let msg := svcHeard first tag check body
  let kind := byteAt msg 2
  .next (if !svcGood msg ∨ s.life.phase = .off then s
    else if kind = 1 then s.svcRequest (leAt msg 8 4) (svcDesc msg sig) sig
    else if kind = 4 ∧ s.mayRecover then s.recover 4
    else s)

/-! ### The exposure window (20 R498) -/

/-- EXPOSURE_NOTICE: the age reaches 20 days. -/
def execExposureNotice (s : State) : Result :=
  let x := s.twin.exposure
  .next (match x.openAt with
    | some t =>
      if x.noticed || s.twin.txOff then s
      else
        let u := s.advance (t + 20 * day)
        (u.onTwin (fun y => { y with exposure := { x with noticed := true } })).raise Ev.exposureNotice [x.openEvent]
    | none => s)

/-- EXPOSURE_EXCEEDED: at 30 days, and every 24 h after. -/
def execExposureExceeded (s : State) : Result :=
  let x := s.twin.exposure
  .next (match x.openAt with
    | some t =>
      if s.twin.txOff then s
      else
        let at_ := match x.exceededAt with
          | some a => a + day
          | none => t + 30 * day
        let u := s.advance at_
        (u.onTwin (fun y => { y with exposure := { x with exceededAt := some at_ } })).raise Ev.exposureExceeded [x.openEvent]
    | none => s)

/-- EXPOSURE_CLOSED: joined for 24 h without a break. -/
def execExposureClosed (s : State) : Result :=
  let x := s.twin.exposure
  .next (match x.openAt, x.joinedSince with
    | some t, some j =>
      if !s.isJoined then s
      else
        let u := s.advance (j + day)
        (u.onTwin (fun y => { y with exposure := ⟨none, 0, none, false, none⟩ })).raise Ev.exposureClosed [((u.now - t) / 1000000000 : Nat)]
    | _, _ => s)

end Sys2Proof.Machine
end

