-- ==== Sys2Proof/Machine/Twin.lean ====
section
/-! DEFINITION. Commands of the pair (16): frames from the partner, digests, notices, catch-up, the solo state. -/
namespace Sys2Proof.Machine

/-! ### Frames (R417, R418) -/

/-- A frame with a good CHECK has arrived on a link: what it says of the partner, and whether it is the first copy. The numbers of the
last 64 frames are kept. -/
def State.pairHear (s : State) (h : PairHead) : State × Bool :=
  let fresh := !s.twin.pseqSeen.contains h.pseq
  ((s.linkHeard h.link).onTwin (fun x => { x with
    partnerIn := h.inService, pseqSeen := if fresh then (h.pseq :: x.pseqSeen).take 64 else x.pseqSeen }), fresh)

/-- A frame's effect: the second copy has none, and a module that is no twin has no partner. -/
def State.pairFrame (s : State) (h : PairHead) (f : State → State) : Result :=
  let (t, fresh) := s.pairHear h
  .next (if fresh && t.isPair then f t else t)

/-- The twins decide from the same inputs: joined, or as a twin that catches up and computes. -/
def State.agrees (s : State) : Bool := s.isJoined || (decide (s.twin.st = .catching) && s.computes)

/-- PAIR_HEART_FRAME. -/
def execPairHeartFrame (h : PairHead) (s : State) : Result := s.pairFrame h (fun t => t)

/-- PAIR_LINK_TIMEOUT (R418): LINK_MS without a good frame on a link. -/
def execPairLinkTimeout (link : Fin 2) (s : State) : Result :=
  .next (match s.twin.linkUp.getD link false, s.twin.lastFrame.getD link none with
    | true, some a =>
      let t := (s.advance (a + 1000000 * Fld.pairCfg_LINK_MS s.cfg)).onTwin (fun x => { x with linkUp := x.linkUp.set link false })
      let t := t.onTime (fun x => { x with pairResult := x.pairResult.set link none })
      if t.linkAlive then t else t.onTwin (fun x => { x with pseqSeen := [], partnerIn := false })
    | _, _ => s)

/-! ### Inputs (R419 to R421) -/

/-- PAIR_SLOTS_FRAME (R419): the slots of a ring frame that the partner received at `receipt`. Their check values count for the partner's
port, not for this twin's. -/
def execPairSlotsFrame (h : PairHead) (r : Fin 8) (e : End) (late : Bool) (first count grid receipt : Nat) (bytes : List Byte) (s : State) : Result :=
  s.pairFrame h (fun t =>
    if t.agrees then
      (t.takeSlots r e first count grid late receipt (List.replicate 16 0 ++ bytes)).onLine r (fun l => { l with crcErr := (t.line r).crcErr })
    else t)

/-- PAIR_STATUS_FRAME (R420): a STATUS that the partner received at `receipt`. -/
def execPairStatusFrame (h : PairHead) (l : Fin 8) (receipt : Nat) (bytes : List Byte) (s : State) : Result :=
  s.pairFrame h (fun t => match parseStatus l bytes with
    | some f => if t.agrees && decide (l.val < t.links) then t.takeStatus l f receipt else t
    | none => t)

/-- A DIO pin's samples in both twins: a difference that lasts 100 ms is recorded, once per hour. -/
def State.dioCompare (s : State) (pins : BitVec 16) (i : Nat) : State :=
  if s.prog.dioOwn.getLsbD i = pins.getLsbD i then s.onTwin (fun x => { x with dioDiff := x.dioDiff.set i none })
  else match s.twin.dioDiff.getD i none with
    | none => s.onTwin (fun x => { x with dioDiff := x.dioDiff.set i (some s.now) })
    | some a =>
      let told := match s.twin.dioEvent.getD i none with | some b => decide (s.now < b + hourNs) | none => false
      if s.now < a + 100000000 ∨ told = true then s
      else (s.onTwin (fun x => { x with dioEvent := x.dioEvent.set i (some s.now) })).raise Ev.pairInputDiff [i]

/-- The partner's samples of a grid instant: the senior's are used. -/
def State.takeDio (s : State) (g : Nat) (pins : BitVec 16) : State :=
  if g ≠ s.ring.grid then s
  else
    let t := (List.range 16).foldl (fun u i => u.dioCompare pins i) s
    if s.isJunior then t.onProg (fun p => { p with dio := pins }) else t

/-- A divergence (R438, R437): 0 state digests, 1 output digests, 2 state after a path recovered. The junior withdraws. -/
def State.diverge (s : State) (kind : Nat) : State :=
  let t := (s.onTwin (fun x => { x with diverged := satAdd x.diverged 1 255, outDiff := 0 })).raise Ev.pairDiverged [kind]
  if s.isJunior then t.withdraw 5 false else t

/-- The partner's output digest of a grid interval. -/
def State.takeOutDigest (s : State) (g : Nat) (v : Word) : State := match s.twin.outDigest with
  | some (g', own) =>
    if g ≠ g' ∨ s.isJoined = false then s
    else if own = v then s.onTwin (fun x => { x with outDiff := 0 })
    else if s.twin.outDiff = 0 then s.onTwin (fun x => { x with outDiff := 1 })
    else s.diverge 1
  | none => s

/-- The partner's MT readings (10 R260). -/
def State.takeMt (s : State) (l : List (Option Int)) : State :=
  s.onTherm (fun x => { x with sensors := mapIdxL (fun i (y : Sensor) =>
    if 256 ≤ i ∧ i - 256 < l.length then { y with peer := l.getD (i - 256) none } else y) x.sensors })

/-- Two event times lie within 1 µs. -/
def sameArrival (a b : Nat) : Bool := decide (mag ((nsOfEvent a : Int) - nsOfEvent b) ≤ 1000)

/-- A CAN frame that the partner received: one arrival with this twin's own where their timestamps lie within 1 µs, with the earlier. -/
def CanObj.takePeer (o : CanObj) (now end_ sof : Nat) (d : List Byte) : CanObj :=
  let new : CanObj := { o with next := some (atOrAfter (end_ + 100000) 250000, d, sof), lastAt := some now, lost := false }
  match o.next with
  | some (t, e, f) => if sameArrival f sof then { o with next := some (t, e, min f sof) } else new
  | none => if o.lastAt.isSome && sameArrival o.sof sof then o else new

/-- A Modbus reply that the partner decoded as the master. -/
def MbEntry.takePeer (m : MbEntry) (at_ : Nat) (regs : List Nat) : MbEntry :=
  { m with next := some (atOrAfter (at_ + 100000) 250000, regs), fails := 0, lost := false }

/-- One input of an INPUTS frame. -/
def State.takeInput (s : State) (i : PairInput) : State := match i with
  | .dio g pins => s.takeDio g pins
  | .mt l => s.takeMt l
  | .digest g v => s.takeOutDigest g v
  | .can p o end_ sof d => s.onObj p o (fun x => x.takePeer s.now end_ sof d)
  | .modbus e at_ regs => s.onMb e (fun x => x.takePeer at_ regs)

/-- PAIR_INPUTS_FRAME (R419). -/
def execPairInputsFrame (h : PairHead) (items : List PairInput) (s : State) : Result :=
  s.pairFrame h (fun t => if t.agrees then items.foldl State.takeInput t else t)

/-- A dispatch command that the partner accepted: where this twin has it already, the earlier acceptance counts. -/
def State.peerDispatch (s : State) (c : Cmd) (source at_ : Nat) : State :=
  let d := dispBody c.arg
  if s.disp.seq.getD source none = some d.seq then
    s.onDisp (fun x => { x with waiting := x.waiting.map (fun w =>
      if w.source = source then { w with from_ := min w.from_ (at_ + 1000000) } else w) })
  else (s.dispTake source d (at_ + 1000000)).markSeen c source

/-- A plant stage command that the partner accepted. -/
def State.peerStage (s : State) (c : Cmd) (at_ : Nat) : State :=
  let seq : Word := BitVec.ofNat 32 (leAt c.arg 4 4)
  if s.plant.sseq = some seq then
    s.onHost (fun x => { x with accepted := x.accepted.map (fun a => if a.2 = c then (min a.1 (at_ + 1000000), a.2) else a) })
  else
    let t := (s.onPlant (fun p => { p with sseq := some seq })).onDisp (fun x => { x with notReady := x.notReady && decide (byteAt c.arg 0 ≠ 1) })
    (t.onHost (fun x => { x with accepted := x.accepted ++ [(at_ + 1000000, c)] })).markSeen c 1

/-- Opcodes of the commands that both twins must accept (14 R370). -/
def bothOpcodes : List Nat := [0x12, 0x13, 0x14, 0x20, 0x33, 0x50, 0x70]

/-- PAIR_COMMAND_FRAME (R421): a forwarded command, the acceptance of a Both command, or a commit's (opcode 0). -/
def execPairCommandFrame (h : PairHead) (c : Cmd) (source : Fin 2) (accepted : Nat) (s : State) : Result :=
  s.pairFrame h (fun t =>
    let op := c.opcode.toNat
    if !t.agrees then t
    else if op = 0 then t.takePeerGo c accepted
    else if bothOpcodes.contains op then t.peerBoth c accepted
    else if op = 0x10 then t.peerDispatch c source accepted
    else if op = 0x11 ∧ source.val = 1 then t.peerStage c accepted
    else t.onHost (fun x => { x with accepted := x.accepted ++ [(accepted + 1000000, c)] }))

/-- PAIR_SAFETY_FRAME (12 R324). -/
def execPairSafetyFrame (h : PairHead) (bytes : List Byte) (s : State) : Result :=
  s.pairFrame h (fun t => match parsePdu bytes with
    | some p => if t.computes then t.takePartner p else t
    | none => t)

/-! ### State digests (R416, R437, R438, R430) -/

/-- What the digest covers. -/
def State.digested (s : State) : Digested :=
  { image := (newestOf (s.ledger.writing :: s.ledger.images)).map (fun i => { i with ident := 0 })
    est := s.est.ckpt, copies := s.prog.engines.map (fun x => x.savedW)
    gate := s.gate.common, loop := s.loop.common, safety := s.safety.common, active := s.cfg.filter (fun e => !queueReg e.1)
    images := s.prog.banks.map (fun b => match b.image with | some g => g.id | none => 0) }

/-- The fine counter lies within ±20 ns of the leader's, by the link in use. -/
def State.inTouch (s : State) : Bool := match s.time.pairResult.getD (if s.twin.linkUp.getD 0 false then 0 else 1) none with
  | some d => decide (mag d ≤ 20)
  | none => false

/-- NOTICE ready: the re-entry instant is the first whole multiple of 4 ms at least 10 ms on (R430). -/
def State.noticeReady (s : State) : State :=
  let e := atOrAfter (s.now + 10000000) 4000000
  ((s.onCatch (fun c => { c with reentry := some e, echoed := false })).pairSend (.notice 3 s.twin.cause (s.eventAt e))).catchStep .exact

/-- The twin that catches up is exact (R430). -/
def State.exactCheck (s : State) (equal : Bool) : State := match s.twin.catchUp with
  | some c => if c.step = .comparing ∧ c.supplying = false ∧ equal = true ∧ s.inTouch = true then s.noticeReady else s
  | none => s

/-- Both digests of one whole second are there. -/
def State.compareDigests (s : State) : State := match s.twin.digestOwn, s.twin.digestPeer with
  | some (a, x), some (b, y) =>
    if a ≠ b then s
    else
      let t := s.onTwin (fun z => { z with digestPeer := none })
      match t.twin.st with
      | .joined => if x = y then t else t.diverge 0
      | .comparing => if x = y then t.onTwin (fun z => { z with joinDue := true }) else if t.isJunior then t.diverge 2 else t
      | .catching => t.exactCheck (decide (x = y))
      | _ => t
  | _, _ => s

/-- Withdrawals of the last 24 h, as PAIR_STAT and DIGEST carry them. -/
def State.withdrawals24 (s : State) : Nat := min 15 (s.twin.history.filter (fun e => decide (s.now < e.1 + day))).length

/-- STATE_DIGEST (R416): at a whole second a twin computes its digest; it leaves at W + 10 ms with the margin plan. -/
def execStateDigest (second : Nat) (s : State) : Result :=
  .next (if !s.isPair || !s.computes then s
    else
      let t := s.advance (second * 1000000000)
      let d := Sys2Proof.Config.stateDigest t.digested
      let p := t.fabric.plan
      let u := (t.onTwin (fun x => { x with
        digestOwn := some (second, d), planOwn := some p.permitted, planDue := some second })).pairSend
        (.digest second d p.permitted p.ceiling p.unitCost t.withdrawals24)
      u.compareDigests)

/-- PAIR_DIGEST_FRAME (R438): the partner's digest and margin plan (02 R51, R56). -/
def execPairDigestFrame (h : PairHead) (second : Nat) (digest : Word) (permitted : List Bool) (ceiling : Nat) (unitCost : List Nat)
    (s : State) : Result :=
  s.pairFrame h (fun t =>
    (t.onTwin (fun x => { x with
      planPeer := some (permitted, ceiling, unitCost), digestPeer := some (second, digest) })).compareDigests)

/-! ### Notices (R426, R427, R429, R430) -/

/-- The partner is gone: from the next cycle boundary this twin is alone. -/
def State.partnerLeaves (s : State) (cause : Nat) : State := match s.twin.st with
  | .joined | .solo | .comparing => s.onTwin (fun x => { x with becomeAlone := some cause, partnerIn := false })
  | _ => s

/-- NOTICE_WITHDRAWING (R426). -/
def execNoticeWithdrawing (h : PairHead) (cause : Byte) (s : State) : Result :=
  s.pairFrame h (fun t => (t.partnerLeaves cause.toNat).onTwin (fun x => { x with
    catchUp := match x.catchUp with | some c => if c.supplying then none else some c | none => none }))

/-- NOTICE_RESTARTING (R429): a snapshot is due at the next whole second. A partner whose notice was lost with the paths is gone too. -/
def execNoticeRestarting (h : PairHead) (cause : Byte) (s : State) : Result :=
  s.pairFrame h (fun t =>
    if !t.sending then t
    else
      let n := match t.twin.catchUp with | some c => if c.supplying then c.attempt + 1 else 1 | none => 1
      let u := (t.partnerLeaves cause.toNat).onTwin (fun x => { x with
        silent := false, catchUp := some ⟨.restarting, true, n, t.now, 0, 0, [], 0, none, false⟩ })
      u.sendProgress)

/-- NOTICE_READY (R430): the partner names E, an event time; it is echoed. An invalid one makes the frame corrupt (03 R65). -/
def execNoticeReady (h : PairHead) (reentry : Nat) (s : State) : Result :=
  if !eventValid reentry then .next s
  else s.pairFrame h (fun t => match t.twin.catchUp with
    | some c =>
      if !c.supplying then t
      else ((t.onCatch (fun x => { x with reentry := some (t.fineOf reentry), echoed := true })).pairSend (.notice 4 0 reentry)).catchStep .exact
    | none => t)

/-- NOTICE_ECHO (R430). -/
def execNoticeEcho (h : PairHead) (reentry : Nat) (s : State) : Result :=
  if !eventValid reentry then .next s
  else s.pairFrame h (fun t => t.onCatch (fun c => if c.reentry = some (t.fineOf reentry) then { c with echoed := true } else c))

/-- NOTICE_RETIRED (R427): the partner stays away; it is supplied no more. -/
def execNoticeRetired (h : PairHead) (cause : Byte) (s : State) : Result :=
  s.pairFrame h (fun t => (t.partnerLeaves cause.toNat).onTwin (fun x => { x with
    catchUp := match x.catchUp with | some c => if c.supplying then none else some c | none => none }))

/-- The partner's withdrawal acts, at a cycle boundary (R426, R505). A partner found silent was recorded when it was. -/
def State.becomesAlone (s : State) : State := match s.twin.becomeAlone with
  | none => s
  | some cause =>
    let t := (s.onTwin (fun x => { x with st := .alone, becomeAlone := none, joinDue := false, outDiff := 0 })).onTime
      TimeBase.leads
    let u := if s.twin.silent then t else t.raise Ev.twinWithdrawn [cause]
    u.exposureOpens cause

/-- The solo state ends, at a cycle boundary (R437). -/
def State.joins (s : State) : State :=
  if !s.twin.joinDue then s
  else
    let t := (s.onTwin (fun x => { x with st := .joined, joinDue := false, outDiff := 0 })).onTime (fun x => { x with leader := s.isSenior })
    t.onTwin (fun x => { x with exposure := { x.exposure with joinedSince := some t.now } })

/-! ### Withdrawal (R425, R427) -/

/-- LOOP_BRIDGE_CLOSED: every bridge reads closed; the withdrawn twin opens its loop switches and restarts cold, unless it is retired, its
supply or its die has shut it down. -/
def execLoopBridgeClosed (s : State) : Result :=
  .next (if !s.twin.bridging then s
    else
      let t := s.loopsOpen.onTwin (fun x => { x with bridging := false })
      if t.twin.st = .retired ∨ t.life.phase = .off ∨ t.therm.die.shutdown.isSome = true then t
      else t.beginStart t.time.rateValid)

/-! ### The snapshot (R428, R429, 18 R473) -/

/-- The items of Table 16.6. -/
def State.items (s : State) : Items :=
  { active := s.setup.active.filter (fun e => !queueReg e.1), staged := s.setup.staged.filter (fun e => !queueReg e.1)
    blocks := s.setup.blocks, blocksAct := s.setup.blocksAct
    stored := s.setup.stored, storedBlk := s.setup.storedBlk, nonces := s.host.keys.map (fun k => k.nonce)
    prog := s.prog, ledger := s.ledger, est := s.est, ring := s.ring, meas := s.meas, gate := s.gate, loop := s.loop, disp := s.disp
    therm := s.therm, safety := s.safety, plant := s.plant, profile := s.fabric.profile, sweepUs := s.fabric.sweepUs
    level := s.life.blRunning, openAt := s.twin.exposure.openAt }

/-- The key set as the KEYS command writes it (18 R472): 16 slots of 72 bytes. -/
def keyBytes (keys : List KeySlot) : List Byte := keys.flatMap (fun k =>
  [BitVec.ofNat 8 k.st, BitVec.ofNat 8 k.role] ++ List.replicate 6 0 ++ (toLe k.x 32).reverse ++ (toLe k.y 32).reverse)

/-- An item in chunks of up to 256 bytes, with their offsets. -/
def chunks (l : List Byte) : List (Nat × List Byte) :=
  (List.range (max 1 ((l.length + 255) / 256))).map (fun i => (256 * i, slice l (256 * i) 256))

/-- The items' bytes: item 0 is the key set. -/
def State.itemBytes (s : State) : List (Nat × List Byte) :=
  (0, keyBytes s.host.keys) :: (List.range 9).map (fun i => (i + 1, Sys2Proof.Config.snapshotBytes s.items (i + 1)))

/-- CATCHUP_SNAPSHOT (R429): frozen at W, the first whole second after NOTICE restarting, and sent on a link in service. -/
def execCatchupSnapshot (s : State) : Result :=
  .next (match s.twin.catchUp with
    | some c =>
      if !c.supplying || decide (c.step ≠ .restarting) then s
      else
        let t := s.advance (nextMultiple c.startedAt 1000000000)
        let l := t.itemBytes
        let kib := (sumN (l.map (fun e => e.2.length)) + 1023) / 1024
        let link := if t.twin.linkUp.getD 0 false then 0 else 1
        let u := (t.onCatch (fun x => { x with snapW := eventOf t.sysNs, doneKiB := kib, totalKiB := kib })).catchStep .transfer
        l.foldl (fun v e => (chunks e.2).foldl (fun w k => w.pairSendOn link (.catchup e.1 k.1 k.2)) v) u
    | none => s)

/-- The catch-up ends without a re-entry: the twin stays withdrawn, with the event named (R431). -/
def State.stayOut (s : State) (e : EvDef) (args : List Int) : State :=
  ((s.raise e args).onTwin (fun x => { x with st := .withdrawn })).catchStep .failed

/-- An item's bytes as received so far. -/
def CatchUp.item (c : CatchUp) (i : Nat) : List Byte := match c.rx.find? (fun e => decide (e.1 = i)) with
  | some e => e.2
  | none => []

/-- The key set is there: a store that is wholly empty takes it, another must agree with it (18 R473, R431). -/
def State.keysArrived (s : State) (c : CatchUp) : State :=
  let theirs := keyEntries (c.item 0)
  if storeEmpty s.host.keys then s.putKeys theirs
  else if Sys2Proof.Config.keyDigest s.host.keys = Sys2Proof.Config.keyDigest theirs then s
  else s.stayOut Ev.pairKeysDiffer []

/-- The partner's registers with this twin's own queue registers. -/
def mergeRegs (theirs mine : RegBank) : RegBank :=
  (theirs.filter (fun e => !queueReg e.1) ++ mine.filter (fun e => queueReg e.1)).foldl RegBank.take []

/-- The items replace the twin's own, part by part; the queue registers, the event recorder, slack history, last-fault records and margin
plan stay its own, and so does what its own circuits show. -/
def State.loadRegs (s : State) (x : Items) : State :=
  (s.onSetup (fun y => { y with
    active := mergeRegs x.active y.active, staged := mergeRegs x.staged y.staged, blocks := x.blocks, blocksAct := x.blocksAct
    stored := mergeRegs x.stored [], storedBlk := x.storedBlk })).onHost (fun y => { y with
      keys := mapIdxL (fun i (k : KeySlot) => { k with nonce := max k.nonce (x.nonces.getD i 0) }) y.keys })

def State.loadProgs (s : State) (x : Items) : State :=
  (s.onProg (fun p => { x.prog with dioOwn := p.dioOwn })).onPlant (fun p => { x.plant with eth := p.eth, sb := p.sb, nodes := p.nodes, dups := p.dups })

/-- The junior's marker of a ledger taken from its partner (07 R204): it stands at the next number and takes none, so that both twins go on
with the same numbers (R203). -/
def State.markTaken (s : State) (old : Nat) : State :=
  if s.isSenior then s
  else (s.releaseRecs [⟨s.bookTime, s.ledger.lseq, 6, s.ledgerFlags, 64, 1, [4, 0, (old : Int)]⟩]).onLedger (fun l => { l with snapDue := true })

/-- The string's state is the partner's; the images stay each twin's own (07 R203). -/
def State.loadString (s : State) (x : Items) : State :=
  let mine := s.ledger
  ({ s with
    ledger := { x.ledger with hiLatch := mine.hiLatch, images := mine.images, place := mine.place }
    est := x.est, ring := x.ring.onOwn s.ring, meas := x.meas, loop := x.loop, disp := x.disp }).markTaken mine.number.toNat

def State.loadGate (s : State) (x : Items) : State :=
  (s.onGate (fun g => { x.gate with slots := g.slots, newBits := g.newBits, captures := g.captures, ring := [] })).onTherm
    (fun t => { x.therm with die := t.die, running := t.running })

/-- A safety engine: the partner's counters and latches, and what this twin's own inputs show. -/
def SafetyEng.load (mine theirs : SafetyEng) : SafetyEng :=
  { theirs with running := mine.running, inputs := mine.inputs, loops := mine.loops }

def State.loadSafety (s : State) (x : Items) : State := s.onSafety (fun y => { y with
  engA := y.engA.load x.safety.engA, engB := y.engB.load x.safety.engB
  safe := x.safety.safe, cause := x.safety.cause, enteredAt := x.safety.enteredAt, needStart := x.safety.needStart || y.needStart
  contactor := x.safety.contactor, resetDue := x.safety.resetDue, sfSeq := x.safety.sfSeq, sfEpoch := x.safety.sfEpoch
  producers := x.safety.producers, rated := x.safety.rated })

/-- The twin computes in step from here on, its outputs held back. -/
def State.loadLife (s : State) (x : Items) : State :=
  let t := (s.onFabric (fun f => { f with profile := x.profile, sweepUs := x.sweepUs })).onLife (fun l => { l with
    phase := .service, serviceAt := s.now, guard_ := false, blRunning := x.level })
  t.onTwin (fun y => { y with
    exposure := { y.exposure with openAt := x.openAt, openEvent := (x.openAt.map (fun a => eventOf ((a : Int) + s.time.stepOffset).toNat)).getD 0 } })

def State.loadItems (s : State) (x : Items) : State :=
  let c := s.cls
  (((((((s.loadRegs x).loadProgs x).loadString x).loadGate x).loadSafety x).loadLife x).formClass c).catchStep .replay

/-- What R431 finds against the items: the event, or nothing. -/
def State.itemsBad (s : State) (x : Items) : Option (EvDef × List Int) :=
  let own := match s.storedEntry s.chain.addr with | some e => e.level | none => x.level
  let bank := x.prog.banks.getD x.prog.active ⟨0, none, none⟩
  let id : Nat := match bank.image with | some g => g.id.toNat | none => 0
  let refused := match bank.image with
    | some g => (g.refusal s.fabric.plan (Fld.marginCfg_TRIGGER x.active) (Fld.cycCfg_BASE x.active)).isSome
    | none => false
  if own ≠ x.level ∨ s.life.blHighest < x.level then some (Ev.blMismatch, [if own = x.level then s.life.blRunning else own, x.level])
  else if refused || !s.fabric.plan.permitted.getD x.profile false then some (Ev.progNotAdmitted, [id])
  else none

/-- The last chunk is there. -/
def State.snapshotArrived (s : State) (c : CatchUp) : State :=
  match Sys2Proof.Config.snapshotItems (c.rx.filter (fun e => decide (e.1 ≠ 0))) with
  | none => s
  | some x => match s.itemsBad x with
    | some (e, args) => s.stayOut e args
    | none => s.loadItems x

/-- Bytes of an item received at their offset. -/
def CatchUp.take (c : CatchUp) (item offset : Nat) (data : List Byte) : CatchUp :=
  if offset ≠ (c.item item).length then c
  else
    let rx := (c.rx.filter (fun e => decide (e.1 ≠ item))) ++ [(item, c.item item ++ data)]
    { c with rx := rx, doneKiB := sumN (rx.map (fun e => e.2.length)) / 1024 }

/-- PAIR_CATCHUP_FRAME (R429): a chunk of an item; `last`: the snapshot is complete with it. -/
def execPairCatchupFrame (h : PairHead) (item offset : Nat) (data : List Byte) (last : Bool) (s : State) : Result :=
  s.pairFrame h (fun t => match t.twin.catchUp with
    | some c =>
      if c.supplying || decide (t.twin.st ≠ .catching) || !(decide (c.step = .restarting ∨ c.step = .transfer)) then t
      else
        let d := c.take item offset data
        let u := t.onCatch (fun _ => { d with totalKiB := if last then d.doneKiB else d.totalKiB })
        let v := if c.step = .restarting then u.catchStep .transfer else u
        let w := if item = 0 ∧ c.item 0 ≠ d.item 0 ∧ (d.item 0).length = 1152 then v.keysArrived d else v
        if last && decide (w.twin.st = .catching) then w.snapshotArrived d else w
    | none => t)

/-- REPLAY_DONE (R429): the twin computes in step with its partner; the digests are compared. -/
def execReplayDone (s : State) : Result :=
  .next (match s.twin.catchUp with
    | some c => if c.step = .replay ∧ c.supplying = false then s.catchStep .comparing else s
    | none => s)

/-! ### Re-entry (R430, R431) -/

/-- The contactor outputs that the partner holds energised. -/
def State.energise (s : State) : State :=
  let on (t : State) (o : Option Nat) : State := match o with | some n => t.setOut n true | none => t
  if s.safety.safe then s
  else match s.safety.contactor with
    | .open_ => s
    | .precharge _ => on s s.prechargeOut
    | .mainOn _ => on (on s s.prechargeOut) s.mainOut
    | .closed | .opening => on s s.mainOut

/-- Both twins are joined. -/
def State.joined (s : State) (e : Nat) : State :=
  let t := (s.onTwin (fun x => { x with
    st := .joined, txOff := false, silent := false, partnerIn := true, outDiff := 0, outMark := s.out.length
    exposure := { x.exposure with joinedSince := some s.now } })).onTime (fun x => { x with leader := s.isSenior })
  let u := (t.raise Ev.twinRejoined [eventOf ((e : Int) + t.time.stepOffset).toNat]).catchStep .inService
  u.onTwin (fun x => { x with catchUp := none })

/-- REENTRY: at E the rejoining twin releases its outputs; its probation ends (18 R468). -/
def execReentry (s : State) : Result :=
  .next (match s.twin.catchUp with
    | some c => match c.reentry with
      | some e =>
        if !c.echoed || decide (c.step ≠ .exact) then s
        else
          let t := s.advance e
          if c.supplying then (if t.sending then t.joined e else t)
          else
            let u := ((t.onSafety (fun x => { x with bridges := false })).onTwin (fun x => { x with txOff := false })).drivePins.energise
            (u.onLife (fun l => { l with probation := false, fw := if l.fw = .probation then .nothing else l.fw })).joined e
      | none => s
    | none => s)

/-- REENTRY_ECHO_TIMEOUT: no echo 5 ms before E. -/
def execReentryEchoTimeout (s : State) : Result :=
  .next (match s.twin.catchUp with
    | some c => match c.reentry with
      | some e => if c.supplying || c.echoed then s else (s.advance (e - 5000000)).noticeReady
      | none => s
    | none => s)

/-- CATCHUP_TIMEOUT (R431): not exact within CATCH_S; the third attempt is the last. A first start of new firmware has then failed (18
R468). -/
def execCatchupTimeout (s : State) : Result :=
  .next (match s.twin.catchUp with
    | some c =>
      if c.supplying || decide (s.twin.st ≠ .catching) || decide (c.step = .exact) then s
      else
        let t := s.advance (c.startedAt + Fld.pairCfg_CATCH_S s.cfg * 1000000000)
        if c.attempt < 3 then t.beginCatchUp (c.attempt + 1)
        else
          let u := t.stayOut Ev.catchupFailed [3]
          if u.life.probation then u.firstStartFailed else u
    | none => s)

/-- CATCHUP_PROGRESS_SEND (R433). -/
def execCatchupProgressSend (s : State) : Result := .next s.sendProgress

/-! ### Both paths lost (R434 to R437) -/

/-- Links in service: their receivers have sent a STATUS within 8 phase periods. -/
def State.liveLinks (s : State) : List Nat := (List.range s.links).filter (fun l => (s.receiver l).started && decide (s.now < s.linkLossAt l))

/-- The gate witness: the stage runs, and no STATUS of the last 16 phase periods on any link in service shows a copy from the partner. -/
def State.witness (s : State) : Bool :=
  Fld.pairCfg_WITNESS s.cfg && !s.liveLinks.isEmpty && s.liveLinks.all (fun l => decide (16 ≤ (s.rx (2 * l)).noPeer ∧ 16 ≤ (s.rx (2 * l + 1)).noPeer))
  && (match s.gate.stage with | .ramp | .run | .stopDelay | .stopRamp => true | _ => false)

/-- PATHS_LOST (R434): neither path is alive and no notice came; the twin decides by its gate witness. In the solo state each twin is its own
time leader (03 R75). -/
def execPathsLost (s : State) : Result :=
  .next (if !s.isJoined || s.pathAlive || s.twin.becomeAlone.isSome then s
    else if s.witness then
      (s.onTwin (fun x => { x with silent := true, becomeAlone := some 0, partnerIn := false })).raise Ev.twinLost []
    else ((((s.onTwin (fun x => { x with st := .solo, partnerIn := false, digestPeer := none })).onTime TimeBase.leads).raise Ev.twinSolo []).exposureOpens 0))

/-- PATH_RECOVERED (R437, 03 R75): `offset` is the difference of the fine counters in ns; above 1 µs the junior withdraws, else it steers to
the senior and the state digests of the next whole second decide. -/
def execPathRecovered (offset : Int) (s : State) : Result :=
  .next (if s.twin.st ≠ .solo then s
    else if 1000 < mag offset then (if s.isJunior then s.withdraw 8 false else s)
    else (s.onTwin (fun x => { x with st := .comparing, digestOwn := none, digestPeer := none })).onTime (fun x => { x with
      leader := s.isSenior }))

end Sys2Proof.Machine
end

