-- ==== Sys2Proof/Machine/Cycle.lean ====
section
/-! DEFINITION. The cycle boundary (13 R333): committed changes and accepted commands take effect. -/
namespace Sys2Proof.Machine

/-- The effect of an accepted command at its boundary. -/
def State.applyAccepted (s : State) (at_ : Nat) (c : Cmd) : State :=
  let op := c.opcode.toNat
  let a0 := byteAt c.arg 0
  if op = 0x11 then s.stageOp a0
  else if op = 0x12 then s.applyContactor a0
  else if op = 0x13 then (s.onSafety (fun x => { x with resetDue := some 1 })).applyReset
  else if op = 0x14 then s.applyAck a0
  else if op = 0x20 then s.applyTime c
  else if op = 0x30 then s.applyImpRun
  else if op = 0x31 then s.rearmPeaks
  else if op = 0x33 then s.applyDiagStart (byteAt c.arg 1)
  else if op = 0x40 then s.applyNote c
  else if op = 0x50 then s.applyProg c (if s.actsSingle then at_ else at_ - 500000)
  else if op = 0x70 then s.applyKeys c
  else s

/-- Accepted commands that are due, in the order of their execution (14 R376). -/
def State.acceptedDue (s : State) : State :=
  let due := s.host.accepted.filter (fun a => decide (a.1 ≤ s.now))
  let t := s.onHost (fun x => { x with accepted := x.accepted.filter (fun a => decide (s.now < a.1)) })
  due.foldl (fun u a => u.applyAccepted a.1 a.2) t

/-- An identity that has been formed comes into force (01 R36). -/
def State.takeIdentity (s : State) : State := match s.chain.identityNext with
  | some i => { s with chain := { s.chain with identity := i, identityNext := none } }
  | none => s

/-- A restart that is due (18 R464, R468): a twin whose partner runs withdraws for it; one that is withdrawing restarts once its bridges
read closed. -/
def State.restartNow (s : State) : State :=
  if !s.life.restartDue then s
  else match s.twin.st with
    | .joined | .solo | .comparing => (s.onLife (fun l => { l with restartDue := false })).withdraw 10 false
    | _ => if s.twin.bridging then s else s.beginStart s.time.rateValid

/-- The commits, the accepted commands and what else waits for a boundary. -/
def State.boundaryCommands (s : State) : State :=
  let t := ((s.takeIdentity.commitDue).acceptedDue).applyReset
  if t.gate.rearm then t.rearmPeaks else t

/-- The supply's step, a move of profile (02 R47, R55), ARM (08 R223, R226), lost cells (04 R111), program inputs (13
R337). -/
def State.boundaryWork (s : State) : State := (((s.supplyStep.planExchanged.moveProfile).armBoundary).estLost).ioBoundary

/-- The pair (16 R426, R437), a firmware activation and a restart (18 R466, R467), a configuration still to be stored (19 R483). -/
def State.boundaryLife (s : State) : State :=
  let t := ((s.becomesAlone).joins).activate
  let u := (t.activationRest).restartNow
  if u.setup.storeDue && !u.nvmBarred then u.storeConfig else u

/-- CYCLE_BOUNDARY: the next whole multiple of the base cycle. -/
def execCycleBoundary (s : State) : Result :=
  .next (if s.life.phase = .off then s else (((s.periodic 3 s.baseCycle).boundaryCommands).boundaryWork).boundaryLife)

end Sys2Proof.Machine
end

