-- ==== Sys2Proof/Machine/Disp.lean ====
section
/-! DEFINITION. Commands of dispatch (11). -/
namespace Sys2Proof.Machine

/-! ### Set-points, budgets, refresh (R284, R290, R287): one row per KIND -/

def execCurrentSetpoint (q : Fin 32) (s : State) : Result := .next (s.dispRow q 1)
def execPowerSetpoint (q : Fin 32) (s : State) : Result := .next (s.dispRow q 2)
def execVoltageSetpoint (q : Fin 32) (s : State) : Result := .next (s.dispRow q 3)
def execCurrentBudget (q : Fin 32) (s : State) : Result := .next (s.dispRow q 4)
def execPowerBudget (q : Fin 32) (s : State) : Result := .next (s.dispRow q 5)
def execRefresh (q : Fin 32) (s : State) : Result := .next (s.dispRow q 6)

/-- The smallest of a list of instants. -/
def minN : List Nat → Option Nat
  | [] => none
  | a :: l => some (l.foldl min a)

/-- DISPATCH_AT_REACHED (R284): the first collection deadline at or after the AT of a waiting command. -/
def execDispatchAtReached (s : State) : Result :=
  .next (match minN (s.disp.waiting.map DispWait.due) with
    | none => s
    | some t =>
      let d := s.deadlineFrom (max t s.now)
      (s.advance d).dispDue d)

/-- SETPOINT_EXPIRED (R287, R282). -/
def execSetpointExpired (s : State) : Result :=
  .next (match s.disp.holdTill with
    | none => s
    | some t =>
      let u := (s.advance t).onDisp (fun x => { x with holdTill := none })
      let v := match u.disp.sp with
        | none => u
        | some sp => (u.onDisp (fun x => { x with expired := true })).raise Ev.setpointExpired [sp.kind]
      (v.onDisp (fun x => { x with plantLive := false })).sourceChange u.plantActive)

/-- ENVELOPE_COMPUTE (R292, R293): at whole second W, by AC0 and AC1 of a module in service; out by W + 20 ms, the term from the first
collection deadline after. -/
def execEnvelopeCompute (second : Nat) (s : State) : Result :=
  let t := s.advance (second * 1000000000)
  let e := t.envelope (t.eventAt (second * 1000000000))
  let f := e.bytes t.disp.envSeq
  .next (if !t.computes || t.ac01Reloading then t else ((t.release 1 ⟨3, 72, e.w, f⟩).plantSend 0x11 f).onDisp (fun x => { x with
    envNext := some (second * 1000000000 + 20000000, e), envSeq := x.envSeq + 1 }))

/-- The envelope that has become due at a collection deadline becomes the term. -/
def State.envDue (s : State) (deadline : Nat) : State := match s.disp.envNext with
  | some (t, e) => if t < deadline then s.onDisp (fun x => { x with env := some e, envNext := none }) else s
  | none => s

/-- The state report on CAN FD (15 R398): Table 11.7 padded to 64 bytes, once a configuration is committed. -/
def State.reportCan (s : State) : State := match s.protoPort, s.life.guard_ with
  | some p, false =>
    s.express p 2 (protoIdent 4 5 s.chain.identity) (padTo 64 s.reportBytes)
  | _, _ => s

/-- STATE_REPORT_SEND (R295): at a whole second, or at the cycle boundary after a change of AVAIL or of the stage state; at most
10 in a second. It is a module in service that reports. -/
def execStateReportSend (s : State) : Result :=
  let changed := decide (s.avail ≠ s.disp.avail ∨ stageCode s.gate.stage ≠ s.disp.repStage)
  let sec := atOrAfter s.now 1000000000
  let base := Fld.cycCfg_BASE s.cfg * 250000
  let t := s.advance (if changed then min sec (atOrAfter s.now base) else sec)
  let recent := t.disp.repTimes.filter (fun a => decide (t.now < a + 1000000000))
  .next (if 10 ≤ recent.length ∨ t.computes = false then t
    else
      let f := t.reportBytes
      ((t.release 1 ⟨4, 52, eventOf t.sysNs, f⟩).plantSend 0x10 f).reportCan.onDisp (fun x => { x with
        repSeq := x.repSeq + 1, repTimes := t.now :: recent, avail := t.avail, repStage := stageCode t.gate.stage }))

end Sys2Proof.Machine
end

