-- ==== Sys2Proof/Machine/Fabric.lean ====
section
/-! DEFINITION. Commands of the self-timed fabric (02): canary rounds, plans, the slack history, engine faults and reloads, codes on
arithmetic and memory. -/
namespace Sys2Proof.Machine

/-! ### Deadlines (Table 2.1) -/

/-- The deadline of an engine's periodic work, ns. -/
def State.deadline (s : State) (e : Nat) : Nat :=
  let sweep := s.fabric.sweepUs * 1000
  if e < 4 then 1000000
  else if e < 12 then s.period (e - 4)
  else if e < 14 then 250000 / s.fsw
  else if e = 15 then 10000000
  else if e < 20 then sweep
  else if e < 22 then min 500000 sweep
  else 100000000

/-! ### Canary rounds (R43 to R45) -/

/-- The temperature coefficient of a canary, 0.01 %/K: fitted from 90 days of readings, within 0.05 to 0.15 %/K. -/
def State.canaryCoef (s : State) (e : Nat) : Nat :=
  if s.fabric.readDays < 90 then 9
  else clampN 5 15 (Sys2Proof.Config.canaryCoef (s.free + e) (s.fabric.engines.getD e Engine.reset).laps)

/-- Corrected slack in 0.01 %: the slack at 110 °C. A compared pair reports one value, of its longest work. -/
def State.correctedSlack (s : State) (worst : List Nat) (e : Nat) : Int :=
  let w := if e < 4 then max (worst.getD (pairOf e) 0) (worst.getD (pairOf e + 1) 0) else worst.getD e 0
  let k := (s.canaryCoef (pairOf e) : Int)
  10000 - Sys2Proof.Config.quot (w * (100000 + k * (1100 - s.therm.die.temp))) (10 * s.deadline e : Nat)

/-- An engine's record after a round. -/
def Engine.round (x : Engine) (slack : Int) (trigger : Nat) : Engine :=
  { x with slack := slack, low := if slack < 100 * trigger then x.low + 1 else 0, worst := min x.worst slack }

/-- MARGIN_STAT.WORST_SLACK, whole percent (R43). DESIGN CHOICE: 0 where the worst is negative (log 23). -/
def worstPercent (l : List Engine) : Nat :=
  (clampI 0 255 ((l.foldl (fun (m : Int) e => min m e.slack) 10000) / 100)).toNat

/-- The canaries are timed over 64 laps, each lap sum at a resolution of 4 ns. -/
def State.timeCanaries (s : State) (laps : List Nat) : State :=
  s.onFabric (fun f => { f with engines := mapIdxL (fun e (x : Engine) => { x with laps := laps.getD e 0 / 4 * 4 }) f.engines })

/-- One round: the slack of every engine, and the worst of the day. -/
def State.canaryRound (s : State) (worst : List Nat) : State :=
  let es := mapIdxL (fun e (x : Engine) => x.round (s.correctedSlack worst e) (Fld.marginCfg_TRIGGER s.cfg)) s.fabric.engines
  { s with free := s.free + 23 }.onFabric (fun f => { f with
    engines := es, worstSlack := worstPercent es, tdieMax := max f.tdieMax s.therm.die.temp
    profileDay := modAt f.profileDay f.profile (· + 1) })

/-- A re-plan where one engine has been below the trigger in two consecutive rounds. -/
def execCanaryRound (c : CanaryRound) (s : State) : Result :=
  let t := ((s.periodic 5 100000000).timeCanaries c.laps).canaryRound c.worst
  .next (if t.fabric.engines.any (fun x => decide (2 ≤ x.low)) then t.replan 2 else t)

/-- 30 days after the last monthly plan; the first one 30 days after the first plan. -/
def execReplanMonthly (s : State) : Result := .next ((s.advance (s.fabric.planAt.getD s.now + 30 * day)).replan 1)

/-- The profile active at most of the day (R44). DESIGN CHOICE: Heather on a tie (log 22). -/
def mostOf (l : List Nat) : Nat :=
  if l.getD 1 0 < l.getD 0 0 ∧ l.getD 2 0 < l.getD 0 0 then 0 else if l.getD 1 0 < l.getD 2 0 then 2 else 1

/-- The day's record (Table 2.3). DESIGN CHOICE: a negative slack is recorded as 0 (log 21). -/
def State.slackRecord (s : State) : SlackRec where
  time := eventOf s.sysNs
  slack := s.fabric.engines.map (fun e => clampI 0 65535 e.worst)
  vcoreH := s.fabric.plan.heather
  profile := mostOf s.fabric.profileDay
  tdieMax := s.fabric.tdieMax

/-- Once a day; the oldest of 16,384 records is overwritten. While MRAM writes are barred (10 R278) the record waits. -/
def execSlackHistoryWrite (s : State) : Result :=
  let s := s.periodic 6 day
  .next ((s.onFabric (fun f => { f with
    historyWaits := f.historyWaits ++ [s.slackRecord], readDays := f.readDays + 1
    engines := f.engines.map (fun e => { e with worst := e.slack })
    tdieMax := s.therm.die.temp
    profileDay := [0, 0, 0] })).writeHistory)

/-! ### Engine faults (R41, R42, R57, R60) -/

def execDeadlineMiss (e : Fin 23) (completion : Nat) (s : State) : Result :=
  .next ((s.raise Ev.deadlineMiss [e.val, s.deadline e.val, min completion 0xFFFFFFFF]).engineFault e.val 3)

def execComparedPairDisagree (ledgerPair : Bool) (s : State) : Result := .next (s.engineFault (2 * bit ledgerPair) 2)

/-- A retry that succeeds is counted; a mismatch on the retry is a fault. -/
def execResidueMismatch (e : Fin 23) (again : Bool) (s : State) : Result :=
  .next (if again then s.engineFault e.val 1 else s.onEngine e.val (fun x => { x with retries := satAdd x.retries 1 0xFFFFFFFF }))

def execResidueRetryReport (s : State) : Result :=
  let s := s.periodic 7 60000000000
  let t := (List.range 23).foldl (fun u e =>
    if (s.engine e).retries = 0 then u else u.raise Ev.residueRetry [e, (s.engine e).retries]) s
  .next (t.onFabric (fun f => { f with engines := f.engines.map (fun x => { x with retries := 0 }) }))

def execEngineReloadDone (e : Fin 23) (s : State) : Result := .next (s.reloaded (pairOf e.val))

/-! ### Memories (R58) -/

def execScrubPass (array : Fin 3) (corrected : Nat) (s : State) : Result :=
  .next (s.onFabric (fun f => { f with corrected := modAt f.corrected array.val (fun n => satAdd n corrected 0xFFFFFFFF) }))

def execEccCorrectedReport (s : State) : Result :=
  let s := s.periodic 8 hourNs
  let t := (List.range 3).foldl (fun u a =>
    if s.fabric.corrected.getD a 0 = 0 then u else u.raise Ev.eccCorrected [a, s.fabric.corrected.getD a 0]) s
  .next (t.onFabric (fun f => { f with corrected := [0, 0, 0] }))

/-- A record of the event recorder whose line is lost reads as its substitute (17 R446). -/
def Rec.damaged (r : Rec) (slot : Nat) : Rec :=
  { r with event := ⟨0, Ev.recordDamaged.code, Ev.recordDamaged.sev, [slot]⟩, solo := false, late := false }

/-- What a lost MRAM line means to its region: the older ledger image serves (07 R198), a substitute record (17 R446), the configuration
region fails its check at the next start (18 R457), a saved state is not there (06 R155, 13 R354), a last-fault slot is empty, a slack
record is gone, a bank's image fails its check (13 R358). -/
def State.loseLine (s : State) (region item : Nat) : State := match region with
  | 0 => s.onLedger (fun l => { l with images := l.images.set item none })
  | 1 => { s with rec_ := { s.rec_ with slots := modAt s.rec_.slots item (fun r => r.damaged item) } }
  | 2 => s.onSetup (fun x => { x with stored := [], storedBlk := [] })
  | 3 => if item = 0 then s.onEst (fun e => { e with saved := none }) else s.onEng (item - 1) (fun x => { x with savedM := none })
  | 4 => s.onGate (fun g => { g with slots := g.slots.set item none, newBits := g.newBits.set item false })
  | 5 => s.onFabric (fun f => { f with history := f.history.eraseIdx item })
  | 6 => s.onProg (fun p => { p with banks := modAt p.banks item (fun b => { b with st := if b.st = 0 then 0 else 6 }) })
  | _ => s

def execEccUncorrectable (w : BadWord) (s : State) : Result :=
  .next (match w with
    | .sram (some e) _ => s.engineFault e.val 4
    | .sram none addr => s.raise Ev.eccUncorrectable [0, addr]
    | .working p => s.engineFault (2 * bit p) 4
    | .mram region addr item => (s.raise Ev.nvmUncorrectable [region.val, addr]).loseLine region.val item)

end Sys2Proof.Machine
end

