-- ==== Sys2Proof/Machine/Sweep.lean ====
section
/-! DEFINITION. The work of a sweep at its collection deadline (04 R95), in the order of the engines that follow one another. -/
namespace Sys2Proof.Machine

/-- An engine works: it is not reloading after a fault (02 Table 2.11). -/
def State.works (s : State) (e : Nat) : Bool := !(s.engine e).reloading && !(s.engine e).failed

/-- Measurement and balancing, from the data of the sweep (05). -/
def State.sweepMeas (s : State) (w : Sweep) : State := (s.measSweep w).balSweep w

/-- The ledger books the sweep and the cell equation is checked (07 R185, R183); while AC2/AC3 reload the sweep is kept (02 Table
2.11). -/
def State.sweepLedger (s : State) (w : Sweep) : State :=
  if s.ac23Reloading then
    ((s.promiseIs s.promiseNow).onLedger (fun l => { l with buffer := (w :: l.buffer).take 8192 })).onEst (fun e => { e with dqNow := none })
  else s.ledgerChecked w

/-- The estimators and the impedance run (06). -/
def State.sweepEst (s : State) (w : Sweep) : State := (s.estSweep w).impSweep w

/-- Dispatch commands that are due, and the envelope (11 R284, R293), by AC0/AC1. -/
def State.sweepDispatch (s : State) : State :=
  if s.works 0 then (s.dispDue s.now).envDue s.now else s

/-- The limits and LE2's demand (11 R288, 09 R231). -/
def State.sweepDemand (s : State) (w : Sweep) : State :=
  let t := s.formLimits
  if t.works 14 then t.demandSweep w else t

/-- The safety engines (12 R297) and the end of a test pulse. -/
def State.sweepSafety (s : State) (w : Sweep) : State := (s.safetySweep w).endTests

/-- The late results that this deadline uses; in the pair those received less than 12 µs ago wait (16 Table 16.3). -/
def State.splitLate (s : State) : State × List Late :=
  (s.onRing (fun r => { r with late := r.late.filter (fun l => decide (l.from_ ≤ s.now)) }), s.ring.late.filter (fun l => decide (s.now < l.from_)))

/-- COLLECTION_DEADLINE: 240 µs after the grid instant of the sweep that is being collected. -/
def execCollectionDeadline (s : State) : Result :=
  .next (match s.ring.cur with
    | some w =>
      let (t0, waiting) := (((s.advance (w.at_ + 240000)).absentCheck w).collectRing w).splitLate
      let t := t0.sweepMeas w
      let u := ((t.sweepLedger w).sweepEst w).sweepDispatch
      let v := ((u.sweepDemand w).telemSweep).sweepSafety w
      v.onRing (fun r => { r with late := waiting })
    | none => s)

end Sys2Proof.Machine
end

