-- ==== Sys2Proof/Machine/Dispatch.lean ====
section
/-! DEFINITION. One arm per command: a direct call of its meaning. -/
namespace Sys2Proof.Machine

/-- The effect of a command on everything but the queue. -/
def exec (i : Instr) (s : State) : Host.Outcome State Fault Refusal :=
  match i with
  | .aciAddressFrame a => Sys2Proof.Machine.execAciAddressFrame a s
  | .acoSend => Sys2Proof.Machine.execAcoSend s
  | .aciLost => Sys2Proof.Machine.execAciLost s
  | .address q => Sys2Proof.Machine.execAddress q s
  | .canaryRound c => Sys2Proof.Machine.execCanaryRound c s
  | .replanMonthly => Sys2Proof.Machine.execReplanMonthly s
  | .slackHistoryWrite => Sys2Proof.Machine.execSlackHistoryWrite s
  | .deadlineMiss e completion => Sys2Proof.Machine.execDeadlineMiss e completion s
  | .comparedPairDisagree ledgerPair => Sys2Proof.Machine.execComparedPairDisagree ledgerPair s
  | .residueMismatch e again => Sys2Proof.Machine.execResidueMismatch e again s
  | .residueRetryReport => Sys2Proof.Machine.execResidueRetryReport s
  | .scrubPass array corrected => Sys2Proof.Machine.execScrubPass array corrected s
  | .eccUncorrectable w => Sys2Proof.Machine.execEccUncorrectable w s
  | .eccCorrectedReport => Sys2Proof.Machine.execEccCorrectedReport s
  | .engineReloadDone e => Sys2Proof.Machine.execEngineReloadDone e s
  | .profileCommitExpired => Sys2Proof.Machine.execProfileCommitExpired s
  | .oscFail => Sys2Proof.Machine.execOscFail s
  | .oscBackupSwitch => Sys2Proof.Machine.execOscBackupSwitch s
  | .ptpSync ep domain seq twoStep ingress origin correction => Sys2Proof.Machine.execPtpSync ep domain seq twoStep ingress origin correction s
  | .ptpFollowUp ep domain seq origin correction => Sys2Proof.Machine.execPtpFollowUp ep domain seq origin correction s
  | .ptpAnnounce ep domain selected other utc leap61 leap59 utcValid => Sys2Proof.Machine.execPtpAnnounce ep domain selected other utc leap61 leap59 utcValid s
  | .ptpDelayReqSend ep => Sys2Proof.Machine.execPtpDelayReqSend ep s
  | .ptpDelayResp ep seq t1 t2 t3 t4 => Sys2Proof.Machine.execPtpDelayResp ep seq t1 t2 t3 t4 s
  | .ptpPdelayReq ep domain seq ingress => Sys2Proof.Machine.execPtpPdelayReq ep domain seq ingress s
  | .announceTimeout => Sys2Proof.Machine.execAnnounceTimeout s
  | .ptpPortSwitch => Sys2Proof.Machine.execPtpPortSwitch s
  | .ptpPortSwitchBack => Sys2Proof.Machine.execPtpPortSwitchBack s
  | .startWaitExpiry => Sys2Proof.Machine.execStartWaitExpiry s
  | .timeStep q => Sys2Proof.Machine.execTimeStep q s
  | .timeResume q => Sys2Proof.Machine.execTimeResume q s
  | .timeSet q => Sys2Proof.Machine.execTimeSet q s
  | .timeCmdExpired => Sys2Proof.Machine.execTimeCmdExpired s
  | .timeStatus q => Sys2Proof.Machine.execTimeStatus q s
  | .pairTimeMessage link diff stepOffset lead cfgSame => Sys2Proof.Machine.execPairTimeMessage link diff stepOffset lead cfgSame s
  | .pairTimeSend link => Sys2Proof.Machine.execPairTimeSend link s
  | .evtNowLoRead => Sys2Proof.Machine.execEvtNowLoRead s
  | .ledgerLseqLoRead => Sys2Proof.Machine.execLedgerLseqLoRead s
  | .cfgCtimeLoRead => Sys2Proof.Machine.execCfgCtimeLoRead s
  | .ringStatRead r => Sys2Proof.Machine.execRingStatRead r s
  | .ethStatRead n => Sys2Proof.Machine.execEthStatRead n s
  | .canStatRead n => Sys2Proof.Machine.execCanStatRead n s
  | .sbStatRead n => Sys2Proof.Machine.execSbStatRead n s
  | .cfgPendRead => Sys2Proof.Machine.execCfgPendRead s
  | .gridInstant fgi dio => Sys2Proof.Machine.execGridInstant fgi dio s
  | .returnTimeout r => Sys2Proof.Machine.execReturnTimeout r s
  | .ringFrameReceived r e bytes cut => Sys2Proof.Machine.execRingFrameReceived r e bytes cut s
  | .collectionDeadline => Sys2Proof.Machine.execCollectionDeadline s
  | .catchupLaunch r e => Sys2Proof.Machine.execCatchupLaunch r e s
  | .lossOfSignal r e => Sys2Proof.Machine.execLossOfSignal r e s
  | .lossOfSignalCleared r e => Sys2Proof.Machine.execLossOfSignalCleared r e s
  | .ringPresenceTimeout => Sys2Proof.Machine.execRingPresenceTimeout s
  | .ringRestore r => Sys2Proof.Machine.execRingRestore r s
  | .ringStart r => Sys2Proof.Machine.execRingStart r s
  | .discoverReceived r from_ whole recs => Sys2Proof.Machine.execDiscoverReceived r from_ whole recs s
  | .ringStartDone r => Sys2Proof.Machine.execRingStartDone r s
  | .stationFwLoadDone gate n version => Sys2Proof.Machine.execStationFwLoadDone gate n version s
  | .stationFwSlotChange k => Sys2Proof.Machine.execStationFwSlotChange k s
  | .delayMeasure k => Sys2Proof.Machine.execDelayMeasure k s
  | .delayReceived k roundTrip total outward => Sys2Proof.Machine.execDelayReceived k roundTrip total outward s
  | .ringCmdCountCheck second => Sys2Proof.Machine.execRingCmdCountCheck second s
  | .stationLost k => Sys2Proof.Machine.execStationLost k s
  | .stationSecLost k => Sys2Proof.Machine.execStationSecLost k s
  | .stationReturned k => Sys2Proof.Machine.execStationReturned k s
  | .stationSecReturned k => Sys2Proof.Machine.execStationSecReturned k s
  | .identificationMessage k startCount serial => Sys2Proof.Machine.execIdentificationMessage k startCount serial s
  | .lockinResultMessage k => Sys2Proof.Machine.execLockinResultMessage k s
  | .openWireResultMessage k => Sys2Proof.Machine.execOpenWireResultMessage k s
  | .balancingCountersMessage k => Sys2Proof.Machine.execBalancingCountersMessage k s
  | .calibrationRecordMessage k diff => Sys2Proof.Machine.execCalibrationRecordMessage k diff s
  | .stationEventMessage k => Sys2Proof.Machine.execStationEventMessage k s
  | .calStepIssue k => Sys2Proof.Machine.execCalStepIssue k s
  | .currentCompare second => Sys2Proof.Machine.execCurrentCompare second s
  | .currentJudgementEnd => Sys2Proof.Machine.execCurrentJudgementEnd s
  | .sumMismatch k chain => Sys2Proof.Machine.execSumMismatch k chain s
  | .measCompare second => Sys2Proof.Machine.execMeasCompare second s
  | .unusedChannel k c => Sys2Proof.Machine.execUnusedChannel k c s
  | .owRound k => Sys2Proof.Machine.execOwRound k s
  | .owOddStart k => Sys2Proof.Machine.execOwOddStart k s
  | .owRetest k t => Sys2Proof.Machine.execOwRetest k t s
  | .owSuspicionTest k t => Sys2Proof.Machine.execOwSuspicionTest k t s
  | .balDecision second => Sys2Proof.Machine.execBalDecision second s
  | .balChargeUpdate => Sys2Proof.Machine.execBalChargeUpdate s
  | .balChannelTimeout c => Sys2Proof.Machine.execBalChannelTimeout c s
  | .estimateRelease => Sys2Proof.Machine.execEstimateRelease s
  | .estimatorCheckpoint second => Sys2Proof.Machine.execEstimatorCheckpoint second s
  | .estBlockSend => Sys2Proof.Machine.execEstBlockSend s
  | .impRunStart requested => Sys2Proof.Machine.execImpRunStart requested s
  | .impRun q => Sys2Proof.Machine.execImpRun q s
  | .impSegmentStart => Sys2Proof.Machine.execImpSegmentStart s
  | .impHeadroomRetest => Sys2Proof.Machine.execImpHeadroomRetest s
  | .impWindowEnd => Sys2Proof.Machine.execImpWindowEnd s
  | .spectrumSend => Sys2Proof.Machine.execSpectrumSend s
  | .ledgerSecond => Sys2Proof.Machine.execLedgerSecond s
  | .ledgerImageWritten => Sys2Proof.Machine.execLedgerImageWritten s
  | .supplyLoss image copies header written => Sys2Proof.Machine.execSupplyLoss image copies header written s
  | .ledgerGapBooking => Sys2Proof.Machine.execLedgerGapBooking s
  | .ledgerNote q => Sys2Proof.Machine.execLedgerNote q s
  | .ledgerReplay q => Sys2Proof.Machine.execLedgerReplay q s
  | .basePeriod => Sys2Proof.Machine.execBasePeriod s
  | .loadStepCheck => Sys2Proof.Machine.execLoadStepCheck s
  | .edgeRelease p => Sys2Proof.Machine.execEdgeRelease p s
  | .gateStatusReceived l bytes flight => Sys2Proof.Machine.execGateStatusReceived l bytes flight s
  | .linkLoss l => Sys2Proof.Machine.execLinkLoss l s
  | .statusCutoff p => Sys2Proof.Machine.execStatusCutoff p s
  | .receiverIdent l x seen1 seen2 => Sys2Proof.Machine.execReceiverIdent l x seen1 seen2 s
  | .linkStart => Sys2Proof.Machine.execLinkStart s
  | .gateDelayUpdate second => Sys2Proof.Machine.execGateDelayUpdate second s
  | .stageEnable q => Sys2Proof.Machine.execStageEnable q s
  | .stageDisable q => Sys2Proof.Machine.execStageDisable q s
  | .stageTripCommand q => Sys2Proof.Machine.execStageTripCommand q s
  | .stageTripReset q => Sys2Proof.Machine.execStageTripReset q s
  | .startDelayEnd => Sys2Proof.Machine.execStartDelayEnd s
  | .stopDelayEnd => Sys2Proof.Machine.execStopDelayEnd s
  | .stopRampEnd => Sys2Proof.Machine.execStopRampEnd s
  | .stageStopForced => Sys2Proof.Machine.execStageStopForced s
  | .armTimeout => Sys2Proof.Machine.execArmTimeout s
  | .telemWindowEnd => Sys2Proof.Machine.execTelemWindowEnd s
  | .peakRead q => Sys2Proof.Machine.execPeakRead q s
  | .faultCaptureDone => Sys2Proof.Machine.execFaultCaptureDone s
  | .faultRecordWritten => Sys2Proof.Machine.execFaultRecordWritten s
  | .faultRead q => Sys2Proof.Machine.execFaultRead q s
  | .targetRelease => Sys2Proof.Machine.execTargetRelease s
  | .shedStart => Sys2Proof.Machine.execShedStart s
  | .shedDwellEnd => Sys2Proof.Machine.execShedDwellEnd s
  | .diagArm q => Sys2Proof.Machine.execDiagArm q s
  | .diagStart q => Sys2Proof.Machine.execDiagStart q s
  | .diagAbort q => Sys2Proof.Machine.execDiagAbort q s
  | .diagTrigger e => Sys2Proof.Machine.execDiagTrigger e s
  | .diagCaptureDone e => Sys2Proof.Machine.execDiagCaptureDone e s
  | .diagExpired => Sys2Proof.Machine.execDiagExpired s
  | .thermalRound pins tach => Sys2Proof.Machine.execThermalRound pins tach s
  | .thermalAck q => Sys2Proof.Machine.execThermalAck q s
  | .thermalAckExpired => Sys2Proof.Machine.execThermalAckExpired s
  | .dieSample r0 r1 r2 r3 => Sys2Proof.Machine.execDieSample r0 r1 r2 r3 s
  | .dieWriteWindowEnd => Sys2Proof.Machine.execDieWriteWindowEnd s
  | .dieCoolRestart => Sys2Proof.Machine.execDieCoolRestart s
  | .currentSetpoint q => Sys2Proof.Machine.execCurrentSetpoint q s
  | .powerSetpoint q => Sys2Proof.Machine.execPowerSetpoint q s
  | .voltageSetpoint q => Sys2Proof.Machine.execVoltageSetpoint q s
  | .currentBudget q => Sys2Proof.Machine.execCurrentBudget q s
  | .powerBudget q => Sys2Proof.Machine.execPowerBudget q s
  | .refresh q => Sys2Proof.Machine.execRefresh q s
  | .dispatchAtReached => Sys2Proof.Machine.execDispatchAtReached s
  | .setpointExpired => Sys2Proof.Machine.execSetpointExpired s
  | .envelopeCompute second => Sys2Proof.Machine.execEnvelopeCompute second s
  | .stateReportSend => Sys2Proof.Machine.execStateReportSend s
  | .safetyTick a b on coil => Sys2Proof.Machine.execSafetyTick a b on coil s
  | .safetyCrossLink toB => Sys2Proof.Machine.execSafetyCrossLink toB s
  | .switchWatchdogExpiry w => Sys2Proof.Machine.execSwitchWatchdogExpiry w s
  | .fastOcTrip charge => Sys2Proof.Machine.execFastOcTrip charge s
  | .soTestPulse o low readOff => Sys2Proof.Machine.execSoTestPulse o low readOff s
  | .coilSupplyLow coil => Sys2Proof.Machine.execCoilSupplyLow coil s
  | .contactorFeedbackTimeout pre => Sys2Proof.Machine.execContactorFeedbackTimeout pre s
  | .contactorClose q => Sys2Proof.Machine.execContactorClose q s
  | .contactorOpen q => Sys2Proof.Machine.execContactorOpen q s
  | .prechargeEnd => Sys2Proof.Machine.execPrechargeEnd s
  | .prechargeRelease => Sys2Proof.Machine.execPrechargeRelease s
  | .safetyReset q => Sys2Proof.Machine.execSafetyReset q s
  | .resetInput n => Sys2Proof.Machine.execResetInput n s
  | .safeResetExpired => Sys2Proof.Machine.execSafeResetExpired s
  | .safetyFrameSend => Sys2Proof.Machine.execSafetyFrameSend s
  | .safetyFrameReceived can bytes => Sys2Proof.Machine.execSafetyFrameReceived can bytes s
  | .safetyFrameWatchdog n => Sys2Proof.Machine.execSafetyFrameWatchdog n s
  | .safetyCfgExpired => Sys2Proof.Machine.execSafetyCfgExpired s
  | .cycleBoundary => Sys2Proof.Machine.execCycleBoundary s
  | .cycleStart e => Sys2Proof.Machine.execCycleStart e s
  | .cycleRelease e done => Sys2Proof.Machine.execCycleRelease e done s
  | .eventTaskTrigger e n => Sys2Proof.Machine.execEventTaskTrigger e n s
  | .eventTaskRelease e n => Sys2Proof.Machine.execEventTaskRelease e n s
  | .savedCopyWrite second => Sys2Proof.Machine.execSavedCopyWrite second s
  | .breakpointHit e => Sys2Proof.Machine.execBreakpointHit e s
  | .holdExpired e => Sys2Proof.Machine.execHoldExpired e s
  | .programSwitch q => Sys2Proof.Machine.execProgramSwitch q s
  | .programRollback q => Sys2Proof.Machine.execProgramRollback q s
  | .switchBoundary => Sys2Proof.Machine.execSwitchBoundary s
  | .programRun q => Sys2Proof.Machine.execProgramRun q s
  | .programStop q => Sys2Proof.Machine.execProgramStop q s
  | .programHold q => Sys2Proof.Machine.execProgramHold q s
  | .programStep q => Sys2Proof.Machine.execProgramStep q s
  | .programResume q => Sys2Proof.Machine.execProgramResume q s
  | .forceSet q => Sys2Proof.Machine.execForceSet q s
  | .forceClear q => Sys2Proof.Machine.execForceClear q s
  | .programRead q => Sys2Proof.Machine.execProgramRead q s
  | .hostWrite q => Sys2Proof.Machine.execHostWrite q s
  | .programCmdExpired => Sys2Proof.Machine.execProgramCmdExpired s
  | .programLoadChunk q => Sys2Proof.Machine.execProgramLoadChunk q s
  | .sqTail q value width descs => Sys2Proof.Machine.execSqTail q value width descs s
  | .cqHead q value width => Sys2Proof.Machine.execCqHead q value width s
  | .streamBufferPost q => Sys2Proof.Machine.execStreamBufferPost q s
  | .streamFlushTimeout q => Sys2Proof.Machine.execStreamFlushTimeout q s
  | .hostLinkDown => Sys2Proof.Machine.execHostLinkDown s
  | .hostLinkUp => Sys2Proof.Machine.execHostLinkUp s
  | .functionLevelReset => Sys2Proof.Machine.execFunctionLevelReset s
  | .creditCheck second => Sys2Proof.Machine.execCreditCheck second s
  | .irqGapEnd q => Sys2Proof.Machine.execIrqGapEnd q s
  | .cmdExpired => Sys2Proof.Machine.execCmdExpired s
  | .cfgBlockWrite q => Sys2Proof.Machine.execCfgBlockWrite q s
  | .cfgBlockRead q => Sys2Proof.Machine.execCfgBlockRead q s
  | .slackRead q => Sys2Proof.Machine.execSlackRead q s
  | .arpRequest ep target => Sys2Proof.Machine.execArpRequest ep target s
  | .icmpEchoRequest ep target ident seq data => Sys2Proof.Machine.execIcmpEchoRequest ep target ident seq data s
  | .plantMessage ep udp src rct bytes => Sys2Proof.Machine.execPlantMessage ep udp src rct bytes s
  | .prpSupervisionSend => Sys2Proof.Machine.execPrpSupervisionSend s
  | .prpLanDown lan => Sys2Proof.Machine.execPrpLanDown lan s
  | .prpLanUp lan => Sys2Proof.Machine.execPrpLanUp lan s
  | .canFrameReceived p ext ident sof data => Sys2Proof.Machine.execCanFrameReceived p ext ident sof data s
  | .canObjectTimeout p o => Sys2Proof.Machine.execCanObjectTimeout p o s
  | .canPeriodicQueue p o => Sys2Proof.Machine.execCanPeriodicQueue p o s
  | .canAnnounce p => Sys2Proof.Machine.execCanAnnounce p s
  | .canTxAttemptEnd p began err dominant => Sys2Proof.Machine.execCanTxAttemptEnd p began err dominant s
  | .canRecovered p => Sys2Proof.Machine.execCanRecovered p s
  | .modbusPoll p => Sys2Proof.Machine.execModbusPoll p s
  | .modbusReply p bytes whole => Sys2Proof.Machine.execModbusReply p bytes whole s
  | .modbusTimeout p => Sys2Proof.Machine.execModbusTimeout p s
  | .pairSlotsFrame h r e late first count grid receipt bytes => Sys2Proof.Machine.execPairSlotsFrame h r e late first count grid receipt bytes s
  | .pairStatusFrame h l receipt bytes => Sys2Proof.Machine.execPairStatusFrame h l receipt bytes s
  | .pairInputsFrame h items => Sys2Proof.Machine.execPairInputsFrame h items s
  | .pairCommandFrame h c source accepted => Sys2Proof.Machine.execPairCommandFrame h c source accepted s
  | .pairSafetyFrame h bytes => Sys2Proof.Machine.execPairSafetyFrame h bytes s
  | .stateDigest second => Sys2Proof.Machine.execStateDigest second s
  | .pairDigestFrame h second digest permitted ceiling unitCost => Sys2Proof.Machine.execPairDigestFrame h second digest permitted ceiling unitCost s
  | .noticeWithdrawing h cause => Sys2Proof.Machine.execNoticeWithdrawing h cause s
  | .noticeRestarting h cause => Sys2Proof.Machine.execNoticeRestarting h cause s
  | .noticeReady h reentry => Sys2Proof.Machine.execNoticeReady h reentry s
  | .noticeEcho h reentry => Sys2Proof.Machine.execNoticeEcho h reentry s
  | .noticeRetired h cause => Sys2Proof.Machine.execNoticeRetired h cause s
  | .pairCatchupFrame h item offset data last => Sys2Proof.Machine.execPairCatchupFrame h item offset data last s
  | .pairHeartFrame h => Sys2Proof.Machine.execPairHeartFrame h s
  | .pairLinkTimeout link => Sys2Proof.Machine.execPairLinkTimeout link s
  | .loopBridgeClosed => Sys2Proof.Machine.execLoopBridgeClosed s
  | .catchupSnapshot => Sys2Proof.Machine.execCatchupSnapshot s
  | .replayDone => Sys2Proof.Machine.execReplayDone s
  | .reentry => Sys2Proof.Machine.execReentry s
  | .reentryEchoTimeout => Sys2Proof.Machine.execReentryEchoTimeout s
  | .catchupTimeout => Sys2Proof.Machine.execCatchupTimeout s
  | .catchupProgressSend => Sys2Proof.Machine.execCatchupProgressSend s
  | .partnerWaitTimeout => Sys2Proof.Machine.execPartnerWaitTimeout s
  | .pathsLost => Sys2Proof.Machine.execPathsLost s
  | .pathRecovered offset => Sys2Proof.Machine.execPathRecovered offset s
  | .portSelftest kind port ok => Sys2Proof.Machine.execPortSelftest kind port ok s
  | .commitExpired => Sys2Proof.Machine.execCommitExpired s
  | .recorderWrite => Sys2Proof.Machine.execRecorderWrite s
  | .recorderResume => Sys2Proof.Machine.execRecorderResume s
  | .recorderCountCheck second => Sys2Proof.Machine.execRecorderCountCheck second s
  | .clearRegisterPointer second => Sys2Proof.Machine.execClearRegisterPointer second s
  | .freezeTimeout svc => Sys2Proof.Machine.execFreezeTimeout svc s
  | .recorderRead q => Sys2Proof.Machine.execRecorderRead q s
  | .recorderFreeze q => Sys2Proof.Machine.execRecorderFreeze q s
  | .recorderThaw q => Sys2Proof.Machine.execRecorderThaw q s
  | .recorderClear q => Sys2Proof.Machine.execRecorderClear q s
  | .clearReg q => Sys2Proof.Machine.execClearReg q s
  | .codes q => Sys2Proof.Machine.execCodes q s
  | .powerUp oscOk => Sys2Proof.Machine.execPowerUp oscOk s
  | .imageChecked version image => Sys2Proof.Machine.execImageChecked version image s
  | .pairWatchEnd named => Sys2Proof.Machine.execPairWatchEnd named s
  | .enterService => Sys2Proof.Machine.execEnterService s
  | .cycleRestartChoice => Sys2Proof.Machine.execCycleRestartChoice s
  | .supplyHigh tenths again => Sys2Proof.Machine.execSupplyHigh tenths again s
  | .supplyOvervoltage image copies header written => Sys2Proof.Machine.execSupplyOvervoltage image copies header written s
  | .supplyReconnect => Sys2Proof.Machine.execSupplyReconnect s
  | .firmwareLoadChunk q sig => Sys2Proof.Machine.execFirmwareLoadChunk q sig s
  | .install q => Sys2Proof.Machine.execInstall q s
  | .installDone => Sys2Proof.Machine.execInstallDone s
  | .activate q => Sys2Proof.Machine.execActivate q s
  | .restart q => Sys2Proof.Machine.execRestart q s
  | .keys q => Sys2Proof.Machine.execKeys q s
  | .probationEnd => Sys2Proof.Machine.execProbationEnd s
  | .romRecovery cause => Sys2Proof.Machine.execRomRecovery cause s
  | .svcMessage first tag check body sig => Sys2Proof.Machine.execSvcMessage first tag check body sig s
  | .cfgCommitGo discard irq vector tag => Sys2Proof.Machine.execCfgCommitGo discard irq vector tag s
  | .cfgCommitDiscard => Sys2Proof.Machine.execCfgCommitDiscard s
  | .commitApply => Sys2Proof.Machine.execCommitApply s
  | .stagedRegisterWrite offset value width => Sys2Proof.Machine.execStagedRegisterWrite offset value width s
  | .exposureNotice => Sys2Proof.Machine.execExposureNotice s
  | .exposureExceeded => Sys2Proof.Machine.execExposureExceeded s
  | .exposureClosed => Sys2Proof.Machine.execExposureClosed s
  | .wardenWatchdogExpiry => Sys2Proof.Machine.execWardenWatchdogExpiry s
  | .holdupMeasured tenths => Sys2Proof.Machine.execHoldupMeasured tenths s
  | .configFrameReceived r e p kind good => Sys2Proof.Machine.execConfigFrameReceived r e p kind good s
  | .activationImageChecked image => Sys2Proof.Machine.execActivationImageChecked image s
  | .activationReloadDone => Sys2Proof.Machine.execActivationReloadDone s
  | .ethLinkChange ep up gig => Sys2Proof.Machine.execEthLinkChange ep up gig s
  | .prpSupervisionReceived lan mac => Sys2Proof.Machine.execPrpSupervisionReceived lan mac s
  | .prpNodeAgedOut => Sys2Proof.Machine.execPrpNodeAgedOut s
  | .modbusRequestHeard p => Sys2Proof.Machine.execModbusRequestHeard p s

end Sys2Proof.Machine
end

