-- ==== Sys2Proof/Machine/Views.lean ====
section
/-! DEFINITION. Reads of BAR0 (19 R478): the words of the read-only registers as the state gives them, and what a read of an offset
answers. The reads that clear or latch something are commands of their own. -/
namespace Sys2Proof.Machine

/-- Fields of given widths, the lowest bit first. -/
def packFields : List (Nat × Nat) → Nat
  | [] => 0
  | (w, v) :: l => v % 2 ^ w + 2 ^ w * packFields l

def packWord (l : List (Nat × Nat)) : Word := BitVec.ofNat 32 (packFields l)

/-! ### 18, 19: the module -/

/-- DEV_ID (Table 19.2). -/
def State.devId (s : State) : Word := packWord [(16, 0x5120), (1, bit s.life.grade), (7, 0), (8, s.life.board.toNat)]

/-- ADDR_STAT (Table 19.4). -/
def State.addrStat (s : State) : Word :=
  let c := s.chain
  packWord [(6, c.addr), (1, bit c.stale), (1, bit c.aciLost), (1, bit c.head), (1, bit c.full), (1, bit c.assigned), (5, 0), (7, c.aciValue)]

/-- MOD_STAT.MODE: a twin that is out of service reads 3, a retired one 5. -/
def State.modMode (s : State) : Nat :=
  if s.life.phase = .recovery then 4
  else match s.twin.st with
    | .retired => 5
    | .withdrawn | .catching => 3
    | _ => if s.life.phase ≠ .service then 0 else if s.life.guard_ then 1 else 2

/-- MOD_STAT (Table 19.5). -/
def State.modStat (s : State) : Word :=
  packWord [(3, s.modMode), (1, bit s.isPair), (1, bit ((s.siteEntry s.chain.addr).isSome && !s.life.guard_)), (3, s.life.recCause),
    (1, bit s.life.holdupLow)]

def FwSt.code : FwSt → Nat
  | .nothing => 0
  | .loading => 1
  | .staged => 2
  | .installing => 3
  | .installed => 4
  | .activating => 5
  | .probation => 6

/-- FW_STAT (Table 18.10). -/
def State.fwStat (s : State) : Word :=
  let l := s.life
  packWord [(3, l.fw.code), (7, min 100 l.progress), (1, bit l.pendingFw), (1, bit (decide (l.fw = .installing) && s.nvmBarred)), (16, l.lastFw)]

/-- FW_VER_RUN and FW_VER_SLOT (Table 18.11). -/
def State.fwVerSlot (s : State) : Word := if s.life.slotOk then s.life.verSlot else 0

/-- BL_STAT (Table 18.12). -/
def State.blStat (s : State) : Word :=
  let conf := match s.siteEntry s.chain.addr with | some e => e.level | none => 0
  packWord [(8, s.life.blRunning), (8, conf), (8, s.life.blHighest), (8, s.life.lineage.toNat)]

/-- KEY_STAT (Table 18.13). -/
def State.keyStat (s : State) : Word :=
  packWord [(16, bitsNat (s.host.keys.map (fun k => decide (k.st = 1)))), (16, bitsNat (s.host.keys.map (fun k => decide (k.st = 2))))]

/-- CFG_CSTAT and CFG_CSTAT2 (Tables 19.7, 19.8). -/
def State.cstat (s : State) : Word := packWord [(3, s.setup.cState), (13, 0), (16, s.setup.cTag.toNat)]
def State.cstat2 (s : State) : Word := packWord [(16, s.setup.cStatus), (16, s.setup.cOffset)]

/-! ### 03 to 07 -/

/-- STATION_LOST0 to STATION_LOST2 (Table 4.18). -/
def State.stationLost (s : State) (n : Nat) : Word :=
  let x := s.ring.stations
  let cell := x.take 32
  let cur := x.drop 32
  if n = 0 then packWord [(32, bitsNat (cell.map (fun y => y.pLost)))]
  else if n = 1 then packWord [(32, bitsNat (cell.map (fun y => y.sLost)))]
  else packWord [(2, bitsNat (cur.map (fun y => y.pLost))), (2, bitsNat (cur.map (fun y => y.sLost)))]

/-- BAL_STAT (Table 5.10). -/
def State.balStat (s : State) : Word :=
  packWord [(10, (s.meas.cells.filter (fun c => c.on)).length), (10, s.meas.waiting),
    (6, (s.meas.stations.filter (fun m => decide (m.duty < 10000))).length), (6, min 63 (s.meas.cells.filter (fun c => c.leadOpen)).length)]

/-- EST_STAT (Table 6.17). -/
def State.estStat (s : State) : Word :=
  let n (v : Validity) : Nat := ((s.est.cells.take s.cellCount).filter (fun c => decide (c.st = v))).length
  packWord [(10, n .valid), (10, n .converging), (10, n .invalid), (1, bit (s.block 1).isNone)]

def ImpPhase.code : ImpPhase → Nat
  | .idle => 0
  | .settling => 1
  | .measuring => 2
  | .waiting => 3

/-- IMP_STAT (Table 6.20). -/
def State.impStat (s : State) : Word :=
  let i := s.est.imp
  packWord [(2, i.phase.code), (2, i.seg), (8, i.win), (16, i.run.toNat), (1, bit i.lastOk), (1, bit i.skipping)]

/-- LEDGER_STAT (Table 7.10). -/
def State.ledgerStat (s : State) : Word :=
  packWord [(1, bit (s.ledger.promise.all id)), (2, s.ledger.path), (1, bit s.nvmBarred), (12, min 4095 s.ledger.waiting.length)]

/-! ### 08 to 11 -/

/-- STAGE_STAT (Table 8.19). -/
def State.stageStat (s : State) : Word :=
  packWord [(4, stageCode s.gate.stage), (16, s.phaseBits), (4, s.gate.lastTrip.getD 15), (8, s.gate.trips)]

/-- FAULT_STAT (Table 8.21). -/
def State.faultStat (s : State) : Word :=
  packWord [(12, bitsNat (s.gate.slots.map (fun x => x.isSome))), (12, bitsNat s.gate.newBits), (1, bit (!s.gate.captures.isEmpty))]

/-- LOOP_STAT.SHED and SHED_LINKS. -/
def ShedSt.code : ShedSt → Nat
  | .steady => 0
  | .shedding _ => 1
  | .restoring _ => 2
  | .aborting _ => 2
  | .dwell _ => 3

def State.shedLinks (s : State) : Nat :=
  ((List.range s.links).filter (fun l => !(s.phase (2 * l)).active && !(s.phase (2 * l + 1)).active)).length

def State.diagCode (s : State) (e : Nat) : Nat :=
  if s.diagDelivering e then 3 else match (s.diag e).st with
    | .idle => 0
    | .armed => 1
    | .capturing => 2

/-- LOOP_STAT (Table 9.17). -/
def State.loopStat (s : State) : Word :=
  let l := s.loop
  let moving := decide (l.r ≠ l.target) || l.vMoving
  packWord [(2, l.mode), (1, bit l.curBank), (1, bit l.vltBank), (1, bit l.satCur), (1, bit l.satVlt), (1, bit moving),
    (2, l.shed.code), (3, s.shedLinks), (8, l.aborts), (2, s.diagCode 0), (2, s.diagCode 1), (2, s.diagCode 2), (2, s.diagCode 3)]

/-- COOL_STATn (Table 10.14). -/
def State.coolStat (s : State) (n : Nat) : Word := match s.therm.coolers[n]? with
  | some c => packWord [(16, min 65535 c.rpm), (10, c.duty), (1, bit c.failed)]
  | none => 0

/-- DISP_STAT (Table 11.14). -/
def State.dispStat (s : State) : Word :=
  let d := s.disp
  packWord [(4, s.avail), (4, d.bindC), (4, d.bindD), (1, bit d.draining), (1, bit d.expired), (1, bit s.plantActive)]

/-! ### 13, 14, 16, 17 -/

/-- CE_STATn (Table 13.14). -/
def CeMode.code : CeMode → Nat
  | .idle => 0
  | .stop => 1
  | .run => 2
  | .hold => 3

def State.ceStat (s : State) (e : Nat) : Word :=
  let x := s.eng e
  let k := match s.section_ e with | some c => c.k | none => 0
  packWord [(2, x.mode.code), (4, k), (7, x.slack), (8, min 255 x.restarts), (1, bit x.warmLast), (1, bit (decide (x.nCauses ≠ 0))),
    (1, bit (decide (x.mode = .hold) && !x.ctx.isEmpty))]

/-- PROG_STAT (Table 13.15). -/
def State.progStat (s : State) : Word :=
  let b (i : Nat) : Nat := (s.prog.banks.getD i ⟨0, none, none⟩).st
  packWord [(3, b 0), (3, b 1), (1, s.prog.active), (1, bit s.prog.rollback), (9, s.prog.forces.length)]

/-- PROG_ID_ACT and PROG_ID_IDLE (Table 13.16). -/
def State.progId (s : State) (i : Nat) : Word := match (s.prog.banks.getD i ⟨0, none, none⟩).image with
  | some g => g.id
  | none => 0

/-- QP_STATn and QP_CREDn (Tables 14.14, 14.15). -/
def State.qpStat (s : State) (q : Nat) : Word :=
  let x := s.queue q
  packWord [(1, bit x.live), (1, bit x.stopped), (3, x.cause), (8, x.epoch.toNat), (16, min 65535 x.discards)]

def State.qpCred (s : State) (q : Nat) : Word := packWord [(16, (s.queue q).c - (s.queue q).r), (16, (s.queue q).g - (s.queue q).r)]

def PairSt.code : PairSt → Nat
  | .single => 0
  | .joined => 1
  | .alone => 2
  | .solo => 3
  | .withdrawn => 4
  | .catching => 5
  | .comparing => 6
  | .retired => 7

/-- PAIR_STAT (Table 16.10). -/
def State.pairStat (s : State) : Word :=
  let t := s.twin
  let pct := match t.catchUp with | some c => if c.totalKiB = 0 then 0 else 100 * c.doneKiB / c.totalKiB | none => 0
  packWord [(3, t.st.code), (1, bit s.linkAlive), (1, bit s.ringPath), (1, bit (t.linkUp.getD 0 false)), (1, bit (t.linkUp.getD 1 false)),
    (1, bit t.partnerIn), (1, bit t.silent), (4, t.cause), (4, s.withdrawals24), (7, min 100 pct), (8, t.diverged)]

/-- REC_STAT (Table 17.9). -/
def State.recStat (s : State) : Word :=
  let r := s.rec_
  packWord [(1, bit r.full), (1, bit r.freezeHost.isSome), (1, bit r.freezeSvc.isSome), (1, bit (s.nvmBarred || s.ac23Reloading)),
    (13, r.holding.length), (7, r.clears.length), (1, bit r.countErr)]

/-! ### The read (R478) -/

/-- The value of a read-only register at an offset. -/
def State.roWord (s : State) (off : Nat) : Option Word :=
  let at_ (base n : Nat) : Bool := decide (base ≤ off ∧ off < base + 4 * n)
  let i (base : Nat) : Nat := (off - base) / 4
  if off = Reg.devId then some s.devId
  else if off = Reg.serialLo then some (s.life.serial.setWidth 32)
  else if off = Reg.serialHi then some ((s.life.serial >>> 32).setWidth 32)
  else if off = Reg.modIdent then some s.chain.identity
  else if off = Reg.addrStat then some s.addrStat
  else if off = Reg.modStat then some s.modStat
  else if off = Reg.fwVerRun then some s.life.verRun
  else if off = Reg.fwVerSlot then some s.fwVerSlot
  else if off = Reg.fwStat then some s.fwStat
  else if off = Reg.blStat then some s.blStat
  else if off = Reg.keyStat then some s.keyStat
  else if off = Reg.evtNow then some (BitVec.ofNat 32 (eventOf s.sysNs))
  else if off = Reg.evtNow + 4 then some s.time.hiLatch
  else if off = Reg.cfgCstat then some s.cstat
  else if off = Reg.cfgCstat2 then some s.cstat2
  else if off = Reg.cfgCstat3 then some (BitVec.ofNat 32 s.setup.cDetail)
  else if off = Reg.cfgCtime then some (s.setup.cTime.setWidth 32)
  else if off = Reg.cfgCtime + 4 then some s.setup.cTimeHi
  else if off = Reg.cfgPend then some s.pendWord
  else if off = Reg.marginStat then some s.marginStat
  else if off = Reg.timeStat then some s.time.stat
  else if off = Reg.tbTrim then some (BitVec.ofInt 32 s.time.dev)
  else if at_ Reg.ringStat 8 then some (s.ringStat (s.line (i Reg.ringStat)))
  else if at_ Reg.stationLost 3 then some (s.stationLost (i Reg.stationLost))
  else if off = Reg.balStat then some s.balStat
  else if off = Reg.estStat then some s.estStat
  else if off = Reg.impStat then some s.impStat
  else if off = Reg.ledgerStat then some s.ledgerStat
  else if off = Reg.ledgerId then some s.ledger.number
  else if off = Reg.ledgerLseq then some (s.ledger.lseq.setWidth 32)
  else if off = Reg.ledgerLseq + 4 then some s.ledger.hiLatch
  else if off = Reg.stageStat then some s.stageStat
  else if off = Reg.faultStat then some s.faultStat
  else if off = Reg.loopStat then some s.loopStat
  else if off = Reg.thermStat then some s.thermStat
  else if off = Reg.dieStat then some s.dieStat
  else if at_ Reg.coolStat 8 then some (s.coolStat (i Reg.coolStat))
  else if off = Reg.dispStat then some s.dispStat
  else none

/-- The rest of the read-only registers. -/
def State.roWord2 (s : State) (off : Nat) : Option Word :=
  let at_ (base n : Nat) : Bool := decide (base ≤ off ∧ off < base + 4 * n)
  let i (base : Nat) : Nat := (off - base) / 4
  if off = Reg.safeStat then some s.safeStat
  else if off = Reg.safeStat2 then some s.safeStat2
  else if off = Reg.progStat then some s.progStat
  else if off = Reg.progIdAct then some (s.progId s.prog.active)
  else if off = Reg.progIdIdle then some (s.progId (1 - s.prog.active))
  else if at_ Reg.ceStat 8 then some (s.ceStat (i Reg.ceStat))
  else if at_ Reg.ethStat 4 then some ((s.ethPort (i Reg.ethStat)).word (i Reg.ethStat))
  else if at_ Reg.canStat 6 then some ((s.canPort (i Reg.canStat)).word)
  else if at_ Reg.sbStat 4 then some (s.sbWord (i Reg.sbStat))
  else if off = Reg.pairStat then some s.pairStat
  else if off = Reg.recStat then some s.recStat
  else if off = Reg.recSeq then some s.rec_.nextRseq
  else if off = Reg.recSupp then some (BitVec.ofNat 32 s.rec_.suppressed.count)
  else if at_ Reg.qpStat 32 then some (s.qpStat (i Reg.qpStat))
  else if at_ Reg.qpCred 32 then some (s.qpCred (i Reg.qpCred))
  else none

/-- What a 32-bit read at an offset of BAR0 answers: at a register's own offset its staging copy, at the mirror its active value, 0 at an
unassigned offset, and in ROM recovery 0 at a register that is not present (R484). -/
def State.regWord (s : State) (offset : Nat) : Word :=
  let off := offset % 0x8000
  if s.life.phase = .recovery ∧ !inRecovery off then 0
  else match (s.roWord off).orElse (fun _ => s.roWord2 off) with
  | some w => w
  | none => match rowOf off with
    | some r => if r.access = .rw then (if offset < 0x8000 then s.setup.staged.get off else s.cfg.get off) else 0
    | none => 0

end Sys2Proof.Machine
end

