-- ==== Sys2Proof/Safety.lean ====
section
/-! DEFINITION. What claims mean by a sound state: the invariant of the register banks, what the factory gives a unit, and the parts of the
state that a command may touch. -/
namespace Sys2Proof.Machine

/-- A value that a register may come to hold: the register is staged, and every bit outside its RW fields reads as at reset (19 R478). -/
def rwOnly (e : Nat × Word) : Bool := match rowOf e.1 with
  | some r => decide (r.access = .rw) && decide (e.2 &&& ~~~r.mask = regReset e.1 &&& ~~~r.mask)
  | none => false

/-- A sound bank: canonical, and with values of RW fields alone. -/
def RegBank.ok (b : RegBank) : Bool := b.wf && b.all rwOnly

/-- Every bank of the set-up is sound, and so are the values of a commit that waits (19 R478, R479). -/
def Setup.ok (x : Setup) : Bool :=
  x.active.ok && x.staged.ok && x.stored.ok
  && (match x.pending with | some p => p.regs.all rwOnly | none => true)

/-- The invariant of the registers. -/
def State.regsOk (s : State) : Bool := s.setup.ok

/-- What the factory region and the parts of a unit fix (19 Tables 19.2 and 19.3, 18 Table 18.12). -/
structure Unit where
  serial  : BitVec 64
  grade   : Bool
  board   : Byte
  lineage : Byte
  deriving DecidableEq, Repr

def State.unit (s : State) : Unit := ⟨s.life.serial, s.life.grade, s.life.board, s.life.lineage⟩

/-- The parts of the state, as its fields name them; the queue of waiting commands is none of them. -/
inductive Part where
  | chain | fabric | time | ring | meas | est | ledger | gate | loop | therm | disp | safety | prog | host | plant | twin | rec_ | life
  | setup | out | free
  deriving DecidableEq, Repr

/-- A state has a part as another state has it. -/
def Part.same (q : Part) (s t : State) : Prop := match q with
  | .chain => t.chain = s.chain
  | .fabric => t.fabric = s.fabric
  | .time => t.time = s.time
  | .ring => t.ring = s.ring
  | .meas => t.meas = s.meas
  | .est => t.est = s.est
  | .ledger => t.ledger = s.ledger
  | .gate => t.gate = s.gate
  | .loop => t.loop = s.loop
  | .therm => t.therm = s.therm
  | .disp => t.disp = s.disp
  | .safety => t.safety = s.safety
  | .prog => t.prog = s.prog
  | .host => t.host = s.host
  | .plant => t.plant = s.plant
  | .twin => t.twin = s.twin
  | .rec_ => t.rec_ = s.rec_
  | .life => t.life = s.life
  | .setup => t.setup = s.setup
  | .out => t.out = s.out
  | .free => t.free = s.free

/-! ### What a command does -/

/-- A command runs to its end: a next state, of which P holds. -/
def Does (c : Sys2Proof.Instr) (s : State) (P : State → Prop) : Prop := ∃ t, exec c s = .next t ∧ P t

/-- An event of the present instant has been detected (17 R440). -/
def State.Saw (t : State) (e : EvDef) (args : List Int) : Prop := (⟨eventOf t.sysNs, e.code, e.sev, args⟩ : Event) ∈ t.rec_.detected

/-- `d` is the descriptor whose turn it is in a command queue, with the row's opcode and operation; its checks 1 to 6 pass, and its
authorisation passes and leaves `t` (14 R377, R387). -/
structure State.Turn (s : State) (q op : Nat) (sel : Desc → Bool) (d : Desc) (t : State) : Prop where
  awake : s.ac23Reloading = false
  head  : s.isHead q op sel = true
  desc  : (s.queue q).inMod.head?.map Held.desc = some d
  auth  : s.authorise d (s.roleFor op (d.argByte 0)) = (t, none)

/-- `d` is the chunk whose turn it is in a load queue of the class: its checks 1 to 6 pass (14 R377, R385). -/
structure State.LoadTurn (s : State) (q cls op : Nat) (d : Desc) : Prop where
  awake  : s.ac23Reloading = false
  live   : (s.queue q).live = true
  class_ : s.qClass q = cls
  head   : ∃ h l, (s.queue q).inMod = h :: l ∧ h.desc = d ∧ preCheck cls h.credit d = none
  opcode : d.opcode.toNat = op
  plain  : d.signed = false

/-- A command of queue q that leaves `u` ends: its response is written, its completion carries ST_OK, the length required and the flags,
and the queue fetches on (14 R377, R379). -/
def State.ends (u : State) (q need flags : Nat) (resp : List Byte) : State :=
  ((if need = 0 then u else u.emit (.response q resp)).complete q 0 St.ok 0 need flags).fetchAndPump q

/-- A refused command ends with its status and detail, and no effect of its own. -/
def State.refuses (t : State) (q status detail : Nat) : State := (t.complete q 0 status detail 0 0).fetchAndPump q

/-- A port has room for a frame in this second (15 R389), and the state in which it has arrived. -/
def State.ethRoom (s : State) (ep : Nat) : Prop := ¬((s.ethPort ep).sec = s.now / 1000000000 ∧ 20000 ≤ (s.ethPort ep).rx)

def State.arrived (s : State) (ep : Nat) : State := s.onEth ep (fun y => y.arrive (s.now / 1000000000))

/-- The recorder holds its records under contiguous numbers, in slot order, the next number after the last; it has 1,048,576 slots, and its
holding queue 4,096 places (17 R439, R440, R442). -/
structure Recorder.sound (r : Recorder) : Prop where
  numbers : ∀ i x, r.slots[i]? = some x → x.rseq = r.firstRseq + BitVec.ofNat 32 i
  next    : r.slots ≠ [] → r.nextRseq = r.firstRseq + BitVec.ofNat 32 r.slots.length
  slots   : r.slots.length ≤ recSlots
  holding : r.holding.length ≤ 4096

/-- How many things there are of each kind of which the module has a fixed number. -/
def State.shape (s : State) : List Nat :=
  [s.fabric.engines.length, s.fabric.corrected.length, s.time.reqSeq.length, s.time.pathDelay.length, s.time.syncWait.length,
   s.time.pairResult.length, s.ring.lines.length, s.ring.stations.length, s.meas.cells.length, s.meas.stations.length,
   s.est.cells.length, s.gate.receivers.length, s.gate.phases.length, s.loop.phases.length, s.loop.diags.length,
   s.therm.zones.length, s.therm.coolers.length, s.safety.outs.length, s.prog.engines.length, s.host.queues.length,
   s.plant.can.length, s.plant.objs.length, s.plant.mb.length, s.plant.sb.length, s.plant.eth.length, s.twin.linkUp.length]

/-- As many of each as at reset: 23 engines, 8 rings, 34 stations, 512 cells, 8 gate links, 32 queues, and so on. -/
def State.sized (s : State) : Prop := s.shape = State.reset.shape

/-- Every part. -/
def Part.all : List Part :=
  [.chain, .fabric, .time, .ring, .meas, .est, .ledger, .gate, .loop, .therm, .disp, .safety, .prog, .host,
    .plant, .twin, .rec_, .life, .setup, .out, .free]

/-- The parts that a command may touch; every other part it leaves as it was. -/
def touches : Sys2Proof.Instr → List Part
  | .aciAddressFrame .. | .aciLost => [.chain, .time, .twin, .rec_]
  | .acoSend | .catchupLaunch .. | .delayMeasure .. => [.out]
  | .address .. => [.chain, .time, .host, .twin, .rec_, .out, .free]
  | .canaryRound .. | .replanMonthly => [.fabric, .time, .rec_, .free]
  | .slackHistoryWrite => [.fabric, .time]
  | .deadlineMiss .. | .comparedPairDisagree .. | .residueMismatch .. | .eccUncorrectable .. | .engineReloadDone ..
  | .collectionDeadline | .ledgerSecond | .supplyLoss .. | .dieCoolRestart | .cycleBoundary | .pairCatchupFrame .. | .loopBridgeClosed
  | .powerUp .. | .supplyOvervoltage .. | .installDone | .wardenWatchdogExpiry | .activationReloadDone => Part.all
  | .residueRetryReport | .eccCorrectedReport => [.fabric, .time, .rec_]
  | .scrubPass .. => [.fabric]
  | .profileCommitExpired | .safetyCfgExpired | .commitExpired => [.time, .rec_, .setup, .out]
  | .oscFail | .safetyTick .. | .contactorFeedbackTimeout .. | .safetyFrameReceived .. | .safetyFrameWatchdog .. | .pairSafetyFrame .. =>
    [.time, .ring, .meas, .est, .gate, .safety, .plant, .twin, .rec_, .out]
  | .oscBackupSwitch | .ptpPortSwitch | .ptpPortSwitchBack | .startWaitExpiry => [.time]
  | .ptpSync .. | .ptpFollowUp .. => [.time, .ring, .ledger, .plant, .twin, .rec_, .life]
  | .ptpAnnounce .. | .prpLanDown .. => [.time, .plant, .rec_]
  | .ptpDelayReqSend .. | .evtNowLoRead | .returnTimeout .. => [.time, .out]
  | .ptpDelayResp .. | .canObjectTimeout .. | .canPeriodicQueue .. | .canAnnounce .. | .prpNodeAgedOut => [.time, .plant]
  | .ptpPdelayReq .. | .ethStatRead .. | .canStatRead .. | .sbStatRead .. | .arpRequest .. | .icmpEchoRequest .. => [.plant, .out]
  | .announceTimeout | .ringCmdCountCheck .. | .recorderCountCheck .. | .clearRegisterPointer .. | .freezeTimeout .. => [.time, .rec_]
  | .timeStep .. | .timeResume .. | .timeSet .. | .ledgerNote .. | .diagStart .. | .thermalAck .. | .contactorClose ..
  | .contactorOpen .. | .safetyReset .. | .programSwitch .. | .programRollback .. | .programRun .. | .programStop .. | .programHold ..
  | .programStep .. | .programResume .. | .forceSet .. | .forceClear .. | .hostWrite .. => [.host, .twin, .rec_, .out, .free]
  | .timeCmdExpired | .diagExpired | .thermalAckExpired | .safeResetExpired | .programCmdExpired | .creditCheck .. | .cmdExpired =>
    [.time, .host, .rec_]
  | .timeStatus .. | .ledgerReplay .. | .programRead .. | .cfgBlockRead .. | .slackRead .. | .recorderRead .. | .recorderFreeze ..
  | .recorderThaw .. | .clearReg .. | .codes .. => [.host, .rec_, .out, .free]
  | .pairTimeMessage .. => [.time, .ring, .ledger, .safety, .twin, .rec_, .life]
  | .pairTimeSend .. => [.twin, .out]
  | .ledgerLseqLoRead => [.ledger, .out]
  | .cfgCtimeLoRead | .cfgPendRead => [.setup, .out]
  | .ringStatRead .. | .delayReceived .. | .configFrameReceived .. => [.ring, .out]
  | .gridInstant .. => [.fabric, .time, .ring, .est, .loop, .prog, .plant, .twin, .rec_, .out]
  | .ringFrameReceived .. | .pairSlotsFrame .. => [.ring, .twin, .rec_, .out]
  | .lossOfSignal .. | .stationSecLost .. | .stationReturned .. | .stationSecReturned .. | .calibrationRecordMessage .. => [.ring, .rec_]
  | .lossOfSignalCleared .. | .ringPresenceTimeout | .ringRestore .. | .stationFwSlotChange .. | .stationEventMessage .. => [.ring]
  | .ringStart .. => [.ring, .meas, .out]
  | .discoverReceived .. | .ringStartDone .. => [.ring, .safety, .rec_, .out]
  | .stationFwLoadDone .. => [.ring, .gate, .out]
  | .stationLost .. => [.ring, .prog, .rec_]
  | .identificationMessage .. => [.ring, .meas, .ledger, .out]
  | .lockinResultMessage .. => [.ring, .est]
  | .openWireResultMessage .. => [.ring, .meas, .rec_]
  | .balancingCountersMessage .. => [.ring, .meas, .ledger, .rec_]
  | .calStepIssue .. | .owRound .. | .owOddStart .. | .owRetest .. | .owSuspicionTest .. => [.time, .ring, .meas]
  | .currentCompare .. => [.time, .meas, .est, .ledger, .rec_]
  | .currentJudgementEnd => [.time, .meas, .ledger]
  | .sumMismatch .. | .unusedChannel .. => [.meas, .rec_]
  | .measCompare .. => [.time, .meas, .rec_]
  | .balDecision .. | .balChannelTimeout .. => [.time, .meas]
  | .balChargeUpdate => [.meas]
  | .estimateRelease => [.time, .est]
  | .estimatorCheckpoint .. => [.time, .est, .ledger, .rec_]
  | .estBlockSend => [.est, .host, .rec_, .out]
  | .impRunStart .. => [.time, .est, .rec_]
  | .impRun .. => [.est, .host, .twin, .rec_, .out, .free]
  | .impSegmentStart => [.est]
  | .impHeadroomRetest => [.time, .ring, .est, .rec_]
  | .impWindowEnd => [.time, .ring, .est]
  | .spectrumSend => [.meas, .est, .host, .rec_, .out]
  | .ledgerImageWritten => [.time, .est, .ledger, .host, .rec_, .out]
  | .ledgerGapBooking => [.est, .ledger, .rec_]
  | .basePeriod => [.time, .ring, .est, .gate, .loop, .disp, .host, .rec_, .out, .free]
  | .loadStepCheck | .shedStart => [.time, .est, .loop]
  | .edgeRelease .. => [.time, .loop, .rec_, .out]
  | .gateStatusReceived .. | .pairStatusFrame .. => [.ring, .est, .gate, .loop, .twin, .rec_, .out]
  | .linkLoss .. | .armTimeout => [.time, .ring, .est, .gate, .rec_, .out]
  | .statusCutoff .. => [.time, .gate, .loop, .host, .rec_, .out]
  | .receiverIdent .. => [.gate, .rec_, .out]
  | .linkStart => [.gate, .loop]
  | .gateDelayUpdate .. => [.time, .gate, .out]
  | .stageEnable .. | .stageDisable .. | .stageTripCommand .. | .stageTripReset .. =>
    [.ring, .est, .gate, .disp, .host, .twin, .rec_, .out, .free]
  | .startDelayEnd => [.time, .gate, .loop]
  | .stopDelayEnd => [.time, .gate]
  | .stopRampEnd | .faultCaptureDone | .faultRecordWritten => [.gate]
  | .stageStopForced => [.time, .gate, .rec_]
  | .telemWindowEnd => [.time, .gate, .host, .rec_, .out]
  | .peakRead .. => [.gate, .host, .twin, .rec_, .out, .free]
  | .faultRead .. => [.gate, .host, .rec_, .out, .free]
  | .targetRelease | .shedDwellEnd => [.time, .loop]
  | .diagArm .. | .diagAbort .. => [.loop, .host, .rec_, .out, .free]
  | .diagTrigger .. => [.loop]
  | .diagCaptureDone .. => [.loop, .host, .rec_, .out]
  | .thermalRound .. => [.time, .loop, .therm, .plant, .rec_, .out]
  | .dieSample .. => [.fabric, .time, .ring, .meas, .est, .gate, .therm, .safety, .plant, .twin, .rec_, .out]
  | .dieWriteWindowEnd => [.time, .ledger, .gate, .therm, .safety, .life]
  | .currentSetpoint .. | .powerSetpoint .. | .voltageSetpoint .. | .currentBudget .. | .powerBudget .. | .refresh .. =>
    [.disp, .host, .twin, .rec_, .out, .free]
  | .dispatchAtReached => [.time, .loop, .disp, .rec_]
  | .setpointExpired => [.time, .disp, .rec_]
  | .envelopeCompute .. | .stateReportSend => [.time, .disp, .host, .plant, .rec_, .out]
  | .safetyCrossLink .. | .switchWatchdogExpiry .. => [.safety]
  | .fastOcTrip .. => [.ring, .est, .gate, .rec_, .out]
  | .soTestPulse .. | .prechargeEnd | .prechargeRelease => [.time, .safety]
  | .coilSupplyLow .. => [.ring, .meas, .est, .gate, .safety, .plant, .twin, .rec_, .out]
  | .resetInput .. => [.safety, .rec_]
  | .safetyFrameSend => [.time, .safety, .plant, .twin, .out]
  | .cycleStart .. | .eventTaskTrigger .. | .eventTaskRelease .. => [.time, .prog, .plant, .rec_, .out, .free]
  | .cycleRelease .. | .holdExpired .. | .switchBoundary => [.time, .prog, .plant, .rec_, .out]
  | .savedCopyWrite .. => [.time, .prog]
  | .breakpointHit .. => [.prog, .rec_, .out]
  | .programLoadChunk .. => [.prog, .host, .rec_, .out, .free]
  | .sqTail .. | .cqHead .. | .streamBufferPost .. | .catchupProgressSend => [.host, .rec_, .out]
  | .streamFlushTimeout .. => [.time, .host, .rec_, .out]
  | .hostLinkDown | .hostLinkUp => [.host, .rec_]
  | .functionLevelReset => [.host, .rec_, .setup]
  | .irqGapEnd .. => [.time, .host, .out]
  | .cfgBlockWrite .. => [.host, .rec_, .setup, .out, .free]
  | .plantMessage .. => [.time, .ring, .meas, .est, .gate, .disp, .safety, .host, .plant, .twin, .rec_, .out]
  | .prpSupervisionSend | .modbusPoll .. => [.time, .plant, .out]
  | .prpLanUp .. | .canRecovered .. | .prpSupervisionReceived .. => [.plant, .rec_]
  | .canFrameReceived .. => [.time, .ring, .meas, .est, .gate, .disp, .safety, .host, .plant, .twin, .rec_, .out, .free]
  | .canTxAttemptEnd .. => [.plant, .rec_, .out]
  | .modbusReply .. => [.plant, .twin, .rec_, .out]
  | .modbusTimeout .. => [.time, .plant, .rec_, .out]
  | .pairInputsFrame .. => [.time, .therm, .safety, .prog, .plant, .twin, .rec_, .out]
  | .pairCommandFrame .. => [.disp, .host, .plant, .twin, .rec_, .setup]
  | .stateDigest .. | .pairDigestFrame .. => [.time, .safety, .host, .plant, .twin, .rec_, .out]
  | .noticeWithdrawing .. | .noticeEcho .. | .noticeRetired .. | .pairHeartFrame .. => [.twin]
  | .noticeRestarting .. | .noticeReady .. | .replayDone => [.host, .twin, .rec_, .out]
  | .pairLinkTimeout .. => [.time, .twin]
  | .catchupSnapshot | .reentryEchoTimeout => [.time, .host, .twin, .rec_, .out]
  | .reentry => [.time, .safety, .host, .twin, .rec_, .life, .out]
  | .catchupTimeout => [.time, .host, .twin, .rec_, .life, .out]
  | .partnerWaitTimeout | .enterService => [.time, .ring, .meas, .est, .ledger, .gate, .safety, .plant, .twin, .rec_, .life, .out]
  | .pathsLost | .exposureNotice | .exposureExceeded | .exposureClosed => [.time, .twin, .rec_]
  | .pathRecovered .. | .portSelftest .. => [.time, .safety, .plant, .twin, .rec_, .out]
  | .recorderWrite | .recorderResume => [.host, .plant, .rec_, .out]
  | .recorderClear .. => [.host, .plant, .rec_, .out, .free]
  | .imageChecked .. => [.chain, .time, .est, .ledger, .therm, .safety, .prog, .host, .plant, .twin, .rec_, .life, .setup, .out]
  | .pairWatchEnd .. => [.chain, .fabric, .time, .ring, .meas, .est, .gate, .loop, .prog, .host, .twin, .rec_, .life, .out, .free]
  | .cycleRestartChoice => [.prog, .plant, .rec_, .out]
  | .supplyHigh .. => [.time, .rec_, .life]
  | .supplyReconnect => [.life]
  | .firmwareLoadChunk .. | .install .. | .activate .. | .restart .. => [.host, .rec_, .life, .out, .free]
  | .keys .. => [.host, .twin, .rec_, .life, .out, .free]
  | .probationEnd => [.time, .gate, .rec_, .life]
  | .romRecovery .. => [.therm, .safety, .twin, .life, .setup, .out]
  | .svcMessage .. => [.gate, .therm, .safety, .host, .plant, .twin, .rec_, .life, .setup, .out, .free]
  | .cfgCommitGo .. | .stagedRegisterWrite .. => [.twin, .setup, .out]
  | .cfgCommitDiscard => [.setup]
  | .commitApply => [.chain, .fabric, .time, .ring, .meas, .est, .gate, .loop, .host, .plant, .twin, .rec_, .life, .setup, .out]
  | .holdupMeasured .. => [.rec_, .life]
  | .activationImageChecked .. => [.fabric, .est, .prog, .plant, .rec_, .life, .out]
  | .ethLinkChange .. | .modbusRequestHeard .. => [.plant]

/-- A command's result, from a state: the queue and the factory's data as they were, and every part that it may not touch. -/
def State.leaves (s : State) (c : Sys2Proof.Instr) (t : State) : Prop :=
  t.pending = s.pending ∧ t.unit = s.unit ∧ ∀ q : Part, q ∉ touches c → q.same s t

end Sys2Proof.Machine
end

