-- ==== Sys2Proof/Certificates/Slice0/Obligations.lean ====
section
/-! DEFINITION. The statements for the provers: the commands of each chapter, the frame of every command, the invariants, and the rules of
the step, the queues and the registers. -/
open Sys2Proof Sys2Proof.Machine

/-- 01 R31, R33, R34: the commands of the address chain. An address frame gives a module out of service its address, stored and confirmed,
and one in service goes on with its own; 64 means that the chain is full; ACO carries the running address plus one; a lost ACI keeps the
address and flags it stale; an assignment gives a lost, unaddressed module its address, stored and stale. -/
def Obligations.ChainCommands : Prop :=
  (∀ (s : State) (a : Aci), Aci.value a ≠ 64 → s.inService = false → Does (.aciAddressFrame a) s fun t =>
    t.chain.addr = Aci.value a ∧ t.chain.stored = some (Aci.value a) ∧ t.chain.stale = false ∧ t.chain.aciLost = false)
  ∧ (∀ (s : State) (a : Aci), Aci.value a ≠ 64 → s.inService = true → Does (.aciAddressFrame a) s fun t =>
    t.chain.addr = s.chain.addr ∧ t.chain.stored = some (Aci.value a) ∧ t.chain.aciLost = false)
  ∧ (∀ (s : State) (a : Aci) (old : Nat), Aci.value a ≠ 64 → s.chain.stored = some old → old ≠ Aci.value a → Does (.aciAddressFrame a) s fun t =>
    t.Saw Ev.addressChanged [old, (Aci.value a : Int)])
  ∧ (∀ (s : State), s.chain.full = false → Does (.aciAddressFrame (.frame 63)) s fun t =>
    t.chain.addr = s.chain.addr ∧ t.chain.full = true ∧ t.Saw Ev.chainFull [])
  ∧ (∀ s : State, s.chain.addr ≠ 0 → Does .acoSend s fun t => t = s.emit (.aco (s.chain.addr + 1)))
  ∧ (∀ s : State, s.chain.addr = 0 → s.life.phase ≠ .recovery → Does .acoSend s fun t => t = s)
  ∧ (∀ s : State, s.chain.aciLost = false → s.chain.addr ≠ 0 → Does .aciLost s fun t =>
    t.chain.addr = s.chain.addr ∧ t.chain.aciLost = true ∧ t.chain.stale = true ∧ t.Saw Ev.chainBreak [s.chain.addr])
  ∧ (∀ (s : State) (a : Nat), s.chain.aciLost = false → s.chain.addr = 0 → s.inService = false → s.chain.stored = some a → a ≠ 0 →
    Does .aciLost s fun t => t.chain.addr = a ∧ t.chain.aciLost = true ∧ t.chain.stale = true ∧ t.Saw Ev.chainBreak [a])
  ∧ (∀ (s t : State) (q : Fin 32) (d : Desc), s.Turn q 0x22 anyArg d t → d.argByte 0 ≠ 0 → d.argByte 0 ≤ 63 →
    d.argLe 8 8 = t.life.serial.toNat → t.chain.addr = 0 → t.chain.aciLost = true →
    exec (.address q) s = .next (State.ends ({ t with chain := { t.chain with
      addr := d.argByte 0, stored := some (d.argByte 0), stale := true, assigned := true } }.formIdentity) q 0 0 []))

/-- 02 R43, R44, R45, R57, R58: a canary round takes the slack of every engine and re-plans where one has been below the trigger twice; the
monthly re-plan; the slack history's day; a residue mismatch that its retry mends is counted, and the counts are reported and cleared;
what a scrub pass corrects is counted, reported and cleared. -/
def Obligations.FabricCommands : Prop :=
  (∀ (s u : State) (c : CanaryRound), u = ((s.periodic 5 100000000).timeCanaries c.laps).canaryRound c.worst →
    Does (.canaryRound c) s fun t =>
      t = if u.fabric.engines.any (fun x => decide (2 ≤ x.low)) then u.replan 2 else u)
  ∧ (∀ (s : State) (worst : List Nat) (e : Nat), e < s.fabric.engines.length →
    (s.canaryRound worst).engine e = (s.engine e).round (s.correctedSlack worst e) (Fld.marginCfg_TRIGGER s.cfg))
  ∧ (∀ (s : State) (p : Nat), s.fabric.planAt = some p → Does .replanMonthly s fun t => t = (s.advance (p + 30 * day)).replan 1)
  ∧ (∀ s : State, s.nvmBarred = false → s.fabric.historyWaits = [] → s.fabric.history.length < slackSlots → Does .slackHistoryWrite s fun t =>
    t.fabric.history = s.fabric.history ++ [(s.periodic 6 day).slackRecord] ∧ t.fabric.historyWaits = [])
  ∧ (∀ s : State, s.nvmBarred = false → s.fabric.historyWaits = [] → s.fabric.history.length = slackSlots → Does .slackHistoryWrite s fun t =>
    t.fabric.history = s.fabric.history.drop 1 ++ [(s.periodic 6 day).slackRecord] ∧ t.fabric.historyWaits = [])
  ∧ (∀ s : State, s.nvmBarred = true → Does .slackHistoryWrite s fun t =>
    t.fabric.history = s.fabric.history ∧ t.fabric.historyWaits = s.fabric.historyWaits ++ [(s.periodic 6 day).slackRecord])
  ∧ (∀ (s : State) (e : Fin 23), Does (.residueMismatch e false) s fun t =>
    t = s.onEngine e (fun x => { x with retries := satAdd x.retries 1 0xFFFFFFFF }))
  ∧ (∀ s : State, Does .residueRetryReport s fun t =>
    t.fabric.engines = s.fabric.engines.map (fun x => { x with retries := 0 })
    ∧ ∀ e, e < 23 → (s.engine e).retries ≠ 0 → t.Saw Ev.residueRetry [e, (s.engine e).retries])
  ∧ (∀ (s : State) (a : Fin 3) (n : Nat), Does (.scrubPass a n) s fun t =>
    t = s.onFabric (fun f => { f with corrected := modAt f.corrected a (fun m => satAdd m n 0xFFFFFFFF) }))
  ∧ (∀ s : State, Does .eccCorrectedReport s fun t => t.fabric.corrected = [0, 0, 0]
    ∧ ∀ a, a < 3 → s.fabric.corrected.getD a 0 ≠ 0 → t.Saw Ev.eccCorrected [a, s.fabric.corrected.getD a 0])

/-- 02 R41, R42, R57, R58, R60, R61, Table 2.11: what is an engine fault, of which engine and with which cause; and what a fault does in a
module that acts alone and is past its probation: the event, the action of Table 2.11, and on the third fault within 24 h the safe state
and EV_ENGINE_FAILED. -/
def Obligations.EngineFaults : Prop :=
  (∀ (s : State) (e : Fin 23) (done : Nat), done < 2 ^ 32 → Does (.deadlineMiss e done) s fun t =>
    t = (s.raise Ev.deadlineMiss [e.val, s.deadline e, done]).engineFault e 3)
  ∧ (∀ (s : State) (l : Bool), Does (.comparedPairDisagree l) s fun t => t = s.engineFault (2 * bit l) 2)
  ∧ (∀ (s : State) (e : Fin 23), Does (.residueMismatch e true) s fun t => t = s.engineFault e 1)
  ∧ (∀ (s : State) (e : Fin 23) (a : Nat), Does (.eccUncorrectable (.sram (some e) a)) s fun t => t = s.engineFault e 4)
  ∧ (∀ (s : State) (l : Bool), Does (.eccUncorrectable (.working l)) s fun t => t = s.engineFault (2 * bit l) 4)
  ∧ (∀ (s : State) (a : Nat), Does (.eccUncorrectable (.sram none a)) s fun t => t = s.raise Ev.eccUncorrectable [0, a])
  ∧ (∀ (s : State) (r : Fin 8) (a i : Nat), Does (.eccUncorrectable (.mram r a i)) s fun t =>
    t = (s.raise Ev.nvmUncorrectable [r.val, a]).loseLine r i)
  ∧ (∀ (s : State) (e cause : Nat), s.actsSingle = true → s.life.probation = false →
    2 ≤ ((s.engine (pairOf e)).faults.filter (fun t => decide (s.now < t + day))).length → pairOf e < s.fabric.engines.length →
    s.engineFault e cause = ((((s.noteFault (pairOf e) cause).faultAction (pairOf e)).onEngine (pairOf e)
      (fun x => { x with failed := true })).internalFault (pairOf e) true).raise Ev.engineFailed [pairOf e])
  ∧ (∀ (s : State) (e cause : Nat), s.actsSingle = true → s.life.probation = false →
    ((s.engine (pairOf e)).faults.filter (fun t => decide (s.now < t + day))).length < 2 →
    s.engineFault e cause = (s.noteFault (pairOf e) cause).faultAction (pairOf e))
  ∧ (∀ (s : State) (e : Fin 23), (s.engine (pairOf e)).reloading = true → (s.engine (pairOf e)).failed = false →
    pairOf e = 0 ∨ (12 ≤ e.val ∧ e.val ≤ 14) → Does (.engineReloadDone e) s fun t =>
      t = s.onEngine (pairOf e) (fun x => { x with reloading := false }))
  ∧ (∀ (s : State), (s.engine 15).reloading = true → (s.engine 15).failed = false → Does (.engineReloadDone 15) s fun t =>
    t = (s.onEngine 15 (fun x => { x with reloading := false })).reloadThermal)
  ∧ (∀ (s : State), (s.engine 2).reloading = true → (s.engine 2).failed = false → Does (.engineReloadDone 2) s fun t =>
    t = (s.onEngine 2 (fun x => { x with reloading := false })).postAdjust.bookBuffer)
  ∧ (∀ (s : State) (n : Nat) (h : 4 + n < 23), n < 8 → (s.engine (4 + n)).reloading = true → (s.engine (4 + n)).failed = false →
    Does (.engineReloadDone ⟨4 + n, h⟩) s fun t => t = (s.onEngine (4 + n) (fun x => { x with reloading := false })).reloadCyc n 3)
  ∧ (∀ (s : State) (n : Nat) (h : 16 + n < 23), n < 4 → (s.engine (16 + n)).reloading = true → (s.engine (16 + n)).failed = false →
    Does (.engineReloadDone ⟨16 + n, h⟩) s fun t =>
      t = (s.onEngine (16 + n) (fun x => { x with reloading := false })).reloadEst n false)

/-- 03 R64, R72, R77 to R87: the commands of the time base but for the signed ones. A Sync or the matching Follow_Up on the port in use
measures an offset: the servo slews it away, within R63; the first offset of a new source past JUMP_US is refused; without another
master the module holds over; ports switch without a change of source; the pair's follower takes the leader's step offset; a read of
EVT_NOW_LO latches EVT_NOW_HI; and an accepted time command that no twin matches expires. -/
def Obligations.TimeBaseCommands : Prop :=
  (∀ (s : State) (ep : Fin 3) (seq : BitVec 16) (i o c : Int), s.ethRoom ep → s.ptpAccepts ep (Fld.ptpCfg_DOMAIN s.cfg) = true →
    Does (.ptpSync ep (Fld.ptpCfg_DOMAIN s.cfg) seq true i o c) s fun t =>
      t = (s.arrived ep).onTime (fun x => { x with syncWait := x.syncWait.set ep (some (seq, i - c)) }))
  ∧ (∀ (s : State) (ep : Fin 3) (seq : BitVec 16) (i o c : Int), s.ethRoom ep → s.ptpAccepts ep (Fld.ptpCfg_DOMAIN s.cfg) = true →
    s.servoPort = ep → s.time.gm ≠ none → s.isFollower = false → s.time.st ≠ .refused → s.inService = true → s.time.jumpTest = false →
    s.time.taken = true → Does (.ptpSync ep (Fld.ptpCfg_DOMAIN s.cfg) seq false i o c) s fun t =>
      t.time.increment = incOf (Config.servo (s.offsetOf ep i o c) s.time.dev) ∧ t.time.offset = s.offsetOf ep i o c
      ∧ t.time.st = lockState ep ∧ t.now = s.now)
  ∧ (∀ (s : State) (ep : Fin 3) (seq : BitVec 16) (w o c : Int), s.ethRoom ep → s.ptpAccepts ep (Fld.ptpCfg_DOMAIN s.cfg) = true →
    s.time.syncWait.getD ep none = some (seq, w) → s.servoPort = ep → s.isFollower = false → s.time.st ≠ .refused → s.inService = true →
    s.time.gm ≠ none → (s.time.jumpTest = true ∨ s.time.taken = false) → s.jumpNs < mag (s.offsetOf ep w o c) →
    Does (.ptpFollowUp ep (Fld.ptpCfg_DOMAIN s.cfg) seq o c) s fun t =>
      t.time.increment = s.time.increment ∧ t.time.st = .refused ∧ t.time.traceable = false
      ∧ t.Saw Ev.timeJumpRefused [s.offsetOf ep w o c, (s.time.gm.getD 0).toNat])
  ∧ (∀ (s : State) (ep : Fin 3) (seq : BitVec 16) (w o c : Int), s.ethRoom ep → s.ptpAccepts ep (Fld.ptpCfg_DOMAIN s.cfg) = true →
    s.time.syncWait.getD ep none = some (seq, w) → s.servoPort = ep → s.isFollower = false → s.time.st ≠ .refused → s.inService = true →
    s.time.gm ≠ none → s.time.jumpTest = true → mag (s.offsetOf ep w o c) ≤ s.jumpNs →
    Does (.ptpFollowUp ep (Fld.ptpCfg_DOMAIN s.cfg) seq o c) s fun t =>
      t.time.increment = incOf (Config.servo (s.offsetOf ep w o c) s.time.dev) ∧ t.time.jumpTest = false ∧ t.time.st = lockState ep)
  ∧ (∀ (s : State) (ep : Fin 3) (old new : BitVec 64) (other : Option (BitVec 64)) (utc : Int) (l61 l59 uv : Bool), s.ethRoom ep →
    s.ptpAccepts ep (Fld.ptpCfg_DOMAIN s.cfg) = true → s.time.gmLast = some old → s.time.gm ≠ some new →
    Does (.ptpAnnounce ep (Fld.ptpCfg_DOMAIN s.cfg) (some new) other utc l61 l59 uv) s fun t =>
      t.time.gm = some new ∧ t.time.traceable = false ∧ t.time.jumpTest = true ∧ t.time.utcOffset = utc ∧ t.time.leap61 = l61
      ∧ t.time.leap59 = l59 ∧ t.time.utcValid = uv ∧ t.Saw Ev.timeSourceChanged [new.toNat, old.toNat])
  ∧ (∀ (s : State) (ep : Fin 3), s.sized → Does (.ptpDelayReqSend ep) s fun t =>
      t.out = .ptp ep (if Fld.ptpCfg_PROFILE s.cfg = 0 then 1 else 2) [((s.time.reqSeq.getD ep 0).toNat : Int), s.sysNs] :: s.out
      ∧ t.time.reqSeq.getD ep 0 = s.time.reqSeq.getD ep 0 + 1)
  ∧ (∀ (s : State) (ep : Fin 3) (seq : BitVec 16) (t1 t2 t3 t4 : Int), s.ethRoom ep → seq + 1 = s.time.reqSeq.getD ep 0 →
    s.sized → Does (.ptpDelayResp ep seq t1 t2 t3 t4) s fun t =>
      t.time.pathDelay.getD ep 0 = ((t2 - t1) + (t4 - t3)) / 2)
  ∧ (∀ (s : State) (ep : Fin 3) (seq : BitVec 16) (i : Int), s.ethRoom ep → s.ptpAccepts ep (Fld.ptpCfg_DOMAIN s.cfg) = true →
    Fld.ptpCfg_PROFILE s.cfg ≠ 0 → Does (.ptpPdelayReq ep (Fld.ptpCfg_DOMAIN s.cfg) seq i) s fun t =>
      t.out = .ptp ep 3 [(seq.toNat : Int), (s.sysNs : Int) - i] :: s.out)
  ∧ (∀ (s : State), s.time.otherMaster = none → s.time.gm ≠ none → s.time.st ≠ .refused → Does .announceTimeout s fun t =>
      t.time.st = .holdover ∧ t.time.traceable = false ∧ t.time.gm = none ∧ t.time.jumpTest = true ∧ t.time.increment = s.time.increment
      ∧ t.Saw Ev.timeHoldover [])
  ∧ (∀ (s : State) (g old : BitVec 64), s.time.otherMaster = some g → s.time.gmLast = some old → Does .announceTimeout s fun t =>
      t.time.gm = some g ∧ t.time.jumpTest = true ∧ t.time.traceable = false
      ∧ t.Saw Ev.timeSourceChanged [g.toNat, old.toNat])
  ∧ (∀ s : State, Fld.ptpCfg_SOURCE s.cfg = 0 → s.time.port = 0 → Does .ptpPortSwitch s fun t =>
      t.time.port = 1 ∧ t.time.gm = s.time.gm ∧ t.time.jumpTest = s.time.jumpTest)
  ∧ (∀ s : State, Fld.ptpCfg_SOURCE s.cfg = 0 → s.time.port = 1 → Does .ptpPortSwitchBack s fun t =>
      t.time.port = 0 ∧ t.time.gm = s.time.gm ∧ t.time.jumpTest = s.time.jumpTest)
  ∧ (∀ (s : State) (n : Nat), s.time.startWait = some n → Does .startWaitExpiry s fun t =>
      t.time.startWait = none ∧ t.time.jumpTest = (s.time.jumpTest || !s.time.setOnce))
  ∧ (∀ (s : State) (w : WaitCmd), s.host.waiting.find? (fun w => decide (w.cmd.opcode = 0x20) && w.own) = some w → w.expires < 2 ^ 64 →
    Does .timeCmdExpired s fun t =>
      w ∉ t.host.waiting ∧ t.Saw Ev.timeStepExpired [(byteAt w.cmd.arg 0 : Int), 0])
  ∧ (∀ (s : State) (l : Fin 2) (d so : Int) (x : LeadTime) (same : Bool), (s.isPair = false ∨ s.time.leader = true) →
    s.sized → Does (.pairTimeMessage l d so x same) s fun t =>
      t.time.pairResult.getD l none = some d ∧ t.time.cfgDiff = !same ∧ t.time.increment = s.time.increment
      ∧ t.time.stepOffset = s.time.stepOffset)
  ∧ (∀ (s : State) (d so : Int) (x : LeadTime) (same : Bool), s.isPair = true → s.time.leader = false → s.sized →
    (s.inService = true ∨ s.time.setOnce = true) → Does (.pairTimeMessage 0 d so x same) s fun t =>
      t.time.stepOffset = so ∧ t.time.increment = incOf (Config.servo d s.time.dev) ∧ t.time.traceable = x.traceable
      ∧ t.time.st = (if x.refused then .refused else .follower) ∧ t.time.leadOffset = x.offset)
  ∧ (∀ (s : State) (d so : Int) (x : LeadTime) (same : Bool), s.isPair = true → s.time.leader = false → s.sized →
    s.inService = false → s.time.setOnce = false → Does (.pairTimeMessage 0 d so x same) s fun t =>
      t.time.fine = BitVec.ofInt 96 ((s.time.fine.toNat : Int) - d * 4294967296) ∧ t.time.setOnce = true ∧ t.time.stepOffset = so)
  ∧ (∀ (s : State) (l : Fin 2), s.isPair = true → Does (.pairTimeSend l) s fun t =>
      t.out = s.pairOut l (.time s.now s.time.stepOffset) :: s.out ∧ t.twin.pseq = s.twin.pseq + 1)
  ∧ (∀ s : State, s.isPair = true → s.isAlone = false → Does .oscFail s fun t =>
      t = ((s.raise Ev.oscFail []).onTime (fun x => { x with rateValid := false })).withdraw 2 false)
  ∧ (∀ s : State, s.actsSingle = true → Does .oscFail s fun t => t.time.rateValid = false ∧ t.safety.safe = true
      ∧ t.Saw Ev.oscFail [])
  ∧ (∀ s : State, Does .oscBackupSwitch s fun t => t = s.onTime (fun x => { x with onBackup := !x.rateValid }))
  ∧ (∀ s : State, Does .evtNowLoRead s fun t =>
      t.out = .read Reg.evtNow (BitVec.ofNat 32 (eventOf s.sysNs)) :: s.out
      ∧ t.time.hiLatch = BitVec.ofNat 32 (eventOf s.sysNs / 2 ^ 32))

/-- 03 R64, R85 to R87: the time commands. A command that its mode permits and that names the present grandmaster is accepted as a Both
command; in a module that acts alone it waits for the next cycle boundary; at that boundary a step takes the refused offset away, a set
writes system time, and the source's next offset passes the jump test again; TIME_STATUS answers the fields of the time base. -/
def Obligations.TimeCommands : Prop :=
  (∀ (s t : State) (q : Fin 32) (d : Desc), s.Turn q 0x20 (op0 1) d t → t.time.st = .refused →
    t.time.gm = some (BitVec.ofNat 64 (d.argLe 8 8)) →
    exec (.timeStep q) s = .next ((t.acceptBoth d.cmd).1.ends q 0 (bit (t.acceptBoth d.cmd).2) []))
  ∧ (∀ (s t : State) (q : Fin 32) (d : Desc), s.Turn q 0x20 (op0 2) d t → t.time.st = .refused →
    t.time.gm = some (BitVec.ofNat 64 (d.argLe 8 8)) →
    exec (.timeResume q) s = .next ((t.acceptBoth d.cmd).1.ends q 0 (bit (t.acceptBoth d.cmd).2) []))
  ∧ (∀ (s t : State) (q : Fin 32) (d : Desc), s.Turn q 0x20 (op0 3) d t → eventValid (d.argLe 16 8) = true →
    Fld.ptpCfg_SOURCE t.cfg = 2 →
    exec (.timeSet q) s = .next ((t.acceptBoth d.cmd).1.ends q 0 (bit (t.acceptBoth d.cmd).2) []))
  ∧ (∀ (s t : State) (q : Fin 32) (d : Desc), s.Turn q 0x20 (op0 1) d t → t.time.st ≠ .refused →
    exec (.timeStep q) s = .next (t.refuses q St.timeState 0))
  ∧ (∀ (s t : State) (q : Fin 32) (d : Desc), s.Turn q 0x21 anyArg d t → 32 ≤ d.respLen →
    exec (.timeStatus q) s = .next (t.ends q 32 0 (packBytes [(8, eventOf t.sysNs), (8, (t.time.gm.getD 0).toNat), (4, t.time.stat.toNat),
      (2, t.time.utcOffset), (1, ((bit t.time.leap61 + 2 * bit t.time.leap59 + 4 * bit t.time.utcValid : Nat) : Int)), (1, 0),
      (8, t.time.stepOffset)])))
  ∧ (∀ (s : State) (c : Cmd), byteAt c.arg 0 = 1 → s.time.st = .refused → s.time.gm = some (BitVec.ofNat 64 (leAt c.arg 8 8)) → s.isFollower = false →
    (s.applyTime c).time.stepOffset = s.time.stepOffset - s.time.offset ∧ (s.applyTime c).time.st = lockState s.servoPort
    ∧ (s.applyTime c).safety.sfEpoch = s.safety.sfEpoch + 1 ∧ (s.applyTime c).now = s.now)
  ∧ (∀ (s : State) (c : Cmd), byteAt c.arg 0 = 3 → Fld.ptpCfg_SOURCE s.cfg = 2 →
    (s.applyTime c).sysNs = nsOfEvent (leAt c.arg 16 8) ∧ (s.applyTime c).time.traceable = false ∧ (s.applyTime c).time.jumpTest = true
    ∧ (s.applyTime c).time.st ≠ .refused)

/-- 04 R94, R95, R105 to R110: what the module does on the rings of its own accord. A grid instant issues each station its next command,
counts the token, and launches at every owned end: a SWEEP from the collecting end of a normal ring at a sweep instant, a PROBE otherwise;
a sweep that has not returned is launched again from the far end; owed results are asked for by CATCHUP frames, the oldest first; a
collection deadline hands the sweep on; a whole ring comes back after 1 s; loss of signal leaves an end with no station. -/
def Obligations.RingCommands : Prop :=
  (∀ (s : State) (fgi : Int) (dio : BitVec 16), Does (.gridInstant fgi dio) s fun t =>
    t.ring.grid = max (atOrAfter s.now 250000) (s.ring.grid + 250000) ∧ t.ring.tcnt = s.ring.tcnt + 1 ∧ t.prog.dio = dio)
  ∧ (∀ (s : State) (fgi : Int) (dio : BitVec 16), s.est.imp.phase = .idle → Does (.gridInstant fgi dio) s fun t =>
    t.ring.stations = s.ring.stations.map Station.issue)
  ∧ (∀ (s : State) (g r : Nat) (e : End), (s.line r).st = .normal → (s.line r).startAt ≤ g → s.ownsEnd e = true → s.sending = true →
    s.launchEnd g true r e = s.launch r e (if s.collectingEnd = e then 1 else 2) g (g + 20000) (order e (List.range (s.ringCount r))))
  ∧ (∀ (s : State) (g r : Nat) (e : End), (s.line r).st = .normal → (s.line r).startAt ≤ g → s.ownsEnd e = true → s.sending = true →
    s.launchEnd g false r e = s.launch r e 2 g (g + 20000) (order e (List.range (s.ringCount r))))
  ∧ (∀ (s : State) (r : Fin 8) (w : Sweep), s.ring.cur = some w → (s.line r).st = .normal → s.isPair = false → (s.line r).seenAB = false →
    s.ac01Reloading = false → Does (.returnTimeout r) s fun t =>
      t = (s.advance (w.at_ + 20000 + Fld.ringCfg_RET_TIMEOUT s.cfg * 1000 + 1000)).launch r .b 1 w.at_
        (w.at_ + 21000 + Fld.ringCfg_RET_TIMEOUT s.cfg * 1000) (order .b (List.range (s.ringCount r))))
  ∧ (∀ (s : State) (w : Sweep), s.ring.cur = some w → Does .collectionDeadline s fun t =>
      let p := (((s.advance (w.at_ + 240000)).absentCheck w).collectRing w).splitLate
      t = ((((((p.1.sweepMeas w).sweepLedger w).sweepEst w).sweepDispatch.sweepDemand w).telemSweep).sweepSafety w).onRing
        (fun r => { r with late := p.2 }))
  ∧ (∀ (s : State) (r : Fin 8) (e : End) (k p at_ : Nat), s.ring.owed = [⟨k, at_, true, true⟩] → s.placeOf k = some (r.val, p) →
    p < s.ringCount r → (s.line r).st = .normal → s.ownsEnd e = true → s.sending = true → Does (.catchupLaunch r e) s fun t =>
      t = s.launch r e 3 at_ s.now [p])
  ∧ (∀ (s : State) (r : Fin 8), s.sized → s.ownsEnd .a = true → (s.line r).st = .normal → s.ringCount r ≠ 0 →
    Does (.lossOfSignal r .a) s fun t => (t.line r).st = .degraded ∧ (t.line r).reachA = 0 ∧ (t.line r).reachB = s.ringCount r
      ∧ (t.line r).baOk = false)
  ∧ (∀ (s : State) (r : Fin 8), s.sized → s.ownsEnd .b = true → (s.line r).st = .normal → s.ringCount r ≠ 0 →
    Does (.lossOfSignal r .b) s fun t => (t.line r).st = .degraded ∧ (t.line r).reachA = s.ringCount r ∧ (t.line r).reachB = 0
      ∧ (t.line r).abOk = false)
  ∧ (∀ (s : State) (r : Fin 8) (e : End), Does (.lossOfSignalCleared r e) s fun t =>
      t = s.onLine r (fun l => { l with los := l.los.set (endIdx e) false }))
  ∧ (∀ s : State, s.isPair = true → s.ringPath = false → Does .ringPresenceTimeout s fun t =>
      t = s.onRing (fun x => { x with lost := true }))
  ∧ (∀ (s : State) (r : Fin 8) (w : Nat), s.sized → (s.line r).wholeSince = some w → (s.line r).st = .degraded →
    w + 1000000000 ≤ s.now → Does (.ringRestore r) s fun t =>
      (t.line r).st = .degraded ∧ (t.line r).restoreAt = some (atOrAfter s.now 4000000))
  ∧ (∀ (s : State) (g r a : Nat), s.sized → r < 8 → (s.line r).restoreAt = some a → a ≤ g → g % 4000000 = 0 →
    ((s.restoreLine g r).line r).st = .normal ∧ ((s.restoreLine g r).line r).reachA = s.ringCount r
    ∧ ((s.restoreLine g r).line r).reachB = s.ringCount r ∧ (s.restoreLine g r).Saw Ev.ringRestored [(r : Int)])
  ∧ (∀ (s : State) (k : Fin 34) (r p : Nat), s.placeOf k = some (r, p) → s.isPair = false → Does (.delayMeasure k) s fun t =>
      t = s.emit (.ringService r .a 6 (ringHeader 6 .a s.isSolo r s.cls p 0 s.now s.now) [p]))
  ∧ (∀ (s : State) (k : Fin 34) (r p : Nat), s.placeOf k = some (r, p) → s.isPair = true → s.time.leader = true →
    Does (.delayMeasure k) s fun t => t = s.ringService r s.ownEnd 6 p [p])
  ∧ (∀ (s : State) (k : Fin 34) (r p rt tot o : Nat), s.placeOf k = some (r, p) → s.sized →
    Does (.delayReceived k rt tot o) s fun t => (t.station k).delay = Config.quot ((rt : Int) - tot) 2 + o)
  ∧ (∀ (s : State) (r : Fin 8), s.sized → Does (.ringStatRead r) s fun t =>
      t.out = .read (Reg.ringStat + 4 * r.val) (s.ringStat (s.line r)) :: s.out ∧ (t.line r).crcErr = 0)

/-- 04 R91, R93, R97, R102 to R104, R107, 01 R22: what comes in from a ring: a frame at a port that the configuration leaves unused is a
miswired ring; a bad check value is counted and nothing else is taken; an unwrapped crossing is noted for its direction; the slots of a
SWEEP or CATCHUP frame are taken one after another, and handed to the partner. -/
def Obligations.RingReception : Prop :=
  (∀ (s : State) (r : Fin 8) (e : End) (b : List Byte) (c : Bool), s.ownsEnd e = false → (s.line r).miswired = false →
    s.sized → Does (.ringFrameReceived r e b c) s fun t =>
      (t.line r).miswired = true ∧ t.Saw Ev.ringMiswired [(r.val : Int), endIdx e])
  ∧ (∀ (s : State) (r : Fin 8) (e : End) (b : List Byte) (c : Bool), s.ownsEnd e = true →
    b.length < 16 ∨ crc16 (slice b 0 14) ≠ leAt b 14 2 → Does (.ringFrameReceived r e b c) s fun t =>
      t = s.onLine r (fun l => { l with crcErr := min 65535 (l.crcErr + 1) }))
  ∧ (∀ (s : State) (r : Fin 8) (b : List Byte), s.isPair = false → 16 ≤ b.length → crc16 (slice b 0 14) = leAt b 14 2 →
    byteAt b 1 % 8 = r.val → (s.line r).st = .normal → byteAt b 0 % 16 = 1 → byteAt b 0 / 16 % 4 = 0 →
    Does (.ringFrameReceived r .b b true) s fun t =>
      t = (s.crossed r .a false).takeSlots r .a (byteAt b 2 % 8) (byteAt b 2 / 8 % 8) (leAt b 4 2) false s.now b)
  ∧ (∀ (s : State) (r p grid receipt : Nat) (late keep : Bool) (b : List Byte),
    (checkSlot (slotSeed r p grid) b).prim = none → (checkSlot (slotSeed r p grid) b).sec = none →
    (checkSlot (slotSeed r p grid) b).side = none →
    let u := s.takeSlot r p grid late keep receipt b
    u.ring.cur = s.ring.cur ∧ u.ring.late = s.ring.late ∧ u.ring.msgs = s.ring.msgs ∧ u.ring.owed = s.ring.owed)
  ∧ (∀ (s : State) (r : Fin 8) (e : End) (p k kind : Nat), s.stationAt r p = some k → s.ownsEnd e = true → (s.station k).starting = true →
    Does (.configFrameReceived r e p kind false) s fun t =>
      t = s.emit (.ringService r e 5 (ringHeader 5 e s.isSolo r s.cls p 0 s.now s.now) [(p : Int), kind]))
  ∧ (∀ (s : State) (r : Fin 8) (e : End) (p k : Nat), s.stationAt r p = some k → s.ownsEnd e = true → (s.station k).starting = true →
    s.sized → k < 34 → Does (.configFrameReceived r e p 2 true) s fun t =>
      (t.station k).starting = false ∧ (t.station k).unconf = false ∧ (t.station k).cnt = (s.station k).cnt)

/-- 04 R98, R100, R103, R111, R114, R115, 01 R24, R27, 18 R456: how stations are found, lost, returned and loaded. A ring without mapped
stations stays off; both ends' DISCOVER judge it; the start is done with the first SWEEP at the next 4 ms grid instant; a station that
misses DROP + 1 sweeps in a row is lost, and comes back after as many good ones; a command count that does not add up is reported. -/
def Obligations.StationCommands : Prop :=
  (∀ (s : State) (r : Fin 8), mapCommitted s.cfg = true → s.ringCount r = 0 → Does (.ringStart r) s fun t =>
    t = s.onLine r (fun _ => RingLine.reset))
  ∧ (∀ (s : State) (r : Fin 8), s.sized → s.isPair = false → s.ringCount r ≠ 0 → Does (.ringStart r) s fun t =>
    (t.line r).st = .start ∧ t.out = .ringService r .b 4 (ringHeader 4 .b s.isSolo r s.cls 0 0 s.now s.now) []
      :: .ringService r .a 4 (ringHeader 4 .a s.isSolo r s.cls 0 0 s.now s.now) [] :: s.out)
  ∧ (∀ (s : State) (r : Fin 8) (e : End) (w : Bool) (f : List Found), (s.line r).st = .start → Does (.discoverReceived r e w f) s fun t =>
    t = ((s.takeFound r e w f).judgeRing r).mapFound)
  ∧ (∀ (s : State) (r : Nat), (s.line r).st = .start → (s.line r).found.all (fun f => f.isSome) = true → s.ringRefused r = true →
    (s.judgeRing r).rec_.detected = s.rec_.detected ++ [⟨eventOf s.sysNs, Ev.ringCountMismatch.code, Ev.ringCountMismatch.sev,
      [(r : Int), ((s.line r).foundOf 0).length, ((s.line r).foundOf 1).length, s.ringNumber r]⟩])
  ∧ (∀ (s : State) (r : Fin 8), (s.line r).st = .start → s.sized → mapCommitted s.cfg = true →
    (s.line r).found.all (fun f => f.isSome) = true → (s.line r).whole = true → s.ringNumber r ≠ 0 → Does (.ringStartDone r) s fun t =>
      (t.line r).st = .normal ∧ (t.line r).reachA = s.ringNumber r ∧ (t.line r).reachB = s.ringNumber r
      ∧ (t.line r).startAt = nextMultiple s.now 4000000)
  ∧ (∀ (s : State) (n : Fin 8), n.val < s.links → (s.receiver n).known = true → s.gate.stage = .off ∨ s.gate.stage = .armed →
    Does (.stationFwLoadDone true n s.life.parts.receiver) s fun t =>
      t = (s.onReceiver n (fun x => { x with version := s.life.parts.receiver })).linkConfig n)
  ∧ (∀ (s : State) (n : Fin 8) (k p : Nat), (k, n.val, p) ∈ s.map → s.sized → k < 34 → (s.station k).present = true →
    Does (.stationFwLoadDone false n (s.preferred k)) s fun t => t.station k = s.loadStation (decide ((s.line n).st = .start)) k (s.station k))
  ∧ (∀ (s : State) (k : Nat) (x : Station), x.fw ≠ s.preferred k →
    (s.loadStation true k x).fw = s.preferred k ∧ (s.loadStation true k x).fwPending = none
    ∧ (s.listed k x.fw = true → (s.loadStation false k x).fwPending = some (s.preferred k) ∧ (s.loadStation false k x).fw = x.fw)
    ∧ (s.listed k x.fw = false → s.loadStation false k x = x))
  ∧ (∀ (s : State) (k : Fin 34) (v : Word), (s.station k).fwPending = some v → s.sized →
    Does (.stationFwSlotChange k) s fun t => (t.station k).fw = v ∧ (t.station k).fwPending = none)
  ∧ (∀ (s : State) (n : Nat), (∀ k, k < 34 → (s.station k).issued =
      (s.station k).executed + (s.station k).gaps + (s.station k).refused + (s.station k).waitingCnt) →
    Does (.ringCmdCountCheck n) s fun t => t = s.advance (n * 1000000000))
  ∧ (∀ (s : State) (n k : Nat), k < 34 → (s.station k).issued ≠
      (s.station k).executed + (s.station k).gaps + (s.station k).refused + (s.station k).waitingCnt →
    Does (.ringCmdCountCheck n) s fun t => t.Saw Ev.ringCmdCount [stationNo k, (s.station k).issued, (s.station k).executed,
      (s.station k).gaps, (s.station k).refused, (s.station k).waitingCnt] ∧ t.ring = s.ring)
  ∧ (∀ (s : State) (k : Fin 34), s.mapped k = true → (s.station k).pLost = false → s.drop ≤ (s.station k).pMiss →
    Does (.stationLost k) s fun t =>
      t = ((s.onStation k (fun y => { y with pLost := true })).raise Ev.stationLost [stationNo k]).causeAll 1 (stationNo k).toNat)
  ∧ (∀ (s : State) (k : Fin 34), s.mapped k = true → (s.station k).sLost = false → s.drop ≤ (s.station k).sMiss →
    Does (.stationSecLost k) s fun t => t = (s.onStation k (fun y => { y with sLost := true })).raise Ev.stationSecLost [stationNo k])
  ∧ (∀ (s : State) (k : Fin 34), (s.station k).pLost = true → s.drop ≤ (s.station k).pGood → (s.station k).unconf = false →
    Does (.stationReturned k) s fun t =>
      t = (s.onStation k (fun y => { (y.resync y.cnt false) with pLost := false })).raise Ev.stationReturned [stationNo k])
  ∧ (∀ (s : State) (k : Fin 34), (s.station k).sLost = true → s.drop ≤ (s.station k).sGood → Does (.stationSecReturned k) s fun t =>
      t = (s.onStation k (fun y => { y with sLost := false })).raise Ev.stationSecReturned [stationNo k])

/-- 05 R118 to R125, R127 to R131: the checks of the measurements. A second's means that differ are compared against the third path in
their third second, and 60 s of agreement end a judgement; ten sweeps of a wrong sum or of a driven unused channel are an event; open-wire
tests run as rounds of the even and then the odd inputs, again 1 s after an inconclusive shift, and on suspicion; a verdict opens a tap,
three intact results close it; calibration runs a step every 2 s. -/
def Obligations.MeasurementCommands : Prop :=
  (∀ (s : State) (n : Nat), s.meas.disRun ≠ 2 ∨
      differs (s.meas.curSum.getD 0 0) (s.meas.curN.getD 0 0) (s.meas.curSum.getD 1 0) (s.meas.curN.getD 1 0) = false →
    Does (.currentCompare n) s fun t => t.meas.curSum = [0, 0, 0, 0, 0] ∧ t.meas.curN = [0, 0, 0, 0, 0] ∧ t.meas.wrong = s.meas.wrong
      ∧ t.meas.agreeFrom = (s.meas.compare (s.advance (n * secNs)).now).agreeFrom ∧ t.rec_ = s.rec_)
  ∧ (∀ (s : State) (n : Nat), s.meas.disRun = 2 →
      differs (s.meas.curSum.getD 0 0) (s.meas.curN.getD 0 0) (s.meas.curSum.getD 1 0) (s.meas.curN.getD 1 0) = true →
    Does (.currentCompare n) s fun t => t.Saw Ev.currentDisagree
      ((List.range 3).map (fun j => meanOf (s.meas.curSum.getD j 0) (s.meas.curN.getD j 0)) ++ [(judge s.meas.curSum s.meas.curN : Int)]))
  ∧ (∀ (s : State) (a : Nat), s.meas.judgedFrom = some a → Does .currentJudgementEnd s fun t =>
      t.meas.wrong = mapIdxL (fun j (x : Bool) => x && decide (s.meas.agreeFrom.getD j none ≠ some a)) s.meas.wrong
      ∧ t.ledger.held = none ∧ t.now = (s.advance (a + 60 * secNs)).now)
  ∧ (∀ (s : State) (k : Fin 32) (c : Fin 2), (s.stM k).sumRun.getD c 0 = 10 → Does (.sumMismatch k c) s fun t =>
      t = (((s.onStM k (fun x => { x with sumRun := x.sumRun.set c 11 })).raise Ev.sumMismatch
        [(k.val : Int), c.val, (s.stM k).sumDiff.getD c 0]).orderTest k 0).orderTest k (s.usedOf k))
  ∧ (∀ (s : State) (k : Fin 32) (c : Fin 16), (s.stM k).unused.getD c 0 = 10 → Does (.unusedChannel k c) s fun t =>
      t = (s.onStM k (fun x => { x with unused := x.unused.set c 11 })).raise Ev.unusedChannel [(k.val : Int), c.val])
  ∧ (∀ (s : State) (n : Nat), Does (.measCompare n) s fun t =>
      let u := (s.advance (n * secNs)).diagnose
      t = (List.range u.cellCount).foldl (fun v c => v.compareCell c) u)
  ∧ (∀ (s : State) (c : Nat), (s.cell c).psRun = 9 → (s.cell c).n ≠ 0 → c < 512 → s.sized →
      Fld.measCfg_PS s.cfg * 1000 * (s.cell c).n < mag ((s.cell c).sumP - (s.cell c).sumS) →
    (s.compareCell c).Saw Ev.measDisagree [(c : Int), meanOf ((s.cell c).sumP - (s.cell c).sumS) (s.cell c).n]
    ∧ ((s.compareCell c).cell c).flagP = (!s.sumHolds (c / 16) 0 && s.sumHolds (c / 16) 1)
    ∧ ((s.compareCell c).cell c).flagS = (s.sumHolds (c / 16) 0 && !s.sumHolds (c / 16) 1))
  ∧ (∀ (s : State) (k : Fin 32), Does (.owRound k) s fun t =>
      let g := atOrAfter (s.now - k * 300000000) (Fld.measCfg_OW_PERIOD s.cfg * 10 * secNs) + k * 300000000
      t = ((s.advance g).openWire k 0x15555).onStM k (fun m => { m with oddAt := some (g + 40000000) }))
  ∧ (∀ (s : State) (k mask : Nat), s.mapped k = true → (s.station k).present = true →
      s.openWire k mask = (s.command k 2 (Nat.land mask (s.inputs k))).onStM k (fun m =>
        { m with tests := ((s.now, Nat.land mask (s.inputs k)) :: m.tests).take 8 }))
  ∧ (∀ (s : State) (k : Fin 32) (a : Nat), (s.stM k).oddAt = some a →
    Does (.owOddStart k) s fun t =>
      t = ((s.advance a).openWire k 0x0AAAA).onStM k (fun m => { m with oddAt := none }))
  ∧ (∀ (s : State) (k : Fin 32) (i : Fin 17) (a : Nat), (s.tap k i).retestAt = some a →
    Does (.owRetest k i) s fun t => t = ((s.advance a).openWire k (2 ^ i.val)).onTap k i
      (fun x => { x with retestAt := none, retests := x.retests + 1 }))
  ∧ (∀ (s : State) (k : Fin 32) (i : Fin 17), (s.tap k i).ordered = true →
    (s.tap k i).testedAt = none → Does (.owSuspicionTest k i) s fun t =>
      t = (s.openWire k (2 ^ i.val)).onTap k i (fun x => { x with ordered := false, testedAt := some s.now }))
  ∧ (∀ (s u : State) (k : Fin 32) (b : List Byte), s.takeMessage k 3 = (u, some b) → Does (.openWireResultMessage k) s fun t =>
      t = (List.range 17).foldl (fun v i => if leAt b 2 3 / 2 ^ i % 2 = 1 then
        v.tapResult k i (decide (leAt b 40 3 / 2 ^ i % 2 = 1)) (sleAt b (6 + 2 * i) 2) else v)
        (u.onStation k (fun x => { x with ow := x.ow - Nat.land x.ow (leAt b 2 3) })))
  ∧ (∀ (s : State) (k i : Nat) (x : Int), (s.tap k i).open_ = false → (s.tapResult k i true x) =
      (s.onTap k i (fun y => { y with suspect := false, open_ := true, intact := 0, retests := 0, retestAt := none, ordered := false })).raise Ev.senseWireOpen [((16 * k + i : Nat) : Int), k, i, x])
  ∧ (∀ (s : State) (k : Fin 32) (c : Nat), (s.stM k).calStep = some c → Does (.calStepIssue k) s fun t =>
      t = ((s.advance ((s.stM k).calAt.getD 0 + 2 * c * secNs)).command k 4 c).onStM k
        (fun x => { x with calStep := if c < 16 then some (c + 1) else none }))
  ∧ (∀ (s u : State) (k : Fin 32) (b : List Byte) (d : Int), s.takeMessage k 5 = (u, some b) → 200 < mag d →
    Does (.calibrationRecordMessage k d) s fun t => t = u.raise Ev.calDrift [(k.val : Int), clampI (-32768) 32767 d])
  ∧ (∀ (s : State) (k : Fin 34), Does (.stationEventMessage k) s fun t => t = (s.takeMessage k 6).1)
  ∧ (∀ (s u : State) (k : Fin 34) (b : List Byte) (n : Nat) (x : BitVec 64), s.takeMessage k 1 = (u, some b) →
    u.ledger.starts.getD k none = none → Does (.identificationMessage k n x) s fun t =>
      t = ((if (u.station k).serial = x then u else u.stationStart k).onLedger (fun l => { l with starts := l.starts.set k (some (n, x.toNat)) })).onStation k (fun y => { y with serial := x }))

/-- 05 R135, R137, R138, R140, R141: balancing. In voltage mode at rest a cell above the mean lowest voltage by the window is a candidate, and
stays one down to the window less its hysteresis; in charge mode every 60 s by the estimated charge; a channel without a decision for 2 h
is off; a station's counters book the charge that its resistors took, and tell its duty. -/
def Obligations.BalancingCommands : Prop :=
  (∀ (s : State) (n : Nat), Fld.balCfg_MODE s.cfg = 1 → 30 * secNs ≤ s.meas.rest → s.meas.lows.length ≠ 0 → Does (.balDecision n) s fun t =>
      t = (s.advance (n * secNs)).balDecide)
  ∧ (∀ (s : State) (sum v : Int) (n c : Nat) (x : Cell), s.decisionVolt c = some v → x.on = false →
    (s.balDecided sum n c x).cand = decide (1000 * (Fld.balCfg_WINDOW s.cfg : Int) * n < v * n - sum))
  ∧ (∀ (s : State) (sum v : Int) (n c : Nat) (x : Cell), s.decisionVolt c = some v → x.on = true →
    (s.balDecided sum n c x).cand = decide (1000 * ((Fld.balCfg_WINDOW s.cfg - Fld.balCfg_HYST s.cfg : Nat) : Int) * n < v * n - sum))
  ∧ (∀ (s : State) (sum : Int) (n c : Nat) (x : Cell), s.decisionVolt c = none → s.balDecided sum n c x = x)
  ∧ (∀ s : State, Fld.balCfg_MODE s.cfg = 2 → Does .balChargeUpdate s fun t =>
      t = s.onMeas (fun m => { m with cells := mapIdxL s.chargeDecided m.cells }))
  ∧ (∀ (s : State) (c : Nat) (x : Cell), (s.chargeDecided c x).cand =
    if c ∈ s.chargeCells then
      if x.cand then decide (2000000 ≤ (s.est.pub.getD c EstCell.reset).model.soc - s.chargeLow)
      else decide (5000000 < (s.est.pub.getD c EstCell.reset).model.soc - s.chargeLow)
    else false)
  ∧ (∀ (s : State) (c : Fin 512), Fld.balCfg_MODE s.cfg = 1 → (s.cell c).on = true → Does (.balChannelTimeout c) s fun t =>
      t = (s.advance (max (s.cell c).onAt s.meas.decidedAt + 2 * hourNs)).onCell c (fun y => { y with cand := false }))
  ∧ (∀ (s u : State) (k : Fin 32) (b : List Byte), s.takeMessage k 4 = (u, some b) → s.sized →
    Does (.balancingCountersMessage k) s fun t => (t.stM k).duty = leAt b 2 2 ∧ (t.stM k).unheard = 0
      ∧ t.ledger.balWait = u.ledger.balWait ++ [⟨u.now, k, if (u.stM k).unheard = 0 then 0 else 1,
        (List.range 16).map (fun c => leAt b (4 + 4 * c) 4), 0, []⟩])
  ∧ (∀ (s u : State) (k : Fin 32) (b : List Byte), s.takeMessage k 4 = (u, some b) → leAt b 2 2 < 10000 →
    (u.stM k).deratedAt = none → Does (.balancingCountersMessage k) s fun t => t.Saw Ev.balDerated [(k.val : Int), leAt b 2 2])

/-- 06 R150, R155, R157, R159, R162: estimates. A sweep's estimates are published at its release; a whole second hands the corrections'
whole millicoulombs to the ledger, keeps the checkpoint, and tells new capacities once a day; the blocks of the running engines are sent
at the first sweep released at or after each multiple of OUT_INT. -/
def Obligations.EstimateCommands : Prop :=
  (∀ (s : State) (g : Nat), s.est.release = some g → Does .estimateRelease s fun t =>
    t.est.pub = s.est.cells ∧ t.est.pubAt = g ∧ t.est.pubI = s.est.iSweep ∧ t.est.pubSrc = s.est.iSrc ∧ t.est.release = none
    ∧ t.est.cells = s.est.cells)
  ∧ (∀ (s : State) (n : Nat), Does (.estimatorCheckpoint n) s fun t =>
    t.est.ckpt = t.est.cells ∧ t.est.ckptAt = (s.advance (n * secNs)).now
    ∧ t.ledger.adjust = mapIdxL (fun c (a : Int) => a + s.handOver c) s.ledger.adjust
    ∧ t.est.cells = mapIdxL (fun c (x : EstCell) => { x with corr := x.corr - 1000 * s.handOver c }) s.est.cells)
  ∧ (∀ (s : State) (n : Nat), s.est.capN ≠ 0 → s.est.capTold = none → Does (.estimatorCheckpoint n) s fun t =>
    t.est.capN = 0 ∧ t.Saw Ev.capacityUpdated [(s.est.capN : Int), Config.quot s.est.capMax 3600000])
  ∧ (∀ s : State, s.estBlocksDue = true → Does .estBlockSend s fun t =>
    t = (s.estEngines.foldl State.sendEstBlock s).onEst (fun x => x.told s.released))
  ∧ (∀ s : State, s.estBlocksDue = false → Does .estBlockSend s fun t => t = s)

/-- 06 R163 to R167, R170 to R174, Table 6.13: impedance runs. A start is skipped while the stage does not run, while runs are disabled, or
while a trace injects; a segment that finds too little headroom is tried again every second, for 60 s; a window that the current
disturbed is discarded; after the last window of segment 3 the run is complete. -/
def Obligations.ImpedanceCommands : Prop :=
  (∀ (s : State) (r : Nat), s.est.imp.request = some r → s.est.imp.phase = .idle → s.gate.stage = .run →
    (s.loop.diags.getD 2 Diag.reset).injecting = false → Does (.impRunStart true) s fun t =>
      t = ((s.advance r).onImp (fun i => { i with request := none })).impBegin 1)
  ∧ (∀ (s : State) (r : Nat), s.fabric.profile = 0 → s.est.imp.request = some r → r ≤ (s.advance s.impNext).now → s.est.imp.phase = .idle →
    s.gate.stage = .run → (s.loop.diags.getD 2 Diag.reset).injecting = false → Does (.impRunStart false) s fun t =>
      t = ((s.advance s.impNext).onImp (fun i => { i with request := none })).impBegin 1)
  ∧ (∀ s : State, s.fabric.profile = 0 → s.est.imp.request = none → s.est.imp.phase = .idle → s.gate.stage = .run →
    Fld.impCfg_ENABLE s.cfg = true → (s.loop.diags.getD 2 Diag.reset).injecting = false → Does (.impRunStart false) s fun t =>
      t = (s.advance (atOrAfter s.now 180000000000)).impBegin 0)
  ∧ (∀ s : State, s.fabric.profile = 0 → s.est.imp.request = none → s.est.imp.phase = .idle → s.gate.stage ≠ .run →
    Does (.impRunStart false) s fun t => t = (s.advance (atOrAfter s.now 180000000000)).impSkip 0)
  ∧ (∀ (s t : State) (q : Fin 32) (d : Desc), s.Turn q 0x30 anyArg d t → t.est.imp.phase = .idle → t.gate.stage = .run →
    exec (.impRun q) s = .next ((t.forward d.cmd 0 State.applyImpRun).ends q 0 0 []))
  ∧ (∀ s : State, s.applyImpRun.est.imp.request = some (nextMultiple s.now 180000000000))
  ∧ (∀ s : State, s.est.imp.phase = .waiting → s.est.imp.waited = 0 → s.impReady = true → Does .impSegmentStart s fun t => t = s.impStart)
  ∧ (∀ s : State, s.est.imp.phase = .waiting → s.est.imp.waited = 0 → s.impReady = false → Does .impSegmentStart s fun t =>
      t.est.imp.waited = 1 ∧ t.est.imp.ts = s.now)
  ∧ (∀ s : State, s.est.imp.phase = .waiting → s.est.imp.waited ≠ 0 → s.impReady = true → Does .impHeadroomRetest s fun t =>
      t = (s.advance (s.est.imp.ts + secNs)).impStart)
  ∧ (∀ s : State, s.est.imp.phase = .waiting → 60 ≤ s.est.imp.waited → s.impReady = false → Does .impHeadroomRetest s fun t =>
      t.est.imp.phase = .idle ∧ t.est.imp.done.getLast?.map (fun d => (d.abandoned, d.run)) = some (true, s.est.imp.run)
      ∧ t.Saw Ev.impRunAbandoned [(s.est.imp.run.toNat : Int), s.est.imp.seg, 2])
  ∧ (∀ s : State, s.est.imp.phase = .measuring → s.impDiscards = true → Does .impWindowEnd s fun t =>
      t = ((s.advance (s.est.imp.ts + (s.est.imp.win + 1) * segWindow s.est.imp.seg)).lockin (0x40000000 + s.est.imp.win)).impAdvance)
  ∧ (∀ s : State, s.est.imp.phase = .measuring → s.impDiscards = false → Does .impWindowEnd s fun t =>
      t = (s.advance (s.est.imp.ts + (s.est.imp.win + 1) * segWindow s.est.imp.seg)).impAdvance)
  ∧ (∀ s : State, s.est.imp.win + 1 < segWindows s.est.imp.seg →
    s.impAdvance.est.imp.win = s.est.imp.win + 1 ∧ s.impAdvance.est.imp.seg = s.est.imp.seg ∧ s.impAdvance.est.imp.phase = s.est.imp.phase)
  ∧ (∀ s : State, segWindows s.est.imp.seg ≤ s.est.imp.win + 1 → s.est.imp.seg < 3 →
    s.impAdvance.est.imp.seg = s.est.imp.seg + 1 ∧ s.impAdvance.est.imp.win = 0 ∧ s.impAdvance.est.imp.phase = .waiting)
  ∧ (∀ s : State, segWindows s.est.imp.seg ≤ s.est.imp.win + 1 → 3 ≤ s.est.imp.seg →
    s.impAdvance.est.imp.phase = .idle ∧ s.impAdvance.est.imp.lastOk = true
    ∧ s.impAdvance.est.imp.done.getLast?.map (fun d => (d.abandoned, d.run, d.segsDone)) = some (false, s.est.imp.run, 4))
  ∧ (∀ (s u : State) (k : Fin 34) (b : List Byte), s.takeMessage k 2 = (u, some b) → Does (.lockinResultMessage k) s fun t =>
      t.est.imp.tones.length = u.est.imp.tones.length + 1 ∧ t.est.imp.tones.take u.est.imp.tones.length = u.est.imp.tones
      ∧ t.est.imp.tones.getLast?.map (fun x => (x.station, x.seg, x.tone, x.grid, x.acc, x.sflags)) =
        some (k.val, byteAt b 2 % 4, byteAt b 2 / 4 % 8, BitVec.ofNat 16 (leAt b 0 2), byteAt b 3, byteAt b 4))
  ∧ (∀ (s : State) (d : DoneRun) (l : List DoneRun), s.est.imp.done = d :: l → Does .spectrumSend s fun t =>
      t = (s.impSums d).sendSpectra d)
  ∧ (∀ (s : State) (d : DoneRun) (c n : Nat) (v cur : Tone), s.toneOf d (c / 16) n = some v → s.toneOf d (32 + s.primaryCs) n = some cur →
    (s.point d c n).valid = true → stackOk v.ph = true ∧ minWindows (n / 6) ≤ v.acc ∧ minWindows (n / 6) ≤ cur.acc ∧ n / 6 < d.segsDone)

/-- 07 R192, R194 to R197, R200 to R202, R206: the commands of the ledger. 5 ms after a second its adjustments are posted to the live
balances and to the image copy; by 8 ms the image is in MRAM, in the older place, and the second's records leave; while writes are barred
they wait; a supply loss leaves the module off with every output off; the gap after a start is booked once; a note and a replay follow
their own checks. -/
def Obligations.LedgerCommands : Prop :=
  (∀ (s : State) (i : Image), s.ledger.writing = some i → s.ac23Reloading = false →
    (i.bal.postAll s.ledger.adjDue).failed s.cellCount = none → (s.ledger.bal.postAll s.ledger.adjDue).failed s.cellCount = none →
    Does .ledgerSecond s fun t => t.ledger.bal = s.ledger.bal.postAll s.ledger.adjDue ∧ t.ledger.adjDue = []
      ∧ t.ledger.writing.map (fun j => j.bal) = some (i.bal.postAll s.ledger.adjDue) ∧ t.rec_ = s.rec_)
  ∧ (∀ (s : State) (i : Image), s.ledger.writing = some i → s.ac23Reloading = false → s.ledger.adjDue = [] → s.nvmBarred = true →
    Does .ledgerImageWritten s fun t => t = (s.advance (s.fineOf i.w + 8000000)).onLedger (fun l => { l with writing := none }))
  ∧ (∀ (s : State) (i : Image), s.ledger.writing = some i → s.ac23Reloading = false → s.ledger.adjDue = [] → s.nvmBarred = false →
    Does .ledgerImageWritten s fun t => t = (((s.advance (s.fineOf i.w + 8000000)).onLedger (fun l =>
      { l with writing := none, images := l.images.set l.place (some i), place := 1 - l.place })).saveEst).releaseUpTo i)
  ∧ (∀ (s : State) (i : Image), s.ledger.writing = some i → s.ac23Reloading = true ∨ s.ledger.adjDue ≠ [] →
    Does .ledgerImageWritten s fun t => t = s)
  ∧ (∀ (s : State) (image copies header : Bool) (written : Nat), Does (.supplyLoss image copies header written) s fun t =>
      t.life.phase = .off ∧ t.gate.stage = .off ∧ t.twin.txOff = true
      ∧ t.safety.outs.all (fun o => !o.hi && !o.lo) = true)
  ∧ (∀ (s : State) (i : Image) (g : Nat), s.ledger.gap = some i → s.ledger.gapFrom = some g → s.gapDue i = true →
    Does .ledgerGapBooking s fun t => t = s.bookGap i g)
  ∧ (∀ (s : State) (i : Image) (g : Nat), s.ledger.gap = some i → s.ledger.gapFrom = some g → s.gapDue i = false →
    Does .ledgerGapBooking s fun t => t = s)
  ∧ (∀ (s : State) (i : Image) (g : Nat), (s.bookGap i g).ledger.gap = none ∧ (s.bookGap i g).ledger.gapFrom = none
      ∧ (s.bookGap i g).est.predTo = g)
  ∧ (∀ (s t : State) (q : Fin 32) (d : Desc), s.Turn q 0x40 anyArg d t → d.dataLen = 24 → d.signed = false →
    exec (.ledgerNote q) s = .next ((t.acceptForwarded d.cmd 0).ends q 0 0 []))
  ∧ (∀ (s t : State) (q : Fin 32) (d : Desc), s.Turn q 0x40 anyArg d t → d.dataLen ≠ 24 → d.signed = false →
    exec (.ledgerNote q) s = .next (t.refuses q St.fieldRange 16))
  ∧ (∀ (s : State) (c : Cmd), s.ledger.books = true →
      s.applyNote c = s.bookMarker 2 (leAt c.arg 0 2) 0 ((List.range 24).map (fun i => ((byteAt c.data i : Nat) : Int))))
  ∧ (∀ (s t : State) (q : Fin 32) (d : Desc) (r : LedgerRec) (l : List LedgerRec), s.Turn q 0x41 anyArg d t →
    d.argLe 0 8 ≤ d.argLe 8 8 → t.ledger.store = r :: l → r.lseq.toNat ≤ d.argLe 0 8 →
    exec (.ledgerReplay q) s = .next (((t.ledger.store.filter (fun x => x.within (d.argLe 0 8) (d.argLe 8 8))).foldl
      (fun u x => u.release 3 ({ x with flags := x.flags + 4 }.toStream u.ledger.number)) t).ends q 0 0 []))
  ∧ (∀ (s t : State) (q : Fin 32) (d : Desc) (r : LedgerRec) (l : List LedgerRec), s.Turn q 0x41 anyArg d t →
    d.argLe 0 8 ≤ d.argLe 8 8 → t.ledger.store = r :: l → d.argLe 0 8 < r.lseq.toNat →
    exec (.ledgerReplay q) s = .next (t.refuses q St.ledgerGone 0))
  ∧ (∀ s : State, Does .ledgerLseqLoRead s fun t =>
      t = (s.emit (.read Reg.ledgerLseq (s.ledger.lseq.setWidth 32))).onLedger
        (fun l => { l with hiLatch := (l.lseq >>> 32).setWidth 32 }))

/-- 07 R183, R184: every posting keeps the cell equation of every used cell and the sums of the sub-accounts: a sweep or path entry's charge
to S and its path's sub-account, an unobserved midpoint to U, a balancing amount from one cell, and an adjustment to one cell and to A. -/
def Obligations.PostingsKeepTheCellEquation : Prop :=
  ∀ (b : Balances) (n k : Nat), k < n → k < b.c.length → b.c.length = b.b.length → b.c.length = b.a.length →
    b.cellOk k = true → b.sumsOk = true →
    (∀ (path : Nat) (q : Int), path < 3 → (b.postS n path q).cellOk k = true ∧ (b.postS n path q).sumsOk = true)
    ∧ (∀ m : Int, (b.postU n m).cellOk k = true ∧ (b.postU n m).sumsOk = true)
    ∧ (∀ (j : Nat) (x : Int), (b.postB j x).cellOk k = true ∧ (b.postB j x).sumsOk = true)
    ∧ (∀ (j : Nat) (x : Int), j < b.c.length → (b.postA j x).cellOk k = true ∧ (b.postA j x).sumsOk = true)

/-- 07 R185, R189: how a sweep entry and an unobserved entry are booked: whole millicoulombs toward zero with the rest carried, to every used
cell, under the next number; the midpoint of the bounds to U and to every used cell, with the event. -/
def Obligations.LedgerEntries : Prop :=
  (∀ (s : State) (path : Nat) (nC : Int) (d : Bool) (upTo : Nat),
    let t := s.bookSweep path nC d upTo
    t.ledger.bal = s.ledger.bal.postS s.cellCount path ((s.ledger.rem + nC).tdiv 1000000)
    ∧ t.ledger.rem = (s.ledger.rem + nC).tmod 1000000 ∧ t.ledger.lseq = s.ledger.lseq + 1 ∧ t.ledger.booked = upTo
    ∧ t.ledger.sweeps = s.ledger.sweeps + 1)
  ∧ (∀ (s : State) (cause : Nat) (lo hi : Int) (from_ : Nat),
    let t := s.bookUnobserved cause lo hi from_
    t.ledger.bal = s.ledger.bal.postU s.cellCount ((lo + hi).tdiv 2) ∧ t.ledger.lseq = s.ledger.lseq + 1
    ∧ t.Saw Ev.ledgerUnobserved [lo, hi, cause])
  ∧ (∀ (s : State) (kind old new : Nat) (nC : Int) (from_ : Nat),
    let t := s.bookPath kind old new nC from_
    t.ledger.bal = s.ledger.bal.postS s.cellCount new (nC.tdiv 1000000) ∧ t.ledger.rem = s.ledger.rem + nC.tmod 1000000
    ∧ t.Saw Ev.ledgerPath [(s.ledger.lseq.toNat : Int), nC.tdiv 1000000, kind, old, new])

/-- 08 R209, R210, R217, R218, R223, R249: the gate links. An EDGE frame leaves for every phase of a link in use while no STOP has been sent,
with MODE off for a phase that is not in service; no other phase sends one; a STATUS frame with a wrong check changes nothing; a valid one
is taken and, in the pair, handed on; the link start and the receivers' identification, and the delays written each second. -/
def Obligations.GateCommands : Prop :=
  (∀ (s : State) (p : Fin 16), s.edgesOn p = false → Does (.edgeRelease p) s fun t => t = s)
  ∧ (∀ (s : State) (p : Fin 16), s.edgesOn p = true → Does (.edgeRelease p) s fun t =>
      let k := max ((s.phase p).sent + 1) (firstFrom s.fsw (2 * s.now + 8000 - (s.phase p).shift))
      let u := s.advance ((baseStart s.fsw k + (s.phase p).shift - 8000) / 2)
      let due := s.gate.switching && (s.phase p).active && (s.phase p).restartDue u.now
      let drive := s.gate.switching && (s.phase p).active && (!(s.phase p).waiting || due)
      t = ((u.edgeRestart p k (s.phase p).shift drive).edgeFrame p k drive due).shedProgress)
  ∧ (∀ (s : State) (p k : Nat) (drive due : Bool), (s.edgeFrame p k drive due).out =
      .gate (p / 2) (gateSeal (p / 2) (BitVec.ofNat 32 k) (s.gateHead 1 (p % 2) due (p / 2) (BitVec.ofNat 32 k)
        ++ packBytes [(8, s.now), (1, (bit drive : Nat)), (3, (s.phase p).shift), (3, (s.phase p).on), (3, (s.phase p).off)])) :: s.out)
  ∧ (∀ (s : State) (p k : Nat) (x : PhaseLoop), s.phase p = x → p < s.loop.phases.length → x.ready = false →
    ((s.edgeRestart p k 0 true).phase p).done = k)
  ∧ (∀ (s : State) (l : Fin 8) (b : List Byte) (x : Int), parseStatus l b = none → Does (.gateStatusReceived l b x) s fun t => t = s)
  ∧ (∀ (s : State) (l : Fin 8) (b : List Byte) (x : Int) (f : StatusFrame), parseStatus l b = some f → l.val < s.links →
    s.isJoined = false → Does (.gateStatusReceived l b x) s fun t => t = (s.noteDelay l f x).takeStatus l f s.now)
  ∧ (∀ (s : State) (l : Fin 8) (b : List Byte) (x : Int) (f : StatusFrame), parseStatus l b = some f → l.val < s.links →
    s.isJoined = true → Does (.gateStatusReceived l b x) s fun t =>
      t = ((s.noteDelay l f x).takeStatus l f s.now).pairSend (.status ([(l.val : Int), s.now] ++ b.map (fun y => (y.toNat : Int)))))
  ∧ (∀ (s : State) (l : Fin 8), l.val < s.links → (s.receiver l).started = true → Does (.linkLoss l) s fun t =>
      t = (s.advance ((s.receiver l).statusAt + (2000000 + s.fsw - 1) / s.fsw)).stageTrip 3 l 255 255)
  ∧ (∀ (s : State) (l : Fin 8), (s.receiver l).started = false → Does (.linkLoss l) s fun t => t = s)
  ∧ (∀ s : State, Does .linkStart s fun t => t.gate.stage = .off ∧ t.gate.starting = decide (0 < s.links)
      ∧ t.gate.receivers = s.gate.receivers.map (fun r =>
        { r with started := false, known := false, miswired := false, rstate := .unconf, ownStop := true, armSent := false }))
  ∧ (∀ (s : State) (l : Fin 8) (i : Ident) (a b : Nat), s.gate.starting = true → l.val < s.links → i.kind ≠ 2202 → Does (.receiverIdent l i a b) s fun t =>
      (l.val < s.gate.receivers.length → (t.receiver l).miswired = true ∧ (t.receiver l).started = (s.receiver l).started)
      ∧ t.Saw Ev.gateMiswired [(l.val : Int), 0, 0, 0])
  ∧ (∀ (s : State) (l : Fin 8) (i : Ident) (a b : Nat), s.gate.starting = true → l.val < s.links → i.kind = 2202 → a = 2 →
    Does (.receiverIdent l i a b) s fun t => t.Saw Ev.gateMiswired [(l.val : Int), 1, 1, 2])
  ∧ (∀ (s : State) (l : Fin 8) (i : Ident) (a b : Nat), s.gate.starting = true → l.val < s.links → i.kind = 2202 → a ≠ 2 → s.isPair = true →
    b = 1 → Does (.receiverIdent l i a b) s fun t => t.Saw Ev.gateMiswired [(l.val : Int), 2, 2, 1])
  ∧ (∀ (s : State) (l : Fin 8) (i : Ident) (a b : Nat), s.gate.starting = true → l.val < s.links → i.kind = 2202 → wrongInput a b s.isPair = none → s.sized →
    i.version = s.life.parts.receiver → Does (.receiverIdent l i a b) s fun t =>
      (t.receiver l).started = true ∧ (t.receiver l).version = i.version ∧ (t.receiver l).serial = i.serial
      ∧ t.out = .gateConfig l 1 [] :: .gateConfig l 0 [Fld.glCfg_DEAD s.cfg, Fld.glCfg2_MINP s.cfg, Fld.glCfg_REPEAT s.cfg,
        Fld.glCfg2_RX_TIMEOUT s.cfg, Fld.glLim0_PHASE_OC s.cfg] :: s.out)
  ∧ (∀ (s : State) (l : Fin 8) (i : Ident) (a b : Nat), s.gate.starting = true → l.val < s.links → i.kind = 2202 → wrongInput a b s.isPair = none → s.sized →
    i.version ≠ s.life.parts.receiver → Does (.receiverIdent l i a b) s fun t =>
      (t.receiver l).known = true ∧ (t.receiver l).started = (s.receiver l).started
      ∧ t.out = .gateConfig l 3 [(s.life.parts.receiver.toNat : Int)] :: s.out)
  ∧ (∀ (s : State) (l : Fin 8), l.val < s.links → (s.receiver l).known = true → s.gate.stage = .off ∨ s.gate.stage = .armed → s.sized →
    Does (.stationFwLoadDone true l s.life.parts.receiver) s fun t =>
      (t.receiver l).version = s.life.parts.receiver ∧ (t.receiver l).started = true)
  ∧ (∀ (s : State) (n : Nat), (∀ l, (s.receiver l).delayN = 0) → Does (.gateDelayUpdate n) s fun t => t = s.advance (n * 1000000000))
  ∧ (∀ (s : State) (n : Nat), s.links = 1 → (s.receiver 0).delayN ≠ 0 → s.sized → Does (.gateDelayUpdate n) s fun t =>
      let d := Config.quot (s.receiver 0).delaySum (2 * (s.receiver 0).delayN : Nat)
      (t.receiver 0).delay = d ∧ (t.receiver 0).delayN = 0
      ∧ t.out = .gateConfig 0 2 [if s.isJunior then 2 else 1, d] :: s.out)

/-- 08 R221, R222, R224 to R226, Table 8.9, 11 Table 11.1: the stage. A trip in any state but OFF sends STOP on every link and records the
event, and the first class stays; the commands of the host are answered by the stage's state; the delays, the stop ramp and its forced end
move the stage on. -/
def Obligations.StageCommands : Prop :=
  (∀ (s t : State) (q : Fin 32) (d : Desc), s.Turn q 0x11 (op0 1) d t → t.plantActive = false → t.enableStatus = St.ok →
    exec (.stageEnable q) s = .next (((t.onDisp (fun x => { x with notReady := false })).forward d.cmd 0 (fun u => u.stageOp 1)).ends q 0 0 []))
  ∧ (∀ (s t : State) (q : Fin 32) (d : Desc), s.Turn q 0x11 (op0 2) d t →
    exec (.stageDisable q) s = .next ((t.forward d.cmd 0 (fun u => u.stageOp 2)).ends q 0 0 []))
  ∧ (∀ (s t : State) (q : Fin 32) (d : Desc), s.Turn q 0x11 (op0 3) d t →
    exec (.stageTripCommand q) s = .next ((t.forward d.cmd 0 (fun u => u.stageOp 3)).ends q 0 0 []))
  ∧ (∀ (s t : State) (q : Fin 32) (d : Desc), s.Turn q 0x11 (op0 4) d t → t.tripResetStatus = St.ok →
    exec (.stageTripReset q) s = .next ((t.forward d.cmd 0 (fun u => u.stageOp 4)).ends q 0 0 []))
  ∧ (∀ (s t : State) (q : Fin 32) (d : Desc), s.Turn q 0x11 (op0 4) d t → t.gate.stage = .tripped → t.now < t.gate.tripAt + 1000000000 →
    exec (.stageTripReset q) s = .next (t.refuses q St.stageTripped 0))
  ∧ (∀ (s t : State) (q : Fin 32) (d : Desc), s.Turn q 0x11 (op0 1) d t → t.plantActive = true →
    exec (.stageEnable q) s = .next (t.refuses q St.dispatchSource 0))
  ∧ (∀ (s t : State) (q : Fin 32) (d : Desc), s.Turn q 0x11 (op0 1) d t → t.plantActive = false → t.enableStatus = St.stageNotReady →
    exec (.stageEnable q) s = .next (t.noteNotReady.refuses q St.stageNotReady 0))
  ∧ (∀ s : State, s.life.guard_ = true → s.readyFault = 1)
  ∧ (∀ s : State, s.life.guard_ = false → s.contactorsOn = false → s.readyFault = 2)
  ∧ (∀ s : State, s.gate.stage = .startDelay → Does .startDelayEnd s fun t =>
      t.gate.stage = .ramp ∧ t.loop.r = 1000000 * s.meas.iLast.getD 0 ∧ t.loop.shed = .steady)
  ∧ (∀ s : State, s.gate.stage = .stopDelay → Does .stopDelayEnd s fun t =>
      t = (s.advance (s.delayEnd (Fld.stageStop_DELAY s.cfg))).enterStopRamp ∧ t.gate.stage = .stopRamp)
  ∧ (∀ s : State, s.gate.stage = .stopRamp → s.loop.r = 0 → mag (s.meas.iLast.getD 0) * 100 ≤ s.rated * 1000 → Does .stopRampEnd s fun t =>
      t = s.onGate (fun g => { g with modeOff := true }))
  ∧ (∀ s : State, s.gate.stage = .stopRamp → s.gate.modeOff = false → Does .stageStopForced s fun t =>
      t.gate.modeOff = true ∧ t.Saw Ev.stageStopForced [s.meas.iLast.getD 0])
  ∧ (∀ (s : State) (a : Nat), s.gate.armAt = some a → s.links = 1 → (s.receiver 0).rstate = .stopped → Does .armTimeout s fun t =>
      t = (s.advance (a + 100000000)).stageTrip 3 0 255 255)
  ∧ (∀ (s : State) (a b c d : Nat), s.gate.stage = .off → s.stageTrip a b c d = s)
  ∧ (∀ (s : State) (a b c d : Nat), s.gate.stage = .tripped →
      (s.stageTrip a b c d).gate.stage = .tripped ∧ (s.stageTrip a b c d).gate.lastTrip = s.gate.lastTrip
      ∧ (s.stageTrip a b c d).gate.trips = satAdd s.gate.trips 1 255 ∧ (s.stageTrip a b c d).Saw Ev.stageTrip [(a : Int), b, c, d])
  ∧ (∀ (s : State) (a b c d : Nat), s.gate.stage ≠ .off → s.gate.stage ≠ .tripped →
      (s.stageTrip a b c d).gate.stage = .tripped ∧ (s.stageTrip a b c d).gate.lastTrip = some a
      ∧ (s.stageTrip a b c d).gate.trips = satAdd s.gate.trips 1 255 ∧ (s.stageTrip a b c d).Saw Ev.stageTrip [(a : Int), b, c, d]
      ∧ ∀ l, l < s.links → .gate l ((s.raise Ev.stageTrip [(a : Int), b, c, d]).stopFrame l) ∈ (s.stageTrip a b c d).out)

/-- 08 R227, R228: telemetry and last-fault records. Each window's record is released and its sums start again; a peak read re-arms; a
capture holds 512 periods and replaces one of its class that still waits; it is written to its slot unless writes are barred; a read
answers the slot and clears its new bit where asked. -/
def Obligations.FaultRecordCommands : Prop :=
  (∀ s : State, Fld.telemCfg_WINDOW s.cfg ≠ 0 → Does .telemWindowEnd s fun t =>
      let u := s.periodic 2 (Fld.telemCfg_WINDOW s.cfg * 1000000)
      t = (u.release 1 ⟨2, 96, eventOf u.sysNs, u.telemRecord (eventOf u.sysNs)⟩).onGate (fun g => { g with
        telemSeq := g.telemSeq + 1, telem := g.telem.map (fun q => { q with sum := 0, count := 0 }) }))
  ∧ (∀ (s t : State) (q : Fin 32) (d : Desc), s.Turn q 0x31 anyArg d t → 96 ≤ d.respLen →
    exec (.peakRead q) s = .next ((t.forward d.cmd 0 (fun u => u.onGate (fun g => { g with rearm := true }))).ends q 96 0
      (t.telemRecord (eventOf t.sysNs))))
  ∧ (∀ (s : State) (r : FaultRec), s.gate.captures = [⟨r, false⟩] → 32768 ≤ r.data.length → Does .faultCaptureDone s fun t =>
      t.gate.captures = [⟨{ r with lost := 0 }, true⟩])
  ∧ (∀ (s : State) (r x : FaultRec), s.gate.captures = [⟨x, true⟩, ⟨r, false⟩] → 32768 ≤ r.data.length → x.cls = r.cls →
    Does .faultCaptureDone s fun t => t.gate.captures = [⟨{ r with lost := satAdd x.lost 1 255 }, true⟩])
  ∧ (∀ (s : State) (r : FaultRec), s.nvmBarred = false → s.gate.captures = [⟨r, true⟩] → Does .faultRecordWritten s fun t =>
      t.gate.slots = s.gate.slots.set r.cls (some r) ∧ t.gate.newBits = s.gate.newBits.set r.cls true ∧ t.gate.captures = [])
  ∧ (∀ s : State, s.nvmBarred = true → Does .faultRecordWritten s fun t => t = s)
  ∧ (∀ (s t : State) (q : Fin 32) (d : Desc) (r : FaultRec), s.Turn q 0x32 anyArg d t → d.argByte 0 ≤ 11 → d.argByte 1 = 1 →
    t.gate.slots.getD (d.argByte 0) none = some r → 65792 ≤ d.respLen →
    exec (.faultRead q) s = .next ((t.onGate (fun g => { g with newBits := g.newBits.set (d.argByte 0) false })).ends q 65792 0 r.bytes))
  ∧ (∀ r : FaultRec, r.data.length = 32768 → r.bytes.length = 65792)
  ∧ (∀ (s t : State) (q : Fin 32) (d : Desc), s.Turn q 0x32 anyArg d t → d.argByte 0 ≤ 11 → d.argByte 1 ≤ 1 →
    t.gate.slots.getD (d.argByte 0) none = none → exec (.faultRead q) s = .next (t.refuses q St.noRecord 0))

/-- 09 R232, R235 to R239, R241, R243, R248 to R250: the loops. A base period does its work in order, and its ramp moves the reference
towards its target within the slope and the limits; a phase's loop computes 3 µs before its frame, only in service; a demand takes effect
one sweep period after its sweep; a shed begins 1 s below the shed level with the highest link, a load step aborts it, its dwell ends. -/
def Obligations.LoopCommands : Prop :=
  (∀ s : State, Does .basePeriod s fun t =>
    t = ((s.draw.advance (s.baseNs s.nextBase)).onGate (fun g =>
      { g with fgPeriod := (s.fluxgate (Config.fluxgateMean s.free)).getD 0 })).periodWork)
  ∧ (∀ s : State, s.gate.stage = .run → s.loop.tgtMode ≠ 2 →
    s.rampStep = s.onLoop (fun x => { x with r := clampI s.disp.limD s.disp.limC (toward s.loop.r s.loop.target
      (s.slopeStep (Fld.loopCtl_RUN_RAMP s.cfg))) }))
  ∧ (∀ s : State, s.gate.stage = .run → s.loop.tgtMode = 2 →
    s.rampStep = s.onLoop (fun x => { x with r := clampI s.disp.limD s.disp.limC s.loop.target }))
  ∧ (∀ s : State, s.gate.stage = .stopRamp → s.rampStep = s.onLoop (fun x => { x with
      r := clampI s.disp.limD s.disp.limC (toward s.loop.r 0 (s.slopeStep (Fld.stageStop_RAMP s.cfg))) }))
  ∧ (∀ s : State, s.gate.stage = .ramp → s.rampStep.gate.stage =
      if clampI s.disp.limD s.disp.limC (toward s.loop.r s.loop.target (s.slopeStep (Fld.stageStart_RAMP s.cfg))) = s.loop.target
        then .run else .ramp)
  ∧ (∀ s : State, s.gate.stage = .off ∨ s.gate.stage = .armed ∨ s.gate.stage = .tripped → s.rampStep.loop.r = 0)
  ∧ (∀ (s : State) (p : Fin 16), s.computesPhase p = false → Does (.statusCutoff p) s fun t =>
      t = s.onRx p (fun r => { r with fresh := false }))
  ∧ (∀ (s : State) (p : Fin 16), s.computesPhase p = true → Does (.statusCutoff p) s fun t =>
      let shift := moveShift s.fsw (s.phase p)
      let k := max ((s.phase p).done + 1) (firstFrom s.fsw (2 * s.now + 14000 - shift))
      let start := baseStart s.fsw k + shift
      t = ((s.advance ((start - 14000) / 2)).countSample p (k - 1) ((start - 8000) / 2)).phaseCompute p k shift)
  ∧ (∀ (s : State) (p k release : Nat), p < s.gate.phases.length → (s.rx p).seq ≠ BitVec.ofNat 32 k →
    ((s.countSample p k release).rx p).fresh = false)
  ∧ (∀ (s : State) (g m : Nat) (v : Int) (l : List (Nat × Int × Nat)), s.loop.targets = (g, v, m) :: l → Does .targetRelease s fun t =>
      t = (s.advance g).onLoop (fun x => { x with target := v, tgtMode := m, targets := l }))
  ∧ (∀ s : State, Does .loadStepCheck s fun t =>
      let u := s.advance (s.baseNs (firstFrom s.fsw (2 * s.now + 1) - 1) + 3000)
      t = if u.stepAborts then u.abortShed else u)
  ∧ (∀ s : State, s.abortShed.loop.aborts = satAdd s.loop.aborts 1 255 ∧ s.abortShed.est.imp.spoiled = true)
  ∧ (∀ (s : State) (a l : Nat), s.loop.lowSince = some a → s.linksOn.getLast? = some l → s.mayShed = true → Does .shedStart s fun t =>
      t.loop.shed = .shedding l ∧ t.loop.lowSince = none ∧ t.est.imp.spoiled = true
      ∧ t.loop.phases = mapIdxL (fun p (x : PhaseLoop) => if p / 2 = l then { x with fade := 16 } else x) s.loop.phases)
  ∧ (∀ s : State, s.mayShed = false → Does .shedStart s fun t => t = s)
  ∧ (∀ (s : State) (n : Nat), s.loop.shed = .dwell n → Does .shedDwellEnd s fun t =>
      t = (s.advance n).onLoop (fun l => { l with shed := .steady }))

/-- 09 R254 to R257: captures and injections. DIAG arms an engine that is idle, starts an injection only while the stage runs and no
impedance run is under way, and aborts; a met trigger begins an armed trace; a full memory is delivered; a start that no twin matches
expires. -/
def Obligations.DiagCommands : Prop :=
  (∀ (s t : State) (q : Fin 32) (d : Desc), s.Turn q 0x33 (op0 1) d t → d.argByte 1 ≤ 3 → Fld.diagCfg_USE t.cfg (d.argByte 1) ≠ 0 →
    t.diagDelivering (d.argByte 1) = false → (t.diag (d.argByte 1)).st = .idle →
    exec (.diagArm q) s = .next ((t.onDiag (d.argByte 1) (fun x => { x with
      st := if Fld.diagCfg_USE t.cfg (d.argByte 1) = 1 ∧ Fld.diagCfg_TRIG t.cfg (d.argByte 1) = 0 then .capturing else .armed,
      use := Fld.diagCfg_USE t.cfg (d.argByte 1), mem := [], cyc := 0, trigIdx := 0, level := [], armedAt := t.now,
      aborted := false })).ends q 0 0 []))
  ∧ (∀ (s t : State) (q : Fin 32) (d : Desc), s.Turn q 0x33 (op0 1) d t → d.argByte 1 ≤ 3 → Fld.diagCfg_USE t.cfg (d.argByte 1) = 0 →
    exec (.diagArm q) s = .next (t.refuses q St.diagState 0))
  ∧ (∀ (s t : State) (q : Fin 32) (d : Desc), s.Turn q 0x33 (op0 2) d t → d.argByte 1 ≤ 3 → Fld.diagCfg_USE t.cfg (d.argByte 1) = 2 →
    (t.diag (d.argByte 1)).st = .armed → t.gate.stage = .run → t.est.imp.phase = .idle →
    exec (.diagStart q) s = .next ((t.acceptBoth d.cmd).1.ends q 0 (bit (t.acceptBoth d.cmd).2) []))
  ∧ (∀ (s t : State) (q : Fin 32) (d : Desc), s.Turn q 0x33 (op0 2) d t → d.argByte 1 ≤ 3 → Fld.diagCfg_USE t.cfg (d.argByte 1) = 2 →
    (t.diag (d.argByte 1)).st = .armed → t.gate.stage ≠ .run → exec (.diagStart q) s = .next (t.refuses q St.stageNotReady 0))
  ∧ (∀ (s : State) (e : Nat), (s.diag e).st = .armed → s.gate.stage = .run →
    s.applyDiagStart e = s.onDiag e (fun d => { d with startDue := true }))
  ∧ (∀ (s t : State) (q : Fin 32) (d : Desc), s.Turn q 0x33 (op0 3) d t → d.argByte 1 ≤ 3 →
    exec (.diagAbort q) s = .next ((t.diagAbort (d.argByte 1)).ends q 0 0 []))
  ∧ (∀ (s : State) (e : Fin 4), (s.diag e).st = .armed → (s.diag e).use = 1 → s.diagMet e = true → Does (.diagTrigger e) s fun t =>
      t = s.onDiag e (fun d => { d with st := .capturing, trigIdx := d.mem.length }))
  ∧ (∀ (s : State) (e : Nat) (a b : Int), Fld.diagCfg_TRIG s.cfg e = 1 → (s.diag e).level = [b, a] →
      s.diagMet e = decide (a < Fld.diagCfg_LEVEL s.cfg e ∧ Fld.diagCfg_LEVEL s.cfg e ≤ b))
  ∧ (∀ (s : State) (e : Fin 4), (s.diag e).st = .capturing → (s.diag e).mem.length = 16384 → Does (.diagCaptureDone e) s fun t =>
      t = s.diagDeliver e)
  ∧ (∀ (s : State) (w : WaitCmd), s.host.waiting.find? (fun w => decide (w.cmd.opcode = 0x33) && w.own) = some w → w.expires < 2 ^ 64 →
    Does .diagExpired s fun t => w ∉ t.host.waiting ∧ t.Saw Ev.diagExpired [(byteAt w.cmd.arg 1 : Int)])

/-- 10 R258, R263 to R269, R272, R277 to R279: the commands of thermal management. A round takes the sensors, the zones and the cooling
outputs in order; a failed thermistor is acknowledged only with a validated core temperature; the die is the highest of the sensors within
5 K of their median, bars writes above 110 °C or below −40 °C until it is back between −35 and 105 °C, and shuts down at 125 °C; 2 ms
later the core supply is off. -/
def Obligations.ThermalCommands : Prop :=
  (∀ (s : State) (pins : List (Option Int)) (tach : List Nat), s.therm.running = true →
    (s.fabric.engines.getD 15 Engine.reset).reloading = false → Does (.thermalRound pins tach) s fun t =>
      let u := s.periodic 0 10000000
      let pins := mapIdxL (fun n (p : Option Int) => p.map (u.pinTemp n)) pins
      t = ((((u.sensorsRound pins).zonesRound pins).coolersRound tach).coolersCan).diagCycle 3)
  ∧ (∀ (s : State) (n period : Nat), period ≠ 0 → s.coolSpeed n period =
      (Config.quot 60000000000 ((period * (Fld.coolCfg_PPR s.cfg n + 1) : Nat) : Int)).toNat)
  ∧ (∀ (s : State) (pins : List (Option Int)) (i : Nat) (x : Sensor), 256 ≤ i → x.failed = false → 3 ≤ x.bad + 1 →
    (s.sensorZone i).isSome = true → (pins.getD (i - 256) none).filter (s.inRange i) = none → s.peerPin x = none →
    (s.sensorRound pins i x).failed = true)
  ∧ (∀ (s : State) (pins : List (Option Int)) (rpm : List Nat), s.therm.running = false → Does (.thermalRound pins rpm) s fun t =>
      t = s.periodic 0 10000000)
  ∧ (∀ (s t : State) (q : Fin 32) (d : Desc), s.Turn q 0x14 anyArg d t → t.mayAck (d.argByte 0) = true →
    exec (.thermalAck q) s = .next ((t.acceptBoth d.cmd).1.ends q 0 (bit (t.acceptBoth d.cmd).2) []))
  ∧ (∀ (s t : State) (q : Fin 32) (d : Desc), s.Turn q 0x14 anyArg d t → t.mayAck (d.argByte 0) = false →
    exec (.thermalAck q) s = .next (t.refuses q St.thermalState 0))
  ∧ (∀ (s : State) (n : Nat), s.mayAck n = true → s.applyAck n =
      (s.onTherm (fun x => { x with sensors := modAt x.sensors n (fun y => { y with core := true }) })).raise Ev.thCoreSubst [n])
  ∧ (∀ (s : State) (w : WaitCmd), s.host.waiting.find? (fun w => decide (w.cmd.opcode = 0x14) && w.own) = some w → w.expires < 2 ^ 64 →
    Does .thermalAckExpired s fun t => w ∉ t.host.waiting ∧ t.Saw Ev.thAckExpired [(byteAt w.cmd.arg 0 : Int)])
  ∧ (∀ (s : State) (a b c d : Int), dieTemp [a, b, c, d] < 1250 → Does (.dieSample a b c d) s fun t =>
      t.therm.die.temp = dieTemp [a, b, c, d] ∧ t.therm.die.sensors = dieUse [a, b, c, d]
      ∧ t.nvmBarred = (decide (1100 < dieTemp [a, b, c, d] ∨ dieTemp [a, b, c, d] < -400)
        || (s.nvmBarred && !decide (dieTemp [a, b, c, d] < 1050 ∧ -350 < dieTemp [a, b, c, d])))
      ∧ t.therm.die.hot = (decide (1000 ≤ dieTemp [a, b, c, d]) || (s.therm.die.hot && decide (950 < dieTemp [a, b, c, d])))
      ∧ t.therm.die.shutdown = s.therm.die.shutdown)
  ∧ (∀ (s : State) (a b c d : Int), 1250 ≤ dieTemp [a, b, c, d] → s.therm.die.shutdown = none → s.therm.die.off = false →
    s.actsSingle = true → Does (.dieSample a b c d) s fun t =>
      t.therm.die.shutdown.isSome = true ∧ t.safety.safe = true ∧ t.safety.needStart = true)
  ∧ (∀ (s : State) (a b c d : Int), 1250 ≤ dieTemp [a, b, c, d] → s.therm.die.shutdown = none → s.therm.die.off = false →
    s.actsSingle = false → s.twin.st = .joined → Does (.dieSample a b c d) s fun t =>
      t.therm.die.shutdown.isSome = true ∧ (t.twin.st = .withdrawn ∨ t.twin.st = .retired) ∧ t.twin.txOff = true ∧ t.twin.cause = 3)
  ∧ (∀ (s : State) (n : Nat), s.therm.die.shutdown = some n → s.therm.die.off = false → Does .dieWriteWindowEnd s fun t =>
      t.life.phase = .off ∧ t.therm.die.off = true ∧ t.gate.stage = .off ∧ t.ledger.writing = none
      ∧ t.safety.outs.all (fun o => !o.hi && !o.lo) = true ∧ t.safety.loopSw1 = [false, false] ∧ t.safety.loopSw2 = [false, false])

/-- 10 R265, R266, R269: a zone's steps. The high step rises by one a GAP apart towards the target of the hottest contribution, the low step
towards that of the coldest; a step relaxes by one after DWELL below its entry by HYST, unless held; a contribution beyond a trip limit
that is no substitute trips the zone. -/
def Obligations.ZoneSteps : Prop :=
  (∀ (s : State) (z : Nat) (held : Bool) (x : Zone), s.therm.first = false → x.hi < s.hiTarget z x.hot → x.hiAt = none →
    (s.hiStep z held x).hi = x.hi + 1 ∧ (s.hiStep z held x).hiAt = some s.now)
  ∧ (∀ (s : State) (z a : Nat) (held : Bool) (x : Zone), s.therm.first = false → x.hiAt = some a → s.now < a + s.gap →
    (held = true ∨ x.hiRelax = none ∧ 0 < s.dwell) → (s.hiStep z held x).hi = x.hi)
  ∧ (∀ (s : State) (z a : Nat) (v : Int) (x : Zone), s.therm.first = false → x.hot = some v → v ≤ s.hiEntry z x.hi - s.hyst →
    s.hiTarget z x.hot ≤ x.hi → x.hi ≠ 0 → x.hiRelax = some a → a + s.dwell ≤ s.now → (s.hiStep z false x).hi = x.hi - 1)
  ∧ (∀ (s : State) (z : Nat) (held : Bool) (x : Zone), s.therm.first = false → x.lo < s.loTarget z x.cold → x.loAt = none →
    (s.loStep z held x).lo = x.lo + 1 ∧ (s.loStep z held x).loAt = some s.now)
  ∧ (∀ (s : State) (z a : Nat) (v : Int) (x : Zone), s.therm.first = false → x.cold = some v →
    s.loEntry7 z x.lo + 7 * s.hyst ≤ 7 * v → s.loTarget z x.cold ≤ x.lo → x.lo ≠ 0 → x.loRelax = some a → a + s.dwell ≤ s.now →
    (s.loStep z false x).lo = x.lo - 1)
  ∧ (∀ (s : State) (z : Nat) (l : List Contribution) (c : Contribution) (x : Zone), x.trip = 0 → c ∈ l →
    100 * Fld.tzHi_TRIP_HI s.cfg z < c.hi → (s.zoneTrip z l x).trip = 1)
  ∧ (∀ (s : State) (z : Nat) (x : Zone), x.trip = 0 → (s.zoneTrip z [] x).trip = 0)

/-- 11 R282 to R284, R287, R290, R291: the dispatch commands of the host. One that passes the checks of R284 in their order and is no copy of a
command that the partner gave first is accepted, for each kind; the checks' first failure is its status; a waiting command takes effect at
the first collection deadline at or after its AT; the hold time expires once. -/
def Obligations.DispatchCommands : Prop :=
  (∀ (s t : State) (q : Fin 32) (d : Desc), s.Turn q 0x10 (fun x => decide (x.argByte 12 = 1)) d t →
    (t.dispCheck 0 (dispBody d.arg)).1 = St.ok → t.takeCopy d.cmd 0 = none →
    exec (.currentSetpoint q) s = .next ((t.dispAccept 0 d.cmd (dispBody d.arg)).ends q 0 0 []))
  ∧ (∀ (s t : State) (q : Fin 32) (d : Desc), s.Turn q 0x10 (fun x => decide (x.argByte 12 = 2)) d t →
    (t.dispCheck 0 (dispBody d.arg)).1 = St.ok → t.takeCopy d.cmd 0 = none →
    exec (.powerSetpoint q) s = .next ((t.dispAccept 0 d.cmd (dispBody d.arg)).ends q 0 0 []))
  ∧ (∀ (s t : State) (q : Fin 32) (d : Desc), s.Turn q 0x10 (fun x => decide (x.argByte 12 = 3)) d t →
    (t.dispCheck 0 (dispBody d.arg)).1 = St.ok → t.takeCopy d.cmd 0 = none →
    exec (.voltageSetpoint q) s = .next ((t.dispAccept 0 d.cmd (dispBody d.arg)).ends q 0 0 []))
  ∧ (∀ (s t : State) (q : Fin 32) (d : Desc), s.Turn q 0x10 (fun x => decide (x.argByte 12 = 4)) d t →
    (t.dispCheck 0 (dispBody d.arg)).1 = St.ok → t.takeCopy d.cmd 0 = none →
    exec (.currentBudget q) s = .next ((t.dispAccept 0 d.cmd (dispBody d.arg)).ends q 0 0 []))
  ∧ (∀ (s t : State) (q : Fin 32) (d : Desc), s.Turn q 0x10 (fun x => decide (x.argByte 12 = 5)) d t →
    (t.dispCheck 0 (dispBody d.arg)).1 = St.ok → t.takeCopy d.cmd 0 = none →
    exec (.powerBudget q) s = .next ((t.dispAccept 0 d.cmd (dispBody d.arg)).ends q 0 0 []))
  ∧ (∀ (s t : State) (q : Fin 32) (d : Desc), s.Turn q 0x10 (fun x => decide (x.argByte 12 = 6)) d t →
    (t.dispCheck 0 (dispBody d.arg)).1 = St.ok → t.takeCopy d.cmd 0 = none →
    exec (.refresh q) s = .next ((t.dispAccept 0 d.cmd (dispBody d.arg)).ends q 0 0 []))
  ∧ (∀ (s t : State) (q : Fin 32) (d : Desc), s.Turn q 0x10 (fun x => decide (x.argByte 12 = 1)) d t → t.takeCopy d.cmd 0 = none →
    (t.dispCheck 0 (dispBody d.arg)).1 ≠ St.ok → exec (.currentSetpoint q) s = .next (t.refuses q (t.dispCheck 0 (dispBody d.arg)).1
      (if (t.dispCheck 0 (dispBody d.arg)).1 = St.fieldRange then 32 + (t.dispCheck 0 (dispBody d.arg)).2 else 0)))
  ∧ (∀ (s : State) (d : DispBody), d.resv = none → 1 ≤ d.kind → d.kind ≤ 3 → s.plantActive = true →
    (s.dispCheck 0 d).1 = St.dispatchSource)
  ∧ (∀ (s : State) (d : DispBody), d.resv = none → 1 ≤ d.kind → d.kind ≤ 3 → s.plantActive = false → d.at_ = 0 → d.range = none →
    s.dispCheck 0 d = (if d.kind ≠ Fld.loopCtl_MODE s.cfg + 1 then St.modeMismatch
      else if newerSeq (s.disp.seq.getD 0 none) d.seq then St.ok else St.setpointStale, 0))
  ∧ (∀ (s : State) (d : DispBody), d.kind = 6 → d.resv = none → s.plantActive = false → d.at_ = 0 → d.value = 0 → d.value2 = 0 →
    newerSeq (s.disp.seq.getD 0 none) d.seq = true → s.dispCheck 0 d = (St.ok, 0))
  ∧ (∀ (s : State) (src : Nat) (c : Cmd) (d : DispBody), s.isPair = false → d.kind ≤ 3 ∨ d.kind = 6 →
      (s.dispAccept src c d).disp.seq = s.disp.seq.set src (some d.seq) ∧ (s.dispAccept src c d).out = s.out
      ∧ (s.dispAccept src c d).disp.holdTill = some (s.now + Fld.dispCfg_HOLD s.cfg * 100000000))
  ∧ (∀ (s : State) (w : DispWait), s.disp.waiting = [w] → Does .dispatchAtReached s fun t =>
      t = (s.advance (s.deadlineFrom (max w.due s.now))).dispDue (s.deadlineFrom (max w.due s.now)))
  ∧ (∀ (s : State) (w : DispWait) (n : Nat), s.ac01Reloading = false → s.disp.waiting = [w] → w.due ≤ n →
      s.dispDue n = (s.onDisp (fun x => { x with waiting := [] })).dispEffect w)
  ∧ (∀ (s : State) (n : Nat) (sp : Setpoint), s.disp.holdTill = some n → s.disp.sp = some sp → Does .setpointExpired s fun t =>
      t.disp.expired = true ∧ t.disp.holdTill = none ∧ t.disp.sp = some sp ∧ t.Saw Ev.setpointExpired [sp.kind])

/-- 11 R290 to R293, R295, 09 R234: what a command does when it takes effect, and what the module reports. A set-point replaces the one in
force; a budget replaces its source's in both directions, and a cut drains from the present term, recorded once. The envelope of a whole
second is released, sent to the plant, and waits for 20 ms until a collection deadline makes it the term; a state report is released and
sent at a whole second, at most ten in a second. -/
def Obligations.DispatchEffectsAndReports : Prop :=
  (∀ (s : State) (k : Nat) (v : Int), (s.setPoint k v).disp.sp = some ⟨k, v⟩
    ∧ (s.setPoint k v).loop.vSet = if k = 3 then 1000 * v else s.loop.vSet)
  ∧ (∀ (s : State) (w : DispWait), w.kind ≤ 3 → s.dispEffect w = s.setPoint w.kind w.value)
  ∧ (∀ (s : State) (w : DispWait), w.kind = 4 ∨ w.kind = 5 → s.dispEffect w = s.setBudget w.source w.kind w.value w.value2)
  ∧ (∀ (s : State) (w : DispWait), w.kind = 6 → s.dispEffect w = s)
  ∧ (∀ (s : State) (i : Nat) (v e : Int), i < s.disp.terms.length → s.budgetTarget i = some v →
    (s.disp.terms.getD i ⟨none, false⟩).eff = some e → e ≤ v → (s.cutTerm i).disp.terms.getD i ⟨none, false⟩ = ⟨some v, false⟩
      ∧ (s.cutTerm i).rec_ = s.rec_)
  ∧ (∀ (s : State) (i : Nat) (v e : Int), i < s.disp.terms.length → s.budgetTarget i = some v →
    s.disp.terms.getD i ⟨none, false⟩ = ⟨some e, false⟩ → v < e →
    (s.cutTerm i).disp.terms.getD i ⟨none, false⟩ = ⟨some e, true⟩
      ∧ (s.cutTerm i).Saw Ev.budgetDraining [if i < 2 then 4 else 5, ((i % 2 : Nat) : Int),
        (if i % 2 = 0 then 1 else -1) * Config.quot e 1000000, (if i % 2 = 0 then 1 else -1) * Config.quot v 1000000])
  ∧ (∀ (t : BudgetTerm) (v e step : Int), t.eff = some e → t.draining = true → v < e →
      t.drain (some v) step = ⟨some (max v (e - step)), decide (v < e - step)⟩)
  ∧ (∀ (s : State) (n : Nat), s.computes = true → s.ac01Reloading = false → Does (.envelopeCompute n) s fun t =>
      let u := s.advance (n * 1000000000)
      let e := u.envelope (u.eventAt (n * 1000000000))
      t = ((u.release 1 ⟨3, 72, e.w, e.bytes u.disp.envSeq⟩).plantSend 0x11 (e.bytes u.disp.envSeq)).onDisp (fun x => { x with
        envNext := some (n * 1000000000 + 20000000, e), envSeq := x.envSeq + 1 }))
  ∧ (∀ (s : State) (e : Envelope) (a n : Nat), s.disp.envNext = some (a, e) → a < n →
      s.envDue n = s.onDisp (fun x => { x with env := some e, envNext := none }))
  ∧ (∀ s : State, s.avail = s.disp.avail → stageCode s.gate.stage = s.disp.repStage → s.disp.repTimes = [] →
    s.computes = true → Does .stateReportSend s fun t =>
      let u := s.advance (atOrAfter s.now 1000000000)
      t = ((u.release 1 ⟨4, 52, eventOf u.sysNs, u.reportBytes⟩).plantSend 0x10 u.reportBytes).reportCan.onDisp (fun x => { x with
        repSeq := x.repSeq + 1, repTimes := [u.now], avail := u.avail, repStage := stageCode u.gate.stage }))

/-- 12 R297, R298, R305, R316 to R319, R326 to R329: the events of the safety functions. A tick takes the inputs, the readbacks, the outputs'
rules and the ends of test pulses in that order; the cross-link opens the other engine's switches; a watchdog opens its switch; the fast
comparator trips the stage in class 6; a test pulse begins at its slot on an energised output; a coil supply below 16 V, a contactor not shown
closed, and a producer silent for WDOG ms demand; a contactor not shown open is a weld; frames go out and in. -/
def Obligations.SafetyEvents : Prop :=
  (∀ (s : State) (a b : SafetySample) (on : BitVec 8) (coil : Nat), Does (.safetyTick a b on coil) s fun t =>
      t = (((((s.periodic 4 1000000).tickInputs a b).tickOuts on).tickState coil)).endTests)
  ∧ (∀ (s : State) (toB : Bool), s.safety.safe = true → Does (.safetyCrossLink toB) s fun t =>
      t.safety.outs = s.safety.outs.map (fun o => { o with hi := o.hi && toB, lo := o.lo && !toB, testing := none, cmdAt := s.now })
      ∧ t.safety.loopSw1 = (if toB then s.safety.loopSw1 else [false, false])
      ∧ t.safety.loopSw2 = (if toB then [false, false] else s.safety.loopSw2))
  ∧ (∀ (s : State) (toB : Bool), s.safety.safe = false → Does (.safetyCrossLink toB) s fun t => t = s)
  ∧ (∀ (s : State) (o : Nat) (h : 2 * o + 1 < 12), o < s.safety.outs.length → Does (.switchWatchdogExpiry ⟨2 * o + 1, h⟩) s fun t =>
      if o < 4 then (t.safety.out o).lo = false ∧ (t.safety.out o).hi = (s.safety.out o).hi
      else t.safety.loopSw2 = s.safety.loopSw2.set (o - 4) false ∧ t.safety.loopSw1 = s.safety.loopSw1)
  ∧ (∀ (s : State) (o : Nat) (h : 2 * o < 12), o < s.safety.outs.length → Does (.switchWatchdogExpiry ⟨2 * o, h⟩) s fun t =>
      if o < 4 then (t.safety.out o).hi = false ∧ (t.safety.out o).lo = (s.safety.out o).lo
      else t.safety.loopSw1 = s.safety.loopSw1.set (o - 4) false ∧ t.safety.loopSw2 = s.safety.loopSw2)
  ∧ (∀ (s : State) (charge : Bool), Fld.fgiCfg_SCALE s.cfg ≠ 0 → s.gate.stage ≠ .off → Does (.fastOcTrip charge) s fun t =>
      t.gate.stage = .tripped ∧ t.safety = s.safety ∧ t.Saw Ev.fastOc [if charge then 0 else 1])
  ∧ (∀ (s : State) (charge : Bool), Fld.fgiCfg_SCALE s.cfg = 0 → Does (.fastOcTrip charge) s fun t => t = s)
  ∧ (∀ (s : State) (o : Fin 4) (low readOff : Bool), s.safety.safe = false → (s.safety.out o.val).hi = true → (s.safety.out o.val).lo = true →
    (s.safety.out o.val).fault = .none → s.safety.engA.running = true → s.safety.engB.running = true → s.now < 2 ^ 63 →
    Does (.soTestPulse o low readOff) s fun t =>
      (t.safety.out o.val).testing = some (bit low + if readOff then 0 else 2) ∧ t.now % 1250000000 = if s.isJunior then 625000000 else 0)
  ∧ (∀ (s : State) (o : Nat), (s.safety.out o).testing = some 0 ∨ (s.safety.out o).testing = some 1 → ((s.endTest o).safety.out o).testing = none
    ∧ ((s.endTest o).safety.out o).hi = (s.safety.out o).hi ∧ ((s.endTest o).safety.out o).lo = (s.safety.out o).lo
    ∧ (s.endTest o).rec_ = s.rec_)
  ∧ (∀ (s : State) (coil : Nat), s.contactorOn = true → coil < 1600 → Does (.coilSupplyLow coil) s fun t =>
      t.safety.safe = true ∧ t.Saw Ev.coilSupply [coil] ∧ t.Saw Ev.safeState [12, 3, 7, s.mainOut.getD 0, 0])
  ∧ (∀ (s : State) (o n : Nat), s.mainOut = some o → s.feedbackInput false = some n → (s.safety.out o).hi = true → (s.safety.out o).lo = true →
    s.feedback false true = false → Does (.contactorFeedbackTimeout false) s fun t =>
      t.safety.safe = true ∧ t.Saw Ev.safeState [12, 3, 7, o, 0])
  ∧ (∀ (s : State) (o n : Nat), s.mainOut = some o → s.feedbackInput false = some n → (s.safety.out o).hi = false →
    s.feedback false false = false → s.twin.txOff = false → Does (.contactorFeedbackTimeout false) s fun t =>
      t.safety.weld = true ∧ t.safety.safe = s.safety.safe ∧ t.Saw Ev.contactorWeld [o, n])
  ∧ (∀ (s : State) (o n : Nat), s.mainOut = some o → s.feedbackInput false = some n → (s.safety.out o).hi = true → (s.safety.out o).lo = true →
    s.feedback false true = true → Does (.contactorFeedbackTimeout false) s fun t => t = s.advance ((s.safety.out o).cmdAt + 100000000))
  ∧ (∀ s : State, s.sending = true → s.chain.addr ≠ 0 → Does .safetyFrameSend s fun t => t.safety.sfSeq = s.safety.sfSeq + 1
      ∧ t.safety.sfWord0 = s.safety.word0 ∧ t.safety.sfSafe = s.safety.safe ∧ t.safety.sfLastAt = t.now)
  ∧ (∀ (s : State) (can : Bool) (b : List Byte), parsePdu b = none → Does (.safetyFrameReceived can b) s fun t => t = s)
  ∧ (∀ (s : State) (can : Bool) (b : List Byte) (p : SafetyPdu), parsePdu b = some p → s.isPair = false → Does (.safetyFrameReceived can b) s fun t =>
      t = (List.range 8).foldl (fun u n => if Fld.sfPcfg_PORT u.cfg n = (if can then 2 else 1) then u.takePdu n p else u) s)
  ∧ (∀ (s : State) (n : Fin 8) (x : Producer), s.safety.producers[n.val]? = some x → Fld.sfPcfg_PORT s.cfg n.val ≠ 0 → x.expired = false →
    Fld.sfPcfg_ALARM s.cfg n.val = false → Does (.safetyFrameWatchdog n) s fun t => t.safety.safe = true ∧ t.Saw Ev.sfTimeout [n.val]
      ∧ t.safety.producers[n.val]? = some { x with expired := true, okRun := 0, lastSeq := none })

/-- 12 R308 to R310: a dual-channel input. A channel is in the demand state once it has read demand in every sample across FILT ms; a
disagreement that lasts longer than DISC samples latches; a latch stays until both channels have been in the demand state after it and then
both at rest; either channel, or the latch, is the demand. -/
def Obligations.DualChannelInputs : Prop :=
  (∀ (d : DualIn) (filt disc : Nat) (l : List (Bool × Bool × Nat)), (∀ p ∈ l, p.1 = true) → filt < l.length →
    (l.foldl (fun x p => x.sample filt disc p.1 p.2.1 p.2.2) d).d1 = true)
  ∧ (∀ (d : DualIn) (filt disc : Nat) (l : List (Bool × Bool × Nat)), (∀ p ∈ l, p.2.1 = true) → filt < l.length →
    (l.foldl (fun x p => x.sample filt disc p.1 p.2.1 p.2.2) d).d2 = true)
  ∧ (∀ (d : DualIn) (filt disc now : Nat) (r : Bool) (l : List (Bool × Bool × Nat)), l.length ≤ filt →
    (l.foldl (fun x p => x.sample filt disc p.1 p.2.1 p.2.2) (d.sample filt disc false r now)).d1 = false)
  ∧ (∀ (d : DualIn) (filt disc now : Nat) (r1 r2 : Bool), d.latched = false →
    (d.sample filt disc r1 r2 now).latched = decide (disc < (d.sample filt disc r1 r2 now).disc))
  ∧ (∀ (d : DualIn) (filt disc now : Nat) (r1 r2 : Bool), (d.sample filt disc r1 r2 now).disc =
    if (d.sample filt disc r1 r2 now).d1 = (d.sample filt disc r1 r2 now).d2 then 0 else d.disc + 1)
  ∧ (∀ (d : DualIn) (filt disc now : Nat) (r1 r2 : Bool), d.latched = true → (d.sample filt disc r1 r2 now).latched = true)
  ∧ (∀ (d : DualIn) (filt disc : Nat) (l : List (Bool × Bool × Nat)), d.latched = true → d.cleared = false → d.seen1 = false →
    (∀ p ∈ l, p.1 = false) → (l.foldl (fun x p => x.sample filt disc p.1 p.2.1 p.2.2) d).cleared = false
      ∧ (l.foldl (fun x p => x.sample filt disc p.1 p.2.1 p.2.2) d).demands = true)
  ∧ (∀ d : DualIn, d.demands = (d.d1 || d.d2 || (d.latched && !d.cleared)))
  ∧ (∀ d : DualIn, d.unlatch.latched = (d.latched && !d.cleared))

/-- 12 R299, R301, R303, R306: an engine's sweep. Each confirmed function counts the sweeps in a row in which its condition holds for some
object and demands from its confirmation on; a primary code 0x7F_FFFF is beyond both thresholds, a secondary code 0xFFF beyond the upper
alone; without a current above ICHG function 4 starts anew; a cell without a usable result for longer than BLIND demands function 6. -/
def Obligations.EngineSweep : Prop :=
  (∀ (s : State) (at_ k : Nat) (res : Nat → CellRes) (temp : Nat → Option Int) (i : Option Int) (x : SafetyEng), x.running = true → k < 5 →
    x.counters.length = 5 → x.demand.length = 14 →
    ((s.engineSweep at_ res temp i x).counters.getD k 0 =
      nextCount (x.counters.getD k 0) ((s.findings res temp i).getD k ⟨none, false⟩))
    ∧ (s.engineSweep at_ res temp i x).demand.getD (k + 1) false =
      decide (s.confirmations.getD k 1 ≤ (s.engineSweep at_ res temp i x).counters.getD k 0))
  ∧ (∀ (s : State) (at_ c : Nat) (res : Nat → CellRes) (temp : Nat → Option Int) (i : Option Int) (x : SafetyEng), x.running = true →
    c < s.cellCount → x.cells.getD c 0 + 10000000 * Fld.safeConf_BLIND s.cfg < at_ → (res c).usable = false → x.demand.length = 14 →
    (s.engineSweep at_ res temp i x).demand.getD 6 false = true)
  ∧ (∀ (s : State) (c : Nat) (v : Int) (res : Nat → CellRes), c < s.cellCount → res c = .volt v → (1000 * Fld.safeCell_OV s.cfg : Nat) < v →
    (s.overCells res (fun r => r.over (Fld.safeCell_OV s.cfg))).hit.isSome = true)
  ∧ (∀ mV : Nat, CellRes.beyondBoth.over mV = true ∧ CellRes.beyondBoth.under mV = true ∧ CellRes.beyondHigh.over mV = true
    ∧ CellRes.beyondHigh.under mV = false ∧ CellRes.beyondHigh.usable = false)
  ∧ (∀ (s : State) (n : Nat) (res : Nat → CellRes) (temp : Nat → Option Int) (a : Int), a ≤ (1000 * Fld.safeOc_ICHG s.cfg : Nat) →
    nextCount n ((s.findings res temp (some a)).getD 3 ⟨none, false⟩) = 0)
  ∧ (∀ (s : State) (at_ : Nat) (res : Nat → CellRes) (temp : Nat → Option Int) (i : Option Int) (x : SafetyEng), x.running = false →
    s.engineSweep at_ res temp i x = x)

/-- 12 R320, R321: the safe state. Entering it opens the demanding engines' switches, ends a stage that is not OFF in TRIPPED, latches the
first cause and records the demand; a later demand is recorded alone, and nothing but a reset ends it. -/
def Obligations.SafeStateEntry : Prop :=
  (∀ (s : State) (d : Demand), s.safety.safe = false → (s.safeState d).safety.safe = true ∧ (s.safeState d).safety.cause = d.fn
    ∧ (s.safeState d).safety.enteredAt = s.now ∧ (s.safeState d).safety.contactor = .open_
    ∧ (s.safeState d).gate.stage = (if s.gate.stage = .off then .off else .tripped)
    ∧ (s.safeState d).Saw Ev.safeState [d.fn, d.engines, d.object, d.number, d.value]
    ∧ (s.safeState d).safety.outs = s.safety.outs.map (fun o => { o with
        hi := o.hi && !(d.engines % 2 == 1), lo := o.lo && !(d.engines / 2 % 2 == 1), testing := none, cmdAt := s.now }))
  ∧ (∀ (s : State) (d : Demand), s.safety.safe = true → (s.safeState d).safety = s.safety ∧ (s.safeState d).gate = s.gate
    ∧ (s.safeState d).Saw Ev.safeState [d.fn, d.engines, d.object, d.number, d.value])
  ∧ (∀ (s : State) (a b : SafetySample) (on : BitVec 8) (coil : Nat), s.safety.safe = true → Does (.safetyTick a b on coil) s fun t =>
      t.safety.safe = true)

/-- 12 R315, R322, R323: contactors and the reset. A close command is refused for any of the four causes and otherwise energises the
precharge output, the main contactor after PRECHG, and releases the precharge output 50 ms later; an open command beyond ARMED disables the
stage first; a reset needs every condition of R322, and takes effect at the cycle boundary. -/
def Obligations.ContactorsAndReset : Prop :=
  (∀ (s t : State) (q : Fin 32) (d : Desc), s.Turn q 0x12 (op0 1) d t → t.closeRefused = false →
    exec (.contactorClose q) s = .next ((t.acceptBoth d.cmd).1.ends q 0 (bit (t.acceptBoth d.cmd).2) []))
  ∧ (∀ (s t : State) (q : Fin 32) (d : Desc), s.Turn q 0x12 (op0 1) d t → t.closeRefused = true →
    exec (.contactorClose q) s = .next (t.refuses q St.contactorState 0))
  ∧ (∀ (s t : State) (q : Fin 32) (d : Desc), s.Turn q 0x12 (op0 2) d t →
    exec (.contactorOpen q) s = .next ((t.acceptBoth d.cmd).1.ends q 0 (bit (t.acceptBoth d.cmd).2) []))
  ∧ (∀ s : State, s.closeRefused = (s.life.guard_ || s.safety.safe || s.safety.engA.demand.any id || s.safety.engB.demand.any id
      || !s.safety.coilOk || s.contactorOn))
  ∧ (∀ (s : State) (p m : Nat), s.closeRefused = false → s.prechargeOut = some p → s.mainOut = some m →
      (s.applyContactor 1).safety.contactor = .precharge s.now ∧ (p < s.safety.outs.length → (s.safety.out p).fault = .none →
        ((s.applyContactor 1).safety.out p).hi = true ∧ ((s.applyContactor 1).safety.out p).lo = true))
  ∧ (∀ (s : State) (since m : Nat), s.safety.contactor = .precharge since → s.mainOut = some m → m < s.safety.outs.length →
    (s.safety.out m).fault = .none → Does .prechargeEnd s fun t => (t.safety.out m).hi = true ∧ (t.safety.out m).lo = true
      ∧ t.safety.contactor = .mainOn t.now ∧ (s.now < since + 10000000 * Fld.safeCfg_PRECHG s.cfg → since < 2 ^ 63 →
        t.now = since + 10000000 * Fld.safeCfg_PRECHG s.cfg))
  ∧ (∀ (s : State) (since p : Nat), s.safety.contactor = .mainOn since → s.prechargeOut = some p → p < s.safety.outs.length →
    Does .prechargeRelease s fun t => (t.safety.out p).hi = false ∧ (t.safety.out p).lo = false ∧ t.safety.contactor = .closed
      ∧ (s.now < since + 50000000 → since < 2 ^ 63 → t.now = since + 50000000))
  ∧ (∀ s : State, s.gate.stage = .run → (s.applyContactor 2).safety.contactor = .opening ∧ (s.applyContactor 2).safety.outs = s.safety.outs
      ∧ (s.applyContactor 2).gate.stage = .stopDelay)
  ∧ (∀ (s : State) (m : Nat), s.gate.stage = .armed → s.mainOut = some m → m < s.safety.outs.length →
      (s.applyContactor 2).safety.contactor = .open_ ∧ ((s.applyContactor 2).safety.out m).hi = false)
  ∧ (∀ (s t : State) (q : Fin 32) (d : Desc), s.Turn q 0x13 anyArg d t → Fld.safeCfg_REMOTE_RESET t.cfg = true → t.resetBlock = none →
    exec (.safetyReset q) s = .next ((t.acceptBoth d.cmd).1.ends q 0 (bit (t.acceptBoth d.cmd).2) []))
  ∧ (∀ (s t : State) (q : Fin 32) (d : Desc) (n : Nat), s.Turn q 0x13 anyArg d t → Fld.safeCfg_REMOTE_RESET t.cfg = true →
    t.resetBlock = some n → exec (.safetyReset q) s = .next ((t.raise Ev.resetRefused [1, n]).refuses q St.safetyState 0))
  ∧ (∀ (s t : State) (q : Fin 32) (d : Desc), s.Turn q 0x13 anyArg d t → Fld.safeCfg_REMOTE_RESET t.cfg = false →
    exec (.safetyReset q) s = .next (t.refuses q St.safetyState 0))
  ∧ (∀ (s : State) (n : Fin 16) (a b : DualIn), s.safety.engA.inputs[n.val]? = some a → s.safety.engB.inputs[n.val]? = some b →
    Fld.siCfg_FUNC s.cfg n.val = 5 → a.resetPress s.now = true → b.resetPress s.now = true → s.resetBlock = none →
    Does (.resetInput n) s fun t => t.safety.resetDue = some 0 ∧ t.safety.safe = s.safety.safe)
  ∧ (∀ (s : State) (n : Fin 16) (a b : DualIn) (k : Nat), s.safety.engA.inputs[n.val]? = some a → s.safety.engB.inputs[n.val]? = some b →
    Fld.siCfg_FUNC s.cfg n.val = 5 → a.resetPress s.now = true → b.resetPress s.now = true → s.resetBlock = some k →
    Does (.resetInput n) s fun t => t.safety.resetDue = s.safety.resetDue ∧ t.Saw Ev.resetRefused [0, k])
  ∧ (∀ (s : State) (src : Nat), s.safety.resetDue = some src → s.resetBlock = none → s.applyReset.safety.safe = false
    ∧ s.applyReset.safety.outs = s.safety.outs ∧ s.applyReset.gate = s.gate ∧ s.applyReset.Saw Ev.safeReset [src])
  ∧ (∀ s : State, (∃ f, s.safety.engA.demand.getD f false = true ∨ s.safety.engB.demand.getD f false = true)
      ∨ (∃ n ∈ s.safety.engA.counters ++ s.safety.engB.counters, n ≠ 0) ∨ (∃ o ∈ s.safety.outs, o.fault ≠ .none) ∨ s.safety.weld = true
      ∨ s.now < s.safety.enteredAt + 1000000000 → s.resetBlock.isSome = true)
  ∧ (∀ (s : State) (w : WaitCmd), s.host.waiting.find? (fun w => decide (w.cmd.opcode = 0x13) && w.own) = some w → w.expires < 2 ^ 64 →
    Does .safeResetExpired s fun t => w ∉ t.host.waiting ∧ t.Saw Ev.safeResetExpired [])

/-- 12 R327 to R329: a producer's frames. The first frame learns the offset and the sequence; one not newer, of another epoch than the last or
the next, or outside −1 ms to +WDOG of its offset is discarded; an expired producer's demand ends with the third accepted frame in a row. -/
def Obligations.SafetyFrames : Prop :=
  (∀ (s : State) (x : Producer) (w : Nat) (p : SafetyPdu), x.lastSeq = none → s.judgePdu x w false p = .accept true false)
  ∧ (∀ (s : State) (x : Producer) (w : Nat) (j : Bool) (p : SafetyPdu) (l : BitVec 16), x.lastSeq = some l → p.seq ≠ l →
    32767 < (p.seq - l).toNat → s.judgePdu x w j p = .discard)
  ∧ (∀ (s : State) (x : Producer) (w : Nat) (j : Bool) (p : SafetyPdu) (l : BitVec 16), x.lastSeq = some l → p.seq = l →
    s.judgePdu x w j p = if x.lastData = p.data then .discard else .differs)
  ∧ (∀ (s : State) (x : Producer) (w : Nat) (j : Bool) (p : SafetyPdu) (l : BitVec 16), x.lastSeq = some l → p.epoch ≠ x.epoch →
    p.epoch ≠ x.epoch + 1 → p.seq ≠ l → s.judgePdu x w j p = .discard)
  ∧ (∀ (s : State) (x : Producer) (w : Nat) (j : Bool) (p : SafetyPdu) (l : BitVec 16), x.lastSeq = some l → p.epoch = x.epoch → p.seq ≠ l →
    s.frameDiff p - x.offset < -1000000 ∨ (1000000 * w : Nat) < s.frameDiff p - x.offset → s.judgePdu x w j p = .discard)
  ∧ (∀ (s : State) (x : Producer) (w : Nat) (p : SafetyPdu) (l : BitVec 16), x.lastSeq = some l → 1 ≤ (p.seq - l).toNat →
    (p.seq - l).toNat ≤ 32767 → p.epoch = x.epoch → -1000000 ≤ s.frameDiff p - x.offset → s.frameDiff p - x.offset ≤ (1000000 * w : Nat) →
    s.judgePdu x w false p = .accept false false)
  ∧ (∀ (x : Producer) (p : SafetyPdu) (diff : Int) (now b : Nat) (learn : Bool), (x.accept p diff now learn b).lastSeq = some p.seq
    ∧ (x.accept p diff now learn b).epoch = p.epoch ∧ (x.accept p diff now learn b).lastAt = now
    ∧ (x.accept p diff now learn b).expired = (x.expired && decide (x.okRun < 2)))
  ∧ (∀ (x : Producer) (diff : Int) (now : Nat), x.lastAt ≤ now → mag (x.track diff now false - x.offset) ≤ ((now - x.lastAt) / 2000 : Nat)
    ∧ x.track diff now true = diff)
  ∧ (∀ (s : State) (n : Nat) (p : SafetyPdu), p.type ≠ 1 ∨ p.resv = true → s.takePdu n p = s)

/-- 13 R333, R335, R346, R348 to R350, R352, R354: the events of the cycle engines. A boundary takes the commands, the work and the life's
steps in that order; a cycle starts in RUN with the error task first where causes wait, and ends at its period with its slack; an event task
starts at a grid instant unless the engine holds or its minimum interval runs; a hold ends in STOP; saved copies are written at a second. -/
def Obligations.CycleEvents : Prop :=
  (∀ s : State, s.life.phase ≠ .off → Does .cycleBoundary s fun t =>
      t = (((s.periodic 3 s.baseCycle).boundaryCommands).boundaryWork).boundaryLife)
  ∧ (∀ s : State, s.life.phase = .off → Does .cycleBoundary s fun t => t = s)
  ∧ (∀ (s : State) (n : Nat) (c : Cmd), s.host.accepted = [(n, c)] → n ≤ s.now → s.acceptedDue =
      (s.onHost (fun x => { x with accepted := [] })).applyAccepted n c)
  ∧ (∀ s : State, (∀ a ∈ s.host.accepted, s.now < a.1) → s.acceptedDue = s)
  ∧ (∀ (s : State) (e : Fin 8), s.sized → (s.eng e.val).mode = .run → (s.eng e.val).ctx = [] → (s.eng e.val).cycleAt = none →
    (s.eng e.val).cmd = none → (s.eng e.val).startFrom ≤ atOrAfter s.now (s.period e.val) → s.life.guard_ = false → (s.eng e.val).choice = false →
    Does (.cycleStart e) s fun t => (t.eng e.val).cycleAt = some t.now ∧ (t.eng e.val).nCauses = 0 ∧ (t.eng e.val).firstScan = false
      ∧ (t.eng e.val).ctx.map TaskCtx.task = (if (s.eng e.val).nCauses = 0 then [0] else [7, 0])
      ∧ t.now = (s.advance (atOrAfter s.now (s.period e.val))).now)
  ∧ (∀ (s : State) (e : Fin 8) (done t0 : Nat), s.sized → (s.eng e.val).mode = .run → (s.eng e.val).cycleAt = some t0 →
    (((s.advance (t0 + s.period e.val)).runAll e.val).eng e.val).mode = .run → Does (.cycleRelease e done) s fun t =>
      (t.eng e.val).cycleAt = none
      ∧ (t.eng e.val).slack = (s.period e.val - min (s.period e.val) (1000 * done)) * 100 / s.period e.val)
  ∧ (∀ (s : State) (e : Fin 8) (n : Fin 4) (v : EvState), (s.eng e.val).mode = .hold → (s.eng e.val).events[n.val]? = some v → s.sized →
    Does (.eventTaskTrigger e n) s fun t => (t.eng e.val).lostTrig = (s.eng e.val).lostTrig + 1 ∧ (t.eng e.val).ctx = (s.eng e.val).ctx)
  ∧ (∀ (s : State) (e : Fin 8) (n : Fin 4) (v : EvState) (r : Nat), (s.eng e.val).mode = .run → (s.eng e.val).events[n.val]? = some v →
    v.release = some r → s.now + 250000 < r → v.waiting = false → s.sized → Does (.eventTaskTrigger e n) s fun t =>
      (t.eng e.val).events[n.val]? = some { v with waiting := true } ∧ (t.eng e.val).lostTrig = (s.eng e.val).lostTrig)
  ∧ (∀ (s : State) (e : Fin 8) (n : Fin 4) (v : EvState) (r : Nat), (s.eng e.val).mode = .run → (s.eng e.val).events[n.val]? = some v →
    v.release = some r → s.now + 250000 < r → v.waiting = true → s.sized → Does (.eventTaskTrigger e n) s fun t =>
      (t.eng e.val).events = (s.eng e.val).events ∧ (t.eng e.val).lostTrig = (s.eng e.val).lostTrig + 1)
  ∧ (∀ (s : State) (e : Fin 8) (n : Fin 4) (v : EvState), (s.eng e.val).mode = .run → (s.eng e.val).events[n.val]? = some v →
    v.release = none → (s.eng e.val).startFrom ≤ s.now → s.now < 2 ^ 63 → (s.eng e.val).ctx = [] → s.sized →
    Does (.eventTaskTrigger e n) s fun t =>
      (t.eng e.val).ctx.map TaskCtx.task = [n.val + 1] ∧ (t.eng e.val).lostTrig = (s.eng e.val).lostTrig
      ∧ ((t.eng e.val).events[n.val]?.bind EvState.last) = some t.now)
  ∧ (∀ (s : State) (e : Fin 8) (n : Fin 4) (v : EvState) (r : Nat), (s.eng e.val).mode = .run → (s.eng e.val).events[n.val]? = some v →
    v.release = some r → v.waiting = false → (s.eng e.val).ctx = [] → s.sized → Does (.eventTaskRelease e n) s fun t =>
      (t.eng e.val).events[n.val]? = some { v with release := none })
  ∧ (∀ (s : State) (e : Nat) (x : CycEng) (g : Gelfoel) (second : Nat), s.prog.engines[e]? = some x → s.image = some g → x.mode ≠ .idle →
    s.nvmBarred = false → Does (.savedCopyWrite second) s fun t =>
      (t.eng e).savedM = (t.eng e).savedW ∧ (t.eng e).savedW = some ⟨g.id, eventOf t.sysNs, t.now,
        (x.tickTo t.now).atEnd.ret, (x.tickTo t.now).atEnd.inst, (x.tickTo t.now).atEnd.clock⟩)
  ∧ (∀ (s : State) (e : Fin 8), Does (.breakpointHit e) s fun t =>
      t = if (s.eng e.val).mode = .run ∧ ((s.runAll e.val).eng e.val).mode = .hold then s.runAll e.val else s)
  ∧ (∀ (s : State) (e : Fin 8), (s.eng e.val).mode = .hold → s.sized → Does (.holdExpired e) s fun t =>
      (t.eng e.val).mode = .stop ∧ t.Saw Ev.holdExpired [e.val])
  ∧ (∀ s : State, (∀ e < 8, (s.eng e).choice = false) → Does .cycleRestartChoice s fun t => t = s)
  ∧ (∀ (s : State) (e : Nat), e < 8 → (∀ k < 8, k ≠ e → (s.eng k).choice = false) → (s.eng e).choice = true → s.takesChoice = false →
    s.life.guard_ = false → Does .cycleRestartChoice s fun t => t = s.restartChoice e)
  ∧ (∀ (s : State) (e : Nat), e < 8 → s.sized → (s.eng e).choice = true → s.takesChoice = false → s.life.guard_ = true →
    Does .cycleRestartChoice s fun t => (t.eng e).mode = .stop ∧ (t.eng e).choice = false)
  ∧ (∀ (s : State) (b : Nat) (g : Gelfoel), s.prog.switchAt = some b → s.idleBank.image = some g → s.prog.active < 2 → s.prog.banks.length = 2 →
    Does .switchBoundary s fun t => t.prog.switchAt = none ∧ t.prog.active = 1 - s.prog.active ∧ t.image = some g
      ∧ t.prog.rollback = s.image.isSome ∧ t.prog.banks.map Bank.st = (if s.prog.active = 0
        then [if s.image.isSome then 3 else (s.prog.banks.getD 0 ⟨0, none, none⟩).st, 4]
        else [4, if s.image.isSome then 3 else (s.prog.banks.getD 1 ⟨0, none, none⟩).st]))

/-- 13 R359, R367, R368, 14 R378, R385: the operations of the program command and the program load. Every operation but READ is accepted
where its state permits and its arguments are in range, and takes effect in both twins; the first failure is its status; READ answers its
symbols; a chunk goes into the idle bank. -/
def Obligations.ProgramCommands : Prop :=
  (∀ (c : Fin 32 → Sys2Proof.Instr) (op : Nat), (c, op) ∈ [(Sys2Proof.Instr.programSwitch, 1), (Sys2Proof.Instr.programRollback, 2),
      (Sys2Proof.Instr.programRun, 3), (Sys2Proof.Instr.programStop, 4), (Sys2Proof.Instr.programHold, 5), (Sys2Proof.Instr.programStep, 6),
      (Sys2Proof.Instr.programResume, 7), (Sys2Proof.Instr.forceSet, 8), (Sys2Proof.Instr.forceClear, 9), (Sys2Proof.Instr.hostWrite, 11)] →
    (∀ (s t : State) (q : Fin 32) (d : Desc), s.Turn q 0x50 (op0 op) d t → t.progStatus d.cmd = none →
      exec (c q) s = .next ((t.acceptBoth d.cmd).1.ends q 0 (bit (t.acceptBoth d.cmd).2) []))
    ∧ (∀ (s t : State) (q : Fin 32) (d : Desc) (st det : Nat), s.Turn q 0x50 (op0 op) d t → t.progStatus d.cmd = some (st, det) →
      exec (c q) s = .next (t.refuses q st det)))
  ∧ (∀ (s t : State) (q : Fin 32) (d : Desc) (l : List (Nat × Symbol)), s.Turn q 0x50 (op0 10) d t → d.argByte 14 = l.length → 0 < l.length →
    l.length ≤ 64 → d.body.length = 32 * l.length → (∀ i < l.length, t.findSym (nameAt d.body i) = l[i]?) →
    sumN (l.map (fun y => 4 + 4 * (t.symValue y.2).length)) ≤ d.respLen →
    exec (.programRead q) s = .next (t.ends q (sumN (l.map (fun y => 4 + 4 * (t.symValue y.2).length))) 0
      (l.flatMap (fun y => packBytes ((4, ((t.symValue y.2).length : Int)) :: (t.symValue y.2).map (fun w => (4, (w.toNat : Int))))))))
  ∧ (∀ (s : State) (c : Cmd), byteAt c.arg 0 = 1 → s.progStatus c = if s.maySwitch then none else some (St.progState, 0))
  ∧ (∀ (s : State) (c : Cmd), byteAt c.arg 0 = 2 → s.progStatus c = if s.maySwitch && s.prog.rollback then none else some (St.progState, 0))
  ∧ (∀ (s : State), s.maySwitch = true → s.idleBank.st = 3 ∧ s.switchArmed = false ∧ ∀ x ∈ s.prog.engines, x.mode ≠ .hold ∧ x.brk = none)
  ∧ (∀ (s : State) (c : Cmd) (e : Nat), byteAt c.arg 0 = 4 → e < 8 → byteAt c.arg 1 / 2 ^ e % 2 = 1 → (s.eng e).mode = .stop →
      s.progStatus c = some (St.progState, 0))
  ∧ (∀ (s : State) (c : Cmd), byteAt c.arg 0 = 6 → byteAt c.arg 1 ≤ 7 → s.progStatus c =
      if (s.eng (byteAt c.arg 1)).mode = .hold then none else some (St.progState, 0))
  ∧ (∀ (s : State) (c : Cmd), byteAt c.arg 0 = 8 → s.findSym (nameAt c.data 0) = none → s.progStatus c = some (St.symbolUnknown, 0))
  ∧ (∀ (s : State) (c : Cmd) (i : Nat) (y : Symbol), byteAt c.arg 0 = 8 → s.findSym (nameAt c.data 0) = some (i, y) → y.forcible = true →
    y.type = 1 → 256 ≤ s.prog.forces.length → (∀ f ∈ s.prog.forces, f.name ≠ nameAt c.data 0) → s.progStatus c = some (St.forceTableFull, 0))
  ∧ (∀ (s : State) (a : Nat), 0 < s.baseCycle → a + 10000000 ≤ s.boundaryAfter a ∧ (s.boundaryAfter a < a + 10000000 +
      ((List.range 8).filter (fun e => (s.section_ e).isSome)).foldl (fun m e => max m (s.period e)) s.baseCycle))
  ∧ (∀ (s : State) (c : Cmd) (n : Nat), byteAt c.arg 0 = 1 ∨ byteAt c.arg 0 = 2 → (s.applyProg c n).prog.switchAt = some (s.boundaryAfter n))
  ∧ (∀ (s : State) (c : Cmd) (n e : Nat), byteAt c.arg 0 = 3 → e < 8 → e < s.prog.engines.length → byteAt c.arg 1 / 2 ^ e % 2 = 1 →
      ((s.applyProg c n).eng e).cmd = some (.run (byteAt c.arg 2 % 2 == 1)))
  ∧ (∀ (s : State) (c : Cmd) (n : Nat), byteAt c.arg 0 = 8 → (⟨nameAt c.data 0, wordAt c.arg 8⟩ : Force) ∈ (s.applyProg c n).prog.forces)
  ∧ (∀ (s : State) (c : Cmd) (n : Nat), byteAt c.arg 0 = 9 → byteAt c.arg 2 % 2 = 1 → (s.applyProg c n).prog.forces = [])
  ∧ (∀ (s : State) (w : WaitCmd), s.host.waiting.find? (fun w => decide (w.cmd.opcode = 0x50) && w.own) = some w → w.expires < 2 ^ 64 →
    Does .programCmdExpired s fun t => w ∉ t.host.waiting ∧ t.Saw Ev.progCmdExpired [(byteAt w.cmd.arg 0 : Int)])
  ∧ (∀ (s : State) (q : Fin 32) (d : Desc) (l : Load), s.LoadTurn q 6 0x81 d → s.fabric.vcoreTarget ≤ s.fabric.vcore → s.nvmBarred = false →
    s.switchArmed = false → takeChunk s.idleBank.load 256 4194304 d = .ok (l, false) → exec (.programLoadChunk q) s = .next
      (((s.onIdleBank (fun _ => ⟨1, none, some l⟩)).onProg (fun p => { p with rollback := false })).ends q 0 0 []))
  ∧ (∀ (s : State) (q : Fin 32) (d : Desc) (l : Load), s.LoadTurn q 6 0x81 d → s.fabric.vcoreTarget ≤ s.fabric.vcore → s.nvmBarred = false →
    s.switchArmed = false → takeChunk s.idleBank.load 256 4194304 d = .ok (l, true) → s.judgeImage l.bytes = none →
    exec (.programLoadChunk q) s = .next (((s.onProg (fun p => { p with rollback := false })).onIdleBank
      (fun _ => ⟨3, some (parseImage l.bytes), none⟩)).ends q 0 0 []))
  ∧ (∀ (s : State) (q : Fin 32) (d : Desc), s.LoadTurn q 6 0x81 d → s.fabric.vcoreTarget ≤ s.fabric.vcore → s.nvmBarred = true →
    exec (.programLoadChunk q) s = .next (s.refuses q St.nvmBarred 0))
  ∧ (∀ (s : State) (q : Fin 32) (d : Desc), s.LoadTurn q 6 0x81 d → s.fabric.vcoreTarget ≤ s.fabric.vcore → s.nvmBarred = false → s.switchArmed = true →
    exec (.programLoadChunk q) s = .next (s.refuses q St.progState 0))
  ∧ (∀ (s : State) (b : List Byte), headerOk b s.life.blRunning = false → s.judgeImage b = some (St.imageInvalid, 0, 6))
  ∧ (∀ (s : State) (b : List Byte) (x y : Nat), headerOk b s.life.blRunning = true → (parseImage b).codeOk = true →
    (parseImage b).claims s.canRows = some (x, y) → s.judgeImage b = some (St.resourceClaimed, min x y + 65536 * max x y, 6))

/-- 13 R340, R341, Table 13.3: the instructions of a cycle engine but for the instances. A bit or word operand is read in its area; every
instruction but a jump and END goes on behind itself; a bit store changes one bit of the output area; the branch stack is last in, first
out. Word arithmetic is signed and 32 bits wide: a result beyond −2³¹ to 2³¹ − 1 saturates and sets OVF, DIV by 0 gives 0 and sets DIVZ,
both stay set, neither stops the task, and the program clears them by writing 0. -/
def Obligations.CycleInstructions : Prop :=
  (∀ (s : State) (e op : Nat) (c : TaskCtx) (w : Word) (f : Int → Int → Int), (op = 0x23 ∧ f = (· + ·)) ∨ (op = 0x24 ∧ f = (· - ·))
      ∨ (op = 0x30 ∧ f = (· * ·)) → opOf w = op → e < s.prog.engines.length →
    let v := f c.wacc.toInt (s.operand e c w).toInt
    (s.instr e c w).2 = some { c with
      pc := c.pc + 1, passed := false, wacc := BitVec.ofInt 32 (max (-2147483648) (min 2147483647 v)) }
    ∧ ((s.instr e c w).1.eng e).ovf = ((s.eng e).ovf || decide (v < -2147483648 ∨ 2147483647 < v))
    ∧ ((s.instr e c w).1.eng e).divz = (s.eng e).divz)
  ∧ (∀ (s : State) (e : Nat) (c : TaskCtx) (w : Word), opOf w = 0x31 → s.operand e c w ≠ 0 → e < s.prog.engines.length →
    (s.instr e c w).2 = some { c with
      pc := c.pc + 1, passed := false, wacc := BitVec.ofInt 32 (min 2147483647 (c.wacc.toInt.tdiv (s.operand e c w).toInt)) }
    ∧ ((s.instr e c w).1.eng e).divz = (s.eng e).divz)
  ∧ (∀ (s : State) (e : Nat) (c : TaskCtx) (w : Word), opOf w = 0x31 → s.operand e c w = 0 → e < s.prog.engines.length →
    (s.instr e c w).2 = some { c with pc := c.pc + 1, passed := false, wacc := 0 }
    ∧ ((s.instr e c w).1.eng e).divz = true ∧ ((s.instr e c w).1.eng e).ovf = (s.eng e).ovf)
  ∧ (∀ (s : State) (e : Nat) (c : TaskCtx) (w : Word), opOf w = 0x31 → s.operand e c w ≠ 0 → e < s.prog.engines.length →
    ((s.instr e c w).1.eng e).ovf = ((s.eng e).ovf || decide (c.wacc = 0x80000000#32 ∧ s.operand e c w = 0xFFFFFFFF#32)))
  ∧ (∀ (s : State) (e : Nat) (c : TaskCtx) (w : Word), opOf w = 0x22 → areaOf w = 5 → e < s.prog.engines.length →
    ((s.instr e c w).1.eng e).ovf = c.wacc.getLsbD 2 ∧ ((s.instr e c w).1.eng e).divz = c.wacc.getLsbD 3)
  ∧ (∀ (s : State) (e : Nat) (c : TaskCtx) (w : Word), opOf w = 0x0B → areaOf w = 5 → idxOf w = 2 → c.acc = true → e < s.prog.engines.length →
    ((s.instr e c w).1.eng e).ovf = false ∧ ((s.instr e c w).1.eng e).divz = (s.eng e).divz)
  ∧ (∀ (s : State) (e op : Nat) (c : TaskCtx) (w : Word) (f : Bool → Bool → Bool), (op = 0x01 ∧ f = fun _ b => b) ∨ (op = 0x02 ∧ f = fun _ b => !b)
      ∨ (op = 0x03 ∧ f = fun a b => a && b) ∨ (op = 0x04 ∧ f = fun a b => a && !b) ∨ (op = 0x05 ∧ f = fun a b => a || b)
      ∨ (op = 0x06 ∧ f = fun a b => a || !b) ∨ (op = 0x07 ∧ f = fun a b => xor a b) ∨ (op = 0x0C ∧ f = fun a _ => !a) → opOf w = op →
    s.instr e c w = (s, some { c with pc := c.pc + 1, passed := false, acc := f c.acc (s.rdBit e c w) }))
  ∧ (∀ (s : State) (e op i : Nat) (c : TaskCtx) (w : Word) (v : Bool), (op = 0x08 ∧ v = c.acc) ∨ (op = 0x09 ∧ v = !c.acc)
      ∨ (op = 0x0A ∧ c.acc = true ∧ v = true) ∨ (op = 0x0B ∧ c.acc = true ∧ v = false) → opOf w = op → areaOf w = 1 →
      e < s.prog.engines.length → idxOf w / 32 < (s.eng e).output.length → i < 32 →
    (s.instr e c w).2 = some { c with pc := c.pc + 1, passed := false } ∧ (((s.instr e c w).1.eng e).output.getD (idxOf w / 32) 0).getLsbD i =
      if i = idxOf w % 32 then v else ((s.eng e).output.getD (idxOf w / 32) 0).getLsbD i)
  ∧ (∀ (s : State) (e op : Nat) (c : TaskCtx) (w : Word), op = 0x0A ∨ op = 0x0B → opOf w = op → c.acc = false →
    s.instr e c w = (s, some { c with pc := c.pc + 1, passed := false }))
  ∧ (∀ (s : State) (e : Nat) (c : TaskCtx) (w : Word), opOf w = 0x0D → s.instr e c w =
      (s, some { c with pc := c.pc + 1, passed := false, stack := c.acc :: c.stack }))
  ∧ (∀ (s : State) (e op : Nat) (c : TaskCtx) (w : Word) (b : Bool) (l : List Bool), op = 0x0E ∨ op = 0x0F → opOf w = op → c.stack = b :: l →
    s.instr e c w = (s, some { c with
      pc := c.pc + 1, passed := false, acc := if op = 0x0E then b && c.acc else b || c.acc, stack := l }))
  ∧ (∀ (s : State) (e op : Nat) (c : TaskCtx) (w : Word), op = 0x10 ∨ (op = 0x11 ∧ c.acc = true) ∨ (op = 0x12 ∧ c.acc = false) → opOf w = op →
    s.instr e c w = (s, some { c with pc := opdOf w, passed := false }))
  ∧ (∀ (s : State) (e op : Nat) (c : TaskCtx) (w : Word), (op = 0x11 ∧ c.acc = false) ∨ (op = 0x12 ∧ c.acc = true) → opOf w = op →
    s.instr e c w = (s, some { c with pc := c.pc + 1, passed := false }))
  ∧ (∀ (s : State) (e : Nat) (c : TaskCtx) (w : Word), opOf w = 0x13 → s.instr e c w = (s, none))
  ∧ (∀ (s : State) (e op : Nat) (c : TaskCtx) (w : Word) (f : Word → Word → Word), (op = 0x20 ∧ f = fun _ v => v) ∨ (op = 0x25 ∧ f = fun a v => a &&& v)
      ∨ (op = 0x26 ∧ f = fun a v => a ||| v) ∨ (op = 0x27 ∧ f = fun a v => a ^^^ v) → opOf w = op →
    s.instr e c w = (s, some { c with pc := c.pc + 1, passed := false, wacc := f c.wacc (s.operand e c w) }))
  ∧ (∀ (s : State) (e : Nat) (c : TaskCtx) (w : Word), opOf w = 0x21 → ∃ d : TaskCtx, s.instr e c w = (s, some d) ∧ d.pc = c.pc + 1 ∧ d.acc = c.acc
      ∧ ∀ i < 32, d.wacc.getLsbD i = if i < 22 then c.wacc.getLsbD i else w.getLsbD (i - 22))
  ∧ (∀ (s : State) (e : Nat) (c : TaskCtx) (w : Word), opOf w = 0x28 → opdOf w < 32 → s.instr e c w =
      (s, some { c with pc := c.pc + 1, passed := false, wacc := BitVec.ofNat 32 (c.wacc.toNat * 2 ^ opdOf w) }))
  ∧ (∀ (s : State) (e : Nat) (c : TaskCtx) (w : Word), opOf w = 0x29 → opdOf w < 32 → s.instr e c w =
      (s, some { c with pc := c.pc + 1, passed := false, wacc := BitVec.ofInt 32 (c.wacc.toInt.fdiv (2 ^ opdOf w)) }))
  ∧ (∀ (s : State) (e op : Nat) (c : TaskCtx) (w : Word) (p : Int → Int → Bool), (op = 0x2A ∧ p = fun a b => decide (a = b))
      ∨ (op = 0x2B ∧ p = fun a b => decide (b < a)) ∨ (op = 0x2C ∧ p = fun a b => decide (a < b)) → opOf w = op →
    s.instr e c w = (s, some { c with pc := c.pc + 1, passed := false, acc := p c.wacc.toInt (s.operand e c w).toInt }))
  ∧ (∀ (s : State) (e : Nat) (c : TaskCtx) (w : Word), kindOf w = 2 → (s.operand e c w).toInt = (w.extractLsb' 0 22).toInt)
  ∧ (∀ (s : State) (e : Nat) (c : TaskCtx) (w : Word), s.rdBit e c w = (s.rdWord e c (areaOf w) (idxOf w / 32)).getLsbD (idxOf w % 32))

/-- 13 R345, Table 13.4: timers, counters and edge detectors. Executions of a TON with IN = 1 add up the program clock to at most PT, and Q
follows ET ≥ PT; a TOF holds Q for PT after IN has fallen, and a TP for PT from a rising IN; a first execution has Δ = 0. CTU adds 1 at a
rising acc up to 2³¹ − 1, with Q = (CV ≥ wacc), CTD subtracts 1 down to −2³¹, with Q = (CV ≤ 0), both with Q in acc and CV in wacc; RTRIG
and FTRIG give one execution of 1 at an edge; each keeps its input as the previous state, and takes it from the input at a first
execution. -/
def Obligations.TimersAndCounters : Prop :=
  (∀ (x : Inst) (wacc : Word) (a : Nat) (l : List Nat), x.last = some a → x.et ≤ 1000 * wacc.toInt.toNat → (a :: l).Pairwise (· ≤ ·) →
    (l.foldl (fun y c => (y.exec 0x40 c true wacc).1) x).et = min (x.et + ((a :: l).getLast?.getD a - a)) (1000 * wacc.toInt.toNat))
  ∧ (∀ (x : Inst) (wacc : Word) (c : Nat), (x.exec 0x40 c true wacc).1.q = decide (1000 * wacc.toInt.toNat ≤ (x.exec 0x40 c true wacc).1.et))
  ∧ (∀ (x : Inst) (wacc : Word) (c : Nat), (x.exec 0x40 c false wacc).1.et = 0 ∧ (x.exec 0x40 c false wacc).1.q = false)
  ∧ (∀ (x : Inst) (wacc : Word) (c : Nat), x.last = none → (x.exec 0x40 c true wacc).1.et = min x.et (1000 * wacc.toInt.toNat))
  ∧ (∀ (x : Inst) (wacc : Word) (op c : Nat) (b : Bool), 0x40 ≤ op → op ≤ 0x42 → (x.exec op c b wacc).1.last = some c
      ∧ (x.exec op c b wacc).2 = ((x.exec op c b wacc).1.q, BitVec.ofNat 32 ((x.exec op c b wacc).1.et / 1000)))
  ∧ (∀ (x : Inst) (wacc : Word) (c : Nat), (x.exec 0x41 c true wacc).1.et = 0 ∧ (x.exec 0x41 c true wacc).1.q = true)
  ∧ (∀ (x : Inst) (wacc : Word) (a c : Nat), x.last = some a → x.q = true →
      (x.exec 0x41 c false wacc).1.et = min (x.et + (c - a)) (1000 * wacc.toInt.toNat)
      ∧ (x.exec 0x41 c false wacc).1.q = decide (x.et + (c - a) < 1000 * wacc.toInt.toNat))
  ∧ (∀ (x : Inst) (wacc : Word) (c : Nat), x.q = false → (x.exec 0x41 c false wacc).1.et = x.et ∧ (x.exec 0x41 c false wacc).1.q = false)
  ∧ (∀ (x : Inst) (wacc : Word) (c : Nat), x.q = false → x.prev = some false → (x.exec 0x42 c true wacc).1.et = 0
      ∧ (x.exec 0x42 c true wacc).1.q = true)
  ∧ (∀ (x : Inst) (wacc : Word) (a c : Nat) (b : Bool), x.last = some a → x.q = true →
      (x.exec 0x42 c b wacc).1.et = min (x.et + (c - a)) (1000 * wacc.toInt.toNat)
      ∧ (x.exec 0x42 c b wacc).1.q = decide (x.et + (c - a) < 1000 * wacc.toInt.toNat))
  ∧ (∀ (x : Inst) (wacc : Word) (c : Nat) (b : Bool), x.q = false → b = false ∨ x.prev ≠ some false → (x.exec 0x42 c b wacc).1.et = x.et
      ∧ (x.exec 0x42 c b wacc).1.q = false)
  ∧ (∀ (x : Inst) (wacc : Word) (c : Nat) (b : Bool), (x.exec 0x43 c b wacc).1.cv =
      (if b = true ∧ x.prev = some false then min (x.cv + 1) 2147483647 else x.cv)
      ∧ (x.exec 0x43 c b wacc).1.q = decide (wacc.toInt ≤ (x.exec 0x43 c b wacc).1.cv))
  ∧ (∀ (x : Inst) (wacc : Word) (c : Nat) (b : Bool), (x.exec 0x44 c b wacc).1.cv =
      (if b = true ∧ x.prev = some false then max (x.cv - 1) (-2147483648) else x.cv)
      ∧ (x.exec 0x44 c b wacc).1.q = decide ((x.exec 0x44 c b wacc).1.cv ≤ 0))
  ∧ (∀ (x : Inst) (wacc : Word) (op c : Nat) (b : Bool), op = 0x43 ∨ op = 0x44 →
      (x.exec op c b wacc).2 = ((x.exec op c b wacc).1.q, BitVec.ofInt 32 (x.exec op c b wacc).1.cv))
  ∧ (∀ (x : Inst) (wacc : Word) (c : Nat), (x.exec 0x45 c true wacc).1.cv = wacc.toInt ∧ (x.exec 0x45 c false wacc).1 = x)
  ∧ (∀ (x : Inst) (wacc : Word) (c : Nat) (b : Bool), (x.exec 0x46 c b wacc).2 = (b && decide (x.prev = some false), wacc)
      ∧ (x.exec 0x47 c b wacc).2 = (!b && decide (x.prev = some true), wacc))
  ∧ (∀ (x : Inst) (wacc : Word) (op c : Nat) (b : Bool), op = 0x43 ∨ op = 0x44 ∨ op = 0x46 ∨ op = 0x47 → (x.exec op c b wacc).1.prev = some b)

/-- 13 R349 to R351, R353, R355, R360 to R362: modes, restarts and online change. STOP ends the tasks; a cold restart starts anew and a warm
one from its copy; at a switch, an instance that keeps its number and kind is carried over, and no other. -/
def Obligations.ModesAndRestarts : Prop :=
  (∀ (s : State) (e : Nat), e < s.prog.engines.length → ((s.stopEng e).eng e).mode = .stop ∧ ((s.stopEng e).eng e).ctx = []
    ∧ ((s.stopEng e).eng e).cycleAt = none ∧ ((s.stopEng e).eng e).ret = (s.eng e).ret ∧ ((s.stopEng e).eng e).inst = (s.eng e).inst
    ∧ (s.stopEng e).prog.shared = s.prog.shared)
  ∧ (∀ (s : State) (e k : Nat) (c : TaskCtx) (l : List TaskCtx), e < s.prog.engines.length → (s.eng e).ctx = c :: l →
    (s.eng e).brk = some (c.task, c.pc) → c.passed = false → ((s.runTasks e (k + 1)).eng e).mode = .hold
      ∧ ((s.runTasks e (k + 1)).eng e).holdFrom = s.now ∧ ((s.runTasks e (k + 1)).eng e).output = (s.eng e).output
      ∧ (s.runTasks e (k + 1)).Saw Ev.progHeld [e, c.task, c.pc, s.eventAt c.start])
  ∧ (∀ (s : State) (e : Nat) (g : Gelfoel) (c : Section), e < s.prog.engines.length → s.image = some g → s.section_ e = some c →
    ((s.restartEng e none).eng e).mode = .run ∧ ((s.restartEng e none).eng e).ret = g.initArea e 3
    ∧ ((s.restartEng e none).eng e).clock = 0 ∧ ((s.restartEng e none).eng e).inst = List.replicate c.inst freshInst
    ∧ ((s.restartEng e none).eng e).firstScan = true ∧ ((s.restartEng e none).eng e).warm = false
    ∧ (s.restartEng e none).prog.forces = s.prog.forces)
  ∧ (∀ (s : State) (e : Nat) (g : Gelfoel) (c : Section) (v : SavedCopy), e < s.prog.engines.length → s.image = some g → s.section_ e = some c →
    ((s.restartEng e (some v)).eng e).ret = v.ret ∧ ((s.restartEng e (some v)).eng e).inst = v.inst
    ∧ ((s.restartEng e (some v)).eng e).clock = v.clock ∧ ((s.restartEng e (some v)).eng e).warm = true
    ∧ ((s.restartEng e (some v)).eng e).local_ = g.initArea e 2)
  ∧ (∀ (s : State) (v : SavedCopy) (g : Gelfoel) (d : Int), s.image = some g → s.warmOk (some v) (some d) false =
      if v.id = g.id ∧ d < (60000000000 * Fld.cycCfg_WARM_MIN s.cfg : Nat) then some v else none)
  ∧ (∀ (s : State) (c : Option SavedCopy), s.warmOk c none false = none)
  ∧ (∀ (s : State) (c0 c1 : Section) (e i : Nat), i < c1.inst → (s.newInst (some c0) c1 e)[i]? = some
      (if i < c0.inst ∧ instKind c0 i = instKind c1 i ∧ instKind c0 i ≠ 0 then
        if instKind c0 i ≤ 0x42 then { (s.eng e).inst.getD i freshInst with prev := none } else (s.eng e).inst.getD i freshInst
      else freshInst))
  ∧ (∀ (s : State) (c1 : Section) (e : Nat), s.newInst none c1 e = List.replicate c1.inst freshInst)
  ∧ (∀ (s : State) (g0 : Option Gelfoel) (g1 : Gelfoel) (gap e : Nat) (x : CycEng) (c : Section), g1.secs.getD e none = some c →
    (s.switchEng g0 g1 gap e x).mode = (if x.mode = .stop then .stop else .run) ∧ (s.switchEng g0 g1 gap e x).startFrom = gap
    ∧ (s.switchEng g0 g1 gap e x).firstScan = true ∧ (s.switchEng g0 g1 gap e x).ctx = [])

/-- 14 R372, R375, R377, R382, R383, R386: the events of the host's queues. A doorbell in range announces its descriptors or releases
completions; one at or above the ring's entries stops the queue with cause 1, and one of another width or to a queue that does not run is
counted and discarded; a stream buffer completes FLUSH ms after its first record; the link's loss stops every queue with cause 3; a
reset of the function also drops what is staged; the second's check of the credits stops a queue whose counts fail with cause 4. -/
def Obligations.HostQueueEvents : Prop :=
  (∀ (s : State) (q : Fin 32) (v w : Nat) (l : List RawDesc), s.sized → w ≠ 32 ∨ (s.queue q.val).running = false ∨ (s.queue q.val).stopped = true →
    Does (.sqTail q v w l) s fun t => t.queue q.val = { s.queue q.val with discards := satAdd (s.queue q.val).discards 1 65535 })
  ∧ (∀ (s : State) (q : Fin 32) (v w : Nat), s.sized → w ≠ 32 ∨ (s.queue q.val).running = false ∨ (s.queue q.val).stopped = true →
    Does (.cqHead q v w) s fun t => t.queue q.val = { s.queue q.val with discards := satAdd (s.queue q.val).discards 1 65535 })
  ∧ (∀ (s : State) (q : Fin 32) (v : Nat) (l : List RawDesc), s.sized → (s.queue q.val).running = true → (s.queue q.val).stopped = false →
    s.sqEntries q.val ≤ v → Does (.sqTail q v 32 l) s fun t => (t.queue q.val).stopped = true ∧ (t.queue q.val).cause = 1
      ∧ (t.queue q.val).inMod = (s.queue q.val).inMod ∧ (t.queue q.val).cqUsed + (t.queue q.val).cqWait.length =
        (s.queue q.val).cqUsed + (s.queue q.val).cqWait.length + 1 ∧ t.Saw Ev.queueStopped [q.val, 1])
  ∧ (∀ (s : State) (q : Fin 32) (v : Nat) (l : List RawDesc), (s.queue q.val).running = true → (s.queue q.val).stopped = false →
    v < s.sqEntries q.val → Does (.sqTail q v 32 l) s fun t => t = (s.setQueue q.val (fun y => { y with
      sqTail := v, ring := y.ring ++ (List.range ((v + s.sqEntries q.val - (s.queue q.val).sqTail) % s.sqEntries q.val)).map
        (fun i => (l.getD i zeroDesc).desc) })).fetchAndPump q.val)
  ∧ (∀ (s : State) (q : Fin 32) (v : Nat), (s.queue q.val).running = true → (s.queue q.val).stopped = false →
    v < s.cqEntries q.val → Does (.cqHead q v 32) s fun t => t = ((s.setQueue q.val (fun y => { y with
      cqHead := v, cqUsed := y.cqUsed - (s.queue q.val).released (s.cqEntries q.val) v })).flushCq q.val
        (s.queue q.val).cqWait.length).fetchAndPump q.val)
  ∧ (∀ (x : Queue) (n v : Nat), v < n → x.cqUsed < n → v < x.cqHead → x.cqHead < n → x.released n v = v + n - x.cqHead)
  ∧ (∀ (x : Queue) (n v : Nat), x.cqHead ≤ v → v < n → x.cqUsed < n → x.released n v = v - x.cqHead)
  ∧ (∀ (s : State) (q : Fin 32), (s.queue q.val).running = true → (s.queue q.val).stopped = false → classAccepts (s.qClass q.val) 0x80 = true →
    Does (.streamBufferPost q) s fun t => t = s.fillAll q.val)
  ∧ (∀ (s : State) (q : Fin 32) (h : Held) (l : List Held) (a : Nat), (s.queue q.val).inMod = h :: l → h.since = some a →
    Does (.streamFlushTimeout q) s fun t => t = (((s.advance (a + Fld.qpLim_FLUSH s.cfg q.val * 1000000)).complete q.val 0 St.ok 0 h.used
      (h.flags (s.backlog (s.qClass q.val)).next.isSome)).fetchAndPump q.val).fillAll q.val)
  ∧ (∀ (s : State) (q : Nat), q < 32 → (s.queue q).live = true → Does .hostLinkDown s fun t => t.host.linkUp = false
      ∧ (t.queue q).stopped = true ∧ (t.queue q).cause = 3 ∧ (t.queue q).inMod = [] ∧ t.setup = s.setup ∧ t.gate = s.gate ∧ t.loop = s.loop)
  ∧ (∀ s : State, Does .hostLinkUp s fun t => t.host = { s.host with linkUp := true } ∧ t.Saw Ev.hostLink [1, 0, 0])
  ∧ (∀ s : State, Does .functionLevelReset s fun t => t.setup.staged = s.setup.active ∧ t.setup.active = s.setup.active ∧ t.setup.blocks = []
      ∧ t.setup.pending = none ∧ (s.setup.pending.isSome = true → t.setup.cState = 6))
  ∧ (∀ (s : State) (n : Nat), (∀ q < 32, (s.queue q).creditsOk = true) → Does (.creditCheck n) s fun t => t = s.advance (n * 1000000000))
  ∧ (∀ (s : State) (n q : Nat), q < 32 → s.sized → (s.queue q).live = true → (s.queue q).stopped = false → (s.queue q).creditsOk = false →
    Does (.creditCheck n) s fun t => (t.queue q).stopped = true ∧ (t.queue q).cause = 4
      ∧ t.Saw Ev.creditCount [q, (s.queue q).g, (s.queue q).c, (s.queue q).r])
  ∧ (∀ (s : State) (q : Fin 32), s.sized → (s.queue q.val).irqDue = true → (s.queue q.val).irqAfter < 2 ^ 64 → Does (.irqGapEnd q) s fun t =>
      t.out = Out.irq (Fld.qpCfg_VECTOR s.cfg q.val) :: s.out ∧ (t.queue q.val).irqDue = false)
  ∧ (∀ (s : State) (q : Fin 32), (s.queue q.val).irqDue = false → Does (.irqGapEnd q) s fun t => t.out = s.out ∧ t.host = s.host)
  ∧ (∀ (s : State) (w : WaitCmd), s.host.waiting.find? (fun w => decide (w.cmd.opcode = 0x12 ∨ w.cmd.opcode = 0x70) && w.own) = some w →
    w.expires < 2 ^ 64 → Does .cmdExpired s fun t => w ∉ t.host.waiting ∧ t.Saw Ev.cmdExpired [(w.cmd.opcode.toNat : Int)])

/-- 14 Table 14.6, R378, 02 R44: the block commands and the slack read. -/
def Obligations.BlockCommands : Prop :=
  (∀ (s t : State) (q : Fin 32) (d : Desc), s.Turn q 0x01 anyArg d t → 1 ≤ d.argByte 0 → d.argByte 0 ≤ 3 →
    exec (.cfgBlockWrite q) s = .next (State.ends { t with setup := { t.setup with
      blocks := (t.setup.blocks.filter (fun b => decide (b.1 ≠ d.argByte 0))) ++ [(d.argByte 0, d.body)] } } q 0 0 []))
  ∧ (∀ (s t : State) (q : Fin 32) (d : Desc), s.Turn q 0x01 anyArg d t → d.argByte 0 = 0 ∨ 3 < d.argByte 0 →
    exec (.cfgBlockWrite q) s = .next (t.refuses q St.fieldRange 32))
  ∧ (∀ (s t : State) (q : Fin 32) (d : Desc) (b : Nat × List Byte), s.Turn q 0x02 anyArg d t → 1 ≤ d.argByte 0 → d.argByte 0 ≤ 3 →
    d.argByte 1 ≤ 1 → (if d.argByte 1 = 0 then t.setup.blocks else t.setup.blocksAct).find? (fun b => decide (b.1 = d.argByte 0)) = some b →
    b.2.length ≤ d.respLen → exec (.cfgBlockRead q) s = .next (t.ends q b.2.length 0 b.2))
  ∧ (∀ (s t : State) (q : Fin 32) (d : Desc), s.Turn q 0x02 anyArg d t → 1 ≤ d.argByte 0 → d.argByte 0 ≤ 3 →
    d.argByte 1 ≤ 1 → (if d.argByte 1 = 0 then t.setup.blocks else t.setup.blocksAct).find? (fun b => decide (b.1 = d.argByte 0)) = none →
    exec (.cfgBlockRead q) s = .next (t.refuses q St.noRecord 0))
  ∧ (∀ (s t : State) (q : Fin 32) (d : Desc), s.Turn q 0x34 anyArg d t → d.argLe 0 2 ≤ 16383 → 1 ≤ d.argLe 2 2 → d.argLe 2 2 ≤ 16384 →
    64 * d.argLe 2 2 ≤ d.respLen → exec (.slackRead q) s = .next (let l := (t.fabric.history.reverse.drop (d.argLe 0 2)).take (d.argLe 2 2)
      ((t.emit (.response q (l.flatMap SlackRec.bytes))).complete q 0 St.ok 0 (64 * l.length) 0).fetchAndPump q))
  ∧ (∀ (s t : State) (q : Fin 32) (d : Desc), s.Turn q 0x34 anyArg d t → d.argLe 0 2 ≤ 16383 → 1 ≤ d.argLe 2 2 → d.argLe 2 2 ≤ 16384 →
    d.respLen < 64 * d.argLe 2 2 → exec (.slackRead q) s =
      .next ((t.complete q 0 St.bufferShort 0 (64 * d.argLe 2 2) 0).fetchAndPump q))
  ∧ (∀ (s t : State) (q : Fin 32) (d : Desc), s.Turn q 0x34 anyArg d t → d.argLe 2 2 = 0 ∨ 16384 < d.argLe 2 2 → d.argLe 0 2 ≤ 16383 →
    exec (.slackRead q) s = .next (t.refuses q St.fieldRange 34))

/-- 14 R377: the checks of a descriptor, the first failure in their order; where none fails the rest of the list holds. -/
def Obligations.DescriptorChecks : Prop :=
  (∀ (cls : Nat) (d : Desc), preCheck cls false d = some (St.noCredit, 0))
  ∧ (∀ (cls : Nat) (d : Desc), classAccepts cls d.opcode.toNat = false → preCheck cls true d = some (St.opcode, 0))
  ∧ (∀ (cls : Nat) (d : Desc), classAccepts cls d.opcode.toNat = true → d.cmdId = 0xFFFF → preCheck cls true d = some (St.fieldRange, 0))
  ∧ (∀ (cls i : Nat) (d : Desc), classAccepts cls d.opcode.toNat = true → i < 24 → argUsed d.opcode.toNat (d.argByte 0) i = false →
      d.argByte i ≠ 0 → ∃ b, preCheck cls true d = some (St.fieldRange, b))
  ∧ (∀ (cls : Nat) (d : Desc), preCheck cls true d = none → classAccepts cls d.opcode.toNat = true ∧ d.cmdId ≠ 0xFFFF ∧ d.reserved = none
      ∧ d.flags.toNat < 4 ∧ (descUsesData d = true → 1 ≤ d.dataLen ∧ d.dataLen ≤ 16777216 ∧ d.dataAddr % 8 = 0 ∧ d.dmaOk = true)
      ∧ (descUsesResp d = true → 1 ≤ d.respLen ∧ d.respLen ≤ 16777216 ∧ d.respAddr % 8 = 0)
      ∧ ∀ i < 24, argUsed d.opcode.toNat (d.argByte 0) i = false → d.argByte i = 0)
  ∧ (∀ (s : State) (q status detail : Nat), (s.queue q).inMod = [] → s.complete q 0 status detail 0 0 = s)

/-- 14 R380 to R382: the credits of a queue. A fetched descriptor consumes one where one is unspent; a completion of one that consumed a
credit returns it and grants at most 255, up to B outstanding; so R ≤ C ≤ G, and C − R is the number of credits in the module. A completion
for which the ring has no room waits, and the ring never holds more than its entries (R375). -/
def Obligations.CreditsHold : Prop :=
  (∀ (x : Queue) (n : Nat), x.creditsOk = true → (x.fetch1 n).creditsOk = true ∧ (x.fetch1 n).g = x.g ∧ (x.fetch1 n).r = x.r)
  ∧ (∀ (s : State) (q i status detail len fl : Nat), q < s.host.queues.length → (s.queue q).creditsOk = true →
      ((s.complete q i status detail len fl).queue q).creditsOk = true)
  ∧ (∀ (s : State) (q i status detail len fl : Nat) (h : Held), q < s.host.queues.length → (s.queue q).inMod[i]? = some h → h.credit = true →
      (s.queue q).cqWait = [] → (s.queue q).cqUsed < s.cqEntries q → ((s.complete q i status detail len fl).queue q).r = (s.queue q).r + 1
      ∧ ((s.complete q i status detail len fl).queue q).g = (s.queue q).g + grantOf (s.budget q) (s.queue q).g ((s.queue q).r + 1))
  ∧ (∀ (s : State) (q i status detail len fl : Nat) (h : Held), q < s.host.queues.length → (s.queue q).inMod[i]? = some h → h.credit = false →
      ((s.complete q i status detail len fl).queue q).r = (s.queue q).r ∧ ((s.complete q i status detail len fl).queue q).g = (s.queue q).g)
  ∧ (∀ (s : State) (q i status detail len fl : Nat) (h : Held), q < s.host.queues.length → (s.queue q).inMod[i]? = some h →
      s.cqEntries q ≤ (s.queue q).cqUsed → ((s.complete q i status detail len fl).queue q).r = (s.queue q).r
      ∧ ((s.complete q i status detail len fl).queue q).g = (s.queue q).g ∧ (s.complete q i status detail len fl).out = s.out
      ∧ ((s.complete q i status detail len fl).queue q).cqWait.length = (s.queue q).cqWait.length + 1)
  ∧ (∀ (s : State) (q : Nat) (w : CqWait), q < s.host.queues.length → (s.queue q).cqUsed ≤ s.cqEntries q →
      ((s.putCompletion q w).queue q).cqUsed ≤ s.cqEntries q)
  ∧ (∀ b g r : Nat, grantOf b g r ≤ 255 ∧ (r ≤ g → g - r ≤ b → g + grantOf b g r - r ≤ b) ∧ (b ≤ g - r → grantOf b g r = 0))
  ∧ (∀ (s : State) (q : Nat), q < s.host.queues.length → (s.queue q).creditsOk = true → ((s.fetch q).queue q).creditsOk = true)

/-- 14 R387: the authorisation of a signed command. The first failing check is the status, each failure is recorded, and a command that passes
stores its nonce for the slot. (Without a trailer there is no slot, and the event's slot is a free value.) -/
def Obligations.SignedCommands : Prop :=
  (∀ (s : State) (d : Desc) (r : Nat), d.signed = false → (s.authorise d (some r)).2 = some (St.authRequired, 0)
      ∧ ∃ slot : Nat, (s.authorise d (some r)).1.Saw Ev.authRefused [slot, d.opcode.toNat, St.authRequired])
  ∧ (∀ (s : State) (d : Desc), d.signed = false → s.authorise d none = (s, none))
  ∧ (∀ (s : State) (d : Desc) (r : Nat) (k : KeySlot), d.signed = true → 96 ≤ d.dataLen → byteAt d.data d.trailer < 16 →
    s.host.keys[byteAt d.data d.trailer]? = some k → k.st ≠ 1 ∨ k.role ≠ byteAt d.data (d.trailer + 1) ∨ byteAt d.data (d.trailer + 1) ≠ r →
    (s.authorise d (some r)).2 = some (St.authRole, 0))
  ∧ (∀ (s t : State) (d : Desc) (r : Nat), s.authorise d (some r) = (t, none) → d.signed = true ∧ d.sigOk = true
    ∧ byteAt d.data (d.trailer + 1) = r ∧ s.sysNs ≤ nsOfEvent (leAt d.data (d.trailer + 8) 8)
    ∧ nsOfEvent (leAt d.data (d.trailer + 8) 8) ≤ s.sysNs + 86400000000000
    ∧ (s.host.keys.getD (byteAt d.data d.trailer) ⟨0, 0, 0, 0, 0⟩).nonce < leAt d.data (d.trailer + 16) 8)
  ∧ (∀ (s t : State) (d : Desc) (r : Nat), s.authorise d (some r) = (t, none) → byteAt d.data d.trailer < s.host.keys.length →
    (t.host.keys.getD (byteAt d.data d.trailer) ⟨0, 0, 0, 0, 0⟩).nonce = leAt d.data (d.trailer + 16) 8)
  ∧ (∀ (s t : State) (d : Desc) (role : Option Nat) (p : Nat × Nat), s.authorise d role = (t, some p) → t.host = s.host
    ∧ (p.1 ≠ St.authRequired → t.Saw Ev.authRefused [byteAt d.data d.trailer, d.opcode.toNat, p.1]))

/-- 14 R384: a backlog. Records are kept within 4 MiB by dropping the oldest, each dropped one counted for its kind's marker, which goes ahead
of the records. -/
def Obligations.Backlogs : Prop :=
  (∀ (b : Backlog) (k : Nat), ∃ n, (b.trim k).recs = b.recs.drop n ∧ n ≤ k)
  ∧ (∀ b : Backlog, backlogBytes (b.trim b.recs.length) ≤ 4194304 ∨ (b.trim b.recs.length).recs = [])
  ∧ (∀ b : Backlog, backlogBytes b ≤ 4194304 → ∀ k, b.trim k = b)
  ∧ (∀ (b : Backlog) (k : Nat), sumN ((b.trim k).lost.map Lost.count) + (b.trim k).recs.length = sumN (b.lost.map Lost.count) + b.recs.length)
  ∧ (∀ (b : Backlog) (l : Lost) (m : List Lost), b.lost = l :: m → b.next = some (markerOf l) ∧ b.drop1.recs = b.recs)

/-- 15 R389, R391, R392, 19 R478: Ethernet. A port answers ARP and ICMP echo for its own address; LAN supervision marks a LAN up at its first
frame and down after 3 × LIFE of silence; a node leaves the table 60 s after its last refresh; a read of ETH_STAT clears DROPS. -/
def Obligations.EthernetCommands : Prop :=
  (∀ (s : State) (ep : Fin 4) (a : Nat), s.ethRoom ep → s.sending = true → s.netAddr ep ≠ 0 → a = s.netAddr ep → Does (.arpRequest ep a) s fun t =>
      t = ((s.arrived ep).emit (.eth (if ep.val ≤ 1 then 0 else ep.val) 1 [(a : Int)])).prpTrailer ep)
  ∧ (∀ (s : State) (ep : Fin 4) (a : Nat), s.ethRoom ep → a ≠ s.netAddr ep → Does (.arpRequest ep a) s fun t => t = s.arrived ep)
  ∧ (∀ (s : State) (ep : Fin 4) (a : Nat) (i n : BitVec 16) (b : List Byte), s.ethRoom ep → s.sending = true → s.netAddr ep ≠ 0 →
    a = s.netAddr ep → b.length ≤ 1472 → Does (.icmpEchoRequest ep a i n b) s fun t =>
      t = ((s.arrived ep).emit (.eth (if ep.val ≤ 1 then 0 else ep.val) 2 ([(i.toNat : Int), n.toNat] ++ b.map (fun x => (x.toNat : Int))))).prpTrailer ep)
  ∧ (∀ (s : State) (ep : Fin 4), ep.val ≤ 1 → (s.prpTrailer ep).out = .prp s.plant.prpSeq :: s.out
      ∧ (s.prpTrailer ep).plant.prpSeq = s.plant.prpSeq + 1)
  ∧ (∀ (s : State) (ep : Fin 4), s.sized → ¬s.ethRoom ep → (s.ethPort ep).drops < 65535 →
      ((s.arrived ep).ethPort ep).drops = (s.ethPort ep).drops + 1)
  ∧ (∀ (s : State) (ep : Fin 4) (up gig : Bool), s.sized → Does (.ethLinkChange ep up gig) s fun t =>
      (t.ethPort ep).link = (up && Fld.netCfg_EN s.cfg (if ep.val ≤ 1 then 0 else ep.val))
      ∧ (t.ethPort ep).gig = ((t.ethPort ep).link && gig && !Fld.netCfg_SPEED s.cfg (if ep.val ≤ 1 then 0 else ep.val)))
  ∧ (∀ s : State, s.sending = true → Fld.netCfg_EN s.cfg 0 = true → Does .prpSupervisionSend s fun t =>
      t.out = Out.prp s.plant.prpSeq :: Out.eth 0 3 [] :: s.out
      ∧ t.plant.prpSeq = s.plant.prpSeq + 1 ∧ t.plant.prpSent = t.now)
  ∧ (∀ (s : State) (lan : Fin 2) (mac : Nat), s.ethRoom lan → s.sized → Does (.prpSupervisionReceived lan mac) s fun t =>
      (t.ethPort lan).prpUp = true ∧ (t.ethPort lan).lanAt = some s.now
      ∧ (s.plant.nodes.length < 256 → (mac, s.now) ∈ t.plant.nodes)
      ∧ ((s.ethPort lan).prpUp = false → t.Saw Ev.prpLanUp [lan.val]))
  ∧ (∀ (l : List (Nat × Nat)) (mac now : Nat), l.length ≤ 256 → (nodeSeen l mac now).length ≤ 256)
  ∧ (∀ (s : State) (e : Nat × Nat), oldestNode s.plant.nodes = some e → Does .prpNodeAgedOut s fun t =>
      t.plant.nodes = s.plant.nodes.erase e ∧ t.now = (s.advance (e.2 + 60000000000)).now)
  ∧ (∀ (s : State) (lan : Fin 2) (a : Nat), s.sized → (s.ethPort lan).lanAt = some a → (s.ethPort lan).prpUp = true →
    Does (.prpLanDown lan) s fun t => (t.ethPort lan).prpUp = false ∧ t.Saw Ev.prpLanDown [lan.val]
      ∧ t.now = (s.advance (a + 300000000 * Fld.prpCfg_LIFE s.cfg)).now)
  ∧ (∀ (s : State) (lan : Fin 2), s.ethRoom lan → s.sized → (s.ethPort lan).prpUp = false → Does (.prpLanUp lan) s fun t =>
      (t.ethPort lan).prpUp = true ∧ t.Saw Ev.prpLanUp [lan.val])
  ∧ (∀ (s : State) (n : Fin 4), s.sized → Does (.ethStatRead n) s fun t =>
      t.out = Out.read (Reg.ethStat + 4 * n.val) ((s.ethPort n).word n) :: s.out ∧ t.ethPort n = { s.ethPort n with drops := 0 })

/-- 15 R394, R391, R403: plant messages. A frame taken within DUP_MS is discarded; one that fails checks 1 to 3 is counted as a drop; every one
that reaches check 4 is answered by one ACK with its status; dispatch off is ST_DISPATCH_SOURCE; an SSEQ that is not newer is stale. -/
def Obligations.PlantMessages : Prop :=
  (∀ (s : State) (ep : Fin 4) (udp src : Nat) (b : List Byte), s.ethRoom ep → s.netAddr ep ≠ 0 → s.inService = true →
    Does (.plantMessage ep udp src none b) s fun t => t = (s.arrived ep).plantMessage ep udp src b)
  ∧ (∀ (s : State) (ep : Fin 4) (udp src mac : Nat) (n : BitVec 16) (b : List Byte), s.ethRoom ep → s.netAddr ep ≠ 0 → s.inService = true →
    ep.val ≤ 1 → s.prpSeen mac n.toNat = true → Does (.plantMessage ep udp src (some (mac, n)) b) s fun t => t = (s.arrived ep).lanHeard ep)
  ∧ (∀ (s : State) (ep : Fin 4) (udp src mac : Nat) (n : BitVec 16) (b : List Byte), s.ethRoom ep → s.netAddr ep ≠ 0 → s.inService = true →
    ep.val ≤ 1 → s.prpSeen mac n.toNat = false → Does (.plantMessage ep udp src (some (mac, n)) b) s fun t =>
      t = (((s.arrived ep).lanHeard ep).prpNote mac n.toNat).plantMessage ep udp src b)
  ∧ (∀ (s : State) (ep udp src : Nat) (b : List Byte), udp ≠ Fld.plantCfg_UDP s.cfg ∨ b.length < 32 ∨ byteAt b 0 ≠ 1
      ∨ leAt b 2 2 ≠ b.length - 32 ∨ plantLen (byteAt b 1) (b.length - 32) = false → s.plantMessage ep udp src b = s.ethDrop ep)
  ∧ (∀ (s : State) (ep udp src : Nat) (b : List Byte), byteAt b 1 ≠ 0x20 → s.cfg.get Reg.plantId = 0 → s.plantMessage ep udp src b = s.ethDrop ep)
  ∧ (∀ (s : State) (b : List Byte), Fld.plantCfg_DISP s.cfg = false → (s.plantDispatch b).status = St.dispatchSource
      ∧ (s.plantDispatch b).next = s ∧ (s.plantStage b).status = St.dispatchSource ∧ (s.plantStage b).next = s)
  ∧ (∀ (s : State) (b : List Byte) (l : Word), Fld.plantCfg_DISP s.cfg = true → s.takeCopy ⟨0x11, b.take 8, []⟩ 1 = none → 2 ≤ byteAt b 0 →
    byteAt b 0 ≤ 4 → zerosAt b 1 3 = true → s.plant.sseq = some l → newerSeq (some l) (BitVec.ofNat 32 (leAt b 4 4)) = false →
    (s.plantStage b).status = St.setpointStale ∧ (s.plantStage b).next = s)
  ∧ (∀ (s : State) (b : List Byte), Fld.plantCfg_DISP s.cfg = true → s.takeCopy ⟨0x11, b.take 8, []⟩ 1 = none → byteAt b 0 = 1 →
    s.plantActive = false → (s.plantStage b).status = St.dispatchSource ∧ (s.plantStage b).next = s)

/-- 15 R400 to R405, R407: CAN FD. A receive object takes a frame's data and is lost without one for PERIOD ms; a periodic object is queued at
each multiple of its PERIOD; the pending frame with the lowest identifier is offered; an acknowledged attempt ends the frame and lowers the
error counter, a failed one raises it by 8 unless the controller is error-passive and saw no dominant bit; 16 acknowledgement errors in a
row are EV_CAN_ALONE; above 255 the controller is bus-off until it has recovered. -/
def Obligations.CanCommands : Prop :=
  (∀ (s : State) (p : Fin 6) (ext : Bool) (ident sof : Nat) (data : List Byte), s.canOn p = false →
    Does (.canFrameReceived p ext ident sof data) s fun t => t = s)
  ∧ (∀ (s : State) (p : Fin 6) (ident sof : Nat) (data : List Byte) (r : CanRow), s.canOn p = true → s.isPair = false →
    (s.canHeard p).objectFor p false ident = some r → 128 * r.port + r.obj < s.plant.objs.length →
    Does (.canFrameReceived p false ident sof data) s fun t => (t.canObj r.port r.obj).data = padTo r.length (data.take r.length)
      ∧ (t.canObj r.port r.obj).lost = false ∧ (t.canObj r.port r.obj).lastAt = some s.now ∧ (t.canObj r.port r.obj).sof = s.eventAt sof)
  ∧ (∀ (s : State) (p : Fin 6) (o : Fin 128) (r : CanRow), s.sized → s.canRow p o = some r → r.dir = 1 → r.period ≠ 0 →
    (s.canObj p o).lost = false → Does (.canObjectTimeout p o) s fun t => t.canObj p o = { s.canObj p o with lost := true }
      ∧ t.now = (s.advance (((s.canObj p o).lastAt.getD s.life.serviceAt) + 1000000 * r.period)).now)
  ∧ (∀ (s : State) (p : Fin 6) (o : Fin 128) (r : CanRow), s.sized → s.canRow p o = some r → r.dir = 2 → r.period ≠ 0 → r.port = p.val →
    r.obj = o.val → Fld.canCfg_EN s.cfg p = true → s.twin.txOff = false → s.isPair = false → Does (.canPeriodicQueue p o) s fun t =>
      ((t.canObj p o).tx.map CanTx.data) = some (padTo r.length (s.canObj p o).out))
  ∧ (∀ (s : State) (p : Fin 6), s.sized → Fld.canCfg_ANNOUNCE s.cfg p = true → (Fld.canCfg_PROTO s.cfg p = false ∨ s.life.guard_ = true) →
    s.sending = true → Fld.canCfg_EN s.cfg p = true → (s.canPort p).express.length = 3 → Does (.canAnnounce p) s fun t =>
      (((t.canPort p).express.getD 2 none).map CanTx.ident) = some (protoIdent 6 6 s.chain.identity) ∧ (t.canPort p).annAt.isSome = true)
  ∧ (∀ (s : State) (p : Fin 6) (n : Nat) (err : Fin 7) (d : Bool), s.canOn p = false ∨ s.offered p n = none →
    Does (.canTxAttemptEnd p n err d) s fun t => t = s)
  ∧ (∀ (s : State) (p : Fin 6) (n : Nat) (d : Bool) (x : Offer), s.sized → s.canOn p = true → s.offered p n = some x →
    Does (.canTxAttemptEnd p n 0 d) s fun t => t.out = Out.can p x.ident x.data :: s.out ∧ (t.canPort p).alone = false
      ∧ (t.canPort p).ackRun = 0 ∧ (t.canPort p).tec = (s.canPort p).tec - 1 ∧ ((s.canPort p).alone = true → t.Saw Ev.canPeer [p.val]))
  ∧ (∀ (s : State) (p : Fin 6) (n : Nat) (d : Bool) (x : Offer), s.sized → s.canOn p = true → s.offered p n = some x → (s.canPort p).st = 0 →
    (s.canPort p).tec ≤ 247 → (s.canPort p).ackRun = 15 → (s.canPort p).alone = false → Does (.canTxAttemptEnd p n 3 d) s fun t =>
      t.out = s.out ∧ (t.canPort p).alone = true ∧ (t.canPort p).tec = (s.canPort p).tec + 8 ∧ t.Saw Ev.canAlone [p.val])
  ∧ (∀ (s : State) (p : Fin 6) (n : Nat) (x : Offer), s.sized → s.canOn p = true → s.offered p n = some x → (s.canPort p).st = 1 →
    (s.canPort p).tec ≤ 255 → Does (.canTxAttemptEnd p n 3 false) s fun t => (t.canPort p).tec = (s.canPort p).tec)
  ∧ (∀ (s : State) (p : Fin 6) (n : Nat) (e : Fin 7) (x : Offer), s.sized → s.canOn p = true → s.offered p n = some x → e.val ≠ 0 → e.val ≠ 3 →
    247 < (s.canPort p).tec → Does (.canTxAttemptEnd p n e false) s fun t => (t.canPort p).st = 3 ∧ t.Saw Ev.canBusOff [p.val])
  ∧ (∀ (s : State) (p : Fin 6), s.sized → 2 ≤ (s.canPort p).st → Does (.canRecovered p) s fun t => (t.canPort p).st = 0
      ∧ (t.canPort p).tec = 0 ∧ (t.canPort p).express = (s.canPort p).express ∧ t.plant.objs = s.plant.objs ∧ t.Saw Ev.canRecovered [p.val])
  ∧ (∀ (s : State) (n : Fin 6), s.sized → Does (.canStatRead n) s fun t =>
      t.out = Out.read (Reg.canStat + 4 * n.val) (s.canPort n).word :: s.out ∧ t.canPort n = { s.canPort n with lost := 0, overrun := 0 })
  ∧ (∀ (s : State) (p n : Nat) (x : Offer), s.offered p n = some x → ∀ (i : Nat) (e : CanTx), i < 3 → (s.canPort p).express.getD i none = some e →
      e.at_ ≤ n → x.key ≤ (⟨128 + i, true, e.ident, e.data⟩ : Offer).key)
  ∧ (∀ (x : CanTx) (n : Nat), x.at_ ≤ n → x.after n true = none ∧ x.after n false = some x)
  ∧ (∀ (x : CanTx) (n : Nat) (ok : Bool), n < x.at_ → x.after n ok = some { x with old := none })

/-- 15 R409 to R412: Modbus. A port takes the entry due earliest; a good reply ends the transaction and returns a lost entry; a failed try is
repeated up to RETRY times; FAILS failed transactions in a row lose the entry; a read of SB_STAT clears LATE and FAILED. -/
def Obligations.ModbusCommands : Prop :=
  (∀ (s : State) (p : Fin 4), Fld.sbCfg_EN s.cfg p = false ∨ (s.sbPort p).cur.isSome = true ∨ s.twin.txOff = true →
    Does (.modbusPoll p) s fun t => t = s)
  ∧ (∀ (s : State) (p : Fin 4) (e a : Nat) (r : MbRow), s.sized → Fld.sbCfg_EN s.cfg p = true → (s.sbPort p).cur = none → s.twin.txOff = false →
    s.portRows p = [(e, r)] → (s.mbEntry e).due = some a → e < s.plant.mb.length → Does (.modbusPoll p) s fun t =>
      (t.mbEntry e).due = none ∧ (t.sbPort p).cur = some (e, 0, t.now) ∧ t.now = (s.advance a).now)
  ∧ (∀ (s : State) (p : Fin 4) (b : List Byte) (whole : Bool) (e k n : Nat) (r : MbRow) (l : List Nat), s.sized → s.isPair = false →
    (s.sbPort p).cur = some (e, k, n) → s.mbRow e = some r → mbReply r (s.sbPort p).sent b whole = .ok l → e < s.plant.mb.length →
    Does (.modbusReply p b whole) s fun t => (t.sbPort p).cur = none ∧ (t.mbEntry e).fails = 0 ∧ (t.mbEntry e).lost = false
      ∧ (if r.reads then (t.mbEntry e).regs = l else (t.mbEntry e).written = some l)
      ∧ ((s.mbEntry e).lost = true → t.Saw Ev.modbusReturned [e]))
  ∧ (∀ (s : State) (p : Fin 4) (b : List Byte) (whole : Bool) (e k n c x : Nat) (r : MbRow), (s.sbPort p).cur = some (e, k, n) →
    s.mbRow e = some r → mbReply r (s.sbPort p).sent b whole = .error (c, x) → k < Fld.sbCfg_RETRY s.cfg p →
    Does (.modbusReply p b whole) s fun t => t = s.mbSend p e r (k + 1))
  ∧ (∀ (s : State) (p : Fin 4) (e k n : Nat) (r : MbRow), s.sized → (s.sbPort p).cur = some (e, k, n) → s.mbRow e = some r →
    Fld.sbCfg_RETRY s.cfg p ≤ k → e < s.plant.mb.length → Does (.modbusTimeout p) s fun t => (t.sbPort p).cur = none
      ∧ (t.mbEntry e).lost = ((s.mbEntry e).lost || decide (r.fails ≤ (s.mbEntry e).fails + 1))
      ∧ (r.fails ≤ (s.mbEntry e).fails + 1 → (s.mbEntry e).lost = false → t.Saw Ev.modbusLost [e, 1, 0]))
  ∧ (∀ (s : State) (p : Fin 4), (s.sbPort p).cur = none → Does (.modbusTimeout p) s fun t => t = s)
  ∧ (∀ (s : State) (p : Fin 4), s.sized → Does (.modbusRequestHeard p) s fun t => (t.sbPort p).heard = s.now ∧ t.plant.mb = s.plant.mb)
  ∧ (∀ (s : State) (n : Fin 4), s.sized → Does (.sbStatRead n) s fun t =>
      t.out = Out.read (Reg.sbStat + 4 * n.val) (s.sbWord n) :: s.out ∧ t.sbPort n = { s.sbPort n with late := 0, failed := 0 })
  ∧ (∀ (r : MbRow) (l : List Nat) (b : List Byte), mbReply r l b false = .error (2, 0))
  ∧ (∀ (r : MbRow) (l : List Nat) (b : List Byte), 5 ≤ b.length → leAt b (b.length - 2) 2 = crcModbus (b.take (b.length - 2)) → byteAt b 0 = r.slave →
    byteAt b 1 = r.func + 128 → mbReply r l b true = .error (0, byteAt b 2))
  ∧ (∀ s : State, s.isPair = false → ∀ p, s.mbMaster p = true)

/-- 16 R417 to R421, R438: frames of the partner. The second copy of a frame has no effect; a first copy puts its link in service, and has its
effect; a link without a good frame for LINK_MS leaves service; slots, STATUS and inputs are taken as the twin's own, commands as accepted,
digests compared once both of a second are there. -/
def Obligations.PairFrames : Prop :=
  (∀ (s : State) (h : PairHead), Does (.pairHeartFrame h) s fun t => t = (s.pairHear h).1 ∧ t.twin.partnerIn = h.inService
      ∧ (h.link.val < s.twin.linkUp.length → t.twin.linkUp.getD h.link.val false = true) ∧ h.pseq ∈ t.twin.pseqSeen)
  ∧ (∀ (s : State) (h : PairHead) (f : State → State), h.pseq ∈ s.twin.pseqSeen → s.pairFrame h f = .next (s.pairHear h).1)
  ∧ (∀ (s : State) (link : Fin 2) (a : Nat), s.sized → s.twin.linkUp.getD link.val false = true → s.twin.lastFrame.getD link.val none = some a →
    Does (.pairLinkTimeout link) s fun t => t.twin.linkUp.getD link.val true = false
      ∧ t.now = (s.advance (a + 1000000 * Fld.pairCfg_LINK_MS s.cfg)).now
      ∧ (s.twin.linkUp.getD (1 - link.val) false = false → t.twin.partnerIn = false ∧ t.twin.pseqSeen = []))
  ∧ (∀ (s : State) (h : PairHead) (r : Fin 8) (e : End) (late : Bool) (first count grid receipt : Nat) (b : List Byte), s.isPair = true →
    h.pseq ∉ s.twin.pseqSeen → s.agrees = true → Does (.pairSlotsFrame h r e late first count grid receipt b) s fun t =>
      t = ((s.pairHear h).1.takeSlots r e first count grid late receipt (List.replicate 16 0 ++ b)).onLine r
        (fun l => { l with crcErr := ((s.pairHear h).1.line r).crcErr }))
  ∧ (∀ (s : State) (h : PairHead) (l : Fin 8) (receipt : Nat) (b : List Byte) (f : StatusFrame), s.isPair = true →
    h.pseq ∉ s.twin.pseqSeen → s.agrees = true → parseStatus l b = some f → l.val < s.links → Does (.pairStatusFrame h l receipt b) s fun t =>
      t = (s.pairHear h).1.takeStatus l f receipt)
  ∧ (∀ (s : State) (h : PairHead) (l : List PairInput), s.isPair = true → h.pseq ∉ s.twin.pseqSeen → s.agrees = true →
    Does (.pairInputsFrame h l) s fun t => t = l.foldl State.takeInput (s.pairHear h).1)
  ∧ (∀ (s : State) (h : PairHead) (c : Cmd) (src : Fin 2) (a : Nat), s.isPair = true → h.pseq ∉ s.twin.pseqSeen → s.agrees = true →
    c.opcode.toNat ≠ 0 → bothOpcodes.contains c.opcode.toNat = true → Does (.pairCommandFrame h c src a) s fun t => t = (s.pairHear h).1.peerBoth c a)
  ∧ (∀ (s : State) (h : PairHead) (c : Cmd) (src : Fin 2) (a : Nat), s.isPair = true → h.pseq ∉ s.twin.pseqSeen → s.agrees = true →
    c.opcode = 0x30 → Does (.pairCommandFrame h c src a) s fun t => t.host.accepted = s.host.accepted ++ [(a + 1000000, c)])
  ∧ (∀ (s : State) (c : Cmd) (a : Nat) (w : WaitCmd), s.host.waiting = [w] → w.cmd = c → w.own = true → w.peer = false →
      (s.peerBoth c a).host.waiting = [] ∧ (s.peerBoth c a).host.accepted = s.host.accepted ++ [(max w.acceptedAt a + 500000, c)])
  ∧ (∀ (s : State) (h : PairHead) (b : List Byte) (p : SafetyPdu), s.isPair = true → h.pseq ∉ s.twin.pseqSeen → s.computes = true →
    parsePdu b = some p → Does (.pairSafetyFrame h b) s fun t => t = (s.pairHear h).1.takePartner p)
  ∧ (∀ (s : State) (n : Nat), s.isPair = true → s.computes = true → s.twin.digestPeer = none → Does (.stateDigest n) s fun t =>
      t.twin.digestOwn = some (n, Sys2Proof.Config.stateDigest (s.advance (n * 1000000000)).digested) ∧ t.twin.st = s.twin.st)
  ∧ (∀ (s : State) (n : Nat) (x y : Word), s.twin.digestOwn = some (n, x) → s.twin.digestPeer = some (n, y) → s.twin.st = .joined → x ≠ y →
      s.isJunior = true → (s.compareDigests.twin.st = .withdrawn ∨ s.compareDigests.twin.st = .retired)
        ∧ s.compareDigests.twin.cause = 5 ∧ s.compareDigests.Saw Ev.pairDiverged [0])
  ∧ (∀ (s : State) (n : Nat) (x y : Word), s.twin.digestOwn = some (n, x) → s.twin.digestPeer = some (n, y) → s.twin.st = .joined → x ≠ y →
      s.isJunior = false → s.compareDigests.twin.st = .joined ∧ s.compareDigests.Saw Ev.pairDiverged [0])
  ∧ (∀ (s : State) (n : Nat) (x : Word), s.twin.digestOwn = some (n, x) → s.twin.digestPeer = some (n, x) → s.twin.st = .joined →
      s.compareDigests = s.onTwin (fun z => { z with digestPeer := none }))
  ∧ (∀ (s : State) (h : PairHead) (n c : Nat) (d : Word) (p : List Bool) (u : List Nat), s.isPair = true → h.pseq ∉ s.twin.pseqSeen →
    s.twin.st = .alone → Does (.pairDigestFrame h n d p c u) s fun t => t.twin.planPeer = some (p, c, u) ∧ t.twin.st = .alone)

/-- 16 R426, R427, R429 to R431: notices and the catch-up. A partner that withdraws or retires leaves this twin alone from the next boundary;
a restarting one is supplied with a snapshot frozen at the first whole second after; READY is echoed; at E both are joined; an attempt
that is late starts again, and the third is the last. -/
def Obligations.PairCatchUp : Prop :=
  (∀ (s : State) (h : PairHead) (c : Byte), s.isPair = true → h.pseq ∉ s.twin.pseqSeen → s.twin.st = .joined →
    Does (.noticeWithdrawing h c) s fun t => t.twin.becomeAlone = some c.toNat ∧ t.twin.st = .joined)
  ∧ (∀ (s : State) (h : PairHead) (c : Byte), s.isPair = true → h.pseq ∉ s.twin.pseqSeen → s.twin.st = .solo →
    Does (.noticeRetired h c) s fun t => t.twin.becomeAlone = some c.toNat)
  ∧ (∀ (s : State) (c : Nat), s.twin.becomeAlone = some c → s.twin.silent = false → s.becomesAlone.twin.st = .alone
      ∧ s.becomesAlone.time.leader = true ∧ s.becomesAlone.twin.becomeAlone = none ∧ s.becomesAlone.Saw Ev.twinWithdrawn [c]
      ∧ s.becomesAlone.gate = s.gate ∧ s.becomesAlone.ledger = s.ledger ∧ s.becomesAlone.disp = s.disp ∧ s.becomesAlone.safety = s.safety)
  ∧ (∀ (s : State) (h : PairHead) (c : Byte), s.isPair = true → h.pseq ∉ s.twin.pseqSeen → s.sending = true → s.twin.catchUp = none →
    Does (.noticeRestarting h c) s fun t => ∃ k, t.twin.catchUp = some k ∧ k.step = .restarting ∧ k.supplying = true ∧ k.attempt = 1)
  ∧ (∀ (s : State) (k : CatchUp), s.isPair = true → s.twin.catchUp = some k → k.supplying = true → k.step = .restarting →
    Does .catchupSnapshot s fun t => ∃ j, t.twin.catchUp = some j ∧ j.step = .transfer ∧ j.snapW = eventOf t.sysNs
      ∧ t.now = (s.advance (nextMultiple k.startedAt 1000000000)).now)
  ∧ (∀ (s : State) (h : PairHead) (i o : Nat) (b : List Byte) (k : CatchUp), s.isPair = true → h.pseq ∉ s.twin.pseqSeen → s.twin.st = .catching →
    s.twin.catchUp = some k → k.supplying = false → k.step = .transfer → i ≠ 0 → Does (.pairCatchupFrame h i o b false) s fun t =>
      t.twin.catchUp = some (k.take i o b))
  ∧ (∀ (c : CatchUp) (i : Nat) (b : List Byte), (c.take i (c.item i).length b).item i = c.item i ++ b)
  ∧ (∀ (c : CatchUp) (i j : Nat) (b : List Byte), i ≠ j → (c.take i (c.item i).length b).item j = c.item j)
  ∧ (∀ (s : State) (k : CatchUp), s.twin.catchUp = some k → k.step = .replay → k.supplying = false → Does .replayDone s fun t =>
      t.twin.catchUp = some { k with step := .comparing })
  ∧ (∀ (s : State) (h : PairHead) (e : Nat) (k : CatchUp), s.isPair = true → h.pseq ∉ s.twin.pseqSeen → s.twin.catchUp = some k →
    k.supplying = true → eventValid e = true → Does (.noticeReady h e) s fun t =>
      t.twin.catchUp = some { k with reentry := some (s.fineOf e), echoed := true, step := .exact })
  ∧ (∀ (s : State) (h : PairHead) (e : Nat) (k : CatchUp), s.isPair = true → h.pseq ∉ s.twin.pseqSeen → s.twin.catchUp = some k →
    k.reentry = some (s.fineOf e) → eventValid e = true → Does (.noticeEcho h e) s fun t => t.twin.catchUp = some { k with echoed := true })
  ∧ (∀ (s : State) (k : CatchUp) (e : Nat), s.twin.catchUp = some k → k.reentry = some e → k.echoed = true → k.step = .exact → k.supplying = false →
    Does .reentry s fun t => t.twin.st = .joined ∧ t.twin.txOff = false ∧ t.twin.catchUp = none ∧ t.safety.bridges = false
      ∧ t.life.probation = false ∧ t.time.leader = s.isSenior ∧ t.now = (s.advance e).now)
  ∧ (∀ (s : State) (k : CatchUp) (e : Nat), s.twin.catchUp = some k → k.reentry = some e → k.echoed = true → k.step = .exact → k.supplying = true →
    s.sending = true → Does .reentry s fun t => t.twin.st = .joined ∧ t.twin.catchUp = none)
  ∧ (∀ (s : State) (k : CatchUp) (e : Nat), s.twin.catchUp = some k → k.reentry = some e → k.echoed = false → k.supplying = false →
    Does .reentryEchoTimeout s fun t => ∃ j, t.twin.catchUp = some j ∧ j.echoed = false ∧ j.step = .exact ∧
      j.reentry = some (atOrAfter (t.now + 10000000) 4000000))
  ∧ (∀ (s : State) (k : CatchUp), s.twin.catchUp = some k → k.supplying = false → s.twin.st = .catching → k.step ≠ .exact → k.attempt < 3 →
    Does .catchupTimeout s fun t => t.twin.st = .catching ∧ ∃ j, t.twin.catchUp = some j ∧ j.attempt = k.attempt + 1 ∧ j.step = .restarting)
  ∧ (∀ (s : State) (k : CatchUp), s.twin.catchUp = some k → k.supplying = false → s.twin.st = .catching → k.step ≠ .exact → 3 ≤ k.attempt →
    s.life.probation = false → Does .catchupTimeout s fun t => t.twin.st = .withdrawn ∧ t.Saw Ev.catchupFailed [3]
      ∧ t.twin.catchUp = some { k with step := .failed })
  ∧ (∀ s : State, Does .catchupProgressSend s fun t => t = s.sendProgress)

/-- 16 R423, R425, R427, R434, R437, 20 R498: leaving and the solo state. A twin with neither path and no notice decides by its gate witness;
after a path recovers, fine counters more than 1 µs apart make the junior withdraw; a failed port circuit is a cause of withdrawal, and in a
module that acts alone an event; the third counted withdrawal in 24 h retires the twin; the exposure window records its age. -/
def Obligations.PairLeaving : Prop :=
  (∀ s : State, s.twin.st = .joined → s.pathAlive = false → s.twin.becomeAlone = none → s.witness = false → Does .pathsLost s fun t =>
      t.twin.st = .solo ∧ t.Saw Ev.twinSolo [])
  ∧ (∀ s : State, s.twin.st = .joined → s.pathAlive = false → s.twin.becomeAlone = none → s.witness = true → Does .pathsLost s fun t =>
      t.twin.becomeAlone = some 0 ∧ t.twin.silent = true ∧ t.Saw Ev.twinLost [])
  ∧ (∀ (s : State) (o : Int), s.twin.st = .solo → mag o ≤ 1000 → Does (.pathRecovered o) s fun t => t.twin.st = .comparing ∧ t.twin.digestOwn = none)
  ∧ (∀ (s : State) (o : Int), s.twin.st = .solo → 1000 < mag o → s.isJunior = true → Does (.pathRecovered o) s fun t =>
      (t.twin.st = .withdrawn ∨ t.twin.st = .retired) ∧ t.twin.cause = 8)
  ∧ (∀ (s : State) (o : Int), s.twin.st = .solo → 1000 < mag o → s.isJunior = false → Does (.pathRecovered o) s fun t => t = s)
  ∧ (∀ (s : State) (k p : Byte), Does (.portSelftest k p true) s fun t => t = s)
  ∧ (∀ (s : State) (k p : Byte), s.actsSingle = true → Does (.portSelftest k p false) s fun t => t = s.raise Ev.portSelftest [k.toNat, p.toNat])
  ∧ (∀ (s : State) (k p : Byte), s.actsSingle = false → s.twin.st = .joined → Does (.portSelftest k p false) s fun t =>
      (t.twin.st = .withdrawn ∨ t.twin.st = .retired) ∧ t.twin.txOff = true ∧ t.twin.bridging = true ∧ t.safety.bridges = true
      ∧ t.safety.outs.all (fun o => !o.hi && !o.lo) = true ∧ t.safety.loopSw1 = s.safety.loopSw1 ∧ t.gate = s.gate ∧ t.ledger = s.ledger
      ∧ t.Saw Ev.twinWithdraw [9])
  ∧ (∀ (s : State) (c : Nat), s.twin.st = .joined → c ≠ 10 → countedWithdrawals (s.twin.history.filter (fun e => decide (s.now < e.1 + day))) = 2 →
      (s.withdraw c false).twin.st = .retired ∧ (s.withdraw c false).Saw Ev.twinRetired [c])
  ∧ (∀ (s : State) (c : Nat), s.twin.st = .joined → countedWithdrawals (s.twin.history.filter (fun e => decide (s.now < e.1 + day))) < 2 →
      (s.withdraw c false).twin.st = .withdrawn)
  ∧ (∀ (s : State) (a : Nat), s.twin.exposure.openAt = some a → s.twin.exposure.noticed = false → s.twin.txOff = false →
    Does .exposureNotice s fun t => t.twin.exposure.noticed = true ∧ t.Saw Ev.exposureNotice [s.twin.exposure.openEvent]
      ∧ t.now = (s.advance (a + 20 * day)).now)
  ∧ (∀ (s : State) (a : Nat), s.twin.exposure.openAt = some a → s.twin.exposure.exceededAt = none → s.twin.txOff = false →
    Does .exposureExceeded s fun t => t.twin.exposure.exceededAt = some (a + 30 * day) ∧ t.Saw Ev.exposureExceeded [s.twin.exposure.openEvent])
  ∧ (∀ (s : State) (a b : Nat), s.twin.exposure.openAt = some a → s.twin.exposure.exceededAt = some b → s.twin.txOff = false →
    Does .exposureExceeded s fun t => t.twin.exposure.exceededAt = some (b + day))
  ∧ (∀ (s : State) (a j : Nat), s.twin.exposure.openAt = some a → s.twin.exposure.joinedSince = some j → s.twin.st = .joined →
    Does .exposureClosed s fun t => t.twin.exposure.openAt = none ∧ t.Saw Ev.exposureClosed [((t.now - a) / 1000000000 : Nat)])

/-- 17 R440, R443, R446 to R449: the commands of the recorder. An event is written to the next slot under the next number, or waits while
writes are stopped or others wait, or is suppressed when the recorder is full; the record before the last slot brings the full marker;
writing resumes once nothing stops it. Each second the write pointer goes to the header; a freeze ends by itself. A host's operations have their data, their refusals and their effects. -/
def Obligations.RecorderCommands : Prop :=
  (∀ (s : State) (e : Event) (l : List Event), s.rec_.detected = e :: l → s.recStopped = false → s.rec_.holding = [] →
    s.rec_.slots.length + 2 < recSlots → Does .recorderWrite s fun t =>
      t.rec_.slots = s.rec_.slots ++ [⟨s.rec_.nextRseq, s.chain.identity, e, s.isSolo, false⟩]
      ∧ t.rec_.nextRseq = s.rec_.nextRseq + 1 ∧ l <+: t.rec_.detected ∧ t.rec_.holding = [])
  ∧ (∀ (s : State) (e : Event) (l : List Event), s.rec_.detected = e :: l → s.recStopped = true ∨ s.rec_.holding ≠ [] →
    s.rec_.holding.length < 4096 → Does .recorderWrite s fun t => t.rec_.holding = s.rec_.holding ++ [e] ∧ t.rec_.slots = s.rec_.slots
      ∧ t.rec_.nextRseq = s.rec_.nextRseq ∧ t.rec_.detected = l ∧ t.out = s.out)
  ∧ (∀ (s : State) (e : Event) (l : List Event) (r : Rec), s.rec_.detected = e :: l → s.recStopped = false → s.rec_.holding = [] →
    s.rec_.slots.length + 2 = recSlots → s.rec_.slots.head? = some r → Does .recorderWrite s fun t => ∃ m : Rec,
      t.rec_.slots = s.rec_.slots ++ [⟨s.rec_.nextRseq, s.chain.identity, e, s.isSolo, false⟩, m]
      ∧ m.rseq = s.rec_.nextRseq + 1 ∧ m.event.code = Ev.recorderFull.code ∧ m.event.args = [(r.event.time : Int)]
      ∧ t.rec_.full = true)
  ∧ (∀ (s : State) (e : Event) (l : List Event), s.rec_.detected = e :: l → s.recStopped = false → s.rec_.holding = [] →
    s.rec_.full = true → Does .recorderWrite s fun t => t.rec_ = { s.rec_ with
      detected := l, nDetected := s.rec_.nDetected + 1, suppressed := s.rec_.suppressed.addFirst e, nSuppressed := s.rec_.nSuppressed + 1 }
      ∧ t.out = s.out ∧ t.host = s.host)
  ∧ (∀ s : State, s.recStopped = true → Does .recorderResume s fun t => t = s)
  ∧ (∀ s : State, s.recStopped = false → Does .recorderResume s fun t => t = s.drainHolding)
  ∧ (∀ (s : State) (n : Nat), s.nvmBarred = false → Does (.clearRegisterPointer n) s fun t =>
      t.rec_ = { s.rec_ with hdrNext := s.rec_.slots.length })
  ∧ (∀ (s : State) (a : Nat), s.rec_.freezeHost = some a → Does (.freezeTimeout false) s fun t => t.rec_.freezeHost = none
      ∧ t.rec_.freezeSvc = s.rec_.freezeSvc ∧ t.now = (s.advance a).now ∧ t.Saw Ev.recorderThawed [0])
  ∧ (∀ (s : State) (a : Nat), s.rec_.freezeSvc = some a → Does (.freezeTimeout true) s fun t => t.rec_.freezeSvc = none
      ∧ t.rec_.freezeHost = s.rec_.freezeHost ∧ t.now = (s.advance a).now ∧ t.Saw Ev.recorderThawed [1])
  ∧ (∀ (s t : State) (q : Fin 32) (d : Desc), s.Turn q 0x60 (op0 1) d t → 1 ≤ d.argLe 8 4 → d.argLe 8 4 ≤ 262144 →
    (BitVec.ofNat 32 (d.argLe 4 4) - t.rec_.firstRseq).toNat < t.rec_.slots.length →
    64 * min (d.argLe 8 4) (t.rec_.slots.length - (BitVec.ofNat 32 (d.argLe 4 4) - t.rec_.firstRseq).toNat) ≤ d.respLen →
    exec (.recorderRead q) s = .next ((t.touchFreeze false).ends q
      (64 * min (d.argLe 8 4) (t.rec_.slots.length - (BitVec.ofNat 32 (d.argLe 4 4) - t.rec_.firstRseq).toNat)) 0
      (((t.rec_.slots.drop (BitVec.ofNat 32 (d.argLe 4 4) - t.rec_.firstRseq).toNat).take (d.argLe 8 4)).flatMap Rec.bytes)))
  ∧ (∀ (s t : State) (q : Fin 32) (d : Desc), s.Turn q 0x60 (op0 1) d t → 1 ≤ d.argLe 8 4 → d.argLe 8 4 ≤ 262144 →
    t.rec_.slots.length ≤ (BitVec.ofNat 32 (d.argLe 4 4) - t.rec_.firstRseq).toNat →
    exec (.recorderRead q) s = .next (t.refuses q St.recGone 0))
  ∧ (∀ (s t : State) (q : Fin 32) (d : Desc), s.Turn q 0x60 (op0 2) d t → exec (.recorderFreeze q) s =
      .next (State.ends { t with rec_ := { t.rec_ with freezeHost := some t.freezeUntil } } q 0 0 []))
  ∧ (∀ (s t : State) (q : Fin 32) (d : Desc), s.Turn q 0x60 (op0 3) d t → t.rec_.freezeHost = none → exec (.recorderThaw q) s =
      .next (t.refuses q St.recNotFrozen 0))
  ∧ (∀ (s t : State) (q : Fin 32) (d : Desc), s.Turn q 0x60 (op0 3) d t → t.rec_.freezeHost ≠ none → exec (.recorderThaw q) s =
      .next (State.ends { t with rec_ := { t.rec_ with freezeHost := none } } q 0 0 []))
  ∧ (∀ (s t : State) (q : Fin 32) (d : Desc), s.Turn q 0x60 (op0 4) d t → BitVec.ofNat 32 (d.argLe 4 4) ≠ t.rec_.nextRseq - 1 →
    exec (.recorderClear q) s = .next (t.refuses q St.recClearStale 0))
  ∧ (∀ (s t : State) (q : Fin 32) (d : Desc), s.Turn q 0x60 (op0 4) d t → BitVec.ofNat 32 (d.argLe 4 4) = t.rec_.nextRseq - 1 →
    64 ≤ t.rec_.clears.length → exec (.recorderClear q) s = .next (t.refuses q St.clearRegisterFull 0))
  ∧ (∀ (s t : State) (q : Fin 32) (d : Desc), s.Turn q 0x60 (op0 4) d t → BitVec.ofNat 32 (d.argLe 4 4) = t.rec_.nextRseq - 1 →
    t.rec_.clears.length < 64 → t.nvmBarred = true → exec (.recorderClear q) s = .next (t.refuses q St.nvmBarred 0))
  ∧ (∀ (s t : State) (q : Fin 32) (d : Desc), s.Turn q 0x60 (op0 4) d t → BitVec.ofNat 32 (d.argLe 4 4) = t.rec_.nextRseq - 1 →
    t.rec_.clears.length < 64 → t.nvmBarred = false → Does (.recorderClear q) s fun u => ∃ c, u.rec_.clears = t.rec_.clears ++ [c]
      ∧ c.first = (if t.rec_.slots.isEmpty then t.rec_.nextRseq else t.rec_.firstRseq) ∧ c.last = t.rec_.nextRseq - 1
      ∧ c.suppressed = t.rec_.suppressed.count ∧ c.suppTime = t.rec_.suppressed.earliest ∧ u.rec_.suppressed = Tally.zero
      ∧ (t.recStopped = true ∨ t.rec_.holding ≠ [] → u.rec_.slots = [] ∧ u.rec_.nextRseq = t.rec_.nextRseq)
      ∧ (t.recStopped = false → t.rec_.holding = [] → ∃ r, u.rec_.slots = [r] ∧ r.rseq = t.rec_.nextRseq
          ∧ r.event.code = Ev.recorderCleared.code ∧ r.event.args = [(t.rec_.clears.length : Int)]))
  ∧ (∀ (s t : State) (q : Fin 32) (d : Desc), s.Turn q 0x60 (op0 5) d t → 4160 ≤ d.respLen → ∃ l,
    exec (.clearReg q) s = .next ((t.touchFreeze false).ends q 4160 0 l) ∧ l.length = 4160
      ∧ leAt l 0 4 = t.rec_.hdrNext % 2 ^ 32 ∧ leAt l 4 4 = t.rec_.firstRseq.toNat ∧ leAt l 8 4 = t.rec_.suppressed.count % 2 ^ 32
      ∧ leAt l 12 8 = t.rec_.suppressed.earliest % 2 ^ 64 ∧ byteAt l 20 = t.rec_.suppressed.sev % 256 ∧ byteAt l 21 = t.rec_.clears.length % 256)
  ∧ (∀ (s t : State) (q : Fin 32) (d : Desc), s.Turn q 0x60 (op0 6) d t → 64 * Ev.table.length ≤ d.respLen →
    exec (.codes q) s = .next ((t.touchFreeze false).ends q (64 * Ev.table.length) 0 (Ev.table.flatMap EvDef.bytes)))
  ∧ (∀ s : State, (s.touchFreeze false).rec_ = { s.rec_ with freezeHost := s.rec_.freezeHost.map (fun _ => s.freezeUntil) }
      ∧ s.freezeUntil = s.now + Fld.recCfg_FREEZE_S s.cfg * 1000000000)

/-- 17 R442, R444: the holding queue and the conservation of events. The queue holds 4,096 events in order of detection; when it is full, an
event of severity 5 or higher takes the place of the newest one of lower severity, and else the event that comes overflows; the count, the
earliest and the latest time and the highest severity of those that overflowed go into one record after the queue, which is written in
order with SEV bit 4 set, and the counts restart. Every second the events detected are those written, queued, overflowed, suppressed and
lost, the recorder's own left out; a difference sets COUNT_ERR and is recorded with the terms, or suppressed when the recorder is full. -/
def Obligations.RecorderConserves : Prop :=
  (∀ s : State, s.rec_.sound → s.takeEvent.rec_.sound ∧ s.drainHolding.rec_.sound)
  ∧ (∀ (s t : State) (v : Bool) (d : Desc) (n : Nat) (b : Bool) (l : List Byte), s.rec_.sound → recorderClear v s d = .accept n b l t → t.rec_.sound)
  ∧ (∀ s : State, (∀ e ∈ s.rec_.detected.head?, e.code ≠ Ev.recorderCleared.code) → s.rec_.conserved = true → s.takeEvent.rec_.conserved = true)
  ∧ (∀ s : State, s.rec_.conserved = true → s.drainHolding.rec_.conserved = true)
  ∧ (∀ (s t : State) (v : Bool) (d : Desc) (n : Nat) (b : Bool) (l : List Byte), s.rec_.conserved = true →
      recorderClear v s d = .accept n b l t → t.rec_.conserved = true)
  ∧ (∀ (s : State) (e : Event), s.rec_.holding.length < 4096 → s.hold e = { s with rec_ := { s.rec_ with holding := s.rec_.holding ++ [e] } })
  ∧ (∀ (s : State) (e v : Event) (a b : List Event), s.rec_.holding = a ++ v :: b → 4096 ≤ s.rec_.holding.length → 5 ≤ e.sev →
      v.sev < e.sev → (∀ x ∈ b, e.sev ≤ x.sev) →
      (s.hold e).rec_.holding = a ++ b ++ [e] ∧ (s.hold e).rec_.overflow = s.rec_.overflow.add v ∧ (s.hold e).rec_.slots = s.rec_.slots)
  ∧ (∀ (s : State) (e : Event), 4096 ≤ s.rec_.holding.length → e.sev < 5 ∨ (∀ x ∈ s.rec_.holding, e.sev ≤ x.sev) →
      (s.hold e).rec_.holding = s.rec_.holding ∧ (s.hold e).rec_.overflow = s.rec_.overflow.add e ∧ (s.hold e).rec_.slots = s.rec_.slots)
  ∧ (∀ (x : Tally) (e : Event), (x.add e).count = min (x.count + 1) 0xFFFFFFFF ∧ (x.count = 0 → x.add e = ⟨1, e.time, e.time, e.sev⟩))
  ∧ (∀ (x : Tally) (e : Event), 0 < x.count → (x.add e).earliest = min x.earliest e.time ∧ (x.add e).latest = max x.latest e.time
      ∧ (x.add e).sev = max x.sev e.sev ∧ (x.addFirst e).earliest = x.earliest ∧ (x.addFirst e).sev = max x.sev e.sev)
  ∧ (∀ s : State, s.recStopped = false → s.rec_.slots.length + s.rec_.holding.length + 2 < recSlots → Does .recorderResume s fun t =>
      t.rec_.holding = [] ∧ t.rec_.overflow.count = 0 ∧ s.rec_.slots <+: t.rec_.slots
      ∧ (t.rec_.slots.drop s.rec_.slots.length).map (fun r => (r.event, r.late)) = s.rec_.holding.map (fun e => (e, true))
        ++ (if s.rec_.overflow.count = 0 then [] else [(⟨eventOf s.sysNs, Ev.recorderOverflow.code, Ev.recorderOverflow.sev,
          [(s.rec_.overflow.count : Int), s.rec_.overflow.earliest, s.rec_.overflow.latest, s.rec_.overflow.sev, 0]⟩, false)]))
  ∧ (∀ s : State, s.recStopped = false → s.rec_.full = true → Does .recorderResume s fun t => t.rec_.holding = [] ∧ t.rec_.overflow.count = 0
      ∧ t.rec_.slots = s.rec_.slots ∧ t.rec_.nextRseq = s.rec_.nextRseq)
  ∧ (∀ r : Rec, r.event.sev < 8 → byteAt r.bytes 17 = r.event.sev + 8 * bit r.solo + 16 * bit r.late)
  ∧ (∀ (s : State) (n : Nat), s.rec_.conserved = true → Does (.recorderCountCheck n) s fun t => t = s.advance (n * 1000000000))
  ∧ (∀ (s : State) (n : Nat), s.rec_.conserved = false → Does (.recorderCountCheck n) s fun t => t.rec_.countErr = true
      ∧ t.Saw Ev.recorderCount [s.rec_.nDetected, s.rec_.nWritten, s.rec_.queued, s.rec_.nOverflowed, s.rec_.nSuppressed, s.rec_.nLost])
  ∧ (∀ r : Recorder, r.conserved = true ↔ r.nDetected = r.nWritten + (r.holding.filter (fun e => decide (e.code ≠ Ev.recorderCleared.code))).length
      + r.nOverflowed + r.nSuppressed + r.nLost)

/-- 18 R452 to R458, R469, 19 R484, 16 R432, 03 R84, R85: the steps of a start. At power-up every engine stops, the outputs are open and the time goes on
from the newest ledger image; what MRAM, flash and the key store hold stays. After the image check the safety engines run; a module that
need not wait starts its lines and enters service; a twin without either path waits 10 s; a failed check goes to ROM recovery. -/
def Obligations.StartCommands : Prop :=
  (∀ (s : State) (osc : Bool), s.life.phase ≠ .off ∨ s.life.inputOpen = true → Does (.powerUp osc) s fun t => t = s)
  ∧ (∀ (s : State) (osc : Bool), s.life.phase = .off → s.life.inputOpen = false → Does (.powerUp osc) s fun t =>
      t.life.phase = .held ∧ t.life.recCause = 0 ∧ t.time.rateValid = osc ∧ t.time.onBackup = !osc
      ∧ t.time.fine = BitVec.ofNat 96 ((match s.ledger.newest with | some i => nsOfEvent i.w | none => 0) * 2 ^ 32)
      ∧ t.safety.outs = Safety.reset.outs ∧ t.safety.bridges = s.storedPair ∧ t.gate.stage = Gate.reset.stage ∧ t.prog.shared = Prog.reset.shared
      ∧ t.setup.stored = s.setup.stored ∧ t.setup.storedBlk = s.setup.storedBlk ∧ t.ledger.images = s.ledger.images
      ∧ t.ledger.store = s.ledger.store ∧ t.chain.stored = s.chain.stored ∧ t.prog.forces = s.prog.forces
      ∧ (s.rec_.detected = [] → t.host.keys = s.host.keys ∧ t.rec_.slots = s.rec_.slots ∧ t.rec_.clears = s.rec_.clears))
  ∧ (∀ (s : State) (v : Word) (i : ImageHead), s.life.phase = .held → s.life.recNext = 0 → s.life.slotOk = true →
    Does (.imageChecked v i) s fun t => t.life.phase = .watching ∧ t.life.checkedAt = s.now ∧ t.life.verRun = v ∧ t.life.blHighest = i.highest.toNat ∧ t.life.parts = i.parts
      ∧ t.safety.engA.running = true ∧ t.safety.engB.running = true ∧ t.therm.running = true ∧ t.rec_.started = true
      ∧ t.life.guard_ = (match s.storedEntry s.chain.addr with
          | some e => decide (i.highest.toNat < e.level) || !s.time.rateValid
          | none => true)
      ∧ t.setup.active = (if t.life.guard_ then [] else s.setup.stored) ∧ t.setup.staged = t.setup.active)
  ∧ (∀ (s : State) (v : Word) (i : ImageHead), s.life.phase ≠ .held ∨ s.life.recNext ≠ 0 ∨ s.life.slotOk = false →
    Does (.imageChecked v i) s fun t => t = s)
  ∧ (∀ s : State, s.rec_.powerLoss.count = 0 → s.life.recCause = 0 → s.startRecorder = { s with rec_ := { s.rec_ with
      started := true, powerLoss := Tally.zero } })
  ∧ (∀ s : State, s.rec_.powerLoss.count ≠ 0 → s.life.recCause = 0 → s.rec_.slots.length + 2 < recSlots → ∃ r, s.startRecorder.rec_.slots =
      s.rec_.slots ++ [r] ∧ r.event.code = Ev.recorderOverflow.code ∧ r.event.args = [(s.rec_.powerLoss.count : Int), s.rec_.powerLoss.earliest,
        s.rec_.powerLoss.latest, s.rec_.powerLoss.sev, 1])
  ∧ (∀ (s : State) (n : Fin 3), s.life.phase = .watching → s.keptOut = false → s.linkAlive = false →
    Does (.pairWatchEnd n) s fun t => t = (s.advance (s.life.checkedAt + 550000000)).startRest ∧ t.life.phase = .starting)
  ∧ (∀ (s : State) (n : Fin 3), s.life.phase = .watching → s.keptOut = false → s.linkAlive = true →
    s.twin.partnerIn = true → s.time.rateValid = true → n ≠ 0 → Does (.pairWatchEnd n) s fun t => t.life.phase = .starting ∧ t.twin.st = .catching ∧ t.time.leader = false
      ∧ t.twin.catchUp.map (fun k => (k.step, k.supplying, k.attempt)) = some (.restarting, false, 1) ∧ t.ring.lines = s.ring.lines)
  ∧ (∀ (s : State) (n : Fin 3), s.life.phase ≠ .watching → s.life.phase ≠ .starting → Does (.pairWatchEnd n) s fun t => t = s)
  ∧ (∀ s : State, s.life.phase = .starting → s.keptOut = false → s.isPair = false → (∀ e < 23, (s.engine e).failed = false) →
    Does .enterService s fun t => t.life.phase = .service ∧ t.life.serviceAt = s.now ∧ t.safety.bridges = false ∧ t.time.leader = true
      ∧ t.twin.st = .single ∧ t.twin.txOff = false)
  ∧ (∀ s : State, s.life.phase = .starting → s.keptOut = false → s.isPair = true → s.pathAlive = true →
    s.isSenior = true → (∀ e < 23, (s.engine e).failed = false) → Does .enterService s fun t => t.life.phase = .service ∧ t.twin.st = .alone
      ∧ t.time.leader = true)
  ∧ (∀ s : State, s.life.phase = .starting → s.keptOut = false → s.isPair = true → s.pathAlive = false →
    s.twin.waitFrom = none → Does .enterService s fun t => t = s.onTwin (fun x => { x with waitFrom := some s.now }))
  ∧ (∀ (s : State) (a : Nat), s.twin.waitFrom = some a → s.life.phase = .starting → s.keptOut = false →
    (s.advance (a + 10000000000)).pathAlive = false → Does .partnerWaitTimeout s fun t => t = (s.advance (a + 10000000000)).enterService)
  ∧ (∀ (s : State) (a : Nat), s.twin.waitFrom = some a → (s.advance (a + 10000000000)).pathAlive = true →
    Does .partnerWaitTimeout s fun t => t = s.advance (a + 10000000000))
  ∧ (∀ (s : State) (c : Fin 5), c = 1 ∨ c = 2 ∨ (c = 3 ∧ s.life.recNext = 3) → s.life.phase = .held → Does (.romRecovery c) s fun t =>
      t = s.recover c.val)
  ∧ (∀ s : State, s.mayRecover = true → Does (.romRecovery 4) s fun t => t = s.recover 4)
  ∧ (∀ s : State, s.mayRecover = false → Does (.romRecovery 4) s fun t => t = s)
  ∧ (∀ (s : State) (c : Nat), (s.recover c).life.phase = .recovery ∧ (s.recover c).life.recCause = c ∧ (s.recover c).twin.txOff = true
      ∧ (s.recover c).safety.engA.running = false ∧ (s.recover c).safety.engB.running = false ∧ (s.recover c).therm.running = false
      ∧ Fld.qpCfg_CLASS (s.recover c).cfg 0 = 7
      ∧ (s.recover c).safety.outs.all (fun o => !o.hi && !o.lo) = true)

/-- 20 R488, R490, 10 R279, 02 R60, 16 R425: the supply, the die and the warden. A supply above 80 V is recorded and again each hour; a supply
loss or an over-voltage makes the module dark; a start follows the cooling of the die, and the closing of a withdrawn twin's bridges. -/
def Obligations.SupplyCommands : Prop :=
  (∀ (s : State) (n : Nat), s.life.phase ≠ .off → n < 300 → Does (.holdupMeasured n) s fun t => t.life.holdupLow = decide (n < 250)
      ∧ t.Saw Ev.holdupLow [n])
  ∧ (∀ (s : State) (n : Nat), s.life.phase ≠ .off → 300 ≤ n → Does (.holdupMeasured n) s fun t => t.life.holdupLow = false ∧ t.rec_ = s.rec_)
  ∧ (∀ (s : State) (n : Nat), s.life.phase ≠ .off → 800 < n → Does (.supplyHigh n false) s fun t => t.life.supplyHighAt = some s.now
      ∧ t.Saw Ev.supplyHigh [n])
  ∧ (∀ (s : State) (n a : Nat), s.life.phase ≠ .off → 800 < n → s.life.supplyHighAt = some a → Does (.supplyHigh n true) s fun t =>
      t.now = (s.advance (a + 3600000000000)).now ∧ t.life.supplyHighAt = some t.now ∧ t.Saw Ev.supplyHigh [n])
  ∧ (∀ (s : State) (n : Nat) (b : Bool), n ≤ 800 → Does (.supplyHigh n b) s fun t => t = s)
  ∧ (∀ (s : State) (i c h : Bool) (w : Nat), s.life.phase ≠ .off → Does (.supplyOvervoltage i c h w) s fun t => t.life.phase = .off
      ∧ t.life.inputOpen = true ∧ t.gate.stage = .off ∧ t.safety.outs.all (fun o => !o.hi && !o.lo) = true)
  ∧ (∀ (s : State) (i c h : Bool) (w : Nat), s.life.phase = .off → Does (.supplyOvervoltage i c h w) s fun t =>
      t = s.onLife (fun l => { l with inputOpen := true }))
  ∧ (∀ s : State, Does .supplyReconnect s fun t => t = s.onLife (fun l => { l with inputOpen := false }))
  ∧ (∀ (s : State) (a : Nat), s.therm.die.off = true → s.therm.die.coolFrom = some a → Does .dieCoolRestart s fun t =>
      t = (s.advance (a + 60000000000)).beginStart s.time.rateValid ∧ t.life.phase = .held ∧ t.therm.die.off = false)
  ∧ (∀ s : State, s.therm.die.off = false → Does .dieCoolRestart s fun t => t = s)
  ∧ (∀ s : State, Does .wardenWatchdogExpiry s fun t => t = s.engineFault 22 3)
  ∧ (∀ s : State, s.twin.bridging = true → s.twin.st ≠ .retired → s.life.phase ≠ .off → s.therm.die.shutdown = none →
    Does .loopBridgeClosed s fun t => t.life.phase = .held ∧ t.twin.bridging = false ∧ t.safety.loopSw1 = Safety.reset.loopSw1)
  ∧ (∀ s : State, s.twin.bridging = true → s.twin.st = .retired → Does .loopBridgeClosed s fun t =>
      t = s.loopsOpen.onTwin (fun x => { x with bridging := false }))
  ∧ (∀ s : State, s.twin.bridging = false → Does .loopBridgeClosed s fun t => t = s)
  ∧ (∀ (s : State) (w : Nat), (s.lastRecords w false).rec_.powerLoss = Tally.zero)
  ∧ (∀ (s : State) (w : Nat), (s.lastRecords w true).rec_.powerLoss = (((s.rec_.holding ++ s.rec_.detected).drop w).foldl Tally.add s.rec_.overflow))

/-- 18 R463 to R468, R471 to R473, R477: firmware and keys. The last chunk's image is judged by its header, its signature, its hardware and its
level, in this order; INSTALL needs a staged image with the digest named; ACTIVATE an installed one; each leaves its status in
FW_STAT.LAST. A key set changes only as the key store permits. -/
def Obligations.FirmwareCommands : Prop :=
  (∀ (s : State) (q : Fin 32) (sig : Bool) (d : Desc), s.LoadTurn q 7 0x82 d → ∃ t, exec (.firmwareLoadChunk q sig) s = .next t
      ∧ t.life.verRun = s.life.verRun ∧ t.life.slotOk = s.life.slotOk ∧ t.gate = s.gate ∧ t.loop = s.loop)
  ∧ (∀ (s : State) (d : Desc) (sig : Bool) (l : Load) (st : Nat), d.argByte 8 % 2 ≠ 1 → takeChunk s.life.load 4096 62914560 d = .ok (l, true) →
    s.judgeFirmware l.bytes sig = some st → ∃ t, firmwareChunk sig s d = .refuseAs st 0 t ∧ t.life.lastFw = st ∧ t.life.load = none
      ∧ t.life.staged = s.life.staged)
  ∧ (∀ (s : State) (d : Desc) (sig : Bool) (l : Load), takeChunk s.life.load 4096 62914560 d = .ok (l, true) →
    s.judgeFirmware l.bytes sig = none → ∃ t, firmwareChunk sig s d = .accept 0 false [] t ∧ t.life.staged = some (stagedOf l.bytes)
      ∧ t.life.load = none ∧ t.life.lastFw = 0)
  ∧ (∀ (s : State) (b : List Byte), fwHeaderOk b = true → s.judgeFirmware b false = some St.fwSignature)
  ∧ (∀ (s : State) (b : List Byte), fwHeaderOk b = true → byteAt b 7 / 2 ^ s.life.lineage.toNat % 2 = 0 →
      s.judgeFirmware b true = some St.fwHardware)
  ∧ (∀ (s : State) (b : List Byte) (e : SiteEntry), fwHeaderOk b = true → byteAt b 7 / 2 ^ s.life.lineage.toNat % 2 = 1 →
      s.siteEntry s.chain.addr = some e → byteAt b 6 < e.level → s.judgeFirmware b true = some St.fwLevel)
  ∧ (∀ (s t : State) (q : Fin 32) (d : Desc) (i : Staged), s.Turn q 0x70 (op0 1) d t → t.life.staged = some i → t.life.fwIdle = true →
    d.body.length = 32 → BitVec.ofNat 256 (beAt d.body 0 32) = i.digest → exec (.install q) s = .next ((t.onLife (fun l => { l with
      fw := .installing, progress := 0, verSlot := i.version, slotOk := false, slotNew := false, lastFw := 0 })).ends q 0 0 []))
  ∧ (∀ (s t : State) (q : Fin 32) (d : Desc), s.Turn q 0x70 (op0 1) d t → t.life.staged = none → exec (.install q) s =
      .next ((t.onLife (fun l => { l with lastFw := St.fwState })).refuses q St.fwState 0))
  ∧ (∀ (s t : State) (q : Fin 32) (d : Desc) (i : Staged), s.Turn q 0x70 (op0 1) d t → t.life.staged = some i → t.life.fwIdle = true →
    d.body.length = 32 → BitVec.ofNat 256 (beAt d.body 0 32) ≠ i.digest → exec (.install q) s =
      .next ((t.onLife (fun l => { l with lastFw := St.fwNotStaged })).refuses q St.fwNotStaged 0))
  ∧ (∀ s : State, s.life.fw = .installing → s.nvmBarred = false → s.life.phase ≠ .recovery → Does .installDone s fun t =>
      t.life.fw = .installed ∧ t.life.slotOk = true ∧ t.life.slotNew = true ∧ t.life.progress = 100 ∧ t.Saw Ev.fwInstalled [s.life.verSlot.toNat])
  ∧ (∀ s : State, s.life.fw = .installing → s.nvmBarred = false → s.life.phase = .recovery → Does .installDone s fun t =>
      t.life.phase = .held ∧ t.life.slotOk = true ∧ t.life.slotNew = true)
  ∧ (∀ s : State, s.nvmBarred = true → Does .installDone s fun t => t = s)
  ∧ (∀ (s t : State) (q : Fin 32) (d : Desc), s.Turn q 0x70 (op0 2) d t → t.life.slotNew = true → t.life.fwIdle = true → t.isPair = false →
    exec (.activate q) s = .next ((t.onLife (fun l => { l with actDue := true, fw := .activating, progress := 0, lastFw := 0 })).ends q 0 0 []))
  ∧ (∀ (s t : State) (q : Fin 32) (d : Desc), s.Turn q 0x70 (op0 2) d t → t.life.slotNew = false ∨ t.life.fwIdle = false →
    exec (.activate q) s = .next ((t.onLife (fun l => { l with lastFw := St.fwState })).refuses q St.fwState 0))
  ∧ (∀ (s t : State) (q : Fin 32) (d : Desc), s.Turn q 0x70 (op0 2) d t → t.life.slotNew = true → t.life.fwIdle = true → t.isPair = true →
    t.isJoined = false → exec (.activate q) s = .next ((t.onLife (fun l => { l with lastFw := St.fwPartner })).refuses q St.fwPartner 0))
  ∧ (∀ (s t : State) (q : Fin 32) (d : Desc), s.Turn q 0x70 (op0 3) d t →
    exec (.restart q) s = .next ((t.onLife (fun l => { l with restartDue := true, lastFw := 0 })).ends q 0 0 []))
  ∧ (∀ (s : State) (i : ImageHead), s.life.act = .checking → Does (.activationImageChecked i) s fun t => t.life.act = .reloading
      ∧ t.life.verRun = s.life.verSlot ∧ t.life.slotNew = false ∧ t.safety = s.safety ∧ t.therm = s.therm ∧ t.ring = s.ring)
  ∧ (∀ (s : State) (i : ImageHead), s.life.act ≠ .checking → Does (.activationImageChecked i) s fun t => t = s)
  ∧ (∀ s : State, s.life.act = .reloading → Does .activationReloadDone s fun t => t.life.act = .linkStart ∧ t.life.fw = .probation
      ∧ t.life.probation = true ∧ t.life.probationAt = t.now ∧ t.gate.stage = .off)
  ∧ (∀ s : State, s.life.probation = true → s.isPair = false → s.inService = true → Does .probationEnd s fun t => t.life.probation = false
      ∧ t.life.fw = .nothing ∧ t.gate.blocked = false ∧ t.now = (s.advance (s.life.probationAt + 25000000000)).now
      ∧ t.Saw Ev.fwActivated [s.life.verRun.toNat])
  ∧ (∀ s : State, s.life.probation = false → Does .probationEnd s fun t => t = s)
  ∧ (∀ (s t : State) (q : Fin 32) (d : Desc), s.Turn q 0x70 (op0 4) d t → (storeEmpty t.host.keys && !t.life.guard_) = false →
    d.body.length = 1152 → keyBadByte d.body = none → keysPermitted t.host.keys (keyEntries d.body) = true → t.actsSingle = true → exec (.keys q) s =
      .next (((t.onLife (fun l => { l with lastFw := 0 })).acceptBoth d.cmd).1.ends q 0 0 []))
  ∧ (∀ (s t : State) (q : Fin 32) (d : Desc), s.Turn q 0x70 (op0 4) d t → (storeEmpty t.host.keys && !t.life.guard_) = false →
    d.body.length = 1152 → keyBadByte d.body = none → keysPermitted t.host.keys (keyEntries d.body) = false → exec (.keys q) s =
      .next ((t.onLife (fun l => { l with lastFw := St.keySlot })).refuses q St.keySlot 0))
  ∧ (∀ (s t : State) (q : Fin 32) (d : Desc), s.Turn q 0x70 (op0 4) d t → storeEmpty t.host.keys = true → t.life.guard_ = false →
    exec (.keys q) s = .next ((t.onLife (fun l => { l with lastFw := St.fwState })).refuses q St.fwState 0))
  ∧ (∀ (s : State) (n : Nat) (k : KeySlot), n < s.host.keys.length → k.st ≠ 0 → k.st ≠ (s.host.keys.getD n ⟨0, 0, 0, 0, 0⟩).st →
      ((s.putKey n k).host.keys.getD n ⟨0, 0, 0, 0, 0⟩) = { k with nonce := (s.host.keys.getD n ⟨0, 0, 0, 0, 0⟩).nonce }
      ∧ (s.putKey n k).Saw (if k.st = 1 then Ev.keyWritten else Ev.keyRevoked) [n, k.role])
  ∧ (∀ (a b : KeySlot), a.st ≠ 0 → a.mayBecome b = true → b.role = a.role ∧ b.x = a.x ∧ b.y = a.y ∧ (a.st = 2 → b.st = 2))
  ∧ (∀ (s : State) (f g c : Word) (b m : List Byte) (sig : Bool), m = svcHeard f g c b → svcGood m = false ∨ s.life.phase = .off → Does (.svcMessage f g c b sig) s fun t => t = s)
  ∧ (∀ m : List Byte, leAt m 0 2 ≠ 0x5653 ∨ byteAt m 3 ≠ 0 ∨ 16 + leAt m 4 4 ≠ m.length ∨ leAt m 12 4 ≠ crc32c (m.take 12 ++ m.drop 16) →
      svcGood m = false)
  ∧ (∀ (s : State) (f g c : Word) (b m : List Byte) (sig : Bool), m = svcHeard f g c b → svcGood m = true → s.life.phase ≠ .off → byteAt m 2 = 1 → Does (.svcMessage f g c b sig) s fun t =>
      t = s.svcRequest (leAt m 8 4) (svcDesc m sig) sig)
  ∧ (∀ (s : State) (tag : Nat) (d : Desc) (sig : Bool), s.life.phase = .recovery → d.opcode ≠ 0x82 → d.opcode ≠ 0x70 ∨ d.argByte 0 ≠ 1 →
      s.svcRequest tag d sig = s.svcAnswer tag d St.opcode 0 0 0 [])
  ∧ (∀ (s : State) (f g c : Word) (b m : List Byte) (sig : Bool), m = svcHeard f g c b → svcGood m = true → s.life.phase ≠ .off → byteAt m 2 = 4 → s.mayRecover = true →
    Does (.svcMessage f g c b sig) s fun t => t = s.recover 4)

/-- 19 R481, 14 R372: a GO supersedes the commit that waits, whose snapshot is dropped and whose tag is reported with state 6 by its vector, and
takes a snapshot of every staging copy that differs and of every staged block; a DISCARD copies every active value into its staging copy,
drops every staged block and leaves the snapshot; with both bits the write is discarded and counted; the function's reset does as a
DISCARD and drops the snapshot too, with state 6. -/
def Obligations.CommitWrites : Prop :=
  (∀ (s : State) (irq : Bool) (v : Fin 64) (tag : BitVec 16), Does (.cfgCommitGo false irq v tag) s fun t => ∃ p, t.setup.pending = some p
      ∧ p.tag = tag ∧ p.irq = irq ∧ p.vector = v.val ∧ p.at_ = s.now ∧ p.regs = regDiff s.setup.staged s.setup.active ∧ p.blocks = s.setup.blocks
      ∧ t.setup.cState = 1 ∧ t.setup.cTag = tag ∧ t.setup.staged = s.setup.staged ∧ t.setup.active = s.setup.active
      ∧ t.setup.blocks = s.setup.blocks)
  ∧ (∀ (s : State) (p : Snapshot), s.setup.pending = some p → s.supersede.setup.pending = none ∧ s.supersede.setup.cState = 6
      ∧ s.supersede.setup.cTag = p.tag ∧ (p.irq = true → s.supersede.out = .irq p.vector :: s.out) ∧ (p.irq = false → s.supersede.out = s.out))
  ∧ (∀ (s : State) (irq : Bool) (v : Nat) (tag : BitVec 16), s.go irq v tag = s.supersede.go irq v tag)
  ∧ (∀ (s : State) (irq : Bool) (v : Fin 64) (tag : BitVec 16), Does (.cfgCommitGo true irq v tag) s fun t =>
      t = { s with setup := { s.setup with discards := satAdd s.setup.discards 1 65535 } })
  ∧ (∀ s : State, Does .cfgCommitDiscard s fun t => t = { s with setup := { s.setup with staged := s.setup.active, blocks := [] } })
  ∧ (∀ (s : State) (w : Word), w &&& 3 = 1 → Does (.stagedRegisterWrite (BitVec.ofNat 16 Reg.cfgCommit) w 32) s fun t =>
      t = s.go (decide (bitsOf w 8 8 = 1)) (bitsOf w 14 9) (BitVec.ofNat 16 (bitsOf w 31 16)))
  ∧ (∀ (s : State) (w : Word), w &&& 3 = 2 → Does (.stagedRegisterWrite (BitVec.ofNat 16 Reg.cfgCommit) w 32) s fun t =>
      t = { s with setup := { s.setup with staged := s.setup.active, blocks := [] } })
  ∧ (∀ (s : State) (w : Word), w &&& 3 = 3 → Does (.stagedRegisterWrite (BitVec.ofNat 16 Reg.cfgCommit) w 32) s fun t =>
      t = { s with setup := { s.setup with discards := satAdd s.setup.discards 1 65535 } })
  ∧ (∀ (s : State), Does .functionLevelReset s fun t => t.setup.staged = s.setup.active ∧ t.setup.active = s.setup.active ∧ t.setup.blocks = []
      ∧ t.setup.pending = none ∧ (s.setup.pending.isSome = true → t.setup.cState = 6))
  ∧ (∀ (b c : RegBank) (off : Nat) (w : Word), (off, w) ∈ regDiff b c ↔ w = b.get off ∧ b.get off ≠ c.get off)

/-- 19 R478, R480, R482, R483, 16 R415, 02 R56, 12 R331: writes and reads of the registers, and a commit at its boundary. A 32-bit write to a
register with RW fields changes the staging copy and nothing else; every other write is counted. At its boundary a commit whose checks
pass takes effect whole; the first failure refuses it whole, and its values stay staged; in the pair it waits for the other twin's, and
expires 10 s after its GO. -/
def Obligations.CommitCommands : Prop :=
  (∀ (s : State) (off : BitVec 16) (v : Word) (r : RegRow), off.toNat < 0x8000 → off.toNat ≠ Reg.cfgCommit → rowOf off.toNat = some r →
    r.access = .rw → s.life.phase ≠ .recovery → s.setup.staged.wf = true → Does (.stagedRegisterWrite off v 32) s fun t =>
      t.setup.staged.get off.toNat = (v &&& r.mask) ||| (r.reset &&& ~~~r.mask)
      ∧ (∀ o, o ≠ off.toNat → t.setup.staged.get o = s.setup.staged.get o)
      ∧ t = { s with setup := { s.setup with staged := t.setup.staged } })
  ∧ (∀ (s : State) (off : BitVec 16) (v : Word) (n : Nat), n ≠ 32 ∨ off.toNat % 4 ≠ 0 ∨ 0x8000 ≤ off.toNat → Does (.stagedRegisterWrite off v n) s
      fun t => t = { s with setup := { s.setup with discards := satAdd s.setup.discards 1 65535 } })
  ∧ (∀ (s : State) (off : BitVec 16) (v : Word), off.toNat ≠ Reg.cfgCommit → (∀ r, rowOf off.toNat = some r → r.access ≠ .rw) →
    Does (.stagedRegisterWrite off v 32) s fun t => t = { s with setup := { s.setup with discards := satAdd s.setup.discards 1 65535 } })
  ∧ (∀ s : State, Does .cfgPendRead s fun t => t.out = Out.read Reg.cfgPend s.pendWord :: s.out ∧ t.setup = { s.setup with discards := 0 })
  ∧ (∀ s : State, Does .cfgCtimeLoRead s fun t => t.out = Out.read Reg.cfgCtime (s.setup.cTime.setWidth 32) :: s.out
      ∧ t.setup = { s.setup with cTimeHi := (s.setup.cTime >>> 32).setWidth 32 })
  ∧ (∀ s : State, s.setup.pending = none → Does .commitApply s fun t => t = s)
  ∧ (∀ (s : State) (p : Snapshot) (a : Nat), s.setup.pending = some p → s.effectAt p = some a → a ≤ s.now → (s.judged p).first = none →
    Does .commitApply s fun t => t.setup.active = (s.judged p).n ∧ t.setup.pending = none ∧ t.setup.cState = 3 ∧ t.setup.cTag = p.tag
      ∧ t.setup.cTime = BitVec.ofNat 64 (eventOf s.sysNs) ∧ t.setup.blocks = s.setup.blocks.filter (fun b => !p.blocks.contains b))
  ∧ (∀ (s : State) (p : Snapshot) (a : Nat) (f : Fail), s.setup.pending = some p → s.effectAt p = some a → a ≤ s.now →
    (s.judged p).first = some f → Does .commitApply s fun t => t.setup.active = s.setup.active ∧ t.setup.staged = s.setup.staged
      ∧ t.setup.blocks = s.setup.blocks ∧ t.setup.blocksAct = s.setup.blocksAct ∧ t.setup.pending = none ∧ t.setup.cState = 4
      ∧ t.setup.cStatus = f.status ∧ t.setup.cOffset = f.offset ∧ t.setup.cDetail = f.detail ∧ t.gate = s.gate ∧ t.ring = s.ring
      ∧ t.Saw Ev.commitRefused [p.tag.toNat, f.status, f.offset, f.detail])
  ∧ (∀ (s : State) (p : Snapshot), s.setup.pending = some p → s.effectAt p = none → p.waitTill = none → s.boundaryFor p p.at_ ≤ s.now →
    (s.judged p).first = none → Does .commitApply s fun t => t = s.onSetup (fun x => { x with
      pending := some { p with waitTill := some (p.at_ + 10000000000) }, cState := 2 }))
  ∧ (∀ (s : State) (p : Snapshot), s.isPair = true → s.isAlone = false → p.both = true → s.setup.peerGo = none → s.effectAt p = none)
  ∧ (∀ (s : State) (p : Snapshot), s.isPair = false → s.effectAt p = some (s.boundaryFor p p.at_))
  ∧ (∀ (s : State) (p : Snapshot), s.levelChange p.blocks = none → s.boundaryFor p p.at_ = atOrAfter (p.at_ + 500000) s.baseCycle)
  ∧ (∀ (s : State) (p : Snapshot) (a : Nat) (c : Sys2Proof.Instr), (c = .commitExpired ∧ p.hasOther = true) ∨ (c = .profileCommitExpired ∧ p.hasProfile = true)
      ∨ (c = .safetyCfgExpired ∧ p.hasSafety = true) → s.setup.pending = some p → p.waitTill = some a →
    s.effectAt p = none → Does c s fun t => t.setup.pending = none ∧ t.setup.cState = 5 ∧ t.setup.staged = s.setup.staged
      ∧ t.setup.active = s.setup.active ∧ t.now = (s.advance a).now ∧ (p.hasOther = true → t.Saw Ev.commitExpired [p.tag.toNat])
      ∧ (p.hasSafety = true → t.Saw Ev.safetyCfgExpired [])
      ∧ (p.hasProfile = true → t.Saw Ev.profileRefused [Fld.profileCtl_SELECT (s.judged p).n, 1]))
  ∧ (∀ (s : State), s.nvmBarred = false → s.life.phase ≠ .recovery →
      (∀ o, 0x1000 ≤ o → o < 0x1300 → s.storeConfig.setup.stored.get o = regReset o)
      ∧ (∀ o, o < 0x1000 → s.storeConfig.setup.stored.get o = s.setup.active.get o))
  ∧ (∀ s : State, s.nvmBarred = true → s.life.phase ≠ .recovery → s.storeConfig.setup.stored = s.setup.stored ∧ s.storeConfig.setup.storeDue = true)

/-- 19 R480, R478, R484, R485, 02 R53: the checks of a commit and what a read answers. A field outside its table's range, a profile the plan
does not permit, and a change that needs the stage at rest are refused with their status, register and lowest bit; a read answers the staging copy at a register's own offset and the active value at the mirror. -/
def Obligations.CommitChecks : Prop :=
  (∀ (j : Judged) (off : Nat) (f : FieldRow), fieldRows.find? (fun f => decide (f.base ≤ off ∧ off < f.base + 4 * f.count) && f.bad j.n off) = some f →
    j.fields off = some ⟨St.fieldRange, off, f.lo⟩)
  ∧ (∀ j : Judged, Fld.profileCtl_SELECT j.n ≠ Fld.profileCtl_SELECT j.m.cfg → j.m.permits (Fld.profileCtl_SELECT j.n) = false →
      (j.profile).map (fun f => (f.status, f.offset)) = some (St.admissionRefused, Reg.profileCtl))
  ∧ (∀ (j : Judged) (off : Nat), j.off.contains off = true → j.m.stageIdle = false → j.running off = some ⟨St.stageRunning, off, 0⟩)
  ∧ (∀ (j : Judged) (off : Nat), j.m.stageIdle = true → j.running off = none)
  ∧ (∀ j : Judged, j.registers = none → (∀ k ∈ [1, 2, 3], j.block k = none) → j.first = none)
  ∧ (∀ (j : Judged) (f : Fail), j.registers = some f → j.first = some f)
  ∧ (∀ (s : State) (off : Nat) (r : RegRow), s.life.phase ≠ .recovery → off < 0x8000 → rowOf off = some r → r.access = .rw →
      s.regWord off = s.setup.staged.get off ∧ s.regWord (off + 0x8000) = s.setup.active.get off)
  ∧ (∀ (s : State) (off : Nat), off < 0x8000 → rowOf off = none → s.regWord off = 0
      ∧ s.regWord (off + 0x8000) = 0)
  ∧ (∀ (s : State) (off : Nat), off < 0x8000 → 0x5C ≤ off → off < 0x1000 → s.life.phase = .recovery → s.regWord off = 0)

/-- Every command, in every state: it runs to a next state, and leaves the queue, the factory's data of the unit, and every part of the state
that it has no business with as they were. -/
def Obligations.EveryCommandLeaves : Prop :=
  ∀ (c : Sys2Proof.Instr) (s : State), Does c s fun t => s.leaves c t

/-- 19 R478: whatever command runs, and on an empty queue, sound register banks stay so: each bank canonical, and outside the RW fields of its
registers as at reset. -/
def Obligations.StepKeepsRegisters : Prop :=
  ∀ s t : State, s.regsOk = true → step s = .next t → t.regsOk = true

/-- 19 R485, R478: the state after reset. Every register of Table 19.11 but DEV_ID reads its reset value at its own offset, and DEV_ID 0x5120
of an S-grade part (the grade is a DESIGN CHOICE, log 6); the banks are sound; nothing waits; the outputs are open. -/
def Obligations.ResetState : Prop :=
  (∀ (off : Nat) (r : RegRow), off < 0x8000 → rowOf off = some r → off ≠ Reg.devId → State.reset.regWord off = r.reset)
  ∧ State.reset.regWord Reg.devId = 0x5120
  ∧ State.reset.regsOk = true ∧ State.reset.pending = [] ∧ State.reset.sized ∧ State.reset.life.phase = .off
  ∧ State.reset.safety.outs.all (fun o => !o.hi && !o.lo) = true ∧ State.reset.rec_.sound

/-- A step takes the command in front and runs it with the queue's rest; on an empty queue the time base counts one tick (the model's choice,
a DESIGN CHOICE, log 2). -/
def Obligations.StepRunsTheFront : Prop :=
  (∀ (c : Sys2Proof.Instr) (l : List Sys2Proof.Instr) (s : State), step { s with pending := c :: l } = exec c { s with pending := l })
  ∧ (∀ s : State, s.pending = [] → step s = .next s.tick)
end

