-- ==== Sys2Proof/Laws/Bank.lean ====
section
/-! SUPPORT. Register banks: what the canonical form means, what `put` and `take` leave, and that every way a bank is made keeps it sound. -/
namespace Sys2Proof.Machine

/-! ### The canonical form -/

theorem RegBank.wf_iff (b : RegBank) :
    b.wf = true ↔ b.Pairwise (fun x y => x.1 < y.1) ∧ ∀ e ∈ b, e.2 ≠ regReset e.1 := by
  induction b with
  | nil => simp [RegBank.wf]
  | cons e b ih =>
    cases b with
    | nil => simp [RegBank.wf]
    | cons e' b =>
      rw [RegBank.wf, Bool.and_eq_true, ih]
      simp only [Bool.and_eq_true, decide_eq_true_eq, List.pairwise_cons, List.mem_cons, forall_eq_or_imp]
      constructor
      · rintro ⟨⟨h1, h2⟩, ⟨h3, h4⟩, h5⟩
        exact ⟨⟨⟨h2, fun a ha => Nat.lt_trans h2 (h3 a ha)⟩, h3, h4⟩, h1, h5⟩
      · rintro ⟨⟨⟨h1, _⟩, h3⟩, h4, h5⟩
        exact ⟨⟨h4, h1⟩, h3, h5⟩

theorem RegBank.ok_iff (b : RegBank) :
    b.ok = true ↔ b.Pairwise (fun x y => x.1 < y.1) ∧ ∀ e ∈ b, e.2 ≠ regReset e.1 ∧ rwOnly e = true := by
  rw [RegBank.ok, Bool.and_eq_true, RegBank.wf_iff, List.all_eq_true]
  constructor
  · rintro ⟨⟨h1, h2⟩, h3⟩
    exact ⟨h1, fun e he => ⟨h2 e he, h3 e he⟩⟩
  · rintro ⟨h1, h2⟩
    exact ⟨⟨h1, fun e he => (h2 e he).1⟩, fun e he => (h2 e he).2⟩

/-! ### One register given a value -/

theorem RegBank.mem_put {b : RegBank} {off : Nat} {w : Word} {e : Nat × Word} (h : e ∈ b.put off w) :
    e ∈ b ∨ (e = (off, w) ∧ w ≠ regReset off) := by
  induction b with
  | nil =>
    unfold RegBank.put at h
    split at h
    · cases h
    · exact .inr ⟨List.mem_singleton.1 h, by assumption⟩
  | cons x b ih =>
    unfold RegBank.put at h
    split at h
    · split at h
      · exact .inl h
      · rcases List.mem_cons.1 h with h | h
        · exact .inr ⟨h, by assumption⟩
        · exact .inl h
    · split at h
      · split at h
        · exact .inl (List.mem_cons_of_mem _ h)
        · rcases List.mem_cons.1 h with h | h
          · exact .inr ⟨h, by assumption⟩
          · exact .inl (List.mem_cons_of_mem _ h)
      · rcases List.mem_cons.1 h with h | h
        · exact .inl (h ▸ List.mem_cons_self)
        · rcases ih h with h | h
          · exact .inl (List.mem_cons_of_mem _ h)
          · exact .inr h

theorem RegBank.put_pairwise {b : RegBank} {off : Nat} {w : Word} (h : b.Pairwise (fun x y => x.1 < y.1)) :
    (b.put off w).Pairwise (fun x y => x.1 < y.1) := by
  induction b with
  | nil => unfold RegBank.put; split <;> simp
  | cons x b ih =>
    rw [List.pairwise_cons] at h
    unfold RegBank.put
    split
    · rename_i hlt
      split
      · exact List.pairwise_cons.2 h
      · refine List.pairwise_cons.2 ⟨?_, List.pairwise_cons.2 h⟩
        intro y hy
        rcases List.mem_cons.1 hy with hy | hy
        · rw [hy]; exact hlt
        · exact Nat.lt_trans hlt (h.1 y hy)
    · rename_i hge
      split
      · rename_i heq
        split
        · exact h.2
        · exact List.pairwise_cons.2 ⟨fun y hy => heq ▸ h.1 y hy, h.2⟩
      · rename_i hne
        refine List.pairwise_cons.2 ⟨?_, ih h.2⟩
        intro y hy
        rcases RegBank.mem_put hy with hy | ⟨hy, _⟩
        · exact h.1 y hy
        · rw [hy]; simp only at *; omega

theorem RegBank.put_ok {b : RegBank} {off : Nat} {w : Word} (h : b.ok = true) (hw : rwOnly (off, w) = true) :
    (b.put off w).ok = true := by
  rw [RegBank.ok_iff] at *
  refine ⟨RegBank.put_pairwise h.1, fun e he => ?_⟩
  rcases RegBank.mem_put he with he | ⟨rfl, hne⟩
  · exact h.2 e he
  · exact ⟨hne, hw⟩

/-- A value masked to the RW fields is one that its register may hold. -/
theorem rwOnly_masked {off : Nat} {w : Word} {x : RegRow} (hx : rowOf off = some x) (ha : x.access = .rw) :
    rwOnly (off, (w &&& x.mask) ||| (regReset off &&& ~~~x.mask)) = true := by
  unfold rwOnly
  rw [hx]
  simp only [ha, decide_true, Bool.true_and, decide_eq_true_eq]
  ext i hi
  simp only [BitVec.getElem_and, BitVec.getElem_or, BitVec.getElem_not]
  cases x.mask[i] <;> simp

/-- The reset value is one that a staged register may hold. -/
theorem rwOnly_reset {off : Nat} {w : Word} (h : rwOnly (off, w) = true) : rwOnly (off, regReset off) = true := by
  unfold rwOnly at *
  split at h
  · rename_i hr
    simp only at hr ⊢
    rw [hr]
    simp only [Bool.and_eq_true, decide_eq_true_eq] at h
    simp [h.1]
  · cases h

@[simp] theorem RegBank.take_ok {b : RegBank} {e : Nat × Word} (h : b.ok = true) : (b.take e).ok = true := by
  unfold RegBank.take
  split
  · split
    · exact RegBank.put_ok h (rwOnly_masked (by assumption) (by assumption))
    · exact h
  · exact h

/-! ### Whole banks -/

@[simp] theorem RegBank.filter_ok {b : RegBank} {f : Nat × Word → Bool} (h : b.ok = true) : RegBank.ok (b.filter f) = true := by
  rw [RegBank.ok_iff] at *
  exact ⟨h.1.filter f, fun e he => h.2 e (List.mem_filter.1 he).1⟩

@[simp] theorem RegBank.nil_ok : RegBank.ok [] = true := rfl

@[simp] theorem RegBank.foldl_take_ok {l : List (Nat × Word)} {b : RegBank} (h : b.ok = true) :
    RegBank.ok (l.foldl RegBank.take b) = true := by
  induction l generalizing b with
  | nil => exact h
  | cons e l ih => exact ih (RegBank.take_ok h)

theorem RegBank.foldl_put_ok {l : List (Nat × Word)} {b : RegBank} (h : b.ok = true) (hl : l.all rwOnly = true) :
    RegBank.ok (l.foldl (fun b r => b.put r.1 r.2) b) = true := by
  induction l generalizing b with
  | nil => exact h
  | cons e l ih =>
    rw [List.all_cons, Bool.and_eq_true] at hl
    exact ih (RegBank.put_ok h hl.1) hl.2

@[simp] theorem mergeRegs_ok {theirs mine : RegBank} : (mergeRegs theirs mine).ok = true :=
  RegBank.foldl_take_ok RegBank.nil_ok

/-! ### What a snapshot takes -/

theorem RegBank.get_mem_or {b : RegBank} {off : Nat} : (off, b.get off) ∈ b ∨ b.get off = regReset off := by
  unfold RegBank.get
  split
  · rename_i e he
    have h1 := List.find?_some he
    have h2 := List.mem_of_find?_eq_some he
    simp only [beq_iff_eq] at h1
    subst h1
    exact .inl h2
  · exact .inr rfl

theorem mem_insertReg {e x : Nat × Word} {l : List (Nat × Word)} (h : x ∈ insertReg e l) : x = e ∨ x ∈ l := by
  induction l with
  | nil => exact .inl (List.mem_singleton.1 h)
  | cons y l ih =>
    unfold insertReg at h
    split at h
    · exact List.mem_cons.1 h
    · split at h
      · rcases List.mem_cons.1 h with h | h
        · exact .inl h
        · exact .inr (List.mem_cons_of_mem _ h)
      · rcases List.mem_cons.1 h with h | h
        · exact .inr (h ▸ List.mem_cons_self)
        · rcases ih h with h | h
          · exact .inl h
          · exact .inr (List.mem_cons_of_mem _ h)

theorem mem_foldl_insertReg {f : Nat → Nat × Word} {offs : List Nat} {l : List (Nat × Word)} {x : Nat × Word}
    (h : x ∈ offs.foldl (fun l o => insertReg (f o) l) l) : x ∈ l ∨ ∃ o ∈ offs, x = f o := by
  induction offs generalizing l with
  | nil => exact .inl h
  | cons o offs ih =>
    rcases ih h with h | ⟨o', ho, hx⟩
    · rcases mem_insertReg h with h | h
      · exact .inr ⟨o, List.mem_cons_self, h⟩
      · exact .inl h
    · exact .inr ⟨o', List.mem_cons_of_mem _ ho, hx⟩

theorem regDiff_rwOnly {a b : RegBank} (ha : a.ok = true) (hb : b.ok = true) : (regDiff a b).all rwOnly = true := by
  rw [List.all_eq_true]
  intro x hx
  unfold regDiff at hx
  rcases mem_foldl_insertReg (f := fun o => (o, a.get o)) hx with hx | ⟨o, ho, rfl⟩
  · cases hx
  · rw [RegBank.ok_iff] at ha hb
    have ho := (List.mem_filter.1 ho).1
    rcases RegBank.get_mem_or (b := a) (off := o) with h | h
    · exact (ha.2 _ h).2
    · simp only [h]
      rcases List.mem_append.1 ho with ho | ho
      · obtain ⟨e, he, rfl⟩ := List.mem_map.1 ho
        exact rwOnly_reset (ha.2 e he).2
      · obtain ⟨e, he, rfl⟩ := List.mem_map.1 (List.mem_filter.1 ho).1
        exact rwOnly_reset (hb.2 e he).2

/-! ### The set-up -/

theorem Setup.ok_iff (x : Setup) : x.ok = true ↔
    x.active.ok = true ∧ x.staged.ok = true ∧ x.stored.ok = true ∧ ∀ p, x.pending = some p → p.regs.all rwOnly = true := by
  unfold Setup.ok
  simp only [Bool.and_eq_true, and_assoc]
  refine and_congr_right fun _ => and_congr_right fun _ => and_congr_right fun _ => ?_
  cases x.pending <;> simp

theorem Setup.mk_ok {x : Setup} (h1 : x.active.ok = true) (h2 : x.staged.ok = true) (h3 : x.stored.ok = true)
    (h4 : ∀ p, x.pending = some p → p.regs.all rwOnly = true) : x.ok = true :=
  (Setup.ok_iff x).2 ⟨h1, h2, h3, h4⟩

end Sys2Proof.Machine
end

