-- ==== Sys2Proof/Laws/Holds.lean ====
section
/-! SUPPORT. What an operation of the block keeps, said once for every operation: from a base state, the queue and what the factory fixed;
every part of the state that a set does not name; and sound register banks. The lemmas here carry it through updates, branches and folds;
the files Laws/Keep*.lean carry it through every operation and every command's meaning. -/
namespace Sys2Proof.Machine

/-- From a base state `B`, the state keeps the queue, the unit's factory data, every part that `M` does not name and, where `R` asks for it,
sound register banks. -/
structure Holds (R : Bool) (M : Part → Bool) (B t : State) : Prop where
  queue : t.pending = B.pending
  unit  : t.unit = B.unit
  regs  : R = true → t.regsOk = true
  parts : ∀ q, M q = true ∨ q.same B t

/-- An outcome is a next state of that kind. -/
inductive HoldsR (R : Bool) (M : Part → Bool) (B : State) : Host.Outcome State Fault Refusal → Prop
  | next {t : State} (h : Holds R M B t) : HoldsR R M B (.next t)

/-- Every state of a verdict is of that kind. -/
inductive HoldsV (R : Bool) (M : Part → Bool) (B : State) : Verdict → Prop
  | refuse {a b : Nat} : HoldsV R M B (.refuse a b)
  | refuseAs {a b : Nat} {t : State} (h : Holds R M B t) : HoldsV R M B (.refuseAs a b t)
  | accept {a : Nat} {b : Bool} {l : List Byte} {t : State} (h : Holds R M B t) : HoldsV R M B (.accept a b l t)
  | acceptRead {a b : Nat} {l : List Byte} {t : State} (h : Holds R M B t) : HoldsV R M B (.acceptRead a b l t)

/-- A set names a part. -/
class May (M : Part → Bool) (q : Part) : Prop where
  yes : M q = true

/-- A part is named, or stays as it is. -/
def Kept (M : Part → Bool) (q : Part) (s t : State) : Prop := M q = true ∨ q.same s t

section
variable {R : Bool} {M : Part → Bool} {B s : State}

theorem Holds.refl (h : R = true → s.regsOk = true) : Holds R M s s :=
  ⟨rfl, rfl, h, fun q => .inr (by cases q <;> rfl)⟩

theorem Part.same_trans {q : Part} {s t u : State} (h : q.same s t) (h' : q.same t u) : q.same s u := by
  cases q <;> exact Eq.trans h' h

/-- The queue of a record literal shows itself in the first goal. -/
theorem Holds.probe {t : State} (_ : ∃ l, l = t.pending) (h : Holds R M B t) : Holds R M B t := h

/-- An update of the state: each part named or as before, the register banks still sound. -/
theorem Holds.upd {t : State} (h : Holds R M B s) (hp : t.pending = s.pending) (hu : t.unit = s.unit)
    (hr : s.setup.ok = true → t.setup.ok = true) (hq : ∀ q, Kept M q s t) : Holds R M B t :=
  ⟨hp.trans h.queue, hu.trans h.unit, fun r => hr (h.regs r), fun q => (h.parts q).elim .inl fun a =>
    (hq q).elim .inl fun c => .inr (Part.same_trans a c)⟩

theorem kept_all {t : State} (h1 : Kept M .chain s t) (h2 : Kept M .fabric s t) (h3 : Kept M .time s t) (h4 : Kept M .ring s t)
    (h5 : Kept M .meas s t) (h6 : Kept M .est s t) (h7 : Kept M .ledger s t) (h8 : Kept M .gate s t) (h9 : Kept M .loop s t)
    (h10 : Kept M .therm s t) (h11 : Kept M .disp s t) (h12 : Kept M .safety s t) (h13 : Kept M .prog s t) (h14 : Kept M .host s t)
    (h15 : Kept M .plant s t) (h16 : Kept M .twin s t) (h17 : Kept M .rec_ s t) (h18 : Kept M .life s t) (h19 : Kept M .setup s t)
    (h20 : Kept M .out s t) (h21 : Kept M .free s t) (q : Part) : Kept M q s t := by
  cases q <;> assumption

/-- A record update, but of the life and the set-up. -/
theorem Holds.mk0 {x0 x1 x2 x3 x4 x5 x6 x7 x8 x9 x10 x11 x12 x13 x14 x15 x16 x19 x20}  (h : Holds R M B s)
    (h0 : M .chain = true ∨ x0 = s.chain) (h1 : M .fabric = true ∨ x1 = s.fabric) (h2 : M .time = true ∨ x2 = s.time)
    (h3 : M .ring = true ∨ x3 = s.ring) (h4 : M .meas = true ∨ x4 = s.meas) (h5 : M .est = true ∨ x5 = s.est)
    (h6 : M .ledger = true ∨ x6 = s.ledger) (h7 : M .gate = true ∨ x7 = s.gate) (h8 : M .loop = true ∨ x8 = s.loop)
    (h9 : M .therm = true ∨ x9 = s.therm) (h10 : M .disp = true ∨ x10 = s.disp) (h11 : M .safety = true ∨ x11 = s.safety)
    (h12 : M .prog = true ∨ x12 = s.prog) (h13 : M .host = true ∨ x13 = s.host) (h14 : M .plant = true ∨ x14 = s.plant)
    (h15 : M .twin = true ∨ x15 = s.twin) (h16 : M .rec_ = true ∨ x16 = s.rec_) (h19 : M .out = true ∨ x19 = s.out)
    (h20 : M .free = true ∨ x20 = s.free) :
    Holds R M B (State.mk x0 x1 x2 x3 x4 x5 x6 x7 x8 x9 x10 x11 x12 x13 x14 x15 x16 s.life s.setup x19 x20 s.pending) :=
  h.upd rfl rfl id (kept_all h0 h1 h2 h3 h4 h5 h6 h7 h8 h9 h10 h11 h12 h13 h14 h15 h16 (.inr rfl) (.inr rfl) h19 h20)

/-- One of the life too, which leaves what the factory fixed. -/
theorem Holds.mkLife {x0 x1 x2 x3 x4 x5 x6 x7 x8 x9 x10 x11 x12 x13 x14 x15 x16 x19 x20} {l : Life} [May M .life]
    (hl : l.serial = s.life.serial ∧ l.grade = s.life.grade ∧ l.board = s.life.board ∧ l.lineage = s.life.lineage) (h : Holds R M B s)
    (h0 : M .chain = true ∨ x0 = s.chain) (h1 : M .fabric = true ∨ x1 = s.fabric) (h2 : M .time = true ∨ x2 = s.time)
    (h3 : M .ring = true ∨ x3 = s.ring) (h4 : M .meas = true ∨ x4 = s.meas) (h5 : M .est = true ∨ x5 = s.est)
    (h6 : M .ledger = true ∨ x6 = s.ledger) (h7 : M .gate = true ∨ x7 = s.gate) (h8 : M .loop = true ∨ x8 = s.loop)
    (h9 : M .therm = true ∨ x9 = s.therm) (h10 : M .disp = true ∨ x10 = s.disp) (h11 : M .safety = true ∨ x11 = s.safety)
    (h12 : M .prog = true ∨ x12 = s.prog) (h13 : M .host = true ∨ x13 = s.host) (h14 : M .plant = true ∨ x14 = s.plant)
    (h15 : M .twin = true ∨ x15 = s.twin) (h16 : M .rec_ = true ∨ x16 = s.rec_) (h19 : M .out = true ∨ x19 = s.out)
    (h20 : M .free = true ∨ x20 = s.free) :
    Holds R M B (State.mk x0 x1 x2 x3 x4 x5 x6 x7 x8 x9 x10 x11 x12 x13 x14 x15 x16 l s.setup x19 x20 s.pending) :=
  h.upd rfl (by simp [State.unit, hl]) id (kept_all h0 h1 h2 h3 h4 h5 h6 h7 h8 h9 h10 h11 h12 h13 h14 h15 h16 (.inl May.yes) (.inr rfl) h19 h20)

/-- One of the set-up too, which keeps it sound. -/
theorem Holds.mkSetup {x0 x1 x2 x3 x4 x5 x6 x7 x8 x9 x10 x11 x12 x13 x14 x15 x16 x19 x20} {x : Setup} [May M .setup] (hx : s.setup.ok = true → x.ok = true) (h : Holds R M B s)
    (h0 : M .chain = true ∨ x0 = s.chain) (h1 : M .fabric = true ∨ x1 = s.fabric) (h2 : M .time = true ∨ x2 = s.time)
    (h3 : M .ring = true ∨ x3 = s.ring) (h4 : M .meas = true ∨ x4 = s.meas) (h5 : M .est = true ∨ x5 = s.est)
    (h6 : M .ledger = true ∨ x6 = s.ledger) (h7 : M .gate = true ∨ x7 = s.gate) (h8 : M .loop = true ∨ x8 = s.loop)
    (h9 : M .therm = true ∨ x9 = s.therm) (h10 : M .disp = true ∨ x10 = s.disp) (h11 : M .safety = true ∨ x11 = s.safety)
    (h12 : M .prog = true ∨ x12 = s.prog) (h13 : M .host = true ∨ x13 = s.host) (h14 : M .plant = true ∨ x14 = s.plant)
    (h15 : M .twin = true ∨ x15 = s.twin) (h16 : M .rec_ = true ∨ x16 = s.rec_) (h19 : M .out = true ∨ x19 = s.out)
    (h20 : M .free = true ∨ x20 = s.free) :
    Holds R M B (State.mk x0 x1 x2 x3 x4 x5 x6 x7 x8 x9 x10 x11 x12 x13 x14 x15 x16 s.life x x19 x20 s.pending) :=
  h.upd rfl rfl hx (kept_all h0 h1 h2 h3 h4 h5 h6 h7 h8 h9 h10 h11 h12 h13 h14 h15 h16 (.inr rfl) (.inl May.yes) h19 h20)

theorem Holds.onLife {f : Life → Life} [May M .life] (h : Holds R M B s)
    (hf : ∀ x, (f x).serial = x.serial ∧ (f x).grade = x.grade ∧ (f x).board = x.board ∧ (f x).lineage = x.lineage) :
    Holds R M B (s.onLife f) := by
  refine h.upd rfl (by simp [State.unit, State.onLife, hf]) id fun q => ?_
  cases q
  case life => exact .inl May.yes
  all_goals exact .inr rfl

theorem Holds.onSetup {f : Setup → Setup} [May M .setup] (h : Holds R M B s) (hf : s.setup.ok = true → (f s.setup).ok = true) :
    Holds R M B (s.onSetup f) := by
  refine h.upd rfl rfl hf fun q => ?_
  cases q
  case setup => exact .inl May.yes
  all_goals exact .inr rfl

theorem Holds.ite {c : Prop} [Decidable c] {a b : State} (ha : Holds R M B a) (hb : Holds R M B b) :
    Holds R M B (if c then a else b) := by
  split <;> assumption

theorem Holds.fst_ite {α : Type} {c : Prop} [Decidable c] {a b : State × α} (ha : Holds R M B a.1) (hb : Holds R M B b.1) :
    Holds R M B (if c then a else b).1 := by
  split <;> assumption

theorem HoldsR.ite {c : Prop} [Decidable c] {a b : Result} (ha : HoldsR R M B a) (hb : HoldsR R M B b) :
    HoldsR R M B (if c then a else b) := by
  split <;> assumption

theorem HoldsV.ite {c : Prop} [Decidable c] {a b : Verdict} (ha : HoldsV R M B a) (hb : HoldsV R M B b) :
    HoldsV R M B (if c then a else b) := by
  split <;> assumption

theorem Holds.foldl {α : Type} {f : State → α → State} {l : List α} (hf : ∀ t x, Holds R M B t → Holds R M B (f t x))
    (h : Holds R M B s) : Holds R M B (l.foldl f s) := by
  induction l generalizing s with
  | nil => exact h
  | cons x l ih => exact ih (hf _ _ h)

theorem HoldsR.exists {o : Host.Outcome State Fault Refusal} (h : HoldsR R M B o) : ∃ t, o = .next t ∧ Holds R M B t := by
  cases h with
  | next h => exact ⟨_, rfl, h⟩

theorem HoldsV.of_refuseAs {v : Verdict} {a b : Nat} (e : v = .refuseAs a b s) (h : HoldsV R M B v) : Holds R M B s := by
  subst e; cases h; assumption

theorem HoldsV.of_accept {v : Verdict} {a : Nat} {b : Bool} {l : List Byte} (e : v = .accept a b l s) (h : HoldsV R M B v) :
    Holds R M B s := by
  subst e; cases h; assumption

theorem HoldsV.of_acceptRead {v : Verdict} {a b : Nat} {l : List Byte} (e : v = .acceptRead a b l s) (h : HoldsV R M B v) :
    Holds R M B s := by
  subst e; cases h; assumption

theorem Holds.of_fst {α : Type} {x : State × α} {b : α} (e : x = (s, b)) (h : Holds R M B x.1) : Holds R M B s := by
  rw [e] at h; exact h
end

end Sys2Proof.Machine
end

