-- ==== Sys2Proof/Laws/Lists.lean ====
section
/-! SUPPORT. Lists with one element changed, or every element by its place. -/
namespace Sys2Proof.Machine

section
variable {α β : Type}

@[simp] theorem modAt_length (l : List α) (i : Nat) (f : α → α) : (modAt l i f).length = l.length := by
  induction l generalizing i with
  | nil => rfl
  | cons a l ih => cases i with
    | zero => rfl
    | succ i => simp only [modAt, List.length_cons, ih]

theorem modAt_getElem? (l : List α) (i j : Nat) (f : α → α) : (modAt l i f)[j]? = if j = i then l[j]?.map f else l[j]? := by
  induction l generalizing i j with
  | nil => cases j <;> simp [modAt]
  | cons a l ih => cases i <;> cases j <;> simp [modAt, ih]

/-- The changed element. -/
theorem modAt_getD_self (l : List α) (i : Nat) (f : α → α) (d : α) (h : i < l.length) : (modAt l i f).getD i d = f (l.getD i d) := by
  simp only [List.getD_eq_getElem?_getD, modAt_getElem?, if_true, List.getElem?_eq_getElem h]; rfl

/-- Every other element. -/
theorem modAt_getD_ne (l : List α) {i j : Nat} (f : α → α) (d : α) (h : j ≠ i) : (modAt l i f).getD j d = l.getD j d := by
  simp only [List.getD_eq_getElem?_getD, modAt_getElem?, if_neg h]

end

end Sys2Proof.Machine
end

