-- ==== Sys2Proof/Laws/State.lean ====
section
/-! SUPPORT. The updates of a state: what each part is after each of them. -/
namespace Sys2Proof.Machine
section
variable (s : State)

@[simp] theorem State.onMeas_chain (f : Meas → Meas) : (s.onMeas f).chain = s.chain := rfl
@[simp] theorem State.onMeas_fabric (f : Meas → Meas) : (s.onMeas f).fabric = s.fabric := rfl
@[simp] theorem State.onMeas_time (f : Meas → Meas) : (s.onMeas f).time = s.time := rfl
@[simp] theorem State.onMeas_ring (f : Meas → Meas) : (s.onMeas f).ring = s.ring := rfl
@[simp] theorem State.onMeas_meas (f : Meas → Meas) : (s.onMeas f).meas = f s.meas := rfl
@[simp] theorem State.onMeas_est (f : Meas → Meas) : (s.onMeas f).est = s.est := rfl
@[simp] theorem State.onMeas_ledger (f : Meas → Meas) : (s.onMeas f).ledger = s.ledger := rfl
@[simp] theorem State.onMeas_gate (f : Meas → Meas) : (s.onMeas f).gate = s.gate := rfl
@[simp] theorem State.onMeas_loop (f : Meas → Meas) : (s.onMeas f).loop = s.loop := rfl
@[simp] theorem State.onMeas_therm (f : Meas → Meas) : (s.onMeas f).therm = s.therm := rfl
@[simp] theorem State.onMeas_disp (f : Meas → Meas) : (s.onMeas f).disp = s.disp := rfl
@[simp] theorem State.onMeas_safety (f : Meas → Meas) : (s.onMeas f).safety = s.safety := rfl
@[simp] theorem State.onMeas_prog (f : Meas → Meas) : (s.onMeas f).prog = s.prog := rfl
@[simp] theorem State.onMeas_host (f : Meas → Meas) : (s.onMeas f).host = s.host := rfl
@[simp] theorem State.onMeas_plant (f : Meas → Meas) : (s.onMeas f).plant = s.plant := rfl
@[simp] theorem State.onMeas_twin (f : Meas → Meas) : (s.onMeas f).twin = s.twin := rfl
@[simp] theorem State.onMeas_rec_ (f : Meas → Meas) : (s.onMeas f).rec_ = s.rec_ := rfl
@[simp] theorem State.onMeas_life (f : Meas → Meas) : (s.onMeas f).life = s.life := rfl
@[simp] theorem State.onMeas_setup (f : Meas → Meas) : (s.onMeas f).setup = s.setup := rfl
@[simp] theorem State.onMeas_out (f : Meas → Meas) : (s.onMeas f).out = s.out := rfl
@[simp] theorem State.onMeas_free (f : Meas → Meas) : (s.onMeas f).free = s.free := rfl
@[simp] theorem State.onMeas_pending (f : Meas → Meas) : (s.onMeas f).pending = s.pending := rfl

@[simp] theorem State.onEst_chain (f : Est → Est) : (s.onEst f).chain = s.chain := rfl
@[simp] theorem State.onEst_fabric (f : Est → Est) : (s.onEst f).fabric = s.fabric := rfl
@[simp] theorem State.onEst_time (f : Est → Est) : (s.onEst f).time = s.time := rfl
@[simp] theorem State.onEst_ring (f : Est → Est) : (s.onEst f).ring = s.ring := rfl
@[simp] theorem State.onEst_meas (f : Est → Est) : (s.onEst f).meas = s.meas := rfl
@[simp] theorem State.onEst_est (f : Est → Est) : (s.onEst f).est = f s.est := rfl
@[simp] theorem State.onEst_ledger (f : Est → Est) : (s.onEst f).ledger = s.ledger := rfl
@[simp] theorem State.onEst_gate (f : Est → Est) : (s.onEst f).gate = s.gate := rfl
@[simp] theorem State.onEst_loop (f : Est → Est) : (s.onEst f).loop = s.loop := rfl
@[simp] theorem State.onEst_therm (f : Est → Est) : (s.onEst f).therm = s.therm := rfl
@[simp] theorem State.onEst_disp (f : Est → Est) : (s.onEst f).disp = s.disp := rfl
@[simp] theorem State.onEst_safety (f : Est → Est) : (s.onEst f).safety = s.safety := rfl
@[simp] theorem State.onEst_prog (f : Est → Est) : (s.onEst f).prog = s.prog := rfl
@[simp] theorem State.onEst_host (f : Est → Est) : (s.onEst f).host = s.host := rfl
@[simp] theorem State.onEst_plant (f : Est → Est) : (s.onEst f).plant = s.plant := rfl
@[simp] theorem State.onEst_twin (f : Est → Est) : (s.onEst f).twin = s.twin := rfl
@[simp] theorem State.onEst_rec_ (f : Est → Est) : (s.onEst f).rec_ = s.rec_ := rfl
@[simp] theorem State.onEst_life (f : Est → Est) : (s.onEst f).life = s.life := rfl
@[simp] theorem State.onEst_setup (f : Est → Est) : (s.onEst f).setup = s.setup := rfl
@[simp] theorem State.onEst_out (f : Est → Est) : (s.onEst f).out = s.out := rfl
@[simp] theorem State.onEst_free (f : Est → Est) : (s.onEst f).free = s.free := rfl
@[simp] theorem State.onEst_pending (f : Est → Est) : (s.onEst f).pending = s.pending := rfl

@[simp] theorem State.onGate_chain (f : Gate → Gate) : (s.onGate f).chain = s.chain := rfl
@[simp] theorem State.onGate_fabric (f : Gate → Gate) : (s.onGate f).fabric = s.fabric := rfl
@[simp] theorem State.onGate_time (f : Gate → Gate) : (s.onGate f).time = s.time := rfl
@[simp] theorem State.onGate_ring (f : Gate → Gate) : (s.onGate f).ring = s.ring := rfl
@[simp] theorem State.onGate_meas (f : Gate → Gate) : (s.onGate f).meas = s.meas := rfl
@[simp] theorem State.onGate_est (f : Gate → Gate) : (s.onGate f).est = s.est := rfl
@[simp] theorem State.onGate_ledger (f : Gate → Gate) : (s.onGate f).ledger = s.ledger := rfl
@[simp] theorem State.onGate_gate (f : Gate → Gate) : (s.onGate f).gate = f s.gate := rfl
@[simp] theorem State.onGate_loop (f : Gate → Gate) : (s.onGate f).loop = s.loop := rfl
@[simp] theorem State.onGate_therm (f : Gate → Gate) : (s.onGate f).therm = s.therm := rfl
@[simp] theorem State.onGate_disp (f : Gate → Gate) : (s.onGate f).disp = s.disp := rfl
@[simp] theorem State.onGate_safety (f : Gate → Gate) : (s.onGate f).safety = s.safety := rfl
@[simp] theorem State.onGate_prog (f : Gate → Gate) : (s.onGate f).prog = s.prog := rfl
@[simp] theorem State.onGate_host (f : Gate → Gate) : (s.onGate f).host = s.host := rfl
@[simp] theorem State.onGate_plant (f : Gate → Gate) : (s.onGate f).plant = s.plant := rfl
@[simp] theorem State.onGate_twin (f : Gate → Gate) : (s.onGate f).twin = s.twin := rfl
@[simp] theorem State.onGate_rec_ (f : Gate → Gate) : (s.onGate f).rec_ = s.rec_ := rfl
@[simp] theorem State.onGate_life (f : Gate → Gate) : (s.onGate f).life = s.life := rfl
@[simp] theorem State.onGate_setup (f : Gate → Gate) : (s.onGate f).setup = s.setup := rfl
@[simp] theorem State.onGate_out (f : Gate → Gate) : (s.onGate f).out = s.out := rfl
@[simp] theorem State.onGate_free (f : Gate → Gate) : (s.onGate f).free = s.free := rfl
@[simp] theorem State.onGate_pending (f : Gate → Gate) : (s.onGate f).pending = s.pending := rfl

@[simp] theorem State.onLoop_chain (f : Loop → Loop) : (s.onLoop f).chain = s.chain := rfl
@[simp] theorem State.onLoop_fabric (f : Loop → Loop) : (s.onLoop f).fabric = s.fabric := rfl
@[simp] theorem State.onLoop_time (f : Loop → Loop) : (s.onLoop f).time = s.time := rfl
@[simp] theorem State.onLoop_ring (f : Loop → Loop) : (s.onLoop f).ring = s.ring := rfl
@[simp] theorem State.onLoop_meas (f : Loop → Loop) : (s.onLoop f).meas = s.meas := rfl
@[simp] theorem State.onLoop_est (f : Loop → Loop) : (s.onLoop f).est = s.est := rfl
@[simp] theorem State.onLoop_ledger (f : Loop → Loop) : (s.onLoop f).ledger = s.ledger := rfl
@[simp] theorem State.onLoop_gate (f : Loop → Loop) : (s.onLoop f).gate = s.gate := rfl
@[simp] theorem State.onLoop_loop (f : Loop → Loop) : (s.onLoop f).loop = f s.loop := rfl
@[simp] theorem State.onLoop_therm (f : Loop → Loop) : (s.onLoop f).therm = s.therm := rfl
@[simp] theorem State.onLoop_disp (f : Loop → Loop) : (s.onLoop f).disp = s.disp := rfl
@[simp] theorem State.onLoop_safety (f : Loop → Loop) : (s.onLoop f).safety = s.safety := rfl
@[simp] theorem State.onLoop_prog (f : Loop → Loop) : (s.onLoop f).prog = s.prog := rfl
@[simp] theorem State.onLoop_host (f : Loop → Loop) : (s.onLoop f).host = s.host := rfl
@[simp] theorem State.onLoop_plant (f : Loop → Loop) : (s.onLoop f).plant = s.plant := rfl
@[simp] theorem State.onLoop_twin (f : Loop → Loop) : (s.onLoop f).twin = s.twin := rfl
@[simp] theorem State.onLoop_rec_ (f : Loop → Loop) : (s.onLoop f).rec_ = s.rec_ := rfl
@[simp] theorem State.onLoop_life (f : Loop → Loop) : (s.onLoop f).life = s.life := rfl
@[simp] theorem State.onLoop_setup (f : Loop → Loop) : (s.onLoop f).setup = s.setup := rfl
@[simp] theorem State.onLoop_out (f : Loop → Loop) : (s.onLoop f).out = s.out := rfl
@[simp] theorem State.onLoop_free (f : Loop → Loop) : (s.onLoop f).free = s.free := rfl
@[simp] theorem State.onLoop_pending (f : Loop → Loop) : (s.onLoop f).pending = s.pending := rfl

@[simp] theorem State.onTherm_chain (f : Therm → Therm) : (s.onTherm f).chain = s.chain := rfl
@[simp] theorem State.onTherm_fabric (f : Therm → Therm) : (s.onTherm f).fabric = s.fabric := rfl
@[simp] theorem State.onTherm_time (f : Therm → Therm) : (s.onTherm f).time = s.time := rfl
@[simp] theorem State.onTherm_ring (f : Therm → Therm) : (s.onTherm f).ring = s.ring := rfl
@[simp] theorem State.onTherm_meas (f : Therm → Therm) : (s.onTherm f).meas = s.meas := rfl
@[simp] theorem State.onTherm_est (f : Therm → Therm) : (s.onTherm f).est = s.est := rfl
@[simp] theorem State.onTherm_ledger (f : Therm → Therm) : (s.onTherm f).ledger = s.ledger := rfl
@[simp] theorem State.onTherm_gate (f : Therm → Therm) : (s.onTherm f).gate = s.gate := rfl
@[simp] theorem State.onTherm_loop (f : Therm → Therm) : (s.onTherm f).loop = s.loop := rfl
@[simp] theorem State.onTherm_therm (f : Therm → Therm) : (s.onTherm f).therm = f s.therm := rfl
@[simp] theorem State.onTherm_disp (f : Therm → Therm) : (s.onTherm f).disp = s.disp := rfl
@[simp] theorem State.onTherm_safety (f : Therm → Therm) : (s.onTherm f).safety = s.safety := rfl
@[simp] theorem State.onTherm_prog (f : Therm → Therm) : (s.onTherm f).prog = s.prog := rfl
@[simp] theorem State.onTherm_host (f : Therm → Therm) : (s.onTherm f).host = s.host := rfl
@[simp] theorem State.onTherm_plant (f : Therm → Therm) : (s.onTherm f).plant = s.plant := rfl
@[simp] theorem State.onTherm_twin (f : Therm → Therm) : (s.onTherm f).twin = s.twin := rfl
@[simp] theorem State.onTherm_rec_ (f : Therm → Therm) : (s.onTherm f).rec_ = s.rec_ := rfl
@[simp] theorem State.onTherm_life (f : Therm → Therm) : (s.onTherm f).life = s.life := rfl
@[simp] theorem State.onTherm_setup (f : Therm → Therm) : (s.onTherm f).setup = s.setup := rfl
@[simp] theorem State.onTherm_out (f : Therm → Therm) : (s.onTherm f).out = s.out := rfl
@[simp] theorem State.onTherm_free (f : Therm → Therm) : (s.onTherm f).free = s.free := rfl
@[simp] theorem State.onTherm_pending (f : Therm → Therm) : (s.onTherm f).pending = s.pending := rfl

@[simp] theorem State.onDisp_chain (f : Disp → Disp) : (s.onDisp f).chain = s.chain := rfl
@[simp] theorem State.onDisp_fabric (f : Disp → Disp) : (s.onDisp f).fabric = s.fabric := rfl
@[simp] theorem State.onDisp_time (f : Disp → Disp) : (s.onDisp f).time = s.time := rfl
@[simp] theorem State.onDisp_ring (f : Disp → Disp) : (s.onDisp f).ring = s.ring := rfl
@[simp] theorem State.onDisp_meas (f : Disp → Disp) : (s.onDisp f).meas = s.meas := rfl
@[simp] theorem State.onDisp_est (f : Disp → Disp) : (s.onDisp f).est = s.est := rfl
@[simp] theorem State.onDisp_ledger (f : Disp → Disp) : (s.onDisp f).ledger = s.ledger := rfl
@[simp] theorem State.onDisp_gate (f : Disp → Disp) : (s.onDisp f).gate = s.gate := rfl
@[simp] theorem State.onDisp_loop (f : Disp → Disp) : (s.onDisp f).loop = s.loop := rfl
@[simp] theorem State.onDisp_therm (f : Disp → Disp) : (s.onDisp f).therm = s.therm := rfl
@[simp] theorem State.onDisp_disp (f : Disp → Disp) : (s.onDisp f).disp = f s.disp := rfl
@[simp] theorem State.onDisp_safety (f : Disp → Disp) : (s.onDisp f).safety = s.safety := rfl
@[simp] theorem State.onDisp_prog (f : Disp → Disp) : (s.onDisp f).prog = s.prog := rfl
@[simp] theorem State.onDisp_host (f : Disp → Disp) : (s.onDisp f).host = s.host := rfl
@[simp] theorem State.onDisp_plant (f : Disp → Disp) : (s.onDisp f).plant = s.plant := rfl
@[simp] theorem State.onDisp_twin (f : Disp → Disp) : (s.onDisp f).twin = s.twin := rfl
@[simp] theorem State.onDisp_rec_ (f : Disp → Disp) : (s.onDisp f).rec_ = s.rec_ := rfl
@[simp] theorem State.onDisp_life (f : Disp → Disp) : (s.onDisp f).life = s.life := rfl
@[simp] theorem State.onDisp_setup (f : Disp → Disp) : (s.onDisp f).setup = s.setup := rfl
@[simp] theorem State.onDisp_out (f : Disp → Disp) : (s.onDisp f).out = s.out := rfl
@[simp] theorem State.onDisp_free (f : Disp → Disp) : (s.onDisp f).free = s.free := rfl
@[simp] theorem State.onDisp_pending (f : Disp → Disp) : (s.onDisp f).pending = s.pending := rfl

@[simp] theorem State.onSafety_chain (f : Safety → Safety) : (s.onSafety f).chain = s.chain := rfl
@[simp] theorem State.onSafety_fabric (f : Safety → Safety) : (s.onSafety f).fabric = s.fabric := rfl
@[simp] theorem State.onSafety_time (f : Safety → Safety) : (s.onSafety f).time = s.time := rfl
@[simp] theorem State.onSafety_ring (f : Safety → Safety) : (s.onSafety f).ring = s.ring := rfl
@[simp] theorem State.onSafety_meas (f : Safety → Safety) : (s.onSafety f).meas = s.meas := rfl
@[simp] theorem State.onSafety_est (f : Safety → Safety) : (s.onSafety f).est = s.est := rfl
@[simp] theorem State.onSafety_ledger (f : Safety → Safety) : (s.onSafety f).ledger = s.ledger := rfl
@[simp] theorem State.onSafety_gate (f : Safety → Safety) : (s.onSafety f).gate = s.gate := rfl
@[simp] theorem State.onSafety_loop (f : Safety → Safety) : (s.onSafety f).loop = s.loop := rfl
@[simp] theorem State.onSafety_therm (f : Safety → Safety) : (s.onSafety f).therm = s.therm := rfl
@[simp] theorem State.onSafety_disp (f : Safety → Safety) : (s.onSafety f).disp = s.disp := rfl
@[simp] theorem State.onSafety_safety (f : Safety → Safety) : (s.onSafety f).safety = f s.safety := rfl
@[simp] theorem State.onSafety_prog (f : Safety → Safety) : (s.onSafety f).prog = s.prog := rfl
@[simp] theorem State.onSafety_host (f : Safety → Safety) : (s.onSafety f).host = s.host := rfl
@[simp] theorem State.onSafety_plant (f : Safety → Safety) : (s.onSafety f).plant = s.plant := rfl
@[simp] theorem State.onSafety_twin (f : Safety → Safety) : (s.onSafety f).twin = s.twin := rfl
@[simp] theorem State.onSafety_rec_ (f : Safety → Safety) : (s.onSafety f).rec_ = s.rec_ := rfl
@[simp] theorem State.onSafety_life (f : Safety → Safety) : (s.onSafety f).life = s.life := rfl
@[simp] theorem State.onSafety_setup (f : Safety → Safety) : (s.onSafety f).setup = s.setup := rfl
@[simp] theorem State.onSafety_out (f : Safety → Safety) : (s.onSafety f).out = s.out := rfl
@[simp] theorem State.onSafety_free (f : Safety → Safety) : (s.onSafety f).free = s.free := rfl
@[simp] theorem State.onSafety_pending (f : Safety → Safety) : (s.onSafety f).pending = s.pending := rfl

@[simp] theorem State.onTwin_chain (f : Twin → Twin) : (s.onTwin f).chain = s.chain := rfl
@[simp] theorem State.onTwin_fabric (f : Twin → Twin) : (s.onTwin f).fabric = s.fabric := rfl
@[simp] theorem State.onTwin_time (f : Twin → Twin) : (s.onTwin f).time = s.time := rfl
@[simp] theorem State.onTwin_ring (f : Twin → Twin) : (s.onTwin f).ring = s.ring := rfl
@[simp] theorem State.onTwin_meas (f : Twin → Twin) : (s.onTwin f).meas = s.meas := rfl
@[simp] theorem State.onTwin_est (f : Twin → Twin) : (s.onTwin f).est = s.est := rfl
@[simp] theorem State.onTwin_ledger (f : Twin → Twin) : (s.onTwin f).ledger = s.ledger := rfl
@[simp] theorem State.onTwin_gate (f : Twin → Twin) : (s.onTwin f).gate = s.gate := rfl
@[simp] theorem State.onTwin_loop (f : Twin → Twin) : (s.onTwin f).loop = s.loop := rfl
@[simp] theorem State.onTwin_therm (f : Twin → Twin) : (s.onTwin f).therm = s.therm := rfl
@[simp] theorem State.onTwin_disp (f : Twin → Twin) : (s.onTwin f).disp = s.disp := rfl
@[simp] theorem State.onTwin_safety (f : Twin → Twin) : (s.onTwin f).safety = s.safety := rfl
@[simp] theorem State.onTwin_prog (f : Twin → Twin) : (s.onTwin f).prog = s.prog := rfl
@[simp] theorem State.onTwin_host (f : Twin → Twin) : (s.onTwin f).host = s.host := rfl
@[simp] theorem State.onTwin_plant (f : Twin → Twin) : (s.onTwin f).plant = s.plant := rfl
@[simp] theorem State.onTwin_twin (f : Twin → Twin) : (s.onTwin f).twin = f s.twin := rfl
@[simp] theorem State.onTwin_rec_ (f : Twin → Twin) : (s.onTwin f).rec_ = s.rec_ := rfl
@[simp] theorem State.onTwin_life (f : Twin → Twin) : (s.onTwin f).life = s.life := rfl
@[simp] theorem State.onTwin_setup (f : Twin → Twin) : (s.onTwin f).setup = s.setup := rfl
@[simp] theorem State.onTwin_out (f : Twin → Twin) : (s.onTwin f).out = s.out := rfl
@[simp] theorem State.onTwin_free (f : Twin → Twin) : (s.onTwin f).free = s.free := rfl
@[simp] theorem State.onTwin_pending (f : Twin → Twin) : (s.onTwin f).pending = s.pending := rfl

@[simp] theorem State.onLife_chain (f : Life → Life) : (s.onLife f).chain = s.chain := rfl
@[simp] theorem State.onLife_fabric (f : Life → Life) : (s.onLife f).fabric = s.fabric := rfl
@[simp] theorem State.onLife_time (f : Life → Life) : (s.onLife f).time = s.time := rfl
@[simp] theorem State.onLife_ring (f : Life → Life) : (s.onLife f).ring = s.ring := rfl
@[simp] theorem State.onLife_meas (f : Life → Life) : (s.onLife f).meas = s.meas := rfl
@[simp] theorem State.onLife_est (f : Life → Life) : (s.onLife f).est = s.est := rfl
@[simp] theorem State.onLife_ledger (f : Life → Life) : (s.onLife f).ledger = s.ledger := rfl
@[simp] theorem State.onLife_gate (f : Life → Life) : (s.onLife f).gate = s.gate := rfl
@[simp] theorem State.onLife_loop (f : Life → Life) : (s.onLife f).loop = s.loop := rfl
@[simp] theorem State.onLife_therm (f : Life → Life) : (s.onLife f).therm = s.therm := rfl
@[simp] theorem State.onLife_disp (f : Life → Life) : (s.onLife f).disp = s.disp := rfl
@[simp] theorem State.onLife_safety (f : Life → Life) : (s.onLife f).safety = s.safety := rfl
@[simp] theorem State.onLife_prog (f : Life → Life) : (s.onLife f).prog = s.prog := rfl
@[simp] theorem State.onLife_host (f : Life → Life) : (s.onLife f).host = s.host := rfl
@[simp] theorem State.onLife_plant (f : Life → Life) : (s.onLife f).plant = s.plant := rfl
@[simp] theorem State.onLife_twin (f : Life → Life) : (s.onLife f).twin = s.twin := rfl
@[simp] theorem State.onLife_rec_ (f : Life → Life) : (s.onLife f).rec_ = s.rec_ := rfl
@[simp] theorem State.onLife_life (f : Life → Life) : (s.onLife f).life = f s.life := rfl
@[simp] theorem State.onLife_setup (f : Life → Life) : (s.onLife f).setup = s.setup := rfl
@[simp] theorem State.onLife_out (f : Life → Life) : (s.onLife f).out = s.out := rfl
@[simp] theorem State.onLife_free (f : Life → Life) : (s.onLife f).free = s.free := rfl
@[simp] theorem State.onLife_pending (f : Life → Life) : (s.onLife f).pending = s.pending := rfl

@[simp] theorem State.onSetup_chain (f : Setup → Setup) : (s.onSetup f).chain = s.chain := rfl
@[simp] theorem State.onSetup_fabric (f : Setup → Setup) : (s.onSetup f).fabric = s.fabric := rfl
@[simp] theorem State.onSetup_time (f : Setup → Setup) : (s.onSetup f).time = s.time := rfl
@[simp] theorem State.onSetup_ring (f : Setup → Setup) : (s.onSetup f).ring = s.ring := rfl
@[simp] theorem State.onSetup_meas (f : Setup → Setup) : (s.onSetup f).meas = s.meas := rfl
@[simp] theorem State.onSetup_est (f : Setup → Setup) : (s.onSetup f).est = s.est := rfl
@[simp] theorem State.onSetup_ledger (f : Setup → Setup) : (s.onSetup f).ledger = s.ledger := rfl
@[simp] theorem State.onSetup_gate (f : Setup → Setup) : (s.onSetup f).gate = s.gate := rfl
@[simp] theorem State.onSetup_loop (f : Setup → Setup) : (s.onSetup f).loop = s.loop := rfl
@[simp] theorem State.onSetup_therm (f : Setup → Setup) : (s.onSetup f).therm = s.therm := rfl
@[simp] theorem State.onSetup_disp (f : Setup → Setup) : (s.onSetup f).disp = s.disp := rfl
@[simp] theorem State.onSetup_safety (f : Setup → Setup) : (s.onSetup f).safety = s.safety := rfl
@[simp] theorem State.onSetup_prog (f : Setup → Setup) : (s.onSetup f).prog = s.prog := rfl
@[simp] theorem State.onSetup_host (f : Setup → Setup) : (s.onSetup f).host = s.host := rfl
@[simp] theorem State.onSetup_plant (f : Setup → Setup) : (s.onSetup f).plant = s.plant := rfl
@[simp] theorem State.onSetup_twin (f : Setup → Setup) : (s.onSetup f).twin = s.twin := rfl
@[simp] theorem State.onSetup_rec_ (f : Setup → Setup) : (s.onSetup f).rec_ = s.rec_ := rfl
@[simp] theorem State.onSetup_life (f : Setup → Setup) : (s.onSetup f).life = s.life := rfl
@[simp] theorem State.onSetup_setup (f : Setup → Setup) : (s.onSetup f).setup = f s.setup := rfl
@[simp] theorem State.onSetup_out (f : Setup → Setup) : (s.onSetup f).out = s.out := rfl
@[simp] theorem State.onSetup_free (f : Setup → Setup) : (s.onSetup f).free = s.free := rfl
@[simp] theorem State.onSetup_pending (f : Setup → Setup) : (s.onSetup f).pending = s.pending := rfl

@[simp] theorem State.onFabric_chain (f : Fabric → Fabric) : (s.onFabric f).chain = s.chain := rfl
@[simp] theorem State.onFabric_fabric (f : Fabric → Fabric) : (s.onFabric f).fabric = f s.fabric := rfl
@[simp] theorem State.onFabric_time (f : Fabric → Fabric) : (s.onFabric f).time = s.time := rfl
@[simp] theorem State.onFabric_ring (f : Fabric → Fabric) : (s.onFabric f).ring = s.ring := rfl
@[simp] theorem State.onFabric_meas (f : Fabric → Fabric) : (s.onFabric f).meas = s.meas := rfl
@[simp] theorem State.onFabric_est (f : Fabric → Fabric) : (s.onFabric f).est = s.est := rfl
@[simp] theorem State.onFabric_ledger (f : Fabric → Fabric) : (s.onFabric f).ledger = s.ledger := rfl
@[simp] theorem State.onFabric_gate (f : Fabric → Fabric) : (s.onFabric f).gate = s.gate := rfl
@[simp] theorem State.onFabric_loop (f : Fabric → Fabric) : (s.onFabric f).loop = s.loop := rfl
@[simp] theorem State.onFabric_therm (f : Fabric → Fabric) : (s.onFabric f).therm = s.therm := rfl
@[simp] theorem State.onFabric_disp (f : Fabric → Fabric) : (s.onFabric f).disp = s.disp := rfl
@[simp] theorem State.onFabric_safety (f : Fabric → Fabric) : (s.onFabric f).safety = s.safety := rfl
@[simp] theorem State.onFabric_prog (f : Fabric → Fabric) : (s.onFabric f).prog = s.prog := rfl
@[simp] theorem State.onFabric_host (f : Fabric → Fabric) : (s.onFabric f).host = s.host := rfl
@[simp] theorem State.onFabric_plant (f : Fabric → Fabric) : (s.onFabric f).plant = s.plant := rfl
@[simp] theorem State.onFabric_twin (f : Fabric → Fabric) : (s.onFabric f).twin = s.twin := rfl
@[simp] theorem State.onFabric_rec_ (f : Fabric → Fabric) : (s.onFabric f).rec_ = s.rec_ := rfl
@[simp] theorem State.onFabric_life (f : Fabric → Fabric) : (s.onFabric f).life = s.life := rfl
@[simp] theorem State.onFabric_setup (f : Fabric → Fabric) : (s.onFabric f).setup = s.setup := rfl
@[simp] theorem State.onFabric_out (f : Fabric → Fabric) : (s.onFabric f).out = s.out := rfl
@[simp] theorem State.onFabric_free (f : Fabric → Fabric) : (s.onFabric f).free = s.free := rfl
@[simp] theorem State.onFabric_pending (f : Fabric → Fabric) : (s.onFabric f).pending = s.pending := rfl

@[simp] theorem State.onHost_chain (f : HostPort → HostPort) : (s.onHost f).chain = s.chain := rfl
@[simp] theorem State.onHost_fabric (f : HostPort → HostPort) : (s.onHost f).fabric = s.fabric := rfl
@[simp] theorem State.onHost_time (f : HostPort → HostPort) : (s.onHost f).time = s.time := rfl
@[simp] theorem State.onHost_ring (f : HostPort → HostPort) : (s.onHost f).ring = s.ring := rfl
@[simp] theorem State.onHost_meas (f : HostPort → HostPort) : (s.onHost f).meas = s.meas := rfl
@[simp] theorem State.onHost_est (f : HostPort → HostPort) : (s.onHost f).est = s.est := rfl
@[simp] theorem State.onHost_ledger (f : HostPort → HostPort) : (s.onHost f).ledger = s.ledger := rfl
@[simp] theorem State.onHost_gate (f : HostPort → HostPort) : (s.onHost f).gate = s.gate := rfl
@[simp] theorem State.onHost_loop (f : HostPort → HostPort) : (s.onHost f).loop = s.loop := rfl
@[simp] theorem State.onHost_therm (f : HostPort → HostPort) : (s.onHost f).therm = s.therm := rfl
@[simp] theorem State.onHost_disp (f : HostPort → HostPort) : (s.onHost f).disp = s.disp := rfl
@[simp] theorem State.onHost_safety (f : HostPort → HostPort) : (s.onHost f).safety = s.safety := rfl
@[simp] theorem State.onHost_prog (f : HostPort → HostPort) : (s.onHost f).prog = s.prog := rfl
@[simp] theorem State.onHost_host (f : HostPort → HostPort) : (s.onHost f).host = f s.host := rfl
@[simp] theorem State.onHost_plant (f : HostPort → HostPort) : (s.onHost f).plant = s.plant := rfl
@[simp] theorem State.onHost_twin (f : HostPort → HostPort) : (s.onHost f).twin = s.twin := rfl
@[simp] theorem State.onHost_rec_ (f : HostPort → HostPort) : (s.onHost f).rec_ = s.rec_ := rfl
@[simp] theorem State.onHost_life (f : HostPort → HostPort) : (s.onHost f).life = s.life := rfl
@[simp] theorem State.onHost_setup (f : HostPort → HostPort) : (s.onHost f).setup = s.setup := rfl
@[simp] theorem State.onHost_out (f : HostPort → HostPort) : (s.onHost f).out = s.out := rfl
@[simp] theorem State.onHost_free (f : HostPort → HostPort) : (s.onHost f).free = s.free := rfl
@[simp] theorem State.onHost_pending (f : HostPort → HostPort) : (s.onHost f).pending = s.pending := rfl

@[simp] theorem State.onRing_chain (f : Ring → Ring) : (s.onRing f).chain = s.chain := rfl
@[simp] theorem State.onRing_fabric (f : Ring → Ring) : (s.onRing f).fabric = s.fabric := rfl
@[simp] theorem State.onRing_time (f : Ring → Ring) : (s.onRing f).time = s.time := rfl
@[simp] theorem State.onRing_ring (f : Ring → Ring) : (s.onRing f).ring = f s.ring := rfl
@[simp] theorem State.onRing_meas (f : Ring → Ring) : (s.onRing f).meas = s.meas := rfl
@[simp] theorem State.onRing_est (f : Ring → Ring) : (s.onRing f).est = s.est := rfl
@[simp] theorem State.onRing_ledger (f : Ring → Ring) : (s.onRing f).ledger = s.ledger := rfl
@[simp] theorem State.onRing_gate (f : Ring → Ring) : (s.onRing f).gate = s.gate := rfl
@[simp] theorem State.onRing_loop (f : Ring → Ring) : (s.onRing f).loop = s.loop := rfl
@[simp] theorem State.onRing_therm (f : Ring → Ring) : (s.onRing f).therm = s.therm := rfl
@[simp] theorem State.onRing_disp (f : Ring → Ring) : (s.onRing f).disp = s.disp := rfl
@[simp] theorem State.onRing_safety (f : Ring → Ring) : (s.onRing f).safety = s.safety := rfl
@[simp] theorem State.onRing_prog (f : Ring → Ring) : (s.onRing f).prog = s.prog := rfl
@[simp] theorem State.onRing_host (f : Ring → Ring) : (s.onRing f).host = s.host := rfl
@[simp] theorem State.onRing_plant (f : Ring → Ring) : (s.onRing f).plant = s.plant := rfl
@[simp] theorem State.onRing_twin (f : Ring → Ring) : (s.onRing f).twin = s.twin := rfl
@[simp] theorem State.onRing_rec_ (f : Ring → Ring) : (s.onRing f).rec_ = s.rec_ := rfl
@[simp] theorem State.onRing_life (f : Ring → Ring) : (s.onRing f).life = s.life := rfl
@[simp] theorem State.onRing_setup (f : Ring → Ring) : (s.onRing f).setup = s.setup := rfl
@[simp] theorem State.onRing_out (f : Ring → Ring) : (s.onRing f).out = s.out := rfl
@[simp] theorem State.onRing_free (f : Ring → Ring) : (s.onRing f).free = s.free := rfl
@[simp] theorem State.onRing_pending (f : Ring → Ring) : (s.onRing f).pending = s.pending := rfl

@[simp] theorem State.onProg_chain (f : Prog → Prog) : (s.onProg f).chain = s.chain := rfl
@[simp] theorem State.onProg_fabric (f : Prog → Prog) : (s.onProg f).fabric = s.fabric := rfl
@[simp] theorem State.onProg_time (f : Prog → Prog) : (s.onProg f).time = s.time := rfl
@[simp] theorem State.onProg_ring (f : Prog → Prog) : (s.onProg f).ring = s.ring := rfl
@[simp] theorem State.onProg_meas (f : Prog → Prog) : (s.onProg f).meas = s.meas := rfl
@[simp] theorem State.onProg_est (f : Prog → Prog) : (s.onProg f).est = s.est := rfl
@[simp] theorem State.onProg_ledger (f : Prog → Prog) : (s.onProg f).ledger = s.ledger := rfl
@[simp] theorem State.onProg_gate (f : Prog → Prog) : (s.onProg f).gate = s.gate := rfl
@[simp] theorem State.onProg_loop (f : Prog → Prog) : (s.onProg f).loop = s.loop := rfl
@[simp] theorem State.onProg_therm (f : Prog → Prog) : (s.onProg f).therm = s.therm := rfl
@[simp] theorem State.onProg_disp (f : Prog → Prog) : (s.onProg f).disp = s.disp := rfl
@[simp] theorem State.onProg_safety (f : Prog → Prog) : (s.onProg f).safety = s.safety := rfl
@[simp] theorem State.onProg_prog (f : Prog → Prog) : (s.onProg f).prog = f s.prog := rfl
@[simp] theorem State.onProg_host (f : Prog → Prog) : (s.onProg f).host = s.host := rfl
@[simp] theorem State.onProg_plant (f : Prog → Prog) : (s.onProg f).plant = s.plant := rfl
@[simp] theorem State.onProg_twin (f : Prog → Prog) : (s.onProg f).twin = s.twin := rfl
@[simp] theorem State.onProg_rec_ (f : Prog → Prog) : (s.onProg f).rec_ = s.rec_ := rfl
@[simp] theorem State.onProg_life (f : Prog → Prog) : (s.onProg f).life = s.life := rfl
@[simp] theorem State.onProg_setup (f : Prog → Prog) : (s.onProg f).setup = s.setup := rfl
@[simp] theorem State.onProg_out (f : Prog → Prog) : (s.onProg f).out = s.out := rfl
@[simp] theorem State.onProg_free (f : Prog → Prog) : (s.onProg f).free = s.free := rfl
@[simp] theorem State.onProg_pending (f : Prog → Prog) : (s.onProg f).pending = s.pending := rfl

@[simp] theorem State.onPlant_chain (f : Plant → Plant) : (s.onPlant f).chain = s.chain := rfl
@[simp] theorem State.onPlant_fabric (f : Plant → Plant) : (s.onPlant f).fabric = s.fabric := rfl
@[simp] theorem State.onPlant_time (f : Plant → Plant) : (s.onPlant f).time = s.time := rfl
@[simp] theorem State.onPlant_ring (f : Plant → Plant) : (s.onPlant f).ring = s.ring := rfl
@[simp] theorem State.onPlant_meas (f : Plant → Plant) : (s.onPlant f).meas = s.meas := rfl
@[simp] theorem State.onPlant_est (f : Plant → Plant) : (s.onPlant f).est = s.est := rfl
@[simp] theorem State.onPlant_ledger (f : Plant → Plant) : (s.onPlant f).ledger = s.ledger := rfl
@[simp] theorem State.onPlant_gate (f : Plant → Plant) : (s.onPlant f).gate = s.gate := rfl
@[simp] theorem State.onPlant_loop (f : Plant → Plant) : (s.onPlant f).loop = s.loop := rfl
@[simp] theorem State.onPlant_therm (f : Plant → Plant) : (s.onPlant f).therm = s.therm := rfl
@[simp] theorem State.onPlant_disp (f : Plant → Plant) : (s.onPlant f).disp = s.disp := rfl
@[simp] theorem State.onPlant_safety (f : Plant → Plant) : (s.onPlant f).safety = s.safety := rfl
@[simp] theorem State.onPlant_prog (f : Plant → Plant) : (s.onPlant f).prog = s.prog := rfl
@[simp] theorem State.onPlant_host (f : Plant → Plant) : (s.onPlant f).host = s.host := rfl
@[simp] theorem State.onPlant_plant (f : Plant → Plant) : (s.onPlant f).plant = f s.plant := rfl
@[simp] theorem State.onPlant_twin (f : Plant → Plant) : (s.onPlant f).twin = s.twin := rfl
@[simp] theorem State.onPlant_rec_ (f : Plant → Plant) : (s.onPlant f).rec_ = s.rec_ := rfl
@[simp] theorem State.onPlant_life (f : Plant → Plant) : (s.onPlant f).life = s.life := rfl
@[simp] theorem State.onPlant_setup (f : Plant → Plant) : (s.onPlant f).setup = s.setup := rfl
@[simp] theorem State.onPlant_out (f : Plant → Plant) : (s.onPlant f).out = s.out := rfl
@[simp] theorem State.onPlant_free (f : Plant → Plant) : (s.onPlant f).free = s.free := rfl
@[simp] theorem State.onPlant_pending (f : Plant → Plant) : (s.onPlant f).pending = s.pending := rfl

@[simp] theorem State.onLedger_chain (f : Ledger → Ledger) : (s.onLedger f).chain = s.chain := rfl
@[simp] theorem State.onLedger_fabric (f : Ledger → Ledger) : (s.onLedger f).fabric = s.fabric := rfl
@[simp] theorem State.onLedger_time (f : Ledger → Ledger) : (s.onLedger f).time = s.time := rfl
@[simp] theorem State.onLedger_ring (f : Ledger → Ledger) : (s.onLedger f).ring = s.ring := rfl
@[simp] theorem State.onLedger_meas (f : Ledger → Ledger) : (s.onLedger f).meas = s.meas := rfl
@[simp] theorem State.onLedger_est (f : Ledger → Ledger) : (s.onLedger f).est = s.est := rfl
@[simp] theorem State.onLedger_ledger (f : Ledger → Ledger) : (s.onLedger f).ledger = f s.ledger := rfl
@[simp] theorem State.onLedger_gate (f : Ledger → Ledger) : (s.onLedger f).gate = s.gate := rfl
@[simp] theorem State.onLedger_loop (f : Ledger → Ledger) : (s.onLedger f).loop = s.loop := rfl
@[simp] theorem State.onLedger_therm (f : Ledger → Ledger) : (s.onLedger f).therm = s.therm := rfl
@[simp] theorem State.onLedger_disp (f : Ledger → Ledger) : (s.onLedger f).disp = s.disp := rfl
@[simp] theorem State.onLedger_safety (f : Ledger → Ledger) : (s.onLedger f).safety = s.safety := rfl
@[simp] theorem State.onLedger_prog (f : Ledger → Ledger) : (s.onLedger f).prog = s.prog := rfl
@[simp] theorem State.onLedger_host (f : Ledger → Ledger) : (s.onLedger f).host = s.host := rfl
@[simp] theorem State.onLedger_plant (f : Ledger → Ledger) : (s.onLedger f).plant = s.plant := rfl
@[simp] theorem State.onLedger_twin (f : Ledger → Ledger) : (s.onLedger f).twin = s.twin := rfl
@[simp] theorem State.onLedger_rec_ (f : Ledger → Ledger) : (s.onLedger f).rec_ = s.rec_ := rfl
@[simp] theorem State.onLedger_life (f : Ledger → Ledger) : (s.onLedger f).life = s.life := rfl
@[simp] theorem State.onLedger_setup (f : Ledger → Ledger) : (s.onLedger f).setup = s.setup := rfl
@[simp] theorem State.onLedger_out (f : Ledger → Ledger) : (s.onLedger f).out = s.out := rfl
@[simp] theorem State.onLedger_free (f : Ledger → Ledger) : (s.onLedger f).free = s.free := rfl
@[simp] theorem State.onLedger_pending (f : Ledger → Ledger) : (s.onLedger f).pending = s.pending := rfl

@[simp] theorem State.onTime_chain (f : TimeBase → TimeBase) : (s.onTime f).chain = s.chain := rfl
@[simp] theorem State.onTime_fabric (f : TimeBase → TimeBase) : (s.onTime f).fabric = s.fabric := rfl
@[simp] theorem State.onTime_time (f : TimeBase → TimeBase) : (s.onTime f).time = f s.time := rfl
@[simp] theorem State.onTime_ring (f : TimeBase → TimeBase) : (s.onTime f).ring = s.ring := rfl
@[simp] theorem State.onTime_meas (f : TimeBase → TimeBase) : (s.onTime f).meas = s.meas := rfl
@[simp] theorem State.onTime_est (f : TimeBase → TimeBase) : (s.onTime f).est = s.est := rfl
@[simp] theorem State.onTime_ledger (f : TimeBase → TimeBase) : (s.onTime f).ledger = s.ledger := rfl
@[simp] theorem State.onTime_gate (f : TimeBase → TimeBase) : (s.onTime f).gate = s.gate := rfl
@[simp] theorem State.onTime_loop (f : TimeBase → TimeBase) : (s.onTime f).loop = s.loop := rfl
@[simp] theorem State.onTime_therm (f : TimeBase → TimeBase) : (s.onTime f).therm = s.therm := rfl
@[simp] theorem State.onTime_disp (f : TimeBase → TimeBase) : (s.onTime f).disp = s.disp := rfl
@[simp] theorem State.onTime_safety (f : TimeBase → TimeBase) : (s.onTime f).safety = s.safety := rfl
@[simp] theorem State.onTime_prog (f : TimeBase → TimeBase) : (s.onTime f).prog = s.prog := rfl
@[simp] theorem State.onTime_host (f : TimeBase → TimeBase) : (s.onTime f).host = s.host := rfl
@[simp] theorem State.onTime_plant (f : TimeBase → TimeBase) : (s.onTime f).plant = s.plant := rfl
@[simp] theorem State.onTime_twin (f : TimeBase → TimeBase) : (s.onTime f).twin = s.twin := rfl
@[simp] theorem State.onTime_rec_ (f : TimeBase → TimeBase) : (s.onTime f).rec_ = s.rec_ := rfl
@[simp] theorem State.onTime_life (f : TimeBase → TimeBase) : (s.onTime f).life = s.life := rfl
@[simp] theorem State.onTime_setup (f : TimeBase → TimeBase) : (s.onTime f).setup = s.setup := rfl
@[simp] theorem State.onTime_out (f : TimeBase → TimeBase) : (s.onTime f).out = s.out := rfl
@[simp] theorem State.onTime_free (f : TimeBase → TimeBase) : (s.onTime f).free = s.free := rfl
@[simp] theorem State.onTime_pending (f : TimeBase → TimeBase) : (s.onTime f).pending = s.pending := rfl

@[simp] theorem State.emit_chain (o : Out) : (s.emit o).chain = s.chain := rfl
@[simp] theorem State.emit_fabric (o : Out) : (s.emit o).fabric = s.fabric := rfl
@[simp] theorem State.emit_time (o : Out) : (s.emit o).time = s.time := rfl
@[simp] theorem State.emit_ring (o : Out) : (s.emit o).ring = s.ring := rfl
@[simp] theorem State.emit_meas (o : Out) : (s.emit o).meas = s.meas := rfl
@[simp] theorem State.emit_est (o : Out) : (s.emit o).est = s.est := rfl
@[simp] theorem State.emit_ledger (o : Out) : (s.emit o).ledger = s.ledger := rfl
@[simp] theorem State.emit_gate (o : Out) : (s.emit o).gate = s.gate := rfl
@[simp] theorem State.emit_loop (o : Out) : (s.emit o).loop = s.loop := rfl
@[simp] theorem State.emit_therm (o : Out) : (s.emit o).therm = s.therm := rfl
@[simp] theorem State.emit_disp (o : Out) : (s.emit o).disp = s.disp := rfl
@[simp] theorem State.emit_safety (o : Out) : (s.emit o).safety = s.safety := rfl
@[simp] theorem State.emit_prog (o : Out) : (s.emit o).prog = s.prog := rfl
@[simp] theorem State.emit_host (o : Out) : (s.emit o).host = s.host := rfl
@[simp] theorem State.emit_plant (o : Out) : (s.emit o).plant = s.plant := rfl
@[simp] theorem State.emit_twin (o : Out) : (s.emit o).twin = s.twin := rfl
@[simp] theorem State.emit_rec_ (o : Out) : (s.emit o).rec_ = s.rec_ := rfl
@[simp] theorem State.emit_life (o : Out) : (s.emit o).life = s.life := rfl
@[simp] theorem State.emit_setup (o : Out) : (s.emit o).setup = s.setup := rfl
@[simp] theorem State.emit_out (o : Out) : (s.emit o).out = o :: s.out := rfl
@[simp] theorem State.emit_free (o : Out) : (s.emit o).free = s.free := rfl
@[simp] theorem State.emit_pending (o : Out) : (s.emit o).pending = s.pending := rfl

@[simp] theorem State.raise_chain (e : EvDef) (a : List Int) : (s.raise e a).chain = s.chain := rfl
@[simp] theorem State.raise_fabric (e : EvDef) (a : List Int) : (s.raise e a).fabric = s.fabric := rfl
@[simp] theorem State.raise_time (e : EvDef) (a : List Int) : (s.raise e a).time = s.time := rfl
@[simp] theorem State.raise_ring (e : EvDef) (a : List Int) : (s.raise e a).ring = s.ring := rfl
@[simp] theorem State.raise_meas (e : EvDef) (a : List Int) : (s.raise e a).meas = s.meas := rfl
@[simp] theorem State.raise_est (e : EvDef) (a : List Int) : (s.raise e a).est = s.est := rfl
@[simp] theorem State.raise_ledger (e : EvDef) (a : List Int) : (s.raise e a).ledger = s.ledger := rfl
@[simp] theorem State.raise_gate (e : EvDef) (a : List Int) : (s.raise e a).gate = s.gate := rfl
@[simp] theorem State.raise_loop (e : EvDef) (a : List Int) : (s.raise e a).loop = s.loop := rfl
@[simp] theorem State.raise_therm (e : EvDef) (a : List Int) : (s.raise e a).therm = s.therm := rfl
@[simp] theorem State.raise_disp (e : EvDef) (a : List Int) : (s.raise e a).disp = s.disp := rfl
@[simp] theorem State.raise_safety (e : EvDef) (a : List Int) : (s.raise e a).safety = s.safety := rfl
@[simp] theorem State.raise_prog (e : EvDef) (a : List Int) : (s.raise e a).prog = s.prog := rfl
@[simp] theorem State.raise_host (e : EvDef) (a : List Int) : (s.raise e a).host = s.host := rfl
@[simp] theorem State.raise_plant (e : EvDef) (a : List Int) : (s.raise e a).plant = s.plant := rfl
@[simp] theorem State.raise_twin (e : EvDef) (a : List Int) : (s.raise e a).twin = s.twin := rfl
@[simp] theorem State.raise_detected (e : EvDef) (a : List Int) :
    (s.raise e a).rec_.detected = s.rec_.detected ++ [⟨eventOf s.sysNs, e.code, e.sev, a⟩] := rfl
@[simp] theorem State.raise_life (e : EvDef) (a : List Int) : (s.raise e a).life = s.life := rfl
@[simp] theorem State.raise_setup (e : EvDef) (a : List Int) : (s.raise e a).setup = s.setup := rfl
@[simp] theorem State.raise_out (e : EvDef) (a : List Int) : (s.raise e a).out = s.out := rfl
@[simp] theorem State.raise_free (e : EvDef) (a : List Int) : (s.raise e a).free = s.free := rfl
@[simp] theorem State.raise_pending (e : EvDef) (a : List Int) : (s.raise e a).pending = s.pending := rfl

@[simp] theorem State.setQueue_chain (q : Nat) (f : Queue → Queue) : (s.setQueue q f).chain = s.chain := rfl
@[simp] theorem State.setQueue_fabric (q : Nat) (f : Queue → Queue) : (s.setQueue q f).fabric = s.fabric := rfl
@[simp] theorem State.setQueue_time (q : Nat) (f : Queue → Queue) : (s.setQueue q f).time = s.time := rfl
@[simp] theorem State.setQueue_ring (q : Nat) (f : Queue → Queue) : (s.setQueue q f).ring = s.ring := rfl
@[simp] theorem State.setQueue_meas (q : Nat) (f : Queue → Queue) : (s.setQueue q f).meas = s.meas := rfl
@[simp] theorem State.setQueue_est (q : Nat) (f : Queue → Queue) : (s.setQueue q f).est = s.est := rfl
@[simp] theorem State.setQueue_ledger (q : Nat) (f : Queue → Queue) : (s.setQueue q f).ledger = s.ledger := rfl
@[simp] theorem State.setQueue_gate (q : Nat) (f : Queue → Queue) : (s.setQueue q f).gate = s.gate := rfl
@[simp] theorem State.setQueue_loop (q : Nat) (f : Queue → Queue) : (s.setQueue q f).loop = s.loop := rfl
@[simp] theorem State.setQueue_therm (q : Nat) (f : Queue → Queue) : (s.setQueue q f).therm = s.therm := rfl
@[simp] theorem State.setQueue_disp (q : Nat) (f : Queue → Queue) : (s.setQueue q f).disp = s.disp := rfl
@[simp] theorem State.setQueue_safety (q : Nat) (f : Queue → Queue) : (s.setQueue q f).safety = s.safety := rfl
@[simp] theorem State.setQueue_prog (q : Nat) (f : Queue → Queue) : (s.setQueue q f).prog = s.prog := rfl
@[simp] theorem State.setQueue_plant (q : Nat) (f : Queue → Queue) : (s.setQueue q f).plant = s.plant := rfl
@[simp] theorem State.setQueue_twin (q : Nat) (f : Queue → Queue) : (s.setQueue q f).twin = s.twin := rfl
@[simp] theorem State.setQueue_rec_ (q : Nat) (f : Queue → Queue) : (s.setQueue q f).rec_ = s.rec_ := rfl
@[simp] theorem State.setQueue_life (q : Nat) (f : Queue → Queue) : (s.setQueue q f).life = s.life := rfl
@[simp] theorem State.setQueue_setup (q : Nat) (f : Queue → Queue) : (s.setQueue q f).setup = s.setup := rfl
@[simp] theorem State.setQueue_out (q : Nat) (f : Queue → Queue) : (s.setQueue q f).out = s.out := rfl
@[simp] theorem State.setQueue_free (q : Nat) (f : Queue → Queue) : (s.setQueue q f).free = s.free := rfl
@[simp] theorem State.setQueue_pending (q : Nat) (f : Queue → Queue) : (s.setQueue q f).pending = s.pending := rfl

@[simp] theorem State.onEngine_chain (e : Nat) (f : Engine → Engine) : (s.onEngine e f).chain = s.chain := rfl
@[simp] theorem State.onEngine_time (e : Nat) (f : Engine → Engine) : (s.onEngine e f).time = s.time := rfl
@[simp] theorem State.onEngine_ring (e : Nat) (f : Engine → Engine) : (s.onEngine e f).ring = s.ring := rfl
@[simp] theorem State.onEngine_meas (e : Nat) (f : Engine → Engine) : (s.onEngine e f).meas = s.meas := rfl
@[simp] theorem State.onEngine_est (e : Nat) (f : Engine → Engine) : (s.onEngine e f).est = s.est := rfl
@[simp] theorem State.onEngine_ledger (e : Nat) (f : Engine → Engine) : (s.onEngine e f).ledger = s.ledger := rfl
@[simp] theorem State.onEngine_gate (e : Nat) (f : Engine → Engine) : (s.onEngine e f).gate = s.gate := rfl
@[simp] theorem State.onEngine_loop (e : Nat) (f : Engine → Engine) : (s.onEngine e f).loop = s.loop := rfl
@[simp] theorem State.onEngine_therm (e : Nat) (f : Engine → Engine) : (s.onEngine e f).therm = s.therm := rfl
@[simp] theorem State.onEngine_disp (e : Nat) (f : Engine → Engine) : (s.onEngine e f).disp = s.disp := rfl
@[simp] theorem State.onEngine_safety (e : Nat) (f : Engine → Engine) : (s.onEngine e f).safety = s.safety := rfl
@[simp] theorem State.onEngine_prog (e : Nat) (f : Engine → Engine) : (s.onEngine e f).prog = s.prog := rfl
@[simp] theorem State.onEngine_host (e : Nat) (f : Engine → Engine) : (s.onEngine e f).host = s.host := rfl
@[simp] theorem State.onEngine_plant (e : Nat) (f : Engine → Engine) : (s.onEngine e f).plant = s.plant := rfl
@[simp] theorem State.onEngine_twin (e : Nat) (f : Engine → Engine) : (s.onEngine e f).twin = s.twin := rfl
@[simp] theorem State.onEngine_rec_ (e : Nat) (f : Engine → Engine) : (s.onEngine e f).rec_ = s.rec_ := rfl
@[simp] theorem State.onEngine_life (e : Nat) (f : Engine → Engine) : (s.onEngine e f).life = s.life := rfl
@[simp] theorem State.onEngine_setup (e : Nat) (f : Engine → Engine) : (s.onEngine e f).setup = s.setup := rfl
@[simp] theorem State.onEngine_out (e : Nat) (f : Engine → Engine) : (s.onEngine e f).out = s.out := rfl
@[simp] theorem State.onEngine_free (e : Nat) (f : Engine → Engine) : (s.onEngine e f).free = s.free := rfl
@[simp] theorem State.onEngine_pending (e : Nat) (f : Engine → Engine) : (s.onEngine e f).pending = s.pending := rfl

@[simp] theorem State.onStation_chain (k : Nat) (f : Station → Station) : (s.onStation k f).chain = s.chain := rfl
@[simp] theorem State.onStation_fabric (k : Nat) (f : Station → Station) : (s.onStation k f).fabric = s.fabric := rfl
@[simp] theorem State.onStation_time (k : Nat) (f : Station → Station) : (s.onStation k f).time = s.time := rfl
@[simp] theorem State.onStation_meas (k : Nat) (f : Station → Station) : (s.onStation k f).meas = s.meas := rfl
@[simp] theorem State.onStation_est (k : Nat) (f : Station → Station) : (s.onStation k f).est = s.est := rfl
@[simp] theorem State.onStation_ledger (k : Nat) (f : Station → Station) : (s.onStation k f).ledger = s.ledger := rfl
@[simp] theorem State.onStation_gate (k : Nat) (f : Station → Station) : (s.onStation k f).gate = s.gate := rfl
@[simp] theorem State.onStation_loop (k : Nat) (f : Station → Station) : (s.onStation k f).loop = s.loop := rfl
@[simp] theorem State.onStation_therm (k : Nat) (f : Station → Station) : (s.onStation k f).therm = s.therm := rfl
@[simp] theorem State.onStation_disp (k : Nat) (f : Station → Station) : (s.onStation k f).disp = s.disp := rfl
@[simp] theorem State.onStation_safety (k : Nat) (f : Station → Station) : (s.onStation k f).safety = s.safety := rfl
@[simp] theorem State.onStation_prog (k : Nat) (f : Station → Station) : (s.onStation k f).prog = s.prog := rfl
@[simp] theorem State.onStation_host (k : Nat) (f : Station → Station) : (s.onStation k f).host = s.host := rfl
@[simp] theorem State.onStation_plant (k : Nat) (f : Station → Station) : (s.onStation k f).plant = s.plant := rfl
@[simp] theorem State.onStation_twin (k : Nat) (f : Station → Station) : (s.onStation k f).twin = s.twin := rfl
@[simp] theorem State.onStation_rec_ (k : Nat) (f : Station → Station) : (s.onStation k f).rec_ = s.rec_ := rfl
@[simp] theorem State.onStation_life (k : Nat) (f : Station → Station) : (s.onStation k f).life = s.life := rfl
@[simp] theorem State.onStation_setup (k : Nat) (f : Station → Station) : (s.onStation k f).setup = s.setup := rfl
@[simp] theorem State.onStation_out (k : Nat) (f : Station → Station) : (s.onStation k f).out = s.out := rfl
@[simp] theorem State.onStation_free (k : Nat) (f : Station → Station) : (s.onStation k f).free = s.free := rfl
@[simp] theorem State.onStation_pending (k : Nat) (f : Station → Station) : (s.onStation k f).pending = s.pending := rfl

@[simp] theorem State.onCell_chain (c : Nat) (f : Cell → Cell) : (s.onCell c f).chain = s.chain := rfl
@[simp] theorem State.onCell_fabric (c : Nat) (f : Cell → Cell) : (s.onCell c f).fabric = s.fabric := rfl
@[simp] theorem State.onCell_time (c : Nat) (f : Cell → Cell) : (s.onCell c f).time = s.time := rfl
@[simp] theorem State.onCell_ring (c : Nat) (f : Cell → Cell) : (s.onCell c f).ring = s.ring := rfl
@[simp] theorem State.onCell_est (c : Nat) (f : Cell → Cell) : (s.onCell c f).est = s.est := rfl
@[simp] theorem State.onCell_ledger (c : Nat) (f : Cell → Cell) : (s.onCell c f).ledger = s.ledger := rfl
@[simp] theorem State.onCell_gate (c : Nat) (f : Cell → Cell) : (s.onCell c f).gate = s.gate := rfl
@[simp] theorem State.onCell_loop (c : Nat) (f : Cell → Cell) : (s.onCell c f).loop = s.loop := rfl
@[simp] theorem State.onCell_therm (c : Nat) (f : Cell → Cell) : (s.onCell c f).therm = s.therm := rfl
@[simp] theorem State.onCell_disp (c : Nat) (f : Cell → Cell) : (s.onCell c f).disp = s.disp := rfl
@[simp] theorem State.onCell_safety (c : Nat) (f : Cell → Cell) : (s.onCell c f).safety = s.safety := rfl
@[simp] theorem State.onCell_prog (c : Nat) (f : Cell → Cell) : (s.onCell c f).prog = s.prog := rfl
@[simp] theorem State.onCell_host (c : Nat) (f : Cell → Cell) : (s.onCell c f).host = s.host := rfl
@[simp] theorem State.onCell_plant (c : Nat) (f : Cell → Cell) : (s.onCell c f).plant = s.plant := rfl
@[simp] theorem State.onCell_twin (c : Nat) (f : Cell → Cell) : (s.onCell c f).twin = s.twin := rfl
@[simp] theorem State.onCell_rec_ (c : Nat) (f : Cell → Cell) : (s.onCell c f).rec_ = s.rec_ := rfl
@[simp] theorem State.onCell_life (c : Nat) (f : Cell → Cell) : (s.onCell c f).life = s.life := rfl
@[simp] theorem State.onCell_setup (c : Nat) (f : Cell → Cell) : (s.onCell c f).setup = s.setup := rfl
@[simp] theorem State.onCell_out (c : Nat) (f : Cell → Cell) : (s.onCell c f).out = s.out := rfl
@[simp] theorem State.onCell_free (c : Nat) (f : Cell → Cell) : (s.onCell c f).free = s.free := rfl
@[simp] theorem State.onCell_pending (c : Nat) (f : Cell → Cell) : (s.onCell c f).pending = s.pending := rfl

@[simp] theorem State.onEng_chain (e : Nat) (f : CycEng → CycEng) : (s.onEng e f).chain = s.chain := rfl
@[simp] theorem State.onEng_fabric (e : Nat) (f : CycEng → CycEng) : (s.onEng e f).fabric = s.fabric := rfl
@[simp] theorem State.onEng_time (e : Nat) (f : CycEng → CycEng) : (s.onEng e f).time = s.time := rfl
@[simp] theorem State.onEng_ring (e : Nat) (f : CycEng → CycEng) : (s.onEng e f).ring = s.ring := rfl
@[simp] theorem State.onEng_meas (e : Nat) (f : CycEng → CycEng) : (s.onEng e f).meas = s.meas := rfl
@[simp] theorem State.onEng_est (e : Nat) (f : CycEng → CycEng) : (s.onEng e f).est = s.est := rfl
@[simp] theorem State.onEng_ledger (e : Nat) (f : CycEng → CycEng) : (s.onEng e f).ledger = s.ledger := rfl
@[simp] theorem State.onEng_gate (e : Nat) (f : CycEng → CycEng) : (s.onEng e f).gate = s.gate := rfl
@[simp] theorem State.onEng_loop (e : Nat) (f : CycEng → CycEng) : (s.onEng e f).loop = s.loop := rfl
@[simp] theorem State.onEng_therm (e : Nat) (f : CycEng → CycEng) : (s.onEng e f).therm = s.therm := rfl
@[simp] theorem State.onEng_disp (e : Nat) (f : CycEng → CycEng) : (s.onEng e f).disp = s.disp := rfl
@[simp] theorem State.onEng_safety (e : Nat) (f : CycEng → CycEng) : (s.onEng e f).safety = s.safety := rfl
@[simp] theorem State.onEng_host (e : Nat) (f : CycEng → CycEng) : (s.onEng e f).host = s.host := rfl
@[simp] theorem State.onEng_plant (e : Nat) (f : CycEng → CycEng) : (s.onEng e f).plant = s.plant := rfl
@[simp] theorem State.onEng_twin (e : Nat) (f : CycEng → CycEng) : (s.onEng e f).twin = s.twin := rfl
@[simp] theorem State.onEng_rec_ (e : Nat) (f : CycEng → CycEng) : (s.onEng e f).rec_ = s.rec_ := rfl
@[simp] theorem State.onEng_life (e : Nat) (f : CycEng → CycEng) : (s.onEng e f).life = s.life := rfl
@[simp] theorem State.onEng_setup (e : Nat) (f : CycEng → CycEng) : (s.onEng e f).setup = s.setup := rfl
@[simp] theorem State.onEng_out (e : Nat) (f : CycEng → CycEng) : (s.onEng e f).out = s.out := rfl
@[simp] theorem State.onEng_free (e : Nat) (f : CycEng → CycEng) : (s.onEng e f).free = s.free := rfl
@[simp] theorem State.onEng_pending (e : Nat) (f : CycEng → CycEng) : (s.onEng e f).pending = s.pending := rfl

@[simp] theorem State.onEth_chain (e : Nat) (f : EthPort → EthPort) : (s.onEth e f).chain = s.chain := rfl
@[simp] theorem State.onEth_fabric (e : Nat) (f : EthPort → EthPort) : (s.onEth e f).fabric = s.fabric := rfl
@[simp] theorem State.onEth_time (e : Nat) (f : EthPort → EthPort) : (s.onEth e f).time = s.time := rfl
@[simp] theorem State.onEth_ring (e : Nat) (f : EthPort → EthPort) : (s.onEth e f).ring = s.ring := rfl
@[simp] theorem State.onEth_meas (e : Nat) (f : EthPort → EthPort) : (s.onEth e f).meas = s.meas := rfl
@[simp] theorem State.onEth_est (e : Nat) (f : EthPort → EthPort) : (s.onEth e f).est = s.est := rfl
@[simp] theorem State.onEth_ledger (e : Nat) (f : EthPort → EthPort) : (s.onEth e f).ledger = s.ledger := rfl
@[simp] theorem State.onEth_gate (e : Nat) (f : EthPort → EthPort) : (s.onEth e f).gate = s.gate := rfl
@[simp] theorem State.onEth_loop (e : Nat) (f : EthPort → EthPort) : (s.onEth e f).loop = s.loop := rfl
@[simp] theorem State.onEth_therm (e : Nat) (f : EthPort → EthPort) : (s.onEth e f).therm = s.therm := rfl
@[simp] theorem State.onEth_disp (e : Nat) (f : EthPort → EthPort) : (s.onEth e f).disp = s.disp := rfl
@[simp] theorem State.onEth_safety (e : Nat) (f : EthPort → EthPort) : (s.onEth e f).safety = s.safety := rfl
@[simp] theorem State.onEth_prog (e : Nat) (f : EthPort → EthPort) : (s.onEth e f).prog = s.prog := rfl
@[simp] theorem State.onEth_host (e : Nat) (f : EthPort → EthPort) : (s.onEth e f).host = s.host := rfl
@[simp] theorem State.onEth_twin (e : Nat) (f : EthPort → EthPort) : (s.onEth e f).twin = s.twin := rfl
@[simp] theorem State.onEth_rec_ (e : Nat) (f : EthPort → EthPort) : (s.onEth e f).rec_ = s.rec_ := rfl
@[simp] theorem State.onEth_life (e : Nat) (f : EthPort → EthPort) : (s.onEth e f).life = s.life := rfl
@[simp] theorem State.onEth_setup (e : Nat) (f : EthPort → EthPort) : (s.onEth e f).setup = s.setup := rfl
@[simp] theorem State.onEth_out (e : Nat) (f : EthPort → EthPort) : (s.onEth e f).out = s.out := rfl
@[simp] theorem State.onEth_free (e : Nat) (f : EthPort → EthPort) : (s.onEth e f).free = s.free := rfl
@[simp] theorem State.onEth_pending (e : Nat) (f : EthPort → EthPort) : (s.onEth e f).pending = s.pending := rfl

@[simp] theorem State.setCounter_chain (d : Int) : (s.setCounter d).chain = s.chain := rfl
@[simp] theorem State.setCounter_fabric (d : Int) : (s.setCounter d).fabric = s.fabric := rfl
@[simp] theorem State.setCounter_meas (d : Int) : (s.setCounter d).meas = s.meas := rfl
@[simp] theorem State.setCounter_est (d : Int) : (s.setCounter d).est = s.est := rfl
@[simp] theorem State.setCounter_gate (d : Int) : (s.setCounter d).gate = s.gate := rfl
@[simp] theorem State.setCounter_loop (d : Int) : (s.setCounter d).loop = s.loop := rfl
@[simp] theorem State.setCounter_therm (d : Int) : (s.setCounter d).therm = s.therm := rfl
@[simp] theorem State.setCounter_disp (d : Int) : (s.setCounter d).disp = s.disp := rfl
@[simp] theorem State.setCounter_safety (d : Int) : (s.setCounter d).safety = s.safety := rfl
@[simp] theorem State.setCounter_prog (d : Int) : (s.setCounter d).prog = s.prog := rfl
@[simp] theorem State.setCounter_host (d : Int) : (s.setCounter d).host = s.host := rfl
@[simp] theorem State.setCounter_plant (d : Int) : (s.setCounter d).plant = s.plant := rfl
@[simp] theorem State.setCounter_rec_ (d : Int) : (s.setCounter d).rec_ = s.rec_ := rfl
@[simp] theorem State.setCounter_setup (d : Int) : (s.setCounter d).setup = s.setup := rfl
@[simp] theorem State.setCounter_out (d : Int) : (s.setCounter d).out = s.out := rfl
@[simp] theorem State.setCounter_free (d : Int) : (s.setCounter d).free = s.free := rfl
@[simp] theorem State.setCounter_pending (d : Int) : (s.setCounter d).pending = s.pending := rfl

@[simp] theorem State.advance_chain (n : Nat) : (s.advance n).chain = s.chain := by unfold State.advance; split <;> rfl
@[simp] theorem State.advance_fabric (n : Nat) : (s.advance n).fabric = s.fabric := by unfold State.advance; split <;> rfl
@[simp] theorem State.advance_ring (n : Nat) : (s.advance n).ring = s.ring := by unfold State.advance; split <;> rfl
@[simp] theorem State.advance_meas (n : Nat) : (s.advance n).meas = s.meas := by unfold State.advance; split <;> rfl
@[simp] theorem State.advance_est (n : Nat) : (s.advance n).est = s.est := by unfold State.advance; split <;> rfl
@[simp] theorem State.advance_ledger (n : Nat) : (s.advance n).ledger = s.ledger := by unfold State.advance; split <;> rfl
@[simp] theorem State.advance_gate (n : Nat) : (s.advance n).gate = s.gate := by unfold State.advance; split <;> rfl
@[simp] theorem State.advance_loop (n : Nat) : (s.advance n).loop = s.loop := by unfold State.advance; split <;> rfl
@[simp] theorem State.advance_therm (n : Nat) : (s.advance n).therm = s.therm := by unfold State.advance; split <;> rfl
@[simp] theorem State.advance_disp (n : Nat) : (s.advance n).disp = s.disp := by unfold State.advance; split <;> rfl
@[simp] theorem State.advance_safety (n : Nat) : (s.advance n).safety = s.safety := by unfold State.advance; split <;> rfl
@[simp] theorem State.advance_prog (n : Nat) : (s.advance n).prog = s.prog := by unfold State.advance; split <;> rfl
@[simp] theorem State.advance_host (n : Nat) : (s.advance n).host = s.host := by unfold State.advance; split <;> rfl
@[simp] theorem State.advance_plant (n : Nat) : (s.advance n).plant = s.plant := by unfold State.advance; split <;> rfl
@[simp] theorem State.advance_twin (n : Nat) : (s.advance n).twin = s.twin := by unfold State.advance; split <;> rfl
@[simp] theorem State.advance_rec_ (n : Nat) : (s.advance n).rec_ = s.rec_ := by unfold State.advance; split <;> rfl
@[simp] theorem State.advance_life (n : Nat) : (s.advance n).life = s.life := by unfold State.advance; split <;> rfl
@[simp] theorem State.advance_setup (n : Nat) : (s.advance n).setup = s.setup := by unfold State.advance; split <;> rfl
@[simp] theorem State.advance_out (n : Nat) : (s.advance n).out = s.out := by unfold State.advance; split <;> rfl
@[simp] theorem State.advance_free (n : Nat) : (s.advance n).free = s.free := by unfold State.advance; split <;> rfl
@[simp] theorem State.advance_pending (n : Nat) : (s.advance n).pending = s.pending := by unfold State.advance; split <;> rfl

@[simp] theorem State.periodic_chain (i p : Nat) : (s.periodic i p).chain = s.chain := by simp [State.periodic]
@[simp] theorem State.periodic_fabric (i p : Nat) : (s.periodic i p).fabric = s.fabric := by simp [State.periodic]
@[simp] theorem State.periodic_ring (i p : Nat) : (s.periodic i p).ring = s.ring := by simp [State.periodic]
@[simp] theorem State.periodic_meas (i p : Nat) : (s.periodic i p).meas = s.meas := by simp [State.periodic]
@[simp] theorem State.periodic_est (i p : Nat) : (s.periodic i p).est = s.est := by simp [State.periodic]
@[simp] theorem State.periodic_ledger (i p : Nat) : (s.periodic i p).ledger = s.ledger := by simp [State.periodic]
@[simp] theorem State.periodic_gate (i p : Nat) : (s.periodic i p).gate = s.gate := by simp [State.periodic]
@[simp] theorem State.periodic_loop (i p : Nat) : (s.periodic i p).loop = s.loop := by simp [State.periodic]
@[simp] theorem State.periodic_therm (i p : Nat) : (s.periodic i p).therm = s.therm := by simp [State.periodic]
@[simp] theorem State.periodic_disp (i p : Nat) : (s.periodic i p).disp = s.disp := by simp [State.periodic]
@[simp] theorem State.periodic_safety (i p : Nat) : (s.periodic i p).safety = s.safety := by simp [State.periodic]
@[simp] theorem State.periodic_prog (i p : Nat) : (s.periodic i p).prog = s.prog := by simp [State.periodic]
@[simp] theorem State.periodic_host (i p : Nat) : (s.periodic i p).host = s.host := by simp [State.periodic]
@[simp] theorem State.periodic_plant (i p : Nat) : (s.periodic i p).plant = s.plant := by simp [State.periodic]
@[simp] theorem State.periodic_twin (i p : Nat) : (s.periodic i p).twin = s.twin := by simp [State.periodic]
@[simp] theorem State.periodic_rec_ (i p : Nat) : (s.periodic i p).rec_ = s.rec_ := by simp [State.periodic]
@[simp] theorem State.periodic_life (i p : Nat) : (s.periodic i p).life = s.life := by simp [State.periodic]
@[simp] theorem State.periodic_setup (i p : Nat) : (s.periodic i p).setup = s.setup := by simp [State.periodic]
@[simp] theorem State.periodic_out (i p : Nat) : (s.periodic i p).out = s.out := by simp [State.periodic]
@[simp] theorem State.periodic_free (i p : Nat) : (s.periodic i p).free = s.free := by simp [State.periodic]
@[simp] theorem State.periodic_pending (i p : Nat) : (s.periodic i p).pending = s.pending := by simp [State.periodic]

/-- What a fold of outputs sends, newest first; nothing else changes. -/
theorem State.emitAll_eq (l : List Out) : s.emitAll l = { s with out := l.reverse ++ s.out } := by
  induction l generalizing s with
  | nil => rfl
  | cons x l ih => simp only [State.emitAll, List.foldl_cons] at ih ⊢; rw [ih]; simp [State.emit]

/-! The instant and the system time are the time base's. -/
theorem State.now_of_time {t : State} (h : t.time = s.time) : t.now = s.now := by simp [State.now, h]
theorem State.sysNs_of_time {t : State} (h : t.time = s.time) : t.sysNs = s.sysNs := by simp [State.sysNs, State.now, h]

@[simp] theorem State.raise_now (e : EvDef) (a : List Int) : (s.raise e a).now = s.now := rfl
@[simp] theorem State.raise_sysNs (e : EvDef) (a : List Int) : (s.raise e a).sysNs = s.sysNs := rfl
@[simp] theorem State.emit_now (o : Out) : (s.emit o).now = s.now := rfl
@[simp] theorem State.emit_sysNs (o : Out) : (s.emit o).sysNs = s.sysNs := rfl

@[simp] theorem State.onMeas_now (f : Meas → Meas) : (s.onMeas f).now = s.now := rfl
@[simp] theorem State.onMeas_sysNs (f : Meas → Meas) : (s.onMeas f).sysNs = s.sysNs := rfl
@[simp] theorem State.onEst_now (f : Est → Est) : (s.onEst f).now = s.now := rfl
@[simp] theorem State.onEst_sysNs (f : Est → Est) : (s.onEst f).sysNs = s.sysNs := rfl
@[simp] theorem State.onGate_now (f : Gate → Gate) : (s.onGate f).now = s.now := rfl
@[simp] theorem State.onGate_sysNs (f : Gate → Gate) : (s.onGate f).sysNs = s.sysNs := rfl
@[simp] theorem State.onLoop_now (f : Loop → Loop) : (s.onLoop f).now = s.now := rfl
@[simp] theorem State.onLoop_sysNs (f : Loop → Loop) : (s.onLoop f).sysNs = s.sysNs := rfl
@[simp] theorem State.onTherm_now (f : Therm → Therm) : (s.onTherm f).now = s.now := rfl
@[simp] theorem State.onTherm_sysNs (f : Therm → Therm) : (s.onTherm f).sysNs = s.sysNs := rfl
@[simp] theorem State.onDisp_now (f : Disp → Disp) : (s.onDisp f).now = s.now := rfl
@[simp] theorem State.onDisp_sysNs (f : Disp → Disp) : (s.onDisp f).sysNs = s.sysNs := rfl
@[simp] theorem State.onSafety_now (f : Safety → Safety) : (s.onSafety f).now = s.now := rfl
@[simp] theorem State.onSafety_sysNs (f : Safety → Safety) : (s.onSafety f).sysNs = s.sysNs := rfl
@[simp] theorem State.onTwin_now (f : Twin → Twin) : (s.onTwin f).now = s.now := rfl
@[simp] theorem State.onTwin_sysNs (f : Twin → Twin) : (s.onTwin f).sysNs = s.sysNs := rfl
@[simp] theorem State.onLife_now (f : Life → Life) : (s.onLife f).now = s.now := rfl
@[simp] theorem State.onLife_sysNs (f : Life → Life) : (s.onLife f).sysNs = s.sysNs := rfl
@[simp] theorem State.onSetup_now (f : Setup → Setup) : (s.onSetup f).now = s.now := rfl
@[simp] theorem State.onSetup_sysNs (f : Setup → Setup) : (s.onSetup f).sysNs = s.sysNs := rfl
@[simp] theorem State.onFabric_now (f : Fabric → Fabric) : (s.onFabric f).now = s.now := rfl
@[simp] theorem State.onFabric_sysNs (f : Fabric → Fabric) : (s.onFabric f).sysNs = s.sysNs := rfl
@[simp] theorem State.onHost_now (f : HostPort → HostPort) : (s.onHost f).now = s.now := rfl
@[simp] theorem State.onHost_sysNs (f : HostPort → HostPort) : (s.onHost f).sysNs = s.sysNs := rfl
@[simp] theorem State.onRing_now (f : Ring → Ring) : (s.onRing f).now = s.now := rfl
@[simp] theorem State.onRing_sysNs (f : Ring → Ring) : (s.onRing f).sysNs = s.sysNs := rfl
@[simp] theorem State.onProg_now (f : Prog → Prog) : (s.onProg f).now = s.now := rfl
@[simp] theorem State.onProg_sysNs (f : Prog → Prog) : (s.onProg f).sysNs = s.sysNs := rfl
@[simp] theorem State.onPlant_now (f : Plant → Plant) : (s.onPlant f).now = s.now := rfl
@[simp] theorem State.onPlant_sysNs (f : Plant → Plant) : (s.onPlant f).sysNs = s.sysNs := rfl
@[simp] theorem State.onLedger_now (f : Ledger → Ledger) : (s.onLedger f).now = s.now := rfl
@[simp] theorem State.onLedger_sysNs (f : Ledger → Ledger) : (s.onLedger f).sysNs = s.sysNs := rfl

end

end Sys2Proof.Machine
end

