-- ==== Sys2Proof/Laws/Parts.lean ====
section
/-! SUPPORT. One thing of a kind: what it is after it, or another of its kind, was changed; and how many there are. -/
namespace Sys2Proof.Machine
section
variable {s : State} {i j : Nat}

@[simp] theorem State.engine_onEngine (f : Engine → Engine) (h : i < s.fabric.engines.length) : (s.onEngine i f).engine i = f (s.engine i) := modAt_getD_self _ _ _ _ h
theorem State.engine_onEngine_ne (f : Engine → Engine) (h : j ≠ i) : (s.onEngine i f).engine j = s.engine j := modAt_getD_ne _ _ _ h
@[simp] theorem State.onEngine_count (f : Engine → Engine) : (s.onEngine i f).fabric.engines.length = s.fabric.engines.length := modAt_length _ _ _
@[simp] theorem State.line_onLine (f : RingLine → RingLine) (h : i < s.ring.lines.length) : (s.onLine i f).line i = f (s.line i) := modAt_getD_self _ _ _ _ h
theorem State.line_onLine_ne (f : RingLine → RingLine) (h : j ≠ i) : (s.onLine i f).line j = s.line j := modAt_getD_ne _ _ _ h
@[simp] theorem State.onLine_count (f : RingLine → RingLine) : (s.onLine i f).ring.lines.length = s.ring.lines.length := modAt_length _ _ _
@[simp] theorem State.station_onStation (f : Station → Station) (h : i < s.ring.stations.length) : (s.onStation i f).station i = f (s.station i) := modAt_getD_self _ _ _ _ h
theorem State.station_onStation_ne (f : Station → Station) (h : j ≠ i) : (s.onStation i f).station j = s.station j := modAt_getD_ne _ _ _ h
@[simp] theorem State.onStation_count (f : Station → Station) : (s.onStation i f).ring.stations.length = s.ring.stations.length := modAt_length _ _ _
@[simp] theorem State.cell_onCell (f : Cell → Cell) (h : i < s.meas.cells.length) : (s.onCell i f).cell i = f (s.cell i) := modAt_getD_self _ _ _ _ h
theorem State.cell_onCell_ne (f : Cell → Cell) (h : j ≠ i) : (s.onCell i f).cell j = s.cell j := modAt_getD_ne _ _ _ h
@[simp] theorem State.onCell_count (f : Cell → Cell) : (s.onCell i f).meas.cells.length = s.meas.cells.length := modAt_length _ _ _
@[simp] theorem State.stM_onStM (f : StationM → StationM) (h : i < s.meas.stations.length) : (s.onStM i f).stM i = f (s.stM i) := modAt_getD_self _ _ _ _ h
theorem State.stM_onStM_ne (f : StationM → StationM) (h : j ≠ i) : (s.onStM i f).stM j = s.stM j := modAt_getD_ne _ _ _ h
@[simp] theorem State.onStM_count (f : StationM → StationM) : (s.onStM i f).meas.stations.length = s.meas.stations.length := modAt_length _ _ _
@[simp] theorem State.phase_onPhase (f : PhaseLoop → PhaseLoop) (h : i < s.loop.phases.length) : (s.onPhase i f).phase i = f (s.phase i) := modAt_getD_self _ _ _ _ h
theorem State.phase_onPhase_ne (f : PhaseLoop → PhaseLoop) (h : j ≠ i) : (s.onPhase i f).phase j = s.phase j := modAt_getD_ne _ _ _ h
@[simp] theorem State.onPhase_count (f : PhaseLoop → PhaseLoop) : (s.onPhase i f).loop.phases.length = s.loop.phases.length := modAt_length _ _ _
@[simp] theorem State.rx_onRx (f : PhaseRx → PhaseRx) (h : i < s.gate.phases.length) : (s.onRx i f).rx i = f (s.rx i) := modAt_getD_self _ _ _ _ h
theorem State.rx_onRx_ne (f : PhaseRx → PhaseRx) (h : j ≠ i) : (s.onRx i f).rx j = s.rx j := modAt_getD_ne _ _ _ h
@[simp] theorem State.onRx_count (f : PhaseRx → PhaseRx) : (s.onRx i f).gate.phases.length = s.gate.phases.length := modAt_length _ _ _
@[simp] theorem State.receiver_onReceiver (f : Receiver → Receiver) (h : i < s.gate.receivers.length) : (s.onReceiver i f).receiver i = f (s.receiver i) := modAt_getD_self _ _ _ _ h
theorem State.receiver_onReceiver_ne (f : Receiver → Receiver) (h : j ≠ i) : (s.onReceiver i f).receiver j = s.receiver j := modAt_getD_ne _ _ _ h
@[simp] theorem State.onReceiver_count (f : Receiver → Receiver) : (s.onReceiver i f).gate.receivers.length = s.gate.receivers.length := modAt_length _ _ _
@[simp] theorem State.diag_onDiag (f : Diag → Diag) (h : i < s.loop.diags.length) : (s.onDiag i f).diag i = f (s.diag i) := modAt_getD_self _ _ _ _ h
theorem State.diag_onDiag_ne (f : Diag → Diag) (h : j ≠ i) : (s.onDiag i f).diag j = s.diag j := modAt_getD_ne _ _ _ h
@[simp] theorem State.onDiag_count (f : Diag → Diag) : (s.onDiag i f).loop.diags.length = s.loop.diags.length := modAt_length _ _ _
@[simp] theorem State.zone_onZone (f : Zone → Zone) (h : i < s.therm.zones.length) : (s.onZone i f).zone i = f (s.zone i) := modAt_getD_self _ _ _ _ h
theorem State.zone_onZone_ne (f : Zone → Zone) (h : j ≠ i) : (s.onZone i f).zone j = s.zone j := modAt_getD_ne _ _ _ h
@[simp] theorem State.onZone_count (f : Zone → Zone) : (s.onZone i f).therm.zones.length = s.therm.zones.length := modAt_length _ _ _
@[simp] theorem State.eng_onEng (f : CycEng → CycEng) (h : i < s.prog.engines.length) : (s.onEng i f).eng i = f (s.eng i) := modAt_getD_self _ _ _ _ h
theorem State.eng_onEng_ne (f : CycEng → CycEng) (h : j ≠ i) : (s.onEng i f).eng j = s.eng j := modAt_getD_ne _ _ _ h
@[simp] theorem State.onEng_count (f : CycEng → CycEng) : (s.onEng i f).prog.engines.length = s.prog.engines.length := modAt_length _ _ _
@[simp] theorem State.queue_setQueue (f : Queue → Queue) (h : i < s.host.queues.length) : (s.setQueue i f).queue i = f (s.queue i) := modAt_getD_self _ _ _ _ h
theorem State.queue_setQueue_ne (f : Queue → Queue) (h : j ≠ i) : (s.setQueue i f).queue j = s.queue j := modAt_getD_ne _ _ _ h
@[simp] theorem State.setQueue_count (f : Queue → Queue) : (s.setQueue i f).host.queues.length = s.host.queues.length := modAt_length _ _ _
@[simp] theorem State.canPort_onCan (f : CanPort → CanPort) (h : i < s.plant.can.length) : (s.onCan i f).canPort i = f (s.canPort i) := modAt_getD_self _ _ _ _ h
theorem State.canPort_onCan_ne (f : CanPort → CanPort) (h : j ≠ i) : (s.onCan i f).canPort j = s.canPort j := modAt_getD_ne _ _ _ h
@[simp] theorem State.onCan_count (f : CanPort → CanPort) : (s.onCan i f).plant.can.length = s.plant.can.length := modAt_length _ _ _
@[simp] theorem State.mbEntry_onMb (f : MbEntry → MbEntry) (h : i < s.plant.mb.length) : (s.onMb i f).mbEntry i = f (s.mbEntry i) := modAt_getD_self _ _ _ _ h
theorem State.mbEntry_onMb_ne (f : MbEntry → MbEntry) (h : j ≠ i) : (s.onMb i f).mbEntry j = s.mbEntry j := modAt_getD_ne _ _ _ h
@[simp] theorem State.onMb_count (f : MbEntry → MbEntry) : (s.onMb i f).plant.mb.length = s.plant.mb.length := modAt_length _ _ _
@[simp] theorem State.sbPort_onSb (f : SbPort → SbPort) (h : i < s.plant.sb.length) : (s.onSb i f).sbPort i = f (s.sbPort i) := modAt_getD_self _ _ _ _ h
theorem State.sbPort_onSb_ne (f : SbPort → SbPort) (h : j ≠ i) : (s.onSb i f).sbPort j = s.sbPort j := modAt_getD_ne _ _ _ h
@[simp] theorem State.onSb_count (f : SbPort → SbPort) : (s.onSb i f).plant.sb.length = s.plant.sb.length := modAt_length _ _ _
@[simp] theorem State.ethPort_onEth (f : EthPort → EthPort) (h : i < s.plant.eth.length) : (s.onEth i f).ethPort i = f (s.ethPort i) := modAt_getD_self _ _ _ _ h
theorem State.ethPort_onEth_ne (f : EthPort → EthPort) (h : j ≠ i) : (s.onEth i f).ethPort j = s.ethPort j := modAt_getD_ne _ _ _ h
@[simp] theorem State.onEth_count (f : EthPort → EthPort) : (s.onEth i f).plant.eth.length = s.plant.eth.length := modAt_length _ _ _

theorem State.sized.engines (h : s.sized) : s.fabric.engines.length = 23 := by
  simp only [State.sized, State.shape, List.cons.injEq] at h; simp only [h]; rfl
theorem State.sized.lines (h : s.sized) : s.ring.lines.length = 8 := by
  simp only [State.sized, State.shape, List.cons.injEq] at h; simp only [h]; rfl
theorem State.sized.stations (h : s.sized) : s.ring.stations.length = 34 := by
  simp only [State.sized, State.shape, List.cons.injEq] at h; simp only [h]; rfl
theorem State.sized.cells (h : s.sized) : s.meas.cells.length = 512 := by
  simp only [State.sized, State.shape, List.cons.injEq] at h; simp only [h]; exact List.length_replicate
theorem State.sized.stationsM (h : s.sized) : s.meas.stations.length = 32 := by
  simp only [State.sized, State.shape, List.cons.injEq] at h; simp only [h]; rfl
theorem State.sized.phases (h : s.sized) : s.loop.phases.length = 16 := by
  simp only [State.sized, State.shape, List.cons.injEq] at h; simp only [h]; rfl
theorem State.sized.rx (h : s.sized) : s.gate.phases.length = 16 := by
  simp only [State.sized, State.shape, List.cons.injEq] at h; simp only [h]; rfl
theorem State.sized.receivers (h : s.sized) : s.gate.receivers.length = 8 := by
  simp only [State.sized, State.shape, List.cons.injEq] at h; simp only [h]; rfl
theorem State.sized.diags (h : s.sized) : s.loop.diags.length = 4 := by
  simp only [State.sized, State.shape, List.cons.injEq] at h; simp only [h]; rfl
theorem State.sized.zones (h : s.sized) : s.therm.zones.length = 8 := by
  simp only [State.sized, State.shape, List.cons.injEq] at h; simp only [h]; rfl
theorem State.sized.engs (h : s.sized) : s.prog.engines.length = 8 := by
  simp only [State.sized, State.shape, List.cons.injEq] at h; simp only [h]; rfl
theorem State.sized.queues (h : s.sized) : s.host.queues.length = 32 := by
  simp only [State.sized, State.shape, List.cons.injEq] at h; simp only [h]; rfl
theorem State.sized.can (h : s.sized) : s.plant.can.length = 6 := by
  simp only [State.sized, State.shape, List.cons.injEq] at h; simp only [h]; rfl
theorem State.sized.mb (h : s.sized) : s.plant.mb.length = 256 := by
  simp only [State.sized, State.shape, List.cons.injEq] at h; simp only [h]; exact List.length_replicate
theorem State.sized.sb (h : s.sized) : s.plant.sb.length = 4 := by
  simp only [State.sized, State.shape, List.cons.injEq] at h; simp only [h]; rfl
theorem State.sized.eth (h : s.sized) : s.plant.eth.length = 4 := by
  simp only [State.sized, State.shape, List.cons.injEq] at h; simp only [h]; rfl
theorem State.sized.corrected (h : s.sized) : s.fabric.corrected.length = 3 := by
  simp only [State.sized, State.shape, List.cons.injEq] at h; simp only [h]; rfl
theorem State.sized.reqSeq (h : s.sized) : s.time.reqSeq.length = 3 := by
  simp only [State.sized, State.shape, List.cons.injEq] at h; simp only [h]; rfl
theorem State.sized.pathDelay (h : s.sized) : s.time.pathDelay.length = 3 := by
  simp only [State.sized, State.shape, List.cons.injEq] at h; simp only [h]; rfl
theorem State.sized.syncWait (h : s.sized) : s.time.syncWait.length = 3 := by
  simp only [State.sized, State.shape, List.cons.injEq] at h; simp only [h]; rfl
theorem State.sized.pairResult (h : s.sized) : s.time.pairResult.length = 2 := by
  simp only [State.sized, State.shape, List.cons.injEq] at h; simp only [h]; rfl
theorem State.sized.estCells (h : s.sized) : s.est.cells.length = 512 := by
  simp only [State.sized, State.shape, List.cons.injEq] at h; simp only [h]; exact List.length_replicate
theorem State.sized.coolers (h : s.sized) : s.therm.coolers.length = 8 := by
  simp only [State.sized, State.shape, List.cons.injEq] at h; simp only [h]; rfl
theorem State.sized.outs (h : s.sized) : s.safety.outs.length = 4 := by
  simp only [State.sized, State.shape, List.cons.injEq] at h; simp only [h]; rfl
theorem State.sized.objs (h : s.sized) : s.plant.objs.length = 768 := by
  simp only [State.sized, State.shape, List.cons.injEq] at h; simp only [h]; exact List.length_replicate
theorem State.sized.linkUp (h : s.sized) : s.twin.linkUp.length = 2 := by
  simp only [State.sized, State.shape, List.cons.injEq] at h; simp only [h]; rfl

end

end Sys2Proof.Machine
end

