-- ==== Sys2Proof/Laws/HostRow.lean ====
section
/-! SUPPORT. What a row of the host's command queues does with the descriptor whose turn it is, said once: an accepted command ends with its
response and ST_OK, a refused one with its status and detail. -/
namespace Sys2Proof.Machine

section
variable {s t u : State} {q op : Nat} {sel : Desc → Bool} {d : Desc} {own : State → Desc → Verdict}

/-- The row runs its own checks in the state that the authorisation leaves. -/
theorem hostRow_turn (h : s.Turn q op sel d t) : s.hostRow q op sel own = match own t d with
    | .refuse st det => t.refuses q st det
    | .refuseAs st det next => next.refuses q st det
    | .accept need aw resp next =>
      if descUsesResp d && decide (d.respLen < need) then (t.complete q 0 St.bufferShort 0 need 0).fetchAndPump q
      else next.ends q need (bit aw) resp
    | .acceptRead need len resp next =>
      if decide (d.respLen < need) then (t.complete q 0 St.bufferShort 0 need 0).fetchAndPump q
      else ((next.emit (.response q resp)).complete q 0 St.ok 0 len 0).fetchAndPump q := by
  obtain ⟨hw, hh, hd, ha⟩ := h
  rcases hq : (s.queue q).inMod with _ | ⟨x, l⟩
  · simp [hq] at hd
  · simp only [hq, List.head?_cons, Option.map_some, Option.some.injEq] at hd
    subst hd
    unfold State.hostRow State.runHead
    simp only [hw, hh, hq, ha, if_true, Bool.false_eq_true, if_false]
    cases own t x.desc <;> rfl

/-- A command that its own checks accept, with room for its response. -/
theorem hostRow_accept (h : s.Turn q op sel d t) {need : Nat} {aw : Bool} {resp : List Byte} (ho : own t d = .accept need aw resp u)
    (hl : need = 0 ∨ need ≤ d.respLen) : s.hostRow q op sel own = u.ends q need (bit aw) resp := by
  rw [hostRow_turn h, ho]
  have : (descUsesResp d && decide (d.respLen < need)) = false := by
    rcases hl with rfl | hl <;> simp <;> omega
  simp [this]

/-- A read that answers what there is. -/
theorem hostRow_acceptRead (h : s.Turn q op sel d t) {need len : Nat} {resp : List Byte} (ho : own t d = .acceptRead need len resp u)
    (hl : need ≤ d.respLen) (hp : len ≠ 0) : s.hostRow q op sel own = u.ends q len 0 resp := by
  rw [hostRow_turn h, ho]
  simp [Nat.not_lt.mpr hl, State.ends, hp]

theorem hostRow_refuse (h : s.Turn q op sel d t) {st det : Nat} (ho : own t d = .refuse st det) :
    s.hostRow q op sel own = t.refuses q st det := by rw [hostRow_turn h, ho]

theorem hostRow_refuseAs (h : s.Turn q op sel d t) {st det : Nat} (ho : own t d = .refuseAs st det u) :
    s.hostRow q op sel own = u.refuses q st det := by rw [hostRow_turn h, ho]

/-- The selection holds of the descriptor whose turn it is. -/
theorem State.Turn.selected (h : s.Turn q op sel d t) : sel d = true := by
  obtain ⟨-, hh, hd, -⟩ := h
  rcases hq : (s.queue q).inMod with _ | ⟨x, l⟩
  · simp [hq] at hd
  · simp only [hq, List.head?_cons, Option.map_some, Option.some.injEq] at hd
    subst hd
    simp [State.isHead, hq] at hh
    exact hh.2

/-- An authorisation changes the key store alone. -/
theorem State.authorise_eq {role : Option Nat} (h : s.authorise d role = (t, none)) : t = s ∨ ∃ slot nonce,
    t = s.onHost (fun x => { x with keys := modAt x.keys slot (fun k => { k with nonce := nonce }) }) := by
  unfold State.authorise at h
  simp only at h
  repeat' split at h
  all_goals first
    | (cases h; exact .inl rfl)
    | (cases h; exact .inr ⟨_, _, rfl⟩)
    | simp at h

end

end Sys2Proof.Machine
end

