-- ==== Sys2Proof/Laws/KeepShared.lean ====
section
/-! SUPPORT. What is kept (Laws/Holds.lean) by the shared operations, the host port, the chain, the rings, the ledger, measurement and the estimator: one lemma per operation and per command's meaning. -/
namespace Sys2Proof.Machine
variable {R : Bool} {M : Part → Bool} {B : State}

theorem State.advance_holds {s : State} {ns : Nat} [May M .time] (h : Holds R M B s) : Holds R M B (State.advance s ns) := by
  unfold State.advance
  with_reducible repeat' first
    | assumption | dsimp only
    | ((fail_if_success (fail_if_success (apply Holds.probe; dsimp only))); apply Holds.mk0
        <;> first | exact .inl May.yes | exact .inr rfl | skip)
    | apply Holds.ite | split

theorem State.tick_holds {s : State} [May M .time] (h : Holds R M B s) : Holds R M B (State.tick s) := by
  unfold State.tick
  with_reducible repeat' first
    | assumption | dsimp only
    | ((fail_if_success (fail_if_success (apply Holds.probe; dsimp only))); apply Holds.mk0
        <;> first | exact .inl May.yes | exact .inr rfl | skip)

theorem State.periodic_holds {s : State} {i : Nat} {p : Nat} [May M .time] (h : Holds R M B s) :
    Holds R M B (State.periodic s i p) := by
  unfold State.periodic
  with_reducible repeat' first
    | assumption | dsimp only
    | ((fail_if_success (fail_if_success (apply Holds.probe; dsimp only))); apply Holds.mk0
        <;> first | exact .inl May.yes | exact .inr rfl | skip)
    | apply State.advance_holds

theorem State.onMeas_holds {s : State} {f : Meas → Meas} [May M .meas] (h : Holds R M B s) : Holds R M B (State.onMeas s f) := by
  unfold State.onMeas
  with_reducible repeat' first
    | assumption | dsimp only
    | ((fail_if_success (fail_if_success (apply Holds.probe; dsimp only))); apply Holds.mk0
        <;> first | exact .inl May.yes | exact .inr rfl | skip)

theorem State.onEst_holds {s : State} {f : Est → Est} [May M .est] (h : Holds R M B s) : Holds R M B (State.onEst s f) := by
  unfold State.onEst
  with_reducible repeat' first
    | assumption | dsimp only
    | ((fail_if_success (fail_if_success (apply Holds.probe; dsimp only))); apply Holds.mk0
        <;> first | exact .inl May.yes | exact .inr rfl | skip)

theorem State.onImp_holds {s : State} {f : Imp → Imp} [May M .est] (h : Holds R M B s) : Holds R M B (State.onImp s f) := by
  unfold State.onImp
  with_reducible repeat' first
    | assumption | intro _ | dsimp only | apply State.onEst_holds

theorem State.onGate_holds {s : State} {f : Gate → Gate} [May M .gate] (h : Holds R M B s) : Holds R M B (State.onGate s f) := by
  unfold State.onGate
  with_reducible repeat' first
    | assumption | dsimp only
    | ((fail_if_success (fail_if_success (apply Holds.probe; dsimp only))); apply Holds.mk0
        <;> first | exact .inl May.yes | exact .inr rfl | skip)

theorem State.onLoop_holds {s : State} {f : Loop → Loop} [May M .loop] (h : Holds R M B s) : Holds R M B (State.onLoop s f) := by
  unfold State.onLoop
  with_reducible repeat' first
    | assumption | dsimp only
    | ((fail_if_success (fail_if_success (apply Holds.probe; dsimp only))); apply Holds.mk0
        <;> first | exact .inl May.yes | exact .inr rfl | skip)

theorem State.onTherm_holds {s : State} {f : Therm → Therm} [May M .therm] (h : Holds R M B s) :
    Holds R M B (State.onTherm s f) := by
  unfold State.onTherm
  with_reducible repeat' first
    | assumption | dsimp only
    | ((fail_if_success (fail_if_success (apply Holds.probe; dsimp only))); apply Holds.mk0
        <;> first | exact .inl May.yes | exact .inr rfl | skip)

theorem State.onDisp_holds {s : State} {f : Disp → Disp} [May M .disp] (h : Holds R M B s) : Holds R M B (State.onDisp s f) := by
  unfold State.onDisp
  with_reducible repeat' first
    | assumption | dsimp only
    | ((fail_if_success (fail_if_success (apply Holds.probe; dsimp only))); apply Holds.mk0
        <;> first | exact .inl May.yes | exact .inr rfl | skip)

theorem State.onSafety_holds {s : State} {f : Safety → Safety} [May M .safety] (h : Holds R M B s) :
    Holds R M B (State.onSafety s f) := by
  unfold State.onSafety
  with_reducible repeat' first
    | assumption | dsimp only
    | ((fail_if_success (fail_if_success (apply Holds.probe; dsimp only))); apply Holds.mk0
        <;> first | exact .inl May.yes | exact .inr rfl | skip)

theorem State.onTwin_holds {s : State} {f : Twin → Twin} [May M .twin] (h : Holds R M B s) : Holds R M B (State.onTwin s f) := by
  unfold State.onTwin
  with_reducible repeat' first
    | assumption | dsimp only
    | ((fail_if_success (fail_if_success (apply Holds.probe; dsimp only))); apply Holds.mk0
        <;> first | exact .inl May.yes | exact .inr rfl | skip)

theorem State.onFabric_holds {s : State} {f : Fabric → Fabric} [May M .fabric] (h : Holds R M B s) :
    Holds R M B (State.onFabric s f) := by
  unfold State.onFabric
  with_reducible repeat' first
    | assumption | dsimp only
    | ((fail_if_success (fail_if_success (apply Holds.probe; dsimp only))); apply Holds.mk0
        <;> first | exact .inl May.yes | exact .inr rfl | skip)

theorem State.onHost_holds {s : State} {f : HostPort → HostPort} [May M .host] (h : Holds R M B s) :
    Holds R M B (State.onHost s f) := by
  unfold State.onHost
  with_reducible repeat' first
    | assumption | dsimp only
    | ((fail_if_success (fail_if_success (apply Holds.probe; dsimp only))); apply Holds.mk0
        <;> first | exact .inl May.yes | exact .inr rfl | skip)

theorem State.onRing_holds {s : State} {f : Ring → Ring} [May M .ring] (h : Holds R M B s) : Holds R M B (State.onRing s f) := by
  unfold State.onRing
  with_reducible repeat' first
    | assumption | dsimp only
    | ((fail_if_success (fail_if_success (apply Holds.probe; dsimp only))); apply Holds.mk0
        <;> first | exact .inl May.yes | exact .inr rfl | skip)

theorem State.draw_holds {s : State} [May M .free] (h : Holds R M B s) : Holds R M B (State.draw s) := by
  unfold State.draw
  with_reducible repeat' first
    | assumption | dsimp only
    | ((fail_if_success (fail_if_success (apply Holds.probe; dsimp only))); apply Holds.mk0
        <;> first | exact .inl May.yes | exact .inr rfl | skip)

theorem State.raiseAt_holds {s : State} {sysNs : Nat} {e : EvDef} {args : List Int} [May M .rec_] (h : Holds R M B s) :
    Holds R M B (State.raiseAt s sysNs e args) := by
  unfold State.raiseAt
  with_reducible repeat' first
    | assumption | dsimp only
    | ((fail_if_success (fail_if_success (apply Holds.probe; dsimp only))); apply Holds.mk0
        <;> first | exact .inl May.yes | exact .inr rfl | skip)

theorem State.raise_holds {s : State} {e : EvDef} {args : List Int} [May M .rec_] (h : Holds R M B s) :
    Holds R M B (State.raise s e args) := by
  unfold State.raise
  with_reducible repeat' first
    | assumption | dsimp only | apply State.raiseAt_holds

theorem State.emit_holds {s : State} {o : Out} [May M .out] (h : Holds R M B s) : Holds R M B (State.emit s o) := by
  unfold State.emit
  with_reducible repeat' first
    | assumption | dsimp only
    | ((fail_if_success (fail_if_success (apply Holds.probe; dsimp only))); apply Holds.mk0
        <;> first | exact .inl May.yes | exact .inr rfl | skip)

theorem State.emitAll_holds {s : State} {os : List Out} [May M .out] (h : Holds R M B s) : Holds R M B (State.emitAll s os) := by
  unfold State.emitAll
  with_reducible repeat' first
    | assumption | intro _ | dsimp only | apply State.emit_holds | apply Holds.foldl

theorem State.pairSend_holds {s : State} {f : PairFrame} [May M .twin] [May M .out] (h : Holds R M B s) :
    Holds R M B (State.pairSend s f) := by
  unfold State.pairSend
  with_reducible repeat' first
    | assumption | dsimp only
    | ((fail_if_success (fail_if_success (apply Holds.probe; dsimp only))); apply Holds.mk0
        <;> first | exact .inl May.yes | exact .inr rfl | skip)
    | apply Holds.ite | split

theorem State.linkHeard_holds {s : State} {link : Nat} [May M .twin] (h : Holds R M B s) :
    Holds R M B (State.linkHeard s link) := by
  unfold State.linkHeard
  with_reducible repeat' first
    | assumption | intro _ | dsimp only | apply State.onTwin_holds

theorem State.pairSendOn_holds {s : State} {link : Nat} {f : PairFrame} [May M .twin] [May M .out] (h : Holds R M B s) :
    Holds R M B (State.pairSendOn s link f) := by
  unfold State.pairSendOn
  with_reducible repeat' first
    | assumption | dsimp only
    | ((fail_if_success (fail_if_success (apply Holds.probe; dsimp only))); apply Holds.mk0
        <;> first | exact .inl May.yes | exact .inr rfl | skip)
    | apply Holds.ite | split

theorem State.prpTrailer_holds {s : State} {ep : Nat} [May M .plant] [May M .out] (h : Holds R M B s) :
    Holds R M B (State.prpTrailer s ep) := by
  unfold State.prpTrailer
  with_reducible repeat' first
    | assumption | dsimp only
    | ((fail_if_success (fail_if_success (apply Holds.probe; dsimp only))); apply Holds.mk0
        <;> first | exact .inl May.yes | exact .inr rfl | skip)
    | apply Holds.ite | split

theorem State.plantSendAt_holds {s : State} {later : Nat} {ep : Nat} {dst : Nat} {type : Nat} {body : List Byte} [May M .plant] [May M .out] (h : Holds R M B s) :
    Holds R M B (State.plantSendAt s later ep dst type body) := by
  unfold State.plantSendAt
  with_reducible repeat' first
    | assumption | dsimp only
    | ((fail_if_success (fail_if_success (apply Holds.probe; dsimp only))); apply Holds.mk0
        <;> first | exact .inl May.yes | exact .inr rfl | skip)
    | apply State.prpTrailer_holds | apply Holds.ite | split

theorem State.plantSendFrom_holds {s : State} {ep : Nat} {type : Nat} {body : List Byte} [May M .plant] [May M .out] (h : Holds R M B s) :
    Holds R M B (State.plantSendFrom s ep type body) := by
  unfold State.plantSendFrom
  with_reducible repeat' first
    | assumption | dsimp only | apply State.plantSendAt_holds

theorem State.plantSend_holds {s : State} {type : Nat} {body : List Byte} [May M .plant] [May M .out] (h : Holds R M B s) :
    Holds R M B (State.plantSend s type body) := by
  unfold State.plantSend
  with_reducible repeat' first
    | assumption | dsimp only | apply State.plantSendFrom_holds

theorem State.express_holds {s : State} {p : Nat} {i : Nat} {ident : Nat} {data : List Byte} [May M .plant] (h : Holds R M B s) :
    Holds R M B (State.express s p i ident data) := by
  unfold State.express
  with_reducible repeat' first
    | assumption | dsimp only
    | ((fail_if_success (fail_if_success (apply Holds.probe; dsimp only))); apply Holds.mk0
        <;> first | exact .inl May.yes | exact .inr rfl | skip)
    | apply Holds.ite | split

theorem State.onEth_holds {s : State} {ep : Nat} {f : EthPort → EthPort} [May M .plant] (h : Holds R M B s) :
    Holds R M B (State.onEth s ep f) := by
  unfold State.onEth
  with_reducible repeat' first
    | assumption | dsimp only
    | ((fail_if_success (fail_if_success (apply Holds.probe; dsimp only))); apply Holds.mk0
        <;> first | exact .inl May.yes | exact .inr rfl | skip)

theorem State.ethIn_holds {s : State} {ep : Nat} {f : State → State} [May M .plant] (hf : ∀ y0, Holds R M B y0 → Holds R M B (f y0)) (h : Holds R M B s) :
    Holds R M B (State.ethIn s ep f) := by
  unfold State.ethIn
  with_reducible repeat' first
    | assumption | intro _ | dsimp only | apply State.onEth_holds | apply Holds.ite | apply hf | split

theorem State.ethDrop_holds {s : State} {ep : Nat} [May M .plant] (h : Holds R M B s) : Holds R M B (State.ethDrop s ep) := by
  unfold State.ethDrop
  with_reducible repeat' first
    | assumption | intro _ | dsimp only | apply State.onEth_holds

theorem State.readReg_holds {s : State} {offset : Nat} {value : Word} {f : State → State} [May M .out] (hf : ∀ y0, Holds R M B y0 → Holds R M B (f y0)) (h : Holds R M B s) :
    Holds R M B (State.readReg s offset value f) := by
  unfold State.readReg
  with_reducible repeat' first
    | assumption | dsimp only | apply State.emit_holds | apply hf

theorem State.onStation_holds {s : State} {k : Nat} {f : Station → Station} [May M .ring] (h : Holds R M B s) :
    Holds R M B (State.onStation s k f) := by
  unfold State.onStation
  with_reducible repeat' first
    | assumption | dsimp only
    | ((fail_if_success (fail_if_success (apply Holds.probe; dsimp only))); apply Holds.mk0
        <;> first | exact .inl May.yes | exact .inr rfl | skip)

theorem State.command_holds {s : State} {k : Nat} {op : Nat} {arg : Nat} [May M .ring] (h : Holds R M B s) :
    Holds R M B (State.command s k op arg) := by
  unfold State.command
  with_reducible repeat' first
    | assumption | intro _ | dsimp only | apply State.onStation_holds

theorem State.balancingOff_holds {s : State} [May M .ring] [May M .meas] (h : Holds R M B s) :
    Holds R M B (State.balancingOff s) := by
  unfold State.balancingOff
  with_reducible repeat' first
    | assumption | dsimp only
    | ((fail_if_success (fail_if_success (apply Holds.probe; dsimp only))); apply Holds.mk0
        <;> first | exact .inl May.yes | exact .inr rfl | skip)
    | apply Holds.ite | split

theorem State.lockin_holds {s : State} {arg : Nat} [May M .ring] (h : Holds R M B s) : Holds R M B (State.lockin s arg) := by
  unfold State.lockin
  with_reducible repeat' first
    | assumption | intro _ | dsimp only | apply State.onRing_holds | apply Holds.ite | split

theorem State.abandonRun_holds {s : State} {cause : Nat} [May M .ring] [May M .est] [May M .rec_] (h : Holds R M B s) :
    Holds R M B (State.abandonRun s cause) := by
  unfold State.abandonRun
  with_reducible repeat' first
    | assumption | intro _ | dsimp only | apply State.raise_holds | apply State.lockin_holds | apply State.onImp_holds
    | apply Holds.ite | split

theorem State.onProg_holds {s : State} {f : Prog → Prog} [May M .prog] (h : Holds R M B s) : Holds R M B (State.onProg s f) := by
  unfold State.onProg
  with_reducible repeat' first
    | assumption | dsimp only
    | ((fail_if_success (fail_if_success (apply Holds.probe; dsimp only))); apply Holds.mk0
        <;> first | exact .inl May.yes | exact .inr rfl | skip)

theorem State.onEng_holds {s : State} {e : Nat} {f : CycEng → CycEng} [May M .prog] (h : Holds R M B s) :
    Holds R M B (State.onEng s e f) := by
  unfold State.onEng
  with_reducible repeat' first
    | assumption | intro _ | dsimp only | apply State.onProg_holds

theorem State.addCause_holds {s : State} {e : Nat} {code : Nat} {arg : Nat} [May M .prog] (h : Holds R M B s) :
    Holds R M B (State.addCause s e code arg) := by
  unfold State.addCause
  with_reducible repeat' first
    | assumption | intro _ | dsimp only | apply State.onEng_holds | apply Holds.ite | split

theorem State.causeAll_holds {s : State} {code : Nat} {arg : Nat} [May M .prog] (h : Holds R M B s) :
    Holds R M B (State.causeAll s code arg) := by
  unfold State.causeAll
  with_reducible repeat' first
    | assumption | intro _ | dsimp only | apply State.addCause_holds | apply Holds.foldl

theorem State.sendStop_holds {s : State} [May M .gate] [May M .out] (h : Holds R M B s) : Holds R M B (State.sendStop s) := by
  unfold State.sendStop
  with_reducible repeat' first
    | assumption | dsimp only
    | ((fail_if_success (fail_if_success (apply Holds.probe; dsimp only))); apply Holds.mk0
        <;> first | exact .inl May.yes | exact .inr rfl | skip)

theorem State.stageTrip_holds {s : State} {cls : Nat} {link : Nat} {phase : Nat} {switch : Nat} [May M .ring] [May M .est] [May M .gate] [May M .rec_] [May M .out] (h : Holds R M B s) :
    Holds R M B (State.stageTrip s cls link phase switch) := by
  unfold State.stageTrip
  with_reducible repeat' first
    | assumption | dsimp only
    | ((fail_if_success (fail_if_success (apply Holds.probe; dsimp only))); apply Holds.mk0
        <;> first | exact .inl May.yes | exact .inr rfl | skip)
    | apply State.sendStop_holds | apply State.raise_holds | apply State.abandonRun_holds | apply Holds.ite | split

theorem State.outsOff_holds {s : State} [May M .safety] (h : Holds R M B s) : Holds R M B (State.outsOff s) := by
  unfold State.outsOff
  with_reducible repeat' first
    | assumption | dsimp only
    | ((fail_if_success (fail_if_success (apply Holds.probe; dsimp only))); apply Holds.mk0
        <;> first | exact .inl May.yes | exact .inr rfl | skip)

theorem State.openSwitches_holds {s : State} {engines : Nat} [May M .safety] (h : Holds R M B s) :
    Holds R M B (State.openSwitches s engines) := by
  unfold State.openSwitches
  with_reducible repeat' first
    | assumption | dsimp only
    | ((fail_if_success (fail_if_success (apply Holds.probe; dsimp only))); apply Holds.mk0
        <;> first | exact .inl May.yes | exact .inr rfl | skip)
    | apply Holds.ite | split

theorem State.loopsOpen_holds {s : State} [May M .safety] (h : Holds R M B s) : Holds R M B (State.loopsOpen s) := by
  unfold State.loopsOpen
  with_reducible repeat' first
    | assumption | dsimp only
    | ((fail_if_success (fail_if_success (apply Holds.probe; dsimp only))); apply Holds.mk0
        <;> first | exact .inl May.yes | exact .inr rfl | skip)

theorem State.sendSafetyFrame_holds {s : State} [May M .safety] [May M .plant] [May M .twin] [May M .out] (h : Holds R M B s) :
    Holds R M B (State.sendSafetyFrame s) := by
  unfold State.sendSafetyFrame
  with_reducible repeat' first
    | assumption | dsimp only
    | ((fail_if_success (fail_if_success (apply Holds.probe; dsimp only))); apply Holds.mk0
        <;> first | exact .inl May.yes | exact .inr rfl | skip)
    | apply State.plantSendFrom_holds | apply State.pairSend_holds | apply State.express_holds | apply Holds.ite | split

theorem State.safeState_holds {s : State} {d : Demand} [May M .ring] [May M .meas] [May M .est] [May M .gate] [May M .safety] [May M .plant] [May M .twin] [May M .rec_] [May M .out] (h : Holds R M B s) :
    Holds R M B (State.safeState s d) := by
  unfold State.safeState
  with_reducible repeat' first
    | assumption | dsimp only
    | ((fail_if_success (fail_if_success (apply Holds.probe; dsimp only))); apply Holds.mk0
        <;> first | exact .inl May.yes | exact .inr rfl | skip)
    | apply State.raise_holds | apply State.abandonRun_holds | apply State.stageTrip_holds | apply State.balancingOff_holds
    | apply State.openSwitches_holds | apply State.sendSafetyFrame_holds | apply Holds.ite | split

theorem State.internalFaultBy_holds {s : State} {by_ : Nat} {engine : Nat} {keep : Bool} [May M .ring] [May M .meas] [May M .est] [May M .gate] [May M .safety] [May M .plant] [May M .twin] [May M .rec_] [May M .out] (h : Holds R M B s) :
    Holds R M B (State.internalFaultBy s by_ engine keep) := by
  unfold State.internalFaultBy
  with_reducible repeat' first
    | assumption | dsimp only
    | ((fail_if_success (fail_if_success (apply Holds.probe; dsimp only))); apply Holds.mk0
        <;> first | exact .inl May.yes | exact .inr rfl | skip)
    | apply State.safeState_holds

theorem State.internalFault_holds {s : State} {engine : Nat} {keep : Bool} [May M .ring] [May M .meas] [May M .est] [May M .gate] [May M .safety] [May M .plant] [May M .twin] [May M .rec_] [May M .out] (h : Holds R M B s) :
    Holds R M B (State.internalFault s engine keep) := by
  unfold State.internalFault
  with_reducible repeat' first
    | assumption | dsimp only | apply State.internalFaultBy_holds

theorem State.releasePins_holds {s : State} [May M .out] (h : Holds R M B s) : Holds R M B (State.releasePins s) := by
  unfold State.releasePins
  with_reducible repeat' first
    | assumption | dsimp only | apply State.emitAll_holds

theorem State.driveFan_holds {s : State} {n : Nat} [May M .out] (h : Holds R M B s) : Holds R M B (State.driveFan s n) := by
  unfold State.driveFan
  with_reducible repeat' first
    | assumption | dsimp only | apply State.emit_holds | apply Holds.ite | split

theorem State.drivePins_holds {s : State} [May M .out] (h : Holds R M B s) : Holds R M B (State.drivePins s) := by
  unfold State.drivePins
  with_reducible repeat' first
    | assumption | intro _ | dsimp only | apply State.driveFan_holds | apply State.emit_holds | apply Holds.foldl | split

theorem State.cancelCan_holds {s : State} [May M .plant] (h : Holds R M B s) : Holds R M B (State.cancelCan s) := by
  unfold State.cancelCan
  with_reducible repeat' first
    | assumption | dsimp only
    | ((fail_if_success (fail_if_success (apply Holds.probe; dsimp only))); apply Holds.mk0
        <;> first | exact .inl May.yes | exact .inr rfl | skip)

theorem State.withdraw_holds {s : State} {cause : Nat} {stay : Bool} [May M .time] [May M .safety] [May M .plant] [May M .twin] [May M .rec_] [May M .out] (h : Holds R M B s) :
    Holds R M B (State.withdraw s cause stay) := by
  unfold State.withdraw
  with_reducible repeat' first
    | assumption | dsimp only
    | ((fail_if_success (fail_if_success (apply Holds.probe; dsimp only))); apply Holds.mk0
        <;> first | exact .inl May.yes | exact .inr rfl | skip)
    | apply State.raise_holds | apply State.pairSend_holds | apply State.cancelCan_holds | apply State.outsOff_holds
    | apply State.releasePins_holds | apply Holds.ite | split

theorem State.selfDiagnosis_holds {s : State} {cause : Nat} {single : State → State} [May M .time] [May M .safety] [May M .plant] [May M .twin] [May M .rec_] [May M .out] (hsingle : ∀ y0, Holds R M B y0 → Holds R M B (single y0)) (h : Holds R M B s) :
    Holds R M B (State.selfDiagnosis s cause single) := by
  unfold State.selfDiagnosis
  with_reducible repeat' first
    | assumption | dsimp only | apply State.withdraw_holds | apply Holds.ite | apply hsingle | split

theorem State.writeHistory_holds {s : State} [May M .fabric] (h : Holds R M B s) : Holds R M B (State.writeHistory s) := by
  unfold State.writeHistory
  with_reducible repeat' first
    | assumption | dsimp only
    | ((fail_if_success (fail_if_success (apply Holds.probe; dsimp only))); apply Holds.mk0
        <;> first | exact .inl May.yes | exact .inr rfl | skip)
    | apply Holds.ite | split

theorem State.setQueue_holds {s : State} {q : Nat} {f : Queue → Queue} [May M .host] (h : Holds R M B s) :
    Holds R M B (State.setQueue s q f) := by
  unfold State.setQueue
  with_reducible repeat' first
    | assumption | dsimp only
    | ((fail_if_success (fail_if_success (apply Holds.probe; dsimp only))); apply Holds.mk0
        <;> first | exact .inl May.yes | exact .inr rfl | skip)

theorem State.raiseIrq_holds {s : State} {q : Nat} [May M .host] [May M .out] (h : Holds R M B s) :
    Holds R M B (State.raiseIrq s q) := by
  unfold State.raiseIrq
  with_reducible repeat' first
    | assumption | dsimp only | apply State.setQueue_holds | apply State.emit_holds | apply Holds.ite | split

theorem State.writeCompletion_holds {s : State} {q : Nat} {c : Completion} {irq : Bool} [May M .host] [May M .out] (h : Holds R M B s) :
    Holds R M B (State.writeCompletion s q c irq) := by
  unfold State.writeCompletion
  with_reducible repeat' first
    | assumption | dsimp only | apply State.setQueue_holds | apply State.emit_holds | apply State.raiseIrq_holds | apply Holds.ite
    | split

theorem State.writeWait_holds {s : State} {q : Nat} {w : CqWait} [May M .host] [May M .out] (h : Holds R M B s) :
    Holds R M B (State.writeWait s q w) := by
  unfold State.writeWait
  with_reducible repeat' first
    | assumption | dsimp only | apply State.setQueue_holds | apply State.writeCompletion_holds | apply Holds.ite | split

theorem State.putCompletion_holds {s : State} {q : Nat} {w : CqWait} [May M .host] [May M .out] (h : Holds R M B s) :
    Holds R M B (State.putCompletion s q w) := by
  unfold State.putCompletion
  with_reducible repeat' first
    | assumption | dsimp only | apply State.writeWait_holds | apply State.setQueue_holds | apply Holds.ite | split

theorem State.flushCq_holds {s : State} {q : Nat} {a2 : Nat} [May M .host] [May M .out] (h : Holds R M B s) :
    Holds R M B (State.flushCq s q a2) := by
  induction a2 generalizing s with
  | zero =>
    unfold State.flushCq
    with_reducible repeat' first
      | assumption | intro _ | dsimp only | apply State.writeWait_holds | apply State.setQueue_holds | apply Holds.ite
      | apply Holds.foldl | split
  | succ n ih =>
    unfold State.flushCq
    with_reducible repeat' first
      | assumption | intro _ | apply ih | dsimp only | apply State.writeWait_holds | apply State.setQueue_holds | apply Holds.ite
      | apply Holds.foldl | split

theorem State.complete_holds {s : State} {q : Nat} {i : Nat} {status : Nat} {detail : Nat} {resultLen : Nat} {flags : Nat} [May M .host] [May M .out] (h : Holds R M B s) :
    Holds R M B (State.complete s q i status detail resultLen flags) := by
  unfold State.complete
  with_reducible repeat' first
    | assumption | dsimp only | apply State.setQueue_holds | apply State.putCompletion_holds | split

theorem State.bareCompletion_holds {s : State} {q : Nat} {status : Nat} {detail : Nat} {grant : Nat} [May M .host] [May M .out] (h : Holds R M B s) :
    Holds R M B (State.bareCompletion s q status detail grant) := by
  unfold State.bareCompletion
  with_reducible repeat' first
    | assumption | dsimp only | apply State.putCompletion_holds

theorem State.stopQueue_holds {s : State} {q : Nat} {cause : Nat} [May M .host] [May M .rec_] (h : Holds R M B s) :
    Holds R M B (State.stopQueue s q cause) := by
  unfold State.stopQueue
  with_reducible repeat' first
    | assumption | dsimp only | apply State.raise_holds | apply State.setQueue_holds

theorem State.fetch_holds {s : State} {q : Nat} [May M .host] (h : Holds R M B s) : Holds R M B (State.fetch s q) := by
  unfold State.fetch
  with_reducible repeat' first
    | assumption | intro _ | dsimp only | apply State.setQueue_holds | apply Holds.ite | apply Holds.foldl | split

theorem State.pump_holds {s : State} {q : Nat} {a2 : Nat} [May M .host] [May M .rec_] [May M .out] (h : Holds R M B s) :
    Holds R M B (State.pump s q a2) := by
  induction a2 generalizing s with
  | zero =>
    unfold State.pump
    with_reducible repeat' first
      | assumption | intro _ | dsimp only | apply State.complete_holds | apply State.stopQueue_holds | apply Holds.ite
      | apply Holds.foldl | split
  | succ n ih =>
    unfold State.pump
    with_reducible repeat' first
      | assumption | intro _ | apply ih | dsimp only | apply State.complete_holds | apply State.stopQueue_holds | apply Holds.ite
      | apply Holds.foldl | split

theorem State.fetchAndPump_holds {s : State} {q : Nat} [May M .host] [May M .rec_] [May M .out] (h : Holds R M B s) :
    Holds R M B (State.fetchAndPump s q) := by
  unfold State.fetchAndPump
  with_reducible repeat' first
    | assumption | dsimp only | apply State.fetch_holds | apply State.pump_holds

theorem State.authorise_holds {s : State} {d : Desc} {role : Option Nat} [May M .host] [May M .rec_] [May M .free] (h : Holds R M B s) :
    Holds R M B (State.authorise s d role).1 := by
  unfold State.authorise
  with_reducible repeat' first
    | assumption | dsimp only
    | ((fail_if_success (fail_if_success (apply Holds.probe; dsimp only))); apply Holds.mk0
        <;> first | exact .inl May.yes | exact .inr rfl | skip)
    | apply State.raise_holds | apply State.draw_holds | apply Holds.ite | apply Holds.fst_ite | split

theorem State.runHead_holds {s : State} {q : Nat} {role : Option Nat} {own : State → Desc → Verdict} [May M .host] [May M .rec_] [May M .out] [May M .free] (hown : ∀ y0 y1, Holds R M B y0 → HoldsV R M B (own y0 y1)) (h : Holds R M B s) :
    Holds R M B (State.runHead s q role own) := by
  unfold State.runHead
  with_reducible repeat' first
    | assumption | dsimp only | apply State.authorise_holds | apply State.fetchAndPump_holds | apply State.complete_holds
    | apply State.emit_holds | apply Holds.ite | apply hown | refine Holds.of_fst ‹_› ?_ | refine HoldsV.of_refuseAs ‹_› ?_
    | refine HoldsV.of_accept ‹_› ?_ | refine HoldsV.of_acceptRead ‹_› ?_ | split

theorem State.hostRow_holds {s : State} {q : Nat} {op : Nat} {sel : Desc → Bool} {own : State → Desc → Verdict} [May M .host] [May M .rec_] [May M .out] [May M .free] (hown : ∀ y0 y1, Holds R M B y0 → HoldsV R M B (own y0 y1)) (h : Holds R M B s) :
    Holds R M B (State.hostRow s q op sel own) := by
  unfold State.hostRow
  with_reducible repeat' first
    | assumption | intro _ | dsimp only | apply State.runHead_holds | apply HoldsV.refuse | apply HoldsV.ite | apply Holds.ite
    | apply hown | refine HoldsV.of_refuseAs ‹_› ?_ | refine HoldsV.of_accept ‹_› ?_ | refine HoldsV.of_acceptRead ‹_› ?_ | split

theorem State.acceptBoth2_holds {s : State} {w : WaitCmd} {at_ : Nat} [May M .host] (h : Holds R M B s) :
    Holds R M B (State.acceptBoth2 s w at_) := by
  unfold State.acceptBoth2
  with_reducible repeat' first
    | assumption | dsimp only
    | ((fail_if_success (fail_if_success (apply Holds.probe; dsimp only))); apply Holds.mk0
        <;> first | exact .inl May.yes | exact .inr rfl | skip)

theorem State.acceptBoth_holds {s : State} {c : Cmd} [May M .host] [May M .twin] [May M .out] (h : Holds R M B s) :
    Holds R M B (State.acceptBoth s c).1 := by
  unfold State.acceptBoth
  with_reducible repeat' first
    | assumption | dsimp only
    | ((fail_if_success (fail_if_success (apply Holds.probe; dsimp only))); apply Holds.mk0
        <;> first | exact .inl May.yes | exact .inr rfl | skip)
    | apply State.pairSend_holds | apply State.acceptBoth2_holds | apply Holds.ite | apply Holds.fst_ite | split

theorem State.peerBoth_holds {s : State} {c : Cmd} {at_ : Nat} [May M .host] (h : Holds R M B s) :
    Holds R M B (State.peerBoth s c at_) := by
  unfold State.peerBoth
  with_reducible repeat' first
    | assumption | dsimp only
    | ((fail_if_success (fail_if_success (apply Holds.probe; dsimp only))); apply Holds.mk0
        <;> first | exact .inl May.yes | exact .inr rfl | skip)
    | apply State.acceptBoth2_holds | split

theorem State.acceptForwarded_holds {s : State} {c : Cmd} {source : Nat} [May M .host] [May M .twin] [May M .out] (h : Holds R M B s) :
    Holds R M B (State.acceptForwarded s c source) := by
  unfold State.acceptForwarded
  with_reducible repeat' first
    | assumption | dsimp only
    | ((fail_if_success (fail_if_success (apply Holds.probe; dsimp only))); apply Holds.mk0
        <;> first | exact .inl May.yes | exact .inr rfl | skip)
    | apply State.pairSend_holds | apply Holds.ite | split

theorem State.forward_holds {s : State} {c : Cmd} {source : Nat} {act : State → State} [May M .host] [May M .twin] [May M .out] (hact : ∀ y0, Holds R M B y0 → Holds R M B (act y0)) (h : Holds R M B s) :
    Holds R M B (State.forward s c source act) := by
  unfold State.forward
  with_reducible repeat' first
    | assumption | dsimp only | apply State.acceptForwarded_holds | apply Holds.ite | apply hact | split

theorem State.expireBoth_holds {s : State} {sel : Cmd → Bool} {e : EvDef} {args : Cmd → List Int} [May M .time] [May M .host] [May M .rec_] (h : Holds R M B s) :
    Holds R M B (State.expireBoth s sel e args) := by
  unfold State.expireBoth
  with_reducible repeat' first
    | assumption | dsimp only
    | ((fail_if_success (fail_if_success (apply Holds.probe; dsimp only))); apply Holds.mk0
        <;> first | exact .inl May.yes | exact .inr rfl | skip)
    | apply State.advance_holds | apply State.raise_holds | split

theorem State.setBacklog_holds {s : State} {cls : Nat} {f : Backlog → Backlog} [May M .host] (h : Holds R M B s) :
    Holds R M B (State.setBacklog s cls f) := by
  unfold State.setBacklog
  with_reducible repeat' first
    | assumption | dsimp only
    | ((fail_if_success (fail_if_success (apply Holds.probe; dsimp only))); apply Holds.mk0
        <;> first | exact .inl May.yes | exact .inr rfl | skip)

theorem State.fill_holds {s : State} {q : Nat} {a2 : Nat} [May M .host] [May M .rec_] [May M .out] (h : Holds R M B s) :
    Holds R M B (State.fill s q a2) := by
  induction a2 generalizing s with
  | zero =>
    unfold State.fill
    with_reducible repeat' first
      | assumption | intro _ | dsimp only | apply State.complete_holds | apply State.fetchAndPump_holds | apply State.setBacklog_holds
      | apply State.setQueue_holds | apply State.emit_holds | apply Holds.ite | apply Holds.foldl | split
  | succ n ih =>
    unfold State.fill
    with_reducible repeat' first
      | assumption | intro _ | apply ih | dsimp only | apply State.complete_holds | apply State.fetchAndPump_holds
      | apply State.setBacklog_holds | apply State.setQueue_holds | apply State.emit_holds | apply Holds.ite | apply Holds.foldl
      | split

theorem State.fillAll_holds {s : State} {q : Nat} [May M .host] [May M .rec_] [May M .out] (h : Holds R M B s) :
    Holds R M B (State.fillAll s q) := by
  unfold State.fillAll
  with_reducible repeat' first
    | assumption | dsimp only | apply State.fill_holds

theorem State.release_holds {s : State} {cls : Nat} {r : StreamRec} [May M .host] [May M .rec_] [May M .out] (h : Holds R M B s) :
    Holds R M B (State.release s cls r) := by
  unfold State.release
  with_reducible repeat' first
    | assumption | dsimp only | apply State.setBacklog_holds | apply State.fillAll_holds | apply Holds.ite | split

theorem State.formClass_holds {s : State} {cls : Nat} [May M .chain] (h : Holds R M B s) :
    Holds R M B (State.formClass s cls) := by
  unfold State.formClass
  with_reducible repeat' first
    | assumption | dsimp only
    | ((fail_if_success (fail_if_success (apply Holds.probe; dsimp only))); apply Holds.mk0
        <;> first | exact .inl May.yes | exact .inr rfl | skip)

theorem State.takeClass_holds {s : State} {cls : Nat} [May M .chain] [May M .time] [May M .twin] (h : Holds R M B s) :
    Holds R M B (State.takeClass s cls) := by
  unfold State.takeClass
  with_reducible repeat' first
    | assumption | intro _ | dsimp only
    | ((fail_if_success (fail_if_success (apply Holds.probe; dsimp only))); apply Holds.mk0
        <;> first | exact .inl May.yes | exact .inr rfl | skip)
    | apply State.onTwin_holds | apply State.formClass_holds | apply Holds.ite | split

theorem State.formIdentity_holds {s : State} [May M .chain] [May M .time] [May M .twin] (h : Holds R M B s) :
    Holds R M B (State.formIdentity s) := by
  unfold State.formIdentity
  with_reducible repeat' first
    | assumption | dsimp only | apply State.formClass_holds | apply State.takeClass_holds | apply Holds.ite | split

theorem takeAci_holds {a : Aci} {s : State} [May M .chain] [May M .time] [May M .twin] [May M .rec_] (h : Holds R M B s) :
    Holds R M B (takeAci a s) := by
  unfold takeAci
  with_reducible repeat' first
    | assumption | dsimp only
    | ((fail_if_success (fail_if_success (apply Holds.probe; dsimp only))); apply Holds.mk0
        <;> first | exact .inl May.yes | exact .inr rfl | skip)
    | apply State.raise_holds | apply State.formIdentity_holds | apply Holds.ite | split

theorem execAciAddressFrame_holds {a : Aci} {s : State} [May M .chain] [May M .time] [May M .twin] [May M .rec_] (h : Holds R M B s) :
    HoldsR R M B (execAciAddressFrame a s) := by
  unfold execAciAddressFrame
  with_reducible repeat' first
    | assumption | dsimp only | apply HoldsR.next | apply takeAci_holds

theorem execAcoSend_holds {s : State} [May M .out] (h : Holds R M B s) : HoldsR R M B (execAcoSend s) := by
  unfold execAcoSend
  with_reducible repeat' first
    | assumption | dsimp only | apply HoldsR.next | apply State.emit_holds | apply Holds.ite | split

theorem execAciLost_holds {s : State} [May M .chain] [May M .time] [May M .twin] [May M .rec_] (h : Holds R M B s) :
    HoldsR R M B (execAciLost s) := by
  unfold execAciLost
  with_reducible repeat' first
    | assumption | dsimp only
    | ((fail_if_success (fail_if_success (apply Holds.probe; dsimp only))); apply Holds.mk0
        <;> first | exact .inl May.yes | exact .inr rfl | skip)
    | apply HoldsR.next | apply State.raise_holds | apply State.formIdentity_holds | apply Holds.ite | split

theorem execAddress_holds {q : Fin 32} {s : State} [May M .chain] [May M .time] [May M .host] [May M .twin] [May M .rec_] [May M .out] [May M .free] (h : Holds R M B s) :
    HoldsR R M B (execAddress q s) := by
  unfold execAddress
  with_reducible repeat' first
    | assumption | intro _ | dsimp only
    | ((fail_if_success (fail_if_success (apply Holds.probe; dsimp only))); apply Holds.mk0
        <;> first | exact .inl May.yes | exact .inr rfl | skip)
    | apply HoldsR.next | apply State.hostRow_holds | apply State.formIdentity_holds | apply HoldsV.refuse | apply HoldsV.accept
    | apply HoldsV.ite | apply Holds.ite | split

theorem State.onLine_holds {s : State} {r : Nat} {f : RingLine → RingLine} [May M .ring] (h : Holds R M B s) :
    Holds R M B (State.onLine s r f) := by
  unfold State.onLine
  with_reducible repeat' first
    | assumption | dsimp only
    | ((fail_if_success (fail_if_success (apply Holds.probe; dsimp only))); apply Holds.mk0
        <;> first | exact .inl May.yes | exact .inr rfl | skip)

theorem State.ringService_holds {s : State} {r : Nat} {e : End} {type : Nat} {first : Nat} {fields : List Int} [May M .out] (h : Holds R M B s) :
    Holds R M B (State.ringService s r e type first fields) := by
  unfold State.ringService
  with_reducible repeat' first
    | assumption | dsimp only | apply State.emit_holds

theorem State.unlisted_holds {s : State} {r : Nat} {p : Nat} {k : Nat} [May M .ring] [May M .rec_] (h : Holds R M B s) :
    Holds R M B (State.unlisted s r p k) := by
  unfold State.unlisted
  with_reducible repeat' first
    | assumption | intro _ | dsimp only | apply State.raise_holds | apply State.onStation_holds | apply Holds.ite | split

theorem State.partsFirmware_holds {s : State} [May M .ring] [May M .rec_] [May M .out] (h : Holds R M B s) :
    Holds R M B (State.partsFirmware s) := by
  unfold State.partsFirmware
  with_reducible repeat' first
    | assumption | intro _ | dsimp only | apply State.ringService_holds | apply State.unlisted_holds | apply Holds.ite
    | apply Holds.foldl | split

theorem State.takeSegment_holds {s : State} {k : Nat} {b : List Byte} [May M .ring] (h : Holds R M B s) :
    Holds R M B (State.takeSegment s k b) := by
  unfold State.takeSegment
  with_reducible repeat' first
    | assumption | intro _ | dsimp only
    | ((fail_if_success (fail_if_success (apply Holds.probe; dsimp only))); apply Holds.mk0
        <;> first | exact .inl May.yes | exact .inr rfl | skip)
    | apply State.command_holds | apply State.onStation_holds | apply Holds.ite | apply Holds.foldl | split

theorem State.takeMessage_holds {s : State} {k : Nat} {msg : Nat} [May M .ring] (h : Holds R M B s) :
    Holds R M B (State.takeMessage s k msg).1 := by
  unfold State.takeMessage
  with_reducible repeat' first
    | assumption | dsimp only
    | ((fail_if_success (fail_if_success (apply Holds.probe; dsimp only))); apply Holds.mk0
        <;> first | exact .inl May.yes | exact .inr rfl | skip)
    | split

theorem State.stationStart_holds {s : State} {k : Nat} [May M .ring] [May M .out] (h : Holds R M B s) :
    Holds R M B (State.stationStart s k) := by
  unfold State.stationStart
  with_reducible repeat' first
    | assumption | intro _ | dsimp only | apply State.ringService_holds | apply State.onStation_holds | apply Holds.ite | split

theorem State.putLate_holds {s : State} {k : Nat} {at_ : Nat} {prim : Option Prim} {sec : Option Sec} {from_ : Nat} [May M .ring] (h : Holds R M B s) :
    Holds R M B (State.putLate s k at_ prim sec from_) := by
  unfold State.putLate
  with_reducible repeat' first
    | assumption | dsimp only
    | ((fail_if_success (fail_if_success (apply Holds.probe; dsimp only))); apply Holds.mk0
        <;> first | exact .inl May.yes | exact .inr rfl | skip)
    | apply Holds.ite | split

theorem State.putAfter_holds {s : State} {w : Sweep} {k : Nat} {prim : Option Prim} {sec : Option Sec} {from_ : Nat} [May M .ring] (h : Holds R M B s) :
    Holds R M B (State.putAfter s w k prim sec from_) := by
  unfold State.putAfter
  with_reducible repeat' first
    | assumption | intro _ | dsimp only | apply State.onRing_holds | apply Holds.ite | split

theorem State.putResult_holds {s : State} {k : Nat} {at_ : Nat} {prim : Option Prim} {sec : Option Sec} {late : Bool} {keep : Bool} {receipt : Nat} [May M .ring] (h : Holds R M B s) :
    Holds R M B (State.putResult s k at_ prim sec late keep receipt) := by
  unfold State.putResult
  with_reducible repeat' first
    | assumption | intro _ | dsimp only | apply State.putLate_holds | apply State.putAfter_holds | apply State.onRing_holds
    | apply Holds.ite | split

theorem State.takeSlot_holds {s : State} {r : Nat} {p : Nat} {grid : Nat} {late : Bool} {keep : Bool} {receipt : Nat} {b : List Byte} [May M .ring] [May M .rec_] [May M .out] (h : Holds R M B s) :
    Holds R M B (State.takeSlot s r p grid late keep receipt b) := by
  unfold State.takeSlot
  with_reducible repeat' first
    | assumption | intro _ | dsimp only | apply State.onLine_holds | apply State.raise_holds | apply State.onStation_holds
    | apply State.stationStart_holds | apply State.putResult_holds | apply State.takeSegment_holds | apply Holds.ite | split

theorem State.degrade_holds {s : State} {r : Nat} {reachA : Nat} {reachB : Nat} [May M .ring] [May M .rec_] (h : Holds R M B s) :
    Holds R M B (State.degrade s r reachA reachB) := by
  unfold State.degrade
  with_reducible repeat' first
    | assumption | intro _ | dsimp only | apply State.onLine_holds | apply State.raise_holds | apply Holds.ite | split

theorem State.breakUnplaced_holds {s : State} {r : Nat} [May M .ring] (h : Holds R M B s) :
    Holds R M B (State.breakUnplaced s r) := by
  unfold State.breakUnplaced
  with_reducible repeat' first
    | assumption | intro _ | dsimp only | apply State.onLine_holds | apply Holds.ite | split

theorem State.onLedger_holds {s : State} {f : Ledger → Ledger} [May M .ledger] (h : Holds R M B s) :
    Holds R M B (State.onLedger s f) := by
  unfold State.onLedger
  with_reducible repeat' first
    | assumption | dsimp only
    | ((fail_if_success (fail_if_success (apply Holds.probe; dsimp only))); apply Holds.mk0
        <;> first | exact .inl May.yes | exact .inr rfl | skip)

theorem State.ledgerRecord_holds {s : State} {time : Nat} {type : Nat} {len : Nat} {n : Nat} {body : List Int} [May M .ledger] (h : Holds R M B s) :
    Holds R M B (State.ledgerRecord s time type len n body) := by
  unfold State.ledgerRecord
  with_reducible repeat' first
    | assumption | intro _ | dsimp only | apply State.onLedger_holds

theorem State.bookMarker_holds {s : State} {code : Nat} {arg : Nat} {old : Nat} {note : List Int} [May M .ledger] (h : Holds R M B s) :
    Holds R M B (State.bookMarker s code arg old note) := by
  unfold State.bookMarker
  with_reducible repeat' first
    | assumption | intro _ | dsimp only | apply State.ledgerRecord_holds | apply State.onLedger_holds | apply Holds.ite | split

theorem State.bookSweep_holds {s : State} {path : Nat} {nC : Int} {deferred : Bool} {upTo : Nat} [May M .est] [May M .ledger] (h : Holds R M B s) :
    Holds R M B (State.bookSweep s path nC deferred upTo) := by
  unfold State.bookSweep
  with_reducible repeat' first
    | assumption | intro _ | dsimp only | apply State.onLedger_holds | apply State.onEst_holds | apply Holds.ite | split

theorem State.extraAll_holds {s : State} {nC : Int} [May M .est] (h : Holds R M B s) : Holds R M B (State.extraAll s nC) := by
  unfold State.extraAll
  with_reducible repeat' first
    | assumption | intro _ | dsimp only | apply State.onEst_holds

theorem State.bookPath_holds {s : State} {kind : Nat} {old : Nat} {new : Nat} {nC : Int} {fromT : Nat} [May M .est] [May M .ledger] [May M .rec_] (h : Holds R M B s) :
    Holds R M B (State.bookPath s kind old new nC fromT) := by
  unfold State.bookPath
  with_reducible repeat' first
    | assumption | intro _ | dsimp only | apply State.raise_holds | apply State.onLedger_holds | apply State.extraAll_holds
    | apply State.ledgerRecord_holds

theorem State.bookUnobserved_holds {s : State} {cause : Nat} {lower : Int} {upper : Int} {fromT : Nat} [May M .est] [May M .ledger] [May M .rec_] (h : Holds R M B s) :
    Holds R M B (State.bookUnobserved s cause lower upper fromT) := by
  unfold State.bookUnobserved
  with_reducible repeat' first
    | assumption | intro _ | dsimp only | apply State.raise_holds | apply State.onLedger_holds | apply State.onEst_holds
    | apply State.ledgerRecord_holds

theorem State.balDiff_holds {s : State} {c : Nat} {mC : Int} [May M .est] (h : Holds R M B s) :
    Holds R M B (State.balDiff s c mC) := by
  unfold State.balDiff
  with_reducible repeat' first
    | assumption | dsimp only
    | ((fail_if_success (fail_if_success (apply Holds.probe; dsimp only))); apply Holds.mk0
        <;> first | exact .inl May.yes | exact .inr rfl | skip)

theorem State.impliedFrom_holds {s : State} {c : Nat} [May M .est] (h : Holds R M B s) : Holds R M B (State.impliedFrom s c) := by
  unfold State.impliedFrom
  with_reducible repeat' first
    | assumption | dsimp only
    | ((fail_if_success (fail_if_success (apply Holds.probe; dsimp only))); apply Holds.mk0
        <;> first | exact .inl May.yes | exact .inr rfl | skip)

theorem State.bookBalance_holds {s : State} {k : Nat} {kind : Nat} {amounts : List Int} {extra : Int} [May M .ledger] (h : Holds R M B s) :
    Holds R M B (State.bookBalance s k kind amounts extra) := by
  unfold State.bookBalance
  with_reducible repeat' first
    | assumption | intro _ | dsimp only | apply State.onLedger_holds | apply State.ledgerRecord_holds | apply Holds.ite
    | apply Holds.foldl | split

theorem State.bookBalEntry_holds {s : State} {e : BalEntry} [May M .est] [May M .ledger] (h : Holds R M B s) :
    Holds R M B (State.bookBalEntry s e) := by
  unfold State.bookBalEntry
  with_reducible repeat' first
    | assumption | intro _ | dsimp only | apply State.onLedger_holds | apply State.balDiff_holds | apply State.bookBalance_holds
    | apply State.impliedFrom_holds | apply Holds.ite | apply Holds.foldl | split

theorem State.keepBaselines_holds {s : State} {w : Sweep} [May M .ledger] (h : Holds R M B s) :
    Holds R M B (State.keepBaselines s w) := by
  unfold State.keepBaselines
  with_reducible repeat' first
    | assumption | intro _ | dsimp only | apply State.onLedger_holds | split

theorem State.keepLate_holds {s : State} [May M .ledger] (h : Holds R M B s) : Holds R M B (State.keepLate s) := by
  unfold State.keepLate
  with_reducible repeat' first
    | assumption | intro _ | dsimp only | apply State.keepBaselines_holds | apply Holds.foldl

theorem State.markSweep_holds {s : State} {at_ : Nat} [May M .ledger] (h : Holds R M B s) :
    Holds R M B (State.markSweep s at_) := by
  unfold State.markSweep
  with_reducible repeat' first
    | assumption | intro _ | dsimp only | apply State.onLedger_holds

theorem State.bookStation.bookOn_holds {w : Sweep} {i : Nat} {r : Baseline} {s : State} [May M .est] [May M .ledger] [May M .rec_] (h : Holds R M B s) :
    Holds R M B (State.bookStation.bookOn w i r s) := by
  unfold State.bookStation.bookOn
  with_reducible repeat' first
    | assumption | intro _ | dsimp only | apply State.onLedger_holds | apply State.bookSweep_holds | apply State.bookUnobserved_holds
    | apply Holds.ite | split

theorem State.bookStation_holds {s : State} {w : Sweep} {i : Nat} {r : Baseline} [May M .est] [May M .ledger] [May M .rec_] (h : Holds R M B s) :
    Holds R M B (State.bookStation s w i r) := by
  unfold State.bookStation
  with_reducible repeat' first
    | assumption | intro _ | dsimp only | apply State.onLedger_holds | apply State.bookPath_holds
    | apply State.bookStation.bookOn_holds | apply Holds.ite | split

theorem State.bookFluxgate_holds {s : State} {w : Sweep} [May M .est] [May M .ledger] [May M .rec_] (h : Holds R M B s) :
    Holds R M B (State.bookFluxgate s w) := by
  unfold State.bookFluxgate
  with_reducible repeat' first
    | assumption | intro _ | dsimp only | apply State.onLedger_holds | apply State.bookUnobserved_holds | apply State.bookSweep_holds
    | apply Holds.ite | split

theorem State.promiseIs_holds {s : State} {now : List Bool} [May M .ledger] [May M .rec_] (h : Holds R M B s) :
    Holds R M B (State.promiseIs s now) := by
  unfold State.promiseIs
  with_reducible repeat' first
    | assumption | intro _ | dsimp only | apply State.raise_holds | apply State.onLedger_holds | apply Holds.ite | apply Holds.foldl
    | split

theorem State.bookBalances_holds {s : State} [May M .est] [May M .ledger] (h : Holds R M B s) :
    Holds R M B (State.bookBalances s) := by
  unfold State.bookBalances
  with_reducible repeat' first
    | assumption | intro _ | dsimp only | apply State.onLedger_holds | apply State.bookBalEntry_holds | apply Holds.foldl

theorem State.holdBaseline_holds {s : State} {p : Nat} [May M .ledger] (h : Holds R M B s) :
    Holds R M B (State.holdBaseline s p) := by
  unfold State.holdBaseline
  with_reducible repeat' first
    | assumption | intro _ | dsimp only | apply State.onLedger_holds | apply Holds.ite | split

theorem State.bookString_holds {s : State} {w : Sweep} {p : Nat} [May M .est] [May M .ledger] [May M .rec_] (h : Holds R M B s) :
    Holds R M B (State.bookString s w p) := by
  unfold State.bookString
  with_reducible repeat' first
    | assumption | intro _ | dsimp only | apply State.holdBaseline_holds | apply State.onLedger_holds | apply State.bookFluxgate_holds
    | apply State.bookStation_holds | apply Holds.ite | split

theorem State.ledgerString_holds {s : State} {w : Sweep} [May M .est] [May M .ledger] [May M .rec_] (h : Holds R M B s) :
    Holds R M B (State.ledgerString s w) := by
  unfold State.ledgerString
  with_reducible repeat' first
    | assumption | intro _ | dsimp only | apply State.markSweep_holds | apply State.onEst_holds | apply State.keepLate_holds
    | apply State.keepBaselines_holds | apply State.promiseIs_holds | apply State.onLedger_holds | apply State.bookString_holds
    | apply Holds.ite | split

theorem State.bookJudgement_holds {s : State} {old : Nat} {new : Nat} [May M .est] [May M .ledger] [May M .rec_] (h : Holds R M B s) :
    Holds R M B (State.bookJudgement s old new) := by
  unfold State.bookJudgement
  with_reducible repeat' first
    | assumption | dsimp only | apply State.bookPath_holds | split

theorem State.releaseRecs_holds {s : State} {rs : List LedgerRec} [May M .ledger] [May M .host] [May M .rec_] [May M .out] (h : Holds R M B s) :
    Holds R M B (State.releaseRecs s rs) := by
  unfold State.releaseRecs
  with_reducible repeat' first
    | assumption | intro _ | dsimp only | apply State.onLedger_holds | apply State.release_holds | apply State.setBacklog_holds
    | apply State.bookMarker_holds | apply Holds.foldl | split

theorem State.freezeSecond_holds {s : State} {ns : Nat} [May M .ledger] (h : Holds R M B s) :
    Holds R M B (State.freezeSecond s ns) := by
  unfold State.freezeSecond
  with_reducible repeat' first
    | assumption | intro _ | dsimp only | apply State.onLedger_holds | apply Holds.ite | split

theorem State.ledgerSweep_holds {s : State} {w : Sweep} [May M .est] [May M .ledger] [May M .rec_] (h : Holds R M B s) :
    Holds R M B (State.ledgerSweep s w) := by
  unfold State.ledgerSweep
  with_reducible repeat' first
    | assumption | dsimp only | apply State.ledgerString_holds | apply State.freezeSecond_holds | apply State.bookBalances_holds
    | apply Holds.ite | split

theorem State.openLedger_holds {s : State} {old : Nat} [May M .ledger] [May M .rec_] (h : Holds R M B s) :
    Holds R M B (State.openLedger s old) := by
  unfold State.openLedger
  with_reducible repeat' first
    | assumption | dsimp only
    | ((fail_if_success (fail_if_success (apply Holds.probe; dsimp only))); apply Holds.mk0
        <;> first | exact .inl May.yes | exact .inr rfl | skip)
    | apply State.raise_holds | apply State.bookMarker_holds

theorem State.onCell_holds {s : State} {c : Nat} {f : Cell → Cell} [May M .meas] (h : Holds R M B s) :
    Holds R M B (State.onCell s c f) := by
  unfold State.onCell
  with_reducible repeat' first
    | assumption | dsimp only
    | ((fail_if_success (fail_if_success (apply Holds.probe; dsimp only))); apply Holds.mk0
        <;> first | exact .inl May.yes | exact .inr rfl | skip)

theorem State.onStM_holds {s : State} {k : Nat} {f : StationM → StationM} [May M .meas] (h : Holds R M B s) :
    Holds R M B (State.onStM s k f) := by
  unfold State.onStM
  with_reducible repeat' first
    | assumption | dsimp only
    | ((fail_if_success (fail_if_success (apply Holds.probe; dsimp only))); apply Holds.mk0
        <;> first | exact .inl May.yes | exact .inr rfl | skip)

theorem State.onTap_holds {s : State} {k : Nat} {t : Nat} {f : Tap → Tap} [May M .meas] (h : Holds R M B s) :
    Holds R M B (State.onTap s k t f) := by
  unfold State.onTap
  with_reducible repeat' first
    | assumption | intro _ | dsimp only | apply State.onStM_holds

theorem State.markAside_holds {s : State} {w : Sweep} [May M .meas] (h : Holds R M B s) : Holds R M B (State.markAside s w) := by
  unfold State.markAside
  with_reducible repeat' first
    | assumption | intro _ | dsimp only
    | ((fail_if_success (fail_if_success (apply Holds.probe; dsimp only))); apply Holds.mk0
        <;> first | exact .inl May.yes | exact .inr rfl | skip)
    | apply Holds.ite | apply Holds.foldl | split

theorem State.showCells_holds {s : State} {w : Sweep} [May M .meas] (h : Holds R M B s) : Holds R M B (State.showCells s w) := by
  unfold State.showCells
  with_reducible repeat' first
    | assumption | dsimp only
    | ((fail_if_success (fail_if_success (apply Holds.probe; dsimp only))); apply Holds.mk0
        <;> first | exact .inl May.yes | exact .inr rfl | skip)
    | apply Holds.ite | split

theorem State.splitCheck_holds {s : State} {w : Sweep} [May M .meas] [May M .rec_] (h : Holds R M B s) :
    Holds R M B (State.splitCheck s w) := by
  unfold State.splitCheck
  with_reducible repeat' first
    | assumption | intro _ | dsimp only
    | ((fail_if_success (fail_if_success (apply Holds.probe; dsimp only))); apply Holds.mk0
        <;> first | exact .inl May.yes | exact .inr rfl | skip)
    | apply State.raise_holds | apply State.onTap_holds | apply Holds.ite | apply Holds.foldl | split

theorem State.lateRest_holds {s : State} {w : Sweep} [May M .meas] (h : Holds R M B s) : Holds R M B (State.lateRest s w) := by
  unfold State.lateRest
  with_reducible repeat' first
    | assumption | intro _ | dsimp only
    | ((fail_if_success (fail_if_success (apply Holds.probe; dsimp only))); apply Holds.mk0
        <;> first | exact .inl May.yes | exact .inr rfl | skip)
    | apply Holds.ite | apply Holds.foldl | split

theorem State.currentSweep_holds {s : State} {w : Sweep} [May M .meas] (h : Holds R M B s) :
    Holds R M B (State.currentSweep s w) := by
  unfold State.currentSweep
  with_reducible repeat' first
    | assumption | dsimp only
    | ((fail_if_success (fail_if_success (apply Holds.probe; dsimp only))); apply Holds.mk0
        <;> first | exact .inl May.yes | exact .inr rfl | skip)
    | apply State.lateRest_holds | apply Holds.ite | split

theorem State.cellSums_holds {s : State} {w : Sweep} [May M .meas] (h : Holds R M B s) : Holds R M B (State.cellSums s w) := by
  unfold State.cellSums
  with_reducible repeat' first
    | assumption | dsimp only
    | ((fail_if_success (fail_if_success (apply Holds.probe; dsimp only))); apply Holds.mk0
        <;> first | exact .inl May.yes | exact .inr rfl | skip)
    | apply Holds.ite | split

theorem State.measSweep_holds {s : State} {w : Sweep} [May M .meas] [May M .rec_] (h : Holds R M B s) :
    Holds R M B (State.measSweep s w) := by
  unfold State.measSweep
  with_reducible repeat' first
    | assumption | dsimp only
    | ((fail_if_success (fail_if_success (apply Holds.probe; dsimp only))); apply Holds.mk0
        <;> first | exact .inl May.yes | exact .inr rfl | skip)
    | apply State.markAside_holds | apply State.showCells_holds | apply State.cellSums_holds | apply State.currentSweep_holds
    | apply State.splitCheck_holds | apply Holds.ite | split

theorem State.balSweep_holds {s : State} {w : Sweep} [May M .ring] [May M .meas] (h : Holds R M B s) :
    Holds R M B (State.balSweep s w) := by
  unfold State.balSweep
  with_reducible repeat' first
    | assumption | intro _ | dsimp only
    | ((fail_if_success (fail_if_success (apply Holds.probe; dsimp only))); apply Holds.mk0
        <;> first | exact .inl May.yes | exact .inr rfl | skip)
    | apply State.command_holds | apply Holds.ite | apply Holds.foldl | split

theorem State.estLost_holds {s : State} [May M .est] (h : Holds R M B s) : Holds R M B (State.estLost s) := by
  unfold State.estLost
  with_reducible repeat' first
    | assumption | intro _ | dsimp only | apply State.onEst_holds | apply Holds.ite | split

theorem State.tellCores_holds {s : State} {old : List EstCell} {new : List EstCell} [May M .rec_] (h : Holds R M B s) :
    Holds R M B (State.tellCores s old new) := by
  unfold State.tellCores
  with_reducible repeat' first
    | assumption | dsimp only | apply State.raise_holds | apply Holds.ite | split

theorem State.estSweep_holds {s : State} {w : Sweep} [May M .est] [May M .rec_] (h : Holds R M B s) :
    Holds R M B (State.estSweep s w) := by
  unfold State.estSweep
  with_reducible repeat' first
    | assumption | intro _ | dsimp only | apply State.onEst_holds | apply State.tellCores_holds | apply State.raise_holds
    | apply Holds.ite | apply Holds.foldl | split

theorem State.impStart_holds {s : State} [May M .est] (h : Holds R M B s) : Holds R M B (State.impStart s) := by
  unfold State.impStart
  with_reducible repeat' first
    | assumption | intro _ | dsimp only | apply State.onImp_holds | apply Holds.ite | split

theorem State.impTick_holds {s : State} {g : Nat} [May M .ring] [May M .est] (h : Holds R M B s) :
    Holds R M B (State.impTick s g) := by
  unfold State.impTick
  with_reducible repeat' first
    | assumption | intro _ | dsimp only | apply State.onImp_holds | apply State.lockin_holds | apply Holds.ite | split

theorem State.impSweep_holds {s : State} {w : Sweep} [May M .est] (h : Holds R M B s) : Holds R M B (State.impSweep s w) := by
  unfold State.impSweep
  with_reducible repeat' first
    | assumption | intro _ | dsimp only | apply State.onImp_holds | apply Holds.ite | split

end Sys2Proof.Machine
end

