-- ==== Sys2Proof/Laws/KeepPower.lean ====
section
/-! SUPPORT. What is kept (Laws/Holds.lean) by the loops, the gate links and the stage, the dispatch and the plan: one lemma per operation and per command's meaning. -/
namespace Sys2Proof.Machine
variable {R : Bool} {M : Part → Bool} {B : State}

theorem State.onPhase_holds {s : State} {p : Nat} {f : PhaseLoop → PhaseLoop} [May M .loop] (h : Holds R M B s) :
    Holds R M B (State.onPhase s p f) := by
  unfold State.onPhase
  with_reducible repeat' first
    | assumption | intro _ | dsimp only | apply State.onLoop_holds

theorem State.onPhases_holds {s : State} {f : Nat → PhaseLoop → PhaseLoop} [May M .loop] (h : Holds R M B s) :
    Holds R M B (State.onPhases s f) := by
  unfold State.onPhases
  with_reducible repeat' first
    | assumption | intro _ | dsimp only | apply State.onLoop_holds

theorem State.onRx_holds {s : State} {p : Nat} {f : PhaseRx → PhaseRx} [May M .gate] (h : Holds R M B s) :
    Holds R M B (State.onRx s p f) := by
  unfold State.onRx
  with_reducible repeat' first
    | assumption | intro _ | dsimp only | apply State.onGate_holds

theorem State.onReceiver_holds {s : State} {l : Nat} {f : Receiver → Receiver} [May M .gate] (h : Holds R M B s) :
    Holds R M B (State.onReceiver s l f) := by
  unfold State.onReceiver
  with_reducible repeat' first
    | assumption | intro _ | dsimp only | apply State.onGate_holds

theorem State.spread_holds {s : State} {now : Nat → Bool} [May M .loop] (h : Holds R M B s) :
    Holds R M B (State.spread s now) := by
  unfold State.spread
  with_reducible repeat' first
    | assumption | intro _ | dsimp only | apply State.onPhases_holds | apply Holds.ite | split

theorem State.formLimits_holds {s : State} [May M .disp] (h : Holds R M B s) : Holds R M B (State.formLimits s) := by
  unfold State.formLimits
  with_reducible repeat' first
    | assumption | intro _ | dsimp only | apply State.onDisp_holds

theorem State.evenShares_holds {s : State} [May M .loop] (h : Holds R M B s) : Holds R M B (State.evenShares s) := by
  unfold State.evenShares
  with_reducible repeat' first
    | assumption | intro _ | dsimp only | apply State.onPhases_holds | apply Holds.ite | split

theorem State.fadeStep_holds {s : State} {p : Nat} [May M .loop] (h : Holds R M B s) : Holds R M B (State.fadeStep s p) := by
  unfold State.fadeStep
  with_reducible repeat' first
    | assumption | intro _ | dsimp only | apply State.onPhases_holds | apply Holds.ite | split

theorem State.shedProgress_holds {s : State} [May M .loop] [May M .rec_] (h : Holds R M B s) :
    Holds R M B (State.shedProgress s) := by
  unfold State.shedProgress
  with_reducible repeat' first
    | assumption | intro _ | dsimp only | apply State.spread_holds | apply State.evenShares_holds | apply State.onPhases_holds
    | apply State.onLoop_holds | apply State.raise_holds | apply Holds.ite | split

theorem State.restartPhase_holds {s : State} {p : Nat} [May M .loop] [May M .rec_] (h : Holds R M B s) :
    Holds R M B (State.restartPhase s p) := by
  unfold State.restartPhase
  with_reducible repeat' first
    | assumption | intro _ | dsimp only | apply State.raise_holds | apply State.onPhase_holds

theorem State.onDiag_holds {s : State} {e : Nat} {f : Diag → Diag} [May M .loop] (h : Holds R M B s) :
    Holds R M B (State.onDiag s e f) := by
  unfold State.onDiag
  with_reducible repeat' first
    | assumption | intro _ | dsimp only | apply State.onLoop_holds

theorem State.diagCycle_holds {s : State} {e : Nat} [May M .loop] (h : Holds R M B s) : Holds R M B (State.diagCycle s e) := by
  unfold State.diagCycle
  with_reducible repeat' first
    | assumption | intro _ | dsimp only | apply State.onDiag_holds | apply Holds.ite | split

theorem State.diagDeliver_holds {s : State} {e : Nat} [May M .loop] [May M .host] [May M .rec_] [May M .out] (h : Holds R M B s) :
    Holds R M B (State.diagDeliver s e) := by
  unfold State.diagDeliver
  with_reducible repeat' first
    | assumption | intro _ | dsimp only | apply State.release_holds | apply State.onDiag_holds | apply Holds.foldl

theorem State.diagAbort_holds {s : State} {e : Nat} [May M .loop] [May M .host] [May M .rec_] [May M .out] (h : Holds R M B s) :
    Holds R M B (State.diagAbort s e) := by
  unfold State.diagAbort
  with_reducible repeat' first
    | assumption | intro _ | dsimp only | apply State.diagDeliver_holds | apply State.onDiag_holds | split

theorem State.endInjections_holds {s : State} [May M .loop] [May M .host] [May M .rec_] [May M .out] (h : Holds R M B s) :
    Holds R M B (State.endInjections s) := by
  unfold State.endInjections
  with_reducible repeat' first
    | assumption | intro _ | dsimp only | apply State.diagAbort_holds | apply Holds.ite | apply Holds.foldl | split

theorem State.placeLine_holds {s : State} [May M .loop] (h : Holds R M B s) : Holds R M B (State.placeLine s) := by
  unfold State.placeLine
  with_reducible repeat' first
    | assumption | intro _ | dsimp only | apply State.onLoop_holds | apply Holds.ite | split

theorem State.droopStep_holds {s : State} [May M .loop] (h : Holds R M B s) : Holds R M B (State.droopStep s) := by
  unfold State.droopStep
  with_reducible repeat' first
    | assumption | intro _ | dsimp only | apply State.onLoop_holds | apply Holds.ite | split

theorem State.vltSwap_holds {s : State} [May M .loop] [May M .host] [May M .rec_] [May M .out] (h : Holds R M B s) :
    Holds R M B (State.vltSwap s) := by
  unfold State.vltSwap
  with_reducible repeat' first
    | assumption | intro _ | dsimp only | apply State.onLoop_holds | apply State.endInjections_holds | apply State.raise_holds
    | apply Holds.ite | split

theorem State.bankSwap_holds {s : State} [May M .loop] [May M .host] [May M .rec_] [May M .out] (h : Holds R M B s) :
    Holds R M B (State.bankSwap s) := by
  unfold State.bankSwap
  with_reducible repeat' first
    | assumption | intro _ | dsimp only | apply State.onLoop_holds | apply State.endInjections_holds | apply State.raise_holds
    | apply Holds.ite | split

theorem State.modeChange_holds {s : State} [May M .loop] [May M .host] [May M .rec_] [May M .out] (h : Holds R M B s) :
    Holds R M B (State.modeChange s) := by
  unfold State.modeChange
  with_reducible repeat' first
    | assumption | intro _ | dsimp only | apply State.onLoop_holds | apply State.endInjections_holds | apply Holds.ite | split

theorem State.demandSweep_holds {s : State} {w : Sweep} [May M .loop] [May M .host] [May M .rec_] [May M .out] (h : Holds R M B s) :
    Holds R M B (State.demandSweep s w) := by
  unfold State.demandSweep
  with_reducible repeat' first
    | assumption | intro _ | dsimp only | apply State.modeChange_holds | apply State.onLoop_holds | apply State.droopStep_holds
    | apply State.placeLine_holds | apply State.vltSwap_holds | apply State.diagCycle_holds | apply Holds.ite | split

theorem State.warmCheck_holds {s : State} {l : Nat} {f : StatusFrame} [May M .gate] [May M .rec_] (h : Holds R M B s) :
    Holds R M B (State.warmCheck s l f) := by
  unfold State.warmCheck
  with_reducible repeat' first
    | assumption | intro _ | dsimp only | apply State.raise_holds | apply State.onReceiver_holds | apply Holds.ite | split

theorem State.noteBus_holds {s : State} {l : Nat} {f : StatusFrame} [May M .loop] (h : Holds R M B s) :
    Holds R M B (State.noteBus s l f) := by
  unfold State.noteBus
  with_reducible repeat' first
    | assumption | intro _ | dsimp only | apply State.onLoop_holds | apply Holds.ite | split

theorem State.armedCheck_holds {s : State} [May M .gate] (h : Holds R M B s) : Holds R M B (State.armedCheck s) := by
  unfold State.armedCheck
  with_reducible repeat' first
    | assumption | intro _ | dsimp only | apply State.onGate_holds | apply Holds.ite | split

theorem State.telemSweep_holds {s : State} [May M .gate] (h : Holds R M B s) : Holds R M B (State.telemSweep s) := by
  unfold State.telemSweep
  with_reducible repeat' first
    | assumption | intro _ | dsimp only | apply State.onGate_holds | apply Holds.ite | split

theorem State.telemPeriod_holds {s : State} [May M .gate] (h : Holds R M B s) : Holds R M B (State.telemPeriod s) := by
  unfold State.telemPeriod
  with_reducible repeat' first
    | assumption | intro _ | dsimp only | apply State.onGate_holds | apply Holds.ite | split

theorem State.takeStatus_holds {s : State} {l : Nat} {f : StatusFrame} {receipt : Nat} [May M .ring] [May M .est] [May M .gate] [May M .loop] [May M .rec_] [May M .out] (h : Holds R M B s) :
    Holds R M B (State.takeStatus s l f receipt) := by
  unfold State.takeStatus
  with_reducible repeat' first
    | assumption | intro _ | dsimp only | apply State.onRx_holds | apply State.warmCheck_holds | apply State.noteBus_holds
    | apply State.onReceiver_holds | apply State.stageTrip_holds | apply State.restartPhase_holds | apply State.armedCheck_holds
    | apply State.telemPeriod_holds | apply Holds.ite | apply Holds.foldl | split

theorem State.noteDelay_holds {s : State} {l : Nat} {f : StatusFrame} {flight : Int} [May M .gate] (h : Holds R M B s) :
    Holds R M B (State.noteDelay s l f flight) := by
  unfold State.noteDelay
  with_reducible repeat' first
    | assumption | intro _ | dsimp only | apply State.onReceiver_holds | apply Holds.ite | split

theorem State.sendArm_holds {s : State} {clear : Bool} [May M .gate] [May M .out] (h : Holds R M B s) :
    Holds R M B (State.sendArm s clear) := by
  unfold State.sendArm
  with_reducible repeat' first
    | assumption | intro _ | dsimp only | apply State.onGate_holds | apply State.emitAll_holds

theorem State.noteNotReady_holds {s : State} [May M .gate] [May M .disp] (h : Holds R M B s) :
    Holds R M B (State.noteNotReady s) := by
  unfold State.noteNotReady
  with_reducible repeat' first
    | assumption | intro _ | dsimp only | apply State.onGate_holds | apply State.onDisp_holds

theorem State.stageEnable_holds {s : State} [May M .gate] (h : Holds R M B s) : Holds R M B (State.stageEnable s) := by
  unfold State.stageEnable
  with_reducible repeat' first
    | assumption | intro _ | dsimp only | apply State.onGate_holds | apply Holds.ite | split

theorem State.stageDisable_holds {s : State} [May M .ring] [May M .est] [May M .gate] [May M .rec_] (h : Holds R M B s) :
    Holds R M B (State.stageDisable s) := by
  unfold State.stageDisable
  with_reducible repeat' first
    | assumption | intro _ | dsimp only | apply State.onGate_holds | apply State.abandonRun_holds | split

theorem State.tripReset_holds {s : State} [May M .gate] [May M .out] (h : Holds R M B s) : Holds R M B (State.tripReset s) := by
  unfold State.tripReset
  with_reducible repeat' first
    | assumption | intro _ | dsimp only | apply State.onGate_holds | apply State.sendArm_holds | apply Holds.ite | split

theorem State.stageOp_holds {s : State} {op : Nat} [May M .ring] [May M .est] [May M .gate] [May M .rec_] [May M .out] (h : Holds R M B s) :
    Holds R M B (State.stageOp s op) := by
  unfold State.stageOp
  with_reducible repeat' first
    | assumption | dsimp only | apply State.stageEnable_holds | apply State.stageDisable_holds | apply State.stageTrip_holds
    | apply State.tripReset_holds | apply Holds.ite | split

theorem State.enterStopRamp_holds {s : State} [May M .gate] (h : Holds R M B s) : Holds R M B (State.enterStopRamp s) := by
  unfold State.enterStopRamp
  with_reducible repeat' first
    | assumption | intro _ | dsimp only | apply State.onGate_holds

theorem State.linkStart_holds {s : State} [May M .gate] [May M .loop] (h : Holds R M B s) : Holds R M B (State.linkStart s) := by
  unfold State.linkStart
  with_reducible repeat' first
    | assumption | intro _ | dsimp only | apply State.onPhases_holds | apply State.onGate_holds

theorem State.linkConfig_holds {s : State} {l : Nat} [May M .gate] [May M .out] (h : Holds R M B s) :
    Holds R M B (State.linkConfig s l) := by
  unfold State.linkConfig
  with_reducible repeat' first
    | assumption | intro _ | dsimp only | apply State.onReceiver_holds | apply State.emit_holds

theorem State.receiverLoaded_holds {s : State} {l : Nat} [May M .gate] [May M .out] (h : Holds R M B s) :
    Holds R M B (State.receiverLoaded s l) := by
  unfold State.receiverLoaded
  with_reducible repeat' first
    | assumption | intro _ | dsimp only | apply State.linkConfig_holds | apply State.onReceiver_holds | apply Holds.ite | split

theorem State.armBoundary_holds {s : State} [May M .gate] [May M .out] (h : Holds R M B s) :
    Holds R M B (State.armBoundary s) := by
  unfold State.armBoundary
  with_reducible repeat' first
    | assumption | intro _ | dsimp only | apply State.onGate_holds | apply State.sendArm_holds | apply Holds.ite | split

theorem State.rearmPeaks_holds {s : State} [May M .gate] (h : Holds R M B s) : Holds R M B (State.rearmPeaks s) := by
  unfold State.rearmPeaks
  with_reducible repeat' first
    | assumption | intro _ | dsimp only | apply State.onGate_holds

theorem State.faultCapture_holds {s : State} [May M .gate] (h : Holds R M B s) : Holds R M B (State.faultCapture s) := by
  unfold State.faultCapture
  with_reducible repeat' first
    | assumption | intro _ | dsimp only | apply State.onGate_holds | apply Holds.ite | split

theorem State.edgeRestart_holds {s : State} {p : Nat} {k : Nat} {shift : Nat} {drive : Bool} [May M .loop] (h : Holds R M B s) :
    Holds R M B (State.edgeRestart s p k shift drive) := by
  unfold State.edgeRestart
  with_reducible repeat' first
    | assumption | intro _ | dsimp only | apply State.evenShares_holds | apply State.onPhase_holds | apply Holds.ite | split

theorem State.edgeFrame_holds {s : State} {p : Nat} {k : Nat} {drive : Bool} {due : Bool} [May M .loop] [May M .out] (h : Holds R M B s) :
    Holds R M B (State.edgeFrame s p k drive due) := by
  unfold State.edgeFrame
  with_reducible repeat' first
    | assumption | intro _ | dsimp only | apply State.onPhase_holds | apply State.emit_holds | apply Holds.ite | split

theorem execEdgeRelease_holds {p : Fin 16} {s : State} [May M .time] [May M .loop] [May M .rec_] [May M .out] (h : Holds R M B s) :
    HoldsR R M B (execEdgeRelease p s) := by
  unfold execEdgeRelease
  with_reducible repeat' first
    | assumption | dsimp only | apply HoldsR.next | apply State.advance_holds | apply State.shedProgress_holds
    | apply State.edgeFrame_holds | apply State.edgeRestart_holds | apply Holds.ite | split

theorem execGateStatusReceived_holds {l : Fin 8} {bytes : List Byte} {flight : Int} {s : State} [May M .ring] [May M .est] [May M .gate] [May M .loop] [May M .twin] [May M .rec_] [May M .out] (h : Holds R M B s) :
    HoldsR R M B (execGateStatusReceived l bytes flight s) := by
  unfold execGateStatusReceived
  with_reducible repeat' first
    | assumption | dsimp only | apply HoldsR.next | apply State.takeStatus_holds | apply State.noteDelay_holds
    | apply State.pairSend_holds | apply Holds.ite | split

theorem execLinkLoss_holds {l : Fin 8} {s : State} [May M .time] [May M .ring] [May M .est] [May M .gate] [May M .rec_] [May M .out] (h : Holds R M B s) :
    HoldsR R M B (execLinkLoss l s) := by
  unfold execLinkLoss
  with_reducible repeat' first
    | assumption | dsimp only | apply HoldsR.next | apply State.stageTrip_holds | apply State.advance_holds | apply Holds.ite | split

theorem execLinkStart_holds {s : State} [May M .gate] [May M .loop] (h : Holds R M B s) : HoldsR R M B (execLinkStart s) := by
  unfold execLinkStart
  with_reducible repeat' first
    | assumption | dsimp only | apply HoldsR.next | apply State.linkStart_holds

theorem execReceiverIdent_holds {l : Fin 8} {i : Ident} {seen1 seen2 : Nat} {s : State} [May M .gate] [May M .rec_] [May M .out] (h : Holds R M B s) :
    HoldsR R M B (execReceiverIdent l i seen1 seen2 s) := by
  unfold execReceiverIdent
  with_reducible repeat' first
    | assumption | intro _ | dsimp only | apply HoldsR.next | apply State.onReceiver_holds | apply State.raise_holds
    | apply State.linkConfig_holds | apply State.emit_holds | apply Holds.ite | split

theorem execStationFwLoadDone_holds {gate : Bool} {n : Fin 8} {version : Word} {s : State} [May M .ring] [May M .gate] [May M .out] (h : Holds R M B s) :
    HoldsR R M B (execStationFwLoadDone gate n version s) := by
  unfold execStationFwLoadDone
  with_reducible repeat' first
    | assumption | intro _ | dsimp only | apply HoldsR.next | apply State.receiverLoaded_holds | apply State.onRing_holds
    | apply Holds.ite | split

theorem execGateDelayUpdate_holds {second : Nat} {s : State} [May M .time] [May M .gate] [May M .out] (h : Holds R M B s) :
    HoldsR R M B (execGateDelayUpdate second s) := by
  unfold execGateDelayUpdate
  with_reducible repeat' first
    | assumption | intro _ | dsimp only | apply HoldsR.next | apply State.advance_holds | apply State.emit_holds
    | apply State.onReceiver_holds | apply Holds.ite | apply Holds.foldl | split

theorem State.stageRow_holds {s : State} {q : Nat} {op : Nat} [May M .ring] [May M .est] [May M .gate] [May M .disp] [May M .host] [May M .twin] [May M .rec_] [May M .out] [May M .free] (h : Holds R M B s) :
    Holds R M B (State.stageRow s q op) := by
  unfold State.stageRow
  with_reducible repeat' first
    | assumption | intro _ | dsimp only | apply State.hostRow_holds | apply State.forward_holds | apply State.onDisp_holds
    | apply State.stageOp_holds | apply State.noteNotReady_holds | apply HoldsV.accept | apply HoldsV.refuseAs | apply HoldsV.ite
    | apply Holds.ite | split

theorem execStageEnable_holds {q : Fin 32} {s : State} [May M .ring] [May M .est] [May M .gate] [May M .disp] [May M .host] [May M .twin] [May M .rec_] [May M .out] [May M .free] (h : Holds R M B s) :
    HoldsR R M B (execStageEnable q s) := by
  unfold execStageEnable
  with_reducible repeat' first
    | assumption | dsimp only | apply HoldsR.next | apply State.stageRow_holds

theorem execStageDisable_holds {q : Fin 32} {s : State} [May M .ring] [May M .est] [May M .gate] [May M .disp] [May M .host] [May M .twin] [May M .rec_] [May M .out] [May M .free] (h : Holds R M B s) :
    HoldsR R M B (execStageDisable q s) := by
  unfold execStageDisable
  with_reducible repeat' first
    | assumption | dsimp only | apply HoldsR.next | apply State.stageRow_holds

theorem execStageTripCommand_holds {q : Fin 32} {s : State} [May M .ring] [May M .est] [May M .gate] [May M .disp] [May M .host] [May M .twin] [May M .rec_] [May M .out] [May M .free] (h : Holds R M B s) :
    HoldsR R M B (execStageTripCommand q s) := by
  unfold execStageTripCommand
  with_reducible repeat' first
    | assumption | dsimp only | apply HoldsR.next | apply State.stageRow_holds

theorem execStageTripReset_holds {q : Fin 32} {s : State} [May M .ring] [May M .est] [May M .gate] [May M .disp] [May M .host] [May M .twin] [May M .rec_] [May M .out] [May M .free] (h : Holds R M B s) :
    HoldsR R M B (execStageTripReset q s) := by
  unfold execStageTripReset
  with_reducible repeat' first
    | assumption | dsimp only | apply HoldsR.next | apply State.stageRow_holds

theorem execStartDelayEnd_holds {s : State} [May M .time] [May M .gate] [May M .loop] (h : Holds R M B s) :
    HoldsR R M B (execStartDelayEnd s) := by
  unfold execStartDelayEnd
  with_reducible repeat' first
    | assumption | intro _ | dsimp only | apply HoldsR.next | apply State.advance_holds | apply State.onPhases_holds
    | apply State.onGate_holds | apply State.onLoop_holds | apply State.spread_holds | apply State.evenShares_holds | split

theorem execStopDelayEnd_holds {s : State} [May M .time] [May M .gate] (h : Holds R M B s) :
    HoldsR R M B (execStopDelayEnd s) := by
  unfold execStopDelayEnd
  with_reducible repeat' first
    | assumption | dsimp only | apply HoldsR.next | apply State.enterStopRamp_holds | apply State.advance_holds | split

theorem execStopRampEnd_holds {s : State} [May M .gate] (h : Holds R M B s) : HoldsR R M B (execStopRampEnd s) := by
  unfold execStopRampEnd
  with_reducible repeat' first
    | assumption | intro _ | dsimp only | apply HoldsR.next | apply State.onGate_holds | apply Holds.ite | split

theorem execStageStopForced_holds {s : State} [May M .time] [May M .gate] [May M .rec_] (h : Holds R M B s) :
    HoldsR R M B (execStageStopForced s) := by
  unfold execStageStopForced
  with_reducible repeat' first
    | assumption | intro _ | dsimp only | apply HoldsR.next | apply State.advance_holds | apply State.raise_holds
    | apply State.onGate_holds | apply Holds.ite | split

theorem execArmTimeout_holds {s : State} [May M .time] [May M .ring] [May M .est] [May M .gate] [May M .rec_] [May M .out] (h : Holds R M B s) :
    HoldsR R M B (execArmTimeout s) := by
  unfold execArmTimeout
  with_reducible repeat' first
    | assumption | dsimp only | apply HoldsR.next | apply State.stageTrip_holds | apply State.advance_holds | split

theorem execTelemWindowEnd_holds {s : State} [May M .time] [May M .gate] [May M .host] [May M .rec_] [May M .out] (h : Holds R M B s) :
    HoldsR R M B (execTelemWindowEnd s) := by
  unfold execTelemWindowEnd
  with_reducible repeat' first
    | assumption | intro _ | dsimp only | apply HoldsR.next | apply State.periodic_holds | apply State.onGate_holds
    | apply State.release_holds | apply Holds.ite | split

theorem execPeakRead_holds {q : Fin 32} {s : State} [May M .gate] [May M .host] [May M .twin] [May M .rec_] [May M .out] [May M .free] (h : Holds R M B s) :
    HoldsR R M B (execPeakRead q s) := by
  unfold execPeakRead
  with_reducible repeat' first
    | assumption | intro _ | dsimp only | apply HoldsR.next | apply State.hostRow_holds | apply State.forward_holds
    | apply State.onGate_holds | apply HoldsV.accept

theorem execFaultCaptureDone_holds {s : State} [May M .gate] (h : Holds R M B s) : HoldsR R M B (execFaultCaptureDone s) := by
  unfold execFaultCaptureDone
  with_reducible repeat' first
    | assumption | intro _ | dsimp only | apply HoldsR.next | apply State.onGate_holds | split

theorem execFaultRecordWritten_holds {s : State} [May M .gate] (h : Holds R M B s) : HoldsR R M B (execFaultRecordWritten s) := by
  unfold execFaultRecordWritten
  with_reducible repeat' first
    | assumption | intro _ | dsimp only | apply HoldsR.next | apply State.onGate_holds | apply Holds.ite | split

theorem faultReadOp_holds {s : State} {d : Desc} [May M .gate] (h : Holds R M B s) : HoldsV R M B (faultReadOp s d) := by
  unfold faultReadOp
  with_reducible repeat' first
    | assumption | intro _ | dsimp only | apply State.onGate_holds | apply HoldsV.refuse | apply HoldsV.accept | apply HoldsV.ite
    | apply Holds.ite | split

theorem execFaultRead_holds {q : Fin 32} {s : State} [May M .gate] [May M .host] [May M .rec_] [May M .out] [May M .free] (h : Holds R M B s) :
    HoldsR R M B (execFaultRead q s) := by
  unfold execFaultRead
  with_reducible repeat' first
    | assumption | intro _ | dsimp only | apply HoldsR.next | apply State.hostRow_holds | apply faultReadOp_holds

theorem State.drainBudgets_holds {s : State} [May M .disp] (h : Holds R M B s) : Holds R M B (State.drainBudgets s) := by
  unfold State.drainBudgets
  with_reducible repeat' first
    | assumption | intro _ | dsimp only | apply State.onDisp_holds

theorem State.rampStep_holds {s : State} [May M .gate] [May M .loop] (h : Holds R M B s) : Holds R M B (State.rampStep s) := by
  unfold State.rampStep
  with_reducible repeat' first
    | assumption | intro _ | dsimp only | apply State.onLoop_holds | apply State.onGate_holds | apply Holds.ite | split

theorem State.headroomCheck_holds {s : State} [May M .ring] [May M .est] [May M .rec_] (h : Holds R M B s) :
    Holds R M B (State.headroomCheck s) := by
  unfold State.headroomCheck
  with_reducible repeat' first
    | assumption | intro _ | dsimp only | apply State.abandonRun_holds | apply State.onImp_holds | apply State.lockin_holds
    | apply Holds.ite | split

theorem State.underVoltage_holds {s : State} [May M .ring] [May M .est] [May M .gate] [May M .rec_] [May M .out] (h : Holds R M B s) :
    Holds R M B (State.underVoltage s) := by
  unfold State.underVoltage
  with_reducible repeat' first
    | assumption | intro _ | dsimp only | apply State.onGate_holds | apply State.stageTrip_holds | apply Holds.ite | split

theorem State.stopAfterRamp_holds {s : State} [May M .gate] [May M .out] (h : Holds R M B s) :
    Holds R M B (State.stopAfterRamp s) := by
  unfold State.stopAfterRamp
  with_reducible repeat' first
    | assumption | intro _ | dsimp only | apply State.onGate_holds | apply State.sendStop_holds | apply Holds.ite | split

theorem State.restoreLink_holds {s : State} {l : Nat} [May M .est] [May M .loop] (h : Holds R M B s) :
    Holds R M B (State.restoreLink s l) := by
  unfold State.restoreLink
  with_reducible repeat' first
    | assumption | intro _ | dsimp only | apply State.onPhases_holds | apply State.onImp_holds | apply State.onLoop_holds
    | apply State.spread_holds | apply Holds.ite | split

theorem State.shedWatch_holds {s : State} [May M .est] [May M .loop] (h : Holds R M B s) : Holds R M B (State.shedWatch s) := by
  unfold State.shedWatch
  with_reducible repeat' first
    | assumption | intro _ | dsimp only | apply State.onLoop_holds | apply State.restoreLink_holds | apply Holds.ite | split

theorem State.injectionWatch_holds {s : State} [May M .loop] [May M .host] [May M .rec_] [May M .out] (h : Holds R M B s) :
    Holds R M B (State.injectionWatch s) := by
  unfold State.injectionWatch
  with_reducible repeat' first
    | assumption | intro _ | dsimp only | apply State.endInjections_holds | apply State.onDiag_holds | apply Holds.ite
    | apply Holds.foldl | split

theorem State.idleSwap_holds {s : State} [May M .loop] [May M .host] [May M .rec_] [May M .out] (h : Holds R M B s) :
    Holds R M B (State.idleSwap s) := by
  unfold State.idleSwap
  with_reducible repeat' first
    | assumption | intro _ | dsimp only | apply State.onPhases_holds | apply State.bankSwap_holds | apply Holds.ite | split

theorem State.periodWork_holds {s : State} [May M .ring] [May M .est] [May M .gate] [May M .loop] [May M .disp] [May M .host] [May M .rec_] [May M .out] (h : Holds R M B s) :
    Holds R M B (State.periodWork s) := by
  unfold State.periodWork
  with_reducible repeat' first
    | assumption | intro _ | dsimp only | apply State.stopAfterRamp_holds | apply State.underVoltage_holds
    | apply State.headroomCheck_holds | apply State.rampStep_holds | apply State.formLimits_holds | apply State.drainBudgets_holds
    | apply State.faultCapture_holds | apply State.idleSwap_holds | apply State.injectionWatch_holds | apply State.shedWatch_holds
    | apply State.onLoop_holds | apply State.diagCycle_holds

theorem execBasePeriod_holds {s : State} [May M .free] [May M .time] [May M .ring] [May M .est] [May M .gate] [May M .loop] [May M .disp] [May M .host] [May M .rec_] [May M .out] (h : Holds R M B s) :
    HoldsR R M B (execBasePeriod s) := by
  unfold execBasePeriod
  with_reducible repeat' first
    | assumption | intro _ | dsimp only | apply HoldsR.next | apply State.periodWork_holds | apply State.onGate_holds
    | apply State.advance_holds | apply State.draw_holds

theorem State.countSample_holds {s : State} {p : Nat} {k : Nat} {release : Nat} [May M .gate] (h : Holds R M B s) :
    Holds R M B (State.countSample s p k release) := by
  unfold State.countSample
  with_reducible repeat' first
    | assumption | intro _ | dsimp only | apply State.onRx_holds

theorem State.phaseCompute_holds {s : State} {p : Nat} {k : Nat} {shift : Nat} [May M .gate] [May M .loop] [May M .host] [May M .rec_] [May M .out] (h : Holds R M B s) :
    Holds R M B (State.phaseCompute s p k shift) := by
  unfold State.phaseCompute
  with_reducible repeat' first
    | assumption | intro _ | dsimp only | apply State.bankSwap_holds | apply State.onPhase_holds | apply State.shedProgress_holds
    | apply State.fadeStep_holds | apply State.onRx_holds

theorem execStatusCutoff_holds {p : Fin 16} {s : State} [May M .time] [May M .gate] [May M .loop] [May M .host] [May M .rec_] [May M .out] (h : Holds R M B s) :
    HoldsR R M B (execStatusCutoff p s) := by
  unfold execStatusCutoff
  with_reducible repeat' first
    | assumption | intro _ | dsimp only | apply HoldsR.next | apply State.onRx_holds | apply State.phaseCompute_holds
    | apply State.countSample_holds | apply State.advance_holds | apply Holds.ite | split

theorem execTargetRelease_holds {s : State} [May M .time] [May M .loop] (h : Holds R M B s) :
    HoldsR R M B (execTargetRelease s) := by
  unfold execTargetRelease
  with_reducible repeat' first
    | assumption | intro _ | dsimp only | apply HoldsR.next | apply State.onLoop_holds | apply State.advance_holds | split

theorem execShedStart_holds {s : State} [May M .time] [May M .est] [May M .loop] (h : Holds R M B s) :
    HoldsR R M B (execShedStart s) := by
  unfold execShedStart
  with_reducible repeat' first
    | assumption | intro _ | dsimp only | apply HoldsR.next | apply State.advance_holds | apply State.onImp_holds
    | apply State.onLoop_holds | apply State.onPhases_holds | apply Holds.ite | split

theorem State.abortShed_holds {s : State} [May M .est] [May M .loop] (h : Holds R M B s) : Holds R M B (State.abortShed s) := by
  unfold State.abortShed
  with_reducible repeat' first
    | assumption | intro _ | dsimp only | apply State.onPhases_holds | apply State.onImp_holds | apply State.onLoop_holds
    | apply State.spread_holds | apply State.evenShares_holds | apply Holds.ite | split

theorem execLoadStepCheck_holds {s : State} [May M .time] [May M .est] [May M .loop] (h : Holds R M B s) :
    HoldsR R M B (execLoadStepCheck s) := by
  unfold execLoadStepCheck
  with_reducible repeat' first
    | assumption | dsimp only | apply HoldsR.next | apply State.advance_holds | apply State.abortShed_holds | apply Holds.ite | split

theorem execShedDwellEnd_holds {s : State} [May M .time] [May M .loop] (h : Holds R M B s) :
    HoldsR R M B (execShedDwellEnd s) := by
  unfold execShedDwellEnd
  with_reducible repeat' first
    | assumption | intro _ | dsimp only | apply HoldsR.next | apply State.onLoop_holds | apply State.advance_holds | split

theorem State.diagRow_holds {s : State} {q : Nat} {op : Nat} {own : State → Nat → Cmd → Verdict} [May M .host] [May M .rec_] [May M .out] [May M .free] (hown : ∀ y0 y1 y2, Holds R M B y0 → HoldsV R M B (own y0 y1 y2)) (h : Holds R M B s) :
    Holds R M B (State.diagRow s q op own) := by
  unfold State.diagRow
  with_reducible repeat' first
    | assumption | intro _ | dsimp only | apply State.hostRow_holds | apply HoldsV.refuse | apply HoldsV.ite | apply Holds.ite
    | apply hown | refine HoldsV.of_refuseAs ‹_› ?_ | refine HoldsV.of_accept ‹_› ?_ | refine HoldsV.of_acceptRead ‹_› ?_ | split

theorem execDiagArm_holds {q : Fin 32} {s : State} [May M .loop] [May M .host] [May M .rec_] [May M .out] [May M .free] (h : Holds R M B s) :
    HoldsR R M B (execDiagArm q s) := by
  unfold execDiagArm
  with_reducible repeat' first
    | assumption | intro _ | dsimp only | apply HoldsR.next | apply State.diagRow_holds | apply State.onDiag_holds
    | apply HoldsV.refuse | apply HoldsV.accept | apply HoldsV.ite | apply Holds.ite | split

theorem execDiagStart_holds {q : Fin 32} {s : State} [May M .host] [May M .twin] [May M .rec_] [May M .out] [May M .free] (h : Holds R M B s) :
    HoldsR R M B (execDiagStart q s) := by
  unfold execDiagStart
  with_reducible repeat' first
    | assumption | intro _ | dsimp only | apply HoldsR.next | apply State.diagRow_holds | apply State.acceptBoth_holds
    | apply HoldsV.refuse | apply HoldsV.accept | apply HoldsV.ite | apply Holds.ite | refine Holds.of_fst ‹_› ?_ | split

theorem State.applyDiagStart_holds {s : State} {e : Nat} [May M .loop] (h : Holds R M B s) :
    Holds R M B (State.applyDiagStart s e) := by
  unfold State.applyDiagStart
  with_reducible repeat' first
    | assumption | intro _ | dsimp only | apply State.onDiag_holds | apply Holds.ite | split

theorem execDiagAbort_holds {q : Fin 32} {s : State} [May M .loop] [May M .host] [May M .rec_] [May M .out] [May M .free] (h : Holds R M B s) :
    HoldsR R M B (execDiagAbort q s) := by
  unfold execDiagAbort
  with_reducible repeat' first
    | assumption | intro _ | dsimp only | apply HoldsR.next | apply State.diagRow_holds | apply State.diagAbort_holds
    | apply HoldsV.accept

theorem execDiagTrigger_holds {e : Fin 4} {s : State} [May M .loop] (h : Holds R M B s) : HoldsR R M B (execDiagTrigger e s) := by
  unfold execDiagTrigger
  with_reducible repeat' first
    | assumption | intro _ | dsimp only | apply HoldsR.next | apply State.onDiag_holds | apply Holds.ite | split

theorem execDiagCaptureDone_holds {e : Fin 4} {s : State} [May M .loop] [May M .host] [May M .rec_] [May M .out] (h : Holds R M B s) :
    HoldsR R M B (execDiagCaptureDone e s) := by
  unfold execDiagCaptureDone
  with_reducible repeat' first
    | assumption | dsimp only | apply HoldsR.next | apply State.diagDeliver_holds | apply Holds.ite | split

theorem execDiagExpired_holds {s : State} [May M .time] [May M .host] [May M .rec_] (h : Holds R M B s) :
    HoldsR R M B (execDiagExpired s) := by
  unfold execDiagExpired
  with_reducible repeat' first
    | assumption | dsimp only | apply HoldsR.next | apply State.expireBoth_holds

theorem State.sourceChange_holds {s : State} {was : Bool} [May M .rec_] (h : Holds R M B s) :
    Holds R M B (State.sourceChange s was) := by
  unfold State.sourceChange
  with_reducible repeat' first
    | assumption | dsimp only | apply State.raise_holds | apply Holds.ite | split

theorem State.dispTake_holds {s : State} {source : Nat} {d : DispBody} {from_ : Nat} [May M .disp] [May M .rec_] (h : Holds R M B s) :
    Holds R M B (State.dispTake s source d from_) := by
  unfold State.dispTake
  with_reducible repeat' first
    | assumption | intro _ | dsimp only | apply State.sourceChange_holds | apply State.onDisp_holds | apply Holds.ite | split

theorem State.dispAccept_holds {s : State} {source : Nat} {c : Cmd} {d : DispBody} [May M .disp] [May M .twin] [May M .rec_] [May M .out] (h : Holds R M B s) :
    Holds R M B (State.dispAccept s source c d) := by
  unfold State.dispAccept
  with_reducible repeat' first
    | assumption | dsimp only | apply State.dispTake_holds | apply State.pairSend_holds | apply Holds.ite | split

theorem State.markSeen_holds {s : State} {c : Cmd} {source : Nat} [May M .disp] (h : Holds R M B s) :
    Holds R M B (State.markSeen s c source) := by
  unfold State.markSeen
  with_reducible repeat' first
    | assumption | intro _ | dsimp only | apply State.onDisp_holds

theorem State.takeCopy_holds {s t : State} {c : Cmd} {n : Nat} [May M .disp] (e : s.takeCopy c n = some t) (h : Holds R M B s) :
    Holds R M B t := by
  unfold State.takeCopy at e
  split at e
  · cases e
    exact State.onDisp_holds h
  · cases e

theorem State.dispRow_holds {s : State} {q : Nat} {kind : Nat} [May M .disp] [May M .host] [May M .twin] [May M .rec_] [May M .out] [May M .free] (h : Holds R M B s) :
    Holds R M B (State.dispRow s q kind) := by
  unfold State.dispRow
  with_reducible repeat' first
    | assumption | intro _ | dsimp only | apply State.hostRow_holds | apply State.dispAccept_holds | apply HoldsV.refuse
    | apply HoldsV.accept | apply HoldsV.ite | apply Holds.ite | refine State.takeCopy_holds ‹_› ?_ | split

theorem State.noteLimited_holds {s : State} {kind : Nat} {value : Int} {present : Int} {slope : Int} [May M .loop] [May M .rec_] (h : Holds R M B s) :
    Holds R M B (State.noteLimited s kind value present slope) := by
  unfold State.noteLimited
  with_reducible repeat' first
    | assumption | intro _ | dsimp only | apply State.raise_holds | apply State.onLoop_holds | apply Holds.ite | split

theorem State.limitedCheck_holds {s : State} {kind : Nat} {value : Int} [May M .loop] [May M .rec_] (h : Holds R M B s) :
    Holds R M B (State.limitedCheck s kind value) := by
  unfold State.limitedCheck
  with_reducible repeat' first
    | assumption | dsimp only | apply State.noteLimited_holds | apply Holds.ite | split

theorem State.setPoint_holds {s : State} {kind : Nat} {value : Int} [May M .loop] [May M .disp] [May M .rec_] (h : Holds R M B s) :
    Holds R M B (State.setPoint s kind value) := by
  unfold State.setPoint
  with_reducible repeat' first
    | assumption | intro _ | dsimp only | apply State.onLoop_holds | apply State.onDisp_holds | apply State.limitedCheck_holds
    | apply Holds.ite | split

theorem State.cutTerm_holds {s : State} {i : Nat} [May M .disp] [May M .rec_] (h : Holds R M B s) :
    Holds R M B (State.cutTerm s i) := by
  unfold State.cutTerm
  with_reducible repeat' first
    | assumption | intro _ | dsimp only | apply State.onDisp_holds | apply State.raise_holds | apply Holds.ite | split

theorem State.setBudget_holds {s : State} {source : Nat} {kind : Nat} {c : Int} {d : Int} [May M .disp] [May M .rec_] (h : Holds R M B s) :
    Holds R M B (State.setBudget s source kind c d) := by
  unfold State.setBudget
  with_reducible repeat' first
    | assumption | intro _ | dsimp only | apply State.onDisp_holds | apply State.cutTerm_holds | apply Holds.ite | split

theorem State.dispEffect_holds {s : State} {w : DispWait} [May M .loop] [May M .disp] [May M .rec_] (h : Holds R M B s) :
    Holds R M B (State.dispEffect s w) := by
  unfold State.dispEffect
  with_reducible repeat' first
    | assumption | dsimp only | apply State.setPoint_holds | apply State.setBudget_holds | apply Holds.ite | split

theorem State.dispDue_holds {s : State} {deadline : Nat} [May M .loop] [May M .disp] [May M .rec_] (h : Holds R M B s) :
    Holds R M B (State.dispDue s deadline) := by
  unfold State.dispDue
  with_reducible repeat' first
    | assumption | intro _ | dsimp only | apply State.onDisp_holds | apply State.dispEffect_holds | apply Holds.ite
    | apply Holds.foldl | split

theorem State.planNotice_holds {s : State} [May M .rec_] (h : Holds R M B s) : Holds R M B (State.planNotice s) := by
  unfold State.planNotice
  with_reducible repeat' first
    | assumption | dsimp only | apply State.raise_holds | apply Holds.ite | split

theorem State.planActs_holds {s : State} [May M .fabric] [May M .rec_] (h : Holds R M B s) : Holds R M B (State.planActs s) := by
  unfold State.planActs
  with_reducible repeat' first
    | assumption | intro _ | dsimp only | apply State.onFabric_holds | apply State.raise_holds | apply Holds.ite | split

theorem State.planExchanged_holds {s : State} [May M .fabric] [May M .twin] [May M .rec_] (h : Holds R M B s) :
    Holds R M B (State.planExchanged s) := by
  unfold State.planExchanged
  with_reducible repeat' first
    | assumption | intro _ | dsimp only | apply State.onTwin_holds | apply State.planActs_holds | apply Holds.ite | split

theorem State.replan_holds {s : State} {cause : Nat} [May M .fabric] [May M .rec_] [May M .free] (h : Holds R M B s) :
    Holds R M B (State.replan s cause) := by
  unfold State.replan
  with_reducible repeat' first
    | assumption | intro _ | dsimp only | apply State.onFabric_holds | apply State.draw_holds | apply State.planNotice_holds
    | apply State.raise_holds | apply State.planActs_holds | apply Holds.ite | split

theorem State.putProfile_holds {s : State} {p : Nat} {sweep : Nat} [May M .setup] (h : Holds R M B s) :
    Holds R M B (State.putProfile s p sweep) := by
  unfold State.putProfile
  with_reducible repeat' first
    | assumption | intro _ | dsimp only | apply Holds.onSetup | (simp only [Setup.ok_iff] at *; simp_all; done) | (simp_all; done)

theorem State.takeProfile_holds {s : State} [May M .fabric] (h : Holds R M B s) : Holds R M B (State.takeProfile s) := by
  unfold State.takeProfile
  with_reducible repeat' first
    | assumption | intro _ | dsimp only | apply State.onFabric_holds | apply Holds.ite | split

theorem State.moveProfile_holds {s : State} [May M .fabric] [May M .rec_] [May M .setup] (h : Holds R M B s) :
    Holds R M B (State.moveProfile s) := by
  unfold State.moveProfile
  with_reducible repeat' first
    | assumption | intro _ | dsimp only | apply State.onFabric_holds | apply State.raise_holds | apply State.takeProfile_holds
    | apply State.putProfile_holds | apply Holds.ite | split

theorem State.supplyStep_holds {s : State} [May M .fabric] (h : Holds R M B s) : Holds R M B (State.supplyStep s) := by
  unfold State.supplyStep
  with_reducible repeat' first
    | assumption | intro _ | dsimp only | apply State.onFabric_holds | apply Holds.ite | split

end Sys2Proof.Machine
end

