-- ==== Sys2Proof/Laws/KeepProgram.lean ====
section
/-! SUPPORT. What is kept (Laws/Holds.lean) by the cyclic programs, the safety engines and the host's commands: one lemma per operation and per command's meaning. -/
namespace Sys2Proof.Machine
variable {R : Bool} {M : Part → Bool} {B : State}

theorem State.wrWord_holds {s : State} {e : Nat} {c : TaskCtx} {area : Nat} {i : Nat} {w : Word} [May M .prog] (h : Holds R M B s) :
    Holds R M B (State.wrWord s e c area i w) := by
  unfold State.wrWord
  with_reducible repeat' first
    | assumption | intro _ | dsimp only | apply State.onEng_holds | split

theorem State.wrBit_holds {s : State} {e : Nat} {c : TaskCtx} {w : Word} {v : Bool} [May M .prog] (h : Holds R M B s) :
    Holds R M B (State.wrBit s e c w v) := by
  unfold State.wrBit
  with_reducible repeat' first
    | assumption | dsimp only | apply State.wrWord_holds | apply Holds.ite | split

theorem State.instr_holds {s : State} {e : Nat} {c : TaskCtx} {w : Word} [May M .prog] (h : Holds R M B s) :
    Holds R M B (State.instr s e c w).1 := by
  unfold State.instr
  with_reducible repeat' first
    | assumption | intro _ | dsimp only | apply State.wrBit_holds | apply State.wrWord_holds | apply State.onEng_holds
    | apply Holds.ite | apply Holds.fst_ite | split

theorem State.runTasks_holds {s : State} {e : Nat} {a2 : Nat} [May M .prog] [May M .rec_] [May M .out] (h : Holds R M B s) :
    Holds R M B (State.runTasks s e a2) := by
  induction a2 generalizing s with
  | zero =>
    unfold State.runTasks
    with_reducible repeat' first
      | assumption | intro _ | dsimp only | apply State.onEng_holds | apply State.instr_holds | apply State.raise_holds
      | apply State.emit_holds | apply Holds.ite | apply Holds.foldl | split
  | succ n ih =>
    unfold State.runTasks
    with_reducible repeat' first
      | assumption | intro _ | apply ih | dsimp only | apply State.onEng_holds | apply State.instr_holds | apply State.raise_holds
      | apply State.emit_holds | apply Holds.ite | apply Holds.foldl | split

theorem State.runAll_holds {s : State} {e : Nat} [May M .prog] [May M .rec_] [May M .out] (h : Holds R M B s) :
    Holds R M B (State.runAll s e) := by
  unfold State.runAll
  with_reducible repeat' first
    | assumption | dsimp only | apply State.runTasks_holds | apply Holds.ite | split

theorem State.driveDio_holds {s : State} {p : Nat} {v : Bool} [May M .prog] [May M .out] (h : Holds R M B s) :
    Holds R M B (State.driveDio s p v) := by
  unfold State.driveDio
  with_reducible repeat' first
    | assumption | intro _ | dsimp only | apply State.onProg_holds | apply State.emit_holds | apply Holds.ite | split

theorem State.canQueue_holds {s : State} {r : CanRow} {data : List Byte} [May M .plant] (h : Holds R M B s) :
    Holds R M B (State.canQueue s r data) := by
  unfold State.canQueue
  with_reducible repeat' first
    | assumption | dsimp only
    | ((fail_if_success (fail_if_success (apply Holds.probe; dsimp only))); apply Holds.mk0
        <;> first | exact .inl May.yes | exact .inr rfl | skip)
    | apply Holds.ite | split

theorem State.canData_holds {s : State} {r : CanRow} {data : List Byte} [May M .plant] (h : Holds R M B s) :
    Holds R M B (State.canData s r data) := by
  unfold State.canData
  with_reducible repeat' first
    | assumption | dsimp only
    | ((fail_if_success (fail_if_success (apply Holds.probe; dsimp only))); apply Holds.mk0
        <;> first | exact .inl May.yes | exact .inr rfl | skip)
    | apply State.canQueue_holds | apply Holds.ite | split

theorem State.modbusOut_holds {s : State} {e : Nat} {i : Nat} {v : Nat} [May M .plant] (h : Holds R M B s) :
    Holds R M B (State.modbusOut s e i v) := by
  unfold State.modbusOut
  with_reducible repeat' first
    | assumption | dsimp only
    | ((fail_if_success (fail_if_success (apply Holds.probe; dsimp only))); apply Holds.mk0
        <;> first | exact .inl May.yes | exact .inr rfl | skip)
    | apply Holds.ite | split

theorem State.releasePoint_holds {s : State} {e : Nat} {at_ : Nat} {i : Nat} {a4 : IoEntry} {v : List Word} [May M .prog] [May M .plant] [May M .rec_] [May M .out] (h : Holds R M B s) :
    Holds R M B (State.releasePoint s e at_ i a4 v) := by
  unfold State.releasePoint
  with_reducible repeat' first
    | assumption | intro _ | dsimp only
    | ((fail_if_success (fail_if_success (apply Holds.probe; dsimp only))); apply Holds.mk0
        <;> first | exact .inl May.yes | exact .inr rfl | skip)
    | apply State.onProg_holds | apply State.driveDio_holds | apply State.canData_holds | apply State.modbusOut_holds
    | apply Holds.ite | split

theorem State.releaseOuts_holds {s : State} {e : Nat} {at_ : Nat} {l : List (Nat × IoEntry)} {val : Nat → IoEntry → List Word} [May M .prog] [May M .plant] [May M .rec_] [May M .out] (h : Holds R M B s) :
    Holds R M B (State.releaseOuts s e at_ l val) := by
  unfold State.releaseOuts
  with_reducible repeat' first
    | assumption | intro _ | dsimp only | apply State.releasePoint_holds | apply Holds.foldl | split

theorem State.releaseTask_holds {s : State} {e : Nat} {at_ : Nat} {event : Option Nat} [May M .prog] [May M .plant] [May M .rec_] [May M .out] (h : Holds R M B s) :
    Holds R M B (State.releaseTask s e at_ event) := by
  unfold State.releaseTask
  with_reducible repeat' first
    | assumption | intro _ | dsimp only | apply State.onProg_holds | apply State.releaseOuts_holds | apply State.onEng_holds
    | apply Holds.foldl | split

theorem State.stopValues_holds {s : State} {e : Nat} [May M .prog] [May M .plant] [May M .rec_] [May M .out] (h : Holds R M B s) :
    Holds R M B (State.stopValues s e) := by
  unfold State.stopValues
  with_reducible repeat' first
    | assumption | dsimp only | apply State.releaseOuts_holds | apply Holds.ite | split

theorem State.stopOuts_holds {s : State} {e : Nat} [May M .prog] [May M .plant] [May M .rec_] [May M .out] (h : Holds R M B s) :
    Holds R M B (State.stopOuts s e) := by
  unfold State.stopOuts
  with_reducible repeat' first
    | assumption | intro _ | dsimp only
    | ((fail_if_success (fail_if_success (apply Holds.probe; dsimp only))); apply Holds.mk0
        <;> first | exact .inl May.yes | exact .inr rfl | skip)
    | apply State.stopValues_holds | apply Holds.ite | apply Holds.foldl | split

theorem State.restartEng_holds {s : State} {e : Nat} {warm : Option SavedCopy} [May M .prog] [May M .plant] [May M .rec_] [May M .out] (h : Holds R M B s) :
    Holds R M B (State.restartEng s e warm) := by
  unfold State.restartEng
  with_reducible repeat' first
    | assumption | intro _ | dsimp only | apply State.onEng_holds | apply State.stopValues_holds | apply State.onProg_holds
    | apply Holds.foldl | split

theorem State.stopEng_holds {s : State} {e : Nat} [May M .prog] [May M .plant] [May M .rec_] [May M .out] (h : Holds R M B s) :
    Holds R M B (State.stopEng s e) := by
  unfold State.stopEng
  with_reducible repeat' first
    | assumption | intro _ | dsimp only | apply State.stopOuts_holds | apply State.onEng_holds

theorem State.restartChoice_holds {s : State} {e : Nat} [May M .prog] [May M .plant] [May M .rec_] [May M .out] (h : Holds R M B s) :
    Holds R M B (State.restartChoice s e) := by
  unfold State.restartChoice
  with_reducible repeat' first
    | assumption | intro _ | dsimp only | apply State.restartEng_holds | apply State.raise_holds | apply State.onEng_holds
    | apply Holds.ite | split

theorem State.seatEngines_holds {s : State} [May M .prog] (h : Holds R M B s) : Holds R M B (State.seatEngines s) := by
  unfold State.seatEngines
  with_reducible repeat' first
    | assumption | intro _ | dsimp only | apply State.onProg_holds | split

theorem State.endCycle_holds {s : State} {e : Nat} {done : Nat} [May M .time] [May M .prog] [May M .plant] [May M .rec_] [May M .out] (h : Holds R M B s) :
    Holds R M B (State.endCycle s e done) := by
  unfold State.endCycle
  with_reducible repeat' first
    | assumption | intro _ | dsimp only | apply State.runAll_holds | apply State.advance_holds | apply State.onEng_holds
    | apply State.releaseTask_holds | apply Holds.ite | split

theorem State.modeCmd_holds {s : State} {e : Nat} [May M .prog] [May M .plant] [May M .rec_] [May M .out] (h : Holds R M B s) :
    Holds R M B (State.modeCmd s e) := by
  unfold State.modeCmd
  with_reducible repeat' first
    | assumption | intro _ | dsimp only | apply State.onEng_holds | apply State.restartEng_holds | apply State.stopEng_holds
    | apply Holds.ite | split

theorem State.beginCycle_holds {s : State} {e : Nat} [May M .prog] [May M .free] (h : Holds R M B s) :
    Holds R M B (State.beginCycle s e) := by
  unfold State.beginCycle
  with_reducible repeat' first
    | assumption | intro _ | dsimp only | apply State.onEng_holds | apply State.draw_holds | apply State.onProg_holds
    | apply Holds.ite | apply Holds.foldl | split

theorem execCycleStart_holds {e : Fin 8} {s : State} [May M .time] [May M .prog] [May M .plant] [May M .rec_] [May M .out] [May M .free] (h : Holds R M B s) :
    HoldsR R M B (execCycleStart e s) := by
  unfold execCycleStart
  with_reducible repeat' first
    | assumption | dsimp only | apply HoldsR.next | apply State.endCycle_holds | apply State.modeCmd_holds | apply State.advance_holds
    | apply State.beginCycle_holds | apply Holds.ite | split

theorem execCycleRelease_holds {e : Fin 8} {done : Nat} {s : State} [May M .time] [May M .prog] [May M .plant] [May M .rec_] [May M .out] (h : Holds R M B s) :
    HoldsR R M B (execCycleRelease e done s) := by
  unfold execCycleRelease
  with_reducible repeat' first
    | assumption | dsimp only | apply HoldsR.next | apply State.endCycle_holds

theorem State.runEvents_holds {s : State} {e : Nat} [May M .prog] [May M .rec_] [May M .out] (h : Holds R M B s) :
    Holds R M B (State.runEvents s e) := by
  unfold State.runEvents
  with_reducible repeat' first
    | assumption | intro _ | dsimp only | apply State.runAll_holds | apply State.onEng_holds

theorem State.startEvent_holds {s : State} {e : Nat} {n : Nat} [May M .prog] [May M .rec_] [May M .out] [May M .free] (h : Holds R M B s) :
    Holds R M B (State.startEvent s e n) := by
  unfold State.startEvent
  with_reducible repeat' first
    | assumption | intro _ | dsimp only | apply State.runEvents_holds | apply State.draw_holds | apply State.runTasks_holds
    | apply State.onEng_holds | apply Holds.ite | split

theorem State.eventRelease_holds {s : State} {e : Nat} {n : Nat} [May M .time] [May M .prog] [May M .plant] [May M .rec_] [May M .out] [May M .free] (h : Holds R M B s) :
    Holds R M B (State.eventRelease s e n) := by
  unfold State.eventRelease
  with_reducible repeat' first
    | assumption | intro _ | dsimp only | apply State.runEvents_holds | apply State.advance_holds | apply State.onEng_holds
    | apply State.releaseTask_holds | apply State.startEvent_holds | apply Holds.ite | split

theorem execEventTaskTrigger_holds {e : Fin 8} {n : Fin 4} {s : State} [May M .time] [May M .prog] [May M .plant] [May M .rec_] [May M .out] [May M .free] (h : Holds R M B s) :
    HoldsR R M B (execEventTaskTrigger e n s) := by
  unfold execEventTaskTrigger
  with_reducible repeat' first
    | assumption | intro _ | dsimp only | apply HoldsR.next | apply State.advance_holds | apply State.eventRelease_holds
    | apply State.onEng_holds | apply State.startEvent_holds | apply Holds.ite | split

theorem execEventTaskRelease_holds {e : Fin 8} {n : Fin 4} {s : State} [May M .time] [May M .prog] [May M .plant] [May M .rec_] [May M .out] [May M .free] (h : Holds R M B s) :
    HoldsR R M B (execEventTaskRelease e n s) := by
  unfold execEventTaskRelease
  with_reducible repeat' first
    | assumption | dsimp only | apply HoldsR.next | apply State.eventRelease_holds

theorem State.saveAll_holds {s : State} [May M .prog] (h : Holds R M B s) : Holds R M B (State.saveAll s) := by
  unfold State.saveAll
  with_reducible repeat' first
    | assumption | intro _ | dsimp only | apply State.onProg_holds | apply Holds.ite | split

theorem execSavedCopyWrite_holds {second : Nat} {s : State} [May M .time] [May M .prog] (h : Holds R M B s) :
    HoldsR R M B (execSavedCopyWrite second s) := by
  unfold execSavedCopyWrite
  with_reducible repeat' first
    | assumption | dsimp only | apply HoldsR.next | apply State.saveAll_holds | apply State.advance_holds

theorem execBreakpointHit_holds {e : Fin 8} {s : State} [May M .prog] [May M .rec_] [May M .out] (h : Holds R M B s) :
    HoldsR R M B (execBreakpointHit e s) := by
  unfold execBreakpointHit
  with_reducible repeat' first
    | assumption | dsimp only | apply HoldsR.next | apply State.runAll_holds | apply Holds.ite | split

theorem execHoldExpired_holds {e : Fin 8} {s : State} [May M .time] [May M .prog] [May M .plant] [May M .rec_] [May M .out] (h : Holds R M B s) :
    HoldsR R M B (execHoldExpired e s) := by
  unfold execHoldExpired
  with_reducible repeat' first
    | assumption | dsimp only | apply HoldsR.next | apply State.raise_holds | apply State.stopEng_holds | apply State.advance_holds
    | apply Holds.ite | split

theorem execCycleRestartChoice_holds {s : State} [May M .prog] [May M .plant] [May M .rec_] [May M .out] (h : Holds R M B s) :
    HoldsR R M B (execCycleRestartChoice s) := by
  unfold execCycleRestartChoice
  with_reducible repeat' first
    | assumption | intro _ | dsimp only | apply HoldsR.next | apply State.onEng_holds | apply State.restartChoice_holds
    | apply Holds.ite | apply Holds.foldl | split

theorem State.progRow_holds {s : State} {q : Fin 32} {op : Nat} [May M .host] [May M .twin] [May M .rec_] [May M .out] [May M .free] (h : Holds R M B s) :
    Holds R M B (State.progRow s q op) := by
  unfold State.progRow
  with_reducible repeat' first
    | assumption | intro _ | dsimp only | apply State.hostRow_holds | apply State.acceptBoth_holds | apply HoldsV.refuse
    | apply HoldsV.accept | refine Holds.of_fst ‹_› ?_ | split

theorem execProgramSwitch_holds {q : Fin 32} {s : State} [May M .host] [May M .twin] [May M .rec_] [May M .out] [May M .free] (h : Holds R M B s) :
    HoldsR R M B (execProgramSwitch q s) := by
  unfold execProgramSwitch
  with_reducible repeat' first
    | assumption | dsimp only | apply HoldsR.next | apply State.progRow_holds

theorem execProgramRollback_holds {q : Fin 32} {s : State} [May M .host] [May M .twin] [May M .rec_] [May M .out] [May M .free] (h : Holds R M B s) :
    HoldsR R M B (execProgramRollback q s) := by
  unfold execProgramRollback
  with_reducible repeat' first
    | assumption | dsimp only | apply HoldsR.next | apply State.progRow_holds

theorem execProgramRun_holds {q : Fin 32} {s : State} [May M .host] [May M .twin] [May M .rec_] [May M .out] [May M .free] (h : Holds R M B s) :
    HoldsR R M B (execProgramRun q s) := by
  unfold execProgramRun
  with_reducible repeat' first
    | assumption | dsimp only | apply HoldsR.next | apply State.progRow_holds

theorem execProgramStop_holds {q : Fin 32} {s : State} [May M .host] [May M .twin] [May M .rec_] [May M .out] [May M .free] (h : Holds R M B s) :
    HoldsR R M B (execProgramStop q s) := by
  unfold execProgramStop
  with_reducible repeat' first
    | assumption | dsimp only | apply HoldsR.next | apply State.progRow_holds

theorem execProgramHold_holds {q : Fin 32} {s : State} [May M .host] [May M .twin] [May M .rec_] [May M .out] [May M .free] (h : Holds R M B s) :
    HoldsR R M B (execProgramHold q s) := by
  unfold execProgramHold
  with_reducible repeat' first
    | assumption | dsimp only | apply HoldsR.next | apply State.progRow_holds

theorem execProgramStep_holds {q : Fin 32} {s : State} [May M .host] [May M .twin] [May M .rec_] [May M .out] [May M .free] (h : Holds R M B s) :
    HoldsR R M B (execProgramStep q s) := by
  unfold execProgramStep
  with_reducible repeat' first
    | assumption | dsimp only | apply HoldsR.next | apply State.progRow_holds

theorem execProgramResume_holds {q : Fin 32} {s : State} [May M .host] [May M .twin] [May M .rec_] [May M .out] [May M .free] (h : Holds R M B s) :
    HoldsR R M B (execProgramResume q s) := by
  unfold execProgramResume
  with_reducible repeat' first
    | assumption | dsimp only | apply HoldsR.next | apply State.progRow_holds

theorem execForceSet_holds {q : Fin 32} {s : State} [May M .host] [May M .twin] [May M .rec_] [May M .out] [May M .free] (h : Holds R M B s) :
    HoldsR R M B (execForceSet q s) := by
  unfold execForceSet
  with_reducible repeat' first
    | assumption | dsimp only | apply HoldsR.next | apply State.progRow_holds

theorem execForceClear_holds {q : Fin 32} {s : State} [May M .host] [May M .twin] [May M .rec_] [May M .out] [May M .free] (h : Holds R M B s) :
    HoldsR R M B (execForceClear q s) := by
  unfold execForceClear
  with_reducible repeat' first
    | assumption | dsimp only | apply HoldsR.next | apply State.progRow_holds

theorem execHostWrite_holds {q : Fin 32} {s : State} [May M .host] [May M .twin] [May M .rec_] [May M .out] [May M .free] (h : Holds R M B s) :
    HoldsR R M B (execHostWrite q s) := by
  unfold execHostWrite
  with_reducible repeat' first
    | assumption | dsimp only | apply HoldsR.next | apply State.progRow_holds

theorem execProgramRead_holds {q : Fin 32} {s : State} [May M .host] [May M .rec_] [May M .out] [May M .free] (h : Holds R M B s) :
    HoldsR R M B (execProgramRead q s) := by
  unfold execProgramRead
  with_reducible repeat' first
    | assumption | intro _ | dsimp only | apply HoldsR.next | apply State.hostRow_holds | apply HoldsV.refuse | apply HoldsV.accept
    | apply HoldsV.ite | apply Holds.ite | split

theorem State.reforce_holds {s : State} {hit : List Byte → Bool} [May M .prog] [May M .plant] [May M .rec_] [May M .out] (h : Holds R M B s) :
    Holds R M B (State.reforce s hit) := by
  unfold State.reforce
  with_reducible repeat' first
    | assumption | intro _ | dsimp only | apply State.releaseOuts_holds | apply Holds.ite | apply Holds.foldl | split

theorem State.applyProg_holds {s : State} {c : Cmd} {accepted : Nat} [May M .prog] [May M .plant] [May M .rec_] [May M .out] (h : Holds R M B s) :
    Holds R M B (State.applyProg s c accepted) := by
  unfold State.applyProg
  with_reducible repeat' first
    | assumption | intro _ | dsimp only | apply State.onEng_holds | apply State.onProg_holds | apply State.reforce_holds
    | apply Holds.foldl | split

theorem execProgramCmdExpired_holds {s : State} [May M .time] [May M .host] [May M .rec_] (h : Holds R M B s) :
    HoldsR R M B (execProgramCmdExpired s) := by
  unfold execProgramCmdExpired
  with_reducible repeat' first
    | assumption | dsimp only | apply HoldsR.next | apply State.expireBoth_holds

theorem State.ioBoundary_holds {s : State} [May M .prog] (h : Holds R M B s) : Holds R M B (State.ioBoundary s) := by
  unfold State.ioBoundary
  with_reducible repeat' first
    | assumption | intro _ | dsimp only | apply State.addCause_holds | apply State.onProg_holds | apply Holds.foldl | split

theorem State.dropOuts_holds {s : State} {g0 : Option Gelfoel} {g1 : Gelfoel} [May M .prog] [May M .plant] [May M .rec_] [May M .out] (h : Holds R M B s) :
    Holds R M B (State.dropOuts s g0 g1) := by
  unfold State.dropOuts
  with_reducible repeat' first
    | assumption | intro _ | dsimp only | apply State.releaseOuts_holds | apply Holds.ite | apply Holds.foldl | split

theorem State.symResets_holds {s : State} {g0 : Option Gelfoel} {g1 : Gelfoel} [May M .prog] [May M .rec_] (h : Holds R M B s) :
    Holds R M B (State.symResets s g0 g1) := by
  unfold State.symResets
  with_reducible repeat' first
    | assumption | intro _ | dsimp only | apply State.raise_holds | apply State.addCause_holds | apply Holds.ite | apply Holds.foldl
    | split

theorem State.dropForces_holds {s : State} {g0 : Option Gelfoel} {g1 : Gelfoel} [May M .prog] [May M .rec_] (h : Holds R M B s) :
    Holds R M B (State.dropForces s g0 g1) := by
  unfold State.dropForces
  with_reducible repeat' first
    | assumption | intro _ | dsimp only | apply State.raise_holds | apply State.onProg_holds | apply Holds.foldl | split

theorem State.switchOver_holds {s : State} {b : Nat} {g1 : Gelfoel} [May M .time] [May M .prog] [May M .plant] [May M .rec_] [May M .out] (h : Holds R M B s) :
    Holds R M B (State.switchOver s b g1) := by
  unfold State.switchOver
  with_reducible repeat' first
    | assumption | intro _ | dsimp only | apply State.endCycle_holds | apply State.dropOuts_holds | apply State.onProg_holds
    | apply State.raiseAt_holds | apply State.dropForces_holds | apply State.symResets_holds | apply Holds.ite | apply Holds.foldl
    | split

theorem execSwitchBoundary_holds {s : State} [May M .time] [May M .prog] [May M .plant] [May M .rec_] [May M .out] (h : Holds R M B s) :
    HoldsR R M B (execSwitchBoundary s) := by
  unfold execSwitchBoundary
  with_reducible repeat' first
    | assumption | intro _ | dsimp only | apply HoldsR.next | apply State.advance_holds | apply State.switchOver_holds
    | apply State.onProg_holds | split

theorem State.loadRow_holds {s : State} {q : Nat} {cls : Nat} {op : Nat} {own : State → Desc → Verdict} [May M .host] [May M .rec_] [May M .out] [May M .free] (hown : ∀ y0 y1, Holds R M B y0 → HoldsV R M B (own y0 y1)) (h : Holds R M B s) :
    Holds R M B (State.loadRow s q cls op own) := by
  unfold State.loadRow
  with_reducible repeat' first
    | assumption | intro _ | dsimp only | apply State.runHead_holds | apply Holds.ite | apply hown | refine HoldsV.of_refuseAs ‹_› ?_
    | refine HoldsV.of_accept ‹_› ?_ | refine HoldsV.of_acceptRead ‹_› ?_ | split

theorem State.onIdleBank_holds {s : State} {f : Bank → Bank} [May M .prog] (h : Holds R M B s) :
    Holds R M B (State.onIdleBank s f) := by
  unfold State.onIdleBank
  with_reducible repeat' first
    | assumption | intro _ | dsimp only | apply State.onProg_holds

theorem execProgramLoadChunk_holds {q : Fin 32} {s : State} [May M .prog] [May M .host] [May M .rec_] [May M .out] [May M .free] (h : Holds R M B s) :
    HoldsR R M B (execProgramLoadChunk q s) := by
  unfold execProgramLoadChunk
  with_reducible repeat' first
    | assumption | intro _ | dsimp only | apply HoldsR.next | apply State.loadRow_holds | apply State.onIdleBank_holds
    | apply State.onProg_holds | apply HoldsV.refuse | apply HoldsV.accept | apply HoldsV.refuseAs | apply HoldsV.ite
    | apply Holds.ite | split

theorem State.onEngA_holds {s : State} {f : SafetyEng → SafetyEng} [May M .safety] (h : Holds R M B s) :
    Holds R M B (State.onEngA s f) := by
  unfold State.onEngA
  with_reducible repeat' first
    | assumption | intro _ | dsimp only | apply State.onSafety_holds

theorem State.onEngB_holds {s : State} {f : SafetyEng → SafetyEng} [May M .safety] (h : Holds R M B s) :
    Holds R M B (State.onEngB s f) := by
  unfold State.onEngB
  with_reducible repeat' first
    | assumption | intro _ | dsimp only | apply State.onSafety_holds

theorem State.safetySweep_holds {s : State} {w : Sweep} [May M .ring] [May M .meas] [May M .est] [May M .gate] [May M .safety] [May M .plant] [May M .twin] [May M .rec_] [May M .out] (h : Holds R M B s) :
    Holds R M B (State.safetySweep s w) := by
  unfold State.safetySweep
  with_reducible repeat' first
    | assumption | intro _ | dsimp only | apply State.onEngB_holds | apply State.onEngA_holds | apply State.safeState_holds
    | apply Holds.ite | apply Holds.foldl | split

theorem State.refreshDemands_holds {s : State} [May M .safety] (h : Holds R M B s) : Holds R M B (State.refreshDemands s) := by
  unfold State.refreshDemands
  with_reducible repeat' first
    | assumption | intro _ | dsimp only | apply State.onEngB_holds | apply State.onEngA_holds

theorem State.inputEvents_holds {s : State} {object : Nat} {n : Nat} {code : Option Nat} {alarm : Bool} {oa : DualIn} {na : DualIn} {ob : DualIn} {nb : DualIn} [May M .ring] [May M .meas] [May M .est] [May M .gate] [May M .safety] [May M .plant] [May M .twin] [May M .rec_] [May M .out] (h : Holds R M B s) :
    Holds R M B (State.inputEvents s object n code alarm oa na ob nb) := by
  unfold State.inputEvents
  with_reducible repeat' first
    | assumption | dsimp only | apply State.raise_holds | apply State.safeState_holds | apply Holds.ite | split

theorem State.tickInputs_holds {s : State} {a : SafetySample} {b : SafetySample} [May M .ring] [May M .meas] [May M .est] [May M .gate] [May M .safety] [May M .plant] [May M .twin] [May M .rec_] [May M .out] (h : Holds R M B s) :
    Holds R M B (State.tickInputs s a b) := by
  unfold State.tickInputs
  with_reducible repeat' first
    | assumption | intro _ | dsimp only | apply State.refreshDemands_holds | apply State.onEngB_holds | apply State.onEngA_holds
    | apply State.inputEvents_holds | apply Holds.ite | apply Holds.foldl | split

theorem State.setOut_holds {s : State} {o : Nat} {on : Bool} [May M .safety] (h : Holds R M B s) :
    Holds R M B (State.setOut s o on) := by
  unfold State.setOut
  with_reducible repeat' first
    | assumption | intro _ | dsimp only | apply State.onSafety_holds | apply Holds.ite | split

theorem State.outFault_holds {s : State} {o : Nat} {low : Bool} {f : SoFault} [May M .time] [May M .ring] [May M .meas] [May M .est] [May M .gate] [May M .safety] [May M .plant] [May M .twin] [May M .rec_] [May M .out] (h : Holds R M B s) :
    Holds R M B (State.outFault s o low f) := by
  unfold State.outFault
  with_reducible repeat' first
    | assumption | intro _ | dsimp only | apply State.onSafety_holds | apply State.setOut_holds | apply State.raise_holds
    | apply State.onEngB_holds | apply State.onEngA_holds | apply State.selfDiagnosis_holds | apply State.safeState_holds
    | apply Holds.ite | split

theorem State.tickOuts_holds {s : State} {on : BitVec 8} [May M .time] [May M .ring] [May M .meas] [May M .est] [May M .gate] [May M .safety] [May M .plant] [May M .twin] [May M .rec_] [May M .out] (h : Holds R M B s) :
    Holds R M B (State.tickOuts s on) := by
  unfold State.tickOuts
  with_reducible repeat' first
    | assumption | intro _ | dsimp only | apply State.onSafety_holds | apply State.outFault_holds | apply Holds.ite
    | apply Holds.foldl | split

theorem State.openContactors_holds {s : State} [May M .safety] (h : Holds R M B s) : Holds R M B (State.openContactors s) := by
  unfold State.openContactors
  with_reducible repeat' first
    | assumption | intro _ | dsimp only | apply State.setOut_holds | apply State.onSafety_holds | split

theorem State.tickState_holds {s : State} {coil : Nat} [May M .safety] (h : Holds R M B s) :
    Holds R M B (State.tickState s coil) := by
  unfold State.tickState
  with_reducible repeat' first
    | assumption | intro _ | dsimp only | apply State.setOut_holds | apply State.openContactors_holds | apply State.onSafety_holds
    | apply State.onEngB_holds | apply State.onEngA_holds | apply Holds.ite | apply Holds.foldl | split

theorem State.applyContactor_holds {s : State} {op : Nat} [May M .ring] [May M .est] [May M .gate] [May M .safety] [May M .rec_] (h : Holds R M B s) :
    Holds R M B (State.applyContactor s op) := by
  unfold State.applyContactor
  with_reducible repeat' first
    | assumption | intro _ | dsimp only | apply State.onSafety_holds | apply State.setOut_holds | apply State.openContactors_holds
    | apply State.stageDisable_holds | apply Holds.ite | split

theorem State.resetAccepted_holds {s t : State} {n : Nat} [May M .safety] (e : s.resetAccepted n = .ok t) (h : Holds R M B s) :
    Holds R M B t := by
  unfold State.resetAccepted at e
  split at e
  · cases e
  · cases e
    exact State.onSafety_holds h

theorem State.applyReset_holds {s : State} [May M .safety] [May M .rec_] (h : Holds R M B s) :
    Holds R M B (State.applyReset s) := by
  unfold State.applyReset
  with_reducible repeat' first
    | assumption | intro _ | dsimp only | apply State.onSafety_holds | apply State.raise_holds | apply Holds.ite | split

theorem State.takePdu_holds {s : State} {n : Nat} {p : SafetyPdu} [May M .ring] [May M .meas] [May M .est] [May M .gate] [May M .safety] [May M .plant] [May M .twin] [May M .rec_] [May M .out] (h : Holds R M B s) :
    Holds R M B (State.takePdu s n p) := by
  unfold State.takePdu
  with_reducible repeat' first
    | assumption | intro _ | dsimp only | apply State.onSafety_holds | apply State.raise_holds | apply State.refreshDemands_holds
    | apply State.safeState_holds | apply Holds.ite | split

theorem State.partnerTrip_holds {s : State} {fn : Nat} [May M .time] [May M .ring] [May M .meas] [May M .est] [May M .gate] [May M .safety] [May M .plant] [May M .twin] [May M .rec_] [May M .out] (h : Holds R M B s) :
    Holds R M B (State.partnerTrip s fn) := by
  unfold State.partnerTrip
  with_reducible repeat' first
    | assumption | dsimp only | apply State.raise_holds | apply State.safeState_holds | apply State.withdraw_holds | apply Holds.ite
    | split

theorem State.takePartner_holds {s : State} {p : SafetyPdu} [May M .time] [May M .ring] [May M .meas] [May M .est] [May M .gate] [May M .safety] [May M .plant] [May M .twin] [May M .rec_] [May M .out] (h : Holds R M B s) :
    Holds R M B (State.takePartner s p) := by
  unfold State.takePartner
  with_reducible repeat' first
    | assumption | intro _ | dsimp only | apply State.raise_holds | apply State.onSafety_holds | apply State.partnerTrip_holds
    | apply Holds.ite | split

theorem State.takeFrame_holds {s : State} {port : Nat} {b : List Byte} [May M .time] [May M .ring] [May M .meas] [May M .est] [May M .gate] [May M .safety] [May M .plant] [May M .twin] [May M .rec_] [May M .out] (h : Holds R M B s) :
    Holds R M B (State.takeFrame s port b) := by
  unfold State.takeFrame
  with_reducible repeat' first
    | assumption | intro _ | dsimp only | apply State.takePartner_holds | apply State.takePdu_holds | apply Holds.ite
    | apply Holds.foldl | split

theorem State.discardBell_holds {s : State} {q : Nat} [May M .host] (h : Holds R M B s) : Holds R M B (State.discardBell s q) := by
  unfold State.discardBell
  with_reducible repeat' first
    | assumption | dsimp only | apply State.setQueue_holds

theorem State.bellRange_holds {s : State} {q : Nat} {value : Nat} [May M .host] [May M .rec_] [May M .out] (h : Holds R M B s) :
    Holds R M B (State.bellRange s q value) := by
  unfold State.bellRange
  with_reducible repeat' first
    | assumption | dsimp only | apply State.stopQueue_holds | apply State.bareCompletion_holds

theorem execSqTail_holds {q : Fin 32} {value : Nat} {width : Nat} {descs : List RawDesc} {s : State} [May M .host] [May M .rec_] [May M .out] (h : Holds R M B s) :
    HoldsR R M B (execSqTail q value width descs s) := by
  unfold execSqTail
  with_reducible repeat' first
    | assumption | dsimp only | apply HoldsR.next | apply State.discardBell_holds | apply State.bellRange_holds
    | apply State.setQueue_holds | apply State.fetchAndPump_holds | apply Holds.ite | split

theorem execCqHead_holds {q : Fin 32} {value : Nat} {width : Nat} {s : State} [May M .host] [May M .rec_] [May M .out] (h : Holds R M B s) :
    HoldsR R M B (execCqHead q value width s) := by
  unfold execCqHead
  with_reducible repeat' first
    | assumption | dsimp only | apply HoldsR.next | apply State.discardBell_holds | apply State.bellRange_holds
    | apply State.setQueue_holds | apply State.fetchAndPump_holds | apply State.flushCq_holds | apply Holds.ite | split

theorem execStreamBufferPost_holds {q : Fin 32} {s : State} [May M .host] [May M .rec_] [May M .out] (h : Holds R M B s) :
    HoldsR R M B (execStreamBufferPost q s) := by
  unfold execStreamBufferPost
  with_reducible repeat' first
    | assumption | dsimp only | apply HoldsR.next | apply State.fillAll_holds | apply Holds.ite | split

theorem execStreamFlushTimeout_holds {q : Fin 32} {s : State} [May M .time] [May M .host] [May M .rec_] [May M .out] (h : Holds R M B s) :
    HoldsR R M B (execStreamFlushTimeout q s) := by
  unfold execStreamFlushTimeout
  with_reducible repeat' first
    | assumption | dsimp only | apply HoldsR.next | apply State.advance_holds | apply State.fillAll_holds
    | apply State.fetchAndPump_holds | apply State.complete_holds | split

theorem State.abandonQueues_holds {s : State} [May M .host] [May M .rec_] (h : Holds R M B s) :
    Holds R M B (State.abandonQueues s) := by
  unfold State.abandonQueues
  with_reducible repeat' first
    | assumption | intro _ | dsimp only | apply State.setQueue_holds | apply State.raise_holds | apply Holds.foldl

theorem State.discardStaged_holds {s : State} [May M .setup] (h : Holds R M B s) : Holds R M B (State.discardStaged s) := by
  unfold State.discardStaged
  with_reducible repeat' first
    | assumption | dsimp only
    | ((fail_if_success (fail_if_success (apply Holds.probe; dsimp only))); apply Holds.mk0
        <;> first | exact .inl May.yes | exact .inr rfl | skip)
    | (simp only [Setup.ok_iff] at *; simp_all; done) | (simp_all; done)
    | ((fail_if_success (fail_if_success (apply Holds.probe; dsimp only))); apply Holds.mkSetup
        <;> first | exact .inl May.yes | exact .inr rfl | skip)

theorem execHostLinkDown_holds {s : State} [May M .host] [May M .rec_] (h : Holds R M B s) :
    HoldsR R M B (execHostLinkDown s) := by
  unfold execHostLinkDown
  with_reducible repeat' first
    | assumption | dsimp only
    | ((fail_if_success (fail_if_success (apply Holds.probe; dsimp only))); apply Holds.mk0
        <;> first | exact .inl May.yes | exact .inr rfl | skip)
    | apply HoldsR.next | apply State.abandonQueues_holds

theorem execHostLinkUp_holds {s : State} [May M .host] [May M .rec_] (h : Holds R M B s) : HoldsR R M B (execHostLinkUp s) := by
  unfold execHostLinkUp
  with_reducible repeat' first
    | assumption | dsimp only
    | ((fail_if_success (fail_if_success (apply Holds.probe; dsimp only))); apply Holds.mk0
        <;> first | exact .inl May.yes | exact .inr rfl | skip)
    | apply HoldsR.next | apply State.raise_holds

theorem execFunctionLevelReset_holds {s : State} [May M .host] [May M .rec_] [May M .setup] (h : Holds R M B s) :
    HoldsR R M B (execFunctionLevelReset s) := by
  unfold execFunctionLevelReset
  with_reducible repeat' first
    | assumption | dsimp only
    | ((fail_if_success (fail_if_success (apply Holds.probe; dsimp only))); apply Holds.mk0
        <;> first | exact .inl May.yes | exact .inr rfl | skip)
    | apply HoldsR.next | apply State.discardStaged_holds | apply State.abandonQueues_holds
    | (simp only [Setup.ok_iff] at *; simp_all; done) | split | (simp_all; done)
    | ((fail_if_success (fail_if_success (apply Holds.probe; dsimp only))); apply Holds.mkSetup
        <;> first | exact .inl May.yes | exact .inr rfl | skip)

theorem execCreditCheck_holds {second : Nat} {s : State} [May M .time] [May M .host] [May M .rec_] (h : Holds R M B s) :
    HoldsR R M B (execCreditCheck second s) := by
  unfold execCreditCheck
  with_reducible repeat' first
    | assumption | intro _ | dsimp only | apply HoldsR.next | apply State.advance_holds | apply State.raise_holds
    | apply State.setQueue_holds | apply Holds.ite | apply Holds.foldl | split

theorem execIrqGapEnd_holds {q : Fin 32} {s : State} [May M .time] [May M .host] [May M .out] (h : Holds R M B s) :
    HoldsR R M B (execIrqGapEnd q s) := by
  unfold execIrqGapEnd
  with_reducible repeat' first
    | assumption | dsimp only | apply HoldsR.next | apply State.advance_holds | apply State.raiseIrq_holds | apply Holds.ite | split

theorem execCmdExpired_holds {s : State} [May M .time] [May M .host] [May M .rec_] (h : Holds R M B s) :
    HoldsR R M B (execCmdExpired s) := by
  unfold execCmdExpired
  with_reducible repeat' first
    | assumption | dsimp only | apply HoldsR.next | apply State.expireBoth_holds

theorem execCfgBlockWrite_holds {q : Fin 32} {s : State} [May M .host] [May M .rec_] [May M .setup] [May M .out] [May M .free] (h : Holds R M B s) :
    HoldsR R M B (execCfgBlockWrite q s) := by
  unfold execCfgBlockWrite
  with_reducible repeat' first
    | assumption | intro _ | dsimp only
    | ((fail_if_success (fail_if_success (apply Holds.probe; dsimp only))); apply Holds.mk0
        <;> first | exact .inl May.yes | exact .inr rfl | skip)
    | apply HoldsR.next | apply State.hostRow_holds | apply HoldsV.refuse | apply HoldsV.accept | apply HoldsV.ite | apply Holds.ite
    | (simp only [Setup.ok_iff] at *; simp_all; done) | split | (simp_all; done)
    | ((fail_if_success (fail_if_success (apply Holds.probe; dsimp only))); apply Holds.mkSetup
        <;> first | exact .inl May.yes | exact .inr rfl | skip)

theorem blockReadOp_holds {s : State} {d : Desc} (h : Holds R M B s) : HoldsV R M B (blockReadOp s d) := by
  unfold blockReadOp
  with_reducible repeat' first
    | assumption | dsimp only | apply HoldsV.refuse | apply HoldsV.accept | apply HoldsV.ite | apply Holds.ite | split

theorem execCfgBlockRead_holds {q : Fin 32} {s : State} [May M .host] [May M .rec_] [May M .out] [May M .free] (h : Holds R M B s) :
    HoldsR R M B (execCfgBlockRead q s) := by
  unfold execCfgBlockRead
  with_reducible repeat' first
    | assumption | intro _ | dsimp only | apply HoldsR.next | apply State.hostRow_holds | apply blockReadOp_holds

theorem slackReadOp_holds {s : State} {d : Desc} (h : Holds R M B s) : HoldsV R M B (slackReadOp s d) := by
  unfold slackReadOp
  with_reducible repeat' first
    | assumption | dsimp only | apply HoldsV.refuse | apply HoldsV.acceptRead | apply HoldsV.ite | apply Holds.ite | split

theorem execSlackRead_holds {q : Fin 32} {s : State} [May M .host] [May M .rec_] [May M .out] [May M .free] (h : Holds R M B s) :
    HoldsR R M B (execSlackRead q s) := by
  unfold execSlackRead
  with_reducible repeat' first
    | assumption | intro _ | dsimp only | apply HoldsR.next | apply State.hostRow_holds | apply slackReadOp_holds

end Sys2Proof.Machine
end

