-- ==== Sys2Proof/Laws/KeepSense.lean ====
section
/-! SUPPORT. What is kept (Laws/Holds.lean) by measurement, the plant interfaces, the recorder and the rings: one lemma per operation and per command's meaning. -/
namespace Sys2Proof.Machine
variable {R : Bool} {M : Part → Bool} {B : State}

theorem State.disagree_holds {s : State} [May M .meas] [May M .est] [May M .ledger] [May M .rec_] (h : Holds R M B s) :
    Holds R M B (State.disagree s) := by
  unfold State.disagree
  with_reducible repeat' first
    | assumption | dsimp only
    | ((fail_if_success (fail_if_success (apply Holds.probe; dsimp only))); apply Holds.mk0
        <;> first | exact .inl May.yes | exact .inr rfl | skip)
    | apply State.raise_holds | apply State.bookJudgement_holds | apply Holds.ite | split

theorem execCurrentCompare_holds {second : Nat} {s : State} [May M .time] [May M .meas] [May M .est] [May M .ledger] [May M .rec_] (h : Holds R M B s) :
    HoldsR R M B (execCurrentCompare second s) := by
  unfold execCurrentCompare
  with_reducible repeat' first
    | assumption | intro _ | dsimp only | apply HoldsR.next | apply State.onMeas_holds | apply State.advance_holds
    | apply State.disagree_holds | apply Holds.ite | split

theorem execCurrentJudgementEnd_holds {s : State} [May M .time] [May M .meas] [May M .ledger] (h : Holds R M B s) :
    HoldsR R M B (execCurrentJudgementEnd s) := by
  unfold execCurrentJudgementEnd
  with_reducible repeat' first
    | assumption | dsimp only
    | ((fail_if_success (fail_if_success (apply Holds.probe; dsimp only))); apply Holds.mk0
        <;> first | exact .inl May.yes | exact .inr rfl | skip)
    | apply HoldsR.next | apply State.advance_holds | split

theorem State.orderTest_holds {s : State} {k : Nat} {t : Nat} [May M .meas] (h : Holds R M B s) :
    Holds R M B (State.orderTest s k t) := by
  unfold State.orderTest
  with_reducible repeat' first
    | assumption | intro _ | dsimp only | apply State.onTap_holds

theorem execSumMismatch_holds {k : Fin 32} {chain : Fin 2} {s : State} [May M .meas] [May M .rec_] (h : Holds R M B s) :
    HoldsR R M B (execSumMismatch k chain s) := by
  unfold execSumMismatch
  with_reducible repeat' first
    | assumption | intro _ | dsimp only | apply HoldsR.next | apply State.raise_holds | apply State.onStM_holds
    | apply State.orderTest_holds | apply Holds.ite | split

theorem execUnusedChannel_holds {k : Fin 32} {c : Fin 16} {s : State} [May M .meas] [May M .rec_] (h : Holds R M B s) :
    HoldsR R M B (execUnusedChannel k c s) := by
  unfold execUnusedChannel
  with_reducible repeat' first
    | assumption | intro _ | dsimp only | apply HoldsR.next | apply State.raise_holds | apply State.onStM_holds | apply Holds.ite
    | split

theorem State.compareCell_holds {s : State} {c : Nat} [May M .meas] [May M .rec_] (h : Holds R M B s) :
    Holds R M B (State.compareCell s c) := by
  unfold State.compareCell
  with_reducible repeat' first
    | assumption | intro _ | dsimp only | apply State.onCell_holds | apply State.raise_holds | apply State.orderTest_holds
    | apply Holds.ite | split

theorem State.diagnose_holds {s : State} [May M .meas] [May M .rec_] (h : Holds R M B s) : Holds R M B (State.diagnose s) := by
  unfold State.diagnose
  with_reducible repeat' first
    | assumption | intro _ | dsimp only
    | ((fail_if_success (fail_if_success (apply Holds.probe; dsimp only))); apply Holds.mk0
        <;> first | exact .inl May.yes | exact .inr rfl | skip)
    | apply State.onMeas_holds | apply State.raise_holds | apply State.onCell_holds | apply Holds.ite | apply Holds.foldl | split

theorem execMeasCompare_holds {second : Nat} {s : State} [May M .time] [May M .meas] [May M .rec_] (h : Holds R M B s) :
    HoldsR R M B (execMeasCompare second s) := by
  unfold execMeasCompare
  with_reducible repeat' first
    | assumption | intro _ | dsimp only | apply HoldsR.next | apply State.diagnose_holds | apply State.advance_holds
    | apply State.compareCell_holds | apply Holds.foldl

theorem State.openWire_holds {s : State} {k : Nat} {mask : Nat} [May M .ring] [May M .meas] (h : Holds R M B s) :
    Holds R M B (State.openWire s k mask) := by
  unfold State.openWire
  with_reducible repeat' first
    | assumption | intro _ | dsimp only | apply State.onStM_holds | apply State.command_holds | apply Holds.ite | split

theorem execOwRound_holds {k : Fin 32} {s : State} [May M .time] [May M .ring] [May M .meas] (h : Holds R M B s) :
    HoldsR R M B (execOwRound k s) := by
  unfold execOwRound
  with_reducible repeat' first
    | assumption | intro _ | dsimp only | apply HoldsR.next | apply State.advance_holds | apply State.onStM_holds
    | apply State.openWire_holds

theorem execOwOddStart_holds {k : Fin 32} {s : State} [May M .time] [May M .ring] [May M .meas] (h : Holds R M B s) :
    HoldsR R M B (execOwOddStart k s) := by
  unfold execOwOddStart
  with_reducible repeat' first
    | assumption | intro _ | dsimp only | apply HoldsR.next | apply State.onStM_holds | apply State.openWire_holds
    | apply State.advance_holds | split

theorem execOwRetest_holds {k : Fin 32} {t : Fin 17} {s : State} [May M .time] [May M .ring] [May M .meas] (h : Holds R M B s) :
    HoldsR R M B (execOwRetest k t s) := by
  unfold execOwRetest
  with_reducible repeat' first
    | assumption | intro _ | dsimp only | apply HoldsR.next | apply State.onTap_holds | apply State.openWire_holds
    | apply State.advance_holds | split

theorem execOwSuspicionTest_holds {k : Fin 32} {t : Fin 17} {s : State} [May M .time] [May M .ring] [May M .meas] (h : Holds R M B s) :
    HoldsR R M B (execOwSuspicionTest k t s) := by
  unfold execOwSuspicionTest
  with_reducible repeat' first
    | assumption | intro _ | dsimp only | apply HoldsR.next | apply State.advance_holds | apply State.onTap_holds
    | apply State.openWire_holds | apply Holds.ite | split

theorem State.tapResult_holds {s : State} {k : Nat} {t : Nat} {verdict : Bool} {shift : Int} [May M .meas] [May M .rec_] (h : Holds R M B s) :
    Holds R M B (State.tapResult s k t verdict shift) := by
  unfold State.tapResult
  with_reducible repeat' first
    | assumption | intro _ | dsimp only | apply State.onTap_holds | apply State.raise_holds | apply Holds.ite | split

theorem execOpenWireResultMessage_holds {k : Fin 32} {s : State} [May M .ring] [May M .meas] [May M .rec_] (h : Holds R M B s) :
    HoldsR R M B (execOpenWireResultMessage k s) := by
  unfold execOpenWireResultMessage
  with_reducible repeat' first
    | assumption | intro _ | dsimp only | apply HoldsR.next | apply State.takeMessage_holds | apply State.onStation_holds
    | apply State.tapResult_holds | apply Holds.ite | apply Holds.foldl | refine Holds.of_fst ‹_› ?_ | split

theorem execCalStepIssue_holds {k : Fin 32} {s : State} [May M .time] [May M .ring] [May M .meas] (h : Holds R M B s) :
    HoldsR R M B (execCalStepIssue k s) := by
  unfold execCalStepIssue
  with_reducible repeat' first
    | assumption | intro _ | dsimp only | apply HoldsR.next | apply State.advance_holds | apply State.onStM_holds
    | apply State.command_holds | apply Holds.ite | split

theorem execCalibrationRecordMessage_holds {k : Fin 32} {diff : Int} {s : State} [May M .ring] [May M .rec_] (h : Holds R M B s) :
    HoldsR R M B (execCalibrationRecordMessage k diff s) := by
  unfold execCalibrationRecordMessage
  with_reducible repeat' first
    | assumption | dsimp only | apply HoldsR.next | apply State.takeMessage_holds | apply State.raise_holds | apply Holds.ite
    | refine Holds.of_fst ‹_› ?_ | split

theorem execStationEventMessage_holds {k : Fin 34} {s : State} [May M .ring] (h : Holds R M B s) :
    HoldsR R M B (execStationEventMessage k s) := by
  unfold execStationEventMessage
  with_reducible repeat' first
    | assumption | dsimp only | apply HoldsR.next | apply State.takeMessage_holds | refine Holds.of_fst ‹_› ?_

theorem State.queueBalance_holds {s : State} {e : BalEntry} [May M .ledger] (h : Holds R M B s) :
    Holds R M B (State.queueBalance s e) := by
  unfold State.queueBalance
  with_reducible repeat' first
    | assumption | intro _ | dsimp only | apply State.onLedger_holds

theorem State.stationRestart_holds {s : State} {k : Nat} [May M .meas] [May M .ledger] (h : Holds R M B s) :
    Holds R M B (State.stationRestart s k) := by
  unfold State.stationRestart
  with_reducible repeat' first
    | assumption | intro _ | dsimp only | apply State.onStM_holds | apply State.queueBalance_holds | apply Holds.ite | split

theorem execIdentificationMessage_holds {k : Fin 34} {startCount : Nat} {serial : BitVec 64} {s : State} [May M .ring] [May M .meas] [May M .ledger] [May M .out] (h : Holds R M B s) :
    HoldsR R M B (execIdentificationMessage k startCount serial s) := by
  unfold execIdentificationMessage
  with_reducible repeat' first
    | assumption | intro _ | dsimp only | apply HoldsR.next | apply State.takeMessage_holds | apply State.stationRestart_holds
    | apply State.onLedger_holds | apply State.stationStart_holds | apply State.onStation_holds | apply Holds.ite
    | refine Holds.of_fst ‹_› ?_ | split

theorem State.leadBit_holds {s : State} {k : Nat} {c : Nat} {bad : Bool} [May M .meas] [May M .rec_] (h : Holds R M B s) :
    Holds R M B (State.leadBit s k c bad) := by
  unfold State.leadBit
  with_reducible repeat' first
    | assumption | intro _ | dsimp only | apply State.onCell_holds | apply State.raise_holds | apply Holds.ite | split

theorem execBalancingCountersMessage_holds {k : Fin 32} {s : State} [May M .ring] [May M .meas] [May M .ledger] [May M .rec_] (h : Holds R M B s) :
    HoldsR R M B (execBalancingCountersMessage k s) := by
  unfold execBalancingCountersMessage
  with_reducible repeat' first
    | assumption | intro _ | dsimp only | apply HoldsR.next | apply State.takeMessage_holds | apply State.onStM_holds
    | apply State.raise_holds | apply State.leadBit_holds | apply State.queueBalance_holds | apply Holds.ite | apply Holds.foldl
    | refine Holds.of_fst ‹_› ?_ | split

theorem State.balDecide_holds {s : State} [May M .meas] (h : Holds R M B s) : Holds R M B (State.balDecide s) := by
  unfold State.balDecide
  with_reducible repeat' first
    | assumption | dsimp only
    | ((fail_if_success (fail_if_success (apply Holds.probe; dsimp only))); apply Holds.mk0
        <;> first | exact .inl May.yes | exact .inr rfl | skip)

theorem execBalDecision_holds {second : Nat} {s : State} [May M .time] [May M .meas] (h : Holds R M B s) :
    HoldsR R M B (execBalDecision second s) := by
  unfold execBalDecision
  with_reducible repeat' first
    | assumption | dsimp only | apply HoldsR.next | apply State.advance_holds | apply State.balDecide_holds | apply Holds.ite | split

theorem execBalChargeUpdate_holds {s : State} [May M .meas] (h : Holds R M B s) : HoldsR R M B (execBalChargeUpdate s) := by
  unfold execBalChargeUpdate
  with_reducible repeat' first
    | assumption | intro _ | dsimp only | apply HoldsR.next | apply State.onMeas_holds | apply Holds.ite | split

theorem execBalChannelTimeout_holds {c : Fin 512} {s : State} [May M .time] [May M .meas] (h : Holds R M B s) :
    HoldsR R M B (execBalChannelTimeout c s) := by
  unfold execBalChannelTimeout
  with_reducible repeat' first
    | assumption | intro _ | dsimp only | apply HoldsR.next | apply State.onCell_holds | apply State.advance_holds | apply Holds.ite
    | split

theorem State.onPlant_holds {s : State} {f : Plant → Plant} [May M .plant] (h : Holds R M B s) :
    Holds R M B (State.onPlant s f) := by
  unfold State.onPlant
  with_reducible repeat' first
    | assumption | dsimp only
    | ((fail_if_success (fail_if_success (apply Holds.probe; dsimp only))); apply Holds.mk0
        <;> first | exact .inl May.yes | exact .inr rfl | skip)

theorem State.lanHeard_holds {s : State} {lan : Nat} [May M .plant] [May M .rec_] (h : Holds R M B s) :
    Holds R M B (State.lanHeard s lan) := by
  unfold State.lanHeard
  with_reducible repeat' first
    | assumption | intro _ | dsimp only | apply State.onEth_holds | apply State.raise_holds | apply Holds.ite | split

theorem State.prpNote_holds {s : State} {mac : Nat} {seq : Nat} [May M .plant] (h : Holds R M B s) :
    Holds R M B (State.prpNote s mac seq) := by
  unfold State.prpNote
  with_reducible repeat' first
    | assumption | intro _ | dsimp only | apply State.onPlant_holds

theorem State.plantDispatch_holds {s : State} {b : List Byte} [May M .disp] [May M .twin] [May M .rec_] [May M .out] (h : Holds R M B s) :
    Holds R M B (State.plantDispatch s b).next := by
  unfold State.plantDispatch
  with_reducible repeat' first
    | assumption | dsimp only | apply State.dispAccept_holds | apply Holds.ite | refine State.takeCopy_holds ‹_› ?_ | split

theorem State.plantStageTake_holds {s : State} {c : Cmd} {op : Nat} {seq : Word} [May M .ring] [May M .est] [May M .gate] [May M .disp] [May M .host] [May M .plant] [May M .twin] [May M .rec_] [May M .out] (h : Holds R M B s) :
    Holds R M B (State.plantStageTake s c op seq) := by
  unfold State.plantStageTake
  with_reducible repeat' first
    | assumption | intro _ | dsimp only | apply State.forward_holds | apply State.onDisp_holds | apply State.onPlant_holds
    | apply State.stageOp_holds

theorem State.plantStage_holds {s : State} {b : List Byte} [May M .ring] [May M .est] [May M .gate] [May M .disp] [May M .host] [May M .plant] [May M .twin] [May M .rec_] [May M .out] (h : Holds R M B s) :
    Holds R M B (State.plantStage s b).next := by
  unfold State.plantStage
  with_reducible repeat' first
    | assumption | dsimp only | apply State.plantStageTake_holds | apply State.noteNotReady_holds | apply Holds.ite
    | refine State.takeCopy_holds ‹_› ?_ | split

theorem PlantAnswer.ack_holds {a : PlantAnswer} {ep src : Nat} [May M .plant] [May M .out] (h : Holds R M B a.next) : Holds R M B (a.ack ep src) :=
  State.plantSendAt_holds h

theorem PlantAnswer.ackCan_holds {a : PlantAnswer} {n : Nat} [May M .plant] (h : Holds R M B a.next) : Holds R M B (a.ackCan n) :=
  State.express_holds h

theorem State.plantMessage_holds {s : State} {ep : Nat} {udp : Nat} {src : Nat} {b : List Byte} [May M .time] [May M .ring] [May M .meas] [May M .est] [May M .gate] [May M .disp] [May M .safety] [May M .host] [May M .plant] [May M .twin] [May M .rec_] [May M .out] (h : Holds R M B s) :
    Holds R M B (State.plantMessage s ep udp src b) := by
  unfold State.plantMessage
  with_reducible repeat' first
    | assumption | dsimp only | apply PlantAnswer.ack_holds | apply State.ethDrop_holds | apply State.takeFrame_holds
    | apply State.plantDispatch_holds | apply State.plantStage_holds | apply Holds.ite | split

theorem State.onCan_holds {s : State} {p : Nat} {f : CanPort → CanPort} [May M .plant] (h : Holds R M B s) :
    Holds R M B (State.onCan s p f) := by
  unfold State.onCan
  with_reducible repeat' first
    | assumption | intro _ | dsimp only | apply State.onPlant_holds

theorem State.onObj_holds {s : State} {p : Nat} {o : Nat} {f : CanObj → CanObj} [May M .plant] (h : Holds R M B s) :
    Holds R M B (State.onObj s p o f) := by
  unfold State.onObj
  with_reducible repeat' first
    | assumption | intro _ | dsimp only | apply State.onPlant_holds

theorem State.canHeard_holds {s : State} {p : Nat} [May M .plant] [May M .free] (h : Holds R M B s) :
    Holds R M B (State.canHeard s p) := by
  unfold State.canHeard
  with_reducible repeat' first
    | assumption | intro _ | dsimp only | apply State.onCan_holds | apply State.draw_holds | apply Holds.ite | split

theorem State.objectTakes_holds {s : State} {r : CanRow} {data : List Byte} {sof : Nat} [May M .plant] [May M .twin] [May M .out] (h : Holds R M B s) :
    Holds R M B (State.objectTakes s r data sof) := by
  unfold State.objectTakes
  with_reducible repeat' first
    | assumption | intro _ | dsimp only | apply State.pairSend_holds | apply State.onObj_holds | apply Holds.ite | split

theorem State.echo_holds {s : State} {r : CanRow} {data : List Byte} [May M .plant] [May M .rec_] (h : Holds R M B s) :
    Holds R M B (State.echo s r data) := by
  unfold State.echo
  with_reducible repeat' first
    | assumption | intro _ | dsimp only | apply State.onObj_holds | apply State.raise_holds | apply Holds.ite | split

theorem State.protoFrame_holds {s : State} {p : Nat} {ident : Nat} {data : List Byte} [May M .time] [May M .ring] [May M .meas] [May M .est] [May M .gate] [May M .disp] [May M .safety] [May M .host] [May M .plant] [May M .twin] [May M .rec_] [May M .out] (h : Holds R M B s) :
    Holds R M B (State.protoFrame s p ident data) := by
  unfold State.protoFrame
  with_reducible repeat' first
    | assumption | dsimp only | apply PlantAnswer.ackCan_holds | apply State.takeFrame_holds | apply State.plantDispatch_holds
    | apply State.plantStage_holds | apply Holds.ite | split

theorem State.attemptDone_holds {s : State} {p : Nat} {began : Nat} {a3 : Offer} {ok : Bool} [May M .plant] [May M .out] (h : Holds R M B s) :
    Holds R M B (State.attemptDone s p began a3 ok) := by
  unfold State.attemptDone
  with_reducible repeat' first
    | assumption | intro _ | dsimp only | apply State.emit_holds | apply State.onObj_holds | apply State.onCan_holds | apply Holds.ite
    | split

theorem State.onMb_holds {s : State} {e : Nat} {f : MbEntry → MbEntry} [May M .plant] (h : Holds R M B s) :
    Holds R M B (State.onMb s e f) := by
  unfold State.onMb
  with_reducible repeat' first
    | assumption | intro _ | dsimp only | apply State.onPlant_holds

theorem State.onSb_holds {s : State} {p : Nat} {f : SbPort → SbPort} [May M .plant] (h : Holds R M B s) :
    Holds R M B (State.onSb s p f) := by
  unfold State.onSb
  with_reducible repeat' first
    | assumption | intro _ | dsimp only | apply State.onPlant_holds

theorem State.dueEntry_holds {s : State} {p : Nat} {e : Nat × MbRow} [May M .plant] (h : Holds R M B s) :
    Holds R M B (State.dueEntry s p e) := by
  unfold State.dueEntry
  with_reducible repeat' first
    | assumption | intro _ | dsimp only | apply State.onMb_holds | apply State.onSb_holds | apply Holds.ite | split

theorem State.mbSend_holds {s : State} {p : Nat} {e : Nat} {r : MbRow} {tries : Nat} [May M .plant] [May M .out] (h : Holds R M B s) :
    Holds R M B (State.mbSend s p e r tries) := by
  unfold State.mbSend
  with_reducible repeat' first
    | assumption | intro _ | dsimp only | apply State.onSb_holds | apply State.emit_holds | apply Holds.ite | split

theorem State.mbFail_holds {s : State} {p : Nat} {cause : Nat} {code : Nat} [May M .plant] [May M .rec_] [May M .out] (h : Holds R M B s) :
    Holds R M B (State.mbFail s p cause code) := by
  unfold State.mbFail
  with_reducible repeat' first
    | assumption | intro _ | dsimp only | apply State.onSb_holds | apply State.mbSend_holds | apply State.onMb_holds
    | apply State.raise_holds | apply Holds.ite | split

theorem State.mbDone_holds {s : State} {p : Nat} {e : Nat} {r : MbRow} {regs : List Nat} [May M .plant] [May M .twin] [May M .rec_] [May M .out] (h : Holds R M B s) :
    Holds R M B (State.mbDone s p e r regs) := by
  unfold State.mbDone
  with_reducible repeat' first
    | assumption | intro _ | dsimp only | apply State.onMb_holds | apply State.onSb_holds | apply State.pairSend_holds
    | apply State.raise_holds | apply Holds.ite | split

theorem State.ethAnswer_holds {s : State} {ep : Nat} {type : Nat} {fields : List Int} [May M .plant] [May M .out] (h : Holds R M B s) :
    Holds R M B (State.ethAnswer s ep type fields) := by
  unfold State.ethAnswer
  with_reducible repeat' first
    | assumption | dsimp only | apply State.prpTrailer_holds | apply State.emit_holds | apply Holds.ite | split

theorem execArpRequest_holds {ep : Fin 4} {target : Nat} {s : State} [May M .plant] [May M .out] (h : Holds R M B s) :
    HoldsR R M B (execArpRequest ep target s) := by
  unfold execArpRequest
  with_reducible repeat' first
    | assumption | intro _ | dsimp only | apply HoldsR.next | apply State.ethIn_holds | apply State.ethAnswer_holds | apply Holds.ite
    | split

theorem execIcmpEchoRequest_holds {ep : Fin 4} {target : Nat} {ident : BitVec 16} {seq : BitVec 16} {data : List Byte} {s : State} [May M .plant] [May M .out] (h : Holds R M B s) :
    HoldsR R M B (execIcmpEchoRequest ep target ident seq data s) := by
  unfold execIcmpEchoRequest
  with_reducible repeat' first
    | assumption | intro _ | dsimp only | apply HoldsR.next | apply State.ethIn_holds | apply State.ethDrop_holds
    | apply State.ethAnswer_holds | apply Holds.ite | split

theorem execPlantMessage_holds {ep : Fin 4} {udp : Nat} {src : Nat} {rct : Option (Nat × BitVec 16)} {bytes : List Byte} {s : State} [May M .time] [May M .ring] [May M .meas] [May M .est] [May M .gate] [May M .disp] [May M .safety] [May M .host] [May M .plant] [May M .twin] [May M .rec_] [May M .out] (h : Holds R M B s) :
    HoldsR R M B (execPlantMessage ep udp src rct bytes s) := by
  unfold execPlantMessage
  with_reducible repeat' first
    | assumption | intro _ | dsimp only | apply HoldsR.next | apply State.ethIn_holds | apply State.ethDrop_holds
    | apply State.plantMessage_holds | apply State.lanHeard_holds | apply State.prpNote_holds | apply Holds.ite | split

theorem execEthLinkChange_holds {ep : Fin 4} {up : Bool} {gig : Bool} {s : State} [May M .plant] (h : Holds R M B s) :
    HoldsR R M B (execEthLinkChange ep up gig s) := by
  unfold execEthLinkChange
  with_reducible repeat' first
    | assumption | intro _ | dsimp only | apply HoldsR.next | apply State.onEth_holds | apply Holds.ite | split

theorem execPrpSupervisionSend_holds {s : State} [May M .time] [May M .plant] [May M .out] (h : Holds R M B s) :
    HoldsR R M B (execPrpSupervisionSend s) := by
  unfold execPrpSupervisionSend
  with_reducible repeat' first
    | assumption | intro _ | dsimp only | apply HoldsR.next | apply State.advance_holds | apply State.onPlant_holds
    | apply State.ethAnswer_holds | apply Holds.ite | split

theorem execPrpSupervisionReceived_holds {lan : Fin 2} {mac : Nat} {s : State} [May M .plant] [May M .rec_] (h : Holds R M B s) :
    HoldsR R M B (execPrpSupervisionReceived lan mac s) := by
  unfold execPrpSupervisionReceived
  with_reducible repeat' first
    | assumption | intro _ | dsimp only | apply HoldsR.next | apply State.ethIn_holds | apply State.onPlant_holds
    | apply State.lanHeard_holds

theorem execPrpNodeAgedOut_holds {s : State} [May M .time] [May M .plant] (h : Holds R M B s) :
    HoldsR R M B (execPrpNodeAgedOut s) := by
  unfold execPrpNodeAgedOut
  with_reducible repeat' first
    | assumption | intro _ | dsimp only | apply HoldsR.next | apply State.onPlant_holds | apply State.advance_holds | split

theorem execPrpLanDown_holds {lan : Fin 2} {s : State} [May M .time] [May M .plant] [May M .rec_] (h : Holds R M B s) :
    HoldsR R M B (execPrpLanDown lan s) := by
  unfold execPrpLanDown
  with_reducible repeat' first
    | assumption | intro _ | dsimp only | apply HoldsR.next | apply State.raise_holds | apply State.onEth_holds
    | apply State.advance_holds | apply Holds.ite | split

theorem execPrpLanUp_holds {lan : Fin 2} {s : State} [May M .plant] [May M .rec_] (h : Holds R M B s) :
    HoldsR R M B (execPrpLanUp lan s) := by
  unfold execPrpLanUp
  with_reducible repeat' first
    | assumption | intro _ | dsimp only | apply HoldsR.next | apply State.ethIn_holds | apply State.lanHeard_holds

theorem execCanFrameReceived_holds {p : Fin 6} {ext : Bool} {ident : Nat} {sof : Nat} {data : List Byte} {s : State} [May M .time] [May M .ring] [May M .meas] [May M .est] [May M .gate] [May M .disp] [May M .safety] [May M .host] [May M .plant] [May M .twin] [May M .rec_] [May M .out] [May M .free] (h : Holds R M B s) :
    HoldsR R M B (execCanFrameReceived p ext ident sof data s) := by
  unfold execCanFrameReceived
  with_reducible repeat' first
    | assumption | intro _ | dsimp only | apply HoldsR.next | apply State.canHeard_holds | apply State.protoFrame_holds
    | apply State.echo_holds | apply State.objectTakes_holds | apply Holds.ite | apply Holds.foldl | split

theorem execCanObjectTimeout_holds {p : Fin 6} {o : Fin 128} {s : State} [May M .time] [May M .plant] (h : Holds R M B s) :
    HoldsR R M B (execCanObjectTimeout p o s) := by
  unfold execCanObjectTimeout
  with_reducible repeat' first
    | assumption | intro _ | dsimp only | apply HoldsR.next | apply State.onObj_holds | apply State.advance_holds | apply Holds.ite
    | split

theorem execCanPeriodicQueue_holds {p : Fin 6} {o : Fin 128} {s : State} [May M .time] [May M .plant] (h : Holds R M B s) :
    HoldsR R M B (execCanPeriodicQueue p o s) := by
  unfold execCanPeriodicQueue
  with_reducible repeat' first
    | assumption | intro _ | dsimp only | apply HoldsR.next | apply State.onObj_holds | apply State.advance_holds
    | apply State.canQueue_holds | apply Holds.ite | split

theorem execCanAnnounce_holds {p : Fin 6} {s : State} [May M .time] [May M .plant] (h : Holds R M B s) :
    HoldsR R M B (execCanAnnounce p s) := by
  unfold execCanAnnounce
  with_reducible repeat' first
    | assumption | intro _ | dsimp only | apply HoldsR.next | apply State.onCan_holds | apply State.advance_holds
    | apply State.express_holds | apply Holds.ite | split

theorem State.attemptOk_holds {s : State} {p : Nat} [May M .plant] [May M .rec_] (h : Holds R M B s) :
    Holds R M B (State.attemptOk s p) := by
  unfold State.attemptOk
  with_reducible repeat' first
    | assumption | intro _ | dsimp only | apply State.onCan_holds | apply State.raise_holds | apply Holds.ite | split

theorem State.attemptErr_holds {s : State} {p : Nat} {err : Nat} {dominant : Bool} [May M .plant] [May M .rec_] (h : Holds R M B s) :
    Holds R M B (State.attemptErr s p err dominant) := by
  unfold State.attemptErr
  with_reducible repeat' first
    | assumption | intro _ | dsimp only | apply State.onCan_holds | apply State.raise_holds | apply Holds.ite | split

theorem execCanTxAttemptEnd_holds {p : Fin 6} {began : Nat} {err : Fin 7} {dominant : Bool} {s : State} [May M .plant] [May M .rec_] [May M .out] (h : Holds R M B s) :
    HoldsR R M B (execCanTxAttemptEnd p began err dominant s) := by
  unfold execCanTxAttemptEnd
  with_reducible repeat' first
    | assumption | dsimp only | apply HoldsR.next | apply State.attemptDone_holds | apply State.attemptOk_holds
    | apply State.attemptErr_holds | apply Holds.ite | split

theorem execCanRecovered_holds {p : Fin 6} {s : State} [May M .plant] [May M .rec_] (h : Holds R M B s) :
    HoldsR R M B (execCanRecovered p s) := by
  unfold execCanRecovered
  with_reducible repeat' first
    | assumption | intro _ | dsimp only | apply HoldsR.next | apply State.raise_holds | apply State.onCan_holds | apply Holds.ite
    | split

theorem execModbusPoll_holds {p : Fin 4} {s : State} [May M .time] [May M .plant] [May M .out] (h : Holds R M B s) :
    HoldsR R M B (execModbusPoll p s) := by
  unfold execModbusPoll
  with_reducible repeat' first
    | assumption | intro _ | dsimp only | apply HoldsR.next | apply State.advance_holds | apply State.dueEntry_holds
    | apply State.onSb_holds | apply State.mbSend_holds | apply State.onMb_holds | apply Holds.ite | apply Holds.foldl | split

theorem execModbusReply_holds {p : Fin 4} {bytes : List Byte} {whole : Bool} {s : State} [May M .plant] [May M .twin] [May M .rec_] [May M .out] (h : Holds R M B s) :
    HoldsR R M B (execModbusReply p bytes whole s) := by
  unfold execModbusReply
  with_reducible repeat' first
    | assumption | intro _ | dsimp only | apply HoldsR.next | apply State.onSb_holds | apply State.mbDone_holds
    | apply State.mbFail_holds | split

theorem execModbusTimeout_holds {p : Fin 4} {s : State} [May M .time] [May M .plant] [May M .rec_] [May M .out] (h : Holds R M B s) :
    HoldsR R M B (execModbusTimeout p s) := by
  unfold execModbusTimeout
  with_reducible repeat' first
    | assumption | dsimp only | apply HoldsR.next | apply State.mbFail_holds | apply State.advance_holds | split

theorem execModbusRequestHeard_holds {p : Fin 4} {s : State} [May M .plant] (h : Holds R M B s) :
    HoldsR R M B (execModbusRequestHeard p s) := by
  unfold execModbusRequestHeard
  with_reducible repeat' first
    | assumption | intro _ | dsimp only | apply HoldsR.next | apply State.onSb_holds

theorem execEthStatRead_holds {n : Fin 4} {s : State} [May M .plant] [May M .out] (h : Holds R M B s) :
    HoldsR R M B (execEthStatRead n s) := by
  unfold execEthStatRead
  with_reducible repeat' first
    | assumption | intro _ | dsimp only | apply HoldsR.next | apply State.readReg_holds | apply State.onEth_holds

theorem execCanStatRead_holds {n : Fin 6} {s : State} [May M .plant] [May M .out] (h : Holds R M B s) :
    HoldsR R M B (execCanStatRead n s) := by
  unfold execCanStatRead
  with_reducible repeat' first
    | assumption | intro _ | dsimp only | apply HoldsR.next | apply State.readReg_holds | apply State.onCan_holds

theorem execSbStatRead_holds {n : Fin 4} {s : State} [May M .plant] [May M .out] (h : Holds R M B s) :
    HoldsR R M B (execSbStatRead n s) := by
  unfold execSbStatRead
  with_reducible repeat' first
    | assumption | intro _ | dsimp only | apply HoldsR.next | apply State.readReg_holds | apply State.onSb_holds

theorem State.publish_holds {s : State} {r : Rec} [May M .host] [May M .plant] [May M .rec_] [May M .out] (h : Holds R M B s) :
    Holds R M B (State.publish s r) := by
  unfold State.publish
  with_reducible repeat' first
    | assumption | dsimp only | apply State.release_holds | apply State.plantSend_holds | apply Holds.ite | split

theorem State.writeRec_holds {s : State} {e : Event} {late : Bool} [May M .host] [May M .plant] [May M .rec_] [May M .out] (h : Holds R M B s) :
    Holds R M B (State.writeRec s e late) := by
  unfold State.writeRec
  with_reducible repeat' first
    | assumption | dsimp only
    | ((fail_if_success (fail_if_success (apply Holds.probe; dsimp only))); apply Holds.mk0
        <;> first | exact .inl May.yes | exact .inr rfl | skip)
    | apply State.publish_holds | apply Holds.ite | split

theorem State.store_holds {s : State} {e : Event} {late : Bool} {counted : Bool} [May M .host] [May M .plant] [May M .rec_] [May M .out] (h : Holds R M B s) :
    Holds R M B (State.store s e late counted) := by
  unfold State.store
  with_reducible repeat' first
    | assumption | dsimp only
    | ((fail_if_success (fail_if_success (apply Holds.probe; dsimp only))); apply Holds.mk0
        <;> first | exact .inl May.yes | exact .inr rfl | skip)
    | apply State.writeRec_holds | apply Holds.ite | split

theorem State.overflowed_holds {s : State} {e : Event} [May M .rec_] (h : Holds R M B s) : Holds R M B (State.overflowed s e) := by
  unfold State.overflowed
  with_reducible repeat' first
    | assumption | dsimp only
    | ((fail_if_success (fail_if_success (apply Holds.probe; dsimp only))); apply Holds.mk0
        <;> first | exact .inl May.yes | exact .inr rfl | skip)
    | apply Holds.ite | split

theorem State.hold_holds {s : State} {e : Event} [May M .rec_] (h : Holds R M B s) : Holds R M B (State.hold s e) := by
  unfold State.hold
  with_reducible repeat' first
    | assumption | dsimp only
    | ((fail_if_success (fail_if_success (apply Holds.probe; dsimp only))); apply Holds.mk0
        <;> first | exact .inl May.yes | exact .inr rfl | skip)
    | apply State.overflowed_holds | apply Holds.ite | split

theorem State.takeEvent_holds {s : State} [May M .host] [May M .plant] [May M .rec_] [May M .out] (h : Holds R M B s) :
    Holds R M B (State.takeEvent s) := by
  unfold State.takeEvent
  with_reducible repeat' first
    | assumption | dsimp only
    | ((fail_if_success (fail_if_success (apply Holds.probe; dsimp only))); apply Holds.mk0
        <;> first | exact .inl May.yes | exact .inr rfl | skip)
    | apply State.hold_holds | apply State.store_holds | apply Holds.ite | split

theorem execRecorderWrite_holds {s : State} [May M .host] [May M .plant] [May M .rec_] [May M .out] (h : Holds R M B s) :
    HoldsR R M B (execRecorderWrite s) := by
  unfold execRecorderWrite
  with_reducible repeat' first
    | assumption | dsimp only | apply HoldsR.next | apply State.takeEvent_holds

theorem State.drainHolding_holds {s : State} [May M .host] [May M .plant] [May M .rec_] [May M .out] (h : Holds R M B s) :
    Holds R M B (State.drainHolding s) := by
  unfold State.drainHolding
  with_reducible repeat' first
    | assumption | intro _ | dsimp only
    | ((fail_if_success (fail_if_success (apply Holds.probe; dsimp only))); apply Holds.mk0
        <;> first | exact .inl May.yes | exact .inr rfl | skip)
    | apply State.store_holds | apply Holds.ite | apply Holds.foldl | split

theorem execRecorderResume_holds {s : State} [May M .host] [May M .plant] [May M .rec_] [May M .out] (h : Holds R M B s) :
    HoldsR R M B (execRecorderResume s) := by
  unfold execRecorderResume
  with_reducible repeat' first
    | assumption | dsimp only | apply HoldsR.next | apply State.drainHolding_holds | apply Holds.ite | split

theorem execRecorderCountCheck_holds {second : Nat} {s : State} [May M .time] [May M .rec_] (h : Holds R M B s) :
    HoldsR R M B (execRecorderCountCheck second s) := by
  unfold execRecorderCountCheck
  with_reducible repeat' first
    | assumption | dsimp only
    | ((fail_if_success (fail_if_success (apply Holds.probe; dsimp only))); apply Holds.mk0
        <;> first | exact .inl May.yes | exact .inr rfl | skip)
    | apply HoldsR.next | apply State.advance_holds | apply State.raise_holds | apply Holds.ite | split

theorem execClearRegisterPointer_holds {second : Nat} {s : State} [May M .time] [May M .rec_] (h : Holds R M B s) :
    HoldsR R M B (execClearRegisterPointer second s) := by
  unfold execClearRegisterPointer
  with_reducible repeat' first
    | assumption | dsimp only
    | ((fail_if_success (fail_if_success (apply Holds.probe; dsimp only))); apply Holds.mk0
        <;> first | exact .inl May.yes | exact .inr rfl | skip)
    | apply HoldsR.next | apply State.advance_holds | apply Holds.ite | split

theorem execFreezeTimeout_holds {svc : Bool} {s : State} [May M .time] [May M .rec_] (h : Holds R M B s) :
    HoldsR R M B (execFreezeTimeout svc s) := by
  unfold execFreezeTimeout
  with_reducible repeat' first
    | assumption | dsimp only
    | ((fail_if_success (fail_if_success (apply Holds.probe; dsimp only))); apply Holds.mk0
        <;> first | exact .inl May.yes | exact .inr rfl | skip)
    | apply HoldsR.next | apply State.advance_holds | apply State.raise_holds | apply Holds.ite | split

theorem State.touchFreeze_holds {s : State} {svc : Bool} [May M .rec_] (h : Holds R M B s) :
    Holds R M B (State.touchFreeze s svc) := by
  unfold State.touchFreeze
  with_reducible repeat' first
    | assumption | dsimp only
    | ((fail_if_success (fail_if_success (apply Holds.probe; dsimp only))); apply Holds.mk0
        <;> first | exact .inl May.yes | exact .inr rfl | skip)
    | apply Holds.ite | split

theorem recorderRead_holds {svc : Bool} {s : State} {d : Desc} [May M .rec_] (h : Holds R M B s) :
    HoldsV R M B (recorderRead svc s d) := by
  unfold recorderRead
  with_reducible repeat' first
    | assumption | dsimp only | apply State.touchFreeze_holds | apply HoldsV.refuse | apply HoldsV.accept | apply HoldsV.ite
    | apply Holds.ite | split

theorem recorderFreeze_holds {svc : Bool} {s : State} {a2 : Desc} [May M .rec_] (h : Holds R M B s) :
    HoldsV R M B (recorderFreeze svc s a2) := by
  unfold recorderFreeze
  with_reducible repeat' first
    | assumption | dsimp only
    | ((fail_if_success (fail_if_success (apply Holds.probe; dsimp only))); apply Holds.mk0
        <;> first | exact .inl May.yes | exact .inr rfl | skip)
    | apply HoldsV.accept | apply HoldsV.ite | apply Holds.ite | split

theorem recorderThaw_holds {svc : Bool} {s : State} {a2 : Desc} [May M .rec_] (h : Holds R M B s) :
    HoldsV R M B (recorderThaw svc s a2) := by
  unfold recorderThaw
  with_reducible repeat' first
    | assumption | dsimp only
    | ((fail_if_success (fail_if_success (apply Holds.probe; dsimp only))); apply Holds.mk0
        <;> first | exact .inl May.yes | exact .inr rfl | skip)
    | apply HoldsV.refuse | apply HoldsV.accept | apply HoldsV.ite | apply Holds.ite | split

theorem recorderClear_holds {svc : Bool} {s : State} {d : Desc} [May M .host] [May M .plant] [May M .rec_] [May M .out] (h : Holds R M B s) :
    HoldsV R M B (recorderClear svc s d) := by
  unfold recorderClear
  with_reducible repeat' first
    | assumption | intro _ | dsimp only
    | ((fail_if_success (fail_if_success (apply Holds.probe; dsimp only))); apply Holds.mk0
        <;> first | exact .inl May.yes | exact .inr rfl | skip)
    | apply State.setBacklog_holds | apply State.touchFreeze_holds | apply State.hold_holds | apply State.store_holds
    | apply HoldsV.refuse | apply HoldsV.accept | apply HoldsV.ite | apply Holds.ite | apply Holds.foldl | split

theorem recorderClearReg_holds {svc : Bool} {s : State} {a2 : Desc} [May M .rec_] (h : Holds R M B s) :
    HoldsV R M B (recorderClearReg svc s a2) := by
  unfold recorderClearReg
  with_reducible repeat' first
    | assumption | dsimp only | apply State.touchFreeze_holds | apply HoldsV.accept

theorem recorderCodes_holds {svc : Bool} {s : State} {a2 : Desc} [May M .rec_] (h : Holds R M B s) :
    HoldsV R M B (recorderCodes svc s a2) := by
  unfold recorderCodes
  with_reducible repeat' first
    | assumption | dsimp only | apply State.touchFreeze_holds | apply HoldsV.accept

theorem execRecorderRead_holds {q : Fin 32} {s : State} [May M .host] [May M .rec_] [May M .out] [May M .free] (h : Holds R M B s) :
    HoldsR R M B (execRecorderRead q s) := by
  unfold execRecorderRead
  with_reducible repeat' first
    | assumption | intro _ | dsimp only | apply HoldsR.next | apply State.hostRow_holds | apply recorderRead_holds

theorem execRecorderFreeze_holds {q : Fin 32} {s : State} [May M .host] [May M .rec_] [May M .out] [May M .free] (h : Holds R M B s) :
    HoldsR R M B (execRecorderFreeze q s) := by
  unfold execRecorderFreeze
  with_reducible repeat' first
    | assumption | intro _ | dsimp only | apply HoldsR.next | apply State.hostRow_holds | apply recorderFreeze_holds

theorem execRecorderThaw_holds {q : Fin 32} {s : State} [May M .host] [May M .rec_] [May M .out] [May M .free] (h : Holds R M B s) :
    HoldsR R M B (execRecorderThaw q s) := by
  unfold execRecorderThaw
  with_reducible repeat' first
    | assumption | intro _ | dsimp only | apply HoldsR.next | apply State.hostRow_holds | apply recorderThaw_holds

theorem execRecorderClear_holds {q : Fin 32} {s : State} [May M .host] [May M .plant] [May M .rec_] [May M .out] [May M .free] (h : Holds R M B s) :
    HoldsR R M B (execRecorderClear q s) := by
  unfold execRecorderClear
  with_reducible repeat' first
    | assumption | intro _ | dsimp only | apply HoldsR.next | apply State.hostRow_holds | apply recorderClear_holds

theorem execClearReg_holds {q : Fin 32} {s : State} [May M .host] [May M .rec_] [May M .out] [May M .free] (h : Holds R M B s) :
    HoldsR R M B (execClearReg q s) := by
  unfold execClearReg
  with_reducible repeat' first
    | assumption | intro _ | dsimp only | apply HoldsR.next | apply State.hostRow_holds | apply recorderClearReg_holds

theorem execCodes_holds {q : Fin 32} {s : State} [May M .host] [May M .rec_] [May M .out] [May M .free] (h : Holds R M B s) :
    HoldsR R M B (execCodes q s) := by
  unfold execCodes
  with_reducible repeat' first
    | assumption | intro _ | dsimp only | apply HoldsR.next | apply State.hostRow_holds | apply recorderCodes_holds

theorem State.launch_holds {s : State} {r : Nat} {e : End} {type : Nat} {grid : Nat} {time : Nat} {ps : List Nat} [May M .out] (h : Holds R M B s) :
    Holds R M B (State.launch s r e type grid time ps) := by
  unfold State.launch
  with_reducible repeat' first
    | assumption | dsimp only | apply State.emit_holds

theorem State.launchEnd_holds {s : State} {g : Nat} {sweep : Bool} {r : Nat} {e : End} [May M .out] (h : Holds R M B s) :
    Holds R M B (State.launchEnd s g sweep r e) := by
  unfold State.launchEnd
  with_reducible repeat' first
    | assumption | dsimp only | apply State.launch_holds | apply Holds.ite | split

theorem State.gridInputs_holds {s : State} {g : Nat} [May M .plant] (h : Holds R M B s) : Holds R M B (State.gridInputs s g) := by
  unfold State.gridInputs
  with_reducible repeat' first
    | assumption | dsimp only
    | ((fail_if_success (fail_if_success (apply Holds.probe; dsimp only))); apply Holds.mk0
        <;> first | exact .inl May.yes | exact .inr rfl | skip)
    | apply Holds.ite | split

theorem State.closeInterval_holds {s : State} {g : Nat} {dio : BitVec 16} [May M .twin] [May M .out] (h : Holds R M B s) :
    Holds R M B (State.closeInterval s g dio) := by
  unfold State.closeInterval
  with_reducible repeat' first
    | assumption | intro _ | dsimp only | apply State.pairSend_holds | apply State.onTwin_holds | apply Holds.ite | split

theorem State.restoreLine_holds {s : State} {g : Nat} {r : Nat} [May M .ring] [May M .rec_] (h : Holds R M B s) :
    Holds R M B (State.restoreLine s g r) := by
  unfold State.restoreLine
  with_reducible repeat' first
    | assumption | intro _ | dsimp only | apply State.raise_holds | apply State.onLine_holds | apply Holds.ite | split

theorem State.latchBus_holds {s : State} [May M .loop] (h : Holds R M B s) : Holds R M B (State.latchBus s) := by
  unfold State.latchBus
  with_reducible repeat' first
    | assumption | intro _ | dsimp only | apply State.onLoop_holds | apply Holds.ite | split

theorem execGridInstant_holds {fgi : Int} {dio : BitVec 16} {s : State} [May M .fabric] [May M .time] [May M .ring] [May M .est] [May M .loop] [May M .prog] [May M .plant] [May M .twin] [May M .rec_] [May M .out] (h : Holds R M B s) :
    HoldsR R M B (execGridInstant fgi dio s) := by
  unfold execGridInstant
  with_reducible repeat' first
    | assumption | intro _ | dsimp only
    | ((fail_if_success (fail_if_success (apply Holds.probe; dsimp only))); apply Holds.mk0
        <;> first | exact .inl May.yes | exact .inr rfl | skip)
    | apply HoldsR.next | apply State.impTick_holds | apply State.advance_holds | apply State.restoreLine_holds
    | apply State.closeInterval_holds | apply State.gridInputs_holds | apply State.onProg_holds | apply State.latchBus_holds
    | apply State.launchEnd_holds | apply Holds.ite | apply Holds.foldl | split

theorem execReturnTimeout_holds {r : Fin 8} {s : State} [May M .time] [May M .out] (h : Holds R M B s) :
    HoldsR R M B (execReturnTimeout r s) := by
  unfold execReturnTimeout
  with_reducible repeat' first
    | assumption | dsimp only | apply HoldsR.next | apply State.advance_holds | apply State.launch_holds | apply Holds.ite | split

theorem State.takeToken_holds {s : State} {r : Nat} {from_ : End} {b : List Byte} [May M .ring] (h : Holds R M B s) :
    Holds R M B (State.takeToken s r from_ b) := by
  unfold State.takeToken
  with_reducible repeat' first
    | assumption | intro _ | dsimp only
    | ((fail_if_success (fail_if_success (apply Holds.probe; dsimp only))); apply Holds.mk0
        <;> first | exact .inl May.yes | exact .inr rfl | skip)
    | apply State.onLine_holds | apply Holds.ite | split

theorem State.crossed_holds {s : State} {r : Nat} {from_ : End} {whole : Bool} [May M .ring] (h : Holds R M B s) :
    Holds R M B (State.crossed s r from_ whole) := by
  unfold State.crossed
  with_reducible repeat' first
    | assumption | intro _ | dsimp only | apply State.onLine_holds | apply State.breakUnplaced_holds | apply Holds.ite | split

theorem State.wrapped_holds {s : State} {r : Nat} {from_ : End} {wpos : Nat} [May M .ring] [May M .rec_] (h : Holds R M B s) :
    Holds R M B (State.wrapped s r from_ wpos) := by
  unfold State.wrapped
  with_reducible repeat' first
    | assumption | intro _ | dsimp only | apply State.onLine_holds | apply State.degrade_holds | apply Holds.ite | split

theorem State.takeSlots_holds {s : State} {r : Nat} {from_ : End} {first : Nat} {count : Nat} {grid : Nat} {late : Bool} {receipt : Nat} {b : List Byte} [May M .ring] [May M .rec_] [May M .out] (h : Holds R M B s) :
    Holds R M B (State.takeSlots s r from_ first count grid late receipt b) := by
  unfold State.takeSlots
  with_reducible repeat' first
    | assumption | intro _ | dsimp only | apply State.takeSlot_holds | apply Holds.foldl | split

theorem execRingFrameReceived_holds {r : Fin 8} {e : End} {bytes : List Byte} {cut : Bool} {s : State} [May M .ring] [May M .twin] [May M .rec_] [May M .out] (h : Holds R M B s) :
    HoldsR R M B (execRingFrameReceived r e bytes cut s) := by
  unfold execRingFrameReceived
  with_reducible repeat' first
    | assumption | intro _ | dsimp only | apply HoldsR.next | apply State.raise_holds | apply State.onLine_holds
    | apply State.takeToken_holds | apply State.wrapped_holds | apply State.crossed_holds | apply State.takeSlots_holds
    | apply State.pairSend_holds | apply Holds.ite | split

theorem execCatchupLaunch_holds {r : Fin 8} {e : End} {s : State} [May M .out] (h : Holds R M B s) :
    HoldsR R M B (execCatchupLaunch r e s) := by
  unfold execCatchupLaunch
  with_reducible repeat' first
    | assumption | intro _ | dsimp only | apply HoldsR.next | apply State.launch_holds | apply Holds.ite | apply Holds.foldl | split

theorem execLossOfSignal_holds {r : Fin 8} {e : End} {s : State} [May M .ring] [May M .rec_] (h : Holds R M B s) :
    HoldsR R M B (execLossOfSignal r e s) := by
  unfold execLossOfSignal
  with_reducible repeat' first
    | assumption | intro _ | dsimp only | apply HoldsR.next | apply State.onLine_holds | apply State.degrade_holds | apply Holds.ite
    | split

theorem execLossOfSignalCleared_holds {r : Fin 8} {e : End} {s : State} [May M .ring] (h : Holds R M B s) :
    HoldsR R M B (execLossOfSignalCleared r e s) := by
  unfold execLossOfSignalCleared
  with_reducible repeat' first
    | assumption | intro _ | dsimp only | apply HoldsR.next | apply State.onLine_holds

theorem execRingPresenceTimeout_holds {s : State} [May M .ring] (h : Holds R M B s) :
    HoldsR R M B (execRingPresenceTimeout s) := by
  unfold execRingPresenceTimeout
  with_reducible repeat' first
    | assumption | dsimp only
    | ((fail_if_success (fail_if_success (apply Holds.probe; dsimp only))); apply Holds.mk0
        <;> first | exact .inl May.yes | exact .inr rfl | skip)
    | apply HoldsR.next | apply Holds.ite | split

theorem execRingRestore_holds {r : Fin 8} {s : State} [May M .ring] (h : Holds R M B s) : HoldsR R M B (execRingRestore r s) := by
  unfold execRingRestore
  with_reducible repeat' first
    | assumption | intro _ | dsimp only | apply HoldsR.next | apply State.onLine_holds | apply Holds.ite | split

theorem State.ringStart_holds {s : State} {r : Nat} [May M .ring] [May M .meas] [May M .out] (h : Holds R M B s) :
    Holds R M B (State.ringStart s r) := by
  unfold State.ringStart
  with_reducible repeat' first
    | assumption | intro _ | dsimp only
    | ((fail_if_success (fail_if_success (apply Holds.probe; dsimp only))); apply Holds.mk0
        <;> first | exact .inl May.yes | exact .inr rfl | skip)
    | apply State.onLine_holds | apply State.ringService_holds | apply Holds.ite | split

theorem execRingStart_holds {r : Fin 8} {s : State} [May M .ring] [May M .meas] [May M .out] (h : Holds R M B s) :
    HoldsR R M B (execRingStart r s) := by
  unfold execRingStart
  with_reducible repeat' first
    | assumption | dsimp only | apply HoldsR.next | apply State.ringStart_holds

theorem State.writeFirmware_holds {s : State} {r : Nat} [May M .out] (h : Holds R M B s) :
    Holds R M B (State.writeFirmware s r) := by
  unfold State.writeFirmware
  with_reducible repeat' first
    | assumption | intro _ | dsimp only | apply State.ringService_holds | apply Holds.ite | apply Holds.foldl | split

theorem State.configureRing_holds {s : State} {r : Nat} [May M .ring] [May M .rec_] [May M .out] (h : Holds R M B s) :
    Holds R M B (State.configureRing s r) := by
  unfold State.configureRing
  with_reducible repeat' first
    | assumption | intro _ | dsimp only | apply State.unlisted_holds | apply State.onStation_holds | apply State.ringService_holds
    | apply Holds.ite | apply Holds.foldl | split

theorem State.placeStations_holds {s : State} {r : Nat} [May M .ring] [May M .safety] [May M .rec_] [May M .out] (h : Holds R M B s) :
    Holds R M B (State.placeStations s r) := by
  unfold State.placeStations
  with_reducible repeat' first
    | assumption | intro _ | dsimp only
    | ((fail_if_success (fail_if_success (apply Holds.probe; dsimp only))); apply Holds.mk0
        <;> first | exact .inl May.yes | exact .inr rfl | skip)
    | apply State.writeFirmware_holds | apply State.onStation_holds | apply State.raise_holds | apply Holds.ite | apply Holds.foldl
    | split

theorem State.refuseRing_holds {s : State} {r : Nat} [May M .ring] [May M .rec_] (h : Holds R M B s) :
    Holds R M B (State.refuseRing s r) := by
  unfold State.refuseRing
  with_reducible repeat' first
    | assumption | intro _ | dsimp only
    | ((fail_if_success (fail_if_success (apply Holds.probe; dsimp only))); apply Holds.mk0
        <;> first | exact .inl May.yes | exact .inr rfl | skip)
    | apply State.raise_holds | apply State.onLine_holds | apply Holds.ite | split

theorem State.takeFound_holds {s : State} {r : Nat} {from_ : End} {whole : Bool} {recs : List Found} [May M .ring] (h : Holds R M B s) :
    Holds R M B (State.takeFound s r from_ whole recs) := by
  unfold State.takeFound
  with_reducible repeat' first
    | assumption | intro _ | dsimp only | apply State.onLine_holds

theorem State.mapFound_holds {s : State} [May M .ring] [May M .safety] [May M .rec_] [May M .out] (h : Holds R M B s) :
    Holds R M B (State.mapFound s) := by
  unfold State.mapFound
  with_reducible repeat' first
    | assumption | intro _ | dsimp only | apply State.onRing_holds | apply State.placeStations_holds | apply Holds.ite
    | apply Holds.foldl | split

theorem State.judgeRing_holds {s : State} {r : Nat} [May M .ring] [May M .safety] [May M .rec_] [May M .out] (h : Holds R M B s) :
    Holds R M B (State.judgeRing s r) := by
  unfold State.judgeRing
  with_reducible repeat' first
    | assumption | dsimp only | apply State.refuseRing_holds | apply State.placeStations_holds | apply Holds.ite | split

theorem State.silentEnds_holds {s : State} {r : Nat} [May M .ring] [May M .safety] [May M .rec_] [May M .out] (h : Holds R M B s) :
    Holds R M B (State.silentEnds s r) := by
  unfold State.silentEnds
  with_reducible repeat' first
    | assumption | intro _ | dsimp only | apply State.judgeRing_holds | apply State.onLine_holds | apply Holds.ite | split

theorem execDiscoverReceived_holds {r : Fin 8} {from_ : End} {whole : Bool} {recs : List Found} {s : State} [May M .ring] [May M .safety] [May M .rec_] [May M .out] (h : Holds R M B s) :
    HoldsR R M B (execDiscoverReceived r from_ whole recs s) := by
  unfold execDiscoverReceived
  with_reducible repeat' first
    | assumption | dsimp only | apply HoldsR.next | apply State.mapFound_holds | apply State.judgeRing_holds
    | apply State.takeFound_holds | apply Holds.ite | split

theorem execRingStartDone_holds {r : Fin 8} {s : State} [May M .ring] [May M .safety] [May M .rec_] [May M .out] (h : Holds R M B s) :
    HoldsR R M B (execRingStartDone r s) := by
  unfold execRingStartDone
  with_reducible repeat' first
    | assumption | intro _ | dsimp only | apply HoldsR.next | apply State.silentEnds_holds | apply State.mapFound_holds
    | apply State.onLine_holds | apply State.configureRing_holds | apply Holds.ite | apply Holds.foldl | split

theorem execStationFwSlotChange_holds {k : Fin 34} {s : State} [May M .ring] (h : Holds R M B s) :
    HoldsR R M B (execStationFwSlotChange k s) := by
  unfold execStationFwSlotChange
  with_reducible repeat' first
    | assumption | intro _ | dsimp only | apply HoldsR.next | apply State.onStation_holds | split

theorem execConfigFrameReceived_holds {r : Fin 8} {e : End} {p : Nat} {kind : Nat} {good : Bool} {s : State} [May M .ring] [May M .out] (h : Holds R M B s) :
    HoldsR R M B (execConfigFrameReceived r e p kind good s) := by
  unfold execConfigFrameReceived
  with_reducible repeat' first
    | assumption | intro _ | dsimp only | apply HoldsR.next | apply State.ringService_holds | apply State.onStation_holds
    | apply Holds.ite | split

theorem execDelayMeasure_holds {k : Fin 34} {s : State} [May M .out] (h : Holds R M B s) :
    HoldsR R M B (execDelayMeasure k s) := by
  unfold execDelayMeasure
  with_reducible repeat' first
    | assumption | dsimp only | apply HoldsR.next | apply State.ringService_holds | apply Holds.ite | split

theorem execDelayReceived_holds {k : Fin 34} {roundTrip : Nat} {total : Nat} {outward : Nat} {s : State} [May M .ring] [May M .out] (h : Holds R M B s) :
    HoldsR R M B (execDelayReceived k roundTrip total outward s) := by
  unfold execDelayReceived
  with_reducible repeat' first
    | assumption | intro _ | dsimp only | apply HoldsR.next | apply State.ringService_holds | apply State.onStation_holds | split

theorem execRingCmdCountCheck_holds {second : Nat} {s : State} [May M .time] [May M .rec_] (h : Holds R M B s) :
    HoldsR R M B (execRingCmdCountCheck second s) := by
  unfold execRingCmdCountCheck
  with_reducible repeat' first
    | assumption | intro _ | dsimp only | apply HoldsR.next | apply State.advance_holds | apply State.raise_holds | apply Holds.ite
    | apply Holds.foldl | split

theorem execStationLost_holds {k : Fin 34} {s : State} [May M .ring] [May M .prog] [May M .rec_] (h : Holds R M B s) :
    HoldsR R M B (execStationLost k s) := by
  unfold execStationLost
  with_reducible repeat' first
    | assumption | intro _ | dsimp only | apply HoldsR.next | apply State.causeAll_holds | apply State.raise_holds
    | apply State.onStation_holds | apply Holds.ite | split

theorem execStationSecLost_holds {k : Fin 34} {s : State} [May M .ring] [May M .rec_] (h : Holds R M B s) :
    HoldsR R M B (execStationSecLost k s) := by
  unfold execStationSecLost
  with_reducible repeat' first
    | assumption | intro _ | dsimp only | apply HoldsR.next | apply State.raise_holds | apply State.onStation_holds | apply Holds.ite
    | split

theorem execStationReturned_holds {k : Fin 34} {s : State} [May M .ring] [May M .rec_] (h : Holds R M B s) :
    HoldsR R M B (execStationReturned k s) := by
  unfold execStationReturned
  with_reducible repeat' first
    | assumption | intro _ | dsimp only | apply HoldsR.next | apply State.raise_holds | apply State.onStation_holds | apply Holds.ite
    | split

theorem execStationSecReturned_holds {k : Fin 34} {s : State} [May M .ring] [May M .rec_] (h : Holds R M B s) :
    HoldsR R M B (execStationSecReturned k s) := by
  unfold execStationSecReturned
  with_reducible repeat' first
    | assumption | intro _ | dsimp only | apply HoldsR.next | apply State.raise_holds | apply State.onStation_holds | apply Holds.ite
    | split

theorem State.lineDeadline_holds {s : State} {w : Sweep} {r : Nat} [May M .ring] [May M .rec_] (h : Holds R M B s) :
    Holds R M B (State.lineDeadline s w r) := by
  unfold State.lineDeadline
  with_reducible repeat' first
    | assumption | intro _ | dsimp only | apply State.degrade_holds | apply State.breakUnplaced_holds | apply State.onLine_holds
    | apply Holds.ite | split

theorem State.collectRing_holds {s : State} {w : Sweep} [May M .ring] [May M .rec_] (h : Holds R M B s) :
    Holds R M B (State.collectRing s w) := by
  unfold State.collectRing
  with_reducible repeat' first
    | assumption | intro _ | dsimp only
    | ((fail_if_success (fail_if_success (apply Holds.probe; dsimp only))); apply Holds.mk0
        <;> first | exact .inl May.yes | exact .inr rfl | skip)
    | apply State.lineDeadline_holds | apply Holds.ite | apply Holds.foldl | split

theorem execRingStatRead_holds {r : Fin 8} {s : State} [May M .ring] [May M .out] (h : Holds R M B s) :
    HoldsR R M B (execRingStatRead r s) := by
  unfold execRingStatRead
  with_reducible repeat' first
    | assumption | intro _ | dsimp only | apply HoldsR.next | apply State.readReg_holds | apply State.onLine_holds

end Sys2Proof.Machine
end

