-- ==== Sys2Proof/Laws/KeepGuard.lean ====
section
/-! SUPPORT. What is kept (Laws/Holds.lean) by the safety function, the thermal zones, time, starts and commits: one lemma per operation and per command's meaning. -/
namespace Sys2Proof.Machine
variable {R : Bool} {M : Part → Bool} {B : State}

theorem State.endTest_holds {s : State} {o : Nat} [May M .time] [May M .ring] [May M .meas] [May M .est] [May M .gate] [May M .safety] [May M .plant] [May M .twin] [May M .rec_] [May M .out] (h : Holds R M B s) :
    Holds R M B (State.endTest s o) := by
  unfold State.endTest
  with_reducible repeat' first
    | assumption | intro _ | dsimp only | apply State.onSafety_holds | apply State.outFault_holds | apply Holds.ite | split

theorem State.endTests_holds {s : State} [May M .time] [May M .ring] [May M .meas] [May M .est] [May M .gate] [May M .safety] [May M .plant] [May M .twin] [May M .rec_] [May M .out] (h : Holds R M B s) :
    Holds R M B (State.endTests s) := by
  unfold State.endTests
  with_reducible repeat' first
    | assumption | intro _ | dsimp only | apply State.endTest_holds | apply Holds.foldl

theorem execSafetyTick_holds {a : SafetySample} {b : SafetySample} {on : BitVec 8} {coil : Nat} {s : State} [May M .time] [May M .ring] [May M .meas] [May M .est] [May M .gate] [May M .safety] [May M .plant] [May M .twin] [May M .rec_] [May M .out] (h : Holds R M B s) :
    HoldsR R M B (execSafetyTick a b on coil s) := by
  unfold execSafetyTick
  with_reducible repeat' first
    | assumption | dsimp only | apply HoldsR.next | apply State.periodic_holds | apply State.endTests_holds
    | apply State.tickState_holds | apply State.tickOuts_holds | apply State.tickInputs_holds

theorem execSafetyCrossLink_holds {toB : Bool} {s : State} [May M .safety] (h : Holds R M B s) :
    HoldsR R M B (execSafetyCrossLink toB s) := by
  unfold execSafetyCrossLink
  with_reducible repeat' first
    | assumption | dsimp only | apply HoldsR.next | apply State.openSwitches_holds | apply Holds.ite | split

theorem execSwitchWatchdogExpiry_holds {w : Fin 12} {s : State} [May M .safety] (h : Holds R M B s) :
    HoldsR R M B (execSwitchWatchdogExpiry w s) := by
  unfold execSwitchWatchdogExpiry
  with_reducible repeat' first
    | assumption | intro _ | dsimp only | apply HoldsR.next | apply State.onSafety_holds | apply Holds.ite | split

theorem execFastOcTrip_holds {charge : Bool} {s : State} [May M .ring] [May M .est] [May M .gate] [May M .rec_] [May M .out] (h : Holds R M B s) :
    HoldsR R M B (execFastOcTrip charge s) := by
  unfold execFastOcTrip
  with_reducible repeat' first
    | assumption | dsimp only | apply HoldsR.next | apply State.stageTrip_holds | apply State.raise_holds | apply Holds.ite | split

theorem execSoTestPulse_holds {o : Fin 4} {low : Bool} {readOff : Bool} {s : State} [May M .time] [May M .safety] (h : Holds R M B s) :
    HoldsR R M B (execSoTestPulse o low readOff s) := by
  unfold execSoTestPulse
  with_reducible repeat' first
    | assumption | intro _ | dsimp only | apply HoldsR.next | apply State.advance_holds | apply State.onSafety_holds | apply Holds.ite
    | split

theorem State.demand12_holds {s : State} {object : Nat} {number : Nat} [May M .ring] [May M .meas] [May M .est] [May M .gate] [May M .safety] [May M .plant] [May M .twin] [May M .rec_] [May M .out] (h : Holds R M B s) :
    Holds R M B (State.demand12 s object number) := by
  unfold State.demand12
  with_reducible repeat' first
    | assumption | intro _ | dsimp only | apply State.safeState_holds | apply State.onEngB_holds | apply State.onEngA_holds

theorem execCoilSupplyLow_holds {coil : Nat} {s : State} [May M .ring] [May M .meas] [May M .est] [May M .gate] [May M .safety] [May M .plant] [May M .twin] [May M .rec_] [May M .out] (h : Holds R M B s) :
    HoldsR R M B (execCoilSupplyLow coil s) := by
  unfold execCoilSupplyLow
  with_reducible repeat' first
    | assumption | intro _ | dsimp only | apply HoldsR.next | apply State.demand12_holds | apply State.raise_holds
    | apply State.onSafety_holds | apply Holds.ite | split

theorem execContactorFeedbackTimeout_holds {pre : Bool} {s : State} [May M .time] [May M .ring] [May M .meas] [May M .est] [May M .gate] [May M .safety] [May M .plant] [May M .twin] [May M .rec_] [May M .out] (h : Holds R M B s) :
    HoldsR R M B (execContactorFeedbackTimeout pre s) := by
  unfold execContactorFeedbackTimeout
  with_reducible repeat' first
    | assumption | intro _ | dsimp only | apply HoldsR.next | apply State.advance_holds | apply State.demand12_holds
    | apply State.onSafety_holds | apply State.raise_holds | apply Holds.ite | split

theorem execContactorClose_holds {q : Fin 32} {s : State} [May M .host] [May M .twin] [May M .rec_] [May M .out] [May M .free] (h : Holds R M B s) :
    HoldsR R M B (execContactorClose q s) := by
  unfold execContactorClose
  with_reducible repeat' first
    | assumption | intro _ | dsimp only | apply HoldsR.next | apply State.hostRow_holds | apply State.acceptBoth_holds
    | apply HoldsV.refuse | apply HoldsV.accept | apply HoldsV.ite | apply Holds.ite | refine Holds.of_fst ‹_› ?_ | split

theorem execContactorOpen_holds {q : Fin 32} {s : State} [May M .host] [May M .twin] [May M .rec_] [May M .out] [May M .free] (h : Holds R M B s) :
    HoldsR R M B (execContactorOpen q s) := by
  unfold execContactorOpen
  with_reducible repeat' first
    | assumption | intro _ | dsimp only | apply HoldsR.next | apply State.hostRow_holds | apply State.acceptBoth_holds
    | apply HoldsV.accept | refine Holds.of_fst ‹_› ?_ | split

theorem execPrechargeEnd_holds {s : State} [May M .time] [May M .safety] (h : Holds R M B s) :
    HoldsR R M B (execPrechargeEnd s) := by
  unfold execPrechargeEnd
  with_reducible repeat' first
    | assumption | intro _ | dsimp only | apply HoldsR.next | apply State.advance_holds | apply State.onSafety_holds
    | apply State.setOut_holds | split

theorem execPrechargeRelease_holds {s : State} [May M .time] [May M .safety] (h : Holds R M B s) :
    HoldsR R M B (execPrechargeRelease s) := by
  unfold execPrechargeRelease
  with_reducible repeat' first
    | assumption | intro _ | dsimp only | apply HoldsR.next | apply State.onSafety_holds | apply State.setOut_holds
    | apply State.advance_holds | split

theorem execSafetyReset_holds {q : Fin 32} {s : State} [May M .host] [May M .twin] [May M .rec_] [May M .out] [May M .free] (h : Holds R M B s) :
    HoldsR R M B (execSafetyReset q s) := by
  unfold execSafetyReset
  with_reducible repeat' first
    | assumption | intro _ | dsimp only | apply HoldsR.next | apply State.hostRow_holds | apply State.raise_holds
    | apply State.acceptBoth_holds | apply HoldsV.refuse | apply HoldsV.accept | apply HoldsV.refuseAs | apply HoldsV.ite
    | apply Holds.ite | refine Holds.of_fst ‹_› ?_ | split

theorem execResetInput_holds {n : Fin 16} {s : State} [May M .safety] [May M .rec_] (h : Holds R M B s) :
    HoldsR R M B (execResetInput n s) := by
  unfold execResetInput
  with_reducible repeat' first
    | assumption | intro _ | dsimp only | apply HoldsR.next | apply State.onEngB_holds | apply State.onEngA_holds
    | apply State.raise_holds | apply Holds.ite | refine State.resetAccepted_holds ‹_› ?_ | split

theorem execSafeResetExpired_holds {s : State} [May M .time] [May M .host] [May M .rec_] (h : Holds R M B s) :
    HoldsR R M B (execSafeResetExpired s) := by
  unfold execSafeResetExpired
  with_reducible repeat' first
    | assumption | dsimp only | apply HoldsR.next | apply State.expireBoth_holds

theorem execSafetyFrameSend_holds {s : State} [May M .time] [May M .safety] [May M .plant] [May M .twin] [May M .out] (h : Holds R M B s) :
    HoldsR R M B (execSafetyFrameSend s) := by
  unfold execSafetyFrameSend
  with_reducible repeat' first
    | assumption | dsimp only | apply HoldsR.next | apply State.sendSafetyFrame_holds | apply State.advance_holds | apply Holds.ite
    | split

theorem execSafetyFrameReceived_holds {can : Bool} {bytes : List Byte} {s : State} [May M .time] [May M .ring] [May M .meas] [May M .est] [May M .gate] [May M .safety] [May M .plant] [May M .twin] [May M .rec_] [May M .out] (h : Holds R M B s) :
    HoldsR R M B (execSafetyFrameReceived can bytes s) := by
  unfold execSafetyFrameReceived
  with_reducible repeat' first
    | assumption | dsimp only | apply HoldsR.next | apply State.takeFrame_holds | apply Holds.ite | split

theorem execSafetyFrameWatchdog_holds {n : Fin 8} {s : State} [May M .time] [May M .ring] [May M .meas] [May M .est] [May M .gate] [May M .safety] [May M .plant] [May M .twin] [May M .rec_] [May M .out] (h : Holds R M B s) :
    HoldsR R M B (execSafetyFrameWatchdog n s) := by
  unfold execSafetyFrameWatchdog
  with_reducible repeat' first
    | assumption | intro _ | dsimp only | apply HoldsR.next | apply State.onSafety_holds | apply State.advance_holds
    | apply State.refreshDemands_holds | apply State.raise_holds | apply State.safeState_holds | apply Holds.ite | split

theorem State.onZone_holds {s : State} {z : Nat} {f : Zone → Zone} [May M .therm] (h : Holds R M B s) :
    Holds R M B (State.onZone s z f) := by
  unfold State.onZone
  with_reducible repeat' first
    | assumption | intro _ | dsimp only | apply State.onTherm_holds

theorem State.sensorEvents_holds {s : State} {i : Nat} {old : Sensor} {new : Sensor} [May M .therm] [May M .rec_] (h : Holds R M B s) :
    Holds R M B (State.sensorEvents s i old new) := by
  unfold State.sensorEvents
  with_reducible repeat' first
    | assumption | intro _ | dsimp only | apply State.raise_holds | apply State.onTherm_holds | apply Holds.ite | split

theorem State.sensorsRound_holds {s : State} {pins : List (Option Int)} [May M .therm] [May M .rec_] (h : Holds R M B s) :
    Holds R M B (State.sensorsRound s pins) := by
  unfold State.sensorsRound
  with_reducible repeat' first
    | assumption | intro _ | dsimp only | apply State.onTherm_holds | apply State.sensorEvents_holds | apply Holds.ite
    | apply Holds.foldl | split

theorem State.absentCheck_holds {s : State} {w : Sweep} [May M .therm] [May M .rec_] (h : Holds R M B s) :
    Holds R M B (State.absentCheck s w) := by
  unfold State.absentCheck
  with_reducible repeat' first
    | assumption | intro _ | dsimp only | apply State.raise_holds | apply State.onTherm_holds | apply Holds.ite | apply Holds.foldl
    | split

theorem State.zoneEvents_holds {s : State} {cs : List Contribution} {z : Nat} {old : Zone} {new : Zone} [May M .rec_] (h : Holds R M B s) :
    Holds R M B (State.zoneEvents s cs z old new) := by
  unfold State.zoneEvents
  with_reducible repeat' first
    | assumption | dsimp only | apply State.raise_holds | apply Holds.ite | split

theorem State.direction_holds {s : State} {dis : Bool} [May M .therm] [May M .rec_] (h : Holds R M B s) :
    Holds R M B (State.direction s dis) := by
  unfold State.direction
  with_reducible repeat' first
    | assumption | intro _ | dsimp only | apply State.onTherm_holds | apply State.raise_holds | apply Holds.ite | split

theorem State.zonesRound_holds {s : State} {pins : List (Option Int)} [May M .therm] [May M .rec_] (h : Holds R M B s) :
    Holds R M B (State.zonesRound s pins) := by
  unfold State.zonesRound
  with_reducible repeat' first
    | assumption | intro _ | dsimp only | apply State.onTherm_holds | apply State.zoneEvents_holds | apply State.direction_holds
    | apply Holds.foldl

theorem State.coolersRound_holds {s : State} {tach : List Nat} [May M .therm] [May M .rec_] [May M .out] (h : Holds R M B s) :
    Holds R M B (State.coolersRound s tach) := by
  unfold State.coolersRound
  with_reducible repeat' first
    | assumption | intro _ | dsimp only | apply State.onTherm_holds | apply State.raise_holds | apply State.driveFan_holds
    | apply Holds.ite | apply Holds.foldl | split

theorem State.coolersCan_holds {s : State} [May M .plant] (h : Holds R M B s) : Holds R M B (State.coolersCan s) := by
  unfold State.coolersCan
  with_reducible repeat' first
    | assumption | intro _ | dsimp only | apply State.canData_holds | apply Holds.ite | apply Holds.foldl | split

theorem execThermalRound_holds {pins : List (Option Int)} {tach : List Nat} {s : State} [May M .time] [May M .loop] [May M .therm] [May M .plant] [May M .rec_] [May M .out] (h : Holds R M B s) :
    HoldsR R M B (execThermalRound pins tach s) := by
  unfold execThermalRound
  with_reducible repeat' first
    | assumption | dsimp only | apply HoldsR.next | apply State.periodic_holds | apply State.diagCycle_holds
    | apply State.coolersCan_holds | apply State.coolersRound_holds | apply State.zonesRound_holds | apply State.sensorsRound_holds
    | apply Holds.ite | split

theorem execThermalAck_holds {q : Fin 32} {s : State} [May M .host] [May M .twin] [May M .rec_] [May M .out] [May M .free] (h : Holds R M B s) :
    HoldsR R M B (execThermalAck q s) := by
  unfold execThermalAck
  with_reducible repeat' first
    | assumption | intro _ | dsimp only | apply HoldsR.next | apply State.hostRow_holds | apply State.acceptBoth_holds
    | apply HoldsV.refuse | apply HoldsV.accept | apply HoldsV.ite | apply Holds.ite | refine Holds.of_fst ‹_› ?_ | split

theorem State.applyAck_holds {s : State} {t : Nat} [May M .therm] [May M .rec_] (h : Holds R M B s) :
    Holds R M B (State.applyAck s t) := by
  unfold State.applyAck
  with_reducible repeat' first
    | assumption | intro _ | dsimp only | apply State.raise_holds | apply State.onTherm_holds | apply Holds.ite | split

theorem execThermalAckExpired_holds {s : State} [May M .time] [May M .host] [May M .rec_] (h : Holds R M B s) :
    HoldsR R M B (execThermalAckExpired s) := by
  unfold execThermalAckExpired
  with_reducible repeat' first
    | assumption | dsimp only | apply HoldsR.next | apply State.expireBoth_holds

theorem State.dieEvents_holds {s : State} {old : Die} {new : Die} [May M .rec_] (h : Holds R M B s) :
    Holds R M B (State.dieEvents s old new) := by
  unfold State.dieEvents
  with_reducible repeat' first
    | assumption | intro _ | dsimp only | apply State.raise_holds | apply Holds.ite | apply Holds.foldl | split

theorem State.dieRead_holds {s : State} {r : List Int} [May M .fabric] [May M .therm] [May M .rec_] (h : Holds R M B s) :
    Holds R M B (State.dieRead s r) := by
  unfold State.dieRead
  with_reducible repeat' first
    | assumption | intro _ | dsimp only | apply State.writeHistory_holds | apply State.dieEvents_holds | apply State.onFabric_holds
    | apply State.onTherm_holds

theorem State.dieShutdown_holds {s : State} [May M .time] [May M .ring] [May M .meas] [May M .est] [May M .gate] [May M .therm] [May M .safety] [May M .plant] [May M .twin] [May M .rec_] [May M .out] (h : Holds R M B s) :
    Holds R M B (State.dieShutdown s) := by
  unfold State.dieShutdown
  with_reducible repeat' first
    | assumption | intro _ | dsimp only | apply State.selfDiagnosis_holds | apply State.onTherm_holds
    | apply State.internalFault_holds

theorem execDieSample_holds {r0 : Int} {r1 : Int} {r2 : Int} {r3 : Int} {s : State} [May M .fabric] [May M .time] [May M .ring] [May M .meas] [May M .est] [May M .gate] [May M .therm] [May M .safety] [May M .plant] [May M .twin] [May M .rec_] [May M .out] (h : Holds R M B s) :
    HoldsR R M B (execDieSample r0 r1 r2 r3 s) := by
  unfold execDieSample
  with_reducible repeat' first
    | assumption | dsimp only | apply HoldsR.next | apply State.dieRead_holds | apply State.periodic_holds
    | apply State.dieShutdown_holds | apply Holds.ite | split

theorem execDieWriteWindowEnd_holds {s : State} [May M .time] [May M .ledger] [May M .gate] [May M .therm] [May M .safety] [May M .life] (h : Holds R M B s) :
    HoldsR R M B (execDieWriteWindowEnd s) := by
  unfold execDieWriteWindowEnd
  with_reducible repeat' first
    | assumption | intro _ | dsimp only | apply HoldsR.next | apply State.advance_holds | apply State.onGate_holds
    | apply State.onLedger_holds | apply State.onTherm_holds | apply State.loopsOpen_holds | apply State.outsOff_holds
    | apply Holds.onLife | apply Holds.ite | exact ⟨rfl, rfl, rfl, rfl⟩ | split

theorem State.setCounter_holds {s : State} {off : Int} [May M .time] [May M .ring] [May M .ledger] [May M .twin] [May M .life] (h : Holds R M B s) :
    Holds R M B (State.setCounter s off) := by
  unfold State.setCounter
  with_reducible repeat' first
    | assumption | dsimp only
    | ((fail_if_success (fail_if_success (apply Holds.probe; dsimp only))); apply Holds.mk0
        <;> first | exact .inl May.yes | exact .inr rfl | skip)
    | exact ⟨rfl, rfl, rfl, rfl⟩
    | ((fail_if_success (fail_if_success (apply Holds.probe; dsimp only))); apply Holds.mkLife
        <;> first | exact .inl May.yes | exact .inr rfl | skip)

theorem State.onTime_holds {s : State} {f : TimeBase → TimeBase} [May M .time] (h : Holds R M B s) :
    Holds R M B (State.onTime s f) := by
  unfold State.onTime
  with_reducible repeat' first
    | assumption | dsimp only
    | ((fail_if_success (fail_if_success (apply Holds.probe; dsimp only))); apply Holds.mk0
        <;> first | exact .inl May.yes | exact .inr rfl | skip)

theorem State.portSkew_holds {s : State} {ep : Ep} {off : Int} [May M .time] [May M .rec_] (h : Holds R M B s) :
    Holds R M B (State.portSkew s ep off) := by
  unfold State.portSkew
  with_reducible repeat' first
    | assumption | intro _ | dsimp only | apply State.onTime_holds | apply State.raise_holds | apply Holds.ite | split

theorem State.refuseJump_holds {s : State} {off : Int} [May M .time] [May M .rec_] (h : Holds R M B s) :
    Holds R M B (State.refuseJump s off) := by
  unfold State.refuseJump
  with_reducible repeat' first
    | assumption | intro _ | dsimp only | apply State.raise_holds | apply State.onTime_holds

theorem State.measured_holds {s : State} {ep : Ep} {off : Int} [May M .time] [May M .ring] [May M .ledger] [May M .twin] [May M .rec_] [May M .life] (h : Holds R M B s) :
    Holds R M B (State.measured s ep off) := by
  unfold State.measured
  with_reducible repeat' first
    | assumption | intro _ | dsimp only | apply State.onTime_holds | apply State.portSkew_holds | apply State.raise_holds
    | apply State.setCounter_holds | apply State.refuseJump_holds | apply Holds.ite | split

theorem execPtpSync_holds {ep : Fin 3} {domain : Nat} {seq : BitVec 16} {twoStep : Bool} {ingress : Int} {origin : Int} {correction : Int} {s : State} [May M .time] [May M .ring] [May M .ledger] [May M .plant] [May M .twin] [May M .rec_] [May M .life] (h : Holds R M B s) :
    HoldsR R M B (execPtpSync ep domain seq twoStep ingress origin correction s) := by
  unfold execPtpSync
  with_reducible repeat' first
    | assumption | intro _ | dsimp only | apply HoldsR.next | apply State.ethIn_holds | apply State.onTime_holds
    | apply State.measured_holds | apply Holds.ite | split

theorem execPtpFollowUp_holds {ep : Fin 3} {domain : Nat} {seq : BitVec 16} {origin : Int} {correction : Int} {s : State} [May M .time] [May M .ring] [May M .ledger] [May M .plant] [May M .twin] [May M .rec_] [May M .life] (h : Holds R M B s) :
    HoldsR R M B (execPtpFollowUp ep domain seq origin correction s) := by
  unfold execPtpFollowUp
  with_reducible repeat' first
    | assumption | intro _ | dsimp only | apply HoldsR.next | apply State.ethIn_holds | apply State.measured_holds
    | apply State.onTime_holds | apply Holds.ite | split

theorem State.newMaster_holds {s : State} {gm : BitVec 64} [May M .time] [May M .rec_] (h : Holds R M B s) :
    Holds R M B (State.newMaster s gm) := by
  unfold State.newMaster
  with_reducible repeat' first
    | assumption | intro _ | dsimp only | apply State.onTime_holds | apply State.raise_holds | split

theorem execPtpAnnounce_holds {ep : Fin 3} {domain : Nat} {selected : Option (BitVec 64)} {other : Option (BitVec 64)} {utc : Int} {leap61 : Bool} {leap59 : Bool} {utcValid : Bool} {s : State} [May M .time] [May M .plant] [May M .rec_] (h : Holds R M B s) :
    HoldsR R M B (execPtpAnnounce ep domain selected other utc leap61 leap59 utcValid s) := by
  unfold execPtpAnnounce
  with_reducible repeat' first
    | assumption | intro _ | dsimp only | apply HoldsR.next | apply State.ethIn_holds | apply State.onTime_holds
    | apply State.newMaster_holds | apply Holds.ite | split

theorem execPtpDelayReqSend_holds {ep : Fin 3} {s : State} [May M .time] [May M .out] (h : Holds R M B s) :
    HoldsR R M B (execPtpDelayReqSend ep s) := by
  unfold execPtpDelayReqSend
  with_reducible repeat' first
    | assumption | intro _ | dsimp only | apply HoldsR.next | apply State.emit_holds | apply State.onTime_holds | apply Holds.ite
    | split

theorem execPtpDelayResp_holds {ep : Fin 3} {seq : BitVec 16} {t1 : Int} {t2 : Int} {t3 : Int} {t4 : Int} {s : State} [May M .time] [May M .plant] (h : Holds R M B s) :
    HoldsR R M B (execPtpDelayResp ep seq t1 t2 t3 t4 s) := by
  unfold execPtpDelayResp
  with_reducible repeat' first
    | assumption | intro _ | dsimp only | apply HoldsR.next | apply State.ethIn_holds | apply State.onTime_holds | apply Holds.ite
    | split

theorem execPtpPdelayReq_holds {ep : Fin 3} {domain : Nat} {seq : BitVec 16} {ingress : Int} {s : State} [May M .plant] [May M .out] (h : Holds R M B s) :
    HoldsR R M B (execPtpPdelayReq ep domain seq ingress s) := by
  unfold execPtpPdelayReq
  with_reducible repeat' first
    | assumption | intro _ | dsimp only | apply HoldsR.next | apply State.ethIn_holds | apply State.emit_holds | apply Holds.ite
    | split

theorem execAnnounceTimeout_holds {s : State} [May M .time] [May M .rec_] (h : Holds R M B s) :
    HoldsR R M B (execAnnounceTimeout s) := by
  unfold execAnnounceTimeout
  with_reducible repeat' first
    | assumption | intro _ | dsimp only | apply HoldsR.next | apply State.newMaster_holds | apply State.onTime_holds
    | apply State.raise_holds | apply Holds.ite | split

theorem execPtpPortSwitch_holds {s : State} [May M .time] (h : Holds R M B s) : HoldsR R M B (execPtpPortSwitch s) := by
  unfold execPtpPortSwitch
  with_reducible repeat' first
    | assumption | intro _ | dsimp only | apply HoldsR.next | apply State.onTime_holds | apply Holds.ite | split

theorem execPtpPortSwitchBack_holds {s : State} [May M .time] (h : Holds R M B s) : HoldsR R M B (execPtpPortSwitchBack s) := by
  unfold execPtpPortSwitchBack
  with_reducible repeat' first
    | assumption | intro _ | dsimp only | apply HoldsR.next | apply State.onTime_holds | apply Holds.ite | split

theorem execStartWaitExpiry_holds {s : State} [May M .time] (h : Holds R M B s) : HoldsR R M B (execStartWaitExpiry s) := by
  unfold execStartWaitExpiry
  with_reducible repeat' first
    | assumption | intro _ | dsimp only | apply HoldsR.next | apply State.onTime_holds | apply State.advance_holds | split

theorem State.stepTo_holds {s : State} {newOffset : Int} [May M .time] [May M .safety] [May M .rec_] (h : Holds R M B s) :
    Holds R M B (State.stepTo s newOffset) := by
  unfold State.stepTo
  with_reducible repeat' first
    | assumption | dsimp only
    | ((fail_if_success (fail_if_success (apply Holds.probe; dsimp only))); apply Holds.mk0
        <;> first | exact .inl May.yes | exact .inr rfl | skip)
    | apply State.raiseAt_holds

theorem State.applyTime_holds {s : State} {c : Cmd} [May M .time] [May M .safety] [May M .rec_] (h : Holds R M B s) :
    Holds R M B (State.applyTime s c) := by
  unfold State.applyTime
  with_reducible repeat' first
    | assumption | intro _ | dsimp only | apply State.raise_holds | apply State.onTime_holds | apply State.stepTo_holds
    | apply Holds.ite | split

theorem timeCommand_holds {mode : Nat} {s : State} {d : Desc} [May M .host] [May M .twin] [May M .out] (h : Holds R M B s) :
    HoldsV R M B (timeCommand mode s d) := by
  unfold timeCommand
  with_reducible repeat' first
    | assumption | dsimp only | apply State.acceptBoth_holds | apply HoldsV.refuse | apply HoldsV.accept | apply HoldsV.ite
    | apply Holds.ite | refine Holds.of_fst ‹_› ?_ | split

theorem execTimeStep_holds {q : Fin 32} {s : State} [May M .host] [May M .twin] [May M .rec_] [May M .out] [May M .free] (h : Holds R M B s) :
    HoldsR R M B (execTimeStep q s) := by
  unfold execTimeStep
  with_reducible repeat' first
    | assumption | intro _ | dsimp only | apply HoldsR.next | apply State.hostRow_holds | apply timeCommand_holds

theorem execTimeResume_holds {q : Fin 32} {s : State} [May M .host] [May M .twin] [May M .rec_] [May M .out] [May M .free] (h : Holds R M B s) :
    HoldsR R M B (execTimeResume q s) := by
  unfold execTimeResume
  with_reducible repeat' first
    | assumption | intro _ | dsimp only | apply HoldsR.next | apply State.hostRow_holds | apply timeCommand_holds

theorem execTimeSet_holds {q : Fin 32} {s : State} [May M .host] [May M .twin] [May M .rec_] [May M .out] [May M .free] (h : Holds R M B s) :
    HoldsR R M B (execTimeSet q s) := by
  unfold execTimeSet
  with_reducible repeat' first
    | assumption | intro _ | dsimp only | apply HoldsR.next | apply State.hostRow_holds | apply timeCommand_holds

theorem execTimeCmdExpired_holds {s : State} [May M .time] [May M .host] [May M .rec_] (h : Holds R M B s) :
    HoldsR R M B (execTimeCmdExpired s) := by
  unfold execTimeCmdExpired
  with_reducible repeat' first
    | assumption | dsimp only | apply HoldsR.next | apply State.expireBoth_holds

theorem timeStatusOp_holds {s : State} {a1 : Desc} (h : Holds R M B s) : HoldsV R M B (timeStatusOp s a1) := by
  unfold timeStatusOp
  with_reducible repeat' first
    | assumption | dsimp only | apply HoldsV.accept

theorem execTimeStatus_holds {q : Fin 32} {s : State} [May M .host] [May M .rec_] [May M .out] [May M .free] (h : Holds R M B s) :
    HoldsR R M B (execTimeStatus q s) := by
  unfold execTimeStatus
  with_reducible repeat' first
    | assumption | intro _ | dsimp only | apply HoldsR.next | apply State.hostRow_holds | apply timeStatusOp_holds

theorem State.pairSkew_holds {s : State} [May M .time] [May M .rec_] (h : Holds R M B s) : Holds R M B (State.pairSkew s) := by
  unfold State.pairSkew
  with_reducible repeat' first
    | assumption | intro _ | dsimp only | apply State.onTime_holds | apply State.raise_holds | apply Holds.ite | split

theorem State.copyStep_holds {s : State} {stepOffset : Int} [May M .time] [May M .safety] (h : Holds R M B s) :
    Holds R M B (State.copyStep s stepOffset) := by
  unfold State.copyStep
  with_reducible repeat' first
    | assumption | dsimp only
    | ((fail_if_success (fail_if_success (apply Holds.probe; dsimp only))); apply Holds.mk0
        <;> first | exact .inl May.yes | exact .inr rfl | skip)
    | apply Holds.ite | split

theorem execPairTimeMessage_holds {link : Fin 2} {diff : Int} {stepOffset : Int} {lead : LeadTime} {cfgSame : Bool} {s : State} [May M .time] [May M .ring] [May M .ledger] [May M .safety] [May M .twin] [May M .rec_] [May M .life] (h : Holds R M B s) :
    HoldsR R M B (execPairTimeMessage link diff stepOffset lead cfgSame s) := by
  unfold execPairTimeMessage
  with_reducible repeat' first
    | assumption | intro _ | dsimp only | apply HoldsR.next | apply State.linkHeard_holds | apply State.raise_holds
    | apply State.onTime_holds | apply State.pairSkew_holds | apply State.setCounter_holds | apply State.copyStep_holds
    | apply Holds.ite | split

theorem execPairTimeSend_holds {link : Fin 2} {s : State} [May M .twin] [May M .out] (h : Holds R M B s) :
    HoldsR R M B (execPairTimeSend link s) := by
  unfold execPairTimeSend
  with_reducible repeat' first
    | assumption | dsimp only | apply HoldsR.next | apply State.pairSendOn_holds

theorem execOscFail_holds {s : State} [May M .time] [May M .ring] [May M .meas] [May M .est] [May M .gate] [May M .safety] [May M .plant] [May M .twin] [May M .rec_] [May M .out] (h : Holds R M B s) :
    HoldsR R M B (execOscFail s) := by
  unfold execOscFail
  with_reducible repeat' first
    | assumption | intro _ | dsimp only | apply HoldsR.next | apply State.selfDiagnosis_holds | apply State.onTime_holds
    | apply State.raise_holds | apply State.internalFault_holds

theorem execOscBackupSwitch_holds {s : State} [May M .time] (h : Holds R M B s) : HoldsR R M B (execOscBackupSwitch s) := by
  unfold execOscBackupSwitch
  with_reducible repeat' first
    | assumption | intro _ | dsimp only | apply HoldsR.next | apply State.onTime_holds

theorem execEvtNowLoRead_holds {s : State} [May M .time] [May M .out] (h : Holds R M B s) : HoldsR R M B (execEvtNowLoRead s) := by
  unfold execEvtNowLoRead
  with_reducible repeat' first
    | assumption | intro _ | dsimp only | apply HoldsR.next | apply State.readReg_holds | apply State.onTime_holds

theorem State.flushEvents_holds {s : State} [May M .host] [May M .plant] [May M .rec_] [May M .out] (h : Holds R M B s) :
    Holds R M B (State.flushEvents s) := by
  unfold State.flushEvents
  with_reducible repeat' first
    | assumption | intro _ | dsimp only | apply State.takeEvent_holds | apply Holds.foldl

theorem State.restart1_holds {s : State} [May M .chain] [May M .fabric] [May M .ring] [May M .meas] [May M .est] (h : Holds R M B s) :
    Holds R M B (State.restart1 s) := by
  unfold State.restart1
  with_reducible repeat' first
    | assumption | dsimp only
    | ((fail_if_success (fail_if_success (apply Holds.probe; dsimp only))); apply Holds.mk0
        <;> first | exact .inl May.yes | exact .inr rfl | skip)

theorem State.restart2_holds {s : State} [May M .ledger] [May M .gate] [May M .loop] [May M .therm] [May M .disp] [May M .safety] (h : Holds R M B s) :
    Holds R M B (State.restart2 s) := by
  unfold State.restart2
  with_reducible repeat' first
    | assumption | dsimp only
    | ((fail_if_success (fail_if_success (apply Holds.probe; dsimp only))); apply Holds.mk0
        <;> first | exact .inl May.yes | exact .inr rfl | skip)

theorem State.restart3_holds {s : State} [May M .prog] [May M .host] [May M .plant] [May M .twin] [May M .rec_] [May M .setup] (h : Holds R M B s) : Holds R M B (State.restart3 s) := by
  unfold State.restart3
  refine Holds.mkSetup ?_ h (.inr rfl) (.inr rfl) (.inr rfl) (.inr rfl) (.inr rfl) (.inr rfl) (.inr rfl) (.inr rfl) (.inr rfl)
    (.inr rfl) (.inr rfl) (.inr rfl) (.inl May.yes) (.inl May.yes) (.inl May.yes) (.inl May.yes) (.inl May.yes) (.inr rfl) (.inr rfl)
  intro hx
  rw [Setup.ok_iff] at *
  exact ⟨rfl, rfl, hx.2.2.1, fun p hp => nomatch hp⟩

theorem State.beginStart_holds {s : State} {osc : Bool} [∀ q, May M q] (h : Holds R M B s) :
    Holds R M B (State.beginStart s osc) := by
  unfold State.beginStart
  with_reducible repeat' first
    | assumption | intro _ | dsimp only
    | ((fail_if_success (fail_if_success (apply Holds.probe; dsimp only))); apply Holds.mk0
        <;> first | exact .inl May.yes | exact .inr rfl | skip)
    | apply State.flushEvents_holds | apply State.restart3_holds | apply State.restart2_holds | apply State.restart1_holds
    | apply State.onSafety_holds | apply State.onTime_holds | apply State.releasePins_holds | apply State.raise_holds
    | apply State.onTherm_holds | apply Holds.onLife | exact ⟨rfl, rfl, rfl, rfl⟩ | split

theorem State.loadConfig_holds {s : State} [May M .rec_] [May M .life] [May M .setup] (h : Holds R M B s) :
    Holds R M B (State.loadConfig s) := by
  unfold State.loadConfig
  with_reducible repeat' first
    | assumption | intro _ | dsimp only | apply State.raise_holds | apply Holds.onLife | apply Holds.onSetup | apply Holds.ite
    | exact ⟨rfl, rfl, rfl, rfl⟩ | (simp only [Setup.ok_iff] at *; simp_all; done) | split | (simp_all; done)

theorem State.takeRole_holds {s : State} [May M .chain] [May M .time] [May M .twin] (h : Holds R M B s) :
    Holds R M B (State.takeRole s) := by
  unfold State.takeRole
  with_reducible repeat' first
    | assumption | dsimp only | apply State.takeClass_holds | split

theorem State.releaseJournalled_holds {s : State} {i : Image} [May M .ledger] [May M .host] [May M .rec_] [May M .out] (h : Holds R M B s) :
    Holds R M B (State.releaseJournalled s i) := by
  unfold State.releaseJournalled
  with_reducible repeat' first
    | assumption | dsimp only | apply State.releaseRecs_holds

theorem State.loadLedger_holds {s : State} [May M .ledger] [May M .host] [May M .rec_] [May M .out] (h : Holds R M B s) :
    Holds R M B (State.loadLedger s) := by
  unfold State.loadLedger
  with_reducible repeat' first
    | assumption | intro _ | dsimp only | apply State.onLedger_holds | apply State.openLedger_holds
    | apply State.releaseJournalled_holds | apply Holds.ite | split

theorem State.loadEst_holds {s : State} [May M .est] (h : Holds R M B s) : Holds R M B (State.loadEst s) := by
  unfold State.loadEst
  with_reducible repeat' first
    | assumption | intro _ | dsimp only | apply State.onEst_holds | apply Holds.ite | split

theorem State.loadProg_holds {s : State} [May M .prog] [May M .rec_] (h : Holds R M B s) : Holds R M B (State.loadProg s) := by
  unfold State.loadProg
  with_reducible repeat' first
    | assumption | intro _ | dsimp only | apply State.raise_holds | apply State.onProg_holds | apply Holds.ite | split

theorem State.startRecorder_holds {s : State} [May M .host] [May M .plant] [May M .rec_] [May M .out] (h : Holds R M B s) :
    Holds R M B (State.startRecorder s) := by
  unfold State.startRecorder
  with_reducible repeat' first
    | assumption | dsimp only
    | ((fail_if_success (fail_if_success (apply Holds.probe; dsimp only))); apply Holds.mk0
        <;> first | exact .inl May.yes | exact .inr rfl | skip)
    | apply State.raise_holds | apply State.store_holds | apply Holds.ite | split

theorem State.startWaitFrom_holds {s : State} [May M .time] (h : Holds R M B s) : Holds R M B (State.startWaitFrom s) := by
  unfold State.startWaitFrom
  with_reducible repeat' first
    | assumption | intro _ | dsimp only | apply State.onTime_holds | apply Holds.ite | split

theorem State.loadSaved_holds {s : State} [May M .chain] [May M .time] [May M .est] [May M .ledger] [May M .prog] [May M .host] [May M .plant] [May M .twin] [May M .rec_] [May M .life] [May M .setup] [May M .out] (h : Holds R M B s) :
    Holds R M B (State.loadSaved s) := by
  unfold State.loadSaved
  with_reducible repeat' first
    | assumption | dsimp only | apply State.loadProg_holds | apply State.loadEst_holds | apply State.loadLedger_holds
    | apply State.startRecorder_holds | apply State.startWaitFrom_holds | apply State.takeRole_holds | apply State.loadConfig_holds

theorem State.startProfile_holds {s : State} [May M .fabric] (h : Holds R M B s) : Holds R M B (State.startProfile s) := by
  unfold State.startProfile
  with_reducible repeat' first
    | assumption | intro _ | dsimp only | apply State.onFabric_holds

theorem State.loadEngines_holds {s : State} [May M .fabric] [May M .est] [May M .loop] [May M .prog] (h : Holds R M B s) :
    Holds R M B (State.loadEngines s) := by
  unfold State.loadEngines
  with_reducible repeat' first
    | assumption | intro _ | dsimp only | apply State.onEst_holds | apply State.startProfile_holds | apply State.seatEngines_holds
    | apply State.onProg_holds | apply State.onLoop_holds

theorem State.startLines_holds {s : State} [May M .ring] [May M .meas] [May M .gate] [May M .loop] [May M .out] (h : Holds R M B s) :
    Holds R M B (State.startLines s) := by
  unfold State.startLines
  with_reducible repeat' first
    | assumption | intro _ | dsimp only | apply State.ringStart_holds | apply State.linkStart_holds | apply Holds.foldl

theorem State.discardCounted_holds {s : State} [May M .setup] (h : Holds R M B s) : Holds R M B (State.discardCounted s) := by
  unfold State.discardCounted
  with_reducible repeat' first
    | assumption | intro _ | dsimp only | apply Holds.onSetup | (simp only [Setup.ok_iff] at *; simp_all; done) | (simp_all; done)

theorem State.stageWrite_holds {s : State} {off : Nat} {value : Word} [May M .setup] (h : Holds R M B s) :
    Holds R M B (State.stageWrite s off value) := by
  unfold State.stageWrite
  with_reducible repeat' first
    | assumption | intro _ | dsimp only | apply State.discardCounted_holds | apply Holds.onSetup | apply Holds.ite
    | (simp only [Setup.ok_iff] at *; simp_all; done) | split | (simp_all; done)

theorem State.commitEnds_holds {s : State} {p : Snapshot} {st : Nat} [May M .setup] [May M .out] (h : Holds R M B s) :
    Holds R M B (State.commitEnds s p st) := by
  unfold State.commitEnds
  with_reducible repeat' first
    | assumption | intro _ | dsimp only | apply State.emit_holds | apply Holds.onSetup | apply Holds.ite
    | (simp only [Setup.ok_iff] at *; simp_all; done) | split | (simp_all; done)

theorem State.takePeerGo_holds {s : State} {c : Cmd} {at_ : Nat} [May M .setup] (h : Holds R M B s) :
    Holds R M B (State.takePeerGo s c at_) := by
  unfold State.takePeerGo
  with_reducible repeat' first
    | assumption | intro _ | dsimp only | apply Holds.onSetup | (simp only [Setup.ok_iff] at *; simp_all; done) | (simp_all; done)

theorem State.supersede_holds {s : State} [May M .setup] [May M .out] (h : Holds R M B s) : Holds R M B (State.supersede s) := by
  unfold State.supersede
  with_reducible repeat' first
    | assumption | dsimp only | apply State.commitEnds_holds | split

theorem State.go_holds {s : State} {irq : Bool} {vector : Nat} {tag : BitVec 16} [May M .twin] [May M .setup] [May M .out] (h : Holds R M B s) :
    Holds R M B (State.go s irq vector tag) := by
  unfold State.go
  have ht : Holds R M B s.supersede := State.supersede_holds h
  generalize s.supersede = t at ht
  have hu : ∀ x : Snapshot, x.regs = regDiff t.setup.staged t.setup.active →
      Holds R M B (t.onSetup (fun y => { y with
        pending := some x, cState := 1, cTag := tag, cStatus := 0, cOffset := 0, cDetail := 0 })) := by
    intro x hx
    refine Holds.onSetup ht fun hy => ?_
    rw [Setup.ok_iff] at *
    refine ⟨hy.1, hy.2.1, hy.2.2.1, fun z hz => ?_⟩
    cases hz
    rw [hx]
    exact regDiff_rwOnly hy.2.1 hy.1
  dsimp only
  split
  · exact State.pairSend_holds (hu ⟨tag, irq, vector, _, t.setup.blocks, t.now, none⟩ rfl)
  · exact hu ⟨tag, irq, vector, _, t.setup.blocks, t.now, none⟩ rfl

theorem State.commitWord_holds {s : State} {w : Word} [May M .twin] [May M .setup] [May M .out] (h : Holds R M B s) :
    Holds R M B (State.commitWord s w) := by
  unfold State.commitWord
  with_reducible repeat' first
    | assumption | dsimp only | apply State.discardCounted_holds | apply State.go_holds | apply State.discardStaged_holds
    | apply Holds.ite | split

theorem execCfgCommitGo_holds {discard : Bool} {irq : Bool} {vector : Fin 64} {tag : BitVec 16} {s : State} [May M .twin] [May M .setup] [May M .out] (h : Holds R M B s) :
    HoldsR R M B (execCfgCommitGo discard irq vector tag s) := by
  unfold execCfgCommitGo
  with_reducible repeat' first
    | assumption | dsimp only | apply HoldsR.next | apply State.discardCounted_holds | apply State.go_holds | apply Holds.ite | split

theorem execCfgCommitDiscard_holds {s : State} [May M .setup] (h : Holds R M B s) : HoldsR R M B (execCfgCommitDiscard s) := by
  unfold execCfgCommitDiscard
  with_reducible repeat' first
    | assumption | dsimp only | apply HoldsR.next | apply State.discardStaged_holds

theorem execStagedRegisterWrite_holds {offset : BitVec 16} {value : Word} {width : Nat} {s : State} [May M .twin] [May M .setup] [May M .out] (h : Holds R M B s) :
    HoldsR R M B (execStagedRegisterWrite offset value width s) := by
  unfold execStagedRegisterWrite
  with_reducible repeat' first
    | assumption | dsimp only | apply HoldsR.next | apply State.discardCounted_holds | apply State.commitWord_holds
    | apply State.stageWrite_holds | apply Holds.ite | split

theorem execCfgPendRead_holds {s : State} [May M .setup] [May M .out] (h : Holds R M B s) : HoldsR R M B (execCfgPendRead s) := by
  unfold execCfgPendRead
  with_reducible repeat' first
    | assumption | intro _ | dsimp only | apply HoldsR.next | apply State.readReg_holds | apply Holds.onSetup
    | (simp only [Setup.ok_iff] at *; simp_all; done) | (simp_all; done)

theorem execCfgCtimeLoRead_holds {s : State} [May M .setup] [May M .out] (h : Holds R M B s) :
    HoldsR R M B (execCfgCtimeLoRead s) := by
  unfold execCfgCtimeLoRead
  with_reducible repeat' first
    | assumption | intro _ | dsimp only | apply HoldsR.next | apply State.readReg_holds | apply Holds.onSetup
    | (simp only [Setup.ok_iff] at *; simp_all; done) | (simp_all; done)

theorem State.refuseCommit_holds {s : State} {p : Snapshot} {f : Fail} [May M .rec_] [May M .setup] [May M .out] (h : Holds R M B s) :
    Holds R M B (State.refuseCommit s p f) := by
  unfold State.refuseCommit
  with_reducible repeat' first
    | assumption | intro _ | dsimp only | apply State.raise_holds | apply State.commitEnds_holds | apply Holds.onSetup
    | apply Holds.ite | (simp only [Setup.ok_iff] at *; simp_all; done) | split | (simp_all; done)

theorem State.storeConfig_holds {s : State} [May M .setup] (h : Holds R M B s) : Holds R M B (State.storeConfig s) := by
  unfold State.storeConfig
  with_reducible repeat' first
    | assumption | intro _ | dsimp only | apply Holds.onSetup | apply Holds.ite | (simp only [Setup.ok_iff] at *; simp_all; done)
    | split | (simp_all; done)

theorem State.takeSnapshot_holds {s : State} {x : Snapshot} [May M .setup] (h : Holds R M B s) (hx : R = true → x.regs.all rwOnly = true) :
    Holds R M B (State.takeSnapshot s x) := by
  unfold State.takeSnapshot
  refine ⟨h.queue, h.unit, fun hr => ?_, fun q => (h.parts q).elim .inl fun a => ?_⟩
  · have hy := (Setup.ok_iff _).1 (h.regs hr)
    exact Setup.mk_ok (RegBank.foldl_put_ok hy.1 (hx hr)) hy.2.1 hy.2.2.1 hy.2.2.2
  · cases q
    case setup => exact .inl May.yes
    all_goals exact .inr a

/-- What waits holds values that its registers may hold. -/
theorem Holds.waiting {s : State} {x : Snapshot} (h : Holds R M B s) (e : s.setup.pending = some x) :
    R = true → x.regs.all rwOnly = true := fun hr =>
  ((Setup.ok_iff _).1 (h.regs hr)).2.2.2 x e

theorem State.leaveGuard_holds {s : State} [May M .rec_] [May M .life] [May M .setup] (h : Holds R M B s) :
    Holds R M B (State.leaveGuard s) := by
  unfold State.leaveGuard
  with_reducible repeat' first
    | assumption | intro _ | dsimp only | apply State.raise_holds | apply Holds.onLife | apply Holds.onSetup | apply Holds.ite
    | exact ⟨rfl, rfl, rfl, rfl⟩ | (simp only [Setup.ok_iff] at *; simp_all; done) | split | (simp_all; done)

theorem State.newSite_holds {s : State} {p : Snapshot} {change : Option (Nat × Nat)} [May M .chain] [May M .time] [May M .twin] [May M .rec_] [May M .life] [May M .setup] (h : Holds R M B s) :
    Holds R M B (State.newSite s p change) := by
  unfold State.newSite
  with_reducible repeat' first
    | assumption | intro _ | dsimp only | apply State.formIdentity_holds | apply State.leaveGuard_holds | apply State.raise_holds
    | apply Holds.onLife | apply Holds.ite | exact ⟨rfl, rfl, rfl, rfl⟩ | split

theorem State.newModel_holds {s : State} {old : List Byte} [May M .est] (h : Holds R M B s) :
    Holds R M B (State.newModel s old) := by
  unfold State.newModel
  with_reducible repeat' first
    | assumption | intro _ | dsimp only | apply State.onEst_holds | apply Holds.ite | split

theorem State.stationParam_holds {s : State} {number : Nat} {value : Nat} [May M .ring] (h : Holds R M B s) :
    Holds R M B (State.stationParam s number value) := by
  unfold State.stationParam
  with_reducible repeat' first
    | assumption | intro _ | dsimp only | apply State.onRing_holds | apply Holds.ite | split

theorem State.newRing_holds {s : State} {old : RegBank} [May M .ring] [May M .meas] [May M .out] (h : Holds R M B s) :
    Holds R M B (State.newRing s old) := by
  unfold State.newRing
  with_reducible repeat' first
    | assumption | intro _ | dsimp only | apply State.stationParam_holds | apply State.ringStart_holds | apply Holds.ite
    | apply Holds.foldl | split

theorem State.newLinks_holds {s : State} {old : RegBank} [May M .gate] [May M .loop] [May M .out] (h : Holds R M B s) :
    Holds R M B (State.newLinks s old) := by
  unfold State.newLinks
  with_reducible repeat' first
    | assumption | intro _ | dsimp only | apply State.linkStart_holds | apply State.linkConfig_holds | apply Holds.ite
    | apply Holds.foldl | split

theorem State.newProfile_holds {s : State} {old : RegBank} {plant : Bool} [May M .fabric] [May M .rec_] (h : Holds R M B s) :
    Holds R M B (State.newProfile s old plant) := by
  unfold State.newProfile
  with_reducible repeat' first
    | assumption | dsimp only | apply State.takeProfile_holds | apply State.sourceChange_holds | apply Holds.ite | split

theorem State.newPort_holds {s : State} {p : Nat} [May M .plant] (h : Holds R M B s) : Holds R M B (State.newPort s p) := by
  unfold State.newPort
  with_reducible repeat' first
    | assumption | dsimp only
    | ((fail_if_success (fail_if_success (apply Holds.probe; dsimp only))); apply Holds.mk0
        <;> first | exact .inl May.yes | exact .inr rfl | skip)
    | apply Holds.ite | split

theorem State.newSerial_holds {s : State} {p : Nat} [May M .plant] (h : Holds R M B s) : Holds R M B (State.newSerial s p) := by
  unfold State.newSerial
  with_reducible repeat' first
    | assumption | dsimp only
    | ((fail_if_success (fail_if_success (apply Holds.probe; dsimp only))); apply Holds.mk0
        <;> first | exact .inl May.yes | exact .inr rfl | skip)

theorem State.newNet_holds {s : State} [May M .plant] (h : Holds R M B s) : Holds R M B (State.newNet s) := by
  unfold State.newNet
  with_reducible repeat' first
    | assumption | dsimp only
    | ((fail_if_success (fail_if_success (apply Holds.probe; dsimp only))); apply Holds.mk0
        <;> first | exact .inl May.yes | exact .inr rfl | skip)
    | apply Holds.ite | split

theorem State.newPorts_holds {s : State} {old : RegBank} [May M .plant] (h : Holds R M B s) :
    Holds R M B (State.newPorts s old) := by
  unfold State.newPorts
  with_reducible repeat' first
    | assumption | intro _ | dsimp only | apply State.newPort_holds | apply State.newNet_holds | apply State.newSerial_holds
    | apply Holds.ite | apply Holds.foldl | split

theorem State.emptyQueue_holds {s : State} {q : Nat} {more : Bool} {a3 : Nat} [May M .host] [May M .out] (h : Holds R M B s) :
    Holds R M B (State.emptyQueue s q more a3) := by
  induction a3 generalizing s with
  | zero =>
    unfold State.emptyQueue
    with_reducible repeat' first
      | assumption | intro _ | dsimp only | apply State.complete_holds | apply Holds.ite | apply Holds.foldl | split
  | succ n ih =>
    unfold State.emptyQueue
    with_reducible repeat' first
      | assumption | intro _ | apply ih | dsimp only | apply State.complete_holds | apply Holds.ite | apply Holds.foldl | split

theorem State.enableQueue_holds {s : State} {q : Nat} [May M .host] [May M .out] (h : Holds R M B s) :
    Holds R M B (State.enableQueue s q) := by
  unfold State.enableQueue
  with_reducible repeat' first
    | assumption | dsimp only | apply State.emptyQueue_holds | apply State.setQueue_holds

theorem State.disableQueue_holds {s : State} {old : RegBank} {q : Nat} [May M .host] [May M .out] (h : Holds R M B s) :
    Holds R M B (State.disableQueue s old q) := by
  unfold State.disableQueue
  with_reducible repeat' first
    | assumption | dsimp only | apply State.setQueue_holds | apply State.emptyQueue_holds | apply Holds.ite | split

theorem State.raiseBudget_holds {s : State} {old : RegBank} {q : Nat} [May M .host] [May M .out] (h : Holds R M B s) :
    Holds R M B (State.raiseBudget s old q) := by
  unfold State.raiseBudget
  with_reducible repeat' first
    | assumption | dsimp only | apply State.setQueue_holds | apply State.bareCompletion_holds | apply Holds.ite | split

theorem State.newQueue_holds {s : State} {old : RegBank} {q : Nat} [May M .host] [May M .out] (h : Holds R M B s) :
    Holds R M B (State.newQueue s old q) := by
  unfold State.newQueue
  with_reducible repeat' first
    | assumption | dsimp only | apply State.enableQueue_holds | apply State.disableQueue_holds | apply State.raiseBudget_holds
    | apply Holds.ite | split

theorem State.dropBacklogs_holds {s : State} [May M .host] (h : Holds R M B s) : Holds R M B (State.dropBacklogs s) := by
  unfold State.dropBacklogs
  with_reducible repeat' first
    | assumption | intro _ | dsimp only | apply State.setBacklog_holds | apply Holds.ite | apply Holds.foldl | split

theorem State.newQueues_holds {s : State} {old : RegBank} [May M .host] [May M .out] (h : Holds R M B s) :
    Holds R M B (State.newQueues s old) := by
  unfold State.newQueues
  with_reducible repeat' first
    | assumption | intro _ | dsimp only | apply State.dropBacklogs_holds | apply State.newQueue_holds | apply Holds.ite
    | apply Holds.foldl | split

theorem State.applyCommit_holds {s : State} {x : Snapshot} [May M .chain] [May M .fabric] [May M .time] [May M .ring] [May M .meas] [May M .est] [May M .gate] [May M .loop] [May M .host] [May M .plant] [May M .twin] [May M .rec_] [May M .life] [May M .setup] [May M .out] (h : Holds R M B s) (hx : R = true → x.regs.all rwOnly = true) :
    Holds R M B (State.applyCommit s x) := by
  unfold State.applyCommit
  exact State.commitEnds_holds (State.newQueues_holds (State.newPorts_holds (State.newLinks_holds (State.newRing_holds
    (State.newProfile_holds (State.storeConfig_holds (State.newModel_holds (State.newSite_holds (State.takeSnapshot_holds h hx)))))))))

theorem State.commitDue_holds {s : State} [May M .chain] [May M .fabric] [May M .time] [May M .ring] [May M .meas] [May M .est] [May M .gate] [May M .loop] [May M .host] [May M .plant] [May M .twin] [May M .rec_] [May M .life] [May M .setup] [May M .out] (h : Holds R M B s) : Holds R M B (State.commitDue s) := by
  unfold State.commitDue
  split
  · exact h
  · rename_i x hx
    split
    · refine Holds.ite ?_ h
      split
      · exact State.refuseCommit_holds h
      · exact State.applyCommit_holds h (h.waiting hx)
    · refine Holds.ite ?_ h
      split
      · exact State.refuseCommit_holds h
      · refine Holds.onSetup h fun hy => ?_
        rw [Setup.ok_iff] at hy
        exact Setup.mk_ok hy.1 hy.2.1 hy.2.2.1 fun z hz => by cases hz; exact hy.2.2.2 x hx

theorem execCommitApply_holds {s : State} [May M .chain] [May M .fabric] [May M .time] [May M .ring] [May M .meas] [May M .est] [May M .gate] [May M .loop] [May M .host] [May M .plant] [May M .twin] [May M .rec_] [May M .life] [May M .setup] [May M .out] (h : Holds R M B s) :
    HoldsR R M B (execCommitApply s) := by
  unfold execCommitApply
  with_reducible repeat' first
    | assumption | dsimp only | apply HoldsR.next | apply State.commitDue_holds | apply State.advance_holds | split

theorem State.expireCommit_holds {s : State} {sel : Snapshot → Bool} [May M .time] [May M .rec_] [May M .setup] [May M .out] (h : Holds R M B s) :
    Holds R M B (State.expireCommit s sel) := by
  unfold State.expireCommit
  with_reducible repeat' first
    | assumption | dsimp only | apply State.advance_holds | apply State.raise_holds | apply State.commitEnds_holds | apply Holds.ite
    | split

theorem execCommitExpired_holds {s : State} [May M .time] [May M .rec_] [May M .setup] [May M .out] (h : Holds R M B s) :
    HoldsR R M B (execCommitExpired s) := by
  unfold execCommitExpired
  with_reducible repeat' first
    | assumption | dsimp only | apply HoldsR.next | apply State.expireCommit_holds

theorem execProfileCommitExpired_holds {s : State} [May M .time] [May M .rec_] [May M .setup] [May M .out] (h : Holds R M B s) :
    HoldsR R M B (execProfileCommitExpired s) := by
  unfold execProfileCommitExpired
  with_reducible repeat' first
    | assumption | dsimp only | apply HoldsR.next | apply State.expireCommit_holds

theorem execSafetyCfgExpired_holds {s : State} [May M .time] [May M .rec_] [May M .setup] [May M .out] (h : Holds R M B s) :
    HoldsR R M B (execSafetyCfgExpired s) := by
  unfold execSafetyCfgExpired
  with_reducible repeat' first
    | assumption | dsimp only | apply HoldsR.next | apply State.expireCommit_holds

theorem State.ends_holds {s : State} {q : Nat} {need : Nat} {flags : Nat} {resp : List Byte} [May M .host] [May M .rec_] [May M .out] (h : Holds R M B s) :
    Holds R M B (State.ends s q need flags resp) := by
  unfold State.ends
  with_reducible repeat' first
    | assumption | dsimp only | apply State.fetchAndPump_holds | apply State.complete_holds | apply State.emit_holds | apply Holds.ite
    | split

theorem State.refuses_holds {s : State} {q : Nat} {status : Nat} {detail : Nat} [May M .host] [May M .rec_] [May M .out] (h : Holds R M B s) :
    Holds R M B (State.refuses s q status detail) := by
  unfold State.refuses
  with_reducible repeat' first
    | assumption | dsimp only | apply State.fetchAndPump_holds | apply State.complete_holds

theorem State.arrived_holds {s : State} {ep : Nat} [May M .plant] (h : Holds R M B s) : Holds R M B (State.arrived s ep) := by
  unfold State.arrived
  with_reducible repeat' first
    | assumption | intro _ | dsimp only | apply State.onEth_holds

end Sys2Proof.Machine
end

