-- ==== Sys2Proof/Laws/KeepLife.lean ====
section
/-! SUPPORT. What is kept (Laws/Holds.lean) by the spectrum, the estimator, the engines, the ledger, firmware and life: one lemma per operation and per command's meaning. -/
namespace Sys2Proof.Machine
variable {R : Bool} {M : Part → Bool} {B : State}

theorem State.impSums_holds {s : State} {d : DoneRun} [May M .rec_] (h : Holds R M B s) : Holds R M B (State.impSums s d) := by
  unfold State.impSums
  with_reducible repeat' first
    | assumption | intro _ | dsimp only | apply State.raise_holds | apply Holds.ite | apply Holds.foldl | split

theorem State.applyFits_holds {s : State} {rs : List Result1} [May M .est] [May M .rec_] (h : Holds R M B s) :
    Holds R M B (State.applyFits s rs) := by
  unfold State.applyFits
  with_reducible repeat' first
    | assumption | intro _ | dsimp only | apply State.tellCores_holds | apply State.onEst_holds | split

theorem State.outliers_holds {s : State} {rs : List Result1} {par : Nat} [May M .meas] [May M .rec_] (h : Holds R M B s) :
    Holds R M B (State.outliers s rs par) := by
  unfold State.outliers
  with_reducible repeat' first
    | assumption | intro _ | dsimp only | apply State.raise_holds | apply State.onCell_holds | apply Holds.ite | apply Holds.foldl
    | split

theorem State.busbars_holds {s : State} {rs : List Result1} [May M .meas] [May M .rec_] (h : Holds R M B s) :
    Holds R M B (State.busbars s rs) := by
  unfold State.busbars
  with_reducible repeat' first
    | assumption | intro _ | dsimp only | apply State.onMeas_holds | apply State.raise_holds | apply Holds.ite | apply Holds.foldl
    | split

theorem State.keepSpectrum_holds {s : State} {d : DoneRun} {r : Result1} [May M .est] (h : Holds R M B s) :
    Holds R M B (State.keepSpectrum s d r) := by
  unfold State.keepSpectrum
  with_reducible repeat' first
    | assumption | intro _ | dsimp only | apply State.onEst_holds | apply Holds.ite | split

theorem execEstimateRelease_holds {s : State} [May M .time] [May M .est] (h : Holds R M B s) :
    HoldsR R M B (execEstimateRelease s) := by
  unfold execEstimateRelease
  with_reducible repeat' first
    | assumption | intro _ | dsimp only | apply HoldsR.next | apply State.onEst_holds | apply State.advance_holds | split

theorem State.tellCapacity_holds {s : State} [May M .est] [May M .rec_] (h : Holds R M B s) :
    Holds R M B (State.tellCapacity s) := by
  unfold State.tellCapacity
  with_reducible repeat' first
    | assumption | intro _ | dsimp only | apply State.raise_holds | apply State.onEst_holds | apply Holds.ite | split

theorem execEstimatorCheckpoint_holds {second : Nat} {s : State} [May M .time] [May M .est] [May M .ledger] [May M .rec_] (h : Holds R M B s) :
    HoldsR R M B (execEstimatorCheckpoint second s) := by
  unfold execEstimatorCheckpoint
  with_reducible repeat' first
    | assumption | intro _ | dsimp only | apply HoldsR.next | apply State.advance_holds | apply State.onLedger_holds
    | apply State.onEst_holds | apply State.tellCapacity_holds

theorem State.sendEstBlock_holds {s : State} {e : Nat} [May M .est] [May M .host] [May M .rec_] [May M .out] (h : Holds R M B s) :
    Holds R M B (State.sendEstBlock s e) := by
  unfold State.sendEstBlock
  with_reducible repeat' first
    | assumption | intro _ | dsimp only | apply State.onEst_holds | apply State.release_holds

theorem execEstBlockSend_holds {s : State} [May M .est] [May M .host] [May M .rec_] [May M .out] (h : Holds R M B s) :
    HoldsR R M B (execEstBlockSend s) := by
  unfold execEstBlockSend
  with_reducible repeat' first
    | assumption | intro _ | dsimp only | apply HoldsR.next | apply State.onEst_holds | apply State.sendEstBlock_holds
    | apply Holds.ite | apply Holds.foldl | split

theorem State.impSkip_holds {s : State} {cause : Nat} [May M .est] [May M .rec_] (h : Holds R M B s) :
    Holds R M B (State.impSkip s cause) := by
  unfold State.impSkip
  with_reducible repeat' first
    | assumption | intro _ | dsimp only | apply State.onImp_holds | apply State.raise_holds | apply Holds.ite | split

theorem State.impBegin_holds {s : State} {kind : Nat} [May M .est] (h : Holds R M B s) : Holds R M B (State.impBegin s kind) := by
  unfold State.impBegin
  with_reducible repeat' first
    | assumption | intro _ | dsimp only | apply State.onImp_holds

theorem State.impLaunch_holds {s : State} {kind : Nat} [May M .est] [May M .rec_] (h : Holds R M B s) :
    Holds R M B (State.impLaunch s kind) := by
  unfold State.impLaunch
  with_reducible repeat' first
    | assumption | dsimp only | apply State.impSkip_holds | apply State.impBegin_holds | apply Holds.ite | split

theorem State.impRequested_holds {s : State} [May M .est] [May M .rec_] (h : Holds R M B s) :
    Holds R M B (State.impRequested s) := by
  unfold State.impRequested
  with_reducible repeat' first
    | assumption | intro _ | dsimp only | apply State.impLaunch_holds | apply State.onImp_holds

theorem State.impScheduled_holds {s : State} [May M .est] [May M .rec_] (h : Holds R M B s) :
    Holds R M B (State.impScheduled s) := by
  unfold State.impScheduled
  with_reducible repeat' first
    | assumption | dsimp only | apply State.impLaunch_holds | apply Holds.ite | split

theorem execImpRunStart_holds {requested : Bool} {s : State} [May M .time] [May M .est] [May M .rec_] (h : Holds R M B s) :
    HoldsR R M B (execImpRunStart requested s) := by
  unfold execImpRunStart
  with_reducible repeat' first
    | assumption | dsimp only | apply HoldsR.next | apply State.impRequested_holds | apply State.advance_holds
    | apply State.impScheduled_holds | apply Holds.ite | split

theorem State.applyImpRun_holds {s : State} [May M .est] (h : Holds R M B s) : Holds R M B (State.applyImpRun s) := by
  unfold State.applyImpRun
  with_reducible repeat' first
    | assumption | intro _ | dsimp only | apply State.onImp_holds

theorem execImpRun_holds {q : Fin 32} {s : State} [May M .est] [May M .host] [May M .twin] [May M .rec_] [May M .out] [May M .free] (h : Holds R M B s) :
    HoldsR R M B (execImpRun q s) := by
  unfold execImpRun
  with_reducible repeat' first
    | assumption | intro _ | dsimp only | apply HoldsR.next | apply State.hostRow_holds | apply State.forward_holds
    | apply State.applyImpRun_holds | apply HoldsV.refuse | apply HoldsV.accept | apply HoldsV.ite | apply Holds.ite | split

theorem State.impTry_holds {s : State} [May M .est] (h : Holds R M B s) : Holds R M B (State.impTry s) := by
  unfold State.impTry
  with_reducible repeat' first
    | assumption | intro _ | dsimp only | apply State.impStart_holds | apply State.onImp_holds | apply Holds.ite | split

theorem execImpSegmentStart_holds {s : State} [May M .est] (h : Holds R M B s) : HoldsR R M B (execImpSegmentStart s) := by
  unfold execImpSegmentStart
  with_reducible repeat' first
    | assumption | dsimp only | apply HoldsR.next | apply State.impTry_holds | apply Holds.ite | split

theorem execImpHeadroomRetest_holds {s : State} [May M .time] [May M .ring] [May M .est] [May M .rec_] (h : Holds R M B s) :
    HoldsR R M B (execImpHeadroomRetest s) := by
  unfold execImpHeadroomRetest
  with_reducible repeat' first
    | assumption | dsimp only | apply HoldsR.next | apply State.advance_holds | apply State.abandonRun_holds
    | apply State.impTry_holds | apply Holds.ite | split

theorem State.impAdvance_holds {s : State} [May M .est] (h : Holds R M B s) : Holds R M B (State.impAdvance s) := by
  unfold State.impAdvance
  with_reducible repeat' first
    | assumption | intro _ | dsimp only | apply State.onImp_holds | apply Holds.ite | split

theorem execImpWindowEnd_holds {s : State} [May M .time] [May M .ring] [May M .est] (h : Holds R M B s) :
    HoldsR R M B (execImpWindowEnd s) := by
  unfold execImpWindowEnd
  with_reducible repeat' first
    | assumption | dsimp only | apply HoldsR.next | apply State.advance_holds | apply State.impAdvance_holds
    | apply State.lockin_holds | apply Holds.ite | split

theorem execLockinResultMessage_holds {k : Fin 34} {s : State} [May M .ring] [May M .est] (h : Holds R M B s) :
    HoldsR R M B (execLockinResultMessage k s) := by
  unfold execLockinResultMessage
  with_reducible repeat' first
    | assumption | intro _ | dsimp only | apply HoldsR.next | apply State.takeMessage_holds | apply State.onImp_holds
    | apply Holds.ite | refine Holds.of_fst ‹_› ?_ | split

theorem State.diagnoseRun_holds {s : State} {rs : List Result1} {abandoned : Bool} [May M .meas] [May M .rec_] (h : Holds R M B s) :
    Holds R M B (State.diagnoseRun s rs abandoned) := by
  unfold State.diagnoseRun
  with_reducible repeat' first
    | assumption | dsimp only | apply State.busbars_holds | apply State.outliers_holds | apply Holds.ite | split

theorem State.sendSpectra_holds {s : State} {d : DoneRun} [May M .meas] [May M .est] [May M .host] [May M .rec_] [May M .out] (h : Holds R M B s) :
    Holds R M B (State.sendSpectra s d) := by
  unfold State.sendSpectra
  with_reducible repeat' first
    | assumption | intro _ | dsimp only | apply State.diagnoseRun_holds | apply State.release_holds | apply State.onImp_holds
    | apply State.keepSpectrum_holds | apply State.applyFits_holds | apply Holds.foldl

theorem execSpectrumSend_holds {s : State} [May M .meas] [May M .est] [May M .host] [May M .rec_] [May M .out] (h : Holds R M B s) :
    HoldsR R M B (execSpectrumSend s) := by
  unfold execSpectrumSend
  with_reducible repeat' first
    | assumption | dsimp only | apply HoldsR.next | apply State.sendSpectra_holds | apply State.impSums_holds | split

theorem State.onEngine_holds {s : State} {e : Nat} {f : Engine → Engine} [May M .fabric] (h : Holds R M B s) :
    Holds R M B (State.onEngine s e f) := by
  unfold State.onEngine
  with_reducible repeat' first
    | assumption | intro _ | dsimp only | apply State.onFabric_holds

theorem State.postAdjust_holds {s : State} [May M .ledger] (h : Holds R M B s) : Holds R M B (State.postAdjust s) := by
  unfold State.postAdjust
  with_reducible repeat' first
    | assumption | intro _ | dsimp only | apply State.onLedger_holds

theorem State.faultDispatch_holds {s : State} [May M .ring] [May M .est] [May M .gate] [May M .rec_] (h : Holds R M B s) :
    Holds R M B (State.faultDispatch s) := by
  unfold State.faultDispatch
  with_reducible repeat' first
    | assumption | dsimp only | apply State.stageDisable_holds | apply State.abandonRun_holds | apply State.enterStopRamp_holds
    | split

theorem State.faultLoop_holds {s : State} [May M .ring] [May M .est] [May M .gate] [May M .loop] [May M .rec_] [May M .out] (h : Holds R M B s) :
    Holds R M B (State.faultLoop s) := by
  unfold State.faultLoop
  with_reducible repeat' first
    | assumption | intro _ | dsimp only | apply State.abandonRun_holds | apply State.sendStop_holds | apply State.onLoop_holds
    | apply State.onGate_holds | split

theorem State.faultThermal_holds {s : State} [May M .therm] [May M .plant] [May M .out] (h : Holds R M B s) :
    Holds R M B (State.faultThermal s) := by
  unfold State.faultThermal
  with_reducible repeat' first
    | assumption | intro _ | dsimp only | apply State.onTherm_holds | apply State.coolersCan_holds | apply State.driveFan_holds
    | apply Holds.foldl

theorem State.reloadThermal_holds {s : State} [May M .therm] (h : Holds R M B s) : Holds R M B (State.reloadThermal s) := by
  unfold State.reloadThermal
  with_reducible repeat' first
    | assumption | intro _ | dsimp only | apply State.onTherm_holds

theorem State.faultEst_holds {s : State} {n : Nat} {keep : Bool} [May M .est] (h : Holds R M B s) :
    Holds R M B (State.faultEst s n keep) := by
  unfold State.faultEst
  with_reducible repeat' first
    | assumption | intro _ | dsimp only | apply State.onEst_holds | apply Holds.ite | split

theorem State.faultCyc_holds {s : State} {n : Nat} [May M .prog] [May M .plant] [May M .rec_] [May M .out] (h : Holds R M B s) :
    Holds R M B (State.faultCyc s n) := by
  unfold State.faultCyc
  with_reducible repeat' first
    | assumption | dsimp only | apply State.stopEng_holds | apply Holds.ite | split

theorem State.faultAction_holds {s : State} {e : Nat} [∀ q, May M q] (h : Holds R M B s) :
    Holds R M B (State.faultAction s e) := by
  unfold State.faultAction
  with_reducible repeat' first
    | assumption | intro _ | dsimp only | apply State.onEngine_holds | apply State.faultDispatch_holds | apply State.faultCyc_holds
    | apply State.faultLoop_holds | apply State.faultThermal_holds | apply State.faultEst_holds | apply State.internalFaultBy_holds
    | apply State.onEngA_holds | apply State.onEngB_holds | apply State.beginStart_holds | apply State.internalFault_holds
    | apply Holds.ite | split

theorem State.firstStartFailed_holds {s : State} [May M .rec_] [May M .life] (h : Holds R M B s) :
    Holds R M B (State.firstStartFailed s) := by
  unfold State.firstStartFailed
  with_reducible repeat' first
    | assumption | intro _ | dsimp only | apply State.raise_holds | apply Holds.onLife | exact ⟨rfl, rfl, rfl, rfl⟩

theorem State.noteFault_holds {s : State} {e : Nat} {cause : Nat} [May M .fabric] [May M .rec_] (h : Holds R M B s) :
    Holds R M B (State.noteFault s e cause) := by
  unfold State.noteFault
  with_reducible repeat' first
    | assumption | intro _ | dsimp only | apply State.onEngine_holds | apply State.raise_holds

theorem State.faultTwin_holds {s : State} {e : Nat} [May M .fabric] [May M .time] [May M .safety] [May M .plant] [May M .twin] [May M .rec_] [May M .life] [May M .out] (h : Holds R M B s) :
    Holds R M B (State.faultTwin s e) := by
  unfold State.faultTwin
  with_reducible repeat' first
    | assumption | intro _ | dsimp only | apply State.raise_holds | apply State.onEngine_holds | apply State.onTwin_holds
    | apply State.withdraw_holds | apply Holds.onLife | apply Holds.ite | exact ⟨rfl, rfl, rfl, rfl⟩ | split

theorem State.faultSingle_holds {s : State} {e : Nat} [∀ q, May M q] (h : Holds R M B s) :
    Holds R M B (State.faultSingle s e) := by
  unfold State.faultSingle
  with_reducible repeat' first
    | assumption | intro _ | dsimp only | apply State.faultAction_holds | apply State.raise_holds | apply State.internalFault_holds
    | apply State.onEngine_holds | apply Holds.ite | split

theorem State.engineFault_holds {s : State} {engine : Nat} {cause : Nat} [∀ q, May M q] (h : Holds R M B s) :
    Holds R M B (State.engineFault s engine cause) := by
  unfold State.engineFault
  with_reducible repeat' first
    | assumption | dsimp only | apply State.noteFault_holds | apply State.firstStartFailed_holds | apply State.internalFault_holds
    | apply State.faultTwin_holds | apply State.faultSingle_holds | apply Holds.ite | split

theorem State.checkBalances_holds {s : State} {b : Balances} [∀ q, May M q] (h : Holds R M B s) :
    Holds R M B (State.checkBalances s b) := by
  unfold State.checkBalances
  with_reducible repeat' first
    | assumption | dsimp only | apply State.engineFault_holds | apply State.raise_holds | split

theorem State.ledgerChecked_holds {s : State} {w : Sweep} [∀ q, May M q] (h : Holds R M B s) :
    Holds R M B (State.ledgerChecked s w) := by
  unfold State.ledgerChecked
  with_reducible repeat' first
    | assumption | dsimp only | apply State.ledgerSweep_holds | apply State.checkBalances_holds | apply Holds.ite | split

theorem State.bookBuffer_holds {s : State} [∀ q, May M q] (h : Holds R M B s) : Holds R M B (State.bookBuffer s) := by
  unfold State.bookBuffer
  with_reducible repeat' first
    | assumption | intro _ | dsimp only | apply State.postAdjust_holds | apply State.ledgerChecked_holds | apply State.onEst_holds
    | apply State.onLedger_holds | apply Holds.ite | apply Holds.foldl | split

theorem State.reloadCyc_holds {s : State} {n : Nat} {cause : Nat} [May M .prog] [May M .plant] [May M .rec_] [May M .out] (h : Holds R M B s) :
    Holds R M B (State.reloadCyc s n cause) := by
  unfold State.reloadCyc
  with_reducible repeat' first
    | assumption | dsimp only | apply State.restartEng_holds | apply State.addCause_holds | apply Holds.ite | split

theorem State.reloadEst_holds {s : State} {n : Nat} {keep : Bool} [May M .est] (h : Holds R M B s) :
    Holds R M B (State.reloadEst s n keep) := by
  unfold State.reloadEst
  with_reducible repeat' first
    | assumption | intro _ | dsimp only | apply State.onEst_holds | apply Holds.ite | split

theorem State.reloaded_holds {s : State} {e : Nat} [∀ q, May M q] (h : Holds R M B s) : Holds R M B (State.reloaded s e) := by
  unfold State.reloaded
  with_reducible repeat' first
    | assumption | intro _ | dsimp only | apply State.onEngine_holds | apply State.bookBuffer_holds | apply State.postAdjust_holds
    | apply State.reloadCyc_holds | apply State.reloadEst_holds | apply State.reloadThermal_holds | apply Holds.ite | split

theorem execLedgerSecond_holds {s : State} [∀ q, May M q] (h : Holds R M B s) : HoldsR R M B (execLedgerSecond s) := by
  unfold execLedgerSecond
  with_reducible repeat' first
    | assumption | dsimp only | apply HoldsR.next | apply State.postAdjust_holds | apply State.advance_holds
    | apply State.checkBalances_holds | apply Holds.ite | split

theorem State.saveEst_holds {s : State} [May M .est] (h : Holds R M B s) : Holds R M B (State.saveEst s) := by
  unfold State.saveEst
  with_reducible repeat' first
    | assumption | intro _ | dsimp only | apply State.onEst_holds | apply Holds.ite | split

theorem State.releaseUpTo_holds {s : State} {i : Image} [May M .ledger] [May M .host] [May M .rec_] [May M .out] (h : Holds R M B s) :
    Holds R M B (State.releaseUpTo s i) := by
  unfold State.releaseUpTo
  with_reducible repeat' first
    | assumption | intro _ | dsimp only | apply State.releaseRecs_holds | apply State.onLedger_holds

theorem execLedgerImageWritten_holds {s : State} [May M .time] [May M .est] [May M .ledger] [May M .host] [May M .rec_] [May M .out] (h : Holds R M B s) :
    HoldsR R M B (execLedgerImageWritten s) := by
  unfold execLedgerImageWritten
  with_reducible repeat' first
    | assumption | intro _ | dsimp only | apply HoldsR.next | apply State.onLedger_holds | apply State.advance_holds
    | apply State.releaseUpTo_holds | apply State.saveEst_holds | apply Holds.ite | split

theorem State.lastSweep_holds {s : State} [∀ q, May M q] (h : Holds R M B s) : Holds R M B (State.lastSweep s) := by
  unfold State.lastSweep
  with_reducible repeat' first
    | assumption | dsimp only | apply State.collectRing_holds | apply State.advance_holds | apply State.ledgerChecked_holds
    | apply State.measSweep_holds | apply State.postAdjust_holds | split

theorem State.finalImage_holds {s : State} [May M .ledger] (h : Holds R M B s) : Holds R M B (State.finalImage s) := by
  unfold State.finalImage
  with_reducible repeat' first
    | assumption | intro _ | dsimp only | apply State.onLedger_holds | apply Holds.ite | split

theorem State.lastRecords_holds {s : State} {written : Nat} {header : Bool} [May M .host] [May M .plant] [May M .rec_] [May M .out] (h : Holds R M B s) :
    Holds R M B (State.lastRecords s written header) := by
  unfold State.lastRecords
  with_reducible repeat' first
    | assumption | intro _ | dsimp only
    | ((fail_if_success (fail_if_success (apply Holds.probe; dsimp only))); apply Holds.mk0
        <;> first | exact .inl May.yes | exact .inr rfl | skip)
    | apply State.store_holds | apply Holds.ite | apply Holds.foldl | split

theorem State.saveLast_holds {s : State} {image : Bool} {copies : Bool} [∀ q, May M q] (h : Holds R M B s) :
    Holds R M B (State.saveLast s image copies) := by
  unfold State.saveLast
  with_reducible repeat' first
    | assumption | intro _ | dsimp only | apply State.lastSweep_holds | apply State.onLedger_holds | apply State.finalImage_holds
    | apply State.saveAll_holds | apply Holds.ite | split

theorem State.powerDown_holds {s : State} {image : Bool} {copies : Bool} {header : Bool} {written : Nat} [∀ q, May M q] (h : Holds R M B s) :
    Holds R M B (State.powerDown s image copies header written) := by
  unfold State.powerDown
  with_reducible repeat' first
    | assumption | intro _ | dsimp only | apply State.sendStop_holds | apply State.loopsOpen_holds | apply State.outsOff_holds
    | apply State.withdraw_holds | apply State.saveLast_holds | apply State.lastRecords_holds | apply State.onTwin_holds
    | apply State.onGate_holds | apply Holds.onLife | apply Holds.ite | exact ⟨rfl, rfl, rfl, rfl⟩ | split

theorem execSupplyLoss_holds {image : Bool} {copies : Bool} {header : Bool} {written : Nat} {s : State} [∀ q, May M q] (h : Holds R M B s) :
    HoldsR R M B (execSupplyLoss image copies header written s) := by
  unfold execSupplyLoss
  with_reducible repeat' first
    | assumption | dsimp only | apply HoldsR.next | apply State.powerDown_holds

theorem State.gapLost_holds {s : State} {i : Image} {from_ : Nat} {path : Nat} [May M .est] [May M .ledger] [May M .rec_] (h : Holds R M B s) :
    Holds R M B (State.gapLost s i from_ path) := by
  unfold State.gapLost
  with_reducible repeat' first
    | assumption | intro _ | dsimp only | apply State.onLedger_holds | apply State.bookUnobserved_holds

theorem State.bookGap_holds {s : State} {i : Image} {from_ : Nat} [May M .est] [May M .ledger] [May M .rec_] (h : Holds R M B s) :
    Holds R M B (State.bookGap s i from_) := by
  unfold State.bookGap
  with_reducible repeat' first
    | assumption | intro _ | dsimp only | apply State.onLedger_holds | apply State.bookPath_holds | apply State.gapLost_holds
    | apply State.onEst_holds | apply Holds.ite | split

theorem execLedgerGapBooking_holds {s : State} [May M .est] [May M .ledger] [May M .rec_] (h : Holds R M B s) :
    HoldsR R M B (execLedgerGapBooking s) := by
  unfold execLedgerGapBooking
  with_reducible repeat' first
    | assumption | dsimp only | apply HoldsR.next | apply State.bookGap_holds | apply Holds.ite | split

theorem State.applyNote_holds {s : State} {c : Cmd} [May M .ledger] [May M .host] (h : Holds R M B s) :
    Holds R M B (State.applyNote s c) := by
  unfold State.applyNote
  with_reducible repeat' first
    | assumption | dsimp only
    | ((fail_if_success (fail_if_success (apply Holds.probe; dsimp only))); apply Holds.mk0
        <;> first | exact .inl May.yes | exact .inr rfl | skip)
    | apply State.bookMarker_holds | apply Holds.ite | split

theorem execLedgerNote_holds {q : Fin 32} {s : State} [May M .host] [May M .twin] [May M .rec_] [May M .out] [May M .free] (h : Holds R M B s) :
    HoldsR R M B (execLedgerNote q s) := by
  unfold execLedgerNote
  with_reducible repeat' first
    | assumption | intro _ | dsimp only | apply HoldsR.next | apply State.hostRow_holds | apply State.acceptForwarded_holds
    | apply HoldsV.refuse | apply HoldsV.accept | apply HoldsV.ite | apply Holds.ite | split

theorem execLedgerReplay_holds {q : Fin 32} {s : State} [May M .host] [May M .rec_] [May M .out] [May M .free] (h : Holds R M B s) :
    HoldsR R M B (execLedgerReplay q s) := by
  unfold execLedgerReplay
  with_reducible repeat' first
    | assumption | intro _ | dsimp only | apply HoldsR.next | apply State.hostRow_holds | apply State.release_holds
    | apply HoldsV.refuse | apply HoldsV.accept | apply HoldsV.ite | apply Holds.ite | apply Holds.foldl | split

theorem execLedgerLseqLoRead_holds {s : State} [May M .ledger] [May M .out] (h : Holds R M B s) :
    HoldsR R M B (execLedgerLseqLoRead s) := by
  unfold execLedgerLseqLoRead
  with_reducible repeat' first
    | assumption | intro _ | dsimp only | apply HoldsR.next | apply State.readReg_holds | apply State.onLedger_holds

theorem fwVerdict_holds {s : State} {st : Nat} {detail : Nat} [May M .life] (h : Holds R M B s) :
    HoldsV R M B (fwVerdict s st detail) := by
  unfold fwVerdict
  with_reducible repeat' first
    | assumption | intro _ | dsimp only | apply HoldsV.refuseAs | apply Holds.onLife | exact ⟨rfl, rfl, rfl, rfl⟩

theorem firmwareChunk_holds {sig : Bool} {s : State} {d : Desc} [May M .life] (h : Holds R M B s) :
    HoldsV R M B (firmwareChunk sig s d) := by
  unfold firmwareChunk
  with_reducible repeat' first
    | assumption | intro _ | dsimp only | apply fwVerdict_holds | apply HoldsV.accept | apply HoldsV.ite | apply Holds.onLife
    | apply Holds.ite | exact ⟨rfl, rfl, rfl, rfl⟩ | split

theorem installOp_holds {s : State} {d : Desc} [May M .life] (h : Holds R M B s) : HoldsV R M B (installOp s d) := by
  unfold installOp
  with_reducible repeat' first
    | assumption | intro _ | dsimp only | apply fwVerdict_holds | apply HoldsV.accept | apply HoldsV.ite | apply Holds.onLife
    | apply Holds.ite | exact ⟨rfl, rfl, rfl, rfl⟩ | split

theorem activateOp_holds {s : State} {a1 : Desc} [May M .life] (h : Holds R M B s) : HoldsV R M B (activateOp s a1) := by
  unfold activateOp
  with_reducible repeat' first
    | assumption | intro _ | dsimp only | apply fwVerdict_holds | apply HoldsV.accept | apply HoldsV.ite | apply Holds.onLife
    | apply Holds.ite | exact ⟨rfl, rfl, rfl, rfl⟩ | split

theorem restartOp_holds {s : State} {a1 : Desc} [May M .life] (h : Holds R M B s) : HoldsV R M B (restartOp s a1) := by
  unfold restartOp
  with_reducible repeat' first
    | assumption | intro _ | dsimp only | apply HoldsV.accept | apply Holds.onLife | exact ⟨rfl, rfl, rfl, rfl⟩

theorem State.putKey_holds {s : State} {n : Nat} {new : KeySlot} [May M .host] [May M .rec_] (h : Holds R M B s) :
    Holds R M B (State.putKey s n new) := by
  unfold State.putKey
  with_reducible repeat' first
    | assumption | intro _ | dsimp only | apply State.raise_holds | apply State.onHost_holds | apply Holds.ite | split

theorem State.putKeys_holds {s : State} {keys : List KeySlot} [May M .host] [May M .rec_] (h : Holds R M B s) :
    Holds R M B (State.putKeys s keys) := by
  unfold State.putKeys
  with_reducible repeat' first
    | assumption | intro _ | dsimp only | apply State.putKey_holds | apply Holds.foldl

theorem keysOp_holds {s : State} {d : Desc} [May M .host] [May M .twin] [May M .life] [May M .out] (h : Holds R M B s) :
    HoldsV R M B (keysOp s d) := by
  unfold keysOp
  with_reducible repeat' first
    | assumption | intro _ | dsimp only | apply fwVerdict_holds | apply State.acceptBoth_holds | apply HoldsV.accept
    | apply HoldsV.ite | apply Holds.onLife | apply Holds.ite | exact ⟨rfl, rfl, rfl, rfl⟩ | refine Holds.of_fst ‹_› ?_ | split

theorem State.applyKeys_holds {s : State} {c : Cmd} [May M .host] [May M .rec_] (h : Holds R M B s) :
    Holds R M B (State.applyKeys s c) := by
  unfold State.applyKeys
  with_reducible repeat' first
    | assumption | dsimp only | apply State.putKeys_holds | apply Holds.ite | split

theorem State.exposureOpens_holds {s : State} {cause : Nat} [May M .twin] [May M .rec_] (h : Holds R M B s) :
    Holds R M B (State.exposureOpens s cause) := by
  unfold State.exposureOpens
  with_reducible repeat' first
    | assumption | intro _ | dsimp only | apply State.onTwin_holds | apply State.raise_holds | apply Holds.ite | split

theorem State.sendProgress_holds {s : State} [May M .host] [May M .rec_] [May M .out] (h : Holds R M B s) :
    Holds R M B (State.sendProgress s) := by
  unfold State.sendProgress
  with_reducible repeat' first
    | assumption | dsimp only | apply State.release_holds | split

theorem State.onCatch_holds {s : State} {f : CatchUp → CatchUp} [May M .twin] (h : Holds R M B s) :
    Holds R M B (State.onCatch s f) := by
  unfold State.onCatch
  with_reducible repeat' first
    | assumption | intro _ | dsimp only | apply State.onTwin_holds

theorem State.catchStep_holds {s : State} {st : CatchStep} [May M .host] [May M .twin] [May M .rec_] [May M .out] (h : Holds R M B s) :
    Holds R M B (State.catchStep s st) := by
  unfold State.catchStep
  with_reducible repeat' first
    | assumption | intro _ | dsimp only | apply State.sendProgress_holds | apply State.onCatch_holds

theorem State.beginCatchUp_holds {s : State} {attempt : Nat} [May M .host] [May M .twin] [May M .rec_] [May M .out] (h : Holds R M B s) :
    Holds R M B (State.beginCatchUp s attempt) := by
  unfold State.beginCatchUp
  with_reducible repeat' first
    | assumption | intro _ | dsimp only | apply State.onTwin_holds | apply State.sendProgress_holds | apply State.pairSend_holds

theorem State.startClocks_holds {s : State} [May M .safety] (h : Holds R M B s) : Holds R M B (State.startClocks s) := by
  unfold State.startClocks
  with_reducible repeat' first
    | assumption | intro _ | dsimp only | apply State.onEngB_holds | apply State.onEngA_holds

theorem State.enterService_holds {s : State} [May M .time] [May M .ring] [May M .meas] [May M .est] [May M .ledger] [May M .gate] [May M .safety] [May M .plant] [May M .twin] [May M .rec_] [May M .life] [May M .out] (h : Holds R M B s) :
    Holds R M B (State.enterService s) := by
  unfold State.enterService
  with_reducible repeat' first
    | assumption | intro _ | dsimp only | apply State.onSafety_holds | apply State.startClocks_holds | apply State.onTime_holds
    | apply State.onTwin_holds | apply State.drivePins_holds | apply State.openLedger_holds | apply State.exposureOpens_holds
    | apply State.internalFault_holds | apply Holds.onLife | apply Holds.ite | exact ⟨rfl, rfl, rfl, rfl⟩ | split

theorem execPowerUp_holds {oscOk : Bool} {s : State} [∀ q, May M q] (h : Holds R M B s) : HoldsR R M B (execPowerUp oscOk s) := by
  unfold execPowerUp
  with_reducible repeat' first
    | assumption | intro _ | dsimp only | apply HoldsR.next | apply State.onTwin_holds | apply State.onTherm_holds
    | apply State.beginStart_holds | apply Holds.onLife | apply Holds.ite | exact ⟨rfl, rfl, rfl, rfl⟩ | split

theorem execImageChecked_holds {version : Word} {image : ImageHead} {s : State} [May M .chain] [May M .time] [May M .est] [May M .ledger] [May M .therm] [May M .safety] [May M .prog] [May M .host] [May M .plant] [May M .twin] [May M .rec_] [May M .life] [May M .setup] [May M .out] (h : Holds R M B s) :
    HoldsR R M B (execImageChecked version image s) := by
  unfold execImageChecked
  with_reducible repeat' first
    | assumption | intro _ | dsimp only | apply HoldsR.next | apply State.onEngB_holds | apply State.onEngA_holds
    | apply State.loadSaved_holds | apply State.onTherm_holds | apply Holds.onLife | apply Holds.ite | exact ⟨rfl, rfl, rfl, rfl⟩
    | split

theorem State.startRest_holds {s : State} [May M .fabric] [May M .ring] [May M .meas] [May M .est] [May M .gate] [May M .loop] [May M .prog] [May M .rec_] [May M .life] [May M .out] [May M .free] (h : Holds R M B s) :
    Holds R M B (State.startRest s) := by
  unfold State.startRest
  with_reducible repeat' first
    | assumption | intro _ | dsimp only | apply State.replan_holds | apply State.loadEngines_holds | apply State.startLines_holds
    | apply Holds.onLife | exact ⟨rfl, rfl, rfl, rfl⟩

theorem State.startCatchUp_holds {s : State} {cls : Nat} [May M .chain] [May M .fabric] [May M .time] [May M .est] [May M .loop] [May M .prog] [May M .host] [May M .twin] [May M .rec_] [May M .life] [May M .out] [May M .free] (h : Holds R M B s) :
    Holds R M B (State.startCatchUp s cls) := by
  unfold State.startCatchUp
  with_reducible repeat' first
    | assumption | intro _ | dsimp only | apply State.takeClass_holds | apply State.replan_holds | apply State.loadEngines_holds
    | apply State.beginCatchUp_holds | apply State.onTime_holds | apply Holds.onLife | apply Holds.ite | exact ⟨rfl, rfl, rfl, rfl⟩
    | split

theorem execPairWatchEnd_holds {named : Fin 3} {s : State} [May M .chain] [May M .fabric] [May M .time] [May M .ring] [May M .meas] [May M .est] [May M .gate] [May M .loop] [May M .prog] [May M .host] [May M .twin] [May M .rec_] [May M .life] [May M .out] [May M .free] (h : Holds R M B s) :
    HoldsR R M B (execPairWatchEnd named s) := by
  unfold execPairWatchEnd
  with_reducible repeat' first
    | assumption | dsimp only | apply HoldsR.next | apply State.advance_holds | apply State.startCatchUp_holds
    | apply State.startRest_holds | apply Holds.ite | split

theorem execEnterService_holds {s : State} [May M .time] [May M .ring] [May M .meas] [May M .est] [May M .ledger] [May M .gate] [May M .safety] [May M .plant] [May M .twin] [May M .rec_] [May M .life] [May M .out] (h : Holds R M B s) :
    HoldsR R M B (execEnterService s) := by
  unfold execEnterService
  with_reducible repeat' first
    | assumption | intro _ | dsimp only | apply HoldsR.next | apply State.enterService_holds | apply State.onTwin_holds
    | apply Holds.ite | split

theorem execPartnerWaitTimeout_holds {s : State} [May M .time] [May M .ring] [May M .meas] [May M .est] [May M .ledger] [May M .gate] [May M .safety] [May M .plant] [May M .twin] [May M .rec_] [May M .life] [May M .out] (h : Holds R M B s) :
    HoldsR R M B (execPartnerWaitTimeout s) := by
  unfold execPartnerWaitTimeout
  with_reducible repeat' first
    | assumption | dsimp only | apply HoldsR.next | apply State.advance_holds | apply State.enterService_holds | apply Holds.ite
    | split

theorem execHoldupMeasured_holds {tenths : Nat} {s : State} [May M .rec_] [May M .life] (h : Holds R M B s) :
    HoldsR R M B (execHoldupMeasured tenths s) := by
  unfold execHoldupMeasured
  with_reducible repeat' first
    | assumption | intro _ | dsimp only | apply HoldsR.next | apply State.raise_holds | apply Holds.onLife | apply Holds.ite
    | exact ⟨rfl, rfl, rfl, rfl⟩ | split

theorem execSupplyHigh_holds {tenths : Nat} {again : Bool} {s : State} [May M .time] [May M .rec_] [May M .life] (h : Holds R M B s) :
    HoldsR R M B (execSupplyHigh tenths again s) := by
  unfold execSupplyHigh
  with_reducible repeat' first
    | assumption | intro _ | dsimp only | apply HoldsR.next | apply State.advance_holds | apply State.raise_holds | apply Holds.onLife
    | apply Holds.ite | exact ⟨rfl, rfl, rfl, rfl⟩ | split

theorem execSupplyOvervoltage_holds {image : Bool} {copies : Bool} {header : Bool} {written : Nat} {s : State} [∀ q, May M q] (h : Holds R M B s) :
    HoldsR R M B (execSupplyOvervoltage image copies header written s) := by
  unfold execSupplyOvervoltage
  with_reducible repeat' first
    | assumption | intro _ | dsimp only | apply HoldsR.next | apply State.powerDown_holds | apply Holds.onLife | apply Holds.ite
    | exact ⟨rfl, rfl, rfl, rfl⟩ | split

theorem execSupplyReconnect_holds {s : State} [May M .life] (h : Holds R M B s) : HoldsR R M B (execSupplyReconnect s) := by
  unfold execSupplyReconnect
  with_reducible repeat' first
    | assumption | intro _ | dsimp only | apply HoldsR.next | apply Holds.onLife | exact ⟨rfl, rfl, rfl, rfl⟩

theorem execDieCoolRestart_holds {s : State} [∀ q, May M q] (h : Holds R M B s) : HoldsR R M B (execDieCoolRestart s) := by
  unfold execDieCoolRestart
  with_reducible repeat' first
    | assumption | dsimp only | apply HoldsR.next | apply State.beginStart_holds | apply State.advance_holds | split

theorem execWardenWatchdogExpiry_holds {s : State} [∀ q, May M q] (h : Holds R M B s) :
    HoldsR R M B (execWardenWatchdogExpiry s) := by
  unfold execWardenWatchdogExpiry
  with_reducible repeat' first
    | assumption | dsimp only | apply HoldsR.next | apply State.engineFault_holds

theorem execPortSelftest_holds {kind : Byte} {port : Byte} {ok : Bool} {s : State} [May M .time] [May M .safety] [May M .plant] [May M .twin] [May M .rec_] [May M .out] (h : Holds R M B s) :
    HoldsR R M B (execPortSelftest kind port ok s) := by
  unfold execPortSelftest
  with_reducible repeat' first
    | assumption | intro _ | dsimp only | apply HoldsR.next | apply State.selfDiagnosis_holds | apply State.raise_holds
    | apply Holds.ite | split

theorem execFirmwareLoadChunk_holds {q : Fin 32} {sig : Bool} {s : State} [May M .host] [May M .rec_] [May M .life] [May M .out] [May M .free] (h : Holds R M B s) :
    HoldsR R M B (execFirmwareLoadChunk q sig s) := by
  unfold execFirmwareLoadChunk
  with_reducible repeat' first
    | assumption | intro _ | dsimp only | apply HoldsR.next | apply State.loadRow_holds | apply firmwareChunk_holds

theorem execInstall_holds {q : Fin 32} {s : State} [May M .host] [May M .rec_] [May M .life] [May M .out] [May M .free] (h : Holds R M B s) :
    HoldsR R M B (execInstall q s) := by
  unfold execInstall
  with_reducible repeat' first
    | assumption | intro _ | dsimp only | apply HoldsR.next | apply State.hostRow_holds | apply installOp_holds

theorem execActivate_holds {q : Fin 32} {s : State} [May M .host] [May M .rec_] [May M .life] [May M .out] [May M .free] (h : Holds R M B s) :
    HoldsR R M B (execActivate q s) := by
  unfold execActivate
  with_reducible repeat' first
    | assumption | intro _ | dsimp only | apply HoldsR.next | apply State.hostRow_holds | apply activateOp_holds

theorem execRestart_holds {q : Fin 32} {s : State} [May M .host] [May M .rec_] [May M .life] [May M .out] [May M .free] (h : Holds R M B s) :
    HoldsR R M B (execRestart q s) := by
  unfold execRestart
  with_reducible repeat' first
    | assumption | intro _ | dsimp only | apply HoldsR.next | apply State.hostRow_holds | apply restartOp_holds

theorem execKeys_holds {q : Fin 32} {s : State} [May M .host] [May M .twin] [May M .rec_] [May M .life] [May M .out] [May M .free] (h : Holds R M B s) :
    HoldsR R M B (execKeys q s) := by
  unfold execKeys
  with_reducible repeat' first
    | assumption | intro _ | dsimp only | apply HoldsR.next | apply State.hostRow_holds | apply keysOp_holds

theorem execInstallDone_holds {s : State} [∀ q, May M q] (h : Holds R M B s) : HoldsR R M B (execInstallDone s) := by
  unfold execInstallDone
  with_reducible repeat' first
    | assumption | intro _ | dsimp only | apply HoldsR.next | apply State.raise_holds | apply State.beginStart_holds
    | apply Holds.onLife | apply Holds.ite | exact ⟨rfl, rfl, rfl, rfl⟩ | split

theorem State.activationStop_holds {s : State} {e : Nat} [May M .fabric] [May M .est] [May M .prog] [May M .plant] [May M .rec_] [May M .out] (h : Holds R M B s) :
    Holds R M B (State.activationStop s e) := by
  unfold State.activationStop
  with_reducible repeat' first
    | assumption | intro _ | dsimp only | apply State.onEngine_holds | apply State.faultCyc_holds | apply State.faultEst_holds
    | apply Holds.ite | split

theorem State.activationGo_holds {s : State} {e : Nat} [∀ q, May M q] (h : Holds R M B s) :
    Holds R M B (State.activationGo s e) := by
  unfold State.activationGo
  with_reducible repeat' first
    | assumption | intro _ | dsimp only | apply State.onEngine_holds | apply State.bookBuffer_holds | apply State.reloadEst_holds
    | apply State.restartEng_holds | apply Holds.ite | split

theorem State.activate_holds {s : State} [May M .time] [May M .ring] [May M .est] [May M .gate] [May M .safety] [May M .plant] [May M .twin] [May M .rec_] [May M .life] [May M .out] (h : Holds R M B s) :
    Holds R M B (State.activate s) := by
  unfold State.activate
  with_reducible repeat' first
    | assumption | intro _ | dsimp only | apply State.withdraw_holds | apply State.stageDisable_holds | apply State.onGate_holds
    | apply Holds.onLife | apply Holds.ite | exact ⟨rfl, rfl, rfl, rfl⟩ | split

theorem State.activationRest_holds {s : State} [May M .ring] [May M .est] [May M .rec_] [May M .life] (h : Holds R M B s) :
    Holds R M B (State.activationRest s) := by
  unfold State.activationRest
  with_reducible repeat' first
    | assumption | intro _ | dsimp only | apply State.abandonRun_holds | apply Holds.onLife | exact ⟨rfl, rfl, rfl, rfl⟩ | split

theorem execActivationImageChecked_holds {image : ImageHead} {s : State} [May M .fabric] [May M .est] [May M .prog] [May M .plant] [May M .rec_] [May M .life] [May M .out] (h : Holds R M B s) :
    HoldsR R M B (execActivationImageChecked image s) := by
  unfold execActivationImageChecked
  with_reducible repeat' first
    | assumption | intro _ | dsimp only | apply HoldsR.next | apply State.activationStop_holds | apply Holds.onLife
    | apply Holds.foldl | exact ⟨rfl, rfl, rfl, rfl⟩ | split

theorem execActivationReloadDone_holds {s : State} [∀ q, May M q] (h : Holds R M B s) :
    HoldsR R M B (execActivationReloadDone s) := by
  unfold execActivationReloadDone
  with_reducible repeat' first
    | assumption | intro _ | dsimp only | apply HoldsR.next | apply State.replan_holds | apply State.activationGo_holds
    | apply State.linkStart_holds | apply State.partsFirmware_holds | apply Holds.onLife | apply Holds.foldl
    | exact ⟨rfl, rfl, rfl, rfl⟩ | split

theorem execProbationEnd_holds {s : State} [May M .time] [May M .gate] [May M .rec_] [May M .life] (h : Holds R M B s) :
    HoldsR R M B (execProbationEnd s) := by
  unfold execProbationEnd
  with_reducible repeat' first
    | assumption | intro _ | dsimp only | apply HoldsR.next | apply State.advance_holds | apply State.raise_holds
    | apply State.onGate_holds | apply Holds.onLife | apply Holds.ite | exact ⟨rfl, rfl, rfl, rfl⟩ | split

theorem State.recoveryRegs_holds {s : State} [May M .setup] (h : Holds R M B s) : Holds R M B (State.recoveryRegs s) := by
  unfold State.recoveryRegs
  refine Holds.onSetup h fun hy => ?_
  rw [Setup.ok_iff] at *
  have hb : recoveryBank.ok = true := RegBank.take_ok RegBank.nil_ok
  exact ⟨hb, hb, hy.2.2.1, hy.2.2.2⟩

theorem State.recover_holds {s : State} {cause : Nat} [May M .therm] [May M .safety] [May M .twin] [May M .life] [May M .setup] [May M .out] (h : Holds R M B s) :
    Holds R M B (State.recover s cause) := by
  unfold State.recover
  with_reducible repeat' first
    | assumption | intro _ | dsimp only | apply State.onTherm_holds | apply State.onEngB_holds | apply State.onEngA_holds
    | apply State.recoveryRegs_holds | apply State.loopsOpen_holds | apply State.outsOff_holds | apply State.releasePins_holds
    | apply State.onTwin_holds | apply Holds.onLife | apply Holds.ite | exact ⟨rfl, rfl, rfl, rfl⟩ | split

theorem execRomRecovery_holds {cause : Fin 5} {s : State} [May M .therm] [May M .safety] [May M .twin] [May M .life] [May M .setup] [May M .out] (h : Holds R M B s) :
    HoldsR R M B (execRomRecovery cause s) := by
  unfold execRomRecovery
  with_reducible repeat' first
    | assumption | dsimp only | apply HoldsR.next | apply State.recover_holds | apply Holds.ite | split

theorem State.svcAnswer_holds {s : State} {tag : Nat} {d : Desc} {status : Nat} {detail : Nat} {len : Nat} {flags : Nat} {resp : List Byte} [May M .out] (h : Holds R M B s) :
    Holds R M B (State.svcAnswer s tag d status detail len flags resp) := by
  unfold State.svcAnswer
  with_reducible repeat' first
    | assumption | dsimp only | apply State.emit_holds

/-- What the service port executes. -/
theorem svcOp_holds {sig : Bool} {op a0 : Nat} {own : State → Desc → Verdict} {s : State} {d : Desc}
    [May M .gate] [May M .host] [May M .plant] [May M .twin] [May M .rec_] [May M .life] [May M .out] (e : svcOp sig op a0 = some own) (h : Holds R M B s) : HoldsV R M B (own s d) := by
  unfold svcOp at e
  repeat' split at e
  all_goals cases e
  · exact blockReadOp_holds h
  · exact timeStatusOp_holds h
  · exact faultReadOp_holds h
  · exact slackReadOp_holds h
  · exact recorderRead_holds h
  · exact recorderFreeze_holds h
  · exact recorderThaw_holds h
  · exact recorderClear_holds h
  · exact recorderClearReg_holds h
  · exact recorderCodes_holds h
  · exact .refuse
  · exact installOp_holds h
  · exact activateOp_holds h
  · exact restartOp_holds h
  · exact keysOp_holds h
  · exact .refuse
  · exact firmwareChunk_holds h

theorem State.svcRequest_holds {s : State} {tag : Nat} {d : Desc} {sig : Bool} [May M .gate] [May M .host] [May M .plant] [May M .twin] [May M .rec_] [May M .life] [May M .out] [May M .free] (h : Holds R M B s) :
    Holds R M B (State.svcRequest s tag d sig) := by
  unfold State.svcRequest
  dsimp only
  split
  · exact State.svcAnswer_holds h
  · rename_i own e
    have e' : svcOp sig d.opcode.toNat (d.argByte 0) = some own := by
      split at e
      · exact e
      · cases e
    split
    · exact State.svcAnswer_holds h
    · split
      · rename_i ht
        exact State.svcAnswer_holds (Holds.of_fst ht (State.authorise_holds h))
      · rename_i t ht
        have h2 : Holds R M B t := Holds.of_fst ht (State.authorise_holds h)
        have hv := svcOp_holds (d := d) e' h2
        split
        · exact State.svcAnswer_holds h2
        · exact State.svcAnswer_holds (HoldsV.of_refuseAs ‹_› hv)
        · exact Holds.ite (State.svcAnswer_holds h2) (State.svcAnswer_holds (HoldsV.of_accept ‹_› hv))
        · exact Holds.ite (State.svcAnswer_holds h2) (State.svcAnswer_holds (HoldsV.of_acceptRead ‹_› hv))

theorem execSvcMessage_holds {first tag check : Word} {body : List Byte} {sig : Bool} {s : State} [May M .gate] [May M .therm] [May M .safety] [May M .host] [May M .plant] [May M .twin] [May M .rec_] [May M .life] [May M .setup] [May M .out] [May M .free] (h : Holds R M B s) :
    HoldsR R M B (execSvcMessage first tag check body sig s) := by
  unfold execSvcMessage
  with_reducible repeat' first
    | assumption | dsimp only | apply HoldsR.next | apply State.svcRequest_holds | apply State.recover_holds | apply Holds.ite | split

theorem execExposureNotice_holds {s : State} [May M .time] [May M .twin] [May M .rec_] (h : Holds R M B s) :
    HoldsR R M B (execExposureNotice s) := by
  unfold execExposureNotice
  with_reducible repeat' first
    | assumption | intro _ | dsimp only | apply HoldsR.next | apply State.advance_holds | apply State.raise_holds
    | apply State.onTwin_holds | apply Holds.ite | split

theorem execExposureExceeded_holds {s : State} [May M .time] [May M .twin] [May M .rec_] (h : Holds R M B s) :
    HoldsR R M B (execExposureExceeded s) := by
  unfold execExposureExceeded
  with_reducible repeat' first
    | assumption | intro _ | dsimp only | apply HoldsR.next | apply State.advance_holds | apply State.raise_holds
    | apply State.onTwin_holds | apply Holds.ite | split

theorem execExposureClosed_holds {s : State} [May M .time] [May M .twin] [May M .rec_] (h : Holds R M B s) :
    HoldsR R M B (execExposureClosed s) := by
  unfold execExposureClosed
  with_reducible repeat' first
    | assumption | intro _ | dsimp only | apply HoldsR.next | apply State.advance_holds | apply State.raise_holds
    | apply State.onTwin_holds | apply Holds.ite | split

end Sys2Proof.Machine
end

