-- ==== Sys2Proof/Laws/KeepTwin.lean ====
section
/-! SUPPORT. What is kept (Laws/Holds.lean) by the pair, the cycle boundary, dispatch commands, the fabric and the sweep: one lemma per operation and per command's meaning. -/
namespace Sys2Proof.Machine
variable {R : Bool} {M : Part → Bool} {B : State}

theorem State.pairHear_holds {s : State} {a1 : PairHead} [May M .twin] (h : Holds R M B s) :
    Holds R M B (State.pairHear s a1).1 := by
  unfold State.pairHear
  with_reducible repeat' first
    | assumption | intro _ | dsimp only | apply State.onTwin_holds | apply State.linkHeard_holds | apply Holds.ite
    | apply Holds.fst_ite | split

theorem State.pairFrame_holds {s : State} {a1 : PairHead} {f : State → State} [May M .twin] (hf : ∀ y0, Holds R M B y0 → Holds R M B (f y0)) (h : Holds R M B s) :
    HoldsR R M B (State.pairFrame s a1 f) := by
  unfold State.pairFrame
  with_reducible repeat' first
    | assumption | dsimp only | apply HoldsR.next | apply State.pairHear_holds | apply Holds.ite | apply hf
    | refine Holds.of_fst ‹_› ?_ | split

theorem execPairHeartFrame_holds {a0 : PairHead} {s : State} [May M .twin] (h : Holds R M B s) :
    HoldsR R M B (execPairHeartFrame a0 s) := by
  unfold execPairHeartFrame
  with_reducible repeat' first
    | assumption | intro _ | dsimp only | apply HoldsR.next | apply State.pairFrame_holds

theorem execPairLinkTimeout_holds {link : Fin 2} {s : State} [May M .time] [May M .twin] (h : Holds R M B s) :
    HoldsR R M B (execPairLinkTimeout link s) := by
  unfold execPairLinkTimeout
  with_reducible repeat' first
    | assumption | intro _ | dsimp only | apply HoldsR.next | apply State.onTwin_holds | apply State.advance_holds
    | apply State.onTime_holds | apply Holds.ite | split

theorem execPairSlotsFrame_holds {a0 : PairHead} {r : Fin 8} {e : End} {late : Bool} {first : Nat} {count : Nat} {grid : Nat} {receipt : Nat} {bytes : List Byte} {s : State} [May M .ring] [May M .twin] [May M .rec_] [May M .out] (h : Holds R M B s) :
    HoldsR R M B (execPairSlotsFrame a0 r e late first count grid receipt bytes s) := by
  unfold execPairSlotsFrame
  with_reducible repeat' first
    | assumption | intro _ | dsimp only | apply HoldsR.next | apply State.pairFrame_holds | apply State.onLine_holds
    | apply State.takeSlots_holds | apply Holds.ite | split

theorem execPairStatusFrame_holds {a0 : PairHead} {l : Fin 8} {receipt : Nat} {bytes : List Byte} {s : State} [May M .ring] [May M .est] [May M .gate] [May M .loop] [May M .twin] [May M .rec_] [May M .out] (h : Holds R M B s) :
    HoldsR R M B (execPairStatusFrame a0 l receipt bytes s) := by
  unfold execPairStatusFrame
  with_reducible repeat' first
    | assumption | intro _ | dsimp only | apply HoldsR.next | apply State.pairFrame_holds | apply State.takeStatus_holds
    | apply Holds.ite | split

theorem State.dioCompare_holds {s : State} {pins : BitVec 16} {i : Nat} [May M .twin] [May M .rec_] (h : Holds R M B s) :
    Holds R M B (State.dioCompare s pins i) := by
  unfold State.dioCompare
  with_reducible repeat' first
    | assumption | intro _ | dsimp only | apply State.onTwin_holds | apply State.raise_holds | apply Holds.ite | split

theorem State.takeDio_holds {s : State} {g : Nat} {pins : BitVec 16} [May M .prog] [May M .twin] [May M .rec_] (h : Holds R M B s) :
    Holds R M B (State.takeDio s g pins) := by
  unfold State.takeDio
  with_reducible repeat' first
    | assumption | intro _ | dsimp only | apply State.dioCompare_holds | apply State.onProg_holds | apply Holds.ite
    | apply Holds.foldl | split

theorem State.diverge_holds {s : State} {kind : Nat} [May M .time] [May M .safety] [May M .plant] [May M .twin] [May M .rec_] [May M .out] (h : Holds R M B s) :
    Holds R M B (State.diverge s kind) := by
  unfold State.diverge
  with_reducible repeat' first
    | assumption | intro _ | dsimp only | apply State.raise_holds | apply State.onTwin_holds | apply State.withdraw_holds
    | apply Holds.ite | split

theorem State.takeOutDigest_holds {s : State} {g : Nat} {v : Word} [May M .time] [May M .safety] [May M .plant] [May M .twin] [May M .rec_] [May M .out] (h : Holds R M B s) :
    Holds R M B (State.takeOutDigest s g v) := by
  unfold State.takeOutDigest
  with_reducible repeat' first
    | assumption | intro _ | dsimp only | apply State.onTwin_holds | apply State.diverge_holds | apply Holds.ite | split

theorem State.takeMt_holds {s : State} {l : List (Option Int)} [May M .therm] (h : Holds R M B s) :
    Holds R M B (State.takeMt s l) := by
  unfold State.takeMt
  with_reducible repeat' first
    | assumption | intro _ | dsimp only | apply State.onTherm_holds | apply Holds.ite | split

theorem State.takeInput_holds {s : State} {i : PairInput} [May M .time] [May M .therm] [May M .safety] [May M .prog] [May M .plant] [May M .twin] [May M .rec_] [May M .out] (h : Holds R M B s) :
    Holds R M B (State.takeInput s i) := by
  unfold State.takeInput
  with_reducible repeat' first
    | assumption | intro _ | dsimp only | apply State.takeDio_holds | apply State.takeMt_holds | apply State.takeOutDigest_holds
    | apply State.onObj_holds | apply State.onMb_holds | split

theorem execPairInputsFrame_holds {a0 : PairHead} {items : List PairInput} {s : State} [May M .time] [May M .therm] [May M .safety] [May M .prog] [May M .plant] [May M .twin] [May M .rec_] [May M .out] (h : Holds R M B s) :
    HoldsR R M B (execPairInputsFrame a0 items s) := by
  unfold execPairInputsFrame
  with_reducible repeat' first
    | assumption | intro _ | dsimp only | apply HoldsR.next | apply State.pairFrame_holds | apply State.takeInput_holds
    | apply Holds.ite | apply Holds.foldl | split

theorem State.peerDispatch_holds {s : State} {c : Cmd} {source : Nat} {at_ : Nat} [May M .disp] [May M .rec_] (h : Holds R M B s) :
    Holds R M B (State.peerDispatch s c source at_) := by
  unfold State.peerDispatch
  with_reducible repeat' first
    | assumption | intro _ | dsimp only | apply State.onDisp_holds | apply State.markSeen_holds | apply State.dispTake_holds
    | apply Holds.ite | split

theorem State.peerStage_holds {s : State} {c : Cmd} {at_ : Nat} [May M .disp] [May M .host] [May M .plant] (h : Holds R M B s) :
    Holds R M B (State.peerStage s c at_) := by
  unfold State.peerStage
  with_reducible repeat' first
    | assumption | intro _ | dsimp only | apply State.onHost_holds | apply State.onDisp_holds | apply State.onPlant_holds
    | apply State.markSeen_holds | apply Holds.ite | split

theorem execPairCommandFrame_holds {a0 : PairHead} {c : Cmd} {source : Fin 2} {accepted : Nat} {s : State} [May M .disp] [May M .host] [May M .plant] [May M .twin] [May M .rec_] [May M .setup] (h : Holds R M B s) :
    HoldsR R M B (execPairCommandFrame a0 c source accepted s) := by
  unfold execPairCommandFrame
  with_reducible repeat' first
    | assumption | intro _ | dsimp only | apply HoldsR.next | apply State.pairFrame_holds | apply State.takePeerGo_holds
    | apply State.peerBoth_holds | apply State.peerDispatch_holds | apply State.peerStage_holds | apply State.onHost_holds
    | apply Holds.ite | split

theorem execPairSafetyFrame_holds {a0 : PairHead} {bytes : List Byte} {s : State} [May M .time] [May M .ring] [May M .meas] [May M .est] [May M .gate] [May M .safety] [May M .plant] [May M .twin] [May M .rec_] [May M .out] (h : Holds R M B s) :
    HoldsR R M B (execPairSafetyFrame a0 bytes s) := by
  unfold execPairSafetyFrame
  with_reducible repeat' first
    | assumption | intro _ | dsimp only | apply HoldsR.next | apply State.pairFrame_holds | apply State.takePartner_holds
    | apply Holds.ite | split

theorem State.noticeReady_holds {s : State} [May M .host] [May M .twin] [May M .rec_] [May M .out] (h : Holds R M B s) :
    Holds R M B (State.noticeReady s) := by
  unfold State.noticeReady
  with_reducible repeat' first
    | assumption | intro _ | dsimp only | apply State.catchStep_holds | apply State.pairSend_holds | apply State.onCatch_holds

theorem State.exactCheck_holds {s : State} {equal : Bool} [May M .host] [May M .twin] [May M .rec_] [May M .out] (h : Holds R M B s) :
    Holds R M B (State.exactCheck s equal) := by
  unfold State.exactCheck
  with_reducible repeat' first
    | assumption | dsimp only | apply State.noticeReady_holds | apply Holds.ite | split

theorem State.compareDigests_holds {s : State} [May M .time] [May M .safety] [May M .host] [May M .plant] [May M .twin] [May M .rec_] [May M .out] (h : Holds R M B s) :
    Holds R M B (State.compareDigests s) := by
  unfold State.compareDigests
  with_reducible repeat' first
    | assumption | intro _ | dsimp only | apply State.onTwin_holds | apply State.diverge_holds | apply State.exactCheck_holds
    | apply Holds.ite | split

theorem execStateDigest_holds {second : Nat} {s : State} [May M .time] [May M .safety] [May M .host] [May M .plant] [May M .twin] [May M .rec_] [May M .out] (h : Holds R M B s) :
    HoldsR R M B (execStateDigest second s) := by
  unfold execStateDigest
  with_reducible repeat' first
    | assumption | intro _ | dsimp only | apply HoldsR.next | apply State.advance_holds | apply State.pairSend_holds
    | apply State.onTwin_holds | apply State.compareDigests_holds | apply Holds.ite | split

theorem execPairDigestFrame_holds {a0 : PairHead} {second : Nat} {digest : Word} {permitted : List Bool} {ceiling : Nat} {unitCost : List Nat} {s : State} [May M .time] [May M .safety] [May M .host] [May M .plant] [May M .twin] [May M .rec_] [May M .out] (h : Holds R M B s) :
    HoldsR R M B (execPairDigestFrame a0 second digest permitted ceiling unitCost s) := by
  unfold execPairDigestFrame
  with_reducible repeat' first
    | assumption | intro _ | dsimp only | apply HoldsR.next | apply State.pairFrame_holds | apply State.compareDigests_holds
    | apply State.onTwin_holds

theorem State.partnerLeaves_holds {s : State} {cause : Nat} [May M .twin] (h : Holds R M B s) :
    Holds R M B (State.partnerLeaves s cause) := by
  unfold State.partnerLeaves
  with_reducible repeat' first
    | assumption | intro _ | dsimp only | apply State.onTwin_holds | split

theorem execNoticeWithdrawing_holds {a0 : PairHead} {cause : Byte} {s : State} [May M .twin] (h : Holds R M B s) :
    HoldsR R M B (execNoticeWithdrawing a0 cause s) := by
  unfold execNoticeWithdrawing
  with_reducible repeat' first
    | assumption | intro _ | dsimp only | apply HoldsR.next | apply State.pairFrame_holds | apply State.onTwin_holds
    | apply State.partnerLeaves_holds | apply Holds.ite | split

theorem execNoticeRestarting_holds {a0 : PairHead} {cause : Byte} {s : State} [May M .host] [May M .twin] [May M .rec_] [May M .out] (h : Holds R M B s) :
    HoldsR R M B (execNoticeRestarting a0 cause s) := by
  unfold execNoticeRestarting
  with_reducible repeat' first
    | assumption | intro _ | dsimp only | apply HoldsR.next | apply State.pairFrame_holds | apply State.onTwin_holds
    | apply State.partnerLeaves_holds | apply State.sendProgress_holds | apply Holds.ite | split

theorem execNoticeReady_holds {a0 : PairHead} {reentry : Nat} {s : State} [May M .host] [May M .twin] [May M .rec_] [May M .out] (h : Holds R M B s) :
    HoldsR R M B (execNoticeReady a0 reentry s) := by
  unfold execNoticeReady
  with_reducible repeat' first
    | assumption | intro _ | dsimp only | apply HoldsR.next | apply State.pairFrame_holds | apply State.catchStep_holds
    | apply State.pairSend_holds | apply State.onCatch_holds | apply Holds.ite | split

theorem execNoticeEcho_holds {a0 : PairHead} {reentry : Nat} {s : State} [May M .twin] (h : Holds R M B s) :
    HoldsR R M B (execNoticeEcho a0 reentry s) := by
  unfold execNoticeEcho
  with_reducible repeat' first
    | assumption | intro _ | dsimp only | apply HoldsR.next | apply State.pairFrame_holds | apply State.onCatch_holds
    | apply Holds.ite | split

theorem execNoticeRetired_holds {a0 : PairHead} {cause : Byte} {s : State} [May M .twin] (h : Holds R M B s) :
    HoldsR R M B (execNoticeRetired a0 cause s) := by
  unfold execNoticeRetired
  with_reducible repeat' first
    | assumption | intro _ | dsimp only | apply HoldsR.next | apply State.pairFrame_holds | apply State.onTwin_holds
    | apply State.partnerLeaves_holds | apply Holds.ite | split

theorem State.becomesAlone_holds {s : State} [May M .time] [May M .twin] [May M .rec_] (h : Holds R M B s) :
    Holds R M B (State.becomesAlone s) := by
  unfold State.becomesAlone
  with_reducible repeat' first
    | assumption | intro _ | dsimp only | apply State.onTime_holds | apply State.onTwin_holds | apply State.raise_holds
    | apply State.exposureOpens_holds | apply Holds.ite | split

theorem State.joins_holds {s : State} [May M .time] [May M .twin] (h : Holds R M B s) : Holds R M B (State.joins s) := by
  unfold State.joins
  with_reducible repeat' first
    | assumption | intro _ | dsimp only | apply State.onTime_holds | apply State.onTwin_holds | apply Holds.ite | split

theorem execLoopBridgeClosed_holds {s : State} [∀ q, May M q] (h : Holds R M B s) : HoldsR R M B (execLoopBridgeClosed s) := by
  unfold execLoopBridgeClosed
  with_reducible repeat' first
    | assumption | intro _ | dsimp only | apply HoldsR.next | apply State.onTwin_holds | apply State.loopsOpen_holds
    | apply State.beginStart_holds | apply Holds.ite | split

theorem execCatchupSnapshot_holds {s : State} [May M .time] [May M .host] [May M .twin] [May M .rec_] [May M .out] (h : Holds R M B s) :
    HoldsR R M B (execCatchupSnapshot s) := by
  unfold execCatchupSnapshot
  with_reducible repeat' first
    | assumption | intro _ | dsimp only | apply HoldsR.next | apply State.advance_holds | apply State.catchStep_holds
    | apply State.onCatch_holds | apply State.pairSendOn_holds | apply Holds.ite | apply Holds.foldl | split

theorem State.stayOut_holds {s : State} {e : EvDef} {args : List Int} [May M .host] [May M .twin] [May M .rec_] [May M .out] (h : Holds R M B s) :
    Holds R M B (State.stayOut s e args) := by
  unfold State.stayOut
  with_reducible repeat' first
    | assumption | intro _ | dsimp only | apply State.catchStep_holds | apply State.onTwin_holds | apply State.raise_holds

theorem State.keysArrived_holds {s : State} {c : CatchUp} [May M .host] [May M .twin] [May M .rec_] [May M .out] (h : Holds R M B s) :
    Holds R M B (State.keysArrived s c) := by
  unfold State.keysArrived
  with_reducible repeat' first
    | assumption | dsimp only | apply State.putKeys_holds | apply State.stayOut_holds | apply Holds.ite | split

theorem State.loadRegs_holds {s : State} {a1 : Items} [May M .host] [May M .setup] (h : Holds R M B s) :
    Holds R M B (State.loadRegs s a1) := by
  unfold State.loadRegs
  with_reducible repeat' first
    | assumption | intro _ | dsimp only | apply State.onHost_holds | apply Holds.onSetup
    | (simp only [Setup.ok_iff] at *; simp_all; done) | (simp_all; done)

theorem State.loadProgs_holds {s : State} {a1 : Items} [May M .prog] [May M .plant] (h : Holds R M B s) :
    Holds R M B (State.loadProgs s a1) := by
  unfold State.loadProgs
  with_reducible repeat' first
    | assumption | intro _ | dsimp only | apply State.onPlant_holds | apply State.onProg_holds

theorem State.markTaken_holds {s : State} {old : Nat} [May M .ledger] [May M .host] [May M .rec_] [May M .out] (h : Holds R M B s) :
    Holds R M B (State.markTaken s old) := by
  unfold State.markTaken
  with_reducible repeat' first
    | assumption | intro _ | dsimp only | apply State.onLedger_holds | apply State.releaseRecs_holds | apply Holds.ite | split

theorem State.loadString_holds {s : State} {a1 : Items} [May M .ring] [May M .meas] [May M .est] [May M .ledger] [May M .loop] [May M .disp] [May M .host] [May M .rec_] [May M .out] (h : Holds R M B s) :
    Holds R M B (State.loadString s a1) := by
  unfold State.loadString
  with_reducible repeat' first
    | assumption | dsimp only
    | ((fail_if_success (fail_if_success (apply Holds.probe; dsimp only))); apply Holds.mk0
        <;> first | exact .inl May.yes | exact .inr rfl | skip)
    | apply State.markTaken_holds

theorem State.loadGate_holds {s : State} {a1 : Items} [May M .gate] [May M .therm] (h : Holds R M B s) :
    Holds R M B (State.loadGate s a1) := by
  unfold State.loadGate
  with_reducible repeat' first
    | assumption | intro _ | dsimp only | apply State.onTherm_holds | apply State.onGate_holds

theorem State.loadSafety_holds {s : State} {a1 : Items} [May M .safety] (h : Holds R M B s) :
    Holds R M B (State.loadSafety s a1) := by
  unfold State.loadSafety
  with_reducible repeat' first
    | assumption | intro _ | dsimp only | apply State.onSafety_holds

theorem State.loadLife_holds {s : State} {a1 : Items} [May M .fabric] [May M .twin] [May M .life] (h : Holds R M B s) :
    Holds R M B (State.loadLife s a1) := by
  unfold State.loadLife
  with_reducible repeat' first
    | assumption | intro _ | dsimp only | apply State.onFabric_holds | apply State.onTwin_holds | apply Holds.onLife
    | exact ⟨rfl, rfl, rfl, rfl⟩

theorem State.loadItems_holds {s : State} {a1 : Items} [∀ q, May M q] (h : Holds R M B s) :
    Holds R M B (State.loadItems s a1) := by
  unfold State.loadItems
  with_reducible repeat' first
    | assumption | dsimp only | apply State.catchStep_holds | apply State.formClass_holds | apply State.loadLife_holds
    | apply State.loadSafety_holds | apply State.loadGate_holds | apply State.loadString_holds | apply State.loadProgs_holds
    | apply State.loadRegs_holds

theorem State.snapshotArrived_holds {s : State} {c : CatchUp} [∀ q, May M q] (h : Holds R M B s) :
    Holds R M B (State.snapshotArrived s c) := by
  unfold State.snapshotArrived
  with_reducible repeat' first
    | assumption | dsimp only | apply State.stayOut_holds | apply State.loadItems_holds | split

theorem execPairCatchupFrame_holds {a0 : PairHead} {item : Nat} {offset : Nat} {data : List Byte} {last : Bool} {s : State} [∀ q, May M q] (h : Holds R M B s) :
    HoldsR R M B (execPairCatchupFrame a0 item offset data last s) := by
  unfold execPairCatchupFrame
  with_reducible repeat' first
    | assumption | intro _ | dsimp only | apply HoldsR.next | apply State.pairFrame_holds | apply State.onCatch_holds
    | apply State.catchStep_holds | apply State.keysArrived_holds | apply State.snapshotArrived_holds | apply Holds.ite | split

theorem execReplayDone_holds {s : State} [May M .host] [May M .twin] [May M .rec_] [May M .out] (h : Holds R M B s) :
    HoldsR R M B (execReplayDone s) := by
  unfold execReplayDone
  with_reducible repeat' first
    | assumption | dsimp only | apply HoldsR.next | apply State.catchStep_holds | apply Holds.ite | split

theorem State.energise_holds {s : State} [May M .safety] (h : Holds R M B s) : Holds R M B (State.energise s) := by
  unfold State.energise
  with_reducible repeat' first
    | assumption | dsimp only | apply State.setOut_holds | apply Holds.ite | split

theorem State.joined_holds {s : State} {e : Nat} [May M .time] [May M .host] [May M .twin] [May M .rec_] [May M .out] (h : Holds R M B s) :
    Holds R M B (State.joined s e) := by
  unfold State.joined
  with_reducible repeat' first
    | assumption | intro _ | dsimp only | apply State.onTime_holds | apply State.onTwin_holds | apply State.catchStep_holds
    | apply State.raise_holds

theorem execReentry_holds {s : State} [May M .time] [May M .safety] [May M .host] [May M .twin] [May M .rec_] [May M .life] [May M .out] (h : Holds R M B s) :
    HoldsR R M B (execReentry s) := by
  unfold execReentry
  with_reducible repeat' first
    | assumption | intro _ | dsimp only | apply HoldsR.next | apply State.advance_holds | apply State.joined_holds
    | apply State.energise_holds | apply State.drivePins_holds | apply State.onTwin_holds | apply State.onSafety_holds
    | apply Holds.onLife | apply Holds.ite | exact ⟨rfl, rfl, rfl, rfl⟩ | split

theorem execReentryEchoTimeout_holds {s : State} [May M .time] [May M .host] [May M .twin] [May M .rec_] [May M .out] (h : Holds R M B s) :
    HoldsR R M B (execReentryEchoTimeout s) := by
  unfold execReentryEchoTimeout
  with_reducible repeat' first
    | assumption | dsimp only | apply HoldsR.next | apply State.noticeReady_holds | apply State.advance_holds | apply Holds.ite
    | split

theorem execCatchupTimeout_holds {s : State} [May M .time] [May M .host] [May M .twin] [May M .rec_] [May M .life] [May M .out] (h : Holds R M B s) :
    HoldsR R M B (execCatchupTimeout s) := by
  unfold execCatchupTimeout
  with_reducible repeat' first
    | assumption | dsimp only | apply HoldsR.next | apply State.advance_holds | apply State.beginCatchUp_holds
    | apply State.stayOut_holds | apply State.firstStartFailed_holds | apply Holds.ite | split

theorem execCatchupProgressSend_holds {s : State} [May M .host] [May M .rec_] [May M .out] (h : Holds R M B s) :
    HoldsR R M B (execCatchupProgressSend s) := by
  unfold execCatchupProgressSend
  with_reducible repeat' first
    | assumption | dsimp only | apply HoldsR.next | apply State.sendProgress_holds

theorem execPathsLost_holds {s : State} [May M .time] [May M .twin] [May M .rec_] (h : Holds R M B s) :
    HoldsR R M B (execPathsLost s) := by
  unfold execPathsLost
  with_reducible repeat' first
    | assumption | intro _ | dsimp only | apply HoldsR.next | apply State.raise_holds | apply State.onTwin_holds
    | apply State.exposureOpens_holds | apply State.onTime_holds | apply Holds.ite | split

theorem execPathRecovered_holds {offset : Int} {s : State} [May M .time] [May M .safety] [May M .plant] [May M .twin] [May M .rec_] [May M .out] (h : Holds R M B s) :
    HoldsR R M B (execPathRecovered offset s) := by
  unfold execPathRecovered
  with_reducible repeat' first
    | assumption | intro _ | dsimp only | apply HoldsR.next | apply State.withdraw_holds | apply State.onTime_holds
    | apply State.onTwin_holds | apply Holds.ite | split

theorem State.applyAccepted_holds {s : State} {at_ : Nat} {c : Cmd} [May M .time] [May M .ring] [May M .est] [May M .ledger] [May M .gate] [May M .loop] [May M .therm] [May M .safety] [May M .prog] [May M .host] [May M .plant] [May M .rec_] [May M .out] (h : Holds R M B s) :
    Holds R M B (State.applyAccepted s at_ c) := by
  unfold State.applyAccepted
  with_reducible repeat' first
    | assumption | intro _ | dsimp only | apply State.stageOp_holds | apply State.applyContactor_holds | apply State.applyReset_holds
    | apply State.onSafety_holds | apply State.applyAck_holds | apply State.applyTime_holds | apply State.applyImpRun_holds
    | apply State.rearmPeaks_holds | apply State.applyDiagStart_holds | apply State.applyNote_holds | apply State.applyProg_holds
    | apply State.applyKeys_holds | apply Holds.ite | split

theorem State.acceptedDue_holds {s : State} [May M .time] [May M .ring] [May M .est] [May M .ledger] [May M .gate] [May M .loop] [May M .therm] [May M .safety] [May M .prog] [May M .host] [May M .plant] [May M .rec_] [May M .out] (h : Holds R M B s) :
    Holds R M B (State.acceptedDue s) := by
  unfold State.acceptedDue
  with_reducible repeat' first
    | assumption | intro _ | dsimp only | apply State.onHost_holds | apply State.applyAccepted_holds | apply Holds.foldl

theorem State.takeIdentity_holds {s : State} [May M .chain] (h : Holds R M B s) : Holds R M B (State.takeIdentity s) := by
  unfold State.takeIdentity
  with_reducible repeat' first
    | assumption | dsimp only
    | ((fail_if_success (fail_if_success (apply Holds.probe; dsimp only))); apply Holds.mk0
        <;> first | exact .inl May.yes | exact .inr rfl | skip)
    | split

theorem State.restartNow_holds {s : State} [∀ q, May M q] (h : Holds R M B s) : Holds R M B (State.restartNow s) := by
  unfold State.restartNow
  with_reducible repeat' first
    | assumption | intro _ | dsimp only | apply State.withdraw_holds | apply State.beginStart_holds | apply Holds.onLife
    | apply Holds.ite | exact ⟨rfl, rfl, rfl, rfl⟩ | split

theorem State.boundaryCommands_holds {s : State} [∀ q, May M q] (h : Holds R M B s) : Holds R M B (State.boundaryCommands s) := by
  unfold State.boundaryCommands
  with_reducible repeat' first
    | assumption | dsimp only | apply State.applyReset_holds | apply State.acceptedDue_holds | apply State.commitDue_holds
    | apply State.takeIdentity_holds | apply State.rearmPeaks_holds | apply Holds.ite | split

theorem State.boundaryWork_holds {s : State} [May M .fabric] [May M .est] [May M .gate] [May M .prog] [May M .twin] [May M .rec_] [May M .setup] [May M .out] (h : Holds R M B s) :
    Holds R M B (State.boundaryWork s) := by
  unfold State.boundaryWork
  with_reducible repeat' first
    | assumption | dsimp only | apply State.ioBoundary_holds | apply State.estLost_holds | apply State.armBoundary_holds
    | apply State.moveProfile_holds | apply State.planExchanged_holds | apply State.supplyStep_holds

theorem State.boundaryLife_holds {s : State} [∀ q, May M q] (h : Holds R M B s) : Holds R M B (State.boundaryLife s) := by
  unfold State.boundaryLife
  with_reducible repeat' first
    | assumption | dsimp only | apply State.activate_holds | apply State.joins_holds | apply State.becomesAlone_holds
    | apply State.restartNow_holds | apply State.activationRest_holds | apply State.storeConfig_holds | apply Holds.ite | split

theorem execCycleBoundary_holds {s : State} [∀ q, May M q] (h : Holds R M B s) : HoldsR R M B (execCycleBoundary s) := by
  unfold execCycleBoundary
  with_reducible repeat' first
    | assumption | dsimp only | apply HoldsR.next | apply State.boundaryLife_holds | apply State.boundaryWork_holds
    | apply State.boundaryCommands_holds | apply State.periodic_holds | apply Holds.ite | split

theorem execCurrentSetpoint_holds {q : Fin 32} {s : State} [May M .disp] [May M .host] [May M .twin] [May M .rec_] [May M .out] [May M .free] (h : Holds R M B s) :
    HoldsR R M B (execCurrentSetpoint q s) := by
  unfold execCurrentSetpoint
  with_reducible repeat' first
    | assumption | dsimp only | apply HoldsR.next | apply State.dispRow_holds

theorem execPowerSetpoint_holds {q : Fin 32} {s : State} [May M .disp] [May M .host] [May M .twin] [May M .rec_] [May M .out] [May M .free] (h : Holds R M B s) :
    HoldsR R M B (execPowerSetpoint q s) := by
  unfold execPowerSetpoint
  with_reducible repeat' first
    | assumption | dsimp only | apply HoldsR.next | apply State.dispRow_holds

theorem execVoltageSetpoint_holds {q : Fin 32} {s : State} [May M .disp] [May M .host] [May M .twin] [May M .rec_] [May M .out] [May M .free] (h : Holds R M B s) :
    HoldsR R M B (execVoltageSetpoint q s) := by
  unfold execVoltageSetpoint
  with_reducible repeat' first
    | assumption | dsimp only | apply HoldsR.next | apply State.dispRow_holds

theorem execCurrentBudget_holds {q : Fin 32} {s : State} [May M .disp] [May M .host] [May M .twin] [May M .rec_] [May M .out] [May M .free] (h : Holds R M B s) :
    HoldsR R M B (execCurrentBudget q s) := by
  unfold execCurrentBudget
  with_reducible repeat' first
    | assumption | dsimp only | apply HoldsR.next | apply State.dispRow_holds

theorem execPowerBudget_holds {q : Fin 32} {s : State} [May M .disp] [May M .host] [May M .twin] [May M .rec_] [May M .out] [May M .free] (h : Holds R M B s) :
    HoldsR R M B (execPowerBudget q s) := by
  unfold execPowerBudget
  with_reducible repeat' first
    | assumption | dsimp only | apply HoldsR.next | apply State.dispRow_holds

theorem execRefresh_holds {q : Fin 32} {s : State} [May M .disp] [May M .host] [May M .twin] [May M .rec_] [May M .out] [May M .free] (h : Holds R M B s) :
    HoldsR R M B (execRefresh q s) := by
  unfold execRefresh
  with_reducible repeat' first
    | assumption | dsimp only | apply HoldsR.next | apply State.dispRow_holds

theorem execDispatchAtReached_holds {s : State} [May M .time] [May M .loop] [May M .disp] [May M .rec_] (h : Holds R M B s) :
    HoldsR R M B (execDispatchAtReached s) := by
  unfold execDispatchAtReached
  with_reducible repeat' first
    | assumption | dsimp only | apply HoldsR.next | apply State.dispDue_holds | apply State.advance_holds | split

theorem execSetpointExpired_holds {s : State} [May M .time] [May M .disp] [May M .rec_] (h : Holds R M B s) :
    HoldsR R M B (execSetpointExpired s) := by
  unfold execSetpointExpired
  with_reducible repeat' first
    | assumption | intro _ | dsimp only | apply HoldsR.next | apply State.onDisp_holds | apply State.advance_holds
    | apply State.raise_holds | apply State.sourceChange_holds | split

theorem execEnvelopeCompute_holds {second : Nat} {s : State} [May M .time] [May M .disp] [May M .host] [May M .plant] [May M .rec_] [May M .out] (h : Holds R M B s) :
    HoldsR R M B (execEnvelopeCompute second s) := by
  unfold execEnvelopeCompute
  with_reducible repeat' first
    | assumption | intro _ | dsimp only | apply HoldsR.next | apply State.advance_holds | apply State.onDisp_holds
    | apply State.plantSend_holds | apply State.release_holds | apply Holds.ite | split

theorem State.envDue_holds {s : State} {deadline : Nat} [May M .disp] (h : Holds R M B s) :
    Holds R M B (State.envDue s deadline) := by
  unfold State.envDue
  with_reducible repeat' first
    | assumption | intro _ | dsimp only | apply State.onDisp_holds | apply Holds.ite | split

theorem State.reportCan_holds {s : State} [May M .plant] (h : Holds R M B s) : Holds R M B (State.reportCan s) := by
  unfold State.reportCan
  with_reducible repeat' first
    | assumption | dsimp only | apply State.express_holds | split

theorem execStateReportSend_holds {s : State} [May M .time] [May M .disp] [May M .host] [May M .plant] [May M .rec_] [May M .out] (h : Holds R M B s) :
    HoldsR R M B (execStateReportSend s) := by
  unfold execStateReportSend
  with_reducible repeat' first
    | assumption | intro _ | dsimp only | apply HoldsR.next | apply State.advance_holds | apply State.onDisp_holds
    | apply State.reportCan_holds | apply State.plantSend_holds | apply State.release_holds | apply Holds.ite | split

theorem State.timeCanaries_holds {s : State} {laps : List Nat} [May M .fabric] (h : Holds R M B s) :
    Holds R M B (State.timeCanaries s laps) := by
  unfold State.timeCanaries
  with_reducible repeat' first
    | assumption | intro _ | dsimp only | apply State.onFabric_holds

theorem State.canaryRound_holds {s : State} {worst : List Nat} [May M .fabric] [May M .free] (h : Holds R M B s) :
    Holds R M B (State.canaryRound s worst) := by
  unfold State.canaryRound
  with_reducible repeat' first
    | assumption | intro _ | dsimp only
    | ((fail_if_success (fail_if_success (apply Holds.probe; dsimp only))); apply Holds.mk0
        <;> first | exact .inl May.yes | exact .inr rfl | skip)
    | apply State.onFabric_holds

theorem execCanaryRound_holds {c : CanaryRound} {s : State} [May M .fabric] [May M .time] [May M .rec_] [May M .free] (h : Holds R M B s) :
    HoldsR R M B (execCanaryRound c s) := by
  unfold execCanaryRound
  with_reducible repeat' first
    | assumption | dsimp only | apply HoldsR.next | apply State.canaryRound_holds | apply State.timeCanaries_holds
    | apply State.periodic_holds | apply State.replan_holds | apply Holds.ite | split

theorem execReplanMonthly_holds {s : State} [May M .fabric] [May M .time] [May M .rec_] [May M .free] (h : Holds R M B s) :
    HoldsR R M B (execReplanMonthly s) := by
  unfold execReplanMonthly
  with_reducible repeat' first
    | assumption | dsimp only | apply HoldsR.next | apply State.replan_holds | apply State.advance_holds

theorem execSlackHistoryWrite_holds {s : State} [May M .fabric] [May M .time] (h : Holds R M B s) :
    HoldsR R M B (execSlackHistoryWrite s) := by
  unfold execSlackHistoryWrite
  with_reducible repeat' first
    | assumption | intro _ | dsimp only | apply HoldsR.next | apply State.periodic_holds | apply State.writeHistory_holds
    | apply State.onFabric_holds

theorem execDeadlineMiss_holds {e : Fin 23} {completion : Nat} {s : State} [∀ q, May M q] (h : Holds R M B s) :
    HoldsR R M B (execDeadlineMiss e completion s) := by
  unfold execDeadlineMiss
  with_reducible repeat' first
    | assumption | dsimp only | apply HoldsR.next | apply State.engineFault_holds | apply State.raise_holds

theorem execComparedPairDisagree_holds {ledgerPair : Bool} {s : State} [∀ q, May M q] (h : Holds R M B s) :
    HoldsR R M B (execComparedPairDisagree ledgerPair s) := by
  unfold execComparedPairDisagree
  with_reducible repeat' first
    | assumption | dsimp only | apply HoldsR.next | apply State.engineFault_holds

theorem execResidueMismatch_holds {e : Fin 23} {again : Bool} {s : State} [∀ q, May M q] (h : Holds R M B s) :
    HoldsR R M B (execResidueMismatch e again s) := by
  unfold execResidueMismatch
  with_reducible repeat' first
    | assumption | intro _ | dsimp only | apply HoldsR.next | apply State.engineFault_holds | apply State.onEngine_holds
    | apply Holds.ite | split

theorem execResidueRetryReport_holds {s : State} [May M .fabric] [May M .time] [May M .rec_] (h : Holds R M B s) :
    HoldsR R M B (execResidueRetryReport s) := by
  unfold execResidueRetryReport
  with_reducible repeat' first
    | assumption | intro _ | dsimp only | apply HoldsR.next | apply State.periodic_holds | apply State.raise_holds
    | apply State.onFabric_holds | apply Holds.ite | apply Holds.foldl | split

theorem execEngineReloadDone_holds {e : Fin 23} {s : State} [∀ q, May M q] (h : Holds R M B s) :
    HoldsR R M B (execEngineReloadDone e s) := by
  unfold execEngineReloadDone
  with_reducible repeat' first
    | assumption | dsimp only | apply HoldsR.next | apply State.reloaded_holds

theorem execScrubPass_holds {array : Fin 3} {corrected : Nat} {s : State} [May M .fabric] (h : Holds R M B s) :
    HoldsR R M B (execScrubPass array corrected s) := by
  unfold execScrubPass
  with_reducible repeat' first
    | assumption | intro _ | dsimp only | apply HoldsR.next | apply State.onFabric_holds

theorem execEccCorrectedReport_holds {s : State} [May M .fabric] [May M .time] [May M .rec_] (h : Holds R M B s) :
    HoldsR R M B (execEccCorrectedReport s) := by
  unfold execEccCorrectedReport
  with_reducible repeat' first
    | assumption | intro _ | dsimp only | apply HoldsR.next | apply State.periodic_holds | apply State.raise_holds
    | apply State.onFabric_holds | apply Holds.ite | apply Holds.foldl | split

theorem State.loseLine_holds {s : State} {region : Nat} {item : Nat} [May M .fabric] [May M .est] [May M .ledger] [May M .gate] [May M .prog] [May M .rec_] [May M .setup] (h : Holds R M B s) :
    Holds R M B (State.loseLine s region item) := by
  unfold State.loseLine
  with_reducible repeat' first
    | assumption | intro _ | dsimp only
    | ((fail_if_success (fail_if_success (apply Holds.probe; dsimp only))); apply Holds.mk0
        <;> first | exact .inl May.yes | exact .inr rfl | skip)
    | apply State.onLedger_holds | apply State.onEst_holds | apply State.onEng_holds | apply State.onGate_holds
    | apply State.onFabric_holds | apply State.onProg_holds | apply Holds.onSetup | apply Holds.ite
    | (simp only [Setup.ok_iff] at *; simp_all; done) | split | (simp_all; done)
    | ((fail_if_success (fail_if_success (apply Holds.probe; dsimp only))); apply Holds.mkSetup
        <;> first | exact .inl May.yes | exact .inr rfl | skip)

theorem execEccUncorrectable_holds {w : BadWord} {s : State} [∀ q, May M q] (h : Holds R M B s) :
    HoldsR R M B (execEccUncorrectable w s) := by
  unfold execEccUncorrectable
  with_reducible repeat' first
    | assumption | dsimp only | apply HoldsR.next | apply State.engineFault_holds | apply State.raise_holds
    | apply State.loseLine_holds | split

theorem State.sweepMeas_holds {s : State} {w : Sweep} [May M .ring] [May M .meas] [May M .rec_] (h : Holds R M B s) :
    Holds R M B (State.sweepMeas s w) := by
  unfold State.sweepMeas
  with_reducible repeat' first
    | assumption | dsimp only | apply State.balSweep_holds | apply State.measSweep_holds

theorem State.sweepLedger_holds {s : State} {w : Sweep} [∀ q, May M q] (h : Holds R M B s) :
    Holds R M B (State.sweepLedger s w) := by
  unfold State.sweepLedger
  with_reducible repeat' first
    | assumption | intro _ | dsimp only | apply State.onEst_holds | apply State.onLedger_holds | apply State.promiseIs_holds
    | apply State.ledgerChecked_holds | apply Holds.ite | split

theorem State.sweepEst_holds {s : State} {w : Sweep} [May M .est] [May M .rec_] (h : Holds R M B s) :
    Holds R M B (State.sweepEst s w) := by
  unfold State.sweepEst
  with_reducible repeat' first
    | assumption | dsimp only | apply State.impSweep_holds | apply State.estSweep_holds

theorem State.sweepDispatch_holds {s : State} [May M .loop] [May M .disp] [May M .rec_] (h : Holds R M B s) :
    Holds R M B (State.sweepDispatch s) := by
  unfold State.sweepDispatch
  with_reducible repeat' first
    | assumption | dsimp only | apply State.envDue_holds | apply State.dispDue_holds | apply Holds.ite | split

theorem State.sweepDemand_holds {s : State} {w : Sweep} [May M .loop] [May M .disp] [May M .host] [May M .rec_] [May M .out] (h : Holds R M B s) :
    Holds R M B (State.sweepDemand s w) := by
  unfold State.sweepDemand
  with_reducible repeat' first
    | assumption | dsimp only | apply State.formLimits_holds | apply State.demandSweep_holds | apply Holds.ite | split

theorem State.sweepSafety_holds {s : State} {w : Sweep} [May M .time] [May M .ring] [May M .meas] [May M .est] [May M .gate] [May M .safety] [May M .plant] [May M .twin] [May M .rec_] [May M .out] (h : Holds R M B s) :
    Holds R M B (State.sweepSafety s w) := by
  unfold State.sweepSafety
  with_reducible repeat' first
    | assumption | dsimp only | apply State.endTests_holds | apply State.safetySweep_holds

theorem State.splitLate_holds {s : State} [May M .ring] (h : Holds R M B s) : Holds R M B (State.splitLate s).1 := by
  unfold State.splitLate
  with_reducible repeat' first
    | assumption | intro _ | dsimp only | apply State.onRing_holds

theorem execCollectionDeadline_holds {s : State} [∀ q, May M q] (h : Holds R M B s) : HoldsR R M B (execCollectionDeadline s) := by
  unfold execCollectionDeadline
  with_reducible repeat' first
    | assumption | intro _ | dsimp only | apply HoldsR.next | apply State.splitLate_holds | apply State.collectRing_holds
    | apply State.absentCheck_holds | apply State.advance_holds | apply State.sweepMeas_holds | apply State.sweepDispatch_holds
    | apply State.sweepEst_holds | apply State.sweepLedger_holds | apply State.sweepSafety_holds | apply State.telemSweep_holds
    | apply State.sweepDemand_holds | apply State.onRing_holds | refine Holds.of_fst ‹_› ?_ | split

end Sys2Proof.Machine
end

