-- ==== Sys2Proof/WellFormed.lean ====
section
/-! DEFINITION. Which commands are well formed: their operands lie in the ranges that the spec's formats give them. A command that is not
stands for no event at a module; the meanings are total on it all the same. -/
namespace Sys2Proof

/-- A width of an access in bits (19 R478). -/
def accessWidth (n : Nat) : Bool := decide (n = 8 ∨ n = 16 ∨ n = 32 ∨ n = 64)

/-- A descriptor as it stands in host memory (14 Table 14.3): 64 bytes, and no more data than DATA_LEN. -/
def RawDesc.wf (d : RawDesc) : Bool :=
  decide (d.bytes.length = 64) && decide (d.data.length ≤ Machine.leAt d.bytes 16 4)

/-- A forwarded command carries at most the 24 ARG bytes (14 Table 14.3). -/
def Cmd.wf (c : Cmd) : Bool := decide (c.arg.length ≤ 24)

/-- A whole second is one of 34 bits (03 R64). -/
def secondOk (n : Nat) : Bool := decide (n < 2 ^ 34)

/-- A CAN identifier of 29 or 11 bits, and at most 64 bytes of data (15 R397). -/
def canOk (ext : Bool) (ident : Nat) (data : List Byte) : Bool :=
  decide (ident < if ext then 2 ^ 29 else 2 ^ 11) && decide (data.length ≤ 64)

/-- An input in an INPUTS frame names a port and object that exist (15 R399), or the 16 pins (10 R260). -/
def PairInput.wf (i : PairInput) : Bool := match i with
  | .mt l => decide (l.length ≤ 16)
  | .can p o _ _ data => decide (p < 6 ∧ o < 128 ∧ data.length ≤ 64)
  | .dio _ _ => true
  | .digest _ _ => true
  | .modbus _ _ regs => regs.all (fun r => decide (r < 65536))

/-- The check of a command's operands. -/
def Instr.wf (i : Instr) : Bool := match i with
  | .aciAddressFrame _ => true
  | .acoSend => true
  | .aciLost => true
  | .address _ => true
  | .canaryRound c => decide (c.worst.length ≤ 23) && decide (c.laps.length ≤ 23)
  | .replanMonthly => true
  | .slackHistoryWrite => true
  | .deadlineMiss _ _ => true
  | .comparedPairDisagree _ => true
  | .residueMismatch _ _ => true
  | .residueRetryReport => true
  | .scrubPass _ _ => true
  | .eccUncorrectable _ => true
  | .eccCorrectedReport => true
  | .engineReloadDone _ => true
  | .profileCommitExpired => true
  | .oscFail => true
  | .oscBackupSwitch => true
  | .ptpSync _ domain _ _ _ _ _ => decide (domain < 256)
  | .ptpFollowUp _ domain _ _ _ => decide (domain < 256)
  | .ptpAnnounce _ domain _ _ _ _ _ _ => decide (domain < 256)
  | .ptpDelayReqSend _ => true
  | .ptpDelayResp _ _ _ _ _ _ => true
  | .ptpPdelayReq _ domain _ _ => decide (domain < 256)
  | .announceTimeout => true
  | .ptpPortSwitch => true
  | .ptpPortSwitchBack => true
  | .startWaitExpiry => true
  | .timeStep _ => true
  | .timeResume _ => true
  | .timeSet _ => true
  | .timeCmdExpired => true
  | .timeStatus _ => true
  | .pairTimeMessage _ _ _ _ _ => true
  | .pairTimeSend _ => true
  | .evtNowLoRead => true
  | .ledgerLseqLoRead => true
  | .cfgCtimeLoRead => true
  | .ringStatRead _ => true
  | .ethStatRead _ => true
  | .canStatRead _ => true
  | .sbStatRead _ => true
  | .cfgPendRead => true
  | .gridInstant _ _ => true
  | .returnTimeout _ => true
  | .ringFrameReceived _ _ _ _ => true
  | .collectionDeadline => true
  | .catchupLaunch _ _ => true
  | .lossOfSignal _ _ => true
  | .lossOfSignalCleared _ _ => true
  | .ringPresenceTimeout => true
  | .ringRestore _ => true
  | .ringStart _ => true
  | .discoverReceived _ _ _ recs => decide (recs.length ≤ 8) && recs.all (fun f => decide (f.kind ≤ 2))
  | .ringStartDone _ => true
  | .stationFwLoadDone _ _ _ => true
  | .stationFwSlotChange _ => true
  | .delayMeasure _ => true
  | .delayReceived _ _ _ _ => true
  | .ringCmdCountCheck second => secondOk second
  | .stationLost _ => true
  | .stationSecLost _ => true
  | .stationReturned _ => true
  | .stationSecReturned _ => true
  | .identificationMessage _ _ _ => true
  | .lockinResultMessage _ => true
  | .openWireResultMessage _ => true
  | .balancingCountersMessage _ => true
  | .calibrationRecordMessage _ _ => true
  | .stationEventMessage _ => true
  | .calStepIssue _ => true
  | .currentCompare second => secondOk second
  | .currentJudgementEnd => true
  | .sumMismatch _ _ => true
  | .measCompare second => secondOk second
  | .unusedChannel _ _ => true
  | .owRound _ => true
  | .owOddStart _ => true
  | .owRetest _ _ => true
  | .owSuspicionTest _ _ => true
  | .balDecision second => secondOk second
  | .balChargeUpdate => true
  | .balChannelTimeout _ => true
  | .estimateRelease => true
  | .estimatorCheckpoint second => secondOk second
  | .estBlockSend => true
  | .impRunStart _ => true
  | .impRun _ => true
  | .impSegmentStart => true
  | .impHeadroomRetest => true
  | .impWindowEnd => true
  | .spectrumSend => true
  | .ledgerSecond => true
  | .ledgerImageWritten => true
  | .supplyLoss _ _ _ _ => true
  | .ledgerGapBooking => true
  | .ledgerNote _ => true
  | .ledgerReplay _ => true
  | .basePeriod => true
  | .loadStepCheck => true
  | .edgeRelease _ => true
  | .gateStatusReceived _ _ _ => true
  | .linkLoss _ => true
  | .statusCutoff _ => true
  | .receiverIdent _ _ seen1 seen2 => decide (seen1 ≤ 2 ∧ seen2 ≤ 2)
  | .linkStart => true
  | .gateDelayUpdate second => secondOk second
  | .stageEnable _ => true
  | .stageDisable _ => true
  | .stageTripCommand _ => true
  | .stageTripReset _ => true
  | .startDelayEnd => true
  | .stopDelayEnd => true
  | .stopRampEnd => true
  | .stageStopForced => true
  | .armTimeout => true
  | .telemWindowEnd => true
  | .peakRead _ => true
  | .faultCaptureDone => true
  | .faultRecordWritten => true
  | .faultRead _ => true
  | .targetRelease => true
  | .shedStart => true
  | .shedDwellEnd => true
  | .diagArm _ => true
  | .diagStart _ => true
  | .diagAbort _ => true
  | .diagTrigger _ => true
  | .diagCaptureDone _ => true
  | .diagExpired => true
  | .thermalRound pins tach => decide (pins.length ≤ 16 ∧ tach.length ≤ 8)
  | .thermalAck _ => true
  | .thermalAckExpired => true
  | .dieSample _ _ _ _ => true
  | .dieWriteWindowEnd => true
  | .dieCoolRestart => true
  | .currentSetpoint _ => true
  | .powerSetpoint _ => true
  | .voltageSetpoint _ => true
  | .currentBudget _ => true
  | .powerBudget _ => true
  | .refresh _ => true
  | .dispatchAtReached => true
  | .setpointExpired => true
  | .envelopeCompute second => secondOk second
  | .stateReportSend => true
  | .safetyTick _ _ _ _ => true
  | .safetyCrossLink _ => true
  | .switchWatchdogExpiry _ => true
  | .fastOcTrip _ => true
  | .soTestPulse _ _ _ => true
  | .coilSupplyLow _ => true
  | .contactorFeedbackTimeout _ => true
  | .contactorClose _ => true
  | .contactorOpen _ => true
  | .prechargeEnd => true
  | .prechargeRelease => true
  | .safetyReset _ => true
  | .resetInput _ => true
  | .safeResetExpired => true
  | .safetyFrameSend => true
  | .safetyFrameReceived _ _ => true
  | .safetyFrameWatchdog _ => true
  | .safetyCfgExpired => true
  | .cycleBoundary => true
  | .cycleStart _ => true
  | .cycleRelease _ _ => true
  | .eventTaskTrigger _ _ => true
  | .eventTaskRelease _ _ => true
  | .savedCopyWrite second => secondOk second
  | .breakpointHit _ => true
  | .holdExpired _ => true
  | .programSwitch _ => true
  | .programRollback _ => true
  | .switchBoundary => true
  | .programRun _ => true
  | .programStop _ => true
  | .programHold _ => true
  | .programStep _ => true
  | .programResume _ => true
  | .forceSet _ => true
  | .forceClear _ => true
  | .programRead _ => true
  | .hostWrite _ => true
  | .programCmdExpired => true
  | .programLoadChunk _ => true
  | .sqTail _ value width descs => accessWidth width && decide (value < 2 ^ width) && descs.all RawDesc.wf
  | .cqHead _ value width => accessWidth width && decide (value < 2 ^ width)
  | .streamBufferPost _ => true
  | .streamFlushTimeout _ => true
  | .hostLinkDown => true
  | .hostLinkUp => true
  | .functionLevelReset => true
  | .creditCheck second => secondOk second
  | .irqGapEnd _ => true
  | .cmdExpired => true
  | .cfgBlockWrite _ => true
  | .cfgBlockRead _ => true
  | .slackRead _ => true
  | .arpRequest _ target => decide (target < 2 ^ 32)
  | .icmpEchoRequest _ target _ _ _ => decide (target < 2 ^ 32)
  | .plantMessage _ udp src _ _ => decide (udp < 65536 ∧ src < 2 ^ 32)
  | .prpSupervisionSend => true
  | .prpLanDown _ => true
  | .prpLanUp _ => true
  | .canFrameReceived _ ext ident _ data => canOk ext ident data
  | .canObjectTimeout _ _ => true
  | .canPeriodicQueue _ _ => true
  | .canAnnounce _ => true
  | .canTxAttemptEnd _ _ _ _ => true
  | .canRecovered _ => true
  | .modbusPoll _ => true
  | .modbusReply _ _ _ => true
  | .modbusTimeout _ => true
  | .pairSlotsFrame _ _ _ _ _ _ _ _ _ => true
  | .pairStatusFrame _ _ _ _ => true
  | .pairInputsFrame _ items => items.all PairInput.wf
  | .pairCommandFrame _ c _ _ => c.wf
  | .pairSafetyFrame _ _ => true
  | .stateDigest second => secondOk second
  | .pairDigestFrame _ second _ permitted _ unitCost => secondOk second && decide (permitted.length = 3 ∧ unitCost.length = 3)
  | .noticeWithdrawing _ _ => true
  | .noticeRestarting _ _ => true
  | .noticeReady _ _ => true
  | .noticeEcho _ _ => true
  | .noticeRetired _ _ => true
  | .pairCatchupFrame _ item _ data _ => decide (item ≤ 9) && decide (data.length ≤ 256)
  | .pairHeartFrame _ => true
  | .pairLinkTimeout _ => true
  | .loopBridgeClosed => true
  | .catchupSnapshot => true
  | .replayDone => true
  | .reentry => true
  | .reentryEchoTimeout => true
  | .catchupTimeout => true
  | .catchupProgressSend => true
  | .partnerWaitTimeout => true
  | .pathsLost => true
  | .pathRecovered _ => true
  | .portSelftest _ _ _ => true
  | .commitExpired => true
  | .recorderWrite => true
  | .recorderResume => true
  | .recorderCountCheck second => secondOk second
  | .clearRegisterPointer second => secondOk second
  | .freezeTimeout _ => true
  | .recorderRead _ => true
  | .recorderFreeze _ => true
  | .recorderThaw _ => true
  | .recorderClear _ => true
  | .clearReg _ => true
  | .codes _ => true
  | .powerUp _ => true
  | .imageChecked _ _ => true
  | .pairWatchEnd _ => true
  | .enterService => true
  | .cycleRestartChoice => true
  | .supplyHigh _ _ => true
  | .supplyOvervoltage _ _ _ _ => true
  | .supplyReconnect => true
  | .firmwareLoadChunk _ _ => true
  | .install _ => true
  | .installDone => true
  | .activate _ => true
  | .restart _ => true
  | .keys _ => true
  | .probationEnd => true
  | .romRecovery _ => true
  | .svcMessage _ _ _ body _ => decide (body.length ≤ 16777312)
  | .cfgCommitGo _ _ _ _ => true
  | .cfgCommitDiscard => true
  | .commitApply => true
  | .stagedRegisterWrite _ _ width => accessWidth width
  | .exposureNotice => true
  | .exposureExceeded => true
  | .exposureClosed => true
  | .wardenWatchdogExpiry => true
  | .holdupMeasured _ => true
  | .configFrameReceived _ _ p _ _ => decide (p < 8)
  | .activationImageChecked _ => true
  | .activationReloadDone => true
  | .ethLinkChange _ _ _ => true
  | .prpSupervisionReceived _ mac => decide (mac < 2 ^ 48)
  | .prpNodeAgedOut => true
  | .modbusRequestHeard _ => true

end Sys2Proof
end

