-- ==== Sys2Proof/Tests/Slice0.lean ====
section
/-! SUPPORT. Tests: the checks of well-formedness refuse ill-formed commands; for every statement, states and operands that meet the
hypotheses of each of its clauses; and a few commands on small states, with results worked out from the spec by hand. -/
open Sys2Proof Sys2Proof.Machine
namespace Sys2Proof.Tests

/- One theorem at a time: the kernel evaluations below would otherwise each hold a thread. -/
set_option Elab.async false

/-! ### Small states -/

def onChain (s : State) (f : Chain → Chain) : State := { s with chain := f s.chain }
def onRec (s : State) (f : Recorder → Recorder) : State := { s with rec_ := f s.rec_ }

abbrev R : State := State.reset
def svc : State := (R.onLife (fun x => { x with phase := .service })).onTwin (fun x => { x with txOff := false })
def free (s : State) : State := s.onLife (fun x => { x with guard_ := false })
/-- A senior, and a junior, in service and joined. -/
def senior : State := (onChain svc (fun x => { x with identity := 1 })).onTwin (fun x => { x with st := .joined })
def junior : State := (onChain svc (fun x => { x with identity := 2 })).onTwin (fun x => { x with st := .joined })
/-- Active registers at given values. -/
def cfg (s : State) (l : List (Nat × Word)) : State := s.onSetup (fun x => { x with active := l })

/-- Bytes, a descriptor without a signature, and one signed by slot 0 for a role, with nonce 1, valid for a nanosecond. -/
def bytes (l : List Nat) : List Byte := l.map (BitVec.ofNat 8)
def desc (op : Nat) (arg data : List Nat) (resp : Nat) : Desc :=
  ⟨1, BitVec.ofNat 8 op, 0, none, 0, data.length, resp, 0, bytes arg, bytes data, true, true⟩
def signed (op role : Nat) (arg data : List Nat) : Desc :=
  let l := data ++ [0, role, 0, 0, 0, 0, 0, 0, 1, 0, 0, 0, 0, 0, 0, 0, 1, 0, 0, 0, 0, 0, 0, 0] ++ List.replicate 72 0
  ⟨1, BitVec.ofNat 8 op, 1, none, 0, l.length, 0, 0, bytes arg, bytes l, true, true⟩
/-- Slot 0 holds an active key of a role. -/
def keyed (s : State) (role : Nat) : State := s.onHost (fun h => { h with keys := h.keys.set 0 ⟨1, role, 0, 0, 0⟩ })
/-- A command queue whose turn it is to execute a descriptor. -/
def at_ (s : State) (d : Desc) : State := s.onHost (fun h => { h with
  queues := h.queues.set 0 { Queue.reset with running := true, g := 1, c := 1, inMod := [⟨d, true, 0, none, false⟩] } })
/-- What its authorisation leaves. -/
def after (s : State) (op : Nat) (d : Desc) : State := (s.authorise d (s.roleFor op (d.argByte 0))).1

theorem authorised {s : State} {d : Desc} {r : Option Nat} {x : Option (Nat × Nat)} (h : (s.authorise d r).2 = x) :
    s.authorise d r = ((s.authorise d r).1, x) := Prod.ext rfl h
theorem okOf {ε α : Type} [DecidableEq α] {x : Except ε α} {y : α}
    (h : (match x with | .ok z => decide (z = y) | .error _ => false) = true) : x = .ok y := by
  cases x with
  | ok z => exact congrArg _ (of_decide_eq_true h)
  | error _ => cases h
theorem errorOf {ε α : Type} [DecidableEq ε] {x : Except ε α} {y : ε}
    (h : (match x with | .error z => decide (z = y) | .ok _ => false) = true) : x = .error y := by
  cases x with
  | error z => exact congrArg _ (of_decide_eq_true h)
  | ok _ => cases h
theorem turn {s : State} {q op : Nat} {sel : Desc → Bool} {d : Desc} (h1 : s.ac23Reloading = false) (h2 : s.isHead q op sel = true)
    (h3 : (s.queue q).inMod.head?.map Held.desc = some d) (h4 : (s.authorise d (s.roleFor op (d.argByte 0))).2 = none) :
    s.Turn q op sel d (after s op d) := ⟨h1, h2, h3, Prod.ext rfl h4⟩
/-- The fine counter at a time. -/
def clock (s : State) (ns : Nat) : State := s.onTime (fun x => { x with fine := BitVec.ofNat 96 (ns * 2 ^ 32) })
/-- Cell station 0 first on ring 0 and current station 1 last on ring 7, both present, on normal rings. -/
def ringed (s : State) : State := s.onRing (fun x => { x with
  discovered := [(0, 0, 0), (33, 7, 5)], lines := x.lines.map (fun l => { l with st := .normal }),
  stations := x.stations.map (fun y => { y with present := true }) })
/-- The line of ring 7, and current station 1. -/
def line7 (s : State) (f : RingLine → RingLine) : State := s.onRing (fun x => { x with lines := x.lines.set 7 (f (x.lines.getD 7 RingLine.reset)) })
def station33 (s : State) (f : Station → Station) : State :=
  s.onRing (fun x => { x with stations := x.stations.set 33 (f (x.stations.getD 33 Station.reset)) })
def found1 : Found := ⟨1, 0, 0, 7, 0⟩
/-- A header with its check value. -/
def framed (l : List Byte) : List Byte := l ++ bytes [crc16 l % 256, crc16 l / 256]
/-- Cell 511, cell station 31, and its last tap. -/
def cell511 (s : State) (f : Cell → Cell) : State := s.onMeas (fun x => { x with cells := x.cells.set 511 (f Cell.reset) })
def station31 (s : State) (f : StationM → StationM) : State := s.onMeas (fun x => { x with stations := x.stations.set 31 (f StationM.reset) })
def tap16 (s : State) (f : Tap → Tap) : State := station31 s (fun m => { m with taps := m.taps.set 16 (f Tap.reset) })
/-- A second in which every cell of station 0 read 3.3 V. -/
def prim33 : Prim := ⟨0, 0, 0, 2500, List.replicate 16 3300000, [], 0, 0, 0, 0, 0⟩
def swept (s : State) : State := s.onRing (fun x => { x with last := some ⟨4000000, some prim33 :: List.replicate 33 none, List.replicate 34 none, none⟩ })
def image0 : Image := ⟨0, Balances.zero, 1, 0, [], none, 0, 0, [], [], 0, 0, false, 0, 0, (0, 0), 3, [], true⟩
def rec0 (n : BitVec 64) : LedgerRec := ⟨0, n, 0, 0, 0, 0, []⟩
/-- A number of gate links in use; a loop engine's capture; the last phase in service. -/
def linked (n : Nat) : State := cfg svc [(0x0400, 0x0001140A + 16 * n)]
def pairLinked (n : Nat) : State := onChain (linked n) (fun x => { x with identity := 1 })
def diag3 (s : State) (d : Diag) : State := s.onLoop (fun x => { x with diags := x.diags.set 3 d })
def phasesIn (s : State) : State := s.onLoop (fun x => { x with phases := x.phases.map (fun p => { p with active := true }) })
def running (s : State) : State := s.onGate (fun x => { x with stage := .run })
/-- A STATUS frame of link 7 with no field set but its header, and what it says. -/
def status7 : List Byte :=
  let h := bytes (8 :: 7 :: List.replicate 30 0)
  let c := crcSeeded (7 * 2 ^ 24) h
  h ++ bytes [c % 256, c / 256 % 256, c / 65536 % 256, c / 16777216]
def statusFrame : StatusFrame := ⟨0, 0, false, 0, 0, 0, 0, 0, 0, 0, 0, 0⟩
/-- A run of one segment, and a tone of it without deviation. -/
def run0 : DoneRun := ⟨false, 0, 0, 0, 0, [(5, 0)], 1, 0, 0, [], [], 0, []⟩
def tone0 (k : Nat) : Tone := ⟨k, 0, 0, 5, 255, 0, (1, 0) :: List.replicate 16 (0, 0)⟩
def fault (n : Nat) : FaultRec := ⟨0, 0, 2, 0, 0, 0, 0, false, 0, 0, 0, List.replicate n 0⟩
theorem long {α : Type} (n : Nat) (a : α) : n ≤ (List.replicate n a).length := Nat.le_of_eq List.length_replicate.symm
/-- Thermistor 0 has failed and its two cells' core temperatures are validated. -/
def coreReady : State := ((ringed R).onTherm (fun x => { x with sensors := x.sensors.set 0 { Sensor.reset with failed := true } })).onEst
  (fun x => { x with pub := [{ EstCell.reset with coreOk := true }, { EstCell.reset with coreOk := true }] })
/-- A dispatch body: AT 0, SEQ 1. -/
def dispArg (kind : Nat) (l : List Nat) : List Nat := [0, 0, 0, 0, 0, 0, 0, 0, 1, 0, 0, 0, kind, 0, 0, 0] ++ l
def dispWait (kind : Nat) : DispWait := ⟨0, 0, 0, kind, 5, 0⟩
/-- Output 3 the main contactor's, output 2 the precharge contactor's, input 15 the feedback; an output's two switches on. -/
def wired (s : State) : State := cfg s [(0x0954, 0x01020000), (0x094C, 6)]
def outOn (s : State) (f : SafeOut → SafeOut) : State :=
  s.onSafety (fun x => { x with coil := 1600, outs := x.outs.set 3 (f { SafeOut.reset with hi := true, lo := true }) })
/-- A reset input pressed for 200 ms. -/
def press (a : Nat) : DualIn := { DualIn.reset with leftAt := some a }
def pressed (s : State) (a : Nat) : State := s.onSafety (fun x => { x with
  engA := { x.engA with inputs := x.engA.inputs.set 15 (press a) }, engB := { x.engB with inputs := x.engB.inputs.set 15 (press a) } })
def pdu (seq : BitVec 16) (epoch : BitVec 4) : SafetyPdu := ⟨1, 0, false, epoch, false, false, seq, 0, 0, []⟩
def pdu0 : List Byte :=
  let h := bytes (1 :: List.replicate 15 0)
  let c := crcSeeded 0 h
  h ++ bytes [c % 256, c / 256 % 256, c / 65536 % 256, c / 16777216]
/-- An image of one engine, 7, with one symbol; cycle engine 7; a task under way. -/
def sec0 : Section := ⟨[], 0, 0, none, 0, 0, 1, 0⟩
def sym0 : Symbol := ⟨List.replicate 32 65, 7, 2, 1, false, 0, 1, [0]⟩
def gel0 : Gelfoel := ⟨1, 0, [none, none, none, none, none, none, none, some sec0], [sym0], [], [], 0⟩
def imaged (s : State) : State := s.onProg (fun p => { p with banks := [⟨3, some gel0, none⟩, ⟨3, some gel0, none⟩] })
def eng7 (s : State) (f : CycEng → CycEng) : State := s.onProg (fun p => { p with engines := p.engines.set 7 (f CycEng.reset) })
def task0 : TaskCtx := ⟨0, 0, 0, 0, false, 0, [], [], [], [], [], false⟩
def event0 (v : EvState) (x : CycEng) : CycEng := { x with mode := .run, events := [v] }
/-- The bytes of two images, with their check values: one without an engine, and one whose engines 0 and 1 both write host-out word 0. -/
def crc4 (c : Nat) : List Nat := [c % 256, c / 256 % 256, c / 65536 % 256, c / 16777216]
def header (mask : Nat) (len : List Nat) : List Nat :=
  [0x47, 0x46, 0x45, 0x4C, 1, 0, 0, mask, 1, 0, 0, 0] ++ len ++ List.replicate 8 0 ++ [16, 0, 0, 0, 16, 0, 0, 0, 16, 0, 0, 0] ++ List.replicate 24 0
def sec2 : List Nat := [64, 1, 0, 0, 2, 0, 0, 0, 0, 0, 0, 0, 255, 255, 255, 255] ++ List.replicate 16 0
def emptyCrc : Nat := 0x454608aa
def clashCrc : Nat := 0xdf24fe53
def emptyImage : List Byte := bytes (header 0 [0, 1, 0, 0] ++ crc4 emptyCrc ++ List.replicate 192 0)
def clashTail : List Nat := List.replicate 192 0 ++ [0, 0, 0x78, 0x22, 0, 0, 0, 0x13]
def clashImage : List Byte := bytes (header 3 [72, 1, 0, 0] ++ crc4 clashCrc ++ (sec2 ++ sec2 ++ clashTail))
theorem crcBytes_append (l k : List Byte) (c : Nat) : crcBytes c (l ++ k) = crcBytes (crcBytes c l) k := by
  induction l generalizing c with
  | nil => rfl
  | cons b l ih => exact ih _
theorem emptyImage_crc : crc32c (emptyImage.take 60 ++ [0, 0, 0, 0] ++ emptyImage.drop 64) = leAt emptyImage 60 4 := by
  have e : emptyImage.take 60 ++ [0, 0, 0, 0] ++ emptyImage.drop 64 =
      bytes (header 0 [0, 1, 0, 0] ++ [0, 0, 0, 0]) ++ (bytes (List.replicate 96 0) ++ bytes (List.replicate 96 0)) := by decide +kernel
  have h1 : crcBytes 0xFFFFFFFF (bytes (header 0 [0, 1, 0, 0] ++ [0, 0, 0, 0])) = 0x3149c714 := by decide +kernel
  have h2 : crcBytes 0x3149c714 (bytes (List.replicate 96 0)) = 0x9a570578 := by decide +kernel
  have h3 : crcBytes 0x9a570578 (bytes (List.replicate 96 0)) = 0xbab9f755 := by decide +kernel
  rw [e, crc32c, crcBytes_append, crcBytes_append, h1, h2, h3]
  decide +kernel
theorem clashImage_crc : crc32c (clashImage.take 60 ++ [0, 0, 0, 0] ++ clashImage.drop 64) = leAt clashImage 60 4 := by
  have e : clashImage.take 60 ++ [0, 0, 0, 0] ++ clashImage.drop 64 =
      bytes (header 3 [72, 1, 0, 0] ++ [0, 0, 0, 0]) ++ (bytes (sec2 ++ sec2) ++ (bytes (clashTail.take 100) ++ bytes (clashTail.drop 100))) := by
    decide +kernel
  have h1 : crcBytes 0xFFFFFFFF (bytes (header 3 [72, 1, 0, 0] ++ [0, 0, 0, 0])) = 0x7a47d01 := by decide +kernel
  have h2 : crcBytes 0x7a47d01 (bytes (sec2 ++ sec2)) = 0xf928788c := by decide +kernel
  have h3 : crcBytes 0xf928788c (bytes (clashTail.take 100)) = 0x8ec3b732 := by decide +kernel
  have h4 : crcBytes 0x8ec3b732 (bytes (clashTail.drop 100)) = 0x20db01ac := by decide +kernel
  rw [e, crc32c, crcBytes_append, crcBytes_append, crcBytes_append, h1, h2, h3, h4]
  decide +kernel
theorem emptyImage_header (v : Nat) : headerOk emptyImage v = true := by
  unfold headerOk
  rw [emptyImage_crc]
  have h : byteAt emptyImage 6 = 0 := by decide +kernel
  rw [h, decide_eq_true (Nat.zero_le v)]
  decide +kernel
theorem clashImage_header (v : Nat) : headerOk clashImage v = true := by
  unfold headerOk
  rw [clashImage_crc]
  have h : byteAt clashImage 6 = 0 := by decide +kernel
  rw [h, decide_eq_true (Nat.zero_le v)]
  decide +kernel
/-- A chunk of an image: offset 0, its total, first, and perhaps last. -/
def chunk (op : Nat) (total : List Nat) (last : Nat) (b : List Byte) : Desc :=
  ⟨1, BitVec.ofNat 8 op, 0, none, 0, b.length, 0, 0, bytes ([0, 0, 0, 0] ++ total ++ [1 + 2 * last]), b, true, true⟩
theorem chunk_whole (l : Option Load) (b : List Byte) (h : b.length = 256) :
    takeChunk l 256 4194304 (chunk 0x81 [0, 1, 0, 0] 1 b) = .ok (⟨256, 256, b⟩, true) := by
  have hb : (chunk 0x81 [0, 1, 0, 0] 1 b).body = b := by
    show b.take b.length = b
    exact List.take_length
  unfold takeChunk
  have a : (chunk 0x81 [0, 1, 0, 0] 1 b).argLe 0 4 = 0 := rfl
  have c : (chunk 0x81 [0, 1, 0, 0] 1 b).argLe 4 4 = 256 := rfl
  have e : (chunk 0x81 [0, 1, 0, 0] 1 b).argByte 8 = 3 := rfl
  simp [hb, h, a, c, e]
theorem judged (s : State) (h : (let g := parseImage emptyImage; (g.codeOk && (g.claims s.canRows).isNone
      && layoutOk emptyImage && g.limitsOk (Fld.cycCfg_BASE s.cfg) && g.io.all (ioOk g s.canRows s.mbRows) && g.worstOk (Fld.cycCfg_BASE s.cfg)
      && (g.refusal s.admitting.1 (Fld.marginCfg_TRIGGER s.cfg) (Fld.cycCfg_BASE s.cfg)).isNone && s.admitting.2.isNone)) = true) :
    s.judgeImage emptyImage = none := by
  simp only [Bool.and_eq_true, Bool.not_eq_true', Option.isNone_iff_eq_none] at h
  obtain ⟨⟨⟨⟨⟨⟨⟨h1, h2⟩, h0⟩, h3⟩, h4⟩, h5⟩, h6⟩, h7⟩ := h
  simp [State.judgeImage, emptyImage_header, h0, h1, h2, h3, h4, h5, h6, h7]
/-- Queue 31. -/
def queue31 (s : State) (f : Queue → Queue) : State := s.onHost (fun h => { h with queues := h.queues.set 31 (f Queue.reset) })
/-- A network address on every port; one Ethernet port's counters. -/
def netted (s : State) : State := cfg s [(0x0B00, 1), (Reg.netIp0, 0x0A000001), (0x0B0C, 1), (Reg.netIp0 + 12, 0x0A000301)]
def eth (n : Nat) (s : State) (x : EthPort) : State := s.onPlant (fun p => { p with eth := p.eth.set n x })
/-- A site block with rows of the CAN object table and of the Modbus helper table, in force outside guard mode. -/
def site (can mb : List (List Nat)) (s : State) : State := (free s).onSetup (fun x => { x with blocksAct := [(3, bytes (List.replicate 16 0 ++
  [32, 0, 0, 0, can.length, 0, 32 + 16 * can.length, 0, 0, 0, mb.length, 0, 0, 0, 0, 0] ++ can.flatten ++ mb.flatten))] })
/-- Object 127 of CAN port 5, received or sent; a Modbus entry of RS-485 port 3; the same as rows. -/
def canLine (dir : Nat) : List Nat := [5, 127, dir, 0, 1, 0, 0, 0, 255, 7, 0, 0, 8, 0, 10, 0]
def canRow5 (dir : Nat) : CanRow := ⟨5, 127, dir, 0, 1, 2047, 8, 0, 10⟩
def mbLine : List Nat := [3, 7, 3, 1, 0, 0, 10, 0, 0, 2, 0, 0, 0, 0, 0, 0]
def mbRow3 : MbRow := ⟨3, 7, 3, 1, 0, 10, 0, 2⟩
def can5 (s : State) (x : CanPort) : State := (cfg s [(0x0B74, 1)]).onPlant (fun p => { p with can := p.can.set 5 x })
def tx0 : CanTx := ⟨5, [], 0, none⟩
def offer0 : Offer := ⟨128, true, 5, []⟩
def offering (f : CanPort → CanPort) : State := can5 R (f { CanPort.reset with express := [some tx0, none, none] })
def sb3 (s : State) (cur : Option (Nat × Nat × Nat)) : State := s.onPlant (fun p => { p with sb := p.sb.set 3 { SbPort.reset with cur := cur } })
def reply (l : List Nat) : List Byte := bytes l ++ bytes [crcModbus (bytes l) % 256, crcModbus (bytes l) / 256]
/-- A header of the partner, and a catch-up. -/
def pair5 : PairHead := ⟨1, true, false, true, false, false, 5⟩
def catchUp (step : CatchStep) (sup : Bool) : CatchUp := ⟨step, sup, 1, 0, 0, 0, [], 0, none, false⟩
def window (n j : Bool) : Exposure := ⟨some 5, 0, if j then some 7 else none, n, none⟩
/-- Events, a record, and a recorder that the start has reached. -/
def event (sev : Nat) : Event := ⟨0, 1, sev, []⟩
def record0 : Rec := ⟨0, 0, event 3, false, false⟩
def recOn (f : Recorder → Recorder) : State := onRec svc (fun x => f { x with started := true })
theorem recorder_reset_sound : R.rec_.sound where
  numbers i x h := by cases (show (([] : List Rec)[i]? = some x) from h)
  next h := absurd rfl h
  slots := Nat.zero_le _
  holding := Nat.zero_le _
theorem slots_length {s : State} (n : Nat) (h : s.rec_.slots = List.replicate n record0) : s.rec_.slots.length = n := by
  rw [h, List.length_replicate]
theorem slots_head {s : State} (n : Nat) (h : s.rec_.slots = List.replicate (n + 1) record0) : s.rec_.slots.head? = some record0 := by
  rw [h]
  rfl
theorem full_of {s : State} (n : Nat) (h : s.rec_.slots = List.replicate n record0) (k : recSlots ≤ n) : s.rec_.full = true := by
  rw [Recorder.full, slots_length n h]
  exact decide_eq_true k
/-- A firmware image's header for part of the units, with its check value; an image of 4,096 bytes received but for its last byte. -/
def fwHead (mask : Nat) (len : List Nat) : List Byte :=
  let h := bytes ([0x4E, 0x47, 0x46, 0x57, 1, 0, 1, mask, 0, 0, 0, 0] ++ len ++ List.replicate 20 0 ++ [64, 0, 0, 0] ++ List.replicate 20 0)
  h ++ bytes (crc4 (crc32c h))
def fwSmall (mask : Nat) : List Byte := fwHead mask [72, 0, 0, 0] ++ List.replicate 8 0
def fwBig : List Byte := fwHead 1 [0, 16, 0, 0] ++ List.replicate 4031 0
def lastChunk : Desc := ⟨1, 0x82, 0, none, 0, 1, 0, 0, bytes [255, 15, 0, 0, 0, 16, 0, 0, 2], [0], true, true⟩
def loading (b : List Byte) : State := R.onLife (fun x => { x with load := some ⟨4096, 4095, b⟩ })
theorem fwBig_judged : (loading fwBig).judgeFirmware (fwBig ++ [0]) true = none := by
  have l : (fwBig ++ [0]).length = 4096 := by
    have h : (fwHead 1 [0, 16, 0, 0]).length = 64 := by decide +kernel
    rw [fwBig, List.length_append, List.length_append, List.length_replicate, h]
    rfl
  have h : fwHeaderOk (fwBig ++ [0]) = true := by
    unfold fwHeaderOk
    rw [l]
    decide +kernel
  simp only [State.judgeFirmware, h]
  decide +kernel
def part0 : PartFw := ⟨1, 2, 3, []⟩
/-- The first word and the check value of a message of the service port without body and with tag 0. -/
def svcFirst (type : Nat) : Word := BitVec.ofNat 32 (0x5653 + 65536 * type)
def svcCheck (type : Nat) : Word := BitVec.ofNat 32 (crc32c (bytes [0x53, 0x56, type, 0, 0, 0, 0, 0, 0, 0, 0, 0]))
/-- A key set of one role-6 key: the base point of P-256. -/
def keySet (role : Nat) : List Nat := [1, role, 0, 0, 0, 0, 0, 0,
  0x6B, 0x17, 0xD1, 0xF2, 0xE1, 0x2C, 0x42, 0x47, 0xF8, 0xBC, 0xE6, 0xE5, 0x63, 0xA4, 0x40, 0xF2,
  0x77, 0x03, 0x7D, 0x81, 0x2D, 0xEB, 0x33, 0xA0, 0xF4, 0xA1, 0x39, 0x45, 0xD8, 0x98, 0xC2, 0x96,
  0x4F, 0xE3, 0x42, 0xE2, 0xFE, 0x1A, 0x7F, 0x9B, 0x8E, 0xE7, 0xEB, 0x4A, 0x7C, 0x0F, 0x9E, 0x16,
  0x2B, 0xCE, 0x33, 0x57, 0x6B, 0x31, 0x5E, 0xCE, 0xCB, 0xB6, 0x40, 0x68, 0x37, 0xBF, 0x51, 0xF5] ++ List.replicate 1080 0
/-- A snapshot of some registers, taken at 0 with tag 7; the same as judged. -/
def snap (l : List (Nat × Word)) : Snapshot := ⟨7, false, 0, l, [], 0, none⟩
def pend (s : State) (p : Snapshot) : State := clock (s.onSetup (fun x => { x with pending := some p })) 1000000

/-! ### States and operands that meet the hypotheses of the statements, clause by clause -/

theorem hyps_chainCommands :
    (∃ (s : State) (a : Aci), Aci.value a ≠ 64 ∧ s.inService = false)
    ∧ (∃ (s : State) (a : Aci), Aci.value a ≠ 64 ∧ s.inService = true)
    ∧ (∃ (s : State) (a : Aci) (old : Nat), Aci.value a ≠ 64 ∧ s.chain.stored = some old ∧ old ≠ Aci.value a)
    ∧ (∃ (s : State), s.chain.full = false)
    ∧ (∃ (s : State), s.chain.addr ≠ 0)
    ∧ (∃ (s : State), s.chain.addr = 0 ∧ s.life.phase ≠ .recovery)
    ∧ (∃ (s : State), s.chain.aciLost = false ∧ s.chain.addr ≠ 0)
    ∧ (∃ (s : State) (a : Nat), s.chain.aciLost = false ∧ s.chain.addr = 0 ∧ s.inService = false ∧ s.chain.stored = some a ∧ a ≠ 0)
    ∧ (∃ (s t : State) (q : Fin 32) (d : Desc), s.Turn q 0x22 anyArg d t ∧ d.argByte 0 ≠ 0 ∧ d.argByte 0 ≤ 63 ∧ d.argLe 8 8 = t.life.serial.toNat ∧ t.chain.addr = 0 ∧ t.chain.aciLost = true) :=
  ⟨⟨R, .head, by decide +kernel, by decide +kernel⟩,
    ⟨svc, .head, by decide +kernel, by decide +kernel⟩,
    ⟨(onChain R fun x => { x with stored := some 5 }), .head, 5, by decide +kernel, by decide +kernel, by decide +kernel⟩,
    ⟨R, by decide +kernel⟩,
    ⟨(onChain R fun x => { x with addr := 63 }), by decide +kernel⟩,
    ⟨R, by decide +kernel, by decide +kernel⟩,
    ⟨(onChain R fun x => { x with addr := 7 }), by decide +kernel, by decide +kernel⟩,
    ⟨(onChain R fun x => { x with stored := some 63 }), 63, by decide +kernel, by decide +kernel, by decide +kernel, by decide +kernel, by decide +kernel⟩,
    ⟨at_ (keyed ((onChain R fun x => { x with aciLost := true })) 5) (signed 0x22 5 [63] []), _, 0, signed 0x22 5 [63] [], turn (by decide +kernel) (by decide +kernel) (by decide +kernel) (by decide +kernel), by decide +kernel, by decide +kernel, by decide +kernel, by decide +kernel, by decide +kernel⟩⟩

theorem hyps_fabricCommands :
    (∃ (s u : State) (c : CanaryRound), u = ((s.periodic 5 100000000).timeCanaries c.laps).canaryRound c.worst)
    ∧ (∃ (s : State) (worst : List Nat) (e : Nat), e < s.fabric.engines.length)
    ∧ (∃ (s : State) (p : Nat), s.fabric.planAt = some p)
    ∧ (∃ (s : State), s.nvmBarred = false ∧ s.fabric.historyWaits = [] ∧ s.fabric.history.length < slackSlots)
    ∧ (∃ (s : State), s.nvmBarred = false ∧ s.fabric.historyWaits = [] ∧ s.fabric.history.length = slackSlots)
    ∧ (∃ (s : State), s.nvmBarred = true) :=
  ⟨⟨R, ((R.periodic 5 100000000).timeCanaries []).canaryRound [], ⟨[], []⟩, rfl⟩,
    ⟨R, [], 22, by decide +kernel⟩,
    ⟨(R.onFabric fun x => { x with planAt := some 5 }), 5, by decide +kernel⟩,
    ⟨R, by decide +kernel, by decide +kernel, by decide +kernel⟩,
    ⟨(R.onFabric fun x => { x with history := List.replicate 16384 ⟨0, [], 0, 0, 0⟩ }), by decide +kernel, rfl, List.length_replicate⟩,
    ⟨(R.onTherm fun x => { x with die := { x.die with barred := true } }), by decide +kernel⟩⟩

theorem hyps_engineFaults :
    (∃ (s : State) (e : Fin 23) (done : Nat), done < 2 ^ 32)
    ∧ (∃ (s : State) (e cause : Nat), s.actsSingle = true ∧ s.life.probation = false ∧ 2 ≤ ((s.engine (pairOf e)).faults.filter (fun t => decide (s.now < t + day))).length ∧ pairOf e < s.fabric.engines.length)
    ∧ (∃ (s : State) (e cause : Nat), s.actsSingle = true ∧ s.life.probation = false ∧ ((s.engine (pairOf e)).faults.filter (fun t => decide (s.now < t + day))).length < 2)
    ∧ (∃ (s : State) (e : Fin 23), (s.engine (pairOf e)).reloading = true ∧ (s.engine (pairOf e)).failed = false ∧ (pairOf e = 0 ∨ (12 ≤ e.val ∧ e.val ≤ 14)))
    ∧ (∃ (s : State), (s.engine 15).reloading = true ∧ (s.engine 15).failed = false)
    ∧ (∃ (s : State), (s.engine 2).reloading = true ∧ (s.engine 2).failed = false)
    ∧ (∃ (s : State) (n : Nat) (h : 4 + n < 23), n < 8 ∧ (s.engine (4 + n)).reloading = true ∧ (s.engine (4 + n)).failed = false)
    ∧ (∃ (s : State) (n : Nat) (h : 16 + n < 23), n < 4 ∧ (s.engine (16 + n)).reloading = true ∧ (s.engine (16 + n)).failed = false) :=
  ⟨⟨R, 22, 4294967295, by decide +kernel⟩,
    ⟨(R.onFabric fun x => { x with engines := x.engines.set 4 { Engine.reset with faults := [0, 0] } }), 4, 3, by decide +kernel, by decide +kernel, by decide +kernel, by decide +kernel⟩,
    ⟨(R.onFabric fun x => { x with engines := x.engines.set 22 { Engine.reset with faults := [0] } }), 22, 3, by decide +kernel, by decide +kernel, by decide +kernel⟩,
    ⟨(R.onFabric fun x => { x with engines := x.engines.set 0 { Engine.reset with reloading := true } }), 1, by decide +kernel, by decide +kernel, by decide +kernel⟩,
    ⟨(R.onFabric fun x => { x with engines := x.engines.set 15 { Engine.reset with reloading := true } }), by decide +kernel, by decide +kernel⟩,
    ⟨(R.onFabric fun x => { x with engines := x.engines.set 2 { Engine.reset with reloading := true } }), by decide +kernel, by decide +kernel⟩,
    ⟨(R.onFabric fun x => { x with engines := x.engines.set 11 { Engine.reset with reloading := true } }), 7, by decide, by decide +kernel, by decide +kernel, by decide +kernel⟩,
    ⟨(R.onFabric fun x => { x with engines := x.engines.set 19 { Engine.reset with reloading := true } }), 3, by decide, by decide +kernel, by decide +kernel, by decide +kernel⟩⟩

theorem hyps_timeBaseCommands :
    (∃ (s : State) (ep : Fin 3) (seq : BitVec 16) (i o c : Int), s.ethRoom ep ∧ s.ptpAccepts ep (Fld.ptpCfg_DOMAIN s.cfg) = true)
    ∧ (∃ (s : State) (ep : Fin 3) (seq : BitVec 16) (i o c : Int), s.ethRoom ep ∧ s.ptpAccepts ep (Fld.ptpCfg_DOMAIN s.cfg) = true ∧ s.servoPort = ep ∧ s.time.gm ≠ none ∧ s.isFollower = false ∧ s.time.st ≠ .refused ∧ s.inService = true ∧ s.time.jumpTest = false ∧ s.time.taken = true)
    ∧ (∃ (s : State) (ep : Fin 3) (seq : BitVec 16) (w o c : Int), s.ethRoom ep ∧ s.ptpAccepts ep (Fld.ptpCfg_DOMAIN s.cfg) = true ∧ s.time.syncWait.getD ep none = some (seq, w) ∧ s.servoPort = ep ∧ s.isFollower = false ∧ s.time.st ≠ .refused ∧ s.inService = true ∧ s.time.gm ≠ none ∧ ((s.time.jumpTest = true ∨ s.time.taken = false)) ∧ s.jumpNs < mag (s.offsetOf ep w o c))
    ∧ (∃ (s : State) (ep : Fin 3) (seq : BitVec 16) (w o c : Int), s.ethRoom ep ∧ s.ptpAccepts ep (Fld.ptpCfg_DOMAIN s.cfg) = true ∧ s.time.syncWait.getD ep none = some (seq, w) ∧ s.servoPort = ep ∧ s.isFollower = false ∧ s.time.st ≠ .refused ∧ s.inService = true ∧ s.time.gm ≠ none ∧ s.time.jumpTest = true ∧ mag (s.offsetOf ep w o c) ≤ s.jumpNs)
    ∧ (∃ (s : State) (ep : Fin 3) (old new : BitVec 64) (other : Option (BitVec 64)) (utc : Int) (l61 l59 uv : Bool), s.ethRoom ep ∧ s.ptpAccepts ep (Fld.ptpCfg_DOMAIN s.cfg) = true ∧ s.time.gmLast = some old ∧ s.time.gm ≠ some new)
    ∧ (∃ (s : State) (ep : Fin 3), s.sized)
    ∧ (∃ (s : State) (ep : Fin 3) (seq : BitVec 16) (t1 t2 t3 t4 : Int), s.ethRoom ep ∧ seq + 1 = s.time.reqSeq.getD ep 0 ∧ s.sized)
    ∧ (∃ (s : State) (ep : Fin 3) (seq : BitVec 16) (i : Int), s.ethRoom ep ∧ s.ptpAccepts ep (Fld.ptpCfg_DOMAIN s.cfg) = true ∧ Fld.ptpCfg_PROFILE s.cfg ≠ 0)
    ∧ (∃ (s : State), s.time.otherMaster = none ∧ s.time.gm ≠ none ∧ s.time.st ≠ .refused)
    ∧ (∃ (s : State) (g old : BitVec 64), s.time.otherMaster = some g ∧ s.time.gmLast = some old)
    ∧ (∃ (s : State), Fld.ptpCfg_SOURCE s.cfg = 0 ∧ s.time.port = 0)
    ∧ (∃ (s : State), Fld.ptpCfg_SOURCE s.cfg = 0 ∧ s.time.port = 1)
    ∧ (∃ (s : State) (n : Nat), s.time.startWait = some n)
    ∧ (∃ (s : State) (w : WaitCmd), s.host.waiting.find? (fun w => decide (w.cmd.opcode = 0x20) && w.own) = some w ∧ w.expires < 2 ^ 64)
    ∧ (∃ (s : State) (l : Fin 2) (d so : Int) (x : LeadTime) (same : Bool), ((s.isPair = false ∨ s.time.leader = true)) ∧ s.sized)
    ∧ (∃ (s : State) (d so : Int) (x : LeadTime) (same : Bool), s.isPair = true ∧ s.time.leader = false ∧ s.sized ∧ ((s.inService = true ∨ s.time.setOnce = true)))
    ∧ (∃ (s : State) (d so : Int) (x : LeadTime) (same : Bool), s.isPair = true ∧ s.time.leader = false ∧ s.sized ∧ s.inService = false ∧ s.time.setOnce = false)
    ∧ (∃ (s : State) (l : Fin 2), s.isPair = true)
    ∧ (∃ (s : State), s.isPair = true ∧ s.isAlone = false)
    ∧ (∃ (s : State), s.actsSingle = true) :=
  ⟨⟨R, 1, 5, 7, 0, 0, by unfold State.ethRoom; decide +kernel, by decide +kernel⟩,
    ⟨(svc.onTime fun x => { x with port := 1, jumpTest := false, gm := some 4, taken := true }), 1, 5, 1000000000, 0, 0, by unfold State.ethRoom; decide +kernel, by decide +kernel, by decide +kernel, by decide +kernel, by decide +kernel, by decide +kernel, by decide +kernel, by decide +kernel, by decide +kernel⟩,
    ⟨(svc.onTime fun x => { x with syncWait := [some (5, 1000000000000), none, none], gm := some 4 }), 0, 5, 1000000000000, 0, 0, by unfold State.ethRoom; decide +kernel, by decide +kernel, by decide +kernel, by decide +kernel, by decide +kernel, by decide +kernel, by decide +kernel, by decide +kernel, by decide +kernel, by decide +kernel⟩,
    ⟨(svc.onTime fun x => { x with syncWait := [some (5, 100), none, none], gm := some 4, jumpTest := true }), 0, 5, 100, 100, 0, by unfold State.ethRoom; decide +kernel, by decide +kernel, by decide +kernel, by decide +kernel, by decide +kernel, by decide +kernel, by decide +kernel, by decide +kernel, by decide +kernel, by decide +kernel⟩,
    ⟨(R.onTime fun x => { x with gmLast := some 4, gm := some 4 }), 0, 4, 9, none, 37, false, false, true, by unfold State.ethRoom; decide +kernel, by decide +kernel, by decide +kernel, by decide +kernel⟩,
    ⟨R, 2, by show State.shape _ = _; decide +kernel⟩,
    ⟨(R.onTime fun x => { x with reqSeq := [0, 8, 0] }), 1, 7, 0, 10, 20, 30, by unfold State.ethRoom; decide +kernel, by decide +kernel, by show State.shape _ = _; decide +kernel⟩,
    ⟨cfg R [(0x0114, 1)], 1, 7, 0, by unfold State.ethRoom; decide +kernel, by decide +kernel, by decide +kernel⟩,
    ⟨(R.onTime fun x => { x with gm := some 4 }), by decide +kernel, by decide +kernel, by decide +kernel⟩,
    ⟨(R.onTime fun x => { x with otherMaster := some 9, gmLast := some 4 }), 9, 4, by decide +kernel, by decide +kernel⟩,
    ⟨R, by decide +kernel, by decide +kernel⟩,
    ⟨(R.onTime fun x => { x with port := 1 }), by decide +kernel, by decide +kernel⟩,
    ⟨(R.onTime fun x => { x with startWait := some 60000000000 }), 60000000000, by decide +kernel⟩,
    ⟨(R.onHost fun x => { x with waiting := [⟨⟨0x20, [], []⟩, true, false, 10000000000⟩] }), ⟨⟨0x20, [], []⟩, true, false, 10000000000⟩, by decide +kernel, by decide +kernel⟩,
    ⟨R, 1, 3, 4, ⟨5, true, true⟩, true, by decide +kernel, by show State.shape _ = _; decide +kernel⟩,
    ⟨junior, 3, 4, ⟨5, true, true⟩, true, by decide +kernel, by decide +kernel, by show State.shape _ = _; decide +kernel, by decide +kernel⟩,
    ⟨(onChain R (fun x => { x with identity := 2 })), 3, 4, ⟨5, true, true⟩, true, by decide +kernel, by decide +kernel, by show State.shape _ = _; decide +kernel, by decide +kernel, by decide +kernel⟩,
    ⟨senior, 1, by decide +kernel⟩,
    ⟨senior, by decide +kernel, by decide +kernel⟩,
    ⟨R, by decide +kernel⟩⟩

theorem hyps_timeCommands :
    (∃ (s t : State) (q : Fin 32) (d : Desc), s.Turn q 0x20 (op0 1) d t ∧ t.time.st = .refused ∧ t.time.gm = some (BitVec.ofNat 64 (d.argLe 8 8)))
    ∧ (∃ (s t : State) (q : Fin 32) (d : Desc), s.Turn q 0x20 (op0 2) d t ∧ t.time.st = .refused ∧ t.time.gm = some (BitVec.ofNat 64 (d.argLe 8 8)))
    ∧ (∃ (s t : State) (q : Fin 32) (d : Desc), s.Turn q 0x20 (op0 3) d t ∧ eventValid (d.argLe 16 8) = true ∧ Fld.ptpCfg_SOURCE t.cfg = 2)
    ∧ (∃ (s t : State) (q : Fin 32) (d : Desc), s.Turn q 0x20 (op0 1) d t ∧ t.time.st ≠ .refused)
    ∧ (∃ (s t : State) (q : Fin 32) (d : Desc), s.Turn q 0x21 anyArg d t ∧ 32 ≤ d.respLen)
    ∧ (∃ (s : State) (c : Cmd), byteAt c.arg 0 = 1 ∧ s.time.st = .refused ∧ s.time.gm = some (BitVec.ofNat 64 (leAt c.arg 8 8)) ∧ s.isFollower = false)
    ∧ (∃ (s : State) (c : Cmd), byteAt c.arg 0 = 3 ∧ Fld.ptpCfg_SOURCE s.cfg = 2) :=
  ⟨⟨at_ (keyed ((R.onTime fun x => { x with st := .refused, gm := some 0 })) 4) (signed 0x20 4 [1] []), _, 0, signed 0x20 4 [1] [], turn (by decide +kernel) (by decide +kernel) (by decide +kernel) (by decide +kernel), by decide +kernel, by decide +kernel⟩,
    ⟨at_ (keyed ((R.onTime fun x => { x with st := .refused, gm := some 0 })) 4) (signed 0x20 4 [2] []), _, 0, signed 0x20 4 [2] [], turn (by decide +kernel) (by decide +kernel) (by decide +kernel) (by decide +kernel), by decide +kernel, by decide +kernel⟩,
    ⟨at_ (keyed (cfg R [(0x0114, 0x800)]) 4) (signed 0x20 4 [3, 0, 0, 0, 0, 0, 0, 0, 0, 0, 0, 0, 0, 0, 0, 0, 255, 201, 154, 59, 0, 0, 0, 0] []), _, 0, signed 0x20 4 [3, 0, 0, 0, 0, 0, 0, 0, 0, 0, 0, 0, 0, 0, 0, 0, 255, 201, 154, 59, 0, 0, 0, 0] [], turn (by decide +kernel) (by decide +kernel) (by decide +kernel) (by decide +kernel), by decide +kernel, by decide +kernel⟩,
    ⟨at_ (keyed (R) 4) (signed 0x20 4 [1] []), _, 0, signed 0x20 4 [1] [], turn (by decide +kernel) (by decide +kernel) (by decide +kernel) (by decide +kernel), by decide +kernel⟩,
    ⟨at_ (R) (desc 0x21 [] [] 32), _, 0, desc 0x21 [] [] 32, turn (by decide +kernel) (by decide +kernel) (by decide +kernel) (by decide +kernel), by decide +kernel⟩,
    ⟨(R.onTime fun x => { x with st := .refused, gm := some 2 }), ⟨0x20, bytes [1, 0, 0, 0, 0, 0, 0, 0, 2], []⟩, by decide +kernel, by decide +kernel, by decide +kernel, by decide +kernel⟩,
    ⟨cfg R [(0x0114, 0x800)], ⟨0x20, bytes [3], []⟩, by decide +kernel, by decide +kernel⟩⟩

theorem hyps_ringCommands :
    (∃ (s : State) (fgi : Int) (dio : BitVec 16), s.est.imp.phase = .idle)
    ∧ (∃ (s : State) (g r : Nat) (e : End), (s.line r).st = .normal ∧ (s.line r).startAt ≤ g ∧ s.ownsEnd e = true ∧ s.sending = true)
    ∧ (∃ (s : State) (g r : Nat) (e : End), (s.line r).st = .normal ∧ (s.line r).startAt ≤ g ∧ s.ownsEnd e = true ∧ s.sending = true)
    ∧ (∃ (s : State) (r : Fin 8) (w : Sweep), s.ring.cur = some w ∧ (s.line r).st = .normal ∧ s.isPair = false ∧ (s.line r).seenAB = false ∧ s.ac01Reloading = false)
    ∧ (∃ (s : State) (w : Sweep), s.ring.cur = some w)
    ∧ (∃ (s : State) (r : Fin 8) (e : End) (k p at_ : Nat), s.ring.owed = [⟨k, at_, true, true⟩] ∧ s.placeOf k = some (r.val, p) ∧ p < s.ringCount r ∧ (s.line r).st = .normal ∧ s.ownsEnd e = true ∧ s.sending = true)
    ∧ (∃ (s : State) (r : Fin 8), s.sized ∧ s.ownsEnd .a = true ∧ (s.line r).st = .normal ∧ s.ringCount r ≠ 0)
    ∧ (∃ (s : State) (r : Fin 8), s.sized ∧ s.ownsEnd .b = true ∧ (s.line r).st = .normal ∧ s.ringCount r ≠ 0)
    ∧ (∃ (s : State), s.isPair = true ∧ s.ringPath = false)
    ∧ (∃ (s : State) (r : Fin 8) (w : Nat), s.sized ∧ (s.line r).wholeSince = some w ∧ (s.line r).st = .degraded ∧ w + 1000000000 ≤ s.now)
    ∧ (∃ (s : State) (g r a : Nat), s.sized ∧ r < 8 ∧ (s.line r).restoreAt = some a ∧ a ≤ g ∧ g % 4000000 = 0)
    ∧ (∃ (s : State) (k : Fin 34) (r p : Nat), s.placeOf k = some (r, p) ∧ s.isPair = false)
    ∧ (∃ (s : State) (k : Fin 34) (r p : Nat), s.placeOf k = some (r, p) ∧ s.isPair = true ∧ s.time.leader = true)
    ∧ (∃ (s : State) (k : Fin 34) (r p rt tot o : Nat), s.placeOf k = some (r, p) ∧ s.sized)
    ∧ (∃ (s : State) (r : Fin 8), s.sized) :=
  ⟨⟨R, 0, 0, by decide +kernel⟩,
    ⟨ringed svc, 0, 7, .b, by decide +kernel, by decide +kernel, by decide +kernel, by decide +kernel⟩,
    ⟨ringed svc, 0, 7, .b, by decide +kernel, by decide +kernel, by decide +kernel, by decide +kernel⟩,
    ⟨ringed (R.onRing fun x => { x with cur := some ⟨0, [], [], none⟩ }), 7, ⟨0, [], [], none⟩, by decide +kernel, by decide +kernel, by decide +kernel, by decide +kernel, by decide +kernel⟩,
    ⟨(R.onRing fun x => { x with cur := some ⟨0, [], [], none⟩ }), ⟨0, [], [], none⟩, by decide +kernel⟩,
    ⟨((ringed svc).onRing fun x => { x with owed := [⟨0, 4000000, true, true⟩] }), 0, .a, 0, 0, 4000000, by decide +kernel, by decide +kernel, by decide +kernel, by decide +kernel, by decide +kernel, by decide +kernel⟩,
    ⟨ringed R, 7, by show State.shape _ = _; decide +kernel, by decide +kernel, by decide +kernel, by decide +kernel⟩,
    ⟨ringed R, 7, by show State.shape _ = _; decide +kernel, by decide +kernel, by decide +kernel, by decide +kernel⟩,
    ⟨senior, by decide +kernel, by decide +kernel⟩,
    ⟨clock (line7 R fun l => { l with st := .degraded, wholeSince := some 0 }) 1000000000, 7, 0, by show State.shape _ = _; decide +kernel, by decide +kernel, by decide +kernel, by decide +kernel⟩,
    ⟨line7 (ringed R) (fun l => { l with restoreAt := some 5 }), 4000000, 7, 5, by show State.shape _ = _; decide +kernel, by decide +kernel, by decide +kernel, by decide +kernel, by decide +kernel⟩,
    ⟨ringed R, 33, 7, 5, by decide +kernel, by decide +kernel⟩,
    ⟨((ringed senior).onTime fun x => { x with leader := true }), 33, 7, 5, by decide +kernel, by decide +kernel, by decide +kernel⟩,
    ⟨ringed R, 33, 7, 5, 10, 20, 30, by decide +kernel, by show State.shape _ = _; decide +kernel⟩,
    ⟨R, 7, by show State.shape _ = _; decide +kernel⟩⟩

theorem hyps_ringReception :
    (∃ (s : State) (r : Fin 8) (e : End) (b : List Byte) (c : Bool), s.ownsEnd e = false ∧ (s.line r).miswired = false ∧ s.sized)
    ∧ (∃ (s : State) (r : Fin 8) (e : End) (b : List Byte) (c : Bool), s.ownsEnd e = true ∧ (b.length < 16 ∨ crc16 (slice b 0 14) ≠ leAt b 14 2))
    ∧ (∃ (s : State) (r : Fin 8) (b : List Byte), s.isPair = false ∧ 16 ≤ b.length ∧ crc16 (slice b 0 14) = leAt b 14 2 ∧ byteAt b 1 % 8 = r.val ∧ (s.line r).st = .normal ∧ byteAt b 0 % 16 = 1 ∧ byteAt b 0 / 16 % 4 = 0)
    ∧ (∃ (s : State) (r p grid receipt : Nat) (late keep : Bool) (b : List Byte), (checkSlot (slotSeed r p grid) b).prim = none ∧ (checkSlot (slotSeed r p grid) b).sec = none ∧ (checkSlot (slotSeed r p grid) b).side = none)
    ∧ (∃ (s : State) (r : Fin 8) (e : End) (p k kind : Nat), s.stationAt r p = some k ∧ s.ownsEnd e = true ∧ (s.station k).starting = true)
    ∧ (∃ (s : State) (r : Fin 8) (e : End) (p k : Nat), s.stationAt r p = some k ∧ s.ownsEnd e = true ∧ (s.station k).starting = true ∧ s.sized ∧ k < 34) :=
  ⟨⟨senior, 7, .b, [], true, by decide +kernel, by decide +kernel, by show State.shape _ = _; decide +kernel⟩,
    ⟨R, 7, .b, bytes [1, 7, 0, 0, 0, 0, 0, 0, 0, 0, 0, 0, 0, 0, 0, 0], true, by decide +kernel, by decide +kernel⟩,
    ⟨ringed R, 7, framed (bytes [1, 7, 0, 0, 0, 0, 0, 0, 0, 0, 0, 0, 0, 0]), by decide +kernel, by decide +kernel, by decide +kernel, by decide +kernel, by decide +kernel, by decide +kernel, by decide +kernel⟩,
    ⟨R, 7, 5, 65535, 0, false, true, [], by decide +kernel, by decide +kernel, by decide +kernel⟩,
    ⟨station33 (ringed R) (fun y => { y with starting := true }), 7, .b, 5, 33, 2, by decide +kernel, by decide +kernel, by decide +kernel⟩,
    ⟨station33 (ringed R) (fun y => { y with starting := true }), 7, .b, 5, 33, by decide +kernel, by decide +kernel, by decide +kernel, by show State.shape _ = _; decide +kernel, by decide +kernel⟩⟩

theorem hyps_stationCommands :
    (∃ (s : State) (r : Fin 8), mapCommitted s.cfg = true ∧ s.ringCount r = 0)
    ∧ (∃ (s : State) (r : Fin 8), s.sized ∧ s.isPair = false ∧ s.ringCount r ≠ 0)
    ∧ (∃ (s : State) (r : Fin 8) (e : End) (w : Bool) (f : List Found), (s.line r).st = .start)
    ∧ (∃ (s : State) (r : Nat), (s.line r).st = .start ∧ (s.line r).found.all (fun f => f.isSome) = true ∧ s.ringRefused r = true)
    ∧ (∃ (s : State) (r : Fin 8), (s.line r).st = .start ∧ s.sized ∧ mapCommitted s.cfg = true ∧ (s.line r).found.all (fun f => f.isSome) = true ∧ (s.line r).whole = true ∧ s.ringNumber r ≠ 0)
    ∧ (∃ (s : State) (n : Fin 8), n.val < s.links ∧ (s.receiver n).known = true ∧ (s.gate.stage = .off ∨ s.gate.stage = .armed))
    ∧ (∃ (s : State) (n : Fin 8) (k p : Nat), (k, n.val, p) ∈ s.map ∧ s.sized ∧ k < 34 ∧ (s.station k).present = true)
    ∧ (∃ (s : State) (k : Nat) (x : Station), x.fw ≠ s.preferred k)
    ∧ (∃ (s : State) (k : Fin 34) (v : Word), (s.station k).fwPending = some v ∧ s.sized)
    ∧ (∃ (s : State) (n : Nat), ((∀ k, k < 34 → (s.station k).issued = (s.station k).executed + (s.station k).gaps + (s.station k).refused + (s.station k).waitingCnt)))
    ∧ (∃ (s : State) (n k : Nat), k < 34 ∧ (s.station k).issued ≠ (s.station k).executed + (s.station k).gaps + (s.station k).refused + (s.station k).waitingCnt)
    ∧ (∃ (s : State) (k : Fin 34), s.mapped k = true ∧ (s.station k).pLost = false ∧ s.drop ≤ (s.station k).pMiss)
    ∧ (∃ (s : State) (k : Fin 34), s.mapped k = true ∧ (s.station k).sLost = false ∧ s.drop ≤ (s.station k).sMiss)
    ∧ (∃ (s : State) (k : Fin 34), (s.station k).pLost = true ∧ s.drop ≤ (s.station k).pGood ∧ (s.station k).unconf = false)
    ∧ (∃ (s : State) (k : Fin 34), (s.station k).sLost = true ∧ s.drop ≤ (s.station k).sGood) :=
  ⟨⟨cfg R [(Reg.ringMap, 1)], 7, by decide +kernel, by decide +kernel⟩,
    ⟨ringed R, 7, by show State.shape _ = _; decide +kernel, by decide +kernel, by decide +kernel⟩,
    ⟨line7 R (fun l => { l with st := .start }), 7, .b, true, [found1], by decide +kernel⟩,
    ⟨line7 R (fun l => { l with st := .start, found := [some [found1], some [found1]] }), 7, by decide +kernel, by decide +kernel, by decide +kernel⟩,
    ⟨cfg (line7 (ringed R) (fun l => { l with st := .start, whole := true, found := [some [found1], some [found1]] })) [(Reg.ringMap + 56, 193)], 7, by decide +kernel, by show State.shape _ = _; decide +kernel, by decide +kernel, by decide +kernel, by decide +kernel, by decide +kernel⟩,
    ⟨((linked 7).onGate fun x => { x with receivers := x.receivers.map (fun r => { r with known := true }) }), 6, by decide +kernel, by decide +kernel, by decide +kernel⟩,
    ⟨ringed R, 7, 33, 5, by decide +kernel, by show State.shape _ = _; decide +kernel, by decide +kernel, by decide +kernel⟩,
    ⟨R, 33, { Station.reset with fw := 5 }, by decide +kernel⟩,
    ⟨station33 R (fun y => { y with fwPending := some 3 }), 33, 3, by decide +kernel, by show State.shape _ = _; decide +kernel⟩,
    ⟨R, 5, by decide +kernel⟩,
    ⟨station33 R (fun y => { y with issued := 3 }), 5, 33, by decide +kernel, by decide +kernel⟩,
    ⟨station33 (ringed R) (fun y => { y with pMiss := 9 }), 33, by decide +kernel, by decide +kernel, by decide +kernel⟩,
    ⟨station33 (ringed R) (fun y => { y with sMiss := 9 }), 33, by decide +kernel, by decide +kernel, by decide +kernel⟩,
    ⟨station33 (ringed R) (fun y => { y with pLost := true, pGood := 9 }), 33, by decide +kernel, by decide +kernel, by decide +kernel⟩,
    ⟨station33 (ringed R) (fun y => { y with sLost := true, sGood := 9 }), 33, by decide +kernel, by decide +kernel⟩⟩

theorem hyps_measurementCommands :
    (∃ (s : State) (n : Nat), (s.meas.disRun ≠ 2 ∨ differs (s.meas.curSum.getD 0 0) (s.meas.curN.getD 0 0) (s.meas.curSum.getD 1 0) (s.meas.curN.getD 1 0) = false))
    ∧ (∃ (s : State) (n : Nat), s.meas.disRun = 2 ∧ differs (s.meas.curSum.getD 0 0) (s.meas.curN.getD 0 0) (s.meas.curSum.getD 1 0) (s.meas.curN.getD 1 0) = true)
    ∧ (∃ (s : State) (a : Nat), s.meas.judgedFrom = some a)
    ∧ (∃ (s : State) (k : Fin 32) (c : Fin 2), (s.stM k).sumRun.getD c 0 = 10)
    ∧ (∃ (s : State) (k : Fin 32) (c : Fin 16), (s.stM k).unused.getD c 0 = 10)
    ∧ (∃ (s : State) (c : Nat), (s.cell c).psRun = 9 ∧ (s.cell c).n ≠ 0 ∧ c < 512 ∧ s.sized ∧ Fld.measCfg_PS s.cfg * 1000 * (s.cell c).n < mag ((s.cell c).sumP - (s.cell c).sumS))
    ∧ (∃ (s : State) (k mask : Nat), s.mapped k = true ∧ (s.station k).present = true)
    ∧ (∃ (s : State) (k : Fin 32) (a : Nat), (s.stM k).oddAt = some a)
    ∧ (∃ (s : State) (k : Fin 32) (i : Fin 17) (a : Nat), (s.tap k i).retestAt = some a)
    ∧ (∃ (s : State) (k : Fin 32) (i : Fin 17), (s.tap k i).ordered = true ∧ (s.tap k i).testedAt = none)
    ∧ (∃ (s u : State) (k : Fin 32) (b : List Byte), s.takeMessage k 3 = (u, some b))
    ∧ (∃ (s : State) (k i : Nat) (x : Int), (s.tap k i).open_ = false)
    ∧ (∃ (s : State) (k : Fin 32) (c : Nat), (s.stM k).calStep = some c)
    ∧ (∃ (s u : State) (k : Fin 32) (b : List Byte) (d : Int), s.takeMessage k 5 = (u, some b) ∧ 200 < mag d)
    ∧ (∃ (s u : State) (k : Fin 34) (b : List Byte) (n : Nat) (x : BitVec 64), s.takeMessage k 1 = (u, some b) ∧ u.ledger.starts.getD k none = none) :=
  ⟨⟨R, 3, by decide +kernel⟩,
    ⟨(R.onMeas fun x => { x with disRun := 2, curSum := [2000000, 0, 0], curN := [1, 1, 0] }), 3, by decide +kernel, by decide +kernel⟩,
    ⟨(R.onMeas fun x => { x with wrong := [true, false, false], agreeFrom := [some 0, none, none] }), 0, by decide +kernel⟩,
    ⟨station31 R (fun m => { m with sumRun := [0, 10] }), 31, 1, by decide +kernel⟩,
    ⟨station31 R (fun m => { m with unused := List.replicate 16 10 }), 31, 15, by decide +kernel⟩,
    ⟨cell511 R (fun c => { c with psRun := 9, n := 1, sumP := 1000000000 }), 511, by decide +kernel, by decide +kernel, by decide +kernel, by show State.shape _ = _; decide +kernel, by decide +kernel⟩,
    ⟨ringed R, 0, 5, by decide +kernel, by decide +kernel⟩,
    ⟨((ringed R).onMeas fun x => { x with stations := x.stations.set 0 { StationM.reset with oddAt := some 5 } }), 0, 5, by decide +kernel⟩,
    ⟨((ringed R).onMeas fun x => { x with stations := x.stations.set 0 { StationM.reset with taps := StationM.reset.taps.set 16 { Tap.reset with retestAt := some 5 } } }), 0, 16, 5, by decide +kernel⟩,
    ⟨((ringed R).onMeas fun x => { x with stations := x.stations.set 0 { StationM.reset with taps := StationM.reset.taps.set 16 { Tap.reset with ordered := true } } }), 0, 16, by decide +kernel, by decide +kernel⟩,
    ⟨(R.onRing fun x => { x with msgs := [⟨31, 3, 0, []⟩] }), _, 31, [], Prod.ext rfl (by decide +kernel)⟩,
    ⟨R, 31, 16, 0, by decide +kernel⟩,
    ⟨station31 R (fun m => { m with calStep := some 3 }), 31, 3, by decide +kernel⟩,
    ⟨(R.onRing fun x => { x with msgs := [⟨31, 5, 0, []⟩] }), _, 31, [], 201, Prod.ext rfl (by decide +kernel), by decide +kernel⟩,
    ⟨(R.onRing fun x => { x with msgs := [⟨33, 1, 0, []⟩] }), _, 33, [], 0, 0, Prod.ext rfl (by decide +kernel), by decide +kernel⟩⟩

theorem hyps_balancingCommands :
    (∃ (s : State) (n : Nat), Fld.balCfg_MODE s.cfg = 1 ∧ 30 * secNs ≤ s.meas.rest ∧ s.meas.lows.length ≠ 0)
    ∧ (∃ (s : State) (sum v : Int) (n c : Nat) (x : Cell), s.decisionVolt c = some v ∧ x.on = false)
    ∧ (∃ (s : State) (sum v : Int) (n c : Nat) (x : Cell), s.decisionVolt c = some v ∧ x.on = true)
    ∧ (∃ (s : State) (sum : Int) (n c : Nat) (x : Cell), s.decisionVolt c = none)
    ∧ (∃ (s : State), Fld.balCfg_MODE s.cfg = 2)
    ∧ (∃ (s : State) (c : Fin 512), Fld.balCfg_MODE s.cfg = 1 ∧ (s.cell c).on = true)
    ∧ (∃ (s u : State) (k : Fin 32) (b : List Byte), s.takeMessage k 4 = (u, some b) ∧ s.sized)
    ∧ (∃ (s u : State) (k : Fin 32) (b : List Byte), s.takeMessage k 4 = (u, some b) ∧ leAt b 2 2 < 10000 ∧ (u.stM k).deratedAt = none) :=
  ⟨⟨((cfg R [(0x0308, 1)]).onMeas fun x => { x with rest := 30000000000, lows := [(0, 3300000)] }), 3, by decide +kernel, by decide +kernel, by decide +kernel⟩,
    ⟨swept (clock R 4000000), 3300000, 3300000, 1, 15, Cell.reset, by decide +kernel, by decide +kernel⟩,
    ⟨swept (clock R 4000000), 3300000, 3300000, 1, 15, { Cell.reset with on := true }, by decide +kernel, by decide +kernel⟩,
    ⟨R, 3300000, 1, 511, Cell.reset, by decide +kernel⟩,
    ⟨cfg R [(0x0308, 2)], by decide +kernel⟩,
    ⟨cell511 (cfg R [(0x0308, 1)]) (fun c => { c with on := true }), 511, by decide +kernel, by decide +kernel⟩,
    ⟨(R.onRing fun x => { x with msgs := [⟨31, 4, 0, bytes [0, 0, 16, 39]⟩] }), _, 31, bytes [0, 0, 16, 39], Prod.ext rfl (by decide +kernel), by show State.shape _ = _; decide +kernel⟩,
    ⟨(R.onRing fun x => { x with msgs := [⟨31, 4, 0, []⟩] }), _, 31, [], Prod.ext rfl (by decide +kernel), by decide +kernel, by decide +kernel⟩⟩

theorem hyps_estimateCommands :
    (∃ (s : State) (g : Nat), s.est.release = some g)
    ∧ (∃ (s : State) (n : Nat), s.est.capN ≠ 0 ∧ s.est.capTold = none)
    ∧ (∃ (s : State), s.estBlocksDue = true)
    ∧ (∃ (s : State), s.estBlocksDue = false) :=
  ⟨⟨(R.onEst fun x => { x with release := some 4000000 }), 4000000, by decide +kernel⟩,
    ⟨(R.onEst fun x => { x with capN := 1, capMax := 3600000 }), 3, by decide +kernel, by decide +kernel⟩,
    ⟨((cfg R []).onEst fun x => { x with pubAt := 1000000000 }), by decide +kernel⟩,
    ⟨R, by decide +kernel⟩⟩

theorem hyps_impedanceCommands :
    (∃ (s : State) (r : Nat), s.est.imp.request = some r ∧ s.est.imp.phase = .idle ∧ s.gate.stage = .run ∧ (s.loop.diags.getD 2 Diag.reset).injecting = false)
    ∧ (∃ (s : State) (r : Nat), s.fabric.profile = 0 ∧ s.est.imp.request = some r ∧ r ≤ (s.advance s.impNext).now ∧ s.est.imp.phase = .idle ∧ s.gate.stage = .run ∧ (s.loop.diags.getD 2 Diag.reset).injecting = false)
    ∧ (∃ (s : State), s.fabric.profile = 0 ∧ s.est.imp.request = none ∧ s.est.imp.phase = .idle ∧ s.gate.stage = .run ∧ Fld.impCfg_ENABLE s.cfg = true ∧ (s.loop.diags.getD 2 Diag.reset).injecting = false)
    ∧ (∃ (s : State), s.fabric.profile = 0 ∧ s.est.imp.request = none ∧ s.est.imp.phase = .idle ∧ s.gate.stage ≠ .run)
    ∧ (∃ (s t : State) (q : Fin 32) (d : Desc), s.Turn q 0x30 anyArg d t ∧ t.est.imp.phase = .idle ∧ t.gate.stage = .run)
    ∧ (∃ (s : State), s.est.imp.phase = .waiting ∧ s.est.imp.waited = 0 ∧ s.impReady = true)
    ∧ (∃ (s : State), s.est.imp.phase = .waiting ∧ s.est.imp.waited = 0 ∧ s.impReady = false)
    ∧ (∃ (s : State), s.est.imp.phase = .waiting ∧ s.est.imp.waited ≠ 0 ∧ s.impReady = true)
    ∧ (∃ (s : State), s.est.imp.phase = .waiting ∧ 60 ≤ s.est.imp.waited ∧ s.impReady = false)
    ∧ (∃ (s : State), s.est.imp.phase = .measuring ∧ s.impDiscards = true)
    ∧ (∃ (s : State), s.est.imp.phase = .measuring ∧ s.impDiscards = false)
    ∧ (∃ (s : State), s.est.imp.win + 1 < segWindows s.est.imp.seg)
    ∧ (∃ (s : State), segWindows s.est.imp.seg ≤ s.est.imp.win + 1 ∧ s.est.imp.seg < 3)
    ∧ (∃ (s : State), segWindows s.est.imp.seg ≤ s.est.imp.win + 1 ∧ 3 ≤ s.est.imp.seg)
    ∧ (∃ (s u : State) (k : Fin 34) (b : List Byte), s.takeMessage k 2 = (u, some b))
    ∧ (∃ (s : State) (d : DoneRun) (l : List DoneRun), s.est.imp.done = d :: l)
    ∧ (∃ (s : State) (d : DoneRun) (c n : Nat) (v cur : Tone), s.toneOf d (c / 16) n = some v ∧ s.toneOf d (32 + s.primaryCs) n = some cur ∧ (s.point d c n).valid = true) :=
  ⟨⟨(running R).onEst (fun x => { x with imp := { x.imp with request := some 5 } }), 5, by decide +kernel, by decide +kernel, by decide +kernel, by decide +kernel⟩,
    ⟨((running R).onFabric fun x => { x with profile := 0 }).onEst (fun x => { x with imp := { x.imp with request := some 0 } }), 0, by decide +kernel, by decide +kernel, by decide +kernel, by decide +kernel, by decide +kernel, by decide +kernel⟩,
    ⟨((running R).onFabric fun x => { x with profile := 0 }), by decide +kernel, by decide +kernel, by decide +kernel, by decide +kernel, by decide +kernel, by decide +kernel⟩,
    ⟨(R.onFabric fun x => { x with profile := 0 }), by decide +kernel, by decide +kernel, by decide +kernel, by decide +kernel⟩,
    ⟨at_ ((R.onGate fun x => { x with stage := .run })) (desc 0x30 [] [] 0), _, 0, desc 0x30 [] [] 0, turn (by decide +kernel) (by decide +kernel) (by decide +kernel) (by decide +kernel), by decide +kernel, by decide +kernel⟩,
    ⟨(((R.onEst fun x => { x with imp := { x.imp with phase := .waiting } }).onGate (fun x => { x with stage := .run })).onDisp fun x => { x with limC := 10000000000, limD := -10000000000 }), by decide +kernel, by decide +kernel, by decide +kernel⟩,
    ⟨R.onEst fun x => { x with imp := { x.imp with phase := .waiting } }, by decide +kernel, by decide +kernel, by decide +kernel⟩,
    ⟨(((R.onEst fun x => { x with imp := { x.imp with phase := .waiting, waited := 60 } }).onGate (fun x => { x with stage := .run })).onDisp fun x => { x with limC := 10000000000, limD := -10000000000 }), by decide +kernel, by decide +kernel, by decide +kernel⟩,
    ⟨R.onEst fun x => { x with imp := { x.imp with phase := .waiting, waited := 60 } }, by decide +kernel, by decide +kernel, by decide +kernel⟩,
    ⟨R.onEst fun x => { x with imp := { x.imp with phase := .measuring, spoiled := true } }, by decide +kernel, by decide +kernel⟩,
    ⟨R.onEst fun x => { x with imp := { x.imp with phase := .measuring } }, by decide +kernel, by decide +kernel⟩,
    ⟨R.onEst fun x => { x with imp := { x.imp with seg := 3, win := 197 } }, by decide +kernel⟩,
    ⟨R.onEst fun x => { x with imp := { x.imp with seg := 2, win := 28 } }, by decide +kernel, by decide +kernel⟩,
    ⟨R.onEst fun x => { x with imp := { x.imp with seg := 3, win := 198 } }, by decide +kernel, by decide +kernel⟩,
    ⟨(R.onRing fun x => { x with msgs := [⟨33, 2, 0, []⟩] }), _, 33, [], Prod.ext rfl (by decide +kernel)⟩,
    ⟨R.onEst (fun x => { x with imp := { x.imp with done := [run0] } }), run0, [], by decide +kernel⟩,
    ⟨R.onEst (fun x => { x with imp := { x.imp with tones := [tone0 31, tone0 32] } }), run0, 511, 0, tone0 31, tone0 32, by decide +kernel, by decide +kernel, by decide +kernel⟩⟩

theorem hyps_ledgerCommands :
    (∃ (s : State) (i : Image), s.ledger.writing = some i ∧ s.ac23Reloading = false ∧ (i.bal.postAll s.ledger.adjDue).failed s.cellCount = none ∧ (s.ledger.bal.postAll s.ledger.adjDue).failed s.cellCount = none)
    ∧ (∃ (s : State) (i : Image), s.ledger.writing = some i ∧ s.ac23Reloading = false ∧ s.ledger.adjDue = [] ∧ s.nvmBarred = true)
    ∧ (∃ (s : State) (i : Image), s.ledger.writing = some i ∧ s.ac23Reloading = false ∧ s.ledger.adjDue = [] ∧ s.nvmBarred = false)
    ∧ (∃ (s : State) (i : Image), s.ledger.writing = some i ∧ (s.ac23Reloading = true ∨ s.ledger.adjDue ≠ []))
    ∧ (∃ (s : State) (i : Image) (g : Nat), s.ledger.gap = some i ∧ s.ledger.gapFrom = some g ∧ s.gapDue i = true)
    ∧ (∃ (s : State) (i : Image) (g : Nat), s.ledger.gap = some i ∧ s.ledger.gapFrom = some g ∧ s.gapDue i = false)
    ∧ (∃ (s t : State) (q : Fin 32) (d : Desc), s.Turn q 0x40 anyArg d t ∧ d.dataLen = 24 ∧ d.signed = false)
    ∧ (∃ (s t : State) (q : Fin 32) (d : Desc), s.Turn q 0x40 anyArg d t ∧ d.dataLen ≠ 24 ∧ d.signed = false)
    ∧ (∃ (s : State) (c : Cmd), s.ledger.books = true)
    ∧ (∃ (s t : State) (q : Fin 32) (d : Desc) (r : LedgerRec) (l : List LedgerRec), s.Turn q 0x41 anyArg d t ∧ d.argLe 0 8 ≤ d.argLe 8 8 ∧ t.ledger.store = r :: l ∧ r.lseq.toNat ≤ d.argLe 0 8)
    ∧ (∃ (s t : State) (q : Fin 32) (d : Desc) (r : LedgerRec) (l : List LedgerRec), s.Turn q 0x41 anyArg d t ∧ d.argLe 0 8 ≤ d.argLe 8 8 ∧ t.ledger.store = r :: l ∧ d.argLe 0 8 < r.lseq.toNat) :=
  ⟨⟨(R.onLedger fun x => { x with writing := some image0 }), image0, by decide +kernel, by decide +kernel, by decide +kernel, by decide +kernel⟩,
    ⟨((R.onLedger fun x => { x with writing := some image0 })).onTherm (fun x => { x with die := { x.die with barred := true } }), image0, by decide +kernel, by decide +kernel, by decide +kernel, by decide +kernel⟩,
    ⟨(R.onLedger fun x => { x with writing := some image0 }), image0, by decide +kernel, by decide +kernel, by decide +kernel, by decide +kernel⟩,
    ⟨(R.onLedger fun x => { x with writing := some image0, adjDue := [5] }), image0, by decide +kernel, by decide +kernel⟩,
    ⟨(R.onLedger fun x => { x with gap := some image0, gapFrom := some 8000000 }), image0, 8000000, by decide +kernel, by decide +kernel, by decide +kernel⟩,
    ⟨(((R.onLedger fun x => { x with gap := some image0, gapFrom := some 8000000 })).onTime fun x => { x with startWait := some 5 }), image0, 8000000, by decide +kernel, by decide +kernel, by decide +kernel⟩,
    ⟨at_ (R) (desc 0x40 [] (List.replicate 24 7) 0), _, 0, desc 0x40 [] (List.replicate 24 7) 0, turn (by decide +kernel) (by decide +kernel) (by decide +kernel) (by decide +kernel), by decide +kernel, by decide +kernel⟩,
    ⟨at_ (R) (desc 0x40 [] (List.replicate 23 7) 0), _, 0, desc 0x40 [] (List.replicate 23 7) 0, turn (by decide +kernel) (by decide +kernel) (by decide +kernel) (by decide +kernel), by decide +kernel, by decide +kernel⟩,
    ⟨(R.onLedger fun x => { x with open_ := true, serving := true }), ⟨0x40, [], []⟩, by decide +kernel⟩,
    ⟨at_ ((R.onLedger fun x => { x with store := [rec0 5] })) (desc 0x41 [5, 0, 0, 0, 0, 0, 0, 0, 5] [] 0), _, 0, desc 0x41 [5, 0, 0, 0, 0, 0, 0, 0, 5] [] 0, rec0 5, [], turn (by decide +kernel) (by decide +kernel) (by decide +kernel) (by decide +kernel), by decide +kernel, by decide +kernel, by decide +kernel⟩,
    ⟨at_ ((R.onLedger fun x => { x with store := [rec0 5] })) (desc 0x41 [4, 0, 0, 0, 0, 0, 0, 0, 4] [] 0), _, 0, desc 0x41 [4, 0, 0, 0, 0, 0, 0, 0, 4] [] 0, rec0 5, [], turn (by decide +kernel) (by decide +kernel) (by decide +kernel) (by decide +kernel), by decide +kernel, by decide +kernel, by decide +kernel⟩⟩

theorem hyps_postingsKeepTheCellEquation :
    ∃ (b : Balances) (n k : Nat), k < n ∧ k < b.c.length ∧ b.c.length = b.b.length ∧ b.c.length = b.a.length ∧ b.cellOk k = true ∧ b.sumsOk = true :=
  ⟨Balances.zero, 512, 511, by decide +kernel, by decide +kernel, by decide +kernel, by decide +kernel, by decide +kernel, by decide +kernel⟩

theorem hyps_gateCommands :
    (∃ (s : State) (p : Fin 16), s.edgesOn p = false)
    ∧ (∃ (s : State) (p : Fin 16), s.edgesOn p = true)
    ∧ (∃ (s : State) (p k : Nat) (x : PhaseLoop), s.phase p = x ∧ p < s.loop.phases.length ∧ x.ready = false)
    ∧ (∃ (s : State) (l : Fin 8) (b : List Byte) (x : Int), parseStatus l b = none)
    ∧ (∃ (s : State) (l : Fin 8) (b : List Byte) (x : Int) (f : StatusFrame), parseStatus l b = some f ∧ l.val < s.links ∧ s.isJoined = false)
    ∧ (∃ (s : State) (l : Fin 8) (b : List Byte) (x : Int) (f : StatusFrame), parseStatus l b = some f ∧ l.val < s.links ∧ s.isJoined = true)
    ∧ (∃ (s : State) (l : Fin 8), l.val < s.links ∧ (s.receiver l).started = true)
    ∧ (∃ (s : State) (l : Fin 8), (s.receiver l).started = false)
    ∧ (∃ (s : State) (l : Fin 8) (i : Ident) (a b : Nat), s.gate.starting = true ∧ l.val < s.links ∧ i.kind ≠ 2202)
    ∧ (∃ (s : State) (l : Fin 8) (i : Ident) (a b : Nat), s.gate.starting = true ∧ l.val < s.links ∧ i.kind = 2202 ∧ a = 2)
    ∧ (∃ (s : State) (l : Fin 8) (i : Ident) (a b : Nat), s.gate.starting = true ∧ l.val < s.links ∧ i.kind = 2202 ∧ a ≠ 2 ∧ s.isPair = true ∧ b = 1)
    ∧ (∃ (s : State) (l : Fin 8) (i : Ident) (a b : Nat), s.gate.starting = true ∧ l.val < s.links ∧ i.kind = 2202 ∧ wrongInput a b s.isPair = none ∧ s.sized ∧ i.version = s.life.parts.receiver)
    ∧ (∃ (s : State) (l : Fin 8) (i : Ident) (a b : Nat), s.gate.starting = true ∧ l.val < s.links ∧ i.kind = 2202 ∧ wrongInput a b s.isPair = none ∧ s.sized ∧ i.version ≠ s.life.parts.receiver)
    ∧ (∃ (s : State) (l : Fin 8), l.val < s.links ∧ (s.receiver l).known = true ∧ (s.gate.stage = .off ∨ s.gate.stage = .armed) ∧ s.sized)
    ∧ (∃ (s : State) (n : Nat), ((∀ l, (s.receiver l).delayN = 0)))
    ∧ (∃ (s : State) (n : Nat), s.links = 1 ∧ (s.receiver 0).delayN ≠ 0 ∧ s.sized) :=
  ⟨⟨R, 15, by decide +kernel⟩,
    ⟨linked 7, 13, by decide +kernel⟩,
    ⟨R, 15, 4, PhaseLoop.reset, by decide +kernel, by decide +kernel, by decide +kernel⟩,
    ⟨R, 7, [], 0, by decide +kernel⟩,
    ⟨linked 8, 7, status7, 0, statusFrame, by decide +kernel, by decide +kernel, by decide +kernel⟩,
    ⟨((linked 8).onTwin fun x => { x with st := .joined }), 7, status7, 0, statusFrame, by decide +kernel, by decide +kernel, by decide +kernel⟩,
    ⟨((linked 8).onGate fun x => { x with receivers := x.receivers.set 7 { Receiver.reset with started := true } }), 7, by decide +kernel, by decide +kernel⟩,
    ⟨R, 7, by decide +kernel⟩,
    ⟨((linked 8).onGate fun x => { x with starting := true }), 7, ⟨7, 0, 0, 0⟩, 1, 0, by decide +kernel, by decide +kernel, by decide +kernel⟩,
    ⟨((linked 8).onGate fun x => { x with starting := true }), 7, ⟨2202, 0, 0, 0⟩, 2, 0, by decide +kernel, by decide +kernel, by decide +kernel, by decide +kernel⟩,
    ⟨((pairLinked 8).onGate fun x => { x with starting := true }), 7, ⟨2202, 0, 0, 0⟩, 1, 1, by decide +kernel, by decide +kernel, by decide +kernel, by decide +kernel, by decide +kernel, by decide +kernel⟩,
    ⟨((linked 8).onGate fun x => { x with starting := true }), 7, ⟨2202, 0, 0, 9⟩, 1, 0, by decide +kernel, by decide +kernel, by decide +kernel, by decide +kernel, by show State.shape _ = _; decide +kernel, by decide +kernel⟩,
    ⟨((linked 8).onGate fun x => { x with starting := true }), 7, ⟨2202, 0, 5, 9⟩, 1, 0, by decide +kernel, by decide +kernel, by decide +kernel, by decide +kernel, by show State.shape _ = _; decide +kernel, by decide +kernel⟩,
    ⟨((linked 8).onGate fun x => { x with receivers := x.receivers.map (fun r => { r with known := true }) }), 7, by decide +kernel, by decide +kernel, by decide +kernel, by show State.shape _ = _; decide +kernel⟩,
    ⟨R, 3, (fun l => by rcases l with _|_|_|_|_|_|_|_|l <;> rfl)⟩,
    ⟨((linked 1).onGate fun x => { x with receivers := x.receivers.set 0 { Receiver.reset with delayN := 1 } }), 3, by decide +kernel, by decide +kernel, by show State.shape _ = _; decide +kernel⟩⟩

theorem hyps_stageCommands :
    (∃ (s t : State) (q : Fin 32) (d : Desc), s.Turn q 0x11 (op0 1) d t ∧ t.plantActive = false ∧ t.enableStatus = St.ok)
    ∧ (∃ (s t : State) (q : Fin 32) (d : Desc), s.Turn q 0x11 (op0 2) d t)
    ∧ (∃ (s t : State) (q : Fin 32) (d : Desc), s.Turn q 0x11 (op0 3) d t)
    ∧ (∃ (s t : State) (q : Fin 32) (d : Desc), s.Turn q 0x11 (op0 4) d t ∧ t.tripResetStatus = St.ok)
    ∧ (∃ (s t : State) (q : Fin 32) (d : Desc), s.Turn q 0x11 (op0 4) d t ∧ t.gate.stage = .tripped ∧ t.now < t.gate.tripAt + 1000000000)
    ∧ (∃ (s t : State) (q : Fin 32) (d : Desc), s.Turn q 0x11 (op0 1) d t ∧ t.plantActive = true)
    ∧ (∃ (s t : State) (q : Fin 32) (d : Desc), s.Turn q 0x11 (op0 1) d t ∧ t.plantActive = false ∧ t.enableStatus = St.stageNotReady)
    ∧ (∃ (s : State), s.life.guard_ = true)
    ∧ (∃ (s : State), s.life.guard_ = false ∧ s.contactorsOn = false)
    ∧ (∃ (s : State), s.gate.stage = .startDelay)
    ∧ (∃ (s : State), s.gate.stage = .stopDelay)
    ∧ (∃ (s : State), s.gate.stage = .stopRamp ∧ s.loop.r = 0 ∧ mag (s.meas.iLast.getD 0) * 100 ≤ s.rated * 1000)
    ∧ (∃ (s : State), s.gate.stage = .stopRamp ∧ s.gate.modeOff = false)
    ∧ (∃ (s : State) (a : Nat), s.gate.armAt = some a ∧ s.links = 1 ∧ (s.receiver 0).rstate = .stopped)
    ∧ (∃ (s : State) (a b c d : Nat), s.gate.stage = .off)
    ∧ (∃ (s : State) (a b c d : Nat), s.gate.stage = .tripped)
    ∧ (∃ (s : State) (a b c d : Nat), s.gate.stage ≠ .off ∧ s.gate.stage ≠ .tripped) :=
  ⟨⟨at_ ((R.onGate fun x => { x with stage := .run })) (desc 0x11 [1] [] 0), _, 0, desc 0x11 [1] [] 0, turn (by decide +kernel) (by decide +kernel) (by decide +kernel) (by decide +kernel), by decide +kernel, by decide +kernel⟩,
    ⟨at_ (R) (desc 0x11 [2] [] 0), _, 0, desc 0x11 [2] [] 0, turn (by decide +kernel) (by decide +kernel) (by decide +kernel) (by decide +kernel)⟩,
    ⟨at_ (R) (desc 0x11 [3] [] 0), _, 0, desc 0x11 [3] [] 0, turn (by decide +kernel) (by decide +kernel) (by decide +kernel) (by decide +kernel)⟩,
    ⟨at_ (R) (desc 0x11 [4] [] 0), _, 0, desc 0x11 [4] [] 0, turn (by decide +kernel) (by decide +kernel) (by decide +kernel) (by decide +kernel), by decide +kernel⟩,
    ⟨at_ ((R.onGate fun x => { x with stage := .tripped })) (desc 0x11 [4] [] 0), _, 0, desc 0x11 [4] [] 0, turn (by decide +kernel) (by decide +kernel) (by decide +kernel) (by decide +kernel), by decide +kernel, by decide +kernel⟩,
    ⟨at_ (cfg R [(0x0800, 1)]) (desc 0x11 [1] [] 0), _, 0, desc 0x11 [1] [] 0, turn (by decide +kernel) (by decide +kernel) (by decide +kernel) (by decide +kernel), by decide +kernel⟩,
    ⟨at_ (R) (desc 0x11 [1] [] 0), _, 0, desc 0x11 [1] [] 0, turn (by decide +kernel) (by decide +kernel) (by decide +kernel) (by decide +kernel), by decide +kernel, by decide +kernel⟩,
    ⟨R, by decide +kernel⟩,
    ⟨wired (free R), by decide +kernel, by decide +kernel⟩,
    ⟨(R.onGate fun x => { x with stage := .startDelay }), by decide +kernel⟩,
    ⟨(R.onGate fun x => { x with stage := .stopDelay }), by decide +kernel⟩,
    ⟨(R.onGate fun x => { x with stage := .stopRamp }), by decide +kernel, by decide +kernel, by decide +kernel⟩,
    ⟨(R.onGate fun x => { x with stage := .stopRamp }), by decide +kernel, by decide +kernel⟩,
    ⟨((linked 1).onGate fun x => { x with armAt := some 5, receivers := x.receivers.set 0 { Receiver.reset with rstate := .stopped } }), 5, by decide +kernel, by decide +kernel, by decide +kernel⟩,
    ⟨R, 1, 2, 3, 4, by decide +kernel⟩,
    ⟨(R.onGate fun x => { x with stage := .tripped }), 1, 2, 3, 4, by decide +kernel⟩,
    ⟨(R.onGate fun x => { x with stage := .armed }), 7, 2, 3, 4, by decide +kernel, by decide +kernel⟩⟩

theorem hyps_faultRecordCommands :
    (∃ (s : State), Fld.telemCfg_WINDOW s.cfg ≠ 0)
    ∧ (∃ (s t : State) (q : Fin 32) (d : Desc), s.Turn q 0x31 anyArg d t ∧ 96 ≤ d.respLen)
    ∧ (∃ (s : State) (r : FaultRec), s.gate.captures = [⟨r, false⟩] ∧ 32768 ≤ r.data.length)
    ∧ (∃ (s : State) (r x : FaultRec), s.gate.captures = [⟨x, true⟩, ⟨r, false⟩] ∧ 32768 ≤ r.data.length ∧ x.cls = r.cls)
    ∧ (∃ (s : State) (r : FaultRec), s.nvmBarred = false ∧ s.gate.captures = [⟨r, true⟩])
    ∧ (∃ (s : State), s.nvmBarred = true)
    ∧ (∃ (s t : State) (q : Fin 32) (d : Desc) (r : FaultRec), s.Turn q 0x32 anyArg d t ∧ d.argByte 0 ≤ 11 ∧ d.argByte 1 = 1 ∧ t.gate.slots.getD (d.argByte 0) none = some r ∧ 65792 ≤ d.respLen)
    ∧ (∃ (r : FaultRec), r.data.length = 32768)
    ∧ (∃ (s t : State) (q : Fin 32) (d : Desc), s.Turn q 0x32 anyArg d t ∧ d.argByte 0 ≤ 11 ∧ d.argByte 1 ≤ 1 ∧ t.gate.slots.getD (d.argByte 0) none = none) :=
  ⟨⟨cfg R [(0x0418, 1000)], by decide +kernel⟩,
    ⟨at_ (R) (desc 0x31 [] [] 96), _, 0, desc 0x31 [] [] 96, turn (by decide +kernel) (by decide +kernel) (by decide +kernel) (by decide +kernel), by decide +kernel⟩,
    ⟨(R.onGate fun x => { x with captures := [⟨fault 32768, false⟩] }), fault 32768, rfl, long 32768 0⟩,
    ⟨(R.onGate fun x => { x with captures := [⟨fault 0, true⟩, ⟨fault 32768, false⟩] }), fault 32768, fault 0, rfl, long 32768 0, rfl⟩,
    ⟨(R.onGate fun x => { x with captures := [⟨fault 0, true⟩] }), fault 0, by decide +kernel, by decide +kernel⟩,
    ⟨R.onTherm (fun x => { x with die := { x.die with barred := true } }), by decide +kernel⟩,
    ⟨at_ ((R.onGate fun x => { x with slots := x.slots.set 11 (some (fault 0)) })) (desc 0x32 [11, 1] [] 65792), _, 0, desc 0x32 [11, 1] [] 65792, fault 0, turn (by decide +kernel) (by decide +kernel) (by decide +kernel) (by decide +kernel), by decide +kernel, by decide +kernel, by decide +kernel, by decide +kernel⟩,
    ⟨fault 32768, List.length_replicate⟩,
    ⟨at_ (R) (desc 0x32 [11, 1] [] 65792), _, 0, desc 0x32 [11, 1] [] 65792, turn (by decide +kernel) (by decide +kernel) (by decide +kernel) (by decide +kernel), by decide +kernel, by decide +kernel, by decide +kernel⟩⟩

theorem hyps_loopCommands :
    (∃ (s : State), s.gate.stage = .run ∧ s.loop.tgtMode ≠ 2)
    ∧ (∃ (s : State), s.gate.stage = .run ∧ s.loop.tgtMode = 2)
    ∧ (∃ (s : State), s.gate.stage = .stopRamp)
    ∧ (∃ (s : State), s.gate.stage = .ramp)
    ∧ (∃ (s : State), (s.gate.stage = .off ∨ s.gate.stage = .armed ∨ s.gate.stage = .tripped))
    ∧ (∃ (s : State) (p : Fin 16), s.computesPhase p = false)
    ∧ (∃ (s : State) (p : Fin 16), s.computesPhase p = true)
    ∧ (∃ (s : State) (p k release : Nat), p < s.gate.phases.length ∧ (s.rx p).seq ≠ BitVec.ofNat 32 k)
    ∧ (∃ (s : State) (g m : Nat) (v : Int) (l : List (Nat × Int × Nat)), s.loop.targets = (g, v, m) :: l)
    ∧ (∃ (s : State) (a l : Nat), s.loop.lowSince = some a ∧ s.linksOn.getLast? = some l ∧ s.mayShed = true)
    ∧ (∃ (s : State), s.mayShed = false)
    ∧ (∃ (s : State) (n : Nat), s.loop.shed = .dwell n) :=
  ⟨⟨running R, by decide +kernel, by decide +kernel⟩,
    ⟨((running R).onLoop fun x => { x with tgtMode := 2 }), by decide +kernel, by decide +kernel⟩,
    ⟨(R.onGate fun x => { x with stage := .stopRamp }), by decide +kernel⟩,
    ⟨(R.onGate fun x => { x with stage := .ramp }), by decide +kernel⟩,
    ⟨(R.onGate fun x => { x with stage := .tripped }), by decide +kernel⟩,
    ⟨R, 15, by decide +kernel⟩,
    ⟨running (phasesIn (linked 8)), 15, by decide +kernel⟩,
    ⟨R, 15, 3, 5, by decide +kernel, by decide +kernel⟩,
    ⟨(R.onLoop fun x => { x with targets := [(4000000, -5, 0)] }), 4000000, 0, -5, [], by decide +kernel⟩,
    ⟨((running (phasesIn (cfg R [(0x0400, 0x0001142A), (0x051C, 1)]))).onLoop fun x => { x with lowSince := some 5 }), 5, 1, by decide +kernel, by decide +kernel, by decide +kernel⟩,
    ⟨R, by decide +kernel⟩,
    ⟨(R.onLoop fun x => { x with shed := .dwell 9 }), 9, by decide +kernel⟩⟩

theorem hyps_diagCommands :
    (∃ (s t : State) (q : Fin 32) (d : Desc), s.Turn q 0x33 (op0 1) d t ∧ d.argByte 1 ≤ 3 ∧ Fld.diagCfg_USE t.cfg (d.argByte 1) ≠ 0 ∧ t.diagDelivering (d.argByte 1) = false ∧ (t.diag (d.argByte 1)).st = .idle)
    ∧ (∃ (s t : State) (q : Fin 32) (d : Desc), s.Turn q 0x33 (op0 1) d t ∧ d.argByte 1 ≤ 3 ∧ Fld.diagCfg_USE t.cfg (d.argByte 1) = 0)
    ∧ (∃ (s t : State) (q : Fin 32) (d : Desc), s.Turn q 0x33 (op0 2) d t ∧ d.argByte 1 ≤ 3 ∧ Fld.diagCfg_USE t.cfg (d.argByte 1) = 2 ∧ (t.diag (d.argByte 1)).st = .armed ∧ t.gate.stage = .run ∧ t.est.imp.phase = .idle)
    ∧ (∃ (s t : State) (q : Fin 32) (d : Desc), s.Turn q 0x33 (op0 2) d t ∧ d.argByte 1 ≤ 3 ∧ Fld.diagCfg_USE t.cfg (d.argByte 1) = 2 ∧ (t.diag (d.argByte 1)).st = .armed ∧ t.gate.stage ≠ .run)
    ∧ (∃ (s : State) (e : Nat), (s.diag e).st = .armed ∧ s.gate.stage = .run)
    ∧ (∃ (s t : State) (q : Fin 32) (d : Desc), s.Turn q 0x33 (op0 3) d t ∧ d.argByte 1 ≤ 3)
    ∧ (∃ (s : State) (e : Fin 4), (s.diag e).st = .armed ∧ (s.diag e).use = 1 ∧ s.diagMet e = true)
    ∧ (∃ (s : State) (e : Nat) (a b : Int), Fld.diagCfg_TRIG s.cfg e = 1 ∧ (s.diag e).level = [b, a])
    ∧ (∃ (s : State) (e : Fin 4), (s.diag e).st = .capturing ∧ (s.diag e).mem.length = 16384)
    ∧ (∃ (s : State) (w : WaitCmd), s.host.waiting.find? (fun w => decide (w.cmd.opcode = 0x33) && w.own) = some w ∧ w.expires < 2 ^ 64) :=
  ⟨⟨at_ (cfg R [(0x054C, 1)]) (desc 0x33 [1, 3] [] 0), _, 0, desc 0x33 [1, 3] [] 0, turn (by decide +kernel) (by decide +kernel) (by decide +kernel) (by decide +kernel), by decide +kernel, by decide +kernel, by decide +kernel, by decide +kernel⟩,
    ⟨at_ (R) (desc 0x33 [1, 3] [] 0), _, 0, desc 0x33 [1, 3] [] 0, turn (by decide +kernel) (by decide +kernel) (by decide +kernel) (by decide +kernel), by decide +kernel, by decide +kernel⟩,
    ⟨at_ (running (diag3 (cfg R [(0x054C, 2)]) { Diag.reset with st := .armed })) (desc 0x33 [2, 3] [] 0), _, 0, desc 0x33 [2, 3] [] 0, turn (by decide +kernel) (by decide +kernel) (by decide +kernel) (by decide +kernel), by decide +kernel, by decide +kernel, by decide +kernel, by decide +kernel, by decide +kernel⟩,
    ⟨at_ (diag3 (cfg R [(0x054C, 2)]) { Diag.reset with st := .armed }) (desc 0x33 [2, 3] [] 0), _, 0, desc 0x33 [2, 3] [] 0, turn (by decide +kernel) (by decide +kernel) (by decide +kernel) (by decide +kernel), by decide +kernel, by decide +kernel, by decide +kernel, by decide +kernel⟩,
    ⟨running (diag3 R { Diag.reset with st := .armed }), 3, by decide +kernel, by decide +kernel⟩,
    ⟨at_ (R) (desc 0x33 [3, 3] [] 0), _, 0, desc 0x33 [3, 3] [] 0, turn (by decide +kernel) (by decide +kernel) (by decide +kernel) (by decide +kernel), by decide +kernel⟩,
    ⟨diag3 (cfg R [(0x054C, 0x41)]) { Diag.reset with st := .armed, use := 1, level := [5, -3] }, 3, by decide +kernel, by decide +kernel, by decide +kernel⟩,
    ⟨(cfg R [(0x054C, 0x40)]).onLoop (fun x => { x with diags := x.diags.set 3 { Diag.reset with level := [5, 3] } }), 3, 3, 5, by decide +kernel, by decide +kernel⟩,
    ⟨diag3 R { Diag.reset with st := .capturing, mem := List.replicate 16384 [] }, 3, by decide +kernel, List.length_replicate ..⟩,
    ⟨(R.onHost fun x => { x with waiting := [⟨⟨0x33, [], []⟩, true, false, 10000000000⟩] }), ⟨⟨0x33, [], []⟩, true, false, 10000000000⟩, by decide +kernel, by decide +kernel⟩⟩

theorem hyps_thermalCommands :
    (∃ (s : State) (pins : List (Option Int)) (tach : List Nat), s.therm.running = true ∧ (s.fabric.engines.getD 15 Engine.reset).reloading = false)
    ∧ (∃ (s : State) (n period : Nat), period ≠ 0)
    ∧ (∃ (s : State) (pins : List (Option Int)) (i : Nat) (x : Sensor), 256 ≤ i ∧ x.failed = false ∧ 3 ≤ x.bad + 1 ∧ (s.sensorZone i).isSome = true ∧ (pins.getD (i - 256) none).filter (s.inRange i) = none ∧ s.peerPin x = none)
    ∧ (∃ (s : State) (pins : List (Option Int)) (rpm : List Nat), s.therm.running = false)
    ∧ (∃ (s t : State) (q : Fin 32) (d : Desc), s.Turn q 0x14 anyArg d t ∧ t.mayAck (d.argByte 0) = true)
    ∧ (∃ (s t : State) (q : Fin 32) (d : Desc), s.Turn q 0x14 anyArg d t ∧ t.mayAck (d.argByte 0) = false)
    ∧ (∃ (s : State) (n : Nat), s.mayAck n = true)
    ∧ (∃ (s : State) (w : WaitCmd), s.host.waiting.find? (fun w => decide (w.cmd.opcode = 0x14) && w.own) = some w ∧ w.expires < 2 ^ 64)
    ∧ (∃ (s : State) (a b c d : Int), dieTemp [a, b, c, d] < 1250)
    ∧ (∃ (s : State) (a b c d : Int), 1250 ≤ dieTemp [a, b, c, d] ∧ s.therm.die.shutdown = none ∧ s.therm.die.off = false ∧ s.actsSingle = true)
    ∧ (∃ (s : State) (a b c d : Int), 1250 ≤ dieTemp [a, b, c, d] ∧ s.therm.die.shutdown = none ∧ s.therm.die.off = false ∧ s.actsSingle = false ∧ s.twin.st = .joined)
    ∧ (∃ (s : State) (n : Nat), s.therm.die.shutdown = some n ∧ s.therm.die.off = false) :=
  ⟨⟨(R.onTherm fun x => { x with running := true }), [], [], by decide +kernel, by decide +kernel⟩,
    ⟨R, 3, 1000000, by decide +kernel⟩,
    ⟨cfg R [(0x0600, 1)], [], 256, { Sensor.reset with bad := 2 }, by decide +kernel, by decide +kernel, by decide +kernel, by decide +kernel, by decide +kernel, by decide +kernel⟩,
    ⟨R, [], [], by decide +kernel⟩,
    ⟨at_ (coreReady) (desc 0x14 [0] [] 0), _, 0, desc 0x14 [0] [] 0, turn (by decide +kernel) (by decide +kernel) (by decide +kernel) (by decide +kernel), by decide +kernel⟩,
    ⟨at_ (R) (desc 0x14 [255] [] 0), _, 0, desc 0x14 [255] [] 0, turn (by decide +kernel) (by decide +kernel) (by decide +kernel) (by decide +kernel), by decide +kernel⟩,
    ⟨coreReady, 0, by decide +kernel⟩,
    ⟨(R.onHost fun x => { x with waiting := [⟨⟨0x14, [], []⟩, true, false, 10000000000⟩] }), ⟨⟨0x14, [], []⟩, true, false, 10000000000⟩, by decide +kernel, by decide +kernel⟩,
    ⟨R, 1249, 1249, 1249, 1400, by decide +kernel⟩,
    ⟨R, 1250, 1250, 1250, 1400, by decide +kernel, by decide +kernel, by decide +kernel, by decide +kernel⟩,
    ⟨senior, 1250, 1250, 1250, 1400, by decide +kernel, by decide +kernel, by decide +kernel, by decide +kernel, by decide +kernel⟩,
    ⟨R.onTherm (fun x => { x with die := { x.die with shutdown := some 5 } }), 5, by decide +kernel, by decide +kernel⟩⟩

theorem hyps_zoneSteps :
    (∃ (s : State) (z : Nat) (held : Bool) (x : Zone), s.therm.first = false ∧ x.hi < s.hiTarget z x.hot ∧ x.hiAt = none)
    ∧ (∃ (s : State) (z a : Nat) (held : Bool) (x : Zone), s.therm.first = false ∧ x.hiAt = some a ∧ s.now < a + s.gap ∧ ((held = true ∨ x.hiRelax = none ∧ 0 < s.dwell)))
    ∧ (∃ (s : State) (z a : Nat) (v : Int) (x : Zone), s.therm.first = false ∧ x.hot = some v ∧ v ≤ s.hiEntry z x.hi - s.hyst ∧ s.hiTarget z x.hot ≤ x.hi ∧ x.hi ≠ 0 ∧ x.hiRelax = some a ∧ a + s.dwell ≤ s.now)
    ∧ (∃ (s : State) (z : Nat) (held : Bool) (x : Zone), s.therm.first = false ∧ x.lo < s.loTarget z x.cold ∧ x.loAt = none)
    ∧ (∃ (s : State) (z a : Nat) (v : Int) (x : Zone), s.therm.first = false ∧ x.cold = some v ∧ s.loEntry7 z x.lo + 7 * s.hyst ≤ 7 * v ∧ s.loTarget z x.cold ≤ x.lo ∧ x.lo ≠ 0 ∧ x.loRelax = some a ∧ a + s.dwell ≤ s.now)
    ∧ (∃ (s : State) (z : Nat) (l : List Contribution) (c : Contribution) (x : Zone), x.trip = 0 ∧ c ∈ l ∧ 100 * Fld.tzHi_TRIP_HI s.cfg z < c.hi)
    ∧ (∃ (s : State) (z : Nat) (x : Zone), x.trip = 0) :=
  ⟨⟨(R.onTherm fun x => { x with first := false }), 7, true, { Zone.reset with hot := some 4700 }, by decide +kernel, by decide +kernel, by decide +kernel⟩,
    ⟨(R.onTherm fun x => { x with first := false }), 7, 0, true, { Zone.reset with hiAt := some 0 }, by decide +kernel, by decide +kernel, by decide +kernel, by decide +kernel⟩,
    ⟨clock ((R.onTherm fun x => { x with first := false })) 60000000000, 7, 0, 4500, { Zone.reset with hot := some 4500, hi := 1, hiRelax := some 0 }, by decide +kernel, by decide +kernel, by decide +kernel, by decide +kernel, by decide +kernel, by decide +kernel, by decide +kernel⟩,
    ⟨(R.onTherm fun x => { x with first := false }), 7, true, { Zone.reset with cold := some 1500 }, by decide +kernel, by decide +kernel, by decide +kernel⟩,
    ⟨clock ((R.onTherm fun x => { x with first := false })) 60000000000, 7, 0, 1700, { Zone.reset with cold := some 1700, lo := 1, loRelax := some 0 }, by decide +kernel, by decide +kernel, by decide +kernel, by decide +kernel, by decide +kernel, by decide +kernel, by decide +kernel⟩,
    ⟨R, 7, [⟨7, 0, 0, 6501, none⟩], ⟨7, 0, 0, 6501, none⟩, Zone.reset, by decide +kernel, by decide +kernel, by decide +kernel⟩,
    ⟨R, 7, Zone.reset, by decide +kernel⟩⟩

theorem hyps_dispatchCommands :
    (∃ (s t : State) (q : Fin 32) (d : Desc), s.Turn q 0x10 (fun x => decide (x.argByte 12 = 1)) d t ∧ (t.dispCheck 0 (dispBody d.arg)).1 = St.ok ∧ t.takeCopy d.cmd 0 = none)
    ∧ (∃ (s t : State) (q : Fin 32) (d : Desc), s.Turn q 0x10 (fun x => decide (x.argByte 12 = 2)) d t ∧ (t.dispCheck 0 (dispBody d.arg)).1 = St.ok ∧ t.takeCopy d.cmd 0 = none)
    ∧ (∃ (s t : State) (q : Fin 32) (d : Desc), s.Turn q 0x10 (fun x => decide (x.argByte 12 = 3)) d t ∧ (t.dispCheck 0 (dispBody d.arg)).1 = St.ok ∧ t.takeCopy d.cmd 0 = none)
    ∧ (∃ (s t : State) (q : Fin 32) (d : Desc), s.Turn q 0x10 (fun x => decide (x.argByte 12 = 4)) d t ∧ (t.dispCheck 0 (dispBody d.arg)).1 = St.ok ∧ t.takeCopy d.cmd 0 = none)
    ∧ (∃ (s t : State) (q : Fin 32) (d : Desc), s.Turn q 0x10 (fun x => decide (x.argByte 12 = 5)) d t ∧ (t.dispCheck 0 (dispBody d.arg)).1 = St.ok ∧ t.takeCopy d.cmd 0 = none)
    ∧ (∃ (s t : State) (q : Fin 32) (d : Desc), s.Turn q 0x10 (fun x => decide (x.argByte 12 = 6)) d t ∧ (t.dispCheck 0 (dispBody d.arg)).1 = St.ok ∧ t.takeCopy d.cmd 0 = none)
    ∧ (∃ (s t : State) (q : Fin 32) (d : Desc), s.Turn q 0x10 (fun x => decide (x.argByte 12 = 1)) d t ∧ t.takeCopy d.cmd 0 = none ∧ (t.dispCheck 0 (dispBody d.arg)).1 ≠ St.ok)
    ∧ (∃ (s : State) (d : DispBody), d.resv = none ∧ 1 ≤ d.kind ∧ d.kind ≤ 3 ∧ s.plantActive = true)
    ∧ (∃ (s : State) (d : DispBody), d.resv = none ∧ 1 ≤ d.kind ∧ d.kind ≤ 3 ∧ s.plantActive = false ∧ d.at_ = 0 ∧ d.range = none)
    ∧ (∃ (s : State) (d : DispBody), d.kind = 6 ∧ d.resv = none ∧ s.plantActive = false ∧ d.at_ = 0 ∧ d.value = 0 ∧ d.value2 = 0 ∧ newerSeq (s.disp.seq.getD 0 none) d.seq = true)
    ∧ (∃ (s : State) (src : Nat) (c : Cmd) (d : DispBody), s.isPair = false ∧ (d.kind ≤ 3 ∨ d.kind = 6))
    ∧ (∃ (s : State) (w : DispWait), s.disp.waiting = [w])
    ∧ (∃ (s : State) (w : DispWait) (n : Nat), s.ac01Reloading = false ∧ s.disp.waiting = [w] ∧ w.due ≤ n)
    ∧ (∃ (s : State) (n : Nat) (sp : Setpoint), s.disp.holdTill = some n ∧ s.disp.sp = some sp) :=
  ⟨⟨at_ (cfg R [(0x0500, 0)]) (desc 0x10 (dispArg 1 [128, 132, 30, 0]) [] 0), _, 0, desc 0x10 (dispArg 1 [128, 132, 30, 0]) [] 0, turn (by decide +kernel) (by decide +kernel) (by decide +kernel) (by decide +kernel), by decide +kernel, by decide +kernel⟩,
    ⟨at_ (cfg R [(0x0500, 1)]) (desc 0x10 (dispArg 2 [0, 9, 61, 0]) [] 0), _, 0, desc 0x10 (dispArg 2 [0, 9, 61, 0]) [] 0, turn (by decide +kernel) (by decide +kernel) (by decide +kernel) (by decide +kernel), by decide +kernel, by decide +kernel⟩,
    ⟨at_ (cfg R [(0x0500, 2)]) (desc 0x10 (dispArg 3 [192, 145, 33, 0]) [] 0), _, 0, desc 0x10 (dispArg 3 [192, 145, 33, 0]) [] 0, turn (by decide +kernel) (by decide +kernel) (by decide +kernel) (by decide +kernel), by decide +kernel, by decide +kernel⟩,
    ⟨at_ (R) (desc 0x10 (dispArg 4 [128, 132, 30, 0, 128, 123, 225, 255]) [] 0), _, 0, desc 0x10 (dispArg 4 [128, 132, 30, 0, 128, 123, 225, 255]) [] 0, turn (by decide +kernel) (by decide +kernel) (by decide +kernel) (by decide +kernel), by decide +kernel, by decide +kernel⟩,
    ⟨at_ (R) (desc 0x10 (dispArg 5 [0, 9, 61, 0, 0, 247, 194, 255]) [] 0), _, 0, desc 0x10 (dispArg 5 [0, 9, 61, 0, 0, 247, 194, 255]) [] 0, turn (by decide +kernel) (by decide +kernel) (by decide +kernel) (by decide +kernel), by decide +kernel, by decide +kernel⟩,
    ⟨at_ (R) (desc 0x10 (dispArg 6 []) [] 0), _, 0, desc 0x10 (dispArg 6 []) [] 0, turn (by decide +kernel) (by decide +kernel) (by decide +kernel) (by decide +kernel), by decide +kernel, by decide +kernel⟩,
    ⟨at_ (cfg R [(0x0500, 0)]) (desc 0x10 (dispArg 1 [129, 132, 30, 0]) [] 0), _, 0, desc 0x10 (dispArg 1 [129, 132, 30, 0]) [] 0, turn (by decide +kernel) (by decide +kernel) (by decide +kernel) (by decide +kernel), by decide +kernel, by decide +kernel⟩,
    ⟨cfg R [(0x0800, 1)], ⟨0, 1, 3, none, 0, 0, 0⟩, by decide +kernel, by decide +kernel, by decide +kernel, by decide +kernel⟩,
    ⟨cfg R [(0x0500, 0)], ⟨0, 1, 3, none, 2200000, 2200000, 0⟩, by decide +kernel, by decide +kernel, by decide +kernel, by decide +kernel, by decide +kernel, by decide +kernel⟩,
    ⟨(R.onDisp fun x => { x with seq := [some 0, none] }), ⟨0, 0x80000000, 6, none, 0, 0, 0⟩, by decide +kernel, by decide +kernel, by decide +kernel, by decide +kernel, by decide +kernel, by decide +kernel, by decide +kernel⟩,
    ⟨R, 1, ⟨0x10, [], []⟩, ⟨0, 1, 3, none, 0, 0, 0⟩, by decide +kernel, by decide +kernel⟩,
    ⟨(R.onDisp fun x => { x with waiting := [dispWait 1] }), dispWait 1, by decide +kernel⟩,
    ⟨(R.onDisp fun x => { x with waiting := [dispWait 1] }), dispWait 1, 1000000000, by decide +kernel, by decide +kernel, by decide +kernel⟩,
    ⟨(R.onDisp fun x => { x with holdTill := some 5, sp := some ⟨1, 5⟩ }), 5, ⟨1, 5⟩, by decide +kernel, by decide +kernel⟩⟩

theorem hyps_dispatchEffectsAndReports :
    (∃ (s : State) (w : DispWait), w.kind ≤ 3)
    ∧ (∃ (s : State) (w : DispWait), (w.kind = 4 ∨ w.kind = 5))
    ∧ (∃ (s : State) (w : DispWait), w.kind = 6)
    ∧ (∃ (s : State) (i : Nat) (v e : Int), i < s.disp.terms.length ∧ s.budgetTarget i = some v ∧ (s.disp.terms.getD i ⟨none, false⟩).eff = some e ∧ e ≤ v)
    ∧ (∃ (s : State) (i : Nat) (v e : Int), i < s.disp.terms.length ∧ s.budgetTarget i = some v ∧ s.disp.terms.getD i ⟨none, false⟩ = ⟨some e, false⟩ ∧ v < e)
    ∧ (∃ (t : BudgetTerm) (v e step : Int), t.eff = some e ∧ t.draining = true ∧ v < e)
    ∧ (∃ (s : State) (n : Nat), s.computes = true ∧ s.ac01Reloading = false)
    ∧ (∃ (s : State) (e : Envelope) (a n : Nat), s.disp.envNext = some (a, e) ∧ a < n)
    ∧ (∃ (s : State), s.avail = s.disp.avail ∧ stageCode s.gate.stage = s.disp.repStage ∧ s.disp.repTimes = [] ∧ s.computes = true) :=
  ⟨⟨R, dispWait 3, by decide +kernel⟩,
    ⟨R, dispWait 4, by decide +kernel⟩,
    ⟨R, dispWait 6, by decide +kernel⟩,
    ⟨(R.onDisp fun x => { x with budI := [some (5, -7), none], terms := x.terms.set 1 ⟨some 7000000, false⟩ }), 1, 7000000, 7000000, by decide +kernel, by decide +kernel, by decide +kernel, by decide +kernel⟩,
    ⟨(R.onDisp fun x => { x with budI := [some (5, -7), none], terms := x.terms.set 1 ⟨some 7000001, false⟩ }), 1, 7000000, 7000001, by decide +kernel, by decide +kernel, by decide +kernel, by decide +kernel⟩,
    ⟨⟨some 8, true⟩, 7, 8, 1, by decide +kernel, by decide +kernel, by decide +kernel⟩,
    ⟨svc, 7, by decide +kernel, by decide +kernel⟩,
    ⟨(R.onDisp fun x => { x with envNext := some (3, ⟨0, [], 0, 0, 0⟩) }), ⟨0, [], 0, 0, 0⟩, 3, 4, by decide +kernel, by decide +kernel⟩,
    ⟨(svc.onDisp fun x => { x with avail := svc.avail }), by decide +kernel, by decide +kernel, by decide +kernel, by decide +kernel⟩⟩

theorem hyps_safetyEvents :
    (∃ (s : State) (toB : Bool), s.safety.safe = true)
    ∧ (∃ (s : State) (toB : Bool), s.safety.safe = false)
    ∧ (∃ (s : State) (o : Nat) (h : 2 * o + 1 < 12), o < s.safety.outs.length)
    ∧ (∃ (s : State) (o : Nat) (h : 2 * o < 12), o < s.safety.outs.length)
    ∧ (∃ (s : State) (charge : Bool), Fld.fgiCfg_SCALE s.cfg ≠ 0 ∧ s.gate.stage ≠ .off)
    ∧ (∃ (s : State) (charge : Bool), Fld.fgiCfg_SCALE s.cfg = 0)
    ∧ (∃ (s : State) (o : Fin 4) (low readOff : Bool), s.safety.safe = false ∧ (s.safety.out o.val).hi = true ∧ (s.safety.out o.val).lo = true ∧ (s.safety.out o.val).fault = .none ∧ s.safety.engA.running = true ∧ s.safety.engB.running = true ∧ s.now < 2 ^ 63)
    ∧ (∃ (s : State) (o : Nat), ((s.safety.out o).testing = some 0 ∨ (s.safety.out o).testing = some 1))
    ∧ (∃ (s : State) (coil : Nat), s.contactorOn = true ∧ coil < 1600)
    ∧ (∃ (s : State) (o n : Nat), s.mainOut = some o ∧ s.feedbackInput false = some n ∧ (s.safety.out o).hi = true ∧ (s.safety.out o).lo = true ∧ s.feedback false true = false)
    ∧ (∃ (s : State) (o n : Nat), s.mainOut = some o ∧ s.feedbackInput false = some n ∧ (s.safety.out o).hi = false ∧ s.feedback false false = false ∧ s.twin.txOff = false)
    ∧ (∃ (s : State) (o n : Nat), s.mainOut = some o ∧ s.feedbackInput false = some n ∧ (s.safety.out o).hi = true ∧ (s.safety.out o).lo = true ∧ s.feedback false true = true)
    ∧ (∃ (s : State), s.sending = true ∧ s.chain.addr ≠ 0)
    ∧ (∃ (s : State) (can : Bool) (b : List Byte), parsePdu b = none)
    ∧ (∃ (s : State) (can : Bool) (b : List Byte) (p : SafetyPdu), parsePdu b = some p ∧ s.isPair = false)
    ∧ (∃ (s : State) (n : Fin 8) (x : Producer), s.safety.producers[n.val]? = some x ∧ Fld.sfPcfg_PORT s.cfg n.val ≠ 0 ∧ x.expired = false ∧ Fld.sfPcfg_ALARM s.cfg n.val = false) :=
  ⟨⟨(R.onSafety fun x => { x with safe := true }), true, by decide +kernel⟩,
    ⟨R, true, by decide +kernel⟩,
    ⟨R, 3, by decide, by decide +kernel⟩,
    ⟨R, 3, by decide, by decide +kernel⟩,
    ⟨running (cfg R [(0x0304, 0x8000)]), true, by decide +kernel, by decide +kernel⟩,
    ⟨cfg R [(0x0304, 0)], true, by decide +kernel⟩,
    ⟨((outOn R id).onSafety fun x => { x with engA := { x.engA with running := true }, engB := { x.engB with running := true } }), 3, true, false, by decide +kernel, by decide +kernel, by decide +kernel, by decide +kernel, by decide +kernel, by decide +kernel, by decide +kernel⟩,
    ⟨outOn R (fun o => { o with testing := some 1 }), 3, by decide +kernel⟩,
    ⟨outOn (wired R) id, 1599, by decide +kernel, by decide +kernel⟩,
    ⟨outOn (wired R) id, 3, 15, by decide +kernel, by decide +kernel, by decide +kernel, by decide +kernel, by decide +kernel⟩,
    ⟨(((wired svc).onSafety fun x => { x with engA := { x.engA with inputs := x.engA.inputs.set 15 { DualIn.reset with d1 := true } } })), 3, 15, by decide +kernel, by decide +kernel, by decide +kernel, by decide +kernel, by decide +kernel⟩,
    ⟨(((outOn (wired R) id).onSafety fun x => { x with engA := { x.engA with inputs := x.engA.inputs.set 15 { DualIn.reset with d1 := true, d2 := true } } })), 3, 15, by decide +kernel, by decide +kernel, by decide +kernel, by decide +kernel, by decide +kernel⟩,
    ⟨onChain svc (fun x => { x with addr := 63 }), by decide +kernel, by decide +kernel⟩,
    ⟨R, true, [], by decide +kernel⟩,
    ⟨R, true, pdu0, pdu 0 0, by decide +kernel, by decide +kernel⟩,
    ⟨cfg R [(0x099C, 1)], 7, Producer.reset, by decide +kernel, by decide +kernel, by decide +kernel, by decide +kernel⟩⟩

theorem hyps_dualChannelInputs :
    (∃ (d : DualIn) (filt disc : Nat) (l : List (Bool × Bool × Nat)), ((∀ p ∈ l, p.1 = true)) ∧ filt < l.length)
    ∧ (∃ (d : DualIn) (filt disc : Nat) (l : List (Bool × Bool × Nat)), ((∀ p ∈ l, p.2.1 = true)) ∧ filt < l.length)
    ∧ (∃ (d : DualIn) (filt disc now : Nat) (r : Bool) (l : List (Bool × Bool × Nat)), l.length ≤ filt)
    ∧ (∃ (d : DualIn) (filt disc now : Nat) (r1 r2 : Bool), d.latched = false)
    ∧ (∃ (d : DualIn) (filt disc now : Nat) (r1 r2 : Bool), d.latched = true)
    ∧ (∃ (d : DualIn) (filt disc : Nat) (l : List (Bool × Bool × Nat)), d.latched = true ∧ d.cleared = false ∧ d.seen1 = false ∧ ((∀ p ∈ l, p.1 = false))) :=
  ⟨⟨DualIn.reset, 1, 5, [(true, false, 1), (true, true, 2)], by decide +kernel, by decide +kernel⟩,
    ⟨DualIn.reset, 1, 5, [(false, true, 1), (true, true, 2)], by decide +kernel, by decide +kernel⟩,
    ⟨DualIn.reset, 1, 5, 0, true, [(true, false, 1)], by decide +kernel⟩,
    ⟨DualIn.reset, 1, 5, 0, true, false, by decide +kernel⟩,
    ⟨{ DualIn.reset with latched := true }, 1, 5, 0, true, false, by decide +kernel⟩,
    ⟨{ DualIn.reset with latched := true }, 1, 5, [(false, true, 1)], by decide +kernel, by decide +kernel, by decide +kernel, by decide +kernel⟩⟩

theorem hyps_engineSweep :
    (∃ (s : State) (at_ k : Nat) (res : Nat → CellRes) (temp : Nat → Option Int) (i : Option Int) (x : SafetyEng), x.running = true ∧ k < 5 ∧ x.counters.length = 5 ∧ x.demand.length = 14)
    ∧ (∃ (s : State) (at_ c : Nat) (res : Nat → CellRes) (temp : Nat → Option Int) (i : Option Int) (x : SafetyEng), x.running = true ∧ c < s.cellCount ∧ x.cells.getD c 0 + 10000000 * Fld.safeConf_BLIND s.cfg < at_ ∧ (res c).usable = false ∧ x.demand.length = 14)
    ∧ (∃ (s : State) (c : Nat) (v : Int) (res : Nat → CellRes), c < s.cellCount ∧ res c = .volt v ∧ (1000 * Fld.safeCell_OV s.cfg : Nat) < v)
    ∧ (∃ (s : State) (n : Nat) (res : Nat → CellRes) (temp : Nat → Option Int) (a : Int), a ≤ (1000 * Fld.safeOc_ICHG s.cfg : Nat))
    ∧ (∃ (s : State) (at_ : Nat) (res : Nat → CellRes) (temp : Nat → Option Int) (i : Option Int) (x : SafetyEng), x.running = false) :=
  ⟨⟨R, 5, 4, (fun _ => .none), (fun _ => none), none, { SafetyEng.reset with running := true }, by decide +kernel, by decide +kernel, by decide +kernel, by decide +kernel⟩,
    ⟨ringed R, 10000000000, 15, (fun _ => .none), (fun _ => none), none, { SafetyEng.reset with running := true }, by decide +kernel, by decide +kernel, by decide +kernel, by decide +kernel, by decide +kernel⟩,
    ⟨cfg (ringed R) [(0x0900, 3650)], 15, 3650001, (fun _ => .volt 3650001), by decide +kernel, by decide +kernel, by decide +kernel⟩,
    ⟨cfg R [(0x0908, 0x02800000)], 5, (fun _ => .none), (fun _ => none), 10000, by decide +kernel⟩,
    ⟨R, 5, (fun _ => .none), (fun _ => none), none, SafetyEng.reset, by decide +kernel⟩⟩

theorem hyps_safeStateEntry :
    (∃ (s : State) (d : Demand), s.safety.safe = false)
    ∧ (∃ (s : State) (d : Demand), s.safety.safe = true)
    ∧ (∃ (s : State) (a b : SafetySample) (on : BitVec 8) (coil : Nat), s.safety.safe = true) :=
  ⟨⟨R, ⟨1, 1, 0, 3, 0⟩, by decide +kernel⟩,
    ⟨(R.onSafety fun x => { x with safe := true }), ⟨1, 1, 0, 3, 0⟩, by decide +kernel⟩,
    ⟨(R.onSafety fun x => { x with safe := true }), ⟨0, 0, 0, 0⟩, ⟨0, 0, 0, 0⟩, 0, 2400, by decide +kernel⟩⟩

theorem hyps_contactorsAndReset :
    (∃ (s t : State) (q : Fin 32) (d : Desc), s.Turn q 0x12 (op0 1) d t ∧ t.closeRefused = false)
    ∧ (∃ (s t : State) (q : Fin 32) (d : Desc), s.Turn q 0x12 (op0 1) d t ∧ t.closeRefused = true)
    ∧ (∃ (s t : State) (q : Fin 32) (d : Desc), s.Turn q 0x12 (op0 2) d t)
    ∧ (∃ (s : State) (p m : Nat), s.closeRefused = false ∧ s.prechargeOut = some p ∧ s.mainOut = some m)
    ∧ (∃ (s : State) (since m : Nat), s.safety.contactor = .precharge since ∧ s.mainOut = some m ∧ m < s.safety.outs.length ∧ (s.safety.out m).fault = .none)
    ∧ (∃ (s : State) (since p : Nat), s.safety.contactor = .mainOn since ∧ s.prechargeOut = some p ∧ p < s.safety.outs.length)
    ∧ (∃ (s : State), s.gate.stage = .run)
    ∧ (∃ (s : State) (m : Nat), s.gate.stage = .armed ∧ s.mainOut = some m ∧ m < s.safety.outs.length)
    ∧ (∃ (s t : State) (q : Fin 32) (d : Desc), s.Turn q 0x13 anyArg d t ∧ Fld.safeCfg_REMOTE_RESET t.cfg = true ∧ t.resetBlock = none)
    ∧ (∃ (s t : State) (q : Fin 32) (d : Desc) (n : Nat), s.Turn q 0x13 anyArg d t ∧ Fld.safeCfg_REMOTE_RESET t.cfg = true ∧ t.resetBlock = some n)
    ∧ (∃ (s t : State) (q : Fin 32) (d : Desc), s.Turn q 0x13 anyArg d t ∧ Fld.safeCfg_REMOTE_RESET t.cfg = false)
    ∧ (∃ (s : State) (n : Fin 16) (a b : DualIn), s.safety.engA.inputs[n.val]? = some a ∧ s.safety.engB.inputs[n.val]? = some b ∧ Fld.siCfg_FUNC s.cfg n.val = 5 ∧ a.resetPress s.now = true ∧ b.resetPress s.now = true ∧ s.resetBlock = none)
    ∧ (∃ (s : State) (n : Fin 16) (a b : DualIn) (k : Nat), s.safety.engA.inputs[n.val]? = some a ∧ s.safety.engB.inputs[n.val]? = some b ∧ Fld.siCfg_FUNC s.cfg n.val = 5 ∧ a.resetPress s.now = true ∧ b.resetPress s.now = true ∧ s.resetBlock = some k)
    ∧ (∃ (s : State) (src : Nat), s.safety.resetDue = some src ∧ s.resetBlock = none)
    ∧ (∃ (s : State), ((∃ f, s.safety.engA.demand.getD f false = true ∨ s.safety.engB.demand.getD f false = true) ∨ (∃ n ∈ s.safety.engA.counters ++ s.safety.engB.counters, n ≠ 0) ∨ (∃ o ∈ s.safety.outs, o.fault ≠ .none) ∨ s.safety.weld = true ∨ s.now < s.safety.enteredAt + 1000000000))
    ∧ (∃ (s : State) (w : WaitCmd), s.host.waiting.find? (fun w => decide (w.cmd.opcode = 0x13) && w.own) = some w ∧ w.expires < 2 ^ 64) :=
  ⟨⟨at_ (free ((R.onSafety fun x => { x with coil := 1800 }))) (desc 0x12 [1] [] 0), _, 0, desc 0x12 [1] [] 0, turn (by decide +kernel) (by decide +kernel) (by decide +kernel) (by decide +kernel), by decide +kernel⟩,
    ⟨at_ ((R.onSafety fun x => { x with coil := 1799 })) (desc 0x12 [1] [] 0), _, 0, desc 0x12 [1] [] 0, turn (by decide +kernel) (by decide +kernel) (by decide +kernel) (by decide +kernel), by decide +kernel⟩,
    ⟨at_ (R) (desc 0x12 [2] [] 0), _, 0, desc 0x12 [2] [] 0, turn (by decide +kernel) (by decide +kernel) (by decide +kernel) (by decide +kernel)⟩,
    ⟨wired (free ((R.onSafety fun x => { x with coil := 3200 }))), 2, 3, by decide +kernel, by decide +kernel, by decide +kernel⟩,
    ⟨wired ((R.onSafety fun x => { x with contactor := .precharge 5 })), 5, 3, by decide +kernel, by decide +kernel, by decide +kernel, by decide +kernel⟩,
    ⟨wired ((R.onSafety fun x => { x with contactor := .mainOn 5 })), 5, 2, by decide +kernel, by decide +kernel, by decide +kernel⟩,
    ⟨running R, by decide +kernel⟩,
    ⟨wired ((R.onGate fun x => { x with stage := .armed })), 3, by decide +kernel, by decide +kernel, by decide +kernel⟩,
    ⟨at_ (clock (cfg R [(0x090C, 1)]) 1000000000) (desc 0x13 [] [] 0), _, 0, desc 0x13 [] [] 0, turn (by decide +kernel) (by decide +kernel) (by decide +kernel) (by decide +kernel), by decide +kernel, by decide +kernel⟩,
    ⟨at_ (clock (cfg R [(0x090C, 1)]) 999999999) (desc 0x13 [] [] 0), _, 0, desc 0x13 [] [] 0, 5, turn (by decide +kernel) (by decide +kernel) (by decide +kernel) (by decide +kernel), by decide +kernel, by decide +kernel⟩,
    ⟨at_ (cfg R [(0x090C, 0)]) (desc 0x13 [] [] 0), _, 0, desc 0x13 [] [] 0, turn (by decide +kernel) (by decide +kernel) (by decide +kernel) (by decide +kernel), by decide +kernel⟩,
    ⟨clock (pressed (cfg R [(0x094C, 5)]) 800000000) 1000000000, 15, press 800000000, press 800000000, by decide +kernel, by decide +kernel, by decide +kernel, by decide +kernel, by decide +kernel, by decide +kernel⟩,
    ⟨clock (pressed (cfg R [(0x094C, 5)]) 0) 200000000, 15, press 0, press 0, 5, by decide +kernel, by decide +kernel, by decide +kernel, by decide +kernel, by decide +kernel, by decide +kernel⟩,
    ⟨((clock R 1000000000).onSafety fun x => { x with resetDue := some 1 }), 1, by decide +kernel, by decide +kernel⟩,
    ⟨R, Or.inr (Or.inr (Or.inr (Or.inr (by decide +kernel))))⟩,
    ⟨(R.onHost fun x => { x with waiting := [⟨⟨0x13, [], []⟩, true, false, 10000000000⟩] }), ⟨⟨0x13, [], []⟩, true, false, 10000000000⟩, by decide +kernel, by decide +kernel⟩⟩

theorem hyps_safetyFrames :
    (∃ (s : State) (x : Producer) (w : Nat) (p : SafetyPdu), x.lastSeq = none)
    ∧ (∃ (s : State) (x : Producer) (w : Nat) (j : Bool) (p : SafetyPdu) (l : BitVec 16), x.lastSeq = some l ∧ p.seq ≠ l ∧ 32767 < (p.seq - l).toNat)
    ∧ (∃ (s : State) (x : Producer) (w : Nat) (j : Bool) (p : SafetyPdu) (l : BitVec 16), x.lastSeq = some l ∧ p.seq = l)
    ∧ (∃ (s : State) (x : Producer) (w : Nat) (j : Bool) (p : SafetyPdu) (l : BitVec 16), x.lastSeq = some l ∧ p.epoch ≠ x.epoch ∧ p.epoch ≠ x.epoch + 1 ∧ p.seq ≠ l)
    ∧ (∃ (s : State) (x : Producer) (w : Nat) (j : Bool) (p : SafetyPdu) (l : BitVec 16), x.lastSeq = some l ∧ p.epoch = x.epoch ∧ p.seq ≠ l ∧ (s.frameDiff p - x.offset < -1000000 ∨ (1000000 * w : Nat) < s.frameDiff p - x.offset))
    ∧ (∃ (s : State) (x : Producer) (w : Nat) (p : SafetyPdu) (l : BitVec 16), x.lastSeq = some l ∧ 1 ≤ (p.seq - l).toNat ∧ (p.seq - l).toNat ≤ 32767 ∧ p.epoch = x.epoch ∧ -1000000 ≤ s.frameDiff p - x.offset ∧ s.frameDiff p - x.offset ≤ (1000000 * w : Nat))
    ∧ (∃ (x : Producer) (diff : Int) (now : Nat), x.lastAt ≤ now)
    ∧ (∃ (s : State) (n : Nat) (p : SafetyPdu), (p.type ≠ 1 ∨ p.resv = true)) :=
  ⟨⟨R, Producer.reset, 100, pdu 0 0, by decide +kernel⟩,
    ⟨R, { Producer.reset with lastSeq := some 0 }, 100, true, pdu 32768 0, 0, by decide +kernel, by decide +kernel, by decide +kernel⟩,
    ⟨R, { Producer.reset with lastSeq := some 5 }, 100, true, pdu 5 0, 5, by decide +kernel, by decide +kernel⟩,
    ⟨R, { Producer.reset with lastSeq := some 5 }, 100, true, pdu 6 2, 5, by decide +kernel, by decide +kernel, by decide +kernel, by decide +kernel⟩,
    ⟨R, { Producer.reset with lastSeq := some 5, offset := 1000001 }, 100, true, pdu 6 0, 5, by decide +kernel, by decide +kernel, by decide +kernel, by decide +kernel⟩,
    ⟨R, { Producer.reset with lastSeq := some 0, offset := 1000000 }, 100, pdu 32767 0, 0, by decide +kernel, by decide +kernel, by decide +kernel, by decide +kernel, by decide +kernel, by decide +kernel⟩,
    ⟨{ Producer.reset with lastAt := 5 }, 3, 5, by decide +kernel⟩,
    ⟨R, 5, { pdu 0 0 with type := 2 }, by decide +kernel⟩⟩

theorem hyps_cycleEvents :
    (∃ (s : State), s.life.phase ≠ .off)
    ∧ (∃ (s : State), s.life.phase = .off)
    ∧ (∃ (s : State) (n : Nat) (c : Cmd), s.host.accepted = [(n, c)] ∧ n ≤ s.now)
    ∧ (∃ (s : State), ((∀ a ∈ s.host.accepted, s.now < a.1)))
    ∧ (∃ (s : State) (e : Fin 8), s.sized ∧ (s.eng e.val).mode = .run ∧ (s.eng e.val).ctx = [] ∧ (s.eng e.val).cycleAt = none ∧ (s.eng e.val).cmd = none ∧ (s.eng e.val).startFrom ≤ atOrAfter s.now (s.period e.val) ∧ s.life.guard_ = false ∧ (s.eng e.val).choice = false)
    ∧ (∃ (s : State) (e : Fin 8) (done t0 : Nat), s.sized ∧ (s.eng e.val).mode = .run ∧ (s.eng e.val).cycleAt = some t0 ∧ (((s.advance (t0 + s.period e.val)).runAll e.val).eng e.val).mode = .run)
    ∧ (∃ (s : State) (e : Fin 8) (n : Fin 4) (v : EvState), (s.eng e.val).mode = .hold ∧ (s.eng e.val).events[n.val]? = some v ∧ s.sized)
    ∧ (∃ (s : State) (e : Fin 8) (n : Fin 4) (v : EvState) (r : Nat), (s.eng e.val).mode = .run ∧ (s.eng e.val).events[n.val]? = some v ∧ v.release = some r ∧ s.now + 250000 < r ∧ v.waiting = false ∧ s.sized)
    ∧ (∃ (s : State) (e : Fin 8) (n : Fin 4) (v : EvState) (r : Nat), (s.eng e.val).mode = .run ∧ (s.eng e.val).events[n.val]? = some v ∧ v.release = some r ∧ s.now + 250000 < r ∧ v.waiting = true ∧ s.sized)
    ∧ (∃ (s : State) (e : Fin 8) (n : Fin 4) (v : EvState), (s.eng e.val).mode = .run ∧ (s.eng e.val).events[n.val]? = some v ∧ v.release = none ∧ (s.eng e.val).startFrom ≤ s.now ∧ s.now < 2 ^ 63 ∧ (s.eng e.val).ctx = [] ∧ s.sized)
    ∧ (∃ (s : State) (e : Fin 8) (n : Fin 4) (v : EvState) (r : Nat), (s.eng e.val).mode = .run ∧ (s.eng e.val).events[n.val]? = some v ∧ v.release = some r ∧ v.waiting = false ∧ (s.eng e.val).ctx = [] ∧ s.sized)
    ∧ (∃ (s : State) (e : Nat) (x : CycEng) (g : Gelfoel) (second : Nat), s.prog.engines[e]? = some x ∧ s.image = some g ∧ x.mode ≠ .idle ∧ s.nvmBarred = false)
    ∧ (∃ (s : State) (e : Fin 8), (s.eng e.val).mode = .hold ∧ s.sized)
    ∧ (∃ (s : State), ((∀ e < 8, (s.eng e).choice = false)))
    ∧ (∃ (s : State) (e : Nat), e < 8 ∧ ((∀ k < 8, k ≠ e → (s.eng k).choice = false)) ∧ (s.eng e).choice = true ∧ s.takesChoice = false ∧ s.life.guard_ = false)
    ∧ (∃ (s : State) (e : Nat), e < 8 ∧ s.sized ∧ (s.eng e).choice = true ∧ s.takesChoice = false ∧ s.life.guard_ = true)
    ∧ (∃ (s : State) (b : Nat) (g : Gelfoel), s.prog.switchAt = some b ∧ s.idleBank.image = some g ∧ s.prog.active < 2 ∧ s.prog.banks.length = 2) :=
  ⟨⟨svc, by decide +kernel⟩,
    ⟨(R.onLife fun x => { x with phase := .off }), by decide +kernel⟩,
    ⟨(R.onHost fun x => { x with accepted := [(0, ⟨0x14, [], []⟩)] }), 0, ⟨0x14, [], []⟩, by decide +kernel, by decide +kernel⟩,
    ⟨(R.onHost fun x => { x with accepted := [(1, ⟨0x14, [], []⟩)] }), by decide +kernel⟩,
    ⟨eng7 (free R) (fun x => { x with mode := .run }), 7, by show State.shape _ = _; decide +kernel, by decide +kernel, by decide +kernel, by decide +kernel, by decide +kernel, by decide +kernel, by decide +kernel, by decide +kernel⟩,
    ⟨eng7 R (fun x => { x with mode := .run, cycleAt := some 0 }), 7, 5, 0, by show State.shape _ = _; decide +kernel, by decide +kernel, by decide +kernel, by decide +kernel⟩,
    ⟨eng7 R (fun x => { x with mode := .hold, events := [⟨none, false, none⟩] }), 7, 0, ⟨none, false, none⟩, by decide +kernel, by decide +kernel, by show State.shape _ = _; decide +kernel⟩,
    ⟨eng7 R (event0 ⟨none, false, some 250001⟩), 7, 0, ⟨none, false, some 250001⟩, 250001, by decide +kernel, by decide +kernel, by decide +kernel, by decide +kernel, by decide +kernel, by show State.shape _ = _; decide +kernel⟩,
    ⟨eng7 R (event0 ⟨none, true, some 250001⟩), 7, 0, ⟨none, true, some 250001⟩, 250001, by decide +kernel, by decide +kernel, by decide +kernel, by decide +kernel, by decide +kernel, by show State.shape _ = _; decide +kernel⟩,
    ⟨eng7 R (event0 ⟨none, false, none⟩), 7, 0, ⟨none, false, none⟩, by decide +kernel, by decide +kernel, by decide +kernel, by decide +kernel, by decide +kernel, by decide +kernel, by show State.shape _ = _; decide +kernel⟩,
    ⟨eng7 R (event0 ⟨none, false, some 5⟩), 7, 0, ⟨none, false, some 5⟩, 5, by decide +kernel, by decide +kernel, by decide +kernel, by decide +kernel, by decide +kernel, by show State.shape _ = _; decide +kernel⟩,
    ⟨eng7 (imaged R) (fun x => { x with mode := .stop }), 7, { CycEng.reset with mode := .stop }, gel0, 5, by decide +kernel, by decide +kernel, by decide +kernel, by decide +kernel⟩,
    ⟨eng7 R (fun x => { x with mode := .hold }), 7, by decide +kernel, by show State.shape _ = _; decide +kernel⟩,
    ⟨R, by decide +kernel⟩,
    ⟨eng7 (free R) (fun x => { x with choice := true }), 7, by decide +kernel, by decide +kernel, by decide +kernel, by decide +kernel, by decide +kernel⟩,
    ⟨eng7 R (fun x => { x with choice := true }), 7, by decide +kernel, by show State.shape _ = _; decide +kernel, by decide +kernel, by decide +kernel, by decide +kernel⟩,
    ⟨((imaged R).onProg fun x => { x with switchAt := some 5 }), 5, gel0, by decide +kernel, by decide +kernel, by decide +kernel, by decide +kernel⟩⟩

theorem hyps_programCommands :
    (∃ (c : Fin 32 → Sys2Proof.Instr) (op : Nat), (c, op) ∈ [(Sys2Proof.Instr.programSwitch, 1), (Sys2Proof.Instr.programRollback, 2), (Sys2Proof.Instr.programRun, 3), (Sys2Proof.Instr.programStop, 4), (Sys2Proof.Instr.programHold, 5), (Sys2Proof.Instr.programStep, 6), (Sys2Proof.Instr.programResume, 7), (Sys2Proof.Instr.forceSet, 8), (Sys2Proof.Instr.forceClear, 9), (Sys2Proof.Instr.hostWrite, 11)])
    ∧ (∃ (s t : State) (q : Fin 32) (d : Desc) (l : List (Nat × Symbol)), s.Turn q 0x50 (op0 10) d t ∧ d.argByte 14 = l.length ∧ 0 < l.length ∧ l.length ≤ 64 ∧ d.body.length = 32 * l.length ∧ ((∀ i < l.length, t.findSym (nameAt d.body i) = l[i]?)) ∧ sumN (l.map (fun y => 4 + 4 * (t.symValue y.2).length)) ≤ d.respLen)
    ∧ (∃ (s : State) (c : Cmd), byteAt c.arg 0 = 1)
    ∧ (∃ (s : State) (c : Cmd), byteAt c.arg 0 = 2)
    ∧ (∃ (s : State), s.maySwitch = true)
    ∧ (∃ (s : State) (c : Cmd) (e : Nat), byteAt c.arg 0 = 4 ∧ e < 8 ∧ byteAt c.arg 1 / 2 ^ e % 2 = 1 ∧ (s.eng e).mode = .stop)
    ∧ (∃ (s : State) (c : Cmd), byteAt c.arg 0 = 6 ∧ byteAt c.arg 1 ≤ 7)
    ∧ (∃ (s : State) (c : Cmd), byteAt c.arg 0 = 8 ∧ s.findSym (nameAt c.data 0) = none)
    ∧ (∃ (s : State) (c : Cmd) (i : Nat) (y : Symbol), byteAt c.arg 0 = 8 ∧ s.findSym (nameAt c.data 0) = some (i, y) ∧ y.forcible = true ∧ y.type = 1 ∧ 256 ≤ s.prog.forces.length ∧ ((∀ f ∈ s.prog.forces, f.name ≠ nameAt c.data 0)))
    ∧ (∃ (s : State) (a : Nat), 0 < s.baseCycle)
    ∧ (∃ (s : State) (c : Cmd) (n : Nat), (byteAt c.arg 0 = 1 ∨ byteAt c.arg 0 = 2))
    ∧ (∃ (s : State) (c : Cmd) (n e : Nat), byteAt c.arg 0 = 3 ∧ e < 8 ∧ e < s.prog.engines.length ∧ byteAt c.arg 1 / 2 ^ e % 2 = 1)
    ∧ (∃ (s : State) (c : Cmd) (n : Nat), byteAt c.arg 0 = 8)
    ∧ (∃ (s : State) (c : Cmd) (n : Nat), byteAt c.arg 0 = 9 ∧ byteAt c.arg 2 % 2 = 1)
    ∧ (∃ (s : State) (w : WaitCmd), s.host.waiting.find? (fun w => decide (w.cmd.opcode = 0x50) && w.own) = some w ∧ w.expires < 2 ^ 64)
    ∧ (∃ (s : State) (q : Fin 32) (d : Desc) (l : Load), s.LoadTurn q 6 0x81 d ∧ s.fabric.vcoreTarget ≤ s.fabric.vcore ∧ s.nvmBarred = false ∧ s.switchArmed = false ∧ takeChunk s.idleBank.load 256 4194304 d = .ok (l, false))
    ∧ (∃ (s : State) (q : Fin 32) (d : Desc) (l : Load), s.LoadTurn q 6 0x81 d ∧ s.fabric.vcoreTarget ≤ s.fabric.vcore ∧ s.nvmBarred = false ∧ s.switchArmed = false ∧ takeChunk s.idleBank.load 256 4194304 d = .ok (l, true) ∧ s.judgeImage l.bytes = none)
    ∧ (∃ (s : State) (q : Fin 32) (d : Desc), s.LoadTurn q 6 0x81 d ∧ s.fabric.vcoreTarget ≤ s.fabric.vcore ∧ s.nvmBarred = true)
    ∧ (∃ (s : State) (q : Fin 32) (d : Desc), s.LoadTurn q 6 0x81 d ∧ s.fabric.vcoreTarget ≤ s.fabric.vcore ∧ s.nvmBarred = false ∧ s.switchArmed = true)
    ∧ (∃ (s : State) (b : List Byte), headerOk b s.life.blRunning = false)
    ∧ (∃ (s : State) (b : List Byte) (x y : Nat), headerOk b s.life.blRunning = true ∧ (parseImage b).codeOk = true ∧ (parseImage b).claims s.canRows = some (x, y)) :=
  ⟨⟨Sys2Proof.Instr.hostWrite, 11, (by simp)⟩,
    ⟨at_ (imaged R) (desc 0x50 [10, 0, 0, 0, 0, 0, 0, 0, 0, 0, 0, 0, 0, 0, 1] (List.replicate 32 65) 8), _, 0, desc 0x50 [10, 0, 0, 0, 0, 0, 0, 0, 0, 0, 0, 0, 0, 0, 1] (List.replicate 32 65) 8, [(0, sym0)], turn (by decide +kernel) (by decide +kernel) (by decide +kernel) (by decide +kernel), by decide +kernel, by decide +kernel, by decide +kernel, by decide +kernel, by decide +kernel, by decide +kernel⟩,
    ⟨R, ⟨0x50, [1], []⟩, by decide +kernel⟩,
    ⟨R, ⟨0x50, [2], []⟩, by decide +kernel⟩,
    ⟨imaged (free R), by decide +kernel⟩,
    ⟨eng7 R (fun x => { x with mode := .stop }), ⟨0x50, [4, 128], []⟩, 7, by decide +kernel, by decide +kernel, by decide +kernel, by decide +kernel⟩,
    ⟨R, ⟨0x50, [6, 7], []⟩, by decide +kernel, by decide +kernel⟩,
    ⟨R, ⟨0x50, [8], []⟩, by decide +kernel, by decide +kernel⟩,
    ⟨((imaged R).onProg fun x => { x with forces := List.replicate 256 ⟨[], 0⟩ }), ⟨0x50, [8], List.replicate 32 65⟩, 0, sym0, by decide +kernel, by decide +kernel, by decide +kernel, by decide +kernel, by decide +kernel, by decide +kernel⟩,
    ⟨R, 5, by decide +kernel⟩,
    ⟨R, ⟨0x50, [2], []⟩, 5, by decide +kernel⟩,
    ⟨R, ⟨0x50, [3, 128], []⟩, 5, 7, by decide +kernel, by decide +kernel, by decide +kernel, by decide +kernel⟩,
    ⟨R, ⟨0x50, [8], []⟩, 5, by decide +kernel⟩,
    ⟨R, ⟨0x50, [9, 0, 1], []⟩, 5, by decide +kernel, by decide +kernel⟩,
    ⟨(R.onHost fun x => { x with waiting := [⟨⟨0x50, [], []⟩, true, false, 10000000000⟩] }), ⟨⟨0x50, [], []⟩, true, false, 10000000000⟩, by decide +kernel, by decide +kernel⟩,
    ⟨at_ (cfg R [(0x1200, 12)]) (chunk 0x81 [0, 1, 0, 0] 0 [7]), 0, chunk 0x81 [0, 1, 0, 0] 0 [7], ⟨256, 1, [7]⟩, ⟨by decide +kernel, by decide +kernel, by decide +kernel, ⟨_, _, rfl, rfl, by decide +kernel⟩, by decide +kernel, by decide +kernel⟩, by decide +kernel, by decide +kernel, rfl, okOf (by decide +kernel)⟩,
    ⟨at_ (cfg R [(0x1200, 12)]) (chunk 0x81 [0, 1, 0, 0] 1 emptyImage), 0, chunk 0x81 [0, 1, 0, 0] 1 emptyImage, ⟨256, 256, emptyImage⟩, ⟨by decide +kernel, by decide +kernel, by decide +kernel, ⟨_, _, rfl, rfl, by decide +kernel⟩, by decide +kernel, by decide +kernel⟩, by decide +kernel, by decide +kernel, by decide +kernel, chunk_whole _ _ (by decide +kernel), judged _ (by decide +kernel)⟩,
    ⟨at_ (cfg (R.onTherm (fun x => { x with die := { x.die with barred := true } })) [(0x1200, 12)]) (chunk 0x81 [0, 1, 0, 0] 1 emptyImage), 0, chunk 0x81 [0, 1, 0, 0] 1 emptyImage, ⟨by decide +kernel, by decide +kernel, by decide +kernel, ⟨_, _, rfl, rfl, by decide +kernel⟩, by decide +kernel, by decide +kernel⟩, by decide +kernel, by decide +kernel⟩,
    ⟨at_ (cfg ((R.onProg fun x => { x with switchAt := some 5 })) [(0x1200, 12)]) (chunk 0x81 [0, 1, 0, 0] 1 emptyImage), 0, chunk 0x81 [0, 1, 0, 0] 1 emptyImage, ⟨by decide +kernel, by decide +kernel, by decide +kernel, ⟨_, _, rfl, rfl, by decide +kernel⟩, by decide +kernel, by decide +kernel⟩, by decide +kernel, by decide +kernel, by decide +kernel⟩,
    ⟨R, emptyImage.take 255, by decide +kernel⟩,
    ⟨R, clashImage, 0x4000, 0x4008, clashImage_header _, by decide +kernel, by decide +kernel⟩⟩

theorem hyps_cycleInstructions :
    (∃ (s : State) (e op : Nat) (c : TaskCtx) (w : Word) (f : Int → Int → Int), ((op = 0x23 ∧ f = (· + ·)) ∨ (op = 0x24 ∧ f = (· - ·)) ∨ (op = 0x30 ∧ f = (· * ·))) ∧ opOf w = op ∧ e < s.prog.engines.length)
    ∧ (∃ (s : State) (e : Nat) (c : TaskCtx) (w : Word), opOf w = 0x31 ∧ s.operand e c w ≠ 0 ∧ e < s.prog.engines.length)
    ∧ (∃ (s : State) (e : Nat) (c : TaskCtx) (w : Word), opOf w = 0x31 ∧ s.operand e c w = 0 ∧ e < s.prog.engines.length)
    ∧ (∃ (s : State) (e : Nat) (c : TaskCtx) (w : Word), opOf w = 0x31 ∧ s.operand e c w ≠ 0 ∧ e < s.prog.engines.length)
    ∧ (∃ (s : State) (e : Nat) (c : TaskCtx) (w : Word), opOf w = 0x22 ∧ areaOf w = 5 ∧ e < s.prog.engines.length)
    ∧ (∃ (s : State) (e : Nat) (c : TaskCtx) (w : Word), opOf w = 0x0B ∧ areaOf w = 5 ∧ idxOf w = 2 ∧ c.acc = true ∧ e < s.prog.engines.length)
    ∧ (∃ (s : State) (e op : Nat) (c : TaskCtx) (w : Word) (f : Bool → Bool → Bool), ((op = 0x01 ∧ f = fun _ b => b) ∨ (op = 0x02 ∧ f = fun _ b => !b) ∨ (op = 0x03 ∧ f = fun a b => a && b) ∨ (op = 0x04 ∧ f = fun a b => a && !b) ∨ (op = 0x05 ∧ f = fun a b => a || b) ∨ (op = 0x06 ∧ f = fun a b => a || !b) ∨ (op = 0x07 ∧ f = fun a b => xor a b) ∨ (op = 0x0C ∧ f = fun a _ => !a)) ∧ opOf w = op)
    ∧ (∃ (s : State) (e op i : Nat) (c : TaskCtx) (w : Word) (v : Bool), ((op = 0x08 ∧ v = c.acc) ∨ (op = 0x09 ∧ v = !c.acc) ∨ (op = 0x0A ∧ c.acc = true ∧ v = true) ∨ (op = 0x0B ∧ c.acc = true ∧ v = false)) ∧ opOf w = op ∧ areaOf w = 1 ∧ e < s.prog.engines.length ∧ idxOf w / 32 < (s.eng e).output.length ∧ i < 32)
    ∧ (∃ (s : State) (e op : Nat) (c : TaskCtx) (w : Word), (op = 0x0A ∨ op = 0x0B) ∧ opOf w = op ∧ c.acc = false)
    ∧ (∃ (s : State) (e : Nat) (c : TaskCtx) (w : Word), opOf w = 0x0D)
    ∧ (∃ (s : State) (e op : Nat) (c : TaskCtx) (w : Word) (b : Bool) (l : List Bool), (op = 0x0E ∨ op = 0x0F) ∧ opOf w = op ∧ c.stack = b :: l)
    ∧ (∃ (s : State) (e op : Nat) (c : TaskCtx) (w : Word), (op = 0x10 ∨ (op = 0x11 ∧ c.acc = true) ∨ (op = 0x12 ∧ c.acc = false)) ∧ opOf w = op)
    ∧ (∃ (s : State) (e op : Nat) (c : TaskCtx) (w : Word), ((op = 0x11 ∧ c.acc = false) ∨ (op = 0x12 ∧ c.acc = true)) ∧ opOf w = op)
    ∧ (∃ (s : State) (e : Nat) (c : TaskCtx) (w : Word), opOf w = 0x13)
    ∧ (∃ (s : State) (e op : Nat) (c : TaskCtx) (w : Word) (f : Word → Word → Word), ((op = 0x20 ∧ f = fun _ v => v) ∨ (op = 0x25 ∧ f = fun a v => a &&& v) ∨ (op = 0x26 ∧ f = fun a v => a ||| v) ∨ (op = 0x27 ∧ f = fun a v => a ^^^ v)) ∧ opOf w = op)
    ∧ (∃ (s : State) (e : Nat) (c : TaskCtx) (w : Word), opOf w = 0x21)
    ∧ (∃ (s : State) (e : Nat) (c : TaskCtx) (w : Word), opOf w = 0x28 ∧ opdOf w < 32)
    ∧ (∃ (s : State) (e : Nat) (c : TaskCtx) (w : Word), opOf w = 0x29 ∧ opdOf w < 32)
    ∧ (∃ (s : State) (e op : Nat) (c : TaskCtx) (w : Word) (p : Int → Int → Bool), ((op = 0x2A ∧ p = fun a b => decide (a = b)) ∨ (op = 0x2B ∧ p = fun a b => decide (b < a)) ∨ (op = 0x2C ∧ p = fun a b => decide (a < b))) ∧ opOf w = op)
    ∧ (∃ (s : State) (e : Nat) (c : TaskCtx) (w : Word), kindOf w = 2) :=
  ⟨⟨R, 7, 0x24, task0, 0x24800005, (fun a b => a - b), Or.inr (Or.inl ⟨rfl, rfl⟩), by decide +kernel, by decide +kernel⟩,
    ⟨R, 7, task0, 0x31800005, by decide +kernel, by decide +kernel, by decide +kernel⟩,
    ⟨R, 7, task0, 0x31800000, by decide +kernel, by decide +kernel, by decide +kernel⟩,
    ⟨R, 7, task0, 0x31BFFFFF, by decide +kernel, by decide +kernel, by decide +kernel⟩,
    ⟨R, 7, task0, 0x22680000, by decide +kernel, by decide +kernel, by decide +kernel⟩,
    ⟨R, 7, { task0 with acc := true }, 0x0B280002, by decide +kernel, by decide +kernel, by decide +kernel, by decide +kernel, by decide +kernel⟩,
    ⟨R, 7, 0x07, task0, 0x07080000, (fun a b => xor a b), Or.inr (Or.inr (Or.inr (Or.inr (Or.inr (Or.inr (Or.inl ⟨rfl, rfl⟩)))))), by decide +kernel⟩,
    ⟨eng7 R (fun x => { x with output := [0] }), 7, 0x09, 31, task0, 0x0908001F, true, by decide +kernel, by decide +kernel, by decide +kernel, by decide +kernel, by decide +kernel, by decide +kernel⟩,
    ⟨R, 7, 0x0A, task0, 0x0A080000, by decide +kernel, by decide +kernel, by decide +kernel⟩,
    ⟨R, 7, task0, 0x0D000000, by decide +kernel⟩,
    ⟨R, 7, 0x0F, { task0 with stack := [true] }, 0x0F000000, true, [], by decide +kernel, by decide +kernel, by decide +kernel⟩,
    ⟨R, 7, 0x12, task0, 0x12C00005, by decide +kernel, by decide +kernel⟩,
    ⟨R, 7, 0x11, task0, 0x11C00005, by decide +kernel, by decide +kernel⟩,
    ⟨R, 7, task0, 0x13000000, by decide +kernel⟩,
    ⟨R, 7, 0x27, task0, 0x27800005, (fun a v => a ^^^ v), Or.inr (Or.inr (Or.inr ⟨rfl, rfl⟩)), by decide +kernel⟩,
    ⟨R, 7, task0, 0x21800005, by decide +kernel⟩,
    ⟨R, 7, task0, 0x2880001F, by decide +kernel, by decide +kernel⟩,
    ⟨R, 7, task0, 0x2980001F, by decide +kernel, by decide +kernel⟩,
    ⟨R, 7, 0x2C, task0, 0x2C800005, (fun a b => decide (a < b)), Or.inr (Or.inr ⟨rfl, rfl⟩), by decide +kernel⟩,
    ⟨R, 7, task0, 0x20800000, by decide +kernel⟩⟩

theorem hyps_timersAndCounters :
    (∃ (x : Inst) (wacc : Word) (a : Nat) (l : List Nat), x.last = some a ∧ x.et ≤ 1000 * wacc.toInt.toNat ∧ (a :: l).Pairwise (· ≤ ·))
    ∧ (∃ (x : Inst) (wacc : Word) (c : Nat), x.last = none)
    ∧ (∃ (x : Inst) (wacc : Word) (op c : Nat) (b : Bool), 0x40 ≤ op ∧ op ≤ 0x42)
    ∧ (∃ (x : Inst) (wacc : Word) (a c : Nat), x.last = some a ∧ x.q = true)
    ∧ (∃ (x : Inst) (wacc : Word) (c : Nat), x.q = false)
    ∧ (∃ (x : Inst) (wacc : Word) (c : Nat), x.q = false ∧ x.prev = some false)
    ∧ (∃ (x : Inst) (wacc : Word) (a c : Nat) (b : Bool), x.last = some a ∧ x.q = true)
    ∧ (∃ (x : Inst) (wacc : Word) (c : Nat) (b : Bool), x.q = false ∧ (b = false ∨ x.prev ≠ some false))
    ∧ (∃ (x : Inst) (wacc : Word) (op c : Nat) (b : Bool), (op = 0x43 ∨ op = 0x44))
    ∧ (∃ (x : Inst) (wacc : Word) (op c : Nat) (b : Bool), (op = 0x43 ∨ op = 0x44 ∨ op = 0x46 ∨ op = 0x47)) :=
  ⟨⟨⟨5000, 0, false, none, some 0⟩, 5, 0, [0, 1, 5], by decide +kernel, by decide +kernel, by decide +kernel⟩,
    ⟨freshInst, 5, 7, by decide +kernel⟩,
    ⟨freshInst, 5, 0x42, 7, true, by decide +kernel, by decide +kernel⟩,
    ⟨⟨0, 0, true, none, some 0⟩, 5, 0, 7, by decide +kernel, by decide +kernel⟩,
    ⟨freshInst, 5, 7, by decide +kernel⟩,
    ⟨⟨0, 0, false, some false, some 0⟩, 5, 7, by decide +kernel, by decide +kernel⟩,
    ⟨⟨0, 0, true, none, some 0⟩, 5, 0, 7, true, by decide +kernel, by decide +kernel⟩,
    ⟨⟨0, 0, false, none, some 0⟩, 5, 7, true, by decide +kernel, by decide +kernel⟩,
    ⟨freshInst, 5, 0x44, 7, true, by decide +kernel⟩,
    ⟨freshInst, 5, 0x47, 7, true, by decide +kernel⟩⟩

theorem hyps_modesAndRestarts :
    (∃ (s : State) (e : Nat), e < s.prog.engines.length)
    ∧ (∃ (s : State) (e k : Nat) (c : TaskCtx) (l : List TaskCtx), e < s.prog.engines.length ∧ (s.eng e).ctx = c :: l ∧ (s.eng e).brk = some (c.task, c.pc) ∧ c.passed = false)
    ∧ (∃ (s : State) (e : Nat) (g : Gelfoel) (c : Section), e < s.prog.engines.length ∧ s.image = some g ∧ s.section_ e = some c)
    ∧ (∃ (s : State) (e : Nat) (g : Gelfoel) (c : Section) (v : SavedCopy), e < s.prog.engines.length ∧ s.image = some g ∧ s.section_ e = some c)
    ∧ (∃ (s : State) (v : SavedCopy) (g : Gelfoel) (d : Int), s.image = some g)
    ∧ (∃ (s : State) (c0 c1 : Section) (e i : Nat), i < c1.inst)
    ∧ (∃ (s : State) (g0 : Option Gelfoel) (g1 : Gelfoel) (gap e : Nat) (x : CycEng) (c : Section), g1.secs.getD e none = some c) :=
  ⟨⟨R, 7, by decide +kernel⟩,
    ⟨eng7 R (fun x => { x with ctx := [task0], brk := some (0, 0) }), 7, 0, task0, [], by decide +kernel, by decide +kernel, by decide +kernel, by decide +kernel⟩,
    ⟨imaged R, 7, gel0, sec0, by decide +kernel, by decide +kernel, by decide +kernel⟩,
    ⟨imaged R, 7, gel0, sec0, ⟨1, 0, 0, [], [], 0⟩, by decide +kernel, by decide +kernel, by decide +kernel⟩,
    ⟨imaged R, ⟨1, 0, 0, [], [], 0⟩, gel0, 0, by decide +kernel⟩,
    ⟨R, sec0, sec0, 7, 0, by decide +kernel⟩,
    ⟨R, none, gel0, 0, 7, CycEng.reset, sec0, by decide +kernel⟩⟩

theorem hyps_hostQueueEvents :
    (∃ (s : State) (q : Fin 32) (v w : Nat) (l : List RawDesc), s.sized ∧ (w ≠ 32 ∨ (s.queue q.val).running = false ∨ (s.queue q.val).stopped = true))
    ∧ (∃ (s : State) (q : Fin 32) (v w : Nat), s.sized ∧ (w ≠ 32 ∨ (s.queue q.val).running = false ∨ (s.queue q.val).stopped = true))
    ∧ (∃ (s : State) (q : Fin 32) (v : Nat) (l : List RawDesc), s.sized ∧ (s.queue q.val).running = true ∧ (s.queue q.val).stopped = false ∧ s.sqEntries q.val ≤ v)
    ∧ (∃ (s : State) (q : Fin 32) (v : Nat) (l : List RawDesc), (s.queue q.val).running = true ∧ (s.queue q.val).stopped = false ∧ v < s.sqEntries q.val)
    ∧ (∃ (s : State) (q : Fin 32) (v : Nat), (s.queue q.val).running = true ∧ (s.queue q.val).stopped = false ∧ v < s.cqEntries q.val)
    ∧ (∃ (x : Queue) (n v : Nat), v < n ∧ x.cqUsed < n ∧ v < x.cqHead ∧ x.cqHead < n)
    ∧ (∃ (x : Queue) (n v : Nat), x.cqHead ≤ v ∧ v < n ∧ x.cqUsed < n)
    ∧ (∃ (s : State) (q : Fin 32), (s.queue q.val).running = true ∧ (s.queue q.val).stopped = false ∧ classAccepts (s.qClass q.val) 0x80 = true)
    ∧ (∃ (s : State) (q : Fin 32) (h : Held) (l : List Held) (a : Nat), (s.queue q.val).inMod = h :: l ∧ h.since = some a)
    ∧ (∃ (s : State) (q : Nat), q < 32 ∧ (s.queue q).live = true)
    ∧ (∃ (s : State) (n : Nat), ((∀ q < 32, (s.queue q).creditsOk = true)))
    ∧ (∃ (s : State) (n q : Nat), q < 32 ∧ s.sized ∧ (s.queue q).live = true ∧ (s.queue q).stopped = false ∧ (s.queue q).creditsOk = false)
    ∧ (∃ (s : State) (q : Fin 32), s.sized ∧ (s.queue q.val).irqDue = true ∧ (s.queue q.val).irqAfter < 2 ^ 64)
    ∧ (∃ (s : State) (q : Fin 32), (s.queue q.val).irqDue = false)
    ∧ (∃ (s : State) (w : WaitCmd), (s.host.waiting.find? (fun w => decide (w.cmd.opcode = 0x12 ∨ w.cmd.opcode = 0x70) && w.own) = some w) ∧ w.expires < 2 ^ 64) :=
  ⟨⟨queue31 R (fun x => { x with running := true }), 31, 0, 16, [], by show State.shape _ = _; decide +kernel, by decide +kernel⟩,
    ⟨R, 31, 0, 32, by show State.shape _ = _; decide +kernel, by decide +kernel⟩,
    ⟨queue31 R (fun x => { x with running := true }), 31, 65536, [], by show State.shape _ = _; decide +kernel, by decide +kernel, by decide +kernel, by decide +kernel⟩,
    ⟨queue31 R (fun x => { x with running := true }), 31, 0, [], by decide +kernel, by decide +kernel, by decide +kernel⟩,
    ⟨queue31 R (fun x => { x with running := true }), 31, 0, by decide +kernel, by decide +kernel, by decide +kernel⟩,
    ⟨{ Queue.reset with cqHead := 15, cqUsed := 15 }, 16, 0, by decide +kernel, by decide +kernel, by decide +kernel, by decide +kernel⟩,
    ⟨Queue.reset, 16, 15, by decide +kernel, by decide +kernel, by decide +kernel⟩,
    ⟨queue31 (cfg R [(0x127C, 2)]) (fun x => { x with running := true }), 31, by decide +kernel, by decide +kernel, by decide +kernel⟩,
    ⟨queue31 R (fun x => { x with inMod := [⟨(desc 0 [] [] 0), true, 4, some 5, false⟩] }), 31, ⟨(desc 0 [] [] 0), true, 4, some 5, false⟩, [], 5, by decide +kernel, by decide +kernel⟩,
    ⟨queue31 R (fun x => { x with draining := true }), 31, by decide +kernel, by decide +kernel⟩,
    ⟨R, 5, by decide +kernel⟩,
    ⟨queue31 R (fun x => { x with running := true, r := 1 }), 5, 31, by decide +kernel, by show State.shape _ = _; decide +kernel, by decide +kernel, by decide +kernel, by decide +kernel⟩,
    ⟨queue31 R (fun x => { x with irqDue := true }), 31, by show State.shape _ = _; decide +kernel, by decide +kernel, by decide +kernel⟩,
    ⟨R, 31, by decide +kernel⟩,
    ⟨(R.onHost fun x => { x with waiting := [⟨⟨0x70, [], []⟩, true, false, 10000000000⟩] }), ⟨⟨0x70, [], []⟩, true, false, 10000000000⟩, by decide +kernel, by decide +kernel⟩⟩

theorem hyps_blockCommands :
    (∃ (s t : State) (q : Fin 32) (d : Desc), s.Turn q 0x01 anyArg d t ∧ 1 ≤ d.argByte 0 ∧ d.argByte 0 ≤ 3)
    ∧ (∃ (s t : State) (q : Fin 32) (d : Desc), s.Turn q 0x01 anyArg d t ∧ (d.argByte 0 = 0 ∨ 3 < d.argByte 0))
    ∧ (∃ (s t : State) (q : Fin 32) (d : Desc) (b : Nat × List Byte), s.Turn q 0x02 anyArg d t ∧ 1 ≤ d.argByte 0 ∧ d.argByte 0 ≤ 3 ∧ d.argByte 1 ≤ 1 ∧ (if d.argByte 1 = 0 then t.setup.blocks else t.setup.blocksAct).find? (fun b => decide (b.1 = d.argByte 0)) = some b ∧ b.2.length ≤ d.respLen)
    ∧ (∃ (s t : State) (q : Fin 32) (d : Desc), s.Turn q 0x02 anyArg d t ∧ 1 ≤ d.argByte 0 ∧ d.argByte 0 ≤ 3 ∧ d.argByte 1 ≤ 1 ∧ (if d.argByte 1 = 0 then t.setup.blocks else t.setup.blocksAct).find? (fun b => decide (b.1 = d.argByte 0)) = none)
    ∧ (∃ (s t : State) (q : Fin 32) (d : Desc), s.Turn q 0x34 anyArg d t ∧ d.argLe 0 2 ≤ 16383 ∧ 1 ≤ d.argLe 2 2 ∧ d.argLe 2 2 ≤ 16384 ∧ 64 * d.argLe 2 2 ≤ d.respLen)
    ∧ (∃ (s t : State) (q : Fin 32) (d : Desc), s.Turn q 0x34 anyArg d t ∧ d.argLe 0 2 ≤ 16383 ∧ 1 ≤ d.argLe 2 2 ∧ d.argLe 2 2 ≤ 16384 ∧ d.respLen < 64 * d.argLe 2 2)
    ∧ (∃ (s t : State) (q : Fin 32) (d : Desc), s.Turn q 0x34 anyArg d t ∧ (d.argLe 2 2 = 0 ∨ 16384 < d.argLe 2 2) ∧ d.argLe 0 2 ≤ 16383) :=
  ⟨⟨at_ (keyed (R) 6) (signed 0x01 6 [3] []), _, 0, signed 0x01 6 [3] [], turn (by decide +kernel) (by decide +kernel) (by decide +kernel) (by decide +kernel), by decide +kernel, by decide +kernel⟩,
    ⟨at_ (R) (desc 0x01 [0] [7] 0), _, 0, desc 0x01 [0] [7] 0, turn (by decide +kernel) (by decide +kernel) (by decide +kernel) (by decide +kernel), by decide +kernel⟩,
    ⟨at_ ((R.onSetup fun x => { x with blocks := [(1, bytes [5])] })) (desc 0x02 [1, 0] [] 1), _, 0, desc 0x02 [1, 0] [] 1, (1, bytes [5]), turn (by decide +kernel) (by decide +kernel) (by decide +kernel) (by decide +kernel), by decide +kernel, by decide +kernel, by decide +kernel, by decide +kernel, by decide +kernel⟩,
    ⟨at_ (R) (desc 0x02 [3, 1] [] 64), _, 0, desc 0x02 [3, 1] [] 64, turn (by decide +kernel) (by decide +kernel) (by decide +kernel) (by decide +kernel), by decide +kernel, by decide +kernel, by decide +kernel, by decide +kernel⟩,
    ⟨at_ (R) (desc 0x34 [255, 63, 0, 64] [] 1048576), _, 0, desc 0x34 [255, 63, 0, 64] [] 1048576, turn (by decide +kernel) (by decide +kernel) (by decide +kernel) (by decide +kernel), by decide +kernel, by decide +kernel, by decide +kernel, by decide +kernel⟩,
    ⟨at_ (R) (desc 0x34 [255, 63, 0, 64] [] 1048575), _, 0, desc 0x34 [255, 63, 0, 64] [] 1048575, turn (by decide +kernel) (by decide +kernel) (by decide +kernel) (by decide +kernel), by decide +kernel, by decide +kernel, by decide +kernel, by decide +kernel⟩,
    ⟨at_ (R) (desc 0x34 [255, 63, 1, 64] [] 64), _, 0, desc 0x34 [255, 63, 1, 64] [] 64, turn (by decide +kernel) (by decide +kernel) (by decide +kernel) (by decide +kernel), by decide +kernel, by decide +kernel⟩⟩

theorem hyps_descriptorChecks :
    (∃ (cls : Nat) (d : Desc), classAccepts cls d.opcode.toNat = false)
    ∧ (∃ (cls : Nat) (d : Desc), classAccepts cls d.opcode.toNat = true ∧ d.cmdId = 0xFFFF)
    ∧ (∃ (cls i : Nat) (d : Desc), classAccepts cls d.opcode.toNat = true ∧ i < 24 ∧ argUsed d.opcode.toNat (d.argByte 0) i = false ∧ d.argByte i ≠ 0)
    ∧ (∃ (cls : Nat) (d : Desc), preCheck cls true d = none)
    ∧ (∃ (s : State) (q status detail : Nat), (s.queue q).inMod = []) :=
  ⟨⟨8, (desc 0 [] [] 0), by decide +kernel⟩,
    ⟨0, { desc 0x11 [1] [] 0 with cmdId := 0xFFFF }, by decide +kernel, by decide +kernel⟩,
    ⟨0, 23, desc 0x11 (List.replicate 24 7) [] 0, by decide +kernel, by decide +kernel, by decide +kernel, by decide +kernel⟩,
    ⟨0, desc 0x11 [1] [] 0, by decide +kernel⟩,
    ⟨R, 31, 0, 0, by decide +kernel⟩⟩

theorem hyps_creditsHold :
    (∃ (x : Queue) (n : Nat), x.creditsOk = true)
    ∧ (∃ (s : State) (q i status detail len fl : Nat), q < s.host.queues.length ∧ (s.queue q).creditsOk = true)
    ∧ (∃ (s : State) (q i status detail len fl : Nat) (h : Held), q < s.host.queues.length ∧ (s.queue q).inMod[i]? = some h ∧ h.credit = true ∧ (s.queue q).cqWait = [] ∧ (s.queue q).cqUsed < s.cqEntries q)
    ∧ (∃ (s : State) (q i status detail len fl : Nat) (h : Held), q < s.host.queues.length ∧ (s.queue q).inMod[i]? = some h ∧ h.credit = false)
    ∧ (∃ (s : State) (q i status detail len fl : Nat) (h : Held), q < s.host.queues.length ∧ (s.queue q).inMod[i]? = some h ∧ s.cqEntries q ≤ (s.queue q).cqUsed)
    ∧ (∃ (s : State) (q : Nat) (w : CqWait), q < s.host.queues.length ∧ (s.queue q).cqUsed ≤ s.cqEntries q)
    ∧ (∃ (s : State) (q : Nat), q < s.host.queues.length ∧ (s.queue q).creditsOk = true) :=
  ⟨⟨Queue.reset, 5, by decide +kernel⟩,
    ⟨R, 31, 0, 0, 0, 0, 0, by decide +kernel, by decide +kernel⟩,
    ⟨queue31 R (fun x => { x with inMod := [⟨(desc 0 [] [] 0), true, 0, none, false⟩] }), 31, 0, 0, 0, 0, 0, ⟨(desc 0 [] [] 0), true, 0, none, false⟩, by decide +kernel, by decide +kernel, by decide +kernel, by decide +kernel, by decide +kernel⟩,
    ⟨queue31 R (fun x => { x with inMod := [⟨(desc 0 [] [] 0), false, 0, none, false⟩] }), 31, 0, 0, 0, 0, 0, ⟨(desc 0 [] [] 0), false, 0, none, false⟩, by decide +kernel, by decide +kernel, by decide +kernel⟩,
    ⟨queue31 R (fun x => { x with cqUsed := 16, inMod := [⟨(desc 0 [] [] 0), true, 0, none, false⟩] }), 31, 0, 0, 0, 0, 0, ⟨(desc 0 [] [] 0), true, 0, none, false⟩, by decide +kernel, by decide +kernel, by decide +kernel⟩,
    ⟨R, 31, ⟨⟨0, 0, 0, 0, 0, 0, 0, 0, false⟩, false, true⟩, by decide +kernel, by decide +kernel⟩,
    ⟨R, 31, by decide +kernel, by decide +kernel⟩⟩

theorem hyps_signedCommands :
    (∃ (s : State) (d : Desc) (r : Nat), d.signed = false)
    ∧ (∃ (s : State) (d : Desc), d.signed = false)
    ∧ (∃ (s : State) (d : Desc) (r : Nat) (k : KeySlot), d.signed = true ∧ 96 ≤ d.dataLen ∧ byteAt d.data d.trailer < 16 ∧ s.host.keys[byteAt d.data d.trailer]? = some k ∧ (k.st ≠ 1 ∨ k.role ≠ byteAt d.data (d.trailer + 1) ∨ byteAt d.data (d.trailer + 1) ≠ r))
    ∧ (∃ (s t : State) (d : Desc) (r : Nat), s.authorise d (some r) = (t, none))
    ∧ (∃ (s t : State) (d : Desc) (r : Nat), s.authorise d (some r) = (t, none) ∧ byteAt d.data d.trailer < s.host.keys.length)
    ∧ (∃ (s t : State) (d : Desc) (role : Option Nat) (p : Nat × Nat), s.authorise d role = (t, some p)) :=
  ⟨⟨R, (desc 0 [] [] 0), 4, by decide +kernel⟩,
    ⟨R, (desc 0 [] [] 0), by decide +kernel⟩,
    ⟨keyed R 4, signed 0x20 4 [1] [], 5, ⟨1, 4, 0, 0, 0⟩, by decide +kernel, by decide +kernel, by decide +kernel, by decide +kernel, by decide +kernel⟩,
    ⟨keyed R 4, _, signed 0x20 4 [1] [], 4, authorised (by decide +kernel)⟩,
    ⟨keyed R 4, _, signed 0x20 4 [1] [], 4, authorised (by decide +kernel), by decide +kernel⟩,
    ⟨R, _, (desc 0 [] [] 0), some 4, (St.authRequired, 0), authorised (by decide +kernel)⟩⟩

theorem hyps_backlogs :
    (∃ (b : Backlog), backlogBytes b ≤ 4194304)
    ∧ (∃ (b : Backlog) (l : Lost) (m : List Lost), b.lost = l :: m) :=
  ⟨⟨⟨[⟨1, 1000, 0, []⟩], []⟩, by decide +kernel⟩,
    ⟨⟨[], [⟨1, 1, 0⟩]⟩, ⟨1, 1, 0⟩, [], by decide +kernel⟩⟩

theorem hyps_ethernetCommands :
    (∃ (s : State) (ep : Fin 4) (a : Nat), s.ethRoom ep ∧ s.sending = true ∧ s.netAddr ep ≠ 0 ∧ a = s.netAddr ep)
    ∧ (∃ (s : State) (ep : Fin 4) (a : Nat), s.ethRoom ep ∧ a ≠ s.netAddr ep)
    ∧ (∃ (s : State) (ep : Fin 4) (a : Nat) (i n : BitVec 16) (b : List Byte), s.ethRoom ep ∧ s.sending = true ∧ s.netAddr ep ≠ 0 ∧ a = s.netAddr ep ∧ b.length ≤ 1472)
    ∧ (∃ (s : State) (ep : Fin 4), ep.val ≤ 1)
    ∧ (∃ (s : State) (ep : Fin 4), s.sized ∧ ¬s.ethRoom ep ∧ (s.ethPort ep).drops < 65535)
    ∧ (∃ (s : State) (ep : Fin 4) (up gig : Bool), s.sized)
    ∧ (∃ (s : State), s.sending = true ∧ Fld.netCfg_EN s.cfg 0 = true)
    ∧ (∃ (s : State) (lan : Fin 2) (mac : Nat), s.ethRoom lan ∧ s.sized)
    ∧ (∃ (l : List (Nat × Nat)) (mac now : Nat), l.length ≤ 256)
    ∧ (∃ (s : State) (e : Nat × Nat), oldestNode s.plant.nodes = some e)
    ∧ (∃ (s : State) (lan : Fin 2) (a : Nat), s.sized ∧ (s.ethPort lan).lanAt = some a ∧ (s.ethPort lan).prpUp = true)
    ∧ (∃ (s : State) (lan : Fin 2), s.ethRoom lan ∧ s.sized ∧ (s.ethPort lan).prpUp = false)
    ∧ (∃ (s : State) (n : Fin 4), s.sized) :=
  ⟨⟨netted svc, 3, 0x0A000301, by unfold State.ethRoom; decide +kernel, by decide +kernel, by decide +kernel, by decide +kernel⟩,
    ⟨netted svc, 3, 0x0A000302, by unfold State.ethRoom; decide +kernel, by decide +kernel⟩,
    ⟨netted svc, 3, 0x0A000301, 1, 2, [], by unfold State.ethRoom; decide +kernel, by decide +kernel, by decide +kernel, by decide +kernel, by decide +kernel⟩,
    ⟨R, 1, by decide +kernel⟩,
    ⟨eth 3 R { EthPort.reset with rx := 20000, drops := 65534 }, 3, by show State.shape _ = _; decide +kernel, by unfold State.ethRoom; decide +kernel, by decide +kernel⟩,
    ⟨R, 3, true, true, by show State.shape _ = _; decide +kernel⟩,
    ⟨netted svc, by decide +kernel, by decide +kernel⟩,
    ⟨R, 1, 7, by unfold State.ethRoom; decide +kernel, by show State.shape _ = _; decide +kernel⟩,
    ⟨List.replicate 256 (0, 0), 5, 5, Nat.le_of_eq List.length_replicate⟩,
    ⟨(R.onPlant fun x => { x with nodes := [(5, 7)] }), (5, 7), by decide +kernel⟩,
    ⟨eth 1 R { EthPort.reset with prpUp := true, lanAt := some 5 }, 1, 5, by show State.shape _ = _; decide +kernel, by decide +kernel, by decide +kernel⟩,
    ⟨R, 1, by unfold State.ethRoom; decide +kernel, by show State.shape _ = _; decide +kernel, by decide +kernel⟩,
    ⟨R, 3, by show State.shape _ = _; decide +kernel⟩⟩

theorem hyps_plantMessages :
    (∃ (s : State) (ep : Fin 4) (udp src : Nat) (b : List Byte), s.ethRoom ep ∧ s.netAddr ep ≠ 0 ∧ s.inService = true)
    ∧ (∃ (s : State) (ep : Fin 4) (udp src mac : Nat) (n : BitVec 16) (b : List Byte), s.ethRoom ep ∧ s.netAddr ep ≠ 0 ∧ s.inService = true ∧ ep.val ≤ 1 ∧ s.prpSeen mac n.toNat = true)
    ∧ (∃ (s : State) (ep : Fin 4) (udp src mac : Nat) (n : BitVec 16) (b : List Byte), s.ethRoom ep ∧ s.netAddr ep ≠ 0 ∧ s.inService = true ∧ ep.val ≤ 1 ∧ s.prpSeen mac n.toNat = false)
    ∧ (∃ (s : State) (ep udp src : Nat) (b : List Byte), (udp ≠ Fld.plantCfg_UDP s.cfg ∨ b.length < 32 ∨ byteAt b 0 ≠ 1 ∨ leAt b 2 2 ≠ b.length - 32 ∨ plantLen (byteAt b 1) (b.length - 32) = false))
    ∧ (∃ (s : State) (ep udp src : Nat) (b : List Byte), byteAt b 1 ≠ 0x20 ∧ s.cfg.get Reg.plantId = 0)
    ∧ (∃ (s : State) (b : List Byte), Fld.plantCfg_DISP s.cfg = false)
    ∧ (∃ (s : State) (b : List Byte) (l : Word), Fld.plantCfg_DISP s.cfg = true ∧ s.takeCopy ⟨0x11, b.take 8, []⟩ 1 = none ∧ 2 ≤ byteAt b 0 ∧ byteAt b 0 ≤ 4 ∧ zerosAt b 1 3 = true ∧ s.plant.sseq = some l ∧ newerSeq (some l) (BitVec.ofNat 32 (leAt b 4 4)) = false)
    ∧ (∃ (s : State) (b : List Byte), Fld.plantCfg_DISP s.cfg = true ∧ s.takeCopy ⟨0x11, b.take 8, []⟩ 1 = none ∧ byteAt b 0 = 1 ∧ s.plantActive = false) :=
  ⟨⟨netted svc, 3, 5, 6, [], by unfold State.ethRoom; decide +kernel, by decide +kernel, by decide +kernel⟩,
    ⟨((netted svc).onPlant fun x => { x with dups := [(7, 9, 0)] }), 1, 5, 6, 7, 9, [], by unfold State.ethRoom; decide +kernel, by decide +kernel, by decide +kernel, by decide +kernel, by decide +kernel⟩,
    ⟨netted svc, 1, 5, 6, 7, 9, [], by unfold State.ethRoom; decide +kernel, by decide +kernel, by decide +kernel, by decide +kernel, by decide +kernel⟩,
    ⟨R, 3, 5, 6, [], by decide +kernel⟩,
    ⟨R, 3, 5, 6, [], by decide +kernel, by decide +kernel⟩,
    ⟨cfg R [(0x0B34, 0)], [], by decide +kernel⟩,
    ⟨((cfg R [(0x0B34, 0x40000)]).onPlant fun x => { x with sseq := some 5 }), bytes [4, 0, 0, 0, 5, 0, 0, 0], 5, by decide +kernel, by decide +kernel, by decide +kernel, by decide +kernel, by decide +kernel, by decide +kernel, by decide +kernel⟩,
    ⟨cfg R [(0x0B34, 0x40000)], bytes [1], by decide +kernel, by decide +kernel, by decide +kernel, by decide +kernel⟩⟩

theorem hyps_canCommands :
    (∃ (s : State) (p : Fin 6) (ext : Bool) (ident sof : Nat) (data : List Byte), s.canOn p = false)
    ∧ (∃ (s : State) (p : Fin 6) (ident sof : Nat) (data : List Byte) (r : CanRow), s.canOn p = true ∧ s.isPair = false ∧ (s.canHeard p).objectFor p false ident = some r ∧ 128 * r.port + r.obj < s.plant.objs.length)
    ∧ (∃ (s : State) (p : Fin 6) (o : Fin 128) (r : CanRow), s.sized ∧ s.canRow p o = some r ∧ r.dir = 1 ∧ r.period ≠ 0 ∧ (s.canObj p o).lost = false)
    ∧ (∃ (s : State) (p : Fin 6) (o : Fin 128) (r : CanRow), s.sized ∧ s.canRow p o = some r ∧ r.dir = 2 ∧ r.period ≠ 0 ∧ r.port = p.val ∧ r.obj = o.val ∧ Fld.canCfg_EN s.cfg p = true ∧ s.twin.txOff = false ∧ s.isPair = false)
    ∧ (∃ (s : State) (p : Fin 6), s.sized ∧ Fld.canCfg_ANNOUNCE s.cfg p = true ∧ ((Fld.canCfg_PROTO s.cfg p = false ∨ s.life.guard_ = true)) ∧ s.sending = true ∧ Fld.canCfg_EN s.cfg p = true ∧ (s.canPort p).express.length = 3)
    ∧ (∃ (s : State) (p : Fin 6) (n : Nat) (err : Fin 7) (d : Bool), (s.canOn p = false ∨ s.offered p n = none))
    ∧ (∃ (s : State) (p : Fin 6) (n : Nat) (d : Bool) (x : Offer), s.sized ∧ s.canOn p = true ∧ s.offered p n = some x)
    ∧ (∃ (s : State) (p : Fin 6) (n : Nat) (d : Bool) (x : Offer), s.sized ∧ s.canOn p = true ∧ s.offered p n = some x ∧ (s.canPort p).st = 0 ∧ (s.canPort p).tec ≤ 247 ∧ (s.canPort p).ackRun = 15 ∧ (s.canPort p).alone = false)
    ∧ (∃ (s : State) (p : Fin 6) (n : Nat) (x : Offer), s.sized ∧ s.canOn p = true ∧ s.offered p n = some x ∧ (s.canPort p).st = 1 ∧ (s.canPort p).tec ≤ 255)
    ∧ (∃ (s : State) (p : Fin 6) (n : Nat) (e : Fin 7) (x : Offer), s.sized ∧ s.canOn p = true ∧ s.offered p n = some x ∧ e.val ≠ 0 ∧ e.val ≠ 3 ∧ 247 < (s.canPort p).tec)
    ∧ (∃ (s : State) (p : Fin 6), s.sized ∧ 2 ≤ (s.canPort p).st)
    ∧ (∃ (s : State) (n : Fin 6), s.sized)
    ∧ (∃ (s : State) (p n : Nat) (x : Offer), s.offered p n = some x)
    ∧ (∃ (x : CanTx) (n : Nat), x.at_ ≤ n)
    ∧ (∃ (x : CanTx) (n : Nat) (ok : Bool), n < x.at_) :=
  ⟨⟨R, 5, true, 5, 6, [], by decide +kernel⟩,
    ⟨site [canLine 1] [] (can5 R CanPort.reset), 5, 1, 6, [], canRow5 1, by decide +kernel, by decide +kernel, by decide +kernel, by decide +kernel⟩,
    ⟨site [canLine 1] [] R, 5, 127, canRow5 1, by show State.shape _ = _; decide +kernel, by decide +kernel, by decide +kernel, by decide +kernel, by decide +kernel⟩,
    ⟨site [canLine 2] [] (can5 svc CanPort.reset), 5, 127, canRow5 2, by show State.shape _ = _; decide +kernel, by decide +kernel, by decide +kernel, by decide +kernel, by decide +kernel, by decide +kernel, by decide +kernel, by decide +kernel, by decide +kernel⟩,
    ⟨cfg svc [(0x0B74, 0x201)], 5, by show State.shape _ = _; decide +kernel, by decide +kernel, by decide +kernel, by decide +kernel, by decide +kernel, by decide +kernel⟩,
    ⟨R, 5, 5, 6, true, by decide +kernel⟩,
    ⟨offering id, 5, 0, true, offer0, by show State.shape _ = _; decide +kernel, by decide +kernel, by decide +kernel⟩,
    ⟨offering (fun x => { x with tec := 247, ackRun := 15 }), 5, 0, true, offer0, by show State.shape _ = _; decide +kernel, by decide +kernel, by decide +kernel, by decide +kernel, by decide +kernel, by decide +kernel, by decide +kernel⟩,
    ⟨offering (fun x => { x with tec := 255, st := 1 }), 5, 0, offer0, by show State.shape _ = _; decide +kernel, by decide +kernel, by decide +kernel, by decide +kernel, by decide +kernel⟩,
    ⟨offering (fun x => { x with tec := 248, st := 1 }), 5, 0, 6, offer0, by show State.shape _ = _; decide +kernel, by decide +kernel, by decide +kernel, by decide +kernel, by decide +kernel, by decide +kernel⟩,
    ⟨can5 R { CanPort.reset with st := 2 }, 5, by show State.shape _ = _; decide +kernel, by decide +kernel⟩,
    ⟨R, 5, by show State.shape _ = _; decide +kernel⟩,
    ⟨offering id, 5, 0, offer0, by decide +kernel⟩,
    ⟨tx0, 0, by decide +kernel⟩,
    ⟨{ tx0 with at_ := 1 }, 0, true, by decide +kernel⟩⟩

theorem hyps_modbusCommands :
    (∃ (s : State) (p : Fin 4), (Fld.sbCfg_EN s.cfg p = false ∨ (s.sbPort p).cur.isSome = true ∨ s.twin.txOff = true))
    ∧ (∃ (s : State) (p : Fin 4) (e a : Nat) (r : MbRow), s.sized ∧ Fld.sbCfg_EN s.cfg p = true ∧ (s.sbPort p).cur = none ∧ s.twin.txOff = false ∧ s.portRows p = [(e, r)] ∧ (s.mbEntry e).due = some a ∧ e < s.plant.mb.length)
    ∧ (∃ (s : State) (p : Fin 4) (b : List Byte) (whole : Bool) (e k n : Nat) (r : MbRow) (l : List Nat), s.sized ∧ s.isPair = false ∧ (s.sbPort p).cur = some (e, k, n) ∧ s.mbRow e = some r ∧ mbReply r (s.sbPort p).sent b whole = .ok l ∧ e < s.plant.mb.length)
    ∧ (∃ (s : State) (p : Fin 4) (b : List Byte) (whole : Bool) (e k n c x : Nat) (r : MbRow), (s.sbPort p).cur = some (e, k, n) ∧ s.mbRow e = some r ∧ mbReply r (s.sbPort p).sent b whole = .error (c, x) ∧ k < Fld.sbCfg_RETRY s.cfg p)
    ∧ (∃ (s : State) (p : Fin 4) (e k n : Nat) (r : MbRow), s.sized ∧ (s.sbPort p).cur = some (e, k, n) ∧ s.mbRow e = some r ∧ Fld.sbCfg_RETRY s.cfg p ≤ k ∧ e < s.plant.mb.length)
    ∧ (∃ (s : State) (p : Fin 4), (s.sbPort p).cur = none)
    ∧ (∃ (s : State) (p : Fin 4), s.sized)
    ∧ (∃ (s : State) (n : Fin 4), s.sized)
    ∧ (∃ (r : MbRow) (l : List Nat) (b : List Byte), 5 ≤ b.length ∧ leAt b (b.length - 2) 2 = crcModbus (b.take (b.length - 2)) ∧ byteAt b 0 = r.slave ∧ byteAt b 1 = r.func + 128)
    ∧ (∃ (s : State), s.isPair = false) :=
  ⟨⟨R, 3, by decide +kernel⟩,
    ⟨site [] [mbLine] ((((cfg R [(0x0BAC, 1)]).onPlant fun x => { x with mb := x.mb.set 0 { MbEntry.reset with due := some 5 } })).onTwin fun x => { x with txOff := false }), 3, 0, 5, mbRow3, by show State.shape _ = _; decide +kernel, by decide +kernel, by decide +kernel, by decide +kernel, by decide +kernel, by decide +kernel, by decide +kernel⟩,
    ⟨site [] [mbLine] (sb3 R (some (0, 0, 5))), 3, reply [7, 3, 2, 1, 4], true, 0, 0, 5, mbRow3, [260], by show State.shape _ = _; decide +kernel, by decide +kernel, by decide +kernel, by decide +kernel, okOf (by decide +kernel), by decide +kernel⟩,
    ⟨site [] [mbLine] (sb3 (cfg R [(0x0BAC, 0x8001)]) (some (0, 0, 5))), 3, [], true, 0, 0, 5, 2, 0, mbRow3, by decide +kernel, by decide +kernel, errorOf (by decide +kernel), by decide +kernel⟩,
    ⟨site [] [mbLine] (sb3 (cfg R [(0x0BAC, 0x8001)]) (some (0, 1, 5))), 3, 0, 1, 5, mbRow3, by show State.shape _ = _; decide +kernel, by decide +kernel, by decide +kernel, by decide +kernel, by decide +kernel⟩,
    ⟨R, 3, by decide +kernel⟩,
    ⟨R, 3, by show State.shape _ = _; decide +kernel⟩,
    ⟨R, 3, by show State.shape _ = _; decide +kernel⟩,
    ⟨mbRow3, [], reply [7, 131, 2], by decide +kernel, by decide +kernel, by decide +kernel, by decide +kernel⟩,
    ⟨R, by decide +kernel⟩⟩

theorem hyps_pairFrames :
    (∃ (s : State) (h : PairHead) (f : State → State), h.pseq ∈ s.twin.pseqSeen)
    ∧ (∃ (s : State) (link : Fin 2) (a : Nat), s.sized ∧ s.twin.linkUp.getD link.val false = true ∧ s.twin.lastFrame.getD link.val none = some a)
    ∧ (∃ (s : State) (h : PairHead) (r : Fin 8) (e : End) (late : Bool) (first count grid receipt : Nat) (b : List Byte), s.isPair = true ∧ h.pseq ∉ s.twin.pseqSeen ∧ s.agrees = true)
    ∧ (∃ (s : State) (h : PairHead) (l : Fin 8) (receipt : Nat) (b : List Byte) (f : StatusFrame), s.isPair = true ∧ h.pseq ∉ s.twin.pseqSeen ∧ s.agrees = true ∧ parseStatus l b = some f ∧ l.val < s.links)
    ∧ (∃ (s : State) (h : PairHead) (l : List PairInput), s.isPair = true ∧ h.pseq ∉ s.twin.pseqSeen ∧ s.agrees = true)
    ∧ (∃ (s : State) (h : PairHead) (c : Cmd) (src : Fin 2) (a : Nat), s.isPair = true ∧ h.pseq ∉ s.twin.pseqSeen ∧ s.agrees = true ∧ c.opcode.toNat ≠ 0 ∧ bothOpcodes.contains c.opcode.toNat = true)
    ∧ (∃ (s : State) (h : PairHead) (c : Cmd) (src : Fin 2) (a : Nat), s.isPair = true ∧ h.pseq ∉ s.twin.pseqSeen ∧ s.agrees = true ∧ c.opcode = 0x30)
    ∧ (∃ (s : State) (c : Cmd) (a : Nat) (w : WaitCmd), s.host.waiting = [w] ∧ w.cmd = c ∧ w.own = true ∧ w.peer = false)
    ∧ (∃ (s : State) (h : PairHead) (b : List Byte) (p : SafetyPdu), s.isPair = true ∧ h.pseq ∉ s.twin.pseqSeen ∧ s.computes = true ∧ parsePdu b = some p)
    ∧ (∃ (s : State) (n : Nat), s.isPair = true ∧ s.computes = true ∧ s.twin.digestPeer = none)
    ∧ (∃ (s : State) (n : Nat) (x y : Word), s.twin.digestOwn = some (n, x) ∧ s.twin.digestPeer = some (n, y) ∧ s.twin.st = .joined ∧ x ≠ y ∧ s.isJunior = true)
    ∧ (∃ (s : State) (n : Nat) (x y : Word), s.twin.digestOwn = some (n, x) ∧ s.twin.digestPeer = some (n, y) ∧ s.twin.st = .joined ∧ x ≠ y ∧ s.isJunior = false)
    ∧ (∃ (s : State) (n : Nat) (x : Word), s.twin.digestOwn = some (n, x) ∧ s.twin.digestPeer = some (n, x) ∧ s.twin.st = .joined)
    ∧ (∃ (s : State) (h : PairHead) (n c : Nat) (d : Word) (p : List Bool) (u : List Nat), s.isPair = true ∧ h.pseq ∉ s.twin.pseqSeen ∧ s.twin.st = .alone) :=
  ⟨⟨(R.onTwin fun x => { x with pseqSeen := [5] }), pair5, id, by decide +kernel⟩,
    ⟨(R.onTwin fun x => { x with linkUp := [false, true], lastFrame := [none, some 7] }), 1, 7, by show State.shape _ = _; decide +kernel, by decide +kernel, by decide +kernel⟩,
    ⟨junior, pair5, 7, .b, true, 0, 1, 65535, 0, [], by decide +kernel, by decide +kernel, by decide +kernel⟩,
    ⟨(junior.onSetup fun x => { x with active := [(0x0400, 0x0001148A)] }), pair5, 7, 0, status7, statusFrame, by decide +kernel, by decide +kernel, by decide +kernel, by decide +kernel, by decide +kernel⟩,
    ⟨senior, pair5, [], by decide +kernel, by decide +kernel, by decide +kernel⟩,
    ⟨senior, pair5, ⟨0x70, [], []⟩, 1, 5, by decide +kernel, by decide +kernel, by decide +kernel, by decide +kernel, by decide +kernel⟩,
    ⟨senior, pair5, ⟨0x30, [], []⟩, 1, 5, by decide +kernel, by decide +kernel, by decide +kernel, by decide +kernel⟩,
    ⟨(senior.onHost fun x => { x with waiting := [⟨⟨0x14, [], []⟩, true, false, 5⟩] }), ⟨0x14, [], []⟩, 6, ⟨⟨0x14, [], []⟩, true, false, 5⟩, by decide +kernel, by decide +kernel, by decide +kernel, by decide +kernel⟩,
    ⟨senior, pair5, pdu0, pdu 0 0, by decide +kernel, by decide +kernel, by decide +kernel, by decide +kernel⟩,
    ⟨senior, 3, by decide +kernel, by decide +kernel, by decide +kernel⟩,
    ⟨(junior.onTwin fun x => { x with digestOwn := some (3, 5), digestPeer := some (3, 6) }), 3, 5, 6, by decide +kernel, by decide +kernel, by decide +kernel, by decide +kernel, by decide +kernel⟩,
    ⟨(senior.onTwin fun x => { x with digestOwn := some (3, 5), digestPeer := some (3, 6) }), 3, 5, 6, by decide +kernel, by decide +kernel, by decide +kernel, by decide +kernel, by decide +kernel⟩,
    ⟨(senior.onTwin fun x => { x with digestOwn := some (3, 5), digestPeer := some (3, 5) }), 3, 5, by decide +kernel, by decide +kernel, by decide +kernel⟩,
    ⟨(senior.onTwin fun x => { x with st := .alone }), pair5, 3, 4, 5, [], [], by decide +kernel, by decide +kernel, by decide +kernel⟩⟩

theorem hyps_pairCatchUp :
    (∃ (s : State) (h : PairHead) (c : Byte), s.isPair = true ∧ h.pseq ∉ s.twin.pseqSeen ∧ s.twin.st = .joined)
    ∧ (∃ (s : State) (h : PairHead) (c : Byte), s.isPair = true ∧ h.pseq ∉ s.twin.pseqSeen ∧ s.twin.st = .solo)
    ∧ (∃ (s : State) (c : Nat), s.twin.becomeAlone = some c ∧ s.twin.silent = false)
    ∧ (∃ (s : State) (h : PairHead) (c : Byte), s.isPair = true ∧ h.pseq ∉ s.twin.pseqSeen ∧ s.sending = true ∧ s.twin.catchUp = none)
    ∧ (∃ (s : State) (k : CatchUp), s.isPair = true ∧ s.twin.catchUp = some k ∧ k.supplying = true ∧ k.step = .restarting)
    ∧ (∃ (s : State) (h : PairHead) (i o : Nat) (b : List Byte) (k : CatchUp), s.isPair = true ∧ h.pseq ∉ s.twin.pseqSeen ∧ s.twin.st = .catching ∧ s.twin.catchUp = some k ∧ k.supplying = false ∧ k.step = .transfer ∧ i ≠ 0)
    ∧ (∃ (c : CatchUp) (i j : Nat) (b : List Byte), i ≠ j)
    ∧ (∃ (s : State) (k : CatchUp), s.twin.catchUp = some k ∧ k.step = .replay ∧ k.supplying = false)
    ∧ (∃ (s : State) (h : PairHead) (e : Nat) (k : CatchUp), s.isPair = true ∧ h.pseq ∉ s.twin.pseqSeen ∧ s.twin.catchUp = some k ∧ k.supplying = true ∧ eventValid e = true)
    ∧ (∃ (s : State) (h : PairHead) (e : Nat) (k : CatchUp), s.isPair = true ∧ h.pseq ∉ s.twin.pseqSeen ∧ s.twin.catchUp = some k ∧ k.reentry = some (s.fineOf e) ∧ eventValid e = true)
    ∧ (∃ (s : State) (k : CatchUp) (e : Nat), s.twin.catchUp = some k ∧ k.reentry = some e ∧ k.echoed = true ∧ k.step = .exact ∧ k.supplying = false)
    ∧ (∃ (s : State) (k : CatchUp) (e : Nat), s.twin.catchUp = some k ∧ k.reentry = some e ∧ k.echoed = true ∧ k.step = .exact ∧ k.supplying = true ∧ s.sending = true)
    ∧ (∃ (s : State) (k : CatchUp) (e : Nat), s.twin.catchUp = some k ∧ k.reentry = some e ∧ k.echoed = false ∧ k.supplying = false)
    ∧ (∃ (s : State) (k : CatchUp), s.twin.catchUp = some k ∧ k.supplying = false ∧ s.twin.st = .catching ∧ k.step ≠ .exact ∧ k.attempt < 3)
    ∧ (∃ (s : State) (k : CatchUp), s.twin.catchUp = some k ∧ k.supplying = false ∧ s.twin.st = .catching ∧ k.step ≠ .exact ∧ 3 ≤ k.attempt ∧ s.life.probation = false) :=
  ⟨⟨senior, pair5, 3, by decide +kernel, by decide +kernel, by decide +kernel⟩,
    ⟨(senior.onTwin fun x => { x with st := .solo }), pair5, 3, by decide +kernel, by decide +kernel, by decide +kernel⟩,
    ⟨(senior.onTwin fun x => { x with becomeAlone := some 3 }), 3, by decide +kernel, by decide +kernel⟩,
    ⟨senior, pair5, 3, by decide +kernel, by decide +kernel, by decide +kernel, by decide +kernel⟩,
    ⟨(senior.onTwin fun x => { x with catchUp := some (catchUp .restarting true) }), catchUp .restarting true, by decide +kernel, by decide +kernel, by decide +kernel, by decide +kernel⟩,
    ⟨(senior.onTwin fun x => { x with st := .catching, catchUp := some (catchUp .transfer false) }), pair5, 1, 0, [], catchUp .transfer false, by decide +kernel, by decide +kernel, by decide +kernel, by decide +kernel, by decide +kernel, by decide +kernel, by decide +kernel⟩,
    ⟨catchUp .transfer false, 1, 2, [], by decide +kernel⟩,
    ⟨(senior.onTwin fun x => { x with catchUp := some (catchUp .replay false) }), catchUp .replay false, by decide +kernel, by decide +kernel, by decide +kernel⟩,
    ⟨(senior.onTwin fun x => { x with catchUp := some (catchUp .replay true) }), pair5, 4000000, catchUp .replay true, by decide +kernel, by decide +kernel, by decide +kernel, by decide +kernel, by decide +kernel⟩,
    ⟨(senior.onTwin fun x => { x with catchUp := some { catchUp .exact false with reentry := some 5 } }), pair5, 5, { catchUp .exact false with reentry := some 5 }, by decide +kernel, by decide +kernel, by decide +kernel, by decide +kernel, by decide +kernel⟩,
    ⟨(senior.onTwin fun x => { x with catchUp := some { catchUp .exact false with reentry := some 5, echoed := true } }), { catchUp .exact false with reentry := some 5, echoed := true }, 5, by decide +kernel, by decide +kernel, by decide +kernel, by decide +kernel, by decide +kernel⟩,
    ⟨(senior.onTwin fun x => { x with catchUp := some { catchUp .exact true with reentry := some 5, echoed := true } }), { catchUp .exact true with reentry := some 5, echoed := true }, 5, by decide +kernel, by decide +kernel, by decide +kernel, by decide +kernel, by decide +kernel, by decide +kernel⟩,
    ⟨(senior.onTwin fun x => { x with catchUp := some { catchUp .exact false with reentry := some 5 } }), { catchUp .exact false with reentry := some 5 }, 5, by decide +kernel, by decide +kernel, by decide +kernel, by decide +kernel⟩,
    ⟨(senior.onTwin fun x => { x with st := .catching, catchUp := some { catchUp .transfer false with attempt := 2 } }), { catchUp .transfer false with attempt := 2 }, by decide +kernel, by decide +kernel, by decide +kernel, by decide +kernel, by decide +kernel⟩,
    ⟨(senior.onTwin fun x => { x with st := .catching, catchUp := some { catchUp .transfer false with attempt := 3 } }), { catchUp .transfer false with attempt := 3 }, by decide +kernel, by decide +kernel, by decide +kernel, by decide +kernel, by decide +kernel, by decide +kernel⟩⟩

theorem hyps_pairLeaving :
    (∃ (s : State), s.twin.st = .joined ∧ s.pathAlive = false ∧ s.twin.becomeAlone = none ∧ s.witness = false)
    ∧ (∃ (s : State), s.twin.st = .joined ∧ s.pathAlive = false ∧ s.twin.becomeAlone = none ∧ s.witness = true)
    ∧ (∃ (s : State) (o : Int), s.twin.st = .solo ∧ mag o ≤ 1000)
    ∧ (∃ (s : State) (o : Int), s.twin.st = .solo ∧ 1000 < mag o ∧ s.isJunior = true)
    ∧ (∃ (s : State) (o : Int), s.twin.st = .solo ∧ 1000 < mag o ∧ s.isJunior = false)
    ∧ (∃ (s : State) (k p : Byte), s.actsSingle = true)
    ∧ (∃ (s : State) (k p : Byte), s.actsSingle = false ∧ s.twin.st = .joined)
    ∧ (∃ (s : State) (c : Nat), s.twin.st = .joined ∧ c ≠ 10 ∧ countedWithdrawals (s.twin.history.filter (fun e => decide (s.now < e.1 + day))) = 2)
    ∧ (∃ (s : State) (c : Nat), s.twin.st = .joined ∧ countedWithdrawals (s.twin.history.filter (fun e => decide (s.now < e.1 + day))) < 2)
    ∧ (∃ (s : State) (a : Nat), s.twin.exposure.openAt = some a ∧ s.twin.exposure.noticed = false ∧ s.twin.txOff = false)
    ∧ (∃ (s : State) (a : Nat), s.twin.exposure.openAt = some a ∧ s.twin.exposure.exceededAt = none ∧ s.twin.txOff = false)
    ∧ (∃ (s : State) (a b : Nat), s.twin.exposure.openAt = some a ∧ s.twin.exposure.exceededAt = some b ∧ s.twin.txOff = false)
    ∧ (∃ (s : State) (a j : Nat), s.twin.exposure.openAt = some a ∧ s.twin.exposure.joinedSince = some j ∧ s.twin.st = .joined) :=
  ⟨⟨senior, by decide +kernel, by decide +kernel, by decide +kernel, by decide +kernel⟩,
    ⟨((running (cfg senior [(0x0400, 0x0001141A), (0x0C00, 0x20)])).onGate fun x => { x with receivers := x.receivers.map (fun r => { r with started := true }), phases := x.phases.map (fun p => { p with noPeer := 16 }) }), by decide +kernel, by decide +kernel, by decide +kernel, by decide +kernel⟩,
    ⟨(junior.onTwin fun x => { x with st := .solo }), -1000, by decide +kernel, by decide +kernel⟩,
    ⟨(junior.onTwin fun x => { x with st := .solo }), -1001, by decide +kernel, by decide +kernel, by decide +kernel⟩,
    ⟨(senior.onTwin fun x => { x with st := .solo }), 1001, by decide +kernel, by decide +kernel, by decide +kernel⟩,
    ⟨R, 3, 4, by decide +kernel⟩,
    ⟨senior, 3, 4, by decide +kernel, by decide +kernel⟩,
    ⟨(senior.onTwin fun x => { x with history := [(0, 3), (0, 10), (0, 4)] }), 9, by decide +kernel, by decide +kernel, by decide +kernel⟩,
    ⟨(senior.onTwin fun x => { x with history := [(0, 3), (0, 10)] }), 9, by decide +kernel, by decide +kernel⟩,
    ⟨(senior.onTwin fun x => { x with exposure := window false false }), 5, by decide +kernel, by decide +kernel, by decide +kernel⟩,
    ⟨(senior.onTwin fun x => { x with exposure := window true false }), 5, by decide +kernel, by decide +kernel, by decide +kernel⟩,
    ⟨(senior.onTwin fun x => { x with exposure := { window true false with exceededAt := some 6 } }), 5, 6, by decide +kernel, by decide +kernel, by decide +kernel⟩,
    ⟨(senior.onTwin fun x => { x with exposure := window true true }), 5, 7, by decide +kernel, by decide +kernel, by decide +kernel⟩⟩

theorem hyps_recorderCommands :
    (∃ (s : State) (e : Event) (l : List Event), s.rec_.detected = e :: l ∧ s.recStopped = false ∧ s.rec_.holding = [] ∧ s.rec_.slots.length + 2 < recSlots)
    ∧ (∃ (s : State) (e : Event) (l : List Event), s.rec_.detected = e :: l ∧ (s.recStopped = true ∨ s.rec_.holding ≠ []) ∧ s.rec_.holding.length < 4096)
    ∧ (∃ (s : State) (e : Event) (l : List Event) (r : Rec), s.rec_.detected = e :: l ∧ s.recStopped = false ∧ s.rec_.holding = [] ∧ s.rec_.slots.length + 2 = recSlots ∧ s.rec_.slots.head? = some r)
    ∧ (∃ (s : State) (e : Event) (l : List Event), s.rec_.detected = e :: l ∧ s.recStopped = false ∧ s.rec_.holding = [] ∧ s.rec_.full = true)
    ∧ (∃ (s : State), s.recStopped = true)
    ∧ (∃ (s : State), s.recStopped = false)
    ∧ (∃ (s : State) (n : Nat), s.nvmBarred = false)
    ∧ (∃ (s : State) (a : Nat), s.rec_.freezeHost = some a)
    ∧ (∃ (s : State) (a : Nat), s.rec_.freezeSvc = some a)
    ∧ (∃ (s t : State) (q : Fin 32) (d : Desc), s.Turn q 0x60 (op0 1) d t ∧ 1 ≤ d.argLe 8 4 ∧ d.argLe 8 4 ≤ 262144 ∧ (BitVec.ofNat 32 (d.argLe 4 4) - t.rec_.firstRseq).toNat < t.rec_.slots.length ∧ 64 * min (d.argLe 8 4) (t.rec_.slots.length - (BitVec.ofNat 32 (d.argLe 4 4) - t.rec_.firstRseq).toNat) ≤ d.respLen)
    ∧ (∃ (s t : State) (q : Fin 32) (d : Desc), s.Turn q 0x60 (op0 1) d t ∧ 1 ≤ d.argLe 8 4 ∧ d.argLe 8 4 ≤ 262144 ∧ t.rec_.slots.length ≤ (BitVec.ofNat 32 (d.argLe 4 4) - t.rec_.firstRseq).toNat)
    ∧ (∃ (s t : State) (q : Fin 32) (d : Desc), s.Turn q 0x60 (op0 2) d t)
    ∧ (∃ (s t : State) (q : Fin 32) (d : Desc), s.Turn q 0x60 (op0 3) d t ∧ t.rec_.freezeHost = none)
    ∧ (∃ (s t : State) (q : Fin 32) (d : Desc), s.Turn q 0x60 (op0 3) d t ∧ t.rec_.freezeHost ≠ none)
    ∧ (∃ (s t : State) (q : Fin 32) (d : Desc), s.Turn q 0x60 (op0 4) d t ∧ BitVec.ofNat 32 (d.argLe 4 4) ≠ t.rec_.nextRseq - 1)
    ∧ (∃ (s t : State) (q : Fin 32) (d : Desc), s.Turn q 0x60 (op0 4) d t ∧ BitVec.ofNat 32 (d.argLe 4 4) = t.rec_.nextRseq - 1 ∧ 64 ≤ t.rec_.clears.length)
    ∧ (∃ (s t : State) (q : Fin 32) (d : Desc), s.Turn q 0x60 (op0 4) d t ∧ BitVec.ofNat 32 (d.argLe 4 4) = t.rec_.nextRseq - 1 ∧ t.rec_.clears.length < 64 ∧ t.nvmBarred = true)
    ∧ (∃ (s t : State) (q : Fin 32) (d : Desc), s.Turn q 0x60 (op0 4) d t ∧ BitVec.ofNat 32 (d.argLe 4 4) = t.rec_.nextRseq - 1 ∧ t.rec_.clears.length < 64 ∧ t.nvmBarred = false)
    ∧ (∃ (s t : State) (q : Fin 32) (d : Desc), s.Turn q 0x60 (op0 5) d t ∧ 4160 ≤ d.respLen)
    ∧ (∃ (s t : State) (q : Fin 32) (d : Desc), s.Turn q 0x60 (op0 6) d t ∧ 64 * Ev.table.length ≤ d.respLen) :=
  ⟨⟨recOn (fun x => { x with detected := [event 3] }), event 3, [], by decide +kernel, by decide +kernel, by decide +kernel, by decide +kernel⟩,
    ⟨onRec R (fun x => { x with detected := [event 3] }), event 3, [], by decide +kernel, by decide +kernel, by decide +kernel⟩,
    ⟨recOn (fun x => { x with detected := [event 3], slots := List.replicate 1048574 record0 }), event 3, [], record0, by decide +kernel, by decide +kernel, by decide +kernel, (by rw [slots_length 1048574 rfl]; rfl), slots_head 1048573 rfl⟩,
    ⟨recOn (fun x => { x with detected := [event 3], slots := List.replicate 1048576 record0 }), event 3, [], by decide +kernel, by decide +kernel, by decide +kernel, full_of 1048576 rfl (by decide)⟩,
    ⟨R, by decide +kernel⟩,
    ⟨recOn id, by decide +kernel⟩,
    ⟨R, 3, by decide +kernel⟩,
    ⟨onRec R (fun x => { x with freezeHost := some 5 }), 5, by decide +kernel⟩,
    ⟨onRec R (fun x => { x with freezeSvc := some 5 }), 5, by decide +kernel⟩,
    ⟨at_ (recOn (fun x => { x with slots := [record0] })) (desc 0x60 [1, 0, 0, 0, 0, 0, 0, 0, 0, 0, 4, 0] [] 64), _, 0, desc 0x60 [1, 0, 0, 0, 0, 0, 0, 0, 0, 0, 4, 0] [] 64, turn (by decide +kernel) (by decide +kernel) (by decide +kernel) (by decide +kernel), by decide +kernel, by decide +kernel, by decide +kernel, by decide +kernel⟩,
    ⟨at_ (recOn (fun x => { x with slots := [record0] })) (desc 0x60 [1, 0, 0, 0, 1, 0, 0, 0, 0, 0, 4, 0] [] 64), _, 0, desc 0x60 [1, 0, 0, 0, 1, 0, 0, 0, 0, 0, 4, 0] [] 64, turn (by decide +kernel) (by decide +kernel) (by decide +kernel) (by decide +kernel), by decide +kernel, by decide +kernel, by decide +kernel⟩,
    ⟨at_ (R) (desc 0x60 [2] [] 0), _, 0, desc 0x60 [2] [] 0, turn (by decide +kernel) (by decide +kernel) (by decide +kernel) (by decide +kernel)⟩,
    ⟨at_ (R) (desc 0x60 [3] [] 0), _, 0, desc 0x60 [3] [] 0, turn (by decide +kernel) (by decide +kernel) (by decide +kernel) (by decide +kernel), by decide +kernel⟩,
    ⟨at_ (onRec R (fun x => { x with freezeHost := some 5 })) (desc 0x60 [3] [] 0), _, 0, desc 0x60 [3] [] 0, turn (by decide +kernel) (by decide +kernel) (by decide +kernel) (by decide +kernel), by decide +kernel⟩,
    ⟨at_ (keyed (R) 1) (signed 0x60 1 [4, 0, 0, 0, 5, 0, 0, 0] []), _, 0, signed 0x60 1 [4, 0, 0, 0, 5, 0, 0, 0] [], turn (by decide +kernel) (by decide +kernel) (by decide +kernel) (by decide +kernel), by decide +kernel⟩,
    ⟨at_ (keyed (onRec R (fun x => { x with clears := List.replicate 64 ⟨0, 0, 0, 0, 0, 0, 0, 0⟩ })) 1) (signed 0x60 1 [4, 0, 0, 0, 255, 255, 255, 255] []), _, 0, signed 0x60 1 [4, 0, 0, 0, 255, 255, 255, 255] [], turn (by decide +kernel) (by decide +kernel) (by decide +kernel) (by decide +kernel), by decide +kernel, by decide +kernel⟩,
    ⟨at_ (keyed (R.onTherm (fun x => { x with die := { x.die with barred := true } })) 1) (signed 0x60 1 [4, 0, 0, 0, 255, 255, 255, 255] []), _, 0, signed 0x60 1 [4, 0, 0, 0, 255, 255, 255, 255] [], turn (by decide +kernel) (by decide +kernel) (by decide +kernel) (by decide +kernel), by decide +kernel, by decide +kernel, by decide +kernel⟩,
    ⟨at_ (keyed (R) 1) (signed 0x60 1 [4, 0, 0, 0, 255, 255, 255, 255] []), _, 0, signed 0x60 1 [4, 0, 0, 0, 255, 255, 255, 255] [], turn (by decide +kernel) (by decide +kernel) (by decide +kernel) (by decide +kernel), by decide +kernel, by decide +kernel, by decide +kernel⟩,
    ⟨at_ (R) (desc 0x60 [5] [] 4160), _, 0, desc 0x60 [5] [] 4160, turn (by decide +kernel) (by decide +kernel) (by decide +kernel) (by decide +kernel), by decide +kernel⟩,
    ⟨at_ (R) (desc 0x60 [6] [] 65536), _, 0, desc 0x60 [6] [] 65536, turn (by decide +kernel) (by decide +kernel) (by decide +kernel) (by decide +kernel), by decide +kernel⟩⟩

theorem hyps_recorderConserves :
    (∃ (s : State), s.rec_.sound)
    ∧ (∃ (s t : State) (v : Bool) (d : Desc) (n : Nat) (b : Bool) (l : List Byte), s.rec_.sound ∧ recorderClear v s d = .accept n b l t)
    ∧ (∃ (s : State), ((∀ e ∈ s.rec_.detected.head?, e.code ≠ Ev.recorderCleared.code)) ∧ s.rec_.conserved = true)
    ∧ (∃ (s : State), s.rec_.conserved = true)
    ∧ (∃ (s t : State) (v : Bool) (d : Desc) (n : Nat) (b : Bool) (l : List Byte), s.rec_.conserved = true ∧ recorderClear v s d = .accept n b l t)
    ∧ (∃ (s : State) (e : Event), s.rec_.holding.length < 4096)
    ∧ (∃ (s : State) (e v : Event) (a b : List Event), s.rec_.holding = a ++ v :: b ∧ 4096 ≤ s.rec_.holding.length ∧ 5 ≤ e.sev ∧ v.sev < e.sev ∧ ((∀ x ∈ b, e.sev ≤ x.sev)))
    ∧ (∃ (s : State) (e : Event), 4096 ≤ s.rec_.holding.length ∧ (e.sev < 5 ∨ (∀ x ∈ s.rec_.holding, e.sev ≤ x.sev)))
    ∧ (∃ (x : Tally) (e : Event), 0 < x.count)
    ∧ (∃ (s : State), s.recStopped = false ∧ s.rec_.slots.length + s.rec_.holding.length + 2 < recSlots)
    ∧ (∃ (s : State), s.recStopped = false ∧ s.rec_.full = true)
    ∧ (∃ (r : Rec), r.event.sev < 8)
    ∧ (∃ (s : State) (n : Nat), s.rec_.conserved = true)
    ∧ (∃ (s : State) (n : Nat), s.rec_.conserved = false) :=
  ⟨⟨R, recorder_reset_sound⟩,
    ⟨R, _, false, desc 0x60 [4, 0, 0, 0, 255, 255, 255, 255] [] 0, _, _, _, recorder_reset_sound, rfl⟩,
    ⟨onRec R (fun x => { x with detected := [event 3], nDetected := 0, started := true }), (fun e h => by cases h; decide +kernel), (by decide +kernel)⟩,
    ⟨R, by decide +kernel⟩,
    ⟨R, _, true, desc 0x60 [4, 0, 0, 0, 255, 255, 255, 255] [] 0, _, _, _, by decide +kernel, rfl⟩,
    ⟨R, event 3, by decide +kernel⟩,
    ⟨onRec R (fun x => { x with holding := List.replicate 4095 (event 5) ++ event 4 :: [] }), event 5, event 4, List.replicate 4095 (event 5), [], rfl, (by show _ ≤ (List.replicate _ _ ++ [_]).length; rw [List.length_append, List.length_replicate]; decide), by decide +kernel, by decide +kernel, by decide +kernel⟩,
    ⟨onRec R (fun x => { x with holding := List.replicate 4096 (event 5) }), event 4, long _ _, Or.inl (by decide +kernel)⟩,
    ⟨⟨1, 5, 6, 3⟩, event 3, by decide +kernel⟩,
    ⟨recOn id, by decide +kernel, by decide +kernel⟩,
    ⟨recOn (fun x => { x with slots := List.replicate 1048576 record0 }), by decide +kernel, full_of 1048576 rfl (by decide)⟩,
    ⟨⟨5, 6, event 7, true, true⟩, by decide +kernel⟩,
    ⟨R, 3, by decide +kernel⟩,
    ⟨onRec R (fun x => { x with nDetected := 1 }), 3, by decide +kernel⟩⟩

theorem hyps_startCommands :
    (∃ (s : State) (osc : Bool), (s.life.phase ≠ .off ∨ s.life.inputOpen = true))
    ∧ (∃ (s : State) (osc : Bool), s.life.phase = .off ∧ s.life.inputOpen = false)
    ∧ (∃ (s : State) (v : Word) (i : ImageHead), s.life.phase = .held ∧ s.life.recNext = 0 ∧ s.life.slotOk = true)
    ∧ (∃ (s : State) (v : Word) (i : ImageHead), (s.life.phase ≠ .held ∨ s.life.recNext ≠ 0 ∨ s.life.slotOk = false))
    ∧ (∃ (s : State), s.rec_.powerLoss.count = 0 ∧ s.life.recCause = 0)
    ∧ (∃ (s : State), s.rec_.powerLoss.count ≠ 0 ∧ s.life.recCause = 0 ∧ s.rec_.slots.length + 2 < recSlots)
    ∧ (∃ (s : State) (n : Fin 3), s.life.phase = .watching ∧ s.keptOut = false ∧ s.linkAlive = false)
    ∧ (∃ (s : State) (n : Fin 3), s.life.phase = .watching ∧ s.keptOut = false ∧ s.linkAlive = true ∧ s.twin.partnerIn = true ∧ s.time.rateValid = true ∧ n ≠ 0)
    ∧ (∃ (s : State) (n : Fin 3), s.life.phase ≠ .watching ∧ s.life.phase ≠ .starting)
    ∧ (∃ (s : State), s.life.phase = .starting ∧ s.keptOut = false ∧ s.isPair = false ∧ ((∀ e < 23, (s.engine e).failed = false)))
    ∧ (∃ (s : State), s.life.phase = .starting ∧ s.keptOut = false ∧ s.isPair = true ∧ s.pathAlive = true ∧ s.isSenior = true ∧ ((∀ e < 23, (s.engine e).failed = false)))
    ∧ (∃ (s : State), s.life.phase = .starting ∧ s.keptOut = false ∧ s.isPair = true ∧ s.pathAlive = false ∧ s.twin.waitFrom = none)
    ∧ (∃ (s : State) (a : Nat), s.twin.waitFrom = some a ∧ s.life.phase = .starting ∧ s.keptOut = false ∧ (s.advance (a + 10000000000)).pathAlive = false)
    ∧ (∃ (s : State) (a : Nat), s.twin.waitFrom = some a ∧ (s.advance (a + 10000000000)).pathAlive = true)
    ∧ (∃ (s : State) (c : Fin 5), (c = 1 ∨ c = 2 ∨ (c = 3 ∧ s.life.recNext = 3)) ∧ s.life.phase = .held)
    ∧ (∃ (s : State), s.mayRecover = true)
    ∧ (∃ (s : State), s.mayRecover = false) :=
  ⟨⟨(R.onLife fun x => { x with inputOpen := true }), true, by decide +kernel⟩,
    ⟨R, true, by decide +kernel, by decide +kernel⟩,
    ⟨(R.onLife fun x => { x with phase := .held }), 3, ⟨4, part0⟩, by decide +kernel, by decide +kernel, by decide +kernel⟩,
    ⟨R, 3, ⟨4, part0⟩, by decide +kernel⟩,
    ⟨R, by decide +kernel, by decide +kernel⟩,
    ⟨onRec R (fun x => { x with powerLoss := ⟨1, 0, 0, 3⟩ }), by decide +kernel, by decide +kernel, by decide +kernel⟩,
    ⟨(R.onLife fun x => { x with phase := .watching }), 2, by decide +kernel, by decide +kernel, by decide +kernel⟩,
    ⟨(((((R.onLife fun x => { x with phase := .watching })).onTwin fun x => { x with linkUp := [true, false], partnerIn := true })).onTime fun x => { x with rateValid := true }), 2, by decide +kernel, by decide +kernel, by decide +kernel, by decide +kernel, by decide +kernel, by decide +kernel⟩,
    ⟨R, 2, by decide +kernel, by decide +kernel⟩,
    ⟨(R.onLife fun x => { x with phase := .starting }), by decide +kernel, by decide +kernel, by decide +kernel, by decide +kernel⟩,
    ⟨(((senior.onLife fun x => { x with phase := .starting })).onTwin fun x => { x with linkUp := [true, false] }), by decide +kernel, by decide +kernel, by decide +kernel, by decide +kernel, by decide +kernel, by decide +kernel⟩,
    ⟨(senior.onLife fun x => { x with phase := .starting }), by decide +kernel, by decide +kernel, by decide +kernel, by decide +kernel, by decide +kernel⟩,
    ⟨(((senior.onLife fun x => { x with phase := .starting })).onTwin fun x => { x with waitFrom := some 5 }), 5, by decide +kernel, by decide +kernel, by decide +kernel, by decide +kernel⟩,
    ⟨(senior.onTwin fun x => { x with waitFrom := some 5, linkUp := [true, false] }), 5, by decide +kernel, by decide +kernel⟩,
    ⟨(R.onLife fun x => { x with phase := .held, recNext := 3 }), 3, by decide +kernel, by decide +kernel⟩,
    ⟨clock ((R.onLife fun x => { x with phase := .held })) 1000000000, by decide +kernel⟩,
    ⟨clock ((R.onLife fun x => { x with phase := .held })) 1000000001, by decide +kernel⟩⟩

theorem hyps_supplyCommands :
    (∃ (s : State) (n : Nat), s.life.phase ≠ .off ∧ n < 300)
    ∧ (∃ (s : State) (n : Nat), s.life.phase ≠ .off ∧ 300 ≤ n)
    ∧ (∃ (s : State) (n : Nat), s.life.phase ≠ .off ∧ 800 < n)
    ∧ (∃ (s : State) (n a : Nat), s.life.phase ≠ .off ∧ 800 < n ∧ s.life.supplyHighAt = some a)
    ∧ (∃ (s : State) (n : Nat) (b : Bool), n ≤ 800)
    ∧ (∃ (s : State) (i c h : Bool) (w : Nat), s.life.phase ≠ .off)
    ∧ (∃ (s : State) (i c h : Bool) (w : Nat), s.life.phase = .off)
    ∧ (∃ (s : State) (a : Nat), s.therm.die.off = true ∧ s.therm.die.coolFrom = some a)
    ∧ (∃ (s : State), s.therm.die.off = false)
    ∧ (∃ (s : State), s.twin.bridging = true ∧ s.twin.st ≠ .retired ∧ s.life.phase ≠ .off ∧ s.therm.die.shutdown = none)
    ∧ (∃ (s : State), s.twin.bridging = true ∧ s.twin.st = .retired)
    ∧ (∃ (s : State), s.twin.bridging = false) :=
  ⟨⟨svc, 299, by decide +kernel, by decide +kernel⟩,
    ⟨svc, 300, by decide +kernel, by decide +kernel⟩,
    ⟨svc, 801, by decide +kernel, by decide +kernel⟩,
    ⟨(svc.onLife fun x => { x with supplyHighAt := some 5 }), 801, 5, by decide +kernel, by decide +kernel, by decide +kernel⟩,
    ⟨R, 800, true, by decide +kernel⟩,
    ⟨svc, true, true, true, 5, by decide +kernel⟩,
    ⟨R, true, true, true, 5, by decide +kernel⟩,
    ⟨R.onTherm (fun x => { x with die := { x.die with off := true, coolFrom := some 5 } }), 5, by decide +kernel, by decide +kernel⟩,
    ⟨R, by decide +kernel⟩,
    ⟨(svc.onTwin fun x => { x with bridging := true }), by decide +kernel, by decide +kernel, by decide +kernel, by decide +kernel⟩,
    ⟨(svc.onTwin fun x => { x with bridging := true, st := .retired }), by decide +kernel, by decide +kernel⟩,
    ⟨R, by decide +kernel⟩⟩

theorem hyps_firmwareCommands :
    (∃ (s : State) (q : Fin 32) (sig : Bool) (d : Desc), s.LoadTurn q 7 0x82 d)
    ∧ (∃ (s : State) (d : Desc) (sig : Bool) (l : Load) (st : Nat), d.argByte 8 % 2 ≠ 1 ∧ takeChunk s.life.load 4096 62914560 d = .ok (l, true) ∧ s.judgeFirmware l.bytes sig = some st)
    ∧ (∃ (s : State) (d : Desc) (sig : Bool) (l : Load), takeChunk s.life.load 4096 62914560 d = .ok (l, true) ∧ s.judgeFirmware l.bytes sig = none)
    ∧ (∃ (s : State) (b : List Byte), fwHeaderOk b = true)
    ∧ (∃ (s : State) (b : List Byte), fwHeaderOk b = true ∧ byteAt b 7 / 2 ^ s.life.lineage.toNat % 2 = 0)
    ∧ (∃ (s : State) (b : List Byte) (e : SiteEntry), fwHeaderOk b = true ∧ byteAt b 7 / 2 ^ s.life.lineage.toNat % 2 = 1 ∧ s.siteEntry s.chain.addr = some e ∧ byteAt b 6 < e.level)
    ∧ (∃ (s t : State) (q : Fin 32) (d : Desc) (i : Staged), s.Turn q 0x70 (op0 1) d t ∧ t.life.staged = some i ∧ t.life.fwIdle = true ∧ d.body.length = 32 ∧ BitVec.ofNat 256 (beAt d.body 0 32) = i.digest)
    ∧ (∃ (s t : State) (q : Fin 32) (d : Desc), s.Turn q 0x70 (op0 1) d t ∧ t.life.staged = none)
    ∧ (∃ (s t : State) (q : Fin 32) (d : Desc) (i : Staged), s.Turn q 0x70 (op0 1) d t ∧ t.life.staged = some i ∧ t.life.fwIdle = true ∧ d.body.length = 32 ∧ BitVec.ofNat 256 (beAt d.body 0 32) ≠ i.digest)
    ∧ (∃ (s : State), s.life.fw = .installing ∧ s.nvmBarred = false ∧ s.life.phase ≠ .recovery)
    ∧ (∃ (s : State), s.life.fw = .installing ∧ s.nvmBarred = false ∧ s.life.phase = .recovery)
    ∧ (∃ (s : State), s.nvmBarred = true)
    ∧ (∃ (s t : State) (q : Fin 32) (d : Desc), s.Turn q 0x70 (op0 2) d t ∧ t.life.slotNew = true ∧ t.life.fwIdle = true ∧ t.isPair = false)
    ∧ (∃ (s t : State) (q : Fin 32) (d : Desc), s.Turn q 0x70 (op0 2) d t ∧ (t.life.slotNew = false ∨ t.life.fwIdle = false))
    ∧ (∃ (s t : State) (q : Fin 32) (d : Desc), s.Turn q 0x70 (op0 2) d t ∧ t.life.slotNew = true ∧ t.life.fwIdle = true ∧ t.isPair = true ∧ t.isJoined = false)
    ∧ (∃ (s t : State) (q : Fin 32) (d : Desc), s.Turn q 0x70 (op0 3) d t)
    ∧ (∃ (s : State) (i : ImageHead), s.life.act = .checking)
    ∧ (∃ (s : State) (i : ImageHead), s.life.act ≠ .checking)
    ∧ (∃ (s : State), s.life.act = .reloading)
    ∧ (∃ (s : State), s.life.probation = true ∧ s.isPair = false ∧ s.inService = true)
    ∧ (∃ (s : State), s.life.probation = false)
    ∧ (∃ (s t : State) (q : Fin 32) (d : Desc), s.Turn q 0x70 (op0 4) d t ∧ (storeEmpty t.host.keys && !t.life.guard_) = false ∧ d.body.length = 1152 ∧ keyBadByte d.body = none ∧ keysPermitted t.host.keys (keyEntries d.body) = true ∧ t.actsSingle = true)
    ∧ (∃ (s t : State) (q : Fin 32) (d : Desc), s.Turn q 0x70 (op0 4) d t ∧ (storeEmpty t.host.keys && !t.life.guard_) = false ∧ d.body.length = 1152 ∧ keyBadByte d.body = none ∧ keysPermitted t.host.keys (keyEntries d.body) = false)
    ∧ (∃ (s t : State) (q : Fin 32) (d : Desc), s.Turn q 0x70 (op0 4) d t ∧ storeEmpty t.host.keys = true ∧ t.life.guard_ = false)
    ∧ (∃ (s : State) (n : Nat) (k : KeySlot), n < s.host.keys.length ∧ k.st ≠ 0 ∧ k.st ≠ (s.host.keys.getD n ⟨0, 0, 0, 0, 0⟩).st)
    ∧ (∃ (a b : KeySlot), a.st ≠ 0 ∧ a.mayBecome b = true)
    ∧ (∃ (s : State) (f g c : Word) (b m : List Byte) (sig : Bool), m = svcHeard f g c b ∧ (svcGood m = false ∨ s.life.phase = .off))
    ∧ (∃ (m : List Byte), (leAt m 0 2 ≠ 0x5653 ∨ byteAt m 3 ≠ 0 ∨ 16 + leAt m 4 4 ≠ m.length ∨ leAt m 12 4 ≠ crc32c (m.take 12 ++ m.drop 16)))
    ∧ (∃ (s : State) (f g c : Word) (b m : List Byte) (sig : Bool), m = svcHeard f g c b ∧ svcGood m = true ∧ s.life.phase ≠ .off ∧ byteAt m 2 = 1)
    ∧ (∃ (s : State) (tag : Nat) (d : Desc) (sig : Bool), s.life.phase = .recovery ∧ d.opcode ≠ 0x82 ∧ (d.opcode ≠ 0x70 ∨ d.argByte 0 ≠ 1))
    ∧ (∃ (s : State) (f g c : Word) (b m : List Byte) (sig : Bool), m = svcHeard f g c b ∧ svcGood m = true ∧ s.life.phase ≠ .off ∧ byteAt m 2 = 4 ∧ s.mayRecover = true) :=
  ⟨⟨at_ (cfg R [(0x1200, 14)]) (chunk 0x82 [0, 16, 0, 0] 0 [7]), 0, true, chunk 0x82 [0, 16, 0, 0] 0 [7], ⟨by decide +kernel, by decide +kernel, by decide +kernel, ⟨_, _, rfl, rfl, by decide +kernel⟩, by decide +kernel, by decide +kernel⟩⟩,
    ⟨loading (List.replicate 4095 0), lastChunk, true, ⟨4096, 4096, List.replicate 4095 0 ++ [0]⟩, St.fwImageInvalid, by decide +kernel, rfl, by decide +kernel⟩,
    ⟨loading fwBig, lastChunk, true, ⟨4096, 4096, fwBig ++ [0]⟩, rfl, fwBig_judged⟩,
    ⟨R, fwSmall 0, by decide +kernel⟩,
    ⟨R, fwSmall 0, by decide +kernel, by decide +kernel⟩,
    ⟨((onChain R (fun x => { x with addr := 1 })).onSetup fun x => { x with blocksAct := [(3, bytes (List.replicate 64 0 ++ [1, 2]))] }), fwSmall 1, ⟨1, 2⟩, by decide +kernel, by decide +kernel, by decide +kernel, by decide +kernel⟩,
    ⟨at_ (keyed ((R.onLife fun x => { x with staged := some ⟨0, 1, 0, 0, 0⟩ })) 2) (signed 0x70 2 [1] (List.replicate 32 0)), _, 0, signed 0x70 2 [1] (List.replicate 32 0), ⟨0, 1, 0, 0, 0⟩, turn (by decide +kernel) (by decide +kernel) (by decide +kernel) (by decide +kernel), by decide +kernel, by decide +kernel, by decide +kernel, by decide +kernel⟩,
    ⟨at_ (keyed (R) 2) (signed 0x70 2 [1] (List.replicate 32 0)), _, 0, signed 0x70 2 [1] (List.replicate 32 0), turn (by decide +kernel) (by decide +kernel) (by decide +kernel) (by decide +kernel), by decide +kernel⟩,
    ⟨at_ (keyed ((R.onLife fun x => { x with staged := some ⟨0, 1, 0, 0, 1⟩ })) 2) (signed 0x70 2 [1] (List.replicate 32 0)), _, 0, signed 0x70 2 [1] (List.replicate 32 0), ⟨0, 1, 0, 0, 1⟩, turn (by decide +kernel) (by decide +kernel) (by decide +kernel) (by decide +kernel), by decide +kernel, by decide +kernel, by decide +kernel, by decide +kernel⟩,
    ⟨(R.onLife fun x => { x with fw := .installing }), by decide +kernel, by decide +kernel, by decide +kernel⟩,
    ⟨(R.onLife fun x => { x with fw := .installing, phase := .recovery }), by decide +kernel, by decide +kernel, by decide +kernel⟩,
    ⟨R.onTherm (fun x => { x with die := { x.die with barred := true } }), by decide +kernel⟩,
    ⟨at_ (keyed ((R.onLife fun x => { x with slotNew := true })) 2) (signed 0x70 2 [2] []), _, 0, signed 0x70 2 [2] [], turn (by decide +kernel) (by decide +kernel) (by decide +kernel) (by decide +kernel), by decide +kernel, by decide +kernel, by decide +kernel⟩,
    ⟨at_ (keyed (R) 2) (signed 0x70 2 [2] []), _, 0, signed 0x70 2 [2] [], turn (by decide +kernel) (by decide +kernel) (by decide +kernel) (by decide +kernel), by decide +kernel⟩,
    ⟨at_ (keyed ((((senior.onTwin fun x => { x with st := .solo })).onLife fun x => { x with slotNew := true })) 2) (signed 0x70 2 [2] []), _, 0, signed 0x70 2 [2] [], turn (by decide +kernel) (by decide +kernel) (by decide +kernel) (by decide +kernel), by decide +kernel, by decide +kernel, by decide +kernel, by decide +kernel⟩,
    ⟨at_ (keyed (R) 2) (signed 0x70 2 [3] []), _, 0, signed 0x70 2 [3] [], turn (by decide +kernel) (by decide +kernel) (by decide +kernel) (by decide +kernel)⟩,
    ⟨(R.onLife fun x => { x with act := .checking }), ⟨3, part0⟩, by decide +kernel⟩,
    ⟨R, ⟨3, part0⟩, by decide +kernel⟩,
    ⟨(R.onLife fun x => { x with act := .reloading }), by decide +kernel⟩,
    ⟨(svc.onLife fun x => { x with probation := true }), by decide +kernel, by decide +kernel, by decide +kernel⟩,
    ⟨R, by decide +kernel⟩,
    ⟨at_ (R) (desc 0x70 [4] (keySet 6) 0), _, 0, desc 0x70 [4] (keySet 6) 0, turn (by decide +kernel) (by decide +kernel) (by decide +kernel) (by decide +kernel), by decide +kernel, by decide +kernel, by decide +kernel, by decide +kernel, by decide +kernel⟩,
    ⟨at_ (R) (desc 0x70 [4] (keySet 5) 0), _, 0, desc 0x70 [4] (keySet 5) 0, turn (by decide +kernel) (by decide +kernel) (by decide +kernel) (by decide +kernel), by decide +kernel, by decide +kernel, by decide +kernel, by decide +kernel⟩,
    ⟨at_ (free R) (desc 0x70 [4] (keySet 6) 0), _, 0, desc 0x70 [4] (keySet 6) 0, turn (by decide +kernel) (by decide +kernel) (by decide +kernel) (by decide +kernel), by decide +kernel, by decide +kernel⟩,
    ⟨R, 15, ⟨1, 6, 0, 0, 0⟩, by decide +kernel, by decide +kernel, by decide +kernel⟩,
    ⟨⟨1, 6, 3, 4, 5⟩, ⟨2, 6, 3, 4, 0⟩, by decide +kernel, by decide +kernel⟩,
    ⟨R, 0, 0, 0, [], svcHeard 0 0 0 [], true, rfl, by decide +kernel⟩,
    ⟨[], by decide +kernel⟩,
    ⟨(R.onLife fun x => { x with phase := .held }), svcFirst 1, 0, svcCheck 1, [], svcHeard (svcFirst 1) 0 (svcCheck 1) [], true, rfl, by decide +kernel, by decide +kernel, by decide +kernel⟩,
    ⟨(R.onLife fun x => { x with phase := .recovery }), 3, desc 0x70 [2] [] 0, true, by decide +kernel, by decide +kernel, by decide +kernel⟩,
    ⟨clock ((R.onLife fun x => { x with phase := .held })) 1000000000, svcFirst 4, 0, svcCheck 4, [], svcHeard (svcFirst 4) 0 (svcCheck 4) [], true, rfl, by decide +kernel, by decide +kernel, by decide +kernel, by decide +kernel⟩⟩

theorem hyps_commitWrites :
    (∃ (s : State) (p : Snapshot), s.setup.pending = some p)
    ∧ (∃ (s : State) (w : Word), w &&& 3 = 1)
    ∧ (∃ (s : State) (w : Word), w &&& 3 = 2)
    ∧ (∃ (s : State) (w : Word), w &&& 3 = 3) :=
  ⟨⟨(R.onSetup fun x => { x with pending := some (snap []) }), snap [], by decide +kernel⟩,
    ⟨R, 1, by decide +kernel⟩,
    ⟨R, 2, by decide +kernel⟩,
    ⟨R, 0xFFFFFFFF, by decide +kernel⟩⟩

theorem hyps_commitCommands :
    (∃ (s : State) (off : BitVec 16) (v : Word) (r : RegRow), off.toNat < 0x8000 ∧ off.toNat ≠ Reg.cfgCommit ∧ rowOf off.toNat = some r ∧ r.access = .rw ∧ s.life.phase ≠ .recovery ∧ s.setup.staged.wf = true)
    ∧ (∃ (s : State) (off : BitVec 16) (v : Word) (n : Nat), (n ≠ 32 ∨ off.toNat % 4 ≠ 0 ∨ 0x8000 ≤ off.toNat))
    ∧ (∃ (s : State) (off : BitVec 16) (v : Word), off.toNat ≠ Reg.cfgCommit ∧ ((∀ r, rowOf off.toNat = some r → r.access ≠ .rw)))
    ∧ (∃ (s : State), s.setup.pending = none)
    ∧ (∃ (s : State) (p : Snapshot) (a : Nat), s.setup.pending = some p ∧ s.effectAt p = some a ∧ a ≤ s.now ∧ (s.judged p).first = none)
    ∧ (∃ (s : State) (p : Snapshot) (a : Nat) (f : Fail), s.setup.pending = some p ∧ s.effectAt p = some a ∧ a ≤ s.now ∧ (s.judged p).first = some f)
    ∧ (∃ (s : State) (p : Snapshot), s.setup.pending = some p ∧ s.effectAt p = none ∧ p.waitTill = none ∧ s.boundaryFor p p.at_ ≤ s.now ∧ (s.judged p).first = none)
    ∧ (∃ (s : State) (p : Snapshot), s.isPair = true ∧ s.isAlone = false ∧ p.both = true ∧ s.setup.peerGo = none)
    ∧ (∃ (s : State) (p : Snapshot), s.isPair = false)
    ∧ (∃ (s : State) (p : Snapshot), s.levelChange p.blocks = none)
    ∧ (∃ (s : State) (p : Snapshot) (a : Nat) (c : Sys2Proof.Instr), ((c = .commitExpired ∧ p.hasOther = true) ∨ (c = .profileCommitExpired ∧ p.hasProfile = true) ∨ (c = .safetyCfgExpired ∧ p.hasSafety = true)) ∧ s.setup.pending = some p ∧ p.waitTill = some a ∧ s.effectAt p = none)
    ∧ (∃ (s : State), s.nvmBarred = false ∧ s.life.phase ≠ .recovery)
    ∧ (∃ (s : State), s.nvmBarred = true ∧ s.life.phase ≠ .recovery) :=
  ⟨⟨(R.onLife fun x => { x with phase := .service }), 0x0308, 5, ((rowOf 0x0308).getD ⟨0, 0, .ro, 0, 0⟩), by decide +kernel, by decide +kernel, by decide +kernel, by decide +kernel, by decide +kernel, by decide +kernel⟩,
    ⟨R, 0x0308, 5, 16, by decide +kernel⟩,
    ⟨R, 0, 5, by decide +kernel, (fun r h => by cases h; decide +kernel)⟩,
    ⟨R, by decide +kernel⟩,
    ⟨pend R (snap []), snap [], 1000000, by decide +kernel, by decide +kernel, by decide +kernel, by decide +kernel⟩,
    ⟨pend R (snap [(0x0400, 0)]), snap [(0x0400, 0)], 1000000, ⟨St.fieldRange, 0x0400, 0⟩, by decide +kernel, by decide +kernel, by decide +kernel, by decide +kernel⟩,
    ⟨pend senior (snap [(0x0308, regReset 0x0308)]), snap [(0x0308, regReset 0x0308)], by decide +kernel, by decide +kernel, by decide +kernel, by decide +kernel, by decide +kernel⟩,
    ⟨senior, snap [(0x0308, 1)], by decide +kernel, by decide +kernel, by decide +kernel, by decide +kernel⟩,
    ⟨R, snap [], by decide +kernel⟩,
    ⟨R, snap [], by decide +kernel⟩,
    ⟨pend senior { snap [(0x090C, 1)] with waitTill := some 5 }, { snap [(0x090C, 1)] with waitTill := some 5 }, 5, .safetyCfgExpired, Or.inr (Or.inr ⟨rfl, by decide +kernel⟩), by decide +kernel, by decide +kernel, by decide +kernel⟩,
    ⟨R, by decide +kernel, by decide +kernel⟩,
    ⟨R.onTherm (fun x => { x with die := { x.die with barred := true } }), by decide +kernel, by decide +kernel⟩⟩

theorem hyps_commitChecks :
    (∃ (j : Judged) (off : Nat) (f : FieldRow), fieldRows.find? (fun f => decide (f.base ≤ off ∧ off < f.base + 4 * f.count) && f.bad j.n off) = some f)
    ∧ (∃ (j : Judged), Fld.profileCtl_SELECT j.n ≠ Fld.profileCtl_SELECT j.m.cfg ∧ j.m.permits (Fld.profileCtl_SELECT j.n) = false)
    ∧ (∃ (j : Judged) (off : Nat), j.off.contains off = true ∧ j.m.stageIdle = false)
    ∧ (∃ (j : Judged) (off : Nat), j.m.stageIdle = true)
    ∧ (∃ (j : Judged), j.registers = none ∧ ((∀ k ∈ [1, 2, 3], j.block k = none)))
    ∧ (∃ (j : Judged) (f : Fail), j.registers = some f)
    ∧ (∃ (s : State) (off : Nat) (r : RegRow), s.life.phase ≠ .recovery ∧ off < 0x8000 ∧ rowOf off = some r ∧ r.access = .rw)
    ∧ (∃ (s : State) (off : Nat), off < 0x8000 ∧ rowOf off = none)
    ∧ (∃ (s : State) (off : Nat), off < 0x8000 ∧ 0x5C ≤ off ∧ off < 0x1000 ∧ s.life.phase = .recovery) :=
  ⟨⟨R.judged (snap [(0x0400, 0)]), 0x0400, ⟨0x0400, 1, 3, 0, false, 5, 15⟩, by decide +kernel⟩,
    ⟨R.judged (snap [(Reg.profileCtl, 0)]), by decide +kernel, by decide +kernel⟩,
    ⟨(running R).judged (snap [(0x0400, 0)]), 0x0400, by decide +kernel, by decide +kernel⟩,
    ⟨R.judged (snap [(0x0400, 0)]), 0x0400, by decide +kernel⟩,
    ⟨R.judged (snap []), by decide +kernel, by decide +kernel⟩,
    ⟨R.judged (snap [(0x0400, 0)]), ⟨St.fieldRange, 0x0400, 0⟩, by decide +kernel⟩,
    ⟨R, 0x0308, ((rowOf 0x0308).getD ⟨0, 0, .ro, 0, 0⟩), by decide +kernel, by decide +kernel, by decide +kernel, by decide +kernel⟩,
    ⟨R, 0x005C, by decide +kernel, by decide +kernel⟩,
    ⟨(R.onLife fun x => { x with phase := .recovery }), 0x0FFC, by decide +kernel, by decide +kernel, by decide +kernel, by decide +kernel⟩⟩

theorem hyps_stepKeepsRegisters :
    ∃ (s t : State), s.regsOk = true ∧ step s = .next t :=
  ⟨R, _, (by decide +kernel), rfl⟩

theorem hyps_resetState :
    ∃ (off : Nat) (r : RegRow), off < 0x8000 ∧ rowOf off = some r ∧ off ≠ Reg.devId :=
  ⟨0x0308, ((rowOf 0x0308).getD ⟨0, 0, .ro, 0, 0⟩), by decide +kernel, by decide +kernel, by decide +kernel⟩

theorem hyps_stepRunsTheFront :
    ∃ (s : State), s.pending = [] :=
  ⟨R, by decide +kernel⟩

/-! ### Ill-formed commands are refused -/

theorem test_wf_canary : (Instr.canaryRound ⟨List.replicate 24 0, []⟩).wf = false := by decide
theorem test_wf_ptpSync : (Instr.ptpSync 0 256 0 true 0 0 0).wf = false := by decide
theorem test_wf_ptpFollowUp : (Instr.ptpFollowUp 0 256 0 0 0).wf = false := by decide
theorem test_wf_ptpAnnounce : (Instr.ptpAnnounce 0 256 none none 0 false false false).wf = false := by decide
theorem test_wf_ptpPdelayReq : (Instr.ptpPdelayReq 0 256 0 0).wf = false := by decide
theorem test_wf_discover_many : (Instr.discoverReceived 0 .a true (List.replicate 9 found1)).wf = false := by decide
theorem test_wf_discover_kind : (Instr.discoverReceived 0 .a true [{ found1 with kind := 3 }]).wf = false := by decide
theorem test_wf_seconds :
    [Instr.ringCmdCountCheck (2 ^ 34), .currentCompare (2 ^ 34), .measCompare (2 ^ 34), .balDecision (2 ^ 34), .estimatorCheckpoint (2 ^ 34),
      .gateDelayUpdate (2 ^ 34), .envelopeCompute (2 ^ 34), .savedCopyWrite (2 ^ 34), .creditCheck (2 ^ 34), .stateDigest (2 ^ 34),
      .recorderCountCheck (2 ^ 34), .clearRegisterPointer (2 ^ 34)].all (fun c => !c.wf) = true := by decide
theorem test_wf_receiverIdent : (Instr.receiverIdent 0 ⟨1, 0, 0, 0⟩ 1 3).wf = false := by decide
theorem test_wf_thermalRound_pins : (Instr.thermalRound (List.replicate 17 none) []).wf = false := by decide
theorem test_wf_thermalRound_fans : (Instr.thermalRound [] (List.replicate 9 0)).wf = false := by decide
theorem test_wf_sqTail_width : (Instr.sqTail 0 0 24 []).wf = false := by decide
theorem test_wf_sqTail_value : (Instr.sqTail 0 65536 16 []).wf = false := by decide
theorem test_wf_cqHead_width : (Instr.cqHead 0 0 24).wf = false := by decide
theorem test_wf_cqHead_value : (Instr.cqHead 0 65536 16).wf = false := by decide
theorem test_wf_arp : (Instr.arpRequest 0 (2 ^ 32)).wf = false := by decide
theorem test_wf_icmp : (Instr.icmpEchoRequest 0 (2 ^ 32) 0 0 []).wf = false := by decide
theorem test_wf_plant_port : (Instr.plantMessage 0 65536 0 none []).wf = false := by decide
theorem test_wf_plant_source : (Instr.plantMessage 0 0 (2 ^ 32) none []).wf = false := by decide
theorem test_wf_can_base : (Instr.canFrameReceived 0 false 2048 0 []).wf = false := by decide
theorem test_wf_can_extended : (Instr.canFrameReceived 0 true (2 ^ 29) 0 []).wf = false := by decide
theorem test_wf_can_data : (Instr.canFrameReceived 0 true 0 0 (List.replicate 65 0)).wf = false := by decide
theorem test_wf_inputs_pins : (Instr.pairInputsFrame pair5 [.mt (List.replicate 17 none)]).wf = false := by decide
theorem test_wf_inputs_can : (Instr.pairInputsFrame pair5 [.can 6 0 0 0 []]).wf = false := by decide
theorem test_wf_inputs_object : (Instr.pairInputsFrame pair5 [.can 0 128 0 0 []]).wf = false := by decide
theorem test_wf_inputs_modbus : (Instr.pairInputsFrame pair5 [.modbus 0 0 [65536]]).wf = false := by decide
theorem test_wf_pairCommand : (Instr.pairCommandFrame pair5 ⟨0, List.replicate 25 0, []⟩ 0 0).wf = false := by decide
theorem test_wf_digest_second : (Instr.pairDigestFrame pair5 (2 ^ 34) 0 [true, true, true] 0 [0, 0, 0]).wf = false := by decide
theorem test_wf_digest_profiles : (Instr.pairDigestFrame pair5 0 0 [true, true] 0 [0, 0, 0]).wf = false := by decide
theorem test_wf_digest_costs : (Instr.pairDigestFrame pair5 0 0 [true, true, true] 0 [0, 0]).wf = false := by decide
theorem test_wf_catchup_item : (Instr.pairCatchupFrame pair5 10 0 [] true).wf = false := by decide
theorem test_wf_catchup_data : (Instr.pairCatchupFrame pair5 0 0 (List.replicate 257 0) true).wf = false := by decide +kernel
theorem test_wf_desc_length : (Instr.sqTail 0 0 16 [⟨[0], [], false, false⟩]).wf = false := by decide
theorem test_wf_desc_data : (Instr.sqTail 0 0 16 [⟨List.replicate 64 0, [0], false, false⟩]).wf = false := by decide
theorem test_wf_stagedWrite : (Instr.stagedRegisterWrite 0 0 7).wf = false := by decide
theorem test_wf_configFrame : (Instr.configFrameReceived 0 .a 8 0 true).wf = false := by decide
theorem test_wf_prpSupervision : (Instr.prpSupervisionReceived 0 (2 ^ 48)).wf = false := by decide

/-! ### Small results worked out by hand -/

/-- The bytes "123456789": the catalogued check values of CRC-32C, of the CRC-16 with initial value all ones and polynomial 0x1021, and
of the Modbus CRC. -/
def digits : List Byte := bytes [49, 50, 51, 52, 53, 54, 55, 56, 57]
theorem test_crc32c : crc32c digits = 0xE3069283 := by decide +kernel
theorem test_crc16 : crc16 digits = 0x29B1 := by decide +kernel
theorem test_crcModbus : crcModbus digits = 0x4B37 := by decide +kernel
/-- 03 R65: 1.5 s is second 1 in bits [63:30] and 500,000,000 ns in bits [29:0]. -/
theorem test_eventTime : eventOf 1500000000 = 1 * 2 ^ 30 + 500000000 := by decide
/-- 03's worked example: the carry at 1,900,000,000 s. -/
theorem test_eventTime_carry : (eventOf 1899999999999999998, eventOf 1900000000000000002) = (0x1C4FECBFFB9AC9FE, 0x1C4FECC000000002) := by
  decide +kernel
theorem test_eventTime_invalid : eventValid 1000000000 = false := by decide
/-- 01 R33: a module with address 5 sends 6. -/
theorem test_acoSend : (match exec .acoSend (onChain R (fun x => { x with addr := 5 })) with
    | .next t => decide (t.out = [.aco 6]) | _ => false) = true := by decide +kernel
/-- 01 R31: the head of a chain has address 1. -/
theorem test_aciHead : (match exec (.aciAddressFrame .head) R with
    | .next t => decide (t.chain.addr = 1) | _ => false) = true := by decide +kernel
/-- 13 R341: −2³¹ ÷ −1 gives 2³¹ − 1 and sets OVF; 5 ÷ 0 gives 0 and sets DIVZ; 7 − 9 is −2. -/
def run7 (w : Word) (a : Int) : Option Int × Bool × Bool :=
  let r := (eng7 R id).instr 7 { task0 with wacc := BitVec.ofInt 32 a } w
  (r.2.map (fun c => c.wacc.toInt), (r.1.eng 7).ovf, (r.1.eng 7).divz)
theorem test_div_overflow : run7 0x31BFFFFF (-2147483648) = (some 2147483647, true, false) := by decide +kernel
theorem test_div_zero : run7 0x31800000 5 = (some 0, false, true) := by decide +kernel
theorem test_sub : run7 0x24800009 7 = (some (-2), false, false) := by decide +kernel
/-- 02 R50's example: 180,000 units of 2.9 ns in 1 ms leave 44.8 %; 240,000 of 3.2 ns leave 20.2 % of 1 ms and 60.1 % of 2 ms. -/
theorem test_slack : (slackOf 180000 2900 1000, slackOf 240000 3200 1000, slackOf 240000 3200 2000) = (4480, 2020, 6010) := by decide +kernel
/-- 10 Table 10.3: the high steps of zone 0 at reset, at 48.3, 49.1, 51.0, 53.0 and 55.0 °C. -/
theorem test_high_steps : [4830, 4910, 5100, 5300, 5500].map (fun v => R.hiTarget 0 (some v)) = [1, 2, 3, 4, 5] := by decide +kernel
/-- 07 Table 7.5: the equation holds for cell 151 at 24:00, and not with its account of a mC more. -/
def day151 (c : Int) : Balances :=
  ⟨[c], [214867440], [-189795], 2254380512, -189795, 2254380512, 0, 0, 3417⟩
theorem test_cell_equation : (day151 2039326694).cellOk 0 = true ∧ (day151 2039326695).cellOk 0 = false := by decide +kernel
/-- 19 Table 19.10: I_DIS 320 A with I_RATED 300 A is refused with CFG_CSTAT2 0x0808_0102 and CFG_CSTAT3 11. -/
theorem test_rating_refused : ((R.judged (snap [(0x0804, 0x12C), (0x0808, 0x000A012C)])).first.map
    (fun f => (f.status, f.offset, f.detail))) = some (0x0102, 0x0808, 11) := by decide +kernel
/-- 14 R375: a doorbell at the ring's number of entries stops the queue with cause 1. -/
theorem test_doorbell : (match exec (.sqTail 31 65536 32 []) (queue31 R (fun x => { x with running := true })) with
    | .next t => decide ((t.queue 31).cause = 1 ∧ (t.queue 31).stopped = true) | _ => false) = true := by decide +kernel
/-- 19 R478: a write to a register without RW fields is counted. -/
theorem test_write_readOnly : (match exec (.stagedRegisterWrite 0 5 32) R with
    | .next t => decide (t.setup.discards = 1 ∧ t.setup.staged = []) | _ => false) = true := by decide +kernel
/-- 19 R481: GO and DISCARD together are counted, and no snapshot is taken. -/
theorem test_goAndDiscard : (match exec (.cfgCommitGo true false 0 5) R with
    | .next t => decide (t.setup.discards = 1 ∧ t.setup.pending = none) | _ => false) = true := by decide +kernel
/-- 10 R277: at 100 °C the die is hot, and writes are not barred. -/
theorem test_dieHot : (match exec (.dieSample 1000 1000 1000 1000) R with
    | .next t => decide (t.therm.die.temp = 1000 ∧ t.therm.die.hot = true ∧ t.nvmBarred = false) | _ => false) = true := by decide +kernel
/-- 10 R277: of 20, 20, 20 and 90 °C the last is out of use; the die is at 20 °C. -/
theorem test_dieTemp : dieTemp [200, 200, 200, 900] = 200 := by decide
/-- 15 Table 15.7: the sixteenth attempt without an acknowledgement takes the counter from 120 to 128: error-passive and alone. -/
theorem test_can_alone : (match exec (.canTxAttemptEnd 5 0 3 false) (offering (fun x => { x with tec := 120, ackRun := 15 })) with
    | .next t => decide ((t.canPort 5).tec = 128 ∧ (t.canPort 5).st = 1 ∧ (t.canPort 5).alone = true) | _ => false) = true := by decide +kernel
/-- A step runs the command in front and keeps the rest. -/
theorem test_step_front : (match step { R with pending := [.acoSend, .aciLost] } with
    | .next t => decide (t.pending = [.aciLost]) | _ => false) = true := by decide +kernel

end Sys2Proof.Tests
end

section
/-! PROOFS. Timers, counters and edge detectors (13 R343 to R345, Table 13.4): what one execution does, case by case, what a TON adds up
over many, and the statement of the family. -/
namespace Sys2Proof.Machine

/-! ### The parts of an execution -/

/-- Δ of R343: how far the program clock has gone on since the previous execution, 0 at a first one. -/
def Inst.elapsed (x : Inst) (clock : Nat) : Nat := match x.last with
  | some a => clock - a
  | none => 0

theorem Inst.elapsed_of_last {x : Inst} {a : Nat} (h : x.last = some a) (clock : Nat) : x.elapsed clock = clock - a := by
  simp only [Inst.elapsed, h]

theorem Inst.elapsed_first {x : Inst} (h : x.last = none) (clock : Nat) : x.elapsed clock = 0 := by
  simp only [Inst.elapsed, h]

/-- PT in µs: the preset in ms that wacc holds, 0 where it is negative. -/
def presetUs (wacc : Word) : Nat := 1000 * wacc.toInt.toNat

/-- ET once Δ has been added, at most PT. -/
def Inst.ranEt (x : Inst) (clock : Nat) (wacc : Word) : Nat := min (x.et + x.elapsed clock) (presetUs wacc)

theorem Inst.ranEt_le_preset (x : Inst) (clock : Nat) (wacc : Word) : x.ranEt clock wacc ≤ presetUs wacc := Nat.min_le_right _ _

/-- A time that a TOF or TP holds Q for goes on: Q stays until ET reaches PT. -/
def Inst.hold (x : Inst) (clock : Nat) (wacc : Word) : Inst :=
  { x with last := some clock, et := x.ranEt clock wacc, q := decide (x.ranEt clock wacc < presetUs wacc) }

theorem Inst.hold_et_q {x : Inst} {a : Nat} (h : x.last = some a) (clock : Nat) (wacc : Word) :
    (x.hold clock wacc).et = min (x.et + (clock - a)) (presetUs wacc)
    ∧ (x.hold clock wacc).q = decide (x.et + (clock - a) < presetUs wacc) := by
  have het : x.ranEt clock wacc = min (x.et + (clock - a)) (presetUs wacc) := by rw [Inst.ranEt, Inst.elapsed_of_last h]
  have hlt : x.ranEt clock wacc < presetUs wacc ↔ x.et + (clock - a) < presetUs wacc := by omega
  exact ⟨het, decide_eq_decide.mpr hlt⟩

/-- A timer leaves Q in acc and ET in ms in wacc; a counter leaves Q and CV. -/
def Inst.timerOut (x : Inst) : Inst × Bool × Word := (x, x.q, BitVec.ofNat 32 (x.et / 1000))
def Inst.countOut (x : Inst) : Inst × Bool × Word := (x, x.q, BitVec.ofInt 32 x.cv)

/-- The input rises or falls against the previous state, which is the input itself at a first execution. -/
def Inst.rising (x : Inst) (b : Bool) : Bool := b && !x.prev.getD b
def Inst.falling (x : Inst) (b : Bool) : Bool := x.prev.getD b && !b

theorem Inst.rising_eq (x : Inst) (b : Bool) : x.rising b = (b && decide (x.prev = some false)) := by
  unfold Inst.rising
  match x.prev with
  | none => cases b <;> rfl
  | some false => rfl
  | some true => rfl

theorem Inst.falling_eq (x : Inst) (b : Bool) : x.falling b = (!b && decide (x.prev = some true)) := by
  unfold Inst.falling
  match x.prev with
  | none => cases b <;> rfl
  | some false => cases b <;> rfl
  | some true => cases b <;> rfl

/-! ### One execution, by operation -/

section
variable (x : Inst) (clock : Nat) (b : Bool) (wacc : Word)

theorem Inst.exec_ton_on : x.exec 0x40 clock true wacc = Inst.timerOut { x with
    last := some clock, et := x.ranEt clock wacc, q := decide (presetUs wacc ≤ x.ranEt clock wacc) } := rfl

theorem Inst.exec_ton_off : x.exec 0x40 clock false wacc = Inst.timerOut { x with last := some clock, et := 0, q := false } := rfl

theorem Inst.exec_tof_on : x.exec 0x41 clock true wacc = Inst.timerOut { x with last := some clock, et := 0, q := true } := rfl

theorem Inst.exec_tof_off : x.exec 0x41 clock false wacc =
    Inst.timerOut (if x.q then x.hold clock wacc else { x with last := some clock }) := by
  cases h : x.q <;> simp only [Inst.exec, h] <;> rfl

theorem Inst.exec_tp : x.exec 0x42 clock b wacc = Inst.timerOut { (if x.q then x.hold clock wacc
    else if x.rising b then { x with last := some clock, et := 0, q := true } else { x with last := some clock }) with prev := some b } := by
  cases h : x.q
  · cases hr : x.rising b <;> simp only [Inst.rising] at hr <;> simp only [Inst.exec, h, hr] <;> rfl
  · simp only [Inst.exec, h, Bool.not_true, Bool.and_false]; rfl

theorem Inst.exec_ctu : x.exec 0x43 clock b wacc = Inst.countOut { x with
    last := some clock, prev := some b, cv := if x.rising b then min (x.cv + 1) satHi else x.cv
    q := decide (wacc.toInt ≤ if x.rising b then min (x.cv + 1) satHi else x.cv) } := rfl

theorem Inst.exec_ctd : x.exec 0x44 clock b wacc = Inst.countOut { x with
    last := some clock, prev := some b, cv := if x.rising b then max (x.cv - 1) satLo else x.cv
    q := decide ((if x.rising b then max (x.cv - 1) satLo else x.cv) ≤ 0) } := rfl

theorem Inst.exec_cld : x.exec 0x45 clock b wacc = ({ x with cv := if b then wacc.toInt else x.cv }, b, wacc) := rfl

theorem Inst.exec_rtrig : x.exec 0x46 clock b wacc = ({ x with last := some clock, prev := some b }, x.rising b, wacc) := rfl

theorem Inst.exec_ftrig : x.exec 0x47 clock b wacc = ({ x with last := some clock, prev := some b }, x.falling b, wacc) := rfl

/-- Every timer notes the program clock, and leaves its Q and ET. -/
theorem Inst.exec_timer {op : Nat} (h0 : 0x40 ≤ op) (h1 : op ≤ 0x42) :
    ∃ y : Inst, y.last = some clock ∧ x.exec op clock b wacc = y.timerOut := by
  obtain rfl | rfl | rfl : op = 0x40 ∨ op = 0x41 ∨ op = 0x42 := by omega
  · cases b
    · exact ⟨_, rfl, x.exec_ton_off clock wacc⟩
    · exact ⟨_, rfl, x.exec_ton_on clock wacc⟩
  · cases b
    · exact ⟨_, by split <;> rfl, x.exec_tof_off clock wacc⟩
    · exact ⟨_, rfl, x.exec_tof_on clock wacc⟩
  · refine ⟨_, ?_, x.exec_tp clock b wacc⟩
    split
    · rfl
    · split <;> rfl

end

/-! ### Many executions of a TON -/

theorem Inst.ton_foldl_et (wacc : Word) (l : List Nat) : ∀ (x : Inst) (a : Nat), x.last = some a → x.et ≤ presetUs wacc →
    (a :: l).Pairwise (· ≤ ·) → (l.foldl (fun y c => (y.exec 0x40 c true wacc).1) x).et =
      min (x.et + ((a :: l).getLast?.getD a - a)) (presetUs wacc) := by
  induction l with
  | nil => intro x a _ hle _; simp [hle]
  | cons c l ih =>
    intro x a hlast hle hsorted
    obtain ⟨ha, hl⟩ := List.pairwise_cons.mp hsorted
    have hac : a ≤ c := ha c List.mem_cons_self
    have hend : c ≤ (c :: l).getLast (List.cons_ne_nil c l) := by
      obtain heq | hmem := List.mem_cons.mp (List.getLast_mem (List.cons_ne_nil c l))
      · exact Nat.le_of_eq heq.symm
      · exact (List.pairwise_cons.mp hl).1 _ hmem
    have hstep := ih (x.exec 0x40 c true wacc).1 c rfl (x.ranEt_le_preset c wacc) hl
    have het : (x.exec 0x40 c true wacc).1.et = min (x.et + (c - a)) (presetUs wacc) := by
      rw [Inst.exec_ton_on]; simp only [Inst.timerOut, Inst.ranEt, Inst.elapsed_of_last hlast]
    rw [List.foldl_cons, hstep, het, List.getLast?_cons_cons, List.getLast?_eq_some_getLast (List.cons_ne_nil c l),
      Option.getD_some, Option.getD_some]
    omega

/-! ### The statement -/

/-- Settles O34: each clause reads its case of an execution; the sum over many executions of a TON is by induction on them. -/
theorem timersAndCounters : Obligations.TimersAndCounters := by
  refine ⟨?_, ?_, ?_, ?_, ?_, ?_, ?_, ?_, ?_, ?_, ?_, ?_, ?_, ?_, ?_, ?_, ?_⟩
  · intro x wacc a l hlast hle hsorted
    exact Inst.ton_foldl_et wacc l x a hlast hle hsorted
  · intro x wacc c
    rw [Inst.exec_ton_on]; rfl
  · intro x wacc c
    rw [Inst.exec_ton_off]; exact ⟨rfl, rfl⟩
  · intro x wacc c hfirst
    rw [Inst.exec_ton_on]; simp only [Inst.timerOut, Inst.ranEt, Inst.elapsed_first hfirst]; rfl
  · intro x wacc op c b h0 h1
    obtain ⟨y, hlast, hy⟩ := x.exec_timer c b wacc h0 h1
    rw [hy]; exact ⟨hlast, rfl⟩
  · intro x wacc c
    rw [Inst.exec_tof_on]; exact ⟨rfl, rfl⟩
  · intro x wacc a c hlast hq
    rw [Inst.exec_tof_off, if_pos hq]
    exact Inst.hold_et_q hlast c wacc
  · intro x wacc c hq
    rw [Inst.exec_tof_off, hq]; exact ⟨rfl, rfl⟩
  · intro x wacc c hq hprev
    rw [Inst.exec_tp, hq, Inst.rising_eq, hprev]; exact ⟨rfl, rfl⟩
  · intro x wacc a c b hlast hq
    rw [Inst.exec_tp, if_pos hq]
    exact Inst.hold_et_q hlast c wacc
  · intro x wacc c b hq hlevel
    have hr : x.rising b = false := by
      rw [Inst.rising_eq, Bool.and_eq_false_iff, decide_eq_false_iff_not]; exact hlevel
    rw [Inst.exec_tp, hq, hr]; exact ⟨rfl, rfl⟩
  · intro x wacc c b
    simp only [Inst.exec_ctu, Inst.countOut, Inst.rising_eq, satHi, Bool.and_eq_true, decide_eq_true_eq, and_self]
  · intro x wacc c b
    simp only [Inst.exec_ctd, Inst.countOut, Inst.rising_eq, satLo, Bool.and_eq_true, decide_eq_true_eq, and_self]
  · intro x wacc op c b hop
    obtain rfl | rfl := hop
    · rw [Inst.exec_ctu]; rfl
    · rw [Inst.exec_ctd]; rfl
  · intro x wacc c
    rw [Inst.exec_cld, Inst.exec_cld]; exact ⟨rfl, rfl⟩
  · intro x wacc c b
    rw [Inst.exec_rtrig, Inst.exec_ftrig, Inst.rising_eq, Inst.falling_eq]; exact ⟨rfl, rfl⟩
  · intro x wacc op c b hop
    obtain rfl | rfl | rfl | rfl := hop
    · rw [Inst.exec_ctu]; rfl
    · rw [Inst.exec_ctd]; rfl
    · rw [Inst.exec_rtrig]
    · rw [Inst.exec_ftrig]

end Sys2Proof.Machine
end

section
/-! PROOFS. The instructions of a cycle engine (13 R340, R341, Table 13.3): the arithmetic of signed words, the operands and their areas,
an equation for each instruction, and the statement of the family. -/
namespace Sys2Proof.Machine

/-! ### Word arithmetic (R341) -/

theorem satW_eq (v : Int) : satW v = (BitVec.ofInt 32 (max satLo (min satHi v)), decide (v < satLo ∨ satHi < v)) := by
  have hclamp : clampI satLo satHi v = max satLo (min satHi v) := by simp only [clampI, satLo, satHi]; omega
  rw [satW, hclamp]

theorem satLo_le_toInt (a : Word) : satLo ≤ a.toInt := BitVec.le_toInt a

theorem toInt_le_satHi (a : Word) : a.toInt ≤ satHi := Int.le_sub_one_of_lt BitVec.toInt_lt

/-- A quotient is at most as large as its dividend, so it overflows at −2³¹ ÷ −1 alone. -/
theorem tdiv_of_range {a b : Int} (hlo : satLo ≤ a) (hhi : a ≤ satHi) :
    satLo ≤ a.tdiv b ∧ (satHi < a.tdiv b ↔ a = satLo ∧ b = -1) := by
  simp only [satLo, satHi] at *
  have habs : (a.tdiv b).natAbs = a.natAbs / b.natAbs := Int.natAbs_tdiv a b
  have hle : a.natAbs / b.natAbs ≤ a.natAbs := Nat.div_le_self _ _
  refine ⟨by omega, fun h => ?_, fun ⟨ha, hb⟩ => by subst ha hb; decide⟩
  have ha : a = -2147483648 := by omega
  have hmul : 2147483648 * b.natAbs ≤ a.natAbs := Nat.mul_le_of_le_div _ _ _ (by omega)
  have hunit : b = 0 ∨ b = 1 ∨ b = -1 := by omega
  obtain rfl | rfl | rfl := hunit
  · rw [Int.tdiv_zero] at h; omega
  · rw [Int.tdiv_one] at h; omega
  · exact ⟨ha, rfl⟩

/-- A signed value of 32 bits that is 0 is the word 0. -/
theorem toInt_ne_zero {a : Word} (h : a ≠ 0) : a.toInt ≠ 0 := fun h0 => h (BitVec.eq_of_toInt_eq h0)

theorem toInt_overflow_iff (a b : Word) : (a.toInt = satLo ∧ b.toInt = -1) ↔ (a = 0x80000000#32 ∧ b = 0xFFFFFFFF#32) := by
  rw [← BitVec.toInt_inj (x := a), ← BitVec.toInt_inj (x := b)]; rfl

theorem arith_div {b : Int} (h : b ≠ 0) (a : Int) : arith 0x31 a b = ((satW (a.tdiv b)).1, (satW (a.tdiv b)).2, false) := by
  simp only [arith, if_true, if_neg h]

/-- The three operations whose exact result is saturated, whatever the operand. -/
theorem arith_exact {op : Nat} {f : Int → Int → Int}
    (h : (op = 0x23 ∧ f = (· + ·)) ∨ (op = 0x24 ∧ f = (· - ·)) ∨ (op = 0x30 ∧ f = (· * ·))) (a b : Int) : arith op a b = ((satW (f a b)).1, (satW (f a b)).2, false) := by
  obtain ⟨rfl, rfl⟩ | ⟨rfl, rfl⟩ | ⟨rfl, rfl⟩ := h <;> rfl

/-! ### Words and their values -/

theorem beq_eq_decide_toInt (a b : Word) : (a == b) = decide (a.toInt = b.toInt) := by
  rw [Bool.eq_iff_iff, beq_iff_eq, decide_eq_true_eq, BitVec.toInt_inj]

theorem shiftLeft_eq_ofNat (a : Word) (n : Nat) : a <<< n = BitVec.ofNat 32 (a.toNat * 2 ^ n) := by
  apply BitVec.eq_of_toNat_eq
  rw [BitVec.toNat_shiftLeft, BitVec.toNat_ofNat, Nat.shiftLeft_eq]

theorem sshiftRight_eq_ofInt (a : Word) (n : Nat) : a.sshiftRight n = BitVec.ofInt 32 (a.toInt.fdiv (2 ^ n)) := by
  rw [Int.fdiv_eq_ediv_of_nonneg _ (Int.pow_nonneg (by decide)), BitVec.sshiftRight, Int.shiftRight_eq_div_pow]; norm_cast

/-- The upper part that LDH loads is the instruction's own word, shifted. -/
theorem ofNat_high_immediate (w : Word) : BitVec.ofNat 32 (opdOf w % 1024 * 4194304) = w <<< 22 := by
  rw [shiftLeft_eq_ofNat, opdOf]
  apply BitVec.eq_of_toNat_eq
  rw [BitVec.toNat_ofNat, BitVec.toNat_ofNat]
  omega

theorem getLsbD_low22 {i : Nat} (hi : i < 32) : (0x3FFFFF#32).getLsbD i = decide (i < 22) := by
  rw [BitVec.getLsbD_ofNat, show 0x3FFFFF = 2 ^ 22 - 1 from rfl, Nat.testBit_two_pow_sub_one, decide_eq_true hi, Bool.true_and]

theorem getLsbD_ldh {i : Nat} (hi : i < 32) (a w : Word) :
    ((a &&& 0x3FFFFF#32) ||| BitVec.ofNat 32 (opdOf w % 1024 * 4194304)).getLsbD i = if i < 22 then a.getLsbD i else w.getLsbD (i - 22) := by
  rw [ofNat_high_immediate, BitVec.getLsbD_or, BitVec.getLsbD_and, BitVec.getLsbD_shiftLeft, getLsbD_low22 hi]
  by_cases h : i < 22 <;> simp [h, hi]

/-! ### Operands and bits (R340) -/

theorem immOf_eq (w : Word) : immOf w = (w.extractLsb' 0 22).toInt := by
  simp only [immOf, signedOf, opdOf, BitVec.toInt_eq_toNat_cond, BitVec.extractLsb'_toNat, Nat.shiftRight_zero, Nat.mod_mod]
  split <;> split <;> omega

/-- An immediate is extended by its sign. -/
theorem State.operand_immediate_toInt {s : State} {e : Nat} {c : TaskCtx} {w : Word} (h : kindOf w = 2) :
    (s.operand e c w).toInt = (w.extractLsb' 0 22).toInt := by
  rw [State.operand, if_pos h, immOf_eq]
  exact BitVec.toInt_signExtend_of_le (by decide)

/-- A word with bit k given. -/
def storeBit (old : Word) (k : Nat) (v : Bool) : Word := if v then old ||| bitW k else old &&& ~~~bitW k

theorem getLsbD_bitW {i : Nat} (hi : i < 32) (k : Nat) : (bitW k).getLsbD i = decide (i = k) := by
  rw [bitW, BitVec.getLsbD_shiftLeft, BitVec.getLsbD_one, Bool.eq_iff_iff]
  simp only [Bool.and_eq_true, Bool.not_eq_true', decide_eq_true_eq, decide_eq_false_iff_not]
  omega

theorem getLsbD_storeBit {i : Nat} (hi : i < 32) (old : Word) (k : Nat) (v : Bool) :
    (storeBit old k v).getLsbD i = if i = k then v else old.getLsbD i := by
  cases v
  · simp only [storeBit, Bool.false_eq_true, if_false, BitVec.getLsbD_and, BitVec.getLsbD_not, getLsbD_bitW hi, hi]
    by_cases h : i = k <;> simp [h]
  · simp only [storeBit, if_true, BitVec.getLsbD_or, getLsbD_bitW hi]
    by_cases h : i = k <;> simp [h]

/-! ### Stores -/

section
variable (s : State) (e : Nat) (c : TaskCtx)

theorem State.wrBit_unshared {w : Word} (h : areaOf w ≠ 4) (v : Bool) : s.wrBit e c w v =
    s.wrWord e c (areaOf w) (idxOf w / 32) (storeBit (s.rdWord e c (areaOf w) (idxOf w / 32)) (idxOf w % 32) v) := by
  simp only [State.wrBit, if_neg h]; rfl

theorem State.rdWord_output (i : Nat) : s.rdWord e c 1 i = (s.eng e).output.getD i 0 := rfl

theorem State.rdWord_system_flags : s.rdWord e c 5 0 =
    (c.system.getD 0 0 &&& ~~~(12#32)) ||| BitVec.ofNat 32 (4 * bit (s.eng e).ovf + 8 * bit (s.eng e).divz) := rfl

theorem State.getLsbD_three_rdWord_system : (s.rdWord e c 5 0).getLsbD 3 = (s.eng e).divz := by
  rw [State.rdWord_system_flags]
  cases (s.eng e).ovf <;> cases (s.eng e).divz <;> simp [bit]

variable {s e}

theorem State.wrWord_output_eng (he : e < s.prog.engines.length) (i : Nat) (v : Word) :
    (s.wrWord e c 1 i v).eng e = { s.eng e with output := (s.eng e).output.set i v } := State.eng_onEng _ he

theorem State.wrWord_system_eng (he : e < s.prog.engines.length) (i : Nat) (v : Word) :
    (s.wrWord e c 5 i v).eng e = { s.eng e with ovf := v.getLsbD 2, divz := v.getLsbD 3 } := State.eng_onEng _ he

end

/-! ### One instruction (Table 13.3) -/

/-- A task goes on behind the instruction. -/
def TaskCtx.next (c : TaskCtx) : TaskCtx := { c with pc := c.pc + 1, passed := false }

/-- A task goes on at an instruction's index. -/
def TaskCtx.jump (c : TaskCtx) (i : Nat) : TaskCtx := { c with pc := i, passed := false }

/-- OVF and DIVZ stay set. -/
def CycEng.flagged (x : CycEng) (r : Word × Bool × Bool) : CycEng := { x with ovf := x.ovf || r.2.1, divz := x.divz || r.2.2 }

section
variable {s : State} {e : Nat} {c : TaskCtx} {w : Word}

theorem State.instr_ld (h : opOf w = 0x01) : s.instr e c w = (s, some { c.next with acc := s.rdBit e c w }) := by
  simp only [State.instr, h]; rfl
theorem State.instr_ldn (h : opOf w = 0x02) : s.instr e c w = (s, some { c.next with acc := !s.rdBit e c w }) := by
  simp only [State.instr, h]; rfl
theorem State.instr_and (h : opOf w = 0x03) : s.instr e c w = (s, some { c.next with acc := c.acc && s.rdBit e c w }) := by
  simp only [State.instr, h]; rfl
theorem State.instr_andn (h : opOf w = 0x04) : s.instr e c w = (s, some { c.next with acc := c.acc && !s.rdBit e c w }) := by
  simp only [State.instr, h]; rfl
theorem State.instr_or (h : opOf w = 0x05) : s.instr e c w = (s, some { c.next with acc := c.acc || s.rdBit e c w }) := by
  simp only [State.instr, h]; rfl
theorem State.instr_orn (h : opOf w = 0x06) : s.instr e c w = (s, some { c.next with acc := c.acc || !s.rdBit e c w }) := by
  simp only [State.instr, h]; rfl
theorem State.instr_xor (h : opOf w = 0x07) : s.instr e c w = (s, some { c.next with acc := xor c.acc (s.rdBit e c w) }) := by
  simp only [State.instr, h]; rfl
theorem State.instr_st (h : opOf w = 0x08) : s.instr e c w = (s.wrBit e c w c.acc, some c.next) := by
  simp only [State.instr, h]; rfl
theorem State.instr_stn (h : opOf w = 0x09) : s.instr e c w = (s.wrBit e c w (!c.acc), some c.next) := by
  simp only [State.instr, h]; rfl
theorem State.instr_set (h : opOf w = 0x0A) : s.instr e c w = (if c.acc then s.wrBit e c w true else s, some c.next) := by
  simp only [State.instr, h]; rfl
theorem State.instr_rst (h : opOf w = 0x0B) : s.instr e c w = (if c.acc then s.wrBit e c w false else s, some c.next) := by
  simp only [State.instr, h]; rfl
theorem State.instr_not (h : opOf w = 0x0C) : s.instr e c w = (s, some { c.next with acc := !c.acc }) := by
  simp only [State.instr, h]; rfl
theorem State.instr_push (h : opOf w = 0x0D) : s.instr e c w = (s, some { c.next with stack := c.acc :: c.stack }) := by
  simp only [State.instr, h]; rfl
theorem State.instr_popand (h : opOf w = 0x0E) :
    s.instr e c w = (s, some { c.next with acc := c.stack.headD false && c.acc, stack := c.stack.tail }) := by
  simp only [State.instr, h]; rfl
theorem State.instr_popor (h : opOf w = 0x0F) :
    s.instr e c w = (s, some { c.next with acc := c.stack.headD false || c.acc, stack := c.stack.tail }) := by
  simp only [State.instr, h]; rfl
theorem State.instr_jmp (h : opOf w = 0x10) : s.instr e c w = (s, some (c.jump (opdOf w))) := by
  simp only [State.instr, h]; rfl
theorem State.instr_jmpc (h : opOf w = 0x11) : s.instr e c w = if c.acc then (s, some (c.jump (opdOf w))) else (s, some c.next) := by
  simp only [State.instr, h]; rfl
theorem State.instr_jmpcn (h : opOf w = 0x12) : s.instr e c w = if c.acc then (s, some c.next) else (s, some (c.jump (opdOf w))) := by
  simp only [State.instr, h]; rfl
theorem State.instr_end (h : opOf w = 0x13) : s.instr e c w = (s, none) := by
  simp only [State.instr, h]; rfl
theorem State.instr_ldw (h : opOf w = 0x20) : s.instr e c w = (s, some { c.next with wacc := s.operand e c w }) := by
  simp only [State.instr, h]; rfl
theorem State.instr_ldh (h : opOf w = 0x21) : s.instr e c w = (s, some { c.next with
    wacc := (c.wacc &&& 0x3FFFFF#32) ||| BitVec.ofNat 32 (opdOf w % 1024 * 4194304) }) := by
  simp only [State.instr, h]; rfl
theorem State.instr_stw (h : opOf w = 0x22) : s.instr e c w = (s.wrWord e c (areaOf w) (idxOf w) c.wacc, some c.next) := by
  simp only [State.instr, h]; rfl
theorem State.instr_andw (h : opOf w = 0x25) : s.instr e c w = (s, some { c.next with wacc := c.wacc &&& s.operand e c w }) := by
  simp only [State.instr, h]; rfl
theorem State.instr_orw (h : opOf w = 0x26) : s.instr e c w = (s, some { c.next with wacc := c.wacc ||| s.operand e c w }) := by
  simp only [State.instr, h]; rfl
theorem State.instr_xorw (h : opOf w = 0x27) : s.instr e c w = (s, some { c.next with wacc := c.wacc ^^^ s.operand e c w }) := by
  simp only [State.instr, h]; rfl
theorem State.instr_shl (h : opOf w = 0x28) : s.instr e c w = (s, some { c.next with wacc := c.wacc <<< opdOf w }) := by
  simp only [State.instr, h]; rfl
theorem State.instr_shr (h : opOf w = 0x29) : s.instr e c w = (s, some { c.next with wacc := c.wacc.sshiftRight (opdOf w) }) := by
  simp only [State.instr, h]; rfl
theorem State.instr_cmpeq (h : opOf w = 0x2A) : s.instr e c w = (s, some { c.next with acc := c.wacc == s.operand e c w }) := by
  simp only [State.instr, h]; rfl
theorem State.instr_cmpgt (h : opOf w = 0x2B) :
    s.instr e c w = (s, some { c.next with acc := decide ((s.operand e c w).toInt < c.wacc.toInt) }) := by
  simp only [State.instr, h]; rfl
theorem State.instr_cmplt (h : opOf w = 0x2C) :
    s.instr e c w = (s, some { c.next with acc := decide (c.wacc.toInt < (s.operand e c w).toInt) }) := by
  simp only [State.instr, h]; rfl

/-- ADD, SUB, MUL and DIV. -/
theorem State.instr_arith (h : opOf w = 0x23 ∨ opOf w = 0x24 ∨ opOf w = 0x30 ∨ opOf w = 0x31) : s.instr e c w =
    (s.onEng e (fun x => x.flagged (arith (opOf w) c.wacc.toInt (s.operand e c w).toInt)),
      some { c.next with wacc := (arith (opOf w) c.wacc.toInt (s.operand e c w).toInt).1 }) := by
  obtain h | h | h | h := h <;> simp only [State.instr, h] <;> rfl

/-- ST, STN, SET and RST where they store. -/
theorem State.instr_bitStore {v : Bool} (hop : (opOf w = 0x08 ∧ v = c.acc) ∨ (opOf w = 0x09 ∧ v = !c.acc)
    ∨ (opOf w = 0x0A ∧ c.acc = true ∧ v = true) ∨ (opOf w = 0x0B ∧ c.acc = true ∧ v = false)) :
    s.instr e c w = (s.wrBit e c w v, some c.next) := by
  obtain ⟨h, rfl⟩ | ⟨h, rfl⟩ | ⟨h, hacc, rfl⟩ | ⟨h, hacc, rfl⟩ := hop
  · exact State.instr_st h
  · exact State.instr_stn h
  · rw [State.instr_set h, if_pos hacc]
  · rw [State.instr_rst h, if_pos hacc]

/-- The result of word arithmetic in wacc, and the sticky bits of the engine. -/
theorem State.instr_arith_flags (h : opOf w = 0x23 ∨ opOf w = 0x24 ∨ opOf w = 0x30 ∨ opOf w = 0x31) (he : e < s.prog.engines.length)
    {r : Word × Bool × Bool} (hr : arith (opOf w) c.wacc.toInt (s.operand e c w).toInt = r) :
    (s.instr e c w).2 = some { c.next with wacc := r.1 } ∧ ((s.instr e c w).1.eng e).ovf = ((s.eng e).ovf || r.2.1)
    ∧ ((s.instr e c w).1.eng e).divz = ((s.eng e).divz || r.2.2) := by
  rw [State.instr_arith h, hr, State.eng_onEng _ he]
  exact ⟨rfl, rfl, rfl⟩

/-- DIV by anything but 0. -/
theorem State.instr_div (h : opOf w = 0x31) (hb : s.operand e c w ≠ 0) (he : e < s.prog.engines.length) :
    (s.instr e c w).2 = some { c.next with
      wacc := BitVec.ofInt 32 (min satHi (c.wacc.toInt.tdiv (s.operand e c w).toInt)) }
    ∧ ((s.instr e c w).1.eng e).ovf =
      ((s.eng e).ovf || decide (c.wacc = 0x80000000#32 ∧ s.operand e c w = 0xFFFFFFFF#32))
    ∧ ((s.instr e c w).1.eng e).divz = (s.eng e).divz := by
  obtain ⟨hlo, hovf⟩ := tdiv_of_range (b := (s.operand e c w).toInt) (satLo_le_toInt c.wacc) (toInt_le_satHi c.wacc)
  have hr := arith_div (toInt_ne_zero hb) c.wacc.toInt
  rw [← h, satW_eq, Int.max_eq_right (Int.le_min.mpr ⟨by decide, hlo⟩)] at hr
  simp only [Int.not_lt.mpr hlo, false_or, hovf, toInt_overflow_iff] at hr
  obtain ⟨hw, ho, hz⟩ := State.instr_arith_flags (.inr (.inr (.inr h))) he hr
  exact ⟨hw, ho, hz.trans (Bool.or_false _)⟩

end

/-! ### The statement -/

/-- Settles O33: each clause is the equation of its instructions, with what their arithmetic, their operand or their store comes to. -/
theorem cycleInstructions : Obligations.CycleInstructions := by
  refine ⟨?_, ?_, ?_, ?_, ?_, ?_, ?_, ?_, ?_, ?_, ?_, ?_, ?_, ?_, ?_, ?_, ?_, ?_, ?_, ?_, ?_⟩
  · -- ADD, SUB, MUL
    intro s e op c w f hf hop he
    have hr := arith_exact hf c.wacc.toInt (s.operand e c w).toInt
    rw [← hop, satW_eq] at hr
    have harith : opOf w = 0x23 ∨ opOf w = 0x24 ∨ opOf w = 0x30 ∨ opOf w = 0x31 := by
      obtain ⟨h, _⟩ | ⟨h, _⟩ | ⟨h, _⟩ := hf <;> simp [hop, h]
    obtain ⟨hw, ho, hz⟩ := State.instr_arith_flags harith he hr
    exact ⟨hw, ho, hz.trans (Bool.or_false _)⟩
  · -- DIV
    intro s e c w hop hb he
    obtain ⟨hw, _, hz⟩ := State.instr_div (c := c) hop hb he
    exact ⟨hw, hz⟩
  · -- DIV by 0
    intro s e c w hop hb he
    have hr : arith (opOf w) c.wacc.toInt (s.operand e c w).toInt = (0, false, true) := by rw [hop, hb]; rfl
    obtain ⟨hw, ho, hz⟩ := State.instr_arith_flags (.inr (.inr (.inr hop))) he hr
    exact ⟨hw, hz.trans (Bool.or_true _), ho.trans (Bool.or_false _)⟩
  · -- DIV: −2³¹ ÷ −1
    intro s e c w hop hb he
    obtain ⟨_, ho, _⟩ := State.instr_div (c := c) hop hb he
    exact ho
  · -- STW into the system area
    intro s e c w hop harea he
    rw [State.instr_stw hop, harea, State.wrWord_system_eng c he]
    exact ⟨rfl, rfl⟩
  · -- RST of OVF
    intro s e c w hop harea hidx hacc he
    rw [State.instr_bitStore (v := false) (.inr (.inr (.inr ⟨hop, hacc, rfl⟩))), State.wrBit_unshared s e c (by rw [harea]; decide),
      harea, hidx, State.wrWord_system_eng c he]
    simp only [getLsbD_storeBit (show 2 < 32 by decide), getLsbD_storeBit (show 3 < 32 by decide)]
    exact ⟨rfl, s.getLsbD_three_rdWord_system e c⟩
  · -- the logic of acc
    intro s e op c w f hf hop
    obtain ⟨h, rfl⟩ | ⟨h, rfl⟩ | ⟨h, rfl⟩ | ⟨h, rfl⟩ | ⟨h, rfl⟩ | ⟨h, rfl⟩ | ⟨h, rfl⟩ | ⟨h, rfl⟩ := hf <;> rw [h] at hop
    · exact State.instr_ld hop
    · exact State.instr_ldn hop
    · exact State.instr_and hop
    · exact State.instr_andn hop
    · exact State.instr_or hop
    · exact State.instr_orn hop
    · exact State.instr_xor hop
    · exact State.instr_not hop
  · -- a bit store into the output area
    intro s e op i c w v hv hop harea he hword hi
    subst hop
    rw [State.instr_bitStore hv, State.wrBit_unshared s e c (by rw [harea]; decide), harea, State.wrWord_output_eng c he]
    refine ⟨rfl, ?_⟩
    rw [← getLsbD_storeBit hi, State.rdWord_output]
    simp only [List.getD_eq_getElem?_getD, List.getElem?_set_self hword, Option.getD_some]
  · -- SET and RST with acc = 0
    intro s e op c w h hop hacc
    obtain rfl | rfl := h
    · rw [State.instr_set hop, if_neg (Bool.eq_false_iff.mp hacc)]; rfl
    · rw [State.instr_rst hop, if_neg (Bool.eq_false_iff.mp hacc)]; rfl
  · -- PUSH
    intro s e c w hop
    exact State.instr_push hop
  · -- POPAND and POPOR
    intro s e op c w b l h hop hstack
    obtain rfl | rfl := h
    · rw [State.instr_popand hop, hstack]; rfl
    · rw [State.instr_popor hop, hstack]; rfl
  · -- jumps that are taken
    intro s e op c w h hop
    obtain rfl | ⟨rfl, hacc⟩ | ⟨rfl, hacc⟩ := h
    · exact State.instr_jmp hop
    · exact (State.instr_jmpc hop).trans (if_pos hacc)
    · exact (State.instr_jmpcn hop).trans (if_neg (Bool.eq_false_iff.mp hacc))
  · -- jumps that are not
    intro s e op c w h hop
    obtain ⟨rfl, hacc⟩ | ⟨rfl, hacc⟩ := h
    · exact (State.instr_jmpc hop).trans (if_neg (Bool.eq_false_iff.mp hacc))
    · exact (State.instr_jmpcn hop).trans (if_pos hacc)
  · -- END
    intro s e c w hop
    exact State.instr_end hop
  · -- LDW and the logic of wacc
    intro s e op c w f hf hop
    obtain ⟨h, rfl⟩ | ⟨h, rfl⟩ | ⟨h, rfl⟩ | ⟨h, rfl⟩ := hf <;> rw [h] at hop
    · exact State.instr_ldw hop
    · exact State.instr_andw hop
    · exact State.instr_orw hop
    · exact State.instr_xorw hop
  · -- LDH
    intro s e c w hop
    exact ⟨_, State.instr_ldh hop, rfl, rfl, fun i hi => getLsbD_ldh hi c.wacc w⟩
  · -- SHL
    intro s e c w hop _
    rw [State.instr_shl hop, shiftLeft_eq_ofNat]; rfl
  · -- SHR
    intro s e c w hop _
    rw [State.instr_shr hop, sshiftRight_eq_ofInt]; rfl
  · -- comparisons
    intro s e op c w p hp hop
    obtain ⟨h, rfl⟩ | ⟨h, rfl⟩ | ⟨h, rfl⟩ := hp <;> rw [h] at hop
    · rw [State.instr_cmpeq hop, beq_eq_decide_toInt]; rfl
    · exact State.instr_cmpgt hop
    · exact State.instr_cmplt hop
  · intro s e c w hkind
    exact State.operand_immediate_toInt hkind
  · intro s e c w
    rfl

end Sys2Proof.Machine
end

section
/-! PROOFS. The event recorder's holding queue and the conservation of events (17 R442, R444): what a publication, a write, a store and an
overflow leave and add, the queue's order, the counts, and the statement of the family. -/
namespace Sys2Proof.Machine

/-! ### Parts that an operation leaves -/

/-- The set that names the parts of a list. -/
def Part.among (l : List Part) (q : Part) : Bool := decide (q ∈ l)

theorem Part.may_among {l : List Part} {q : Part} (h : q ∈ l) : May (Part.among l) q := ⟨decide_eq_true h⟩

theorem Holds.same_of_not_mem {R : Bool} {l : List Part} {q : Part} {s t : State} (h : Holds R (Part.among l) s t) (hq : q ∉ l) :
    q.same s t :=
  (h.parts q).resolve_left (fun hm => hq (of_decide_eq_true hm))

section
variable (s : State) (q : Nat)

theorem State.complete_rec_ (i status detail resultLen flags : Nat) : (s.complete q i status detail resultLen flags).rec_ = s.rec_ :=
  haveI : May (Part.among [.host, .out]) .host := Part.may_among (by decide)
  haveI : May (Part.among [.host, .out]) .out := Part.may_among (by decide)
  Holds.same_of_not_mem (R := false) (l := [.host, .out]) (State.complete_holds (Holds.refl nofun)) (q := .rec_) (by decide)

theorem State.fetch_rec_ : (s.fetch q).rec_ = s.rec_ :=
  haveI : May (Part.among [.host]) .host := Part.may_among (by decide)
  Holds.same_of_not_mem (R := false) (l := [.host]) (State.fetch_holds (Holds.refl nofun)) (q := .rec_) (by decide)

theorem State.plantSend_rec_ (type : Nat) (body : List Byte) : (s.plantSend type body).rec_ = s.rec_ :=
  haveI : May (Part.among [.plant, .out]) .plant := Part.may_among (by decide)
  haveI : May (Part.among [.plant, .out]) .out := Part.may_among (by decide)
  Holds.same_of_not_mem (R := false) (l := [.plant, .out]) (State.plantSend_holds (Holds.refl nofun)) (q := .rec_) (by decide)

/-- A store reaches the host's queues, the plant and the outputs, and nothing else beside the recorder. -/
theorem State.store_same {p : Part} (e : Event) (late counted : Bool) (hp : p ∉ [Part.host, .plant, .rec_, .out]) :
    p.same s (s.store e late counted) :=
  haveI : May (Part.among [.host, .plant, .rec_, .out]) .host := Part.may_among (by decide)
  haveI : May (Part.among [.host, .plant, .rec_, .out]) .plant := Part.may_among (by decide)
  haveI : May (Part.among [.host, .plant, .rec_, .out]) .rec_ := Part.may_among (by decide)
  haveI : May (Part.among [.host, .plant, .rec_, .out]) .out := Part.may_among (by decide)
  (State.store_holds (R := false) (Holds.refl nofun)).same_of_not_mem hp

end

/-! ### Raising events, and nothing else -/

/-- The recorder has detected more events, and is otherwise as it was. -/
def Recorder.Raises (r t : Recorder) : Prop := ∃ l, t = { r with detected := r.detected ++ l }

theorem Recorder.Raises.refl (r : Recorder) : r.Raises r := ⟨[], by rw [List.append_nil]⟩

theorem Recorder.Raises.of_eq {r t : Recorder} (h : t = r) : r.Raises t := h ▸ .refl r

theorem Recorder.Raises.trans {r t u : Recorder} (h : r.Raises t) (h' : t.Raises u) : r.Raises u := by
  obtain ⟨l, rfl⟩ := h
  obtain ⟨l', rfl⟩ := h'
  exact ⟨l ++ l', by rw [List.append_assoc]⟩

theorem State.raise_raises (s : State) (e : EvDef) (a : List Int) : s.rec_.Raises (s.raise e a).rec_ := ⟨_, rfl⟩

theorem State.pump_raises (q n : Nat) : ∀ s : State, s.rec_.Raises (s.pump q n).rec_ := by
  induction n with
  | zero => exact fun s => .refl _
  | succ n ih =>
    intro s
    unfold State.pump
    split
    · exact .refl _
    · next i status detail _ =>
      have hcomplete : s.rec_.Raises (s.complete q i status detail 0 0).rec_ := .of_eq (s.complete_rec_ ..)
      refine .trans ?_ (ih _)
      split
      · exact hcomplete.trans (State.raise_raises ..)
      · exact hcomplete

theorem State.fetchAndPump_raises (s : State) (q : Nat) : s.rec_.Raises (s.fetchAndPump q).rec_ :=
  .trans (.of_eq (s.fetch_rec_ q)) (State.pump_raises ..)

theorem State.complete_fetchAndPump_raises (s : State) (q i status detail len flags : Nat) :
    s.rec_.Raises ((s.complete q i status detail len flags).fetchAndPump q).rec_ :=
  .trans (.of_eq (s.complete_rec_ ..)) (State.fetchAndPump_raises ..)

theorem State.fill_raises (q n : Nat) : ∀ s : State, s.rec_.Raises (s.fill q n).rec_ := by
  induction n with
  | zero => exact fun s => .refl _
  | succ n ih =>
    intro s
    unfold State.fill
    dsimp only
    split
    · split
      · exact ih _
      · split
        · exact (s.complete_fetchAndPump_raises ..).trans (ih _)
        · exact (s.complete_fetchAndPump_raises ..).trans (ih _)
    · exact .refl _

theorem State.release_raises (s : State) (cls : Nat) (r : StreamRec) : s.rec_.Raises (s.release cls r).rec_ := by
  unfold State.release
  split
  · split
    · exact .of_eq rfl
    · exact .refl _
  · exact State.fill_raises _ _ (s.setBacklog cls _)

theorem State.publish_raises (s : State) (r : Rec) : s.rec_.Raises (s.publish r).rec_ := by
  unfold State.publish
  dsimp only
  split
  · exact (s.release_raises ..).trans (.of_eq (State.plantSend_rec_ ..))
  · exact s.release_raises ..

/-! ### A record is written -/

/-- The recorder with a record in its next slot (R440). -/
def Recorder.append (r : Recorder) (x : Rec) : Recorder :=
  { r with
    slots := r.slots ++ [x]
    firstRseq := if r.slots.isEmpty then x.rseq else r.firstRseq
    nextRseq := r.nextRseq + 1 }

/-- The record that an event becomes now. -/
def State.recOf (s : State) (e : Event) (late : Bool) : Rec := ⟨s.rec_.nextRseq, s.chain.identity, e, s.isSolo, late⟩

theorem State.writeRec_raises (s : State) (e : Event) (late : Bool) :
    (s.rec_.append (s.recOf e late)).Raises (s.writeRec e late).rec_ :=
  State.publish_raises { s with rec_ := s.rec_.append (s.recOf e late) } _

theorem State.writeRec_slots (s : State) (e : Event) (late : Bool) :
    (s.writeRec e late).rec_.slots = s.rec_.slots ++ [s.recOf e late] := by
  obtain ⟨l, h⟩ := s.writeRec_raises e late
  rw [h]; rfl

/-! ### What a store leaves and adds -/

/-- The event is not the recorder's own (R444). -/
def Event.counted (e : Event) : Bool := decide (e.code ≠ Ev.recorderCleared.code)

theorem Recorder.queued_eq_countP (r : Recorder) : r.queued = r.holding.countP Event.counted := List.countP_eq_length_filter.symm

/-- The events that R444's equation accounts for. -/
def Recorder.accounted (r : Recorder) : Nat := r.nWritten + r.queued + r.nOverflowed + r.nSuppressed + r.nLost

theorem Recorder.conserved_iff (r : Recorder) : r.conserved = true ↔ r.nDetected = r.accounted := decide_eq_true_iff

/-- Events were stored, n of them counted: the queue, the tally of overflows and the count of detections stay, no record is lost. -/
structure Recorder.Stored (n : Nat) (r t : Recorder) : Prop where
  holding   : t.holding = r.holding
  overflow  : t.overflow = r.overflow
  slots     : r.slots <+: t.slots
  nDetected : t.nDetected = r.nDetected
  accounted : t.accounted = r.accounted + n

theorem Recorder.Stored.refl (r : Recorder) : r.Stored 0 r := ⟨rfl, rfl, List.prefix_refl _, rfl, rfl⟩

theorem Recorder.Stored.trans {r t u : Recorder} {m n : Nat} (h : r.Stored m t) (h' : t.Stored n u) : r.Stored (m + n) u where
  holding := h'.holding.trans h.holding
  overflow := h'.overflow.trans h.overflow
  slots := h.slots.trans h'.slots
  nDetected := h'.nDetected.trans h.nDetected
  accounted := by rw [h'.accounted, h.accounted, Nat.add_assoc]

theorem State.writeRec_stored (s : State) (e : Event) (late : Bool) : s.rec_.Stored 0 (s.writeRec e late).rec_ := by
  obtain ⟨l, h⟩ := s.writeRec_raises e late
  rw [h]
  exact ⟨rfl, rfl, List.prefix_append .., rfl, rfl⟩

theorem State.store_of_full {s : State} (h : s.rec_.full = true) (e : Event) (late counted : Bool) :
    s.store e late counted = { s with rec_ := { s.rec_ with
      suppressed := s.rec_.suppressed.addFirst e
      nSuppressed := if counted then s.rec_.nSuppressed + 1 else s.rec_.nSuppressed } } :=
  if_pos h

/-- The record of an event in the next slot, counted. -/
def State.wrote (s : State) (e : Event) (late counted : Bool) : State :=
  { s.writeRec e late with rec_ := { (s.writeRec e late).rec_ with
      nWritten := if counted then (s.writeRec e late).rec_.nWritten + 1 else (s.writeRec e late).rec_.nWritten } }

/-- The full marker (R443), with the time of the first record. -/
def State.fullMarker (s : State) : Event :=
  ⟨eventOf s.sysNs, Ev.recorderFull.code, Ev.recorderFull.sev, [match s.rec_.slots.head? with | some r => (r.event.time : Int) | none => 0]⟩

theorem State.store_of_not_full {s : State} (h : s.rec_.full = false) (e : Event) (late counted : Bool) :
    s.store e late counted =
      if (s.wrote e late counted).rec_.slots.length + 1 = recSlots then
        (s.wrote e late counted).writeRec (s.wrote e late counted).fullMarker false
      else s.wrote e late counted := by
  unfold State.store
  rw [if_neg (Bool.eq_false_iff.mp h)]
  rfl

theorem State.wrote_slots (s : State) (e : Event) (late counted : Bool) :
    (s.wrote e late counted).rec_.slots = s.rec_.slots ++ [s.recOf e late] :=
  s.writeRec_slots e late

theorem State.wrote_stored (s : State) (e : Event) (late counted : Bool) :
    s.rec_.Stored (bit counted) (s.wrote e late counted).rec_ := by
  obtain ⟨hholding, hoverflow, hslots, hdetected, haccounted⟩ := s.writeRec_stored e late
  refine ⟨hholding, hoverflow, hslots, hdetected, ?_⟩
  cases counted
  · exact haccounted
  · simp only [State.wrote, Recorder.accounted, Recorder.queued, bit, if_true] at haccounted ⊢
    omega

theorem State.store_stored (s : State) (e : Event) (late counted : Bool) :
    s.rec_.Stored (bit counted) (s.store e late counted).rec_ := by
  cases hfull : s.rec_.full
  · rw [State.store_of_not_full hfull]
    split
    · exact (s.wrote_stored ..).trans (State.writeRec_stored ..)
    · exact s.wrote_stored ..
  · rw [State.store_of_full hfull]
    refine ⟨rfl, rfl, List.prefix_refl _, rfl, ?_⟩
    cases counted
    · rfl
    · simp only [Recorder.accounted, Recorder.queued, bit, if_true]
      omega

/-- While two slots stay free, an event becomes the next record and brings no marker. -/
theorem State.store_slots_of_room {s : State} (h : s.rec_.slots.length + 2 < recSlots) (e : Event) (late counted : Bool) :
    (s.store e late counted).rec_.slots = s.rec_.slots ++ [s.recOf e late] := by
  have hfull : s.rec_.full = false := decide_eq_false (by omega)
  rw [State.store_of_not_full hfull, if_neg, s.wrote_slots]
  rw [s.wrote_slots, List.length_append, List.length_singleton]
  omega

/-! ### Contiguous numbers (R439, R440) -/

theorem Recorder.sound.of_raises {r t : Recorder} (h : r.sound) (hr : r.Raises t) : t.sound := by
  obtain ⟨l, rfl⟩ := hr
  exact ⟨h.numbers, h.next, h.slots, h.holding⟩

theorem Recorder.append_firstRseq_of_nil {r : Recorder} (h : r.slots = []) (x : Rec) : (r.append x).firstRseq = x.rseq := by
  simp [Recorder.append, h]

theorem Recorder.append_firstRseq_of_ne_nil {r : Recorder} (h : r.slots ≠ []) (x : Rec) : (r.append x).firstRseq = r.firstRseq := by
  simp [Recorder.append, h]

theorem Recorder.sound.append {r : Recorder} (h : r.sound) (hroom : r.slots.length < recSlots) {x : Rec} (hx : x.rseq = r.nextRseq) :
    (r.append x).sound := by
  have hlast : r.nextRseq = (r.append x).firstRseq + BitVec.ofNat 32 r.slots.length := by
    by_cases hnil : r.slots = []
    · rw [Recorder.append_firstRseq_of_nil hnil, hnil, hx]; exact (BitVec.add_zero _).symm
    · rw [Recorder.append_firstRseq_of_ne_nil hnil, h.next hnil]
  refine ⟨fun i y hy => ?_, fun _ => ?_, ?_, h.holding⟩
  · obtain hi | hi := Nat.lt_or_ge i r.slots.length
    · have hnil : r.slots ≠ [] := List.ne_nil_of_length_pos (by omega)
      rw [Recorder.append_firstRseq_of_ne_nil hnil]
      exact h.numbers i y (by rwa [← List.getElem?_append_left hi (l₂ := [x])])
    · obtain ⟨hi0, rfl⟩ : i = r.slots.length ∧ x = y := by
        obtain ⟨hlt, rfl⟩ := List.getElem?_eq_some_iff.mp ((List.getElem?_append_right hi).symm.trans hy)
        exact ⟨by rw [List.length_singleton] at hlt; omega, (List.getElem_singleton hlt).symm⟩
      rw [hi0, hx, hlast]
  · have hlen : (r.append x).slots.length = r.slots.length + 1 := List.length_append
    rw [hlen, BitVec.ofNat_add, ← BitVec.add_assoc, ← hlast]
    rfl
  · exact Nat.le_trans (Nat.le_of_eq List.length_append) hroom

theorem State.writeRec_sound {s : State} (h : s.rec_.sound) (hroom : s.rec_.slots.length < recSlots) (e : Event) (late : Bool) :
    (s.writeRec e late).rec_.sound :=
  (h.append hroom rfl).of_raises (s.writeRec_raises e late)

theorem State.wrote_sound {s : State} (h : s.rec_.sound) (hroom : s.rec_.slots.length < recSlots) (e : Event) (late counted : Bool) :
    (s.wrote e late counted).rec_.sound := by
  obtain ⟨hnumbers, hnext, hslots, hholding⟩ := State.writeRec_sound h hroom e late
  exact ⟨hnumbers, hnext, hslots, hholding⟩

theorem State.store_sound {s : State} (h : s.rec_.sound) (e : Event) (late counted : Bool) : (s.store e late counted).rec_.sound := by
  cases hfull : s.rec_.full
  · have hwrote := State.wrote_sound h (Nat.lt_of_not_le (of_decide_eq_false hfull)) e late counted
    rw [State.store_of_not_full hfull]
    split
    · next hlast => exact State.writeRec_sound hwrote (by omega) _ _
    · exact hwrote
  · rw [State.store_of_full hfull]
    exact ⟨h.numbers, h.next, h.slots, h.holding⟩

/-! ### The holding queue (R442) -/

/-- One step of the search for the newest event of a lower severity: place i, after the places before it left a. -/
def displaceStep (l : List Event) (sev : Nat) (a : Option Nat) (i : Nat) : Option Nat := match l[i]? with
  | some e => if e.sev < sev then some i else a
  | none => a

theorem displacedBelow_eq_foldl (l : List Event) (sev : Nat) :
    displacedBelow l sev = (List.range l.length).foldl (displaceStep l sev) none := rfl

theorem displaceStep_of_getElem? {l : List Event} {i : Nat} {e : Event} (h : l[i]? = some e) (sev : Nat) (a : Option Nat) :
    displaceStep l sev a i = if e.sev < sev then some i else a := by
  simp only [displaceStep, h]

/-- Places whose events are of no lower severity leave what the search found before them. -/
theorem foldl_displaceStep_of_le {l : List Event} {sev : Nat} (js : List Nat) : ∀ a : Option Nat,
    (∀ j ∈ js, ∀ e, l[j]? = some e → sev ≤ e.sev) → js.foldl (displaceStep l sev) a = a := by
  induction js with
  | nil => exact fun _ _ => rfl
  | cons j js ih =>
    intro a h
    obtain ⟨hj, hjs⟩ := List.forall_mem_cons.mp h
    have hstep : displaceStep l sev a j = a := by
      cases he : l[j]? with
      | none => simp only [displaceStep, he]
      | some e => rw [displaceStep_of_getElem? he, if_neg (Nat.not_lt.mpr (hj e he))]
    rw [List.foldl_cons, hstep]
    exact ih a hjs

/-- No event of the queue is of a lower severity. -/
theorem displacedBelow_eq_none {l : List Event} {sev : Nat} (h : ∀ x ∈ l, sev ≤ x.sev) : displacedBelow l sev = none :=
  foldl_displaceStep_of_le _ none fun _ _ e he => h e (List.mem_of_getElem? he)

/-- The newest event of a lower severity is the last of them. -/
theorem displacedBelow_eq_some {a b : List Event} {v : Event} {sev : Nat} (hv : v.sev < sev) (hb : ∀ x ∈ b, sev ≤ x.sev) :
    displacedBelow (a ++ v :: b) sev = some a.length := by
  have hlen : (a ++ v :: b).length = a.length + 1 + b.length := by rw [List.length_append, List.length_cons]; omega
  have hget : (a ++ v :: b)[a.length]? = some v := by rw [List.getElem?_append_right (Nat.le_refl _), Nat.sub_self]; rfl
  have hafter : ∀ j ∈ (List.range b.length).map (a.length + 1 + ·), ∀ e, (a ++ v :: b)[j]? = some e → sev ≤ e.sev := by
    intro j hj e he
    obtain ⟨k, -, rfl⟩ := List.mem_map.mp hj
    rw [List.getElem?_append_right (by omega), show a.length + 1 + k - a.length = k + 1 by omega, List.getElem?_cons_succ] at he
    exact hb e (List.mem_of_getElem? he)
  rw [displacedBelow_eq_foldl, hlen, List.range_add, List.foldl_append, foldl_displaceStep_of_le _ _ hafter, List.range_succ,
    List.foldl_append, List.foldl_cons, List.foldl_nil, displaceStep_of_getElem? hget, if_pos hv]

section
variable {s : State} {e v : Event} {i : Nat}

theorem State.hold_of_room (h : s.rec_.holding.length < 4096) :
    s.hold e = { s with rec_ := { s.rec_ with holding := s.rec_.holding ++ [e] } } := if_pos h

theorem State.hold_of_displaced (h : 4096 ≤ s.rec_.holding.length) (hsev : 5 ≤ e.sev)
    (hi : displacedBelow s.rec_.holding e.sev = some i) (hv : s.rec_.holding[i]? = some v) :
    s.hold e = { s with rec_ := { s.rec_ with holding := s.rec_.holding.eraseIdx i ++ [e] } }.overflowed v := by
  simp only [State.hold, Nat.not_lt.mpr h, hsev, hi, hv, if_true, if_false]

theorem State.hold_of_none_displaced (h : 4096 ≤ s.rec_.holding.length) (hnone : e.sev < 5 ∨ displacedBelow s.rec_.holding e.sev = none) :
    s.hold e = s.overflowed e := by
  obtain hsev | hsev := Nat.lt_or_ge e.sev 5
  · simp only [State.hold, Nat.not_lt.mpr h, Nat.not_le.mpr hsev, if_false]
  · simp only [State.hold, Nat.not_lt.mpr h, hnone.resolve_left (Nat.not_lt.mpr hsev), if_false, ite_self]

/-- An event that waits goes to the queue's end, takes the place of one in it, or overflows. -/
theorem State.hold_cases (s : State) (e : Event) :
    (s.rec_.holding.length < 4096 ∧ s.hold e = { s with rec_ := { s.rec_ with holding := s.rec_.holding ++ [e] } })
    ∨ (∃ i v, s.rec_.holding[i]? = some v
        ∧ s.hold e = { s with rec_ := { s.rec_ with holding := s.rec_.holding.eraseIdx i ++ [e] } }.overflowed v)
    ∨ s.hold e = s.overflowed e := by
  obtain h | h := Nat.lt_or_ge s.rec_.holding.length 4096
  · exact .inl ⟨h, State.hold_of_room h⟩
  · refine .inr ?_
    obtain hsev | hsev := Nat.lt_or_ge e.sev 5
    · exact .inr (State.hold_of_none_displaced h (.inl hsev))
    · cases hi : displacedBelow s.rec_.holding e.sev with
      | none => exact .inr (State.hold_of_none_displaced h (.inr hi))
      | some i =>
        cases hv : s.rec_.holding[i]? with
        | none => exact .inr (by simp only [State.hold, Nat.not_lt.mpr h, hsev, hi, hv, if_true, if_false])
        | some v => exact .inl ⟨i, v, hv, State.hold_of_displaced h hsev hi hv⟩

theorem State.hold_nDetected : (s.hold e).rec_.nDetected = s.rec_.nDetected := by
  obtain ⟨-, h⟩ | ⟨i, v, -, h⟩ | h := s.hold_cases e <;> rw [h] <;> rfl

theorem State.overflowed_sound (h : s.rec_.sound) : (s.overflowed e).rec_.sound := ⟨h.numbers, h.next, h.slots, h.holding⟩

theorem State.hold_sound (h : s.rec_.sound) : (s.hold e).rec_.sound := by
  obtain ⟨hlen, heq⟩ | ⟨i, v, hv, heq⟩ | heq := s.hold_cases e <;> rw [heq]
  · exact ⟨h.numbers, h.next, h.slots, Nat.le_trans (Nat.le_of_eq List.length_append) hlen⟩
  · have hlen : (s.rec_.holding.eraseIdx i ++ [e]).length = s.rec_.holding.length := by
      obtain ⟨hi, -⟩ := List.getElem?_eq_some_iff.mp hv
      rw [List.length_append, List.length_singleton, List.length_eraseIdx_of_lt hi]
      omega
    exact State.overflowed_sound ⟨h.numbers, h.next, h.slots, Nat.le_trans (Nat.le_of_eq hlen) h.holding⟩
  · exact State.overflowed_sound h

theorem State.overflowed_accounted : (s.overflowed e).rec_.accounted = s.rec_.accounted + bit e.counted := by
  have hbit : bit e.counted = if e.code = Ev.recorderCleared.code then 0 else 1 := by
    by_cases h : e.code = Ev.recorderCleared.code <;> simp [Event.counted, bit, h]
  rw [hbit]
  simp only [State.overflowed, Recorder.accounted, Recorder.queued]
  split <;> omega

theorem countP_counted_concat (l : List Event) (e : Event) : (l ++ [e]).countP Event.counted = l.countP Event.counted + bit e.counted := by
  rw [List.countP_append, List.countP_singleton]; rfl

theorem countP_counted_eraseIdx {l : List Event} : ∀ {i : Nat}, l[i]? = some v →
    (l.eraseIdx i).countP Event.counted + bit v.counted = l.countP Event.counted := by
  induction l with
  | nil => exact fun h => nomatch h
  | cons x l ih =>
    intro i h
    cases i with
    | zero =>
      obtain rfl : x = v := Option.some.inj h
      rw [List.eraseIdx_cons_zero, List.countP_cons]; rfl
    | succ i =>
      have htail := ih (i := i) h
      rw [List.eraseIdx_cons_succ, List.countP_cons, List.countP_cons]
      omega

theorem State.hold_accounted : (s.hold e).rec_.accounted = s.rec_.accounted + bit e.counted := by
  obtain ⟨-, heq⟩ | ⟨i, v, hv, heq⟩ | heq := s.hold_cases e <;> rw [heq]
  · simp only [Recorder.accounted, Recorder.queued_eq_countP, countP_counted_concat]
    omega
  · have herase := countP_counted_eraseIdx hv
    rw [State.overflowed_accounted]
    simp only [Recorder.accounted, Recorder.queued_eq_countP, countP_counted_concat]
    omega
  · exact State.overflowed_accounted

end

/-! ### An event is taken up (R440, R442) -/

theorem State.takeEvent_of_nil {s : State} (h : s.rec_.detected = []) : s.takeEvent = s := by
  simp only [State.takeEvent, h]

/-- The oldest detected event has been taken out and counted. -/
def State.popped (s : State) (rest : List Event) : State :=
  { s with rec_ := { s.rec_ with detected := rest, nDetected := s.rec_.nDetected + 1 } }

theorem State.takeEvent_of_cons {s : State} {e : Event} {rest : List Event} (h : s.rec_.detected = e :: rest) :
    s.takeEvent = (s.popped rest).hold e ∨ s.takeEvent = (s.popped rest).store e false true := by
  simp only [State.takeEvent, h]
  split
  · exact .inl rfl
  · exact .inr rfl

theorem State.takeEvent_sound {s : State} (h : s.rec_.sound) : s.takeEvent.rec_.sound := by
  cases hd : s.rec_.detected with
  | nil => rwa [State.takeEvent_of_nil hd]
  | cons e rest =>
    have hpopped : (s.popped rest).rec_.sound := ⟨h.numbers, h.next, h.slots, h.holding⟩
    obtain heq | heq := State.takeEvent_of_cons hd <;> rw [heq]
    · exact State.hold_sound hpopped
    · exact State.store_sound hpopped ..

theorem State.takeEvent_conserved {s : State} (hown : ∀ e ∈ s.rec_.detected.head?, e.code ≠ Ev.recorderCleared.code)
    (h : s.rec_.conserved = true) : s.takeEvent.rec_.conserved = true := by
  cases hd : s.rec_.detected with
  | nil => rwa [State.takeEvent_of_nil hd]
  | cons e rest =>
    have hcounted : e.counted = true := decide_eq_true (hown e (by rw [hd]; rfl))
    have hpopped : (s.popped rest).rec_.nDetected = (s.popped rest).rec_.accounted + 1 := congrArg (· + 1) ((Recorder.conserved_iff _).mp h)
    rw [Recorder.conserved_iff]
    obtain heq | heq := State.takeEvent_of_cons hd <;> rw [heq]
    · rw [State.hold_nDetected, State.hold_accounted, hcounted, hpopped]; rfl
    · have hstored := (s.popped rest).store_stored e false true
      rw [hstored.nDetected, hstored.accounted, hpopped]; rfl

/-! ### The queue is written (R442) -/

/-- Events go from the queue to the slots, in order and marked late. -/
def State.storeLate (s : State) (l : List Event) : State := l.foldl (fun u e => u.store e true e.counted) s

theorem State.storeLate_cons (s : State) (e : Event) (l : List Event) : s.storeLate (e :: l) = (s.store e true e.counted).storeLate l := rfl

theorem State.storeLate_stored (l : List Event) : ∀ s : State, s.rec_.Stored (l.countP Event.counted) (s.storeLate l).rec_ := by
  induction l with
  | nil => exact fun s => .refl _
  | cons e l ih =>
    intro s
    rw [List.countP_cons, Nat.add_comm]
    exact (s.store_stored ..).trans (ih _)

theorem State.storeLate_sound (l : List Event) : ∀ {s : State}, s.rec_.sound → (s.storeLate l).rec_.sound := by
  induction l with
  | nil => exact id
  | cons e l ih => exact fun h => ih (State.store_sound h ..)

theorem State.storeLate_time (l : List Event) : ∀ s : State, (s.storeLate l).time = s.time := by
  induction l with
  | nil => exact fun s => rfl
  | cons e l ih => exact fun s => (ih _).trans (s.store_same (p := .time) e true e.counted (by decide))

theorem State.storeLate_of_full (l : List Event) : ∀ {s : State}, s.rec_.full = true →
    (s.storeLate l).rec_.slots = s.rec_.slots ∧ (s.storeLate l).rec_.nextRseq = s.rec_.nextRseq := by
  induction l with
  | nil => exact fun _ => ⟨rfl, rfl⟩
  | cons e l ih =>
    intro s h
    rw [State.storeLate_cons, State.store_of_full h]
    exact ih h

/-- What a record says of its event. -/
def Rec.said (r : Rec) : Event × Bool := (r.event, r.late)

theorem State.storeLate_slots_of_room (l : List Event) : ∀ {s : State}, s.rec_.slots.length + l.length + 1 < recSlots →
    ∃ rs : List Rec, (s.storeLate l).rec_.slots = s.rec_.slots ++ rs ∧ rs.map Rec.said = l.map (fun e => (e, true)) := by
  induction l with
  | nil => exact fun _ => ⟨[], (List.append_nil _).symm, rfl⟩
  | cons e l ih =>
    intro s h
    rw [List.length_cons] at h
    have hslots := State.store_slots_of_room (s := s) (by omega) e true e.counted
    obtain ⟨rs, hrs, hsaid⟩ := ih (s := s.store e true e.counted) (by rw [hslots, List.length_append, List.length_singleton]; omega)
    refine ⟨s.recOf e true :: rs, ?_, ?_⟩
    · rw [State.storeLate_cons, hrs, hslots, List.append_assoc]; rfl
    · rw [List.map_cons, List.map_cons, hsaid]; rfl

/-- The holding queue has been taken out, to be written. -/
def State.queueTaken (s : State) : State := { s with rec_ := { s.rec_ with holding := [] } }

/-- The queue has been written, and its overflowed events have no record yet. -/
def State.queueWritten (s : State) : State := s.queueTaken.storeLate s.rec_.holding

/-- The record of the overflowed events. -/
def State.overflowEvent (s : State) : Event :=
  ⟨eventOf s.sysNs, Ev.recorderOverflow.code, Ev.recorderOverflow.sev,
    [(s.rec_.overflow.count : Int), s.rec_.overflow.earliest, s.rec_.overflow.latest, s.rec_.overflow.sev, 0]⟩

/-- The tally of overflows starts again. -/
def State.overflowCleared (s : State) : State := { s with rec_ := { s.rec_ with overflow := Tally.zero } }

theorem State.overflowCleared_sound {s : State} (h : s.rec_.sound) : s.overflowCleared.rec_.sound :=
  ⟨h.numbers, h.next, h.slots, h.holding⟩

theorem State.queueWritten_stored (s : State) :
    s.queueTaken.rec_.Stored (s.rec_.holding.countP Event.counted) s.queueWritten.rec_ :=
  State.storeLate_stored ..

theorem State.queueWritten_time (s : State) : s.queueWritten.time = s.time := State.storeLate_time ..

@[simp] theorem State.queueWritten_holding (s : State) : s.queueWritten.rec_.holding = [] := s.queueWritten_stored.holding

@[simp] theorem State.queueWritten_overflow (s : State) : s.queueWritten.rec_.overflow = s.rec_.overflow := s.queueWritten_stored.overflow

theorem State.queueWritten_overflowEvent (s : State) : s.queueWritten.overflowEvent = s.overflowEvent := by
  unfold State.overflowEvent
  rw [s.queueWritten_overflow, State.sysNs_of_time (s := s) s.queueWritten_time]

theorem State.queueWritten_sound {s : State} (h : s.rec_.sound) : s.queueWritten.rec_.sound :=
  State.storeLate_sound _ ⟨h.numbers, h.next, h.slots, Nat.zero_le _⟩

theorem State.queueWritten_conserved {s : State} (h : s.rec_.conserved = true) : s.queueWritten.rec_.conserved = true := by
  rw [Recorder.conserved_iff] at h ⊢
  rw [s.queueWritten_stored.nDetected, s.queueWritten_stored.accounted]
  refine h.trans ?_
  simp only [State.queueTaken, Recorder.accounted, Recorder.queued_eq_countP, List.countP_nil]
  omega

theorem State.drainHolding_of_no_overflow {s : State} (h : s.rec_.overflow.count = 0) : s.drainHolding = s.queueWritten :=
  if_pos ((congrArg Tally.count s.queueWritten_overflow).trans h)

theorem State.drainHolding_of_overflow {s : State} (h : s.rec_.overflow.count ≠ 0) :
    s.drainHolding = s.queueWritten.overflowCleared.store s.overflowEvent false false := by
  rw [← s.queueWritten_overflowEvent]
  exact if_neg (by rwa [← s.queueWritten_overflow] at h)

theorem State.drainHolding_holding (s : State) : s.drainHolding.rec_.holding = [] := by
  by_cases h : s.rec_.overflow.count = 0
  · rw [State.drainHolding_of_no_overflow h, s.queueWritten_holding]
  · rw [State.drainHolding_of_overflow h, (State.store_stored ..).holding]; exact s.queueWritten_holding

theorem State.drainHolding_overflow_count (s : State) : s.drainHolding.rec_.overflow.count = 0 := by
  by_cases h : s.rec_.overflow.count = 0
  · rw [State.drainHolding_of_no_overflow h, s.queueWritten_overflow, h]
  · rw [State.drainHolding_of_overflow h, (State.store_stored ..).overflow]; rfl

theorem State.drainHolding_sound {s : State} (h : s.rec_.sound) : s.drainHolding.rec_.sound := by
  have hwritten := State.queueWritten_sound h
  by_cases ho : s.rec_.overflow.count = 0
  · rwa [State.drainHolding_of_no_overflow ho]
  · rw [State.drainHolding_of_overflow ho]
    exact State.store_sound (State.overflowCleared_sound hwritten) ..

theorem State.drainHolding_conserved {s : State} (h : s.rec_.conserved = true) : s.drainHolding.rec_.conserved = true := by
  have hwritten := State.queueWritten_conserved h
  by_cases ho : s.rec_.overflow.count = 0
  · rwa [State.drainHolding_of_no_overflow ho]
  · have hstored := s.queueWritten.overflowCleared.store_stored s.overflowEvent false false
    rw [State.drainHolding_of_overflow ho, Recorder.conserved_iff, hstored.nDetected, hstored.accounted]
    exact (Recorder.conserved_iff _).mp hwritten

theorem State.drainHolding_slots_of_full {s : State} (h : s.rec_.full = true) :
    s.drainHolding.rec_.slots = s.rec_.slots ∧ s.drainHolding.rec_.nextRseq = s.rec_.nextRseq := by
  have hwritten : s.queueWritten.rec_.slots = s.rec_.slots ∧ s.queueWritten.rec_.nextRseq = s.rec_.nextRseq :=
    State.storeLate_of_full _ (s := s.queueTaken) h
  by_cases ho : s.rec_.overflow.count = 0
  · rwa [State.drainHolding_of_no_overflow ho]
  · have hfull : s.queueWritten.overflowCleared.rec_.full = true := by
      rw [Recorder.full] at h ⊢
      rwa [← hwritten.1] at h
    rw [State.drainHolding_of_overflow ho, State.store_of_full hfull]
    exact hwritten

/-- With room in the slots, the queue's records follow those that are there, and the overflow record comes last. -/
theorem State.drainHolding_slots_of_room {s : State} (h : s.rec_.slots.length + s.rec_.holding.length + 2 < recSlots) :
    ∃ rs : List Rec, s.drainHolding.rec_.slots = s.rec_.slots ++ rs ∧ rs.map Rec.said = s.rec_.holding.map (fun e => (e, true))
      ++ if s.rec_.overflow.count = 0 then [] else [(s.overflowEvent, false)] := by
  obtain ⟨rs, hrs, hsaid⟩ := State.storeLate_slots_of_room s.rec_.holding (s := s.queueTaken)
    (Nat.lt_of_succ_lt h)
  have hwritten : s.queueWritten.rec_.slots = s.rec_.slots ++ rs := hrs
  by_cases ho : s.rec_.overflow.count = 0
  · rw [State.drainHolding_of_no_overflow ho, if_pos ho, List.append_nil]
    exact ⟨rs, hwritten, hsaid⟩
  · have hlen : rs.length = s.rec_.holding.length := by simpa using congrArg List.length hsaid
    have hroom : s.queueWritten.overflowCleared.rec_.slots.length + 2 < recSlots := by
      change s.queueWritten.rec_.slots.length + 2 < recSlots
      rw [hwritten, List.length_append, hlen]; exact h
    refine ⟨rs ++ [s.queueWritten.overflowCleared.recOf s.overflowEvent false], ?_, ?_⟩
    · rw [State.drainHolding_of_overflow ho, State.store_slots_of_room hroom, ← List.append_assoc, ← hwritten]; rfl
    · rw [List.map_append, hsaid, if_neg ho]; rfl

/-! ### A clear (R449) -/

theorem State.touchFreeze_sound {s : State} (h : s.rec_.sound) (v : Bool) : (s.touchFreeze v).rec_.sound := by
  cases v <;> exact ⟨h.numbers, h.next, h.slots, h.holding⟩

theorem State.touchFreeze_conserved (s : State) (v : Bool) : (s.touchFreeze v).rec_.conserved = s.rec_.conserved := by
  cases v <;> rfl

/-- The recorder that a clear leaves, with its entry in the clear register. -/
def Recorder.emptied (r : Recorder) (c : ClearEntry) : Recorder :=
  { r with clears := r.clears ++ [c], suppressed := Tally.zero, slots := [], firstRseq := r.nextRseq, hdrNext := 0 }

theorem ite_eq_branch (c : Prop) [Decidable c] (a b : State) : (if c then a else b) = a ∨ (if c then a else b) = b := by
  split
  · exact .inl rfl
  · exact .inr rfl

/-- An accepted clear empties the slots; then its own event, which R444 does not count, waits or is stored. -/
theorem recorderClear_accepted {s t : State} {v : Bool} {d : Desc} {n : Nat} {b : Bool} {l : List Byte}
    (h : recorderClear v s d = .accept n b l t) : ∃ (u w : State) (c : ClearEntry) (e : Event), t = w.touchFreeze v
      ∧ u.rec_ = s.rec_.emptied c ∧ e.counted = false ∧ (w = u.hold e ∨ w = u.store e false false) := by
  unfold recorderClear at h
  dsimp only at h
  split at h
  · contradiction
  split at h
  · contradiction
  split at h
  · contradiction
  obtain ⟨-, -, -, rfl⟩ := Verdict.accept.inj h
  exact ⟨_, _, _, _, rfl, rfl, rfl, ite_eq_branch ..⟩

theorem Recorder.sound.emptied {r : Recorder} (h : r.sound) (c : ClearEntry) : (r.emptied c).sound where
  numbers _ _ hx := nomatch hx
  next hne := absurd rfl hne
  slots := Nat.zero_le _
  holding := h.holding

theorem recorderClear_sound {s t : State} {v : Bool} {d : Desc} {n : Nat} {b : Bool} {l : List Byte} (hs : s.rec_.sound)
    (h : recorderClear v s d = .accept n b l t) : t.rec_.sound := by
  obtain ⟨u, w, c, e, rfl, hu, -, hw⟩ := recorderClear_accepted h
  have hemptied : u.rec_.sound := hu ▸ hs.emptied c
  refine State.touchFreeze_sound ?_ v
  obtain rfl | rfl := hw
  · exact State.hold_sound hemptied
  · exact State.store_sound hemptied ..

theorem recorderClear_conserved {s t : State} {v : Bool} {d : Desc} {n : Nat} {b : Bool} {l : List Byte} (hs : s.rec_.conserved = true)
    (h : recorderClear v s d = .accept n b l t) : t.rec_.conserved = true := by
  obtain ⟨u, w, c, e, rfl, hu, he, hw⟩ := recorderClear_accepted h
  have hemptied : u.rec_.nDetected = u.rec_.accounted := by rw [hu]; exact (Recorder.conserved_iff _).mp hs
  rw [State.touchFreeze_conserved, Recorder.conserved_iff]
  obtain rfl | rfl := hw
  · rw [State.hold_nDetected, State.hold_accounted, he]; exact hemptied
  · have hstored := u.store_stored e false false
    rw [hstored.nDetected, hstored.accounted]; exact hemptied

/-! ### Tallies and bytes -/

theorem satAdd_eq_min (a b top : Nat) : satAdd a b top = min (a + b) top := by
  unfold satAdd; split <;> omega

section
variable {x : Tally} {e : Event}

theorem Tally.add_of_zero (h : x.count = 0) : x.add e = ⟨1, e.time, e.time, e.sev⟩ := if_pos h

theorem Tally.add_of_pos (h : 0 < x.count) :
    x.add e = ⟨satAdd x.count 1 0xFFFFFFFF, min x.earliest e.time, max x.latest e.time, max x.sev e.sev⟩ := if_neg (Nat.ne_of_gt h)

theorem Tally.addFirst_of_pos (h : 0 < x.count) :
    x.addFirst e = ⟨satAdd x.count 1 0xFFFFFFFF, x.earliest, max x.latest e.time, max x.sev e.sev⟩ := if_neg (Nat.ne_of_gt h)

/-- The count stays at its largest value. R442 names none; the count of the overflow record has four bytes. -/
theorem Tally.add_count (x : Tally) (e : Event) : (x.add e).count = min (x.count + 1) 0xFFFFFFFF := by
  obtain h | h := x.count.eq_zero_or_pos
  · rw [Tally.add_of_zero h, h]; rfl
  · rw [Tally.add_of_pos h]; exact satAdd_eq_min ..

end

/-- Byte 17 of a record holds SEV with its bits 3 and 4 (Table 17.1). -/
theorem Rec.byteAt_bytes_sev {r : Rec} (h : r.event.sev < 8) : byteAt r.bytes 17 = r.event.sev + 8 * bit r.solo + 16 * bit r.late := by
  have hsolo : bit r.solo ≤ 1 := by cases r.solo <;> decide
  have hlate : bit r.late ≤ 1 := by cases r.late <;> decide
  have hbyte : byteAt r.bytes 17 =
      (BitVec.ofNat 8 (((r.event.sev + 8 * bit r.solo + 16 * bit r.late : Nat) : Int) % 2 ^ (8 * 1)).toNat).toNat := rfl
  rw [hbyte, BitVec.toNat_ofNat]
  omega

/-! ### The commands -/

theorem execRecorderResume_running {s : State} (h : s.recStopped = false) : exec .recorderResume s = .next s.drainHolding :=
  congrArg Host.Outcome.next (if_neg (Bool.eq_false_iff.mp h))

theorem execRecorderCountCheck_conserved {s : State} (h : s.rec_.conserved = true) (n : Nat) :
    exec (.recorderCountCheck n) s = .next (s.advance (n * 1000000000)) :=
  congrArg Host.Outcome.next (if_pos (by rwa [State.advance_rec_]))

/-- The state with COUNT_ERR set. -/
def State.countErrSet (s : State) : State := { s with rec_ := { s.rec_ with countErr := true } }

/-- The terms of R444's equation. -/
def Recorder.terms (r : Recorder) : List Int := [r.nDetected, r.nWritten, r.queued, r.nOverflowed, r.nSuppressed, r.nLost]

theorem State.raise_saw (s : State) (e : EvDef) (a : List Int) : (s.raise e a).Saw e a := by
  unfold State.Saw
  rw [State.raise_detected, State.raise_sysNs]
  exact List.mem_append_right _ List.mem_cons_self

theorem execRecorderCountCheck_differs {s : State} (h : s.rec_.conserved = false) (n : Nat) :
    exec (.recorderCountCheck n) s = .next ((s.advance (n * 1000000000)).countErrSet.raise Ev.recorderCount s.rec_.terms) := by
  rw [← s.advance_rec_ (n * 1000000000)] at h ⊢
  exact congrArg Host.Outcome.next (if_neg (Bool.eq_false_iff.mp h))

/-! ### The statement -/

/-- Settles O50: soundness and conservation are kept by what a store and a hold do; the queue and its overflow record are written by
induction on the queue. -/
theorem recorderConserves : Obligations.RecorderConserves := by
  refine ⟨?_, ?_, ?_, ?_, ?_, ?_, ?_, ?_, ?_, ?_, ?_, ?_, ?_, ?_, ?_, ?_⟩
  · exact fun s h => ⟨State.takeEvent_sound h, State.drainHolding_sound h⟩
  · exact fun s t v d n b l hs h => recorderClear_sound hs h
  · exact fun s hown h => State.takeEvent_conserved hown h
  · exact fun s h => State.drainHolding_conserved h
  · exact fun s t v d n b l hs h => recorderClear_conserved hs h
  · exact fun s e h => State.hold_of_room h
  · -- a full queue with an event of lower severity
    intro s e v a b hq hfull hsev hv hb
    have hi : displacedBelow s.rec_.holding e.sev = some a.length := by rw [hq]; exact displacedBelow_eq_some hv hb
    have hget : s.rec_.holding[a.length]? = some v := by rw [hq, List.getElem?_append_right (Nat.le_refl _), Nat.sub_self]; rfl
    rw [State.hold_of_displaced hfull hsev hi hget]
    refine ⟨?_, rfl, rfl⟩
    simp [State.overflowed, hq, List.eraseIdx_append_of_length_le]
  · -- a full queue with none
    intro s e hfull hnone
    rw [State.hold_of_none_displaced hfull (hnone.imp_right displacedBelow_eq_none)]
    exact ⟨rfl, rfl, rfl⟩
  · exact fun x e => ⟨x.add_count e, Tally.add_of_zero⟩
  · intro x e h
    rw [Tally.add_of_pos h, Tally.addFirst_of_pos h]
    exact ⟨rfl, rfl, rfl, rfl, rfl⟩
  · -- writing resumes with room in the slots
    intro s hrun hroom
    obtain ⟨rs, hslots, hsaid⟩ := State.drainHolding_slots_of_room hroom
    refine ⟨_, execRecorderResume_running hrun, s.drainHolding_holding, s.drainHolding_overflow_count, ?_, ?_⟩
    · rw [hslots]; exact List.prefix_append ..
    · rw [hslots, List.drop_left]; exact hsaid
  · -- writing resumes with the recorder full
    intro s hrun hfull
    exact ⟨_, execRecorderResume_running hrun, s.drainHolding_holding, s.drainHolding_overflow_count, State.drainHolding_slots_of_full hfull⟩
  · exact fun r h => Rec.byteAt_bytes_sev h
  · exact fun s n h => ⟨_, execRecorderCountCheck_conserved h n, rfl⟩
  · intro s n h
    exact ⟨_, execRecorderCountCheck_differs h n, rfl, State.raise_saw ..⟩
  · exact fun r => decide_eq_true_iff

end Sys2Proof.Machine
end

section
/-! PROOFS. GO and DISCARD (19 R481, 14 R372): what superseding a commit leaves, the snapshot a GO takes, the writes of CFG_COMMIT by their
two low bits, the function's reset, the registers of a snapshot, and the statement of the family. -/
namespace Sys2Proof.Machine

/-! ### A commit ends, and is superseded -/

section
variable (s : State) (p : Snapshot) (st : Nat)

theorem State.commitEnds_setup : (s.commitEnds p st).setup = { s.setup with pending := none, cState := st, cTag := p.tag } := by
  unfold State.commitEnds
  split
  · rw [State.emit_setup, State.onSetup_setup]
  · rw [State.onSetup_setup]

theorem State.commitEnds_now : (s.commitEnds p st).now = s.now := by
  unfold State.commitEnds
  split
  · rw [State.emit_now, State.onSetup_now]
  · rw [State.onSetup_now]

end

section
variable {s : State} {p : Snapshot}

theorem State.commitEnds_out_of_irq (h : p.irq = true) (st : Nat) : (s.commitEnds p st).out = .irq p.vector :: s.out := by
  rw [State.commitEnds, if_pos h, State.emit_out, State.onSetup_out]

theorem State.commitEnds_out_of_no_irq (h : p.irq = false) (st : Nat) : (s.commitEnds p st).out = s.out := by
  rw [State.commitEnds, if_neg (Bool.eq_false_iff.mp h), State.onSetup_out]

theorem State.supersede_of_some (h : s.setup.pending = some p) : s.supersede = s.commitEnds p 6 := by
  simp only [State.supersede, h]

theorem State.supersede_of_none (h : s.setup.pending = none) : s.supersede = s := by
  simp only [State.supersede, h]

end

section
variable (s : State)

/-- Of the set-up, superseding ends what is pending and may change the state and tag that CFG_STAT reports. -/
theorem State.supersede_setup : ∃ st tag, s.supersede.setup = { s.setup with pending := none, cState := st, cTag := tag } := by
  cases h : s.setup.pending with
  | none => exact ⟨s.setup.cState, s.setup.cTag, by rw [State.supersede_of_none h, ← h]⟩
  | some p => exact ⟨6, p.tag, by rw [State.supersede_of_some h, State.commitEnds_setup]⟩

@[simp] theorem State.supersede_pending : s.supersede.setup.pending = none := by
  obtain ⟨_, _, h⟩ := s.supersede_setup
  rw [h]

@[simp] theorem State.supersede_staged : s.supersede.setup.staged = s.setup.staged := by
  obtain ⟨_, _, h⟩ := s.supersede_setup
  rw [h]

@[simp] theorem State.supersede_active : s.supersede.setup.active = s.setup.active := by
  obtain ⟨_, _, h⟩ := s.supersede_setup
  rw [h]

@[simp] theorem State.supersede_blocks : s.supersede.setup.blocks = s.setup.blocks := by
  obtain ⟨_, _, h⟩ := s.supersede_setup
  rw [h]

@[simp] theorem State.supersede_now : s.supersede.now = s.now := by
  cases h : s.setup.pending with
  | none => rw [State.supersede_of_none h]
  | some p => rw [State.supersede_of_some h, State.commitEnds_now]

@[simp] theorem State.supersede_supersede : s.supersede.supersede = s.supersede :=
  State.supersede_of_none s.supersede_pending

/-! ### A GO takes its snapshot -/

@[simp] theorem State.pairSend_setup (f : PairFrame) : (s.pairSend f).setup = s.setup := by
  unfold State.pairSend
  split <;> rfl

/-- The snapshot that a GO takes of a state: its registers that differ and its staged blocks. -/
def State.goSnapshot (irq : Bool) (vector : Nat) (tag : BitVec 16) : Snapshot :=
  ⟨tag, irq, vector, regDiff s.setup.staged s.setup.active, s.setup.blocks, s.now, none⟩

@[simp] theorem State.supersede_goSnapshot (irq : Bool) (vector : Nat) (tag : BitVec 16) :
    s.supersede.goSnapshot irq vector tag = s.goSnapshot irq vector tag := by
  simp only [State.goSnapshot, State.supersede_staged, State.supersede_active, State.supersede_blocks, State.supersede_now]

/-- The set-up after a GO, whether or not the partner is told. -/
theorem State.go_setup (irq : Bool) (vector : Nat) (tag : BitVec 16) : (s.go irq vector tag).setup = { s.supersede.setup with
    pending := some (s.goSnapshot irq vector tag), cState := 1, cTag := tag, cStatus := 0, cOffset := 0, cDetail := 0 } := by
  rw [← State.supersede_goSnapshot]
  unfold State.go
  dsimp only
  split
  · rw [State.pairSend_setup]; rfl
  · rfl

theorem State.go_supersede (irq : Bool) (vector : Nat) (tag : BitVec 16) : s.supersede.go irq vector tag = s.go irq vector tag := by
  unfold State.go
  rw [State.supersede_supersede]

end

/-! ### The writes of CFG_COMMIT -/

theorem toNat_and_three (w : Word) : (w &&& 3).toNat = w.toNat % 4 :=
  (BitVec.toNat_and ..).trans (Nat.and_two_pow_sub_one_eq_mod w.toNat 2)

/-- GO is bit 0 of the word. -/
theorem bitsOf_go (w : Word) : bitsOf w 0 0 = (w &&& 3).toNat % 2 := by
  rw [toNat_and_three]; unfold bitsOf; omega

/-- DISCARD is bit 1 of the word. -/
theorem bitsOf_discard (w : Word) : bitsOf w 1 1 = (w &&& 3).toNat / 2 := by
  rw [toNat_and_three]; unfold bitsOf; omega

section
variable (s : State) {w : Word}

theorem State.commitWord_go (h : w &&& 3 = 1) :
    s.commitWord w = s.go (decide (bitsOf w 8 8 = 1)) (bitsOf w 14 9) (BitVec.ofNat 16 (bitsOf w 31 16)) := by
  have hgo : bitsOf w 0 0 = 1 := by rw [bitsOf_go, h]; rfl
  have hdiscard : bitsOf w 1 1 = 0 := by rw [bitsOf_discard, h]; rfl
  simp [State.commitWord, hgo, hdiscard]

theorem State.commitWord_discard (h : w &&& 3 = 2) : s.commitWord w = s.discardStaged := by
  have hgo : bitsOf w 0 0 = 0 := by rw [bitsOf_go, h]; rfl
  have hdiscard : bitsOf w 1 1 = 1 := by rw [bitsOf_discard, h]; rfl
  simp [State.commitWord, hgo, hdiscard]

theorem State.commitWord_both (h : w &&& 3 = 3) : s.commitWord w = s.discardCounted := by
  have hgo : bitsOf w 0 0 = 1 := by rw [bitsOf_go, h]; rfl
  have hdiscard : bitsOf w 1 1 = 1 := by rw [bitsOf_discard, h]; rfl
  simp [State.commitWord, hgo, hdiscard]

/-- A 32-bit write at the offset of CFG_COMMIT is a write of that register. -/
theorem execStagedRegisterWrite_cfgCommit (w : Word) :
    exec (.stagedRegisterWrite (BitVec.ofNat 16 Reg.cfgCommit) w 32) s = .next (s.commitWord w) := rfl

end

/-! ### The function's reset -/

theorem State.abandonQueues_setup (s : State) : s.abandonQueues.setup = s.setup :=
  haveI : May (Part.among [.host, .rec_]) .host := Part.may_among (by decide)
  haveI : May (Part.among [.host, .rec_]) .rec_ := Part.may_among (by decide)
  Holds.same_of_not_mem (R := false) (l := [.host, .rec_]) (State.abandonQueues_holds (Holds.refl nofun)) (q := .setup) (by decide)

theorem State.abandonQueues_discardStaged_setup (s : State) :
    s.abandonQueues.discardStaged.setup = { s.setup with staged := s.setup.active, blocks := [] } := by
  rw [State.discardStaged, State.abandonQueues_setup]

section
variable {s : State}

theorem functionLevelReset_setup_of_none (h : s.setup.pending = none) :
    Does .functionLevelReset s fun t => t.setup = { s.setup with staged := s.setup.active, blocks := [] } := by
  refine ⟨s.abandonQueues.discardStaged, ?_, s.abandonQueues_discardStaged_setup⟩
  show execFunctionLevelReset s = _
  simp only [execFunctionLevelReset, State.abandonQueues_discardStaged_setup, h]

theorem functionLevelReset_setup_of_some {p : Snapshot} (h : s.setup.pending = some p) :
    Does .functionLevelReset s fun t =>
      t.setup = { s.setup with staged := s.setup.active, blocks := [], pending := none, cState := 6, cTag := p.tag } := by
  refine ⟨s.abandonQueues.discardStaged.onSetup (fun x => { x with pending := none, cState := 6, cTag := p.tag }), ?_, ?_⟩
  · show execFunctionLevelReset s = _
    simp only [execFunctionLevelReset, State.onSetup, State.abandonQueues_discardStaged_setup, h]
  · simp only [State.onSetup_setup, State.abandonQueues_discardStaged_setup]

end

/-! ### The registers of a snapshot -/

theorem self_mem_insertReg (e : Nat × Word) (l : List (Nat × Word)) : e ∈ insertReg e l := by
  induction l with
  | nil => exact List.mem_singleton_self e
  | cons y l ih =>
    unfold insertReg
    split
    · exact List.mem_cons_self
    · split
      · exact List.mem_cons_self
      · exact List.mem_cons_of_mem _ ih

theorem mem_insertReg_of_offset_ne {e x : Nat × Word} {l : List (Nat × Word)} (hx : x ∈ l) (hne : x.1 ≠ e.1) : x ∈ insertReg e l := by
  induction l with
  | nil => cases hx
  | cons y l ih =>
    unfold insertReg
    split
    · exact List.mem_cons_of_mem _ hx
    · split
      · next heq =>
        obtain rfl | hx := List.mem_cons.mp hx
        · exact absurd heq.symm hne
        · exact List.mem_cons_of_mem _ hx
      · obtain rfl | hx := List.mem_cons.mp hx
        · exact List.mem_cons_self
        · exact List.mem_cons_of_mem _ (ih hx)

/-- An entry is replaced by one of its own offset only, which has the same value. -/
theorem mem_foldl_insertReg_of_mem {g : Nat → Word} {offs : List Nat} {l : List (Nat × Word)} {o : Nat}
    (h : (o, g o) ∈ l ∨ o ∈ offs) : (o, g o) ∈ offs.foldl (fun l o => insertReg (o, g o) l) l := by
  induction offs generalizing l with
  | nil => exact h.resolve_right List.not_mem_nil
  | cons a offs ih =>
    refine ih ?_
    by_cases ha : o = a
    · subst ha
      exact .inl (self_mem_insertReg ..)
    · exact h.imp (fun hl => mem_insertReg_of_offset_ne hl ha) (fun ho => (List.mem_cons.mp ho).resolve_left ha)

theorem RegBank.mem_offsets_of_get_ne {b : RegBank} {off : Nat} (h : b.get off ≠ regReset off) : off ∈ b.map (fun e => e.1) :=
  List.mem_map.mpr ⟨_, RegBank.get_mem_or.resolve_right h, rfl⟩

/-- The offsets that a comparison of two banks looks at hold every one at which they differ. -/
theorem RegBank.mem_offsets_of_get_ne_get {b c : RegBank} {off : Nat} (h : b.get off ≠ c.get off) :
    off ∈ b.map (fun e => e.1) ++ (c.map (fun e => e.1)).filter (fun o => !b.any (fun e => decide (e.1 = o))) := by
  by_cases hb : off ∈ b.map (fun e => e.1)
  · exact List.mem_append_left _ hb
  · have hreset : b.get off = regReset off := Decidable.byContradiction fun hne => hb (RegBank.mem_offsets_of_get_ne hne)
    have hc : off ∈ c.map (fun e => e.1) := RegBank.mem_offsets_of_get_ne fun heq => h (hreset.trans heq.symm)
    refine List.mem_append_right _ (List.mem_filter.mpr ⟨hc, ?_⟩)
    rw [Bool.not_eq_true', List.any_eq_false]
    exact fun e he hoff => hb (List.mem_map.mpr ⟨e, he, of_decide_eq_true hoff⟩)

theorem mem_regDiff_iff (b c : RegBank) (off : Nat) (w : Word) : (off, w) ∈ regDiff b c ↔ w = b.get off ∧ b.get off ≠ c.get off := by
  unfold regDiff
  constructor
  · intro h
    obtain hnil | ⟨o, ho, heq⟩ := mem_foldl_insertReg (f := fun o => (o, b.get o)) h
    · cases hnil
    · obtain ⟨rfl, rfl⟩ := Prod.mk.inj heq
      exact ⟨rfl, of_decide_eq_true (List.mem_filter.mp ho).2⟩
  · rintro ⟨rfl, hne⟩
    exact mem_foldl_insertReg_of_mem (.inr (List.mem_filter.mpr ⟨RegBank.mem_offsets_of_get_ne_get hne, decide_eq_true hne⟩))

/-! ### The statement -/

/-- Settles O54: a GO's set-up is read off `State.go_setup`, the words by their two low bits, the reset by whether a commit waits, and a
snapshot's registers by `mem_regDiff_iff`. -/
theorem commitWrites : Obligations.CommitWrites := by
  refine ⟨?_, ?_, ?_, ?_, ?_, ?_, ?_, ?_, ?_, ?_⟩
  · intro s irq v tag
    refine ⟨_, rfl, s.goSnapshot irq v.val tag, ?_⟩
    simp [State.go_setup, State.goSnapshot]
  · intro s p h
    rw [State.supersede_of_some h, State.commitEnds_setup]
    exact ⟨rfl, rfl, rfl, fun hirq => State.commitEnds_out_of_irq hirq 6, fun hirq => State.commitEnds_out_of_no_irq hirq 6⟩
  · exact fun s irq v tag => (s.go_supersede irq v tag).symm
  · exact fun s irq v tag => ⟨_, rfl, rfl⟩
  · exact fun s => ⟨_, rfl, rfl⟩
  · exact fun s w h => ⟨_, execStagedRegisterWrite_cfgCommit s w, s.commitWord_go h⟩
  · exact fun s w h => ⟨_, execStagedRegisterWrite_cfgCommit s w, s.commitWord_discard h⟩
  · exact fun s w h => ⟨_, execStagedRegisterWrite_cfgCommit s w, s.commitWord_both h⟩
  · intro s
    cases h : s.setup.pending with
    | none =>
      obtain ⟨t, ht, hsetup⟩ := functionLevelReset_setup_of_none h
      exact ⟨t, ht, by simp [hsetup, h]⟩
    | some p =>
      obtain ⟨t, ht, hsetup⟩ := functionLevelReset_setup_of_some h
      exact ⟨t, ht, by simp [hsetup]⟩
  · exact mem_regDiff_iff

end Sys2Proof.Machine
end

section
/-! PROOFS. Every command (spec/95): it answers a next state, leaves the queue, the unit's factory data and the parts it has no business with,
and keeps sound register banks sound (19 R478); the step over the queue (03 R62). -/
namespace Sys2Proof.Machine

/-! ### Sets of parts, by their lists -/

theorem Part.may_among_head (q : Part) (l : List Part) : May (Part.among (q :: l)) q := Part.may_among List.mem_cons_self

theorem Part.may_among_tail (p q : Part) (l : List Part) [h : May (Part.among l) q] : May (Part.among (p :: l)) q :=
  Part.may_among (List.mem_cons_of_mem _ (of_decide_eq_true h.yes))

theorem Part.mem_all (q : Part) : q ∈ Part.all := by cases q <;> decide

theorem Part.may_among_all (q : Part) : May (Part.among Part.all) q := Part.may_among (Part.mem_all q)

/-! ### One command -/

/-- Every command answers a next state, which keeps what `touches` does not name. -/
theorem exec_holds {R : Bool} {B s : State} (c : Sys2Proof.Instr) (h : Holds R (Part.among (touches c)) B s) :
    HoldsR R (Part.among (touches c)) B (exec c s) := by
  have head := Part.may_among_head
  have tail := Part.may_among_tail
  have all := Part.may_among_all
  cases c
  all_goals dsimp only [touches] at h ⊢
  case aciAddressFrame => exact execAciAddressFrame_holds h
  case acoSend => exact execAcoSend_holds h
  case aciLost => exact execAciLost_holds h
  case address => exact execAddress_holds h
  case canaryRound => exact execCanaryRound_holds h
  case replanMonthly => exact execReplanMonthly_holds h
  case slackHistoryWrite => exact execSlackHistoryWrite_holds h
  case deadlineMiss => exact execDeadlineMiss_holds h
  case comparedPairDisagree => exact execComparedPairDisagree_holds h
  case residueMismatch => exact execResidueMismatch_holds h
  case residueRetryReport => exact execResidueRetryReport_holds h
  case scrubPass => exact execScrubPass_holds h
  case eccUncorrectable => exact execEccUncorrectable_holds h
  case eccCorrectedReport => exact execEccCorrectedReport_holds h
  case engineReloadDone => exact execEngineReloadDone_holds h
  case profileCommitExpired => exact execProfileCommitExpired_holds h
  case oscFail => exact execOscFail_holds h
  case oscBackupSwitch => exact execOscBackupSwitch_holds h
  case ptpSync => exact execPtpSync_holds h
  case ptpFollowUp => exact execPtpFollowUp_holds h
  case ptpAnnounce => exact execPtpAnnounce_holds h
  case ptpDelayReqSend => exact execPtpDelayReqSend_holds h
  case ptpDelayResp => exact execPtpDelayResp_holds h
  case ptpPdelayReq => exact execPtpPdelayReq_holds h
  case announceTimeout => exact execAnnounceTimeout_holds h
  case ptpPortSwitch => exact execPtpPortSwitch_holds h
  case ptpPortSwitchBack => exact execPtpPortSwitchBack_holds h
  case startWaitExpiry => exact execStartWaitExpiry_holds h
  case timeStep => exact execTimeStep_holds h
  case timeResume => exact execTimeResume_holds h
  case timeSet => exact execTimeSet_holds h
  case timeCmdExpired => exact execTimeCmdExpired_holds h
  case timeStatus => exact execTimeStatus_holds h
  case pairTimeMessage => exact execPairTimeMessage_holds h
  case pairTimeSend => exact execPairTimeSend_holds h
  case evtNowLoRead => exact execEvtNowLoRead_holds h
  case ledgerLseqLoRead => exact execLedgerLseqLoRead_holds h
  case cfgCtimeLoRead => exact execCfgCtimeLoRead_holds h
  case ringStatRead => exact execRingStatRead_holds h
  case ethStatRead => exact execEthStatRead_holds h
  case canStatRead => exact execCanStatRead_holds h
  case sbStatRead => exact execSbStatRead_holds h
  case cfgPendRead => exact execCfgPendRead_holds h
  case gridInstant => exact execGridInstant_holds h
  case returnTimeout => exact execReturnTimeout_holds h
  case ringFrameReceived => exact execRingFrameReceived_holds h
  case collectionDeadline => exact execCollectionDeadline_holds h
  case catchupLaunch => exact execCatchupLaunch_holds h
  case lossOfSignal => exact execLossOfSignal_holds h
  case lossOfSignalCleared => exact execLossOfSignalCleared_holds h
  case ringPresenceTimeout => exact execRingPresenceTimeout_holds h
  case ringRestore => exact execRingRestore_holds h
  case ringStart => exact execRingStart_holds h
  case discoverReceived => exact execDiscoverReceived_holds h
  case ringStartDone => exact execRingStartDone_holds h
  case stationFwLoadDone => exact execStationFwLoadDone_holds h
  case stationFwSlotChange => exact execStationFwSlotChange_holds h
  case delayMeasure => exact execDelayMeasure_holds h
  case delayReceived => exact execDelayReceived_holds h
  case ringCmdCountCheck => exact execRingCmdCountCheck_holds h
  case stationLost => exact execStationLost_holds h
  case stationSecLost => exact execStationSecLost_holds h
  case stationReturned => exact execStationReturned_holds h
  case stationSecReturned => exact execStationSecReturned_holds h
  case identificationMessage => exact execIdentificationMessage_holds h
  case lockinResultMessage => exact execLockinResultMessage_holds h
  case openWireResultMessage => exact execOpenWireResultMessage_holds h
  case balancingCountersMessage => exact execBalancingCountersMessage_holds h
  case calibrationRecordMessage => exact execCalibrationRecordMessage_holds h
  case stationEventMessage => exact execStationEventMessage_holds h
  case calStepIssue => exact execCalStepIssue_holds h
  case currentCompare => exact execCurrentCompare_holds h
  case currentJudgementEnd => exact execCurrentJudgementEnd_holds h
  case sumMismatch => exact execSumMismatch_holds h
  case measCompare => exact execMeasCompare_holds h
  case unusedChannel => exact execUnusedChannel_holds h
  case owRound => exact execOwRound_holds h
  case owOddStart => exact execOwOddStart_holds h
  case owRetest => exact execOwRetest_holds h
  case owSuspicionTest => exact execOwSuspicionTest_holds h
  case balDecision => exact execBalDecision_holds h
  case balChargeUpdate => exact execBalChargeUpdate_holds h
  case balChannelTimeout => exact execBalChannelTimeout_holds h
  case estimateRelease => exact execEstimateRelease_holds h
  case estimatorCheckpoint => exact execEstimatorCheckpoint_holds h
  case estBlockSend => exact execEstBlockSend_holds h
  case impRunStart => exact execImpRunStart_holds h
  case impRun => exact execImpRun_holds h
  case impSegmentStart => exact execImpSegmentStart_holds h
  case impHeadroomRetest => exact execImpHeadroomRetest_holds h
  case impWindowEnd => exact execImpWindowEnd_holds h
  case spectrumSend => exact execSpectrumSend_holds h
  case ledgerSecond => exact execLedgerSecond_holds h
  case ledgerImageWritten => exact execLedgerImageWritten_holds h
  case supplyLoss => exact execSupplyLoss_holds h
  case ledgerGapBooking => exact execLedgerGapBooking_holds h
  case ledgerNote => exact execLedgerNote_holds h
  case ledgerReplay => exact execLedgerReplay_holds h
  case basePeriod => exact execBasePeriod_holds h
  case loadStepCheck => exact execLoadStepCheck_holds h
  case edgeRelease => exact execEdgeRelease_holds h
  case gateStatusReceived => exact execGateStatusReceived_holds h
  case linkLoss => exact execLinkLoss_holds h
  case statusCutoff => exact execStatusCutoff_holds h
  case receiverIdent => exact execReceiverIdent_holds h
  case linkStart => exact execLinkStart_holds h
  case gateDelayUpdate => exact execGateDelayUpdate_holds h
  case stageEnable => exact execStageEnable_holds h
  case stageDisable => exact execStageDisable_holds h
  case stageTripCommand => exact execStageTripCommand_holds h
  case stageTripReset => exact execStageTripReset_holds h
  case startDelayEnd => exact execStartDelayEnd_holds h
  case stopDelayEnd => exact execStopDelayEnd_holds h
  case stopRampEnd => exact execStopRampEnd_holds h
  case stageStopForced => exact execStageStopForced_holds h
  case armTimeout => exact execArmTimeout_holds h
  case telemWindowEnd => exact execTelemWindowEnd_holds h
  case peakRead => exact execPeakRead_holds h
  case faultCaptureDone => exact execFaultCaptureDone_holds h
  case faultRecordWritten => exact execFaultRecordWritten_holds h
  case faultRead => exact execFaultRead_holds h
  case targetRelease => exact execTargetRelease_holds h
  case shedStart => exact execShedStart_holds h
  case shedDwellEnd => exact execShedDwellEnd_holds h
  case diagArm => exact execDiagArm_holds h
  case diagStart => exact execDiagStart_holds h
  case diagAbort => exact execDiagAbort_holds h
  case diagTrigger => exact execDiagTrigger_holds h
  case diagCaptureDone => exact execDiagCaptureDone_holds h
  case diagExpired => exact execDiagExpired_holds h
  case thermalRound => exact execThermalRound_holds h
  case thermalAck => exact execThermalAck_holds h
  case thermalAckExpired => exact execThermalAckExpired_holds h
  case dieSample => exact execDieSample_holds h
  case dieWriteWindowEnd => exact execDieWriteWindowEnd_holds h
  case dieCoolRestart => exact execDieCoolRestart_holds h
  case currentSetpoint => exact execCurrentSetpoint_holds h
  case powerSetpoint => exact execPowerSetpoint_holds h
  case voltageSetpoint => exact execVoltageSetpoint_holds h
  case currentBudget => exact execCurrentBudget_holds h
  case powerBudget => exact execPowerBudget_holds h
  case refresh => exact execRefresh_holds h
  case dispatchAtReached => exact execDispatchAtReached_holds h
  case setpointExpired => exact execSetpointExpired_holds h
  case envelopeCompute => exact execEnvelopeCompute_holds h
  case stateReportSend => exact execStateReportSend_holds h
  case safetyTick => exact execSafetyTick_holds h
  case safetyCrossLink => exact execSafetyCrossLink_holds h
  case switchWatchdogExpiry => exact execSwitchWatchdogExpiry_holds h
  case fastOcTrip => exact execFastOcTrip_holds h
  case soTestPulse => exact execSoTestPulse_holds h
  case coilSupplyLow => exact execCoilSupplyLow_holds h
  case contactorFeedbackTimeout => exact execContactorFeedbackTimeout_holds h
  case contactorClose => exact execContactorClose_holds h
  case contactorOpen => exact execContactorOpen_holds h
  case prechargeEnd => exact execPrechargeEnd_holds h
  case prechargeRelease => exact execPrechargeRelease_holds h
  case safetyReset => exact execSafetyReset_holds h
  case resetInput => exact execResetInput_holds h
  case safeResetExpired => exact execSafeResetExpired_holds h
  case safetyFrameSend => exact execSafetyFrameSend_holds h
  case safetyFrameReceived => exact execSafetyFrameReceived_holds h
  case safetyFrameWatchdog => exact execSafetyFrameWatchdog_holds h
  case safetyCfgExpired => exact execSafetyCfgExpired_holds h
  case cycleBoundary => exact execCycleBoundary_holds h
  case cycleStart => exact execCycleStart_holds h
  case cycleRelease => exact execCycleRelease_holds h
  case eventTaskTrigger => exact execEventTaskTrigger_holds h
  case eventTaskRelease => exact execEventTaskRelease_holds h
  case savedCopyWrite => exact execSavedCopyWrite_holds h
  case breakpointHit => exact execBreakpointHit_holds h
  case holdExpired => exact execHoldExpired_holds h
  case programSwitch => exact execProgramSwitch_holds h
  case programRollback => exact execProgramRollback_holds h
  case switchBoundary => exact execSwitchBoundary_holds h
  case programRun => exact execProgramRun_holds h
  case programStop => exact execProgramStop_holds h
  case programHold => exact execProgramHold_holds h
  case programStep => exact execProgramStep_holds h
  case programResume => exact execProgramResume_holds h
  case forceSet => exact execForceSet_holds h
  case forceClear => exact execForceClear_holds h
  case programRead => exact execProgramRead_holds h
  case hostWrite => exact execHostWrite_holds h
  case programCmdExpired => exact execProgramCmdExpired_holds h
  case programLoadChunk => exact execProgramLoadChunk_holds h
  case sqTail => exact execSqTail_holds h
  case cqHead => exact execCqHead_holds h
  case streamBufferPost => exact execStreamBufferPost_holds h
  case streamFlushTimeout => exact execStreamFlushTimeout_holds h
  case hostLinkDown => exact execHostLinkDown_holds h
  case hostLinkUp => exact execHostLinkUp_holds h
  case functionLevelReset => exact execFunctionLevelReset_holds h
  case creditCheck => exact execCreditCheck_holds h
  case irqGapEnd => exact execIrqGapEnd_holds h
  case cmdExpired => exact execCmdExpired_holds h
  case cfgBlockWrite => exact execCfgBlockWrite_holds h
  case cfgBlockRead => exact execCfgBlockRead_holds h
  case slackRead => exact execSlackRead_holds h
  case arpRequest => exact execArpRequest_holds h
  case icmpEchoRequest => exact execIcmpEchoRequest_holds h
  case plantMessage => exact execPlantMessage_holds h
  case prpSupervisionSend => exact execPrpSupervisionSend_holds h
  case prpLanDown => exact execPrpLanDown_holds h
  case prpLanUp => exact execPrpLanUp_holds h
  case canFrameReceived => exact execCanFrameReceived_holds h
  case canObjectTimeout => exact execCanObjectTimeout_holds h
  case canPeriodicQueue => exact execCanPeriodicQueue_holds h
  case canAnnounce => exact execCanAnnounce_holds h
  case canTxAttemptEnd => exact execCanTxAttemptEnd_holds h
  case canRecovered => exact execCanRecovered_holds h
  case modbusPoll => exact execModbusPoll_holds h
  case modbusReply => exact execModbusReply_holds h
  case modbusTimeout => exact execModbusTimeout_holds h
  case pairSlotsFrame => exact execPairSlotsFrame_holds h
  case pairStatusFrame => exact execPairStatusFrame_holds h
  case pairInputsFrame => exact execPairInputsFrame_holds h
  case pairCommandFrame => exact execPairCommandFrame_holds h
  case pairSafetyFrame => exact execPairSafetyFrame_holds h
  case stateDigest => exact execStateDigest_holds h
  case pairDigestFrame => exact execPairDigestFrame_holds h
  case noticeWithdrawing => exact execNoticeWithdrawing_holds h
  case noticeRestarting => exact execNoticeRestarting_holds h
  case noticeReady => exact execNoticeReady_holds h
  case noticeEcho => exact execNoticeEcho_holds h
  case noticeRetired => exact execNoticeRetired_holds h
  case pairCatchupFrame => exact execPairCatchupFrame_holds h
  case pairHeartFrame => exact execPairHeartFrame_holds h
  case pairLinkTimeout => exact execPairLinkTimeout_holds h
  case loopBridgeClosed => exact execLoopBridgeClosed_holds h
  case catchupSnapshot => exact execCatchupSnapshot_holds h
  case replayDone => exact execReplayDone_holds h
  case reentry => exact execReentry_holds h
  case reentryEchoTimeout => exact execReentryEchoTimeout_holds h
  case catchupTimeout => exact execCatchupTimeout_holds h
  case catchupProgressSend => exact execCatchupProgressSend_holds h
  case partnerWaitTimeout => exact execPartnerWaitTimeout_holds h
  case pathsLost => exact execPathsLost_holds h
  case pathRecovered => exact execPathRecovered_holds h
  case portSelftest => exact execPortSelftest_holds h
  case commitExpired => exact execCommitExpired_holds h
  case recorderWrite => exact execRecorderWrite_holds h
  case recorderResume => exact execRecorderResume_holds h
  case recorderCountCheck => exact execRecorderCountCheck_holds h
  case clearRegisterPointer => exact execClearRegisterPointer_holds h
  case freezeTimeout => exact execFreezeTimeout_holds h
  case recorderRead => exact execRecorderRead_holds h
  case recorderFreeze => exact execRecorderFreeze_holds h
  case recorderThaw => exact execRecorderThaw_holds h
  case recorderClear => exact execRecorderClear_holds h
  case clearReg => exact execClearReg_holds h
  case codes => exact execCodes_holds h
  case powerUp => exact execPowerUp_holds h
  case imageChecked => exact execImageChecked_holds h
  case pairWatchEnd => exact execPairWatchEnd_holds h
  case enterService => exact execEnterService_holds h
  case cycleRestartChoice => exact execCycleRestartChoice_holds h
  case supplyHigh => exact execSupplyHigh_holds h
  case supplyOvervoltage => exact execSupplyOvervoltage_holds h
  case supplyReconnect => exact execSupplyReconnect_holds h
  case firmwareLoadChunk => exact execFirmwareLoadChunk_holds h
  case install => exact execInstall_holds h
  case installDone => exact execInstallDone_holds h
  case activate => exact execActivate_holds h
  case restart => exact execRestart_holds h
  case keys => exact execKeys_holds h
  case probationEnd => exact execProbationEnd_holds h
  case romRecovery => exact execRomRecovery_holds h
  case svcMessage => exact execSvcMessage_holds h
  case cfgCommitGo => exact execCfgCommitGo_holds h
  case cfgCommitDiscard => exact execCfgCommitDiscard_holds h
  case commitApply => exact execCommitApply_holds h
  case stagedRegisterWrite => exact execStagedRegisterWrite_holds h
  case exposureNotice => exact execExposureNotice_holds h
  case exposureExceeded => exact execExposureExceeded_holds h
  case exposureClosed => exact execExposureClosed_holds h
  case wardenWatchdogExpiry => exact execWardenWatchdogExpiry_holds h
  case holdupMeasured => exact execHoldupMeasured_holds h
  case configFrameReceived => exact execConfigFrameReceived_holds h
  case activationImageChecked => exact execActivationImageChecked_holds h
  case activationReloadDone => exact execActivationReloadDone_holds h
  case ethLinkChange => exact execEthLinkChange_holds h
  case prpSupervisionReceived => exact execPrpSupervisionReceived_holds h
  case prpNodeAgedOut => exact execPrpNodeAgedOut_holds h
  case modbusRequestHeard => exact execModbusRequestHeard_holds h

theorem exec_next {s : State} (c : Sys2Proof.Instr) {R : Bool} (h : R = true → s.regsOk = true) :
    ∃ t, exec c s = .next t ∧ Holds R (Part.among (touches c)) s t :=
  (exec_holds c (Holds.refl h)).exists

/-- Settles O57: by cases on the command, each by what its meaning keeps. -/
theorem everyCommandLeaves : Obligations.EveryCommandLeaves := by
  intro c s
  obtain ⟨t, ht, hkept⟩ := exec_next (R := false) c nofun
  exact ⟨t, ht, hkept.queue, hkept.unit, fun q hq => hkept.same_of_not_mem hq⟩

/-! ### One step -/

theorem step_of_nil {s : State} (h : s.pending = []) : step s = .next s.tick := by simp only [step, h]

theorem step_of_cons {s : State} {c : Sys2Proof.Instr} {l : List Sys2Proof.Instr} (h : s.pending = c :: l) :
    step s = exec c { s with pending := l } := by simp only [step, h]

/-- Settles O58: a tick leaves the set-up, and a command keeps its banks sound. -/
theorem stepKeepsRegisters : Obligations.StepKeepsRegisters := by
  intro s t hs hstep
  cases hp : s.pending with
  | nil =>
    rw [step_of_nil hp] at hstep
    obtain rfl := Host.Outcome.next.inj hstep
    exact hs
  | cons c l =>
    obtain ⟨u, hu, hkept⟩ := exec_next (R := true) (s := { s with pending := l }) c (fun _ => hs)
    rw [step_of_cons hp, hu] at hstep
    obtain rfl := Host.Outcome.next.inj hstep
    exact hkept.regs rfl

/-- Settles O60: by the two cases of the queue. -/
theorem stepRunsTheFront : Obligations.StepRunsTheFront :=
  ⟨fun _ _ _ => step_of_cons rfl, fun _ h => step_of_nil h⟩

end Sys2Proof.Machine
end

section
/-! PROOFS. What every family uses: an event that was seen stays seen while the recorder only detects more, and the parts that the shared
operations leave. -/
namespace Sys2Proof.Machine

/-! ### Events seen -/

/-- At the same system time, the recorder has detected more events and is otherwise as it was. -/
structure State.Records (s t : State) : Prop where
  raises : s.rec_.Raises t.rec_
  sysNs  : t.sysNs = s.sysNs

section
variable {s t u : State} {e : EvDef} {a : List Int}

theorem State.Records.refl (s : State) : s.Records s := ⟨.refl _, rfl⟩

theorem State.Records.of_eq (hrec : t.rec_ = s.rec_) (htime : t.time = s.time) : s.Records t := ⟨.of_eq hrec, State.sysNs_of_time s htime⟩

theorem State.Records.trans (h : s.Records t) (h' : t.Records u) : s.Records u := ⟨h.raises.trans h'.raises, h'.sysNs.trans h.sysNs⟩

theorem State.raise_records (s : State) (e : EvDef) (a : List Int) : s.Records (s.raise e a) := ⟨s.raise_raises e a, rfl⟩

/-- An event under a condition changes the recorder alone. -/
theorem State.ite_raise (c : Prop) [Decidable c] (s : State) (e : EvDef) (a : List Int) :
    (if c then s.raise e a else s) = { s with rec_ := (if c then s.raise e a else s).rec_ } := by
  split <;> rfl

theorem State.Records.ite {c : Prop} [Decidable c] (ht : s.Records t) (hu : s.Records u) : s.Records (if c then t else u) := by
  split <;> assumption

theorem State.Records.foldl {α : Type} {f : State → α → State} (hf : ∀ (u : State) x, u.Records (f u x)) (l : List α) : ∀ s : State, s.Records (l.foldl f s) := by
  induction l with
  | nil => exact .refl
  | cons x l ih => exact fun s => (hf s x).trans (ih _)

/-- An event that was seen stays seen. -/
theorem State.Saw.mono (h : s.Saw e a) (ht : s.Records t) : t.Saw e a := by
  obtain ⟨⟨l, hl⟩, hns⟩ := ht
  unfold State.Saw at h ⊢
  rw [hns, hl]
  exact List.mem_append_left _ h

theorem State.Saw.of_eq (h : s.Saw e a) (hrec : t.rec_ = s.rec_) (hns : t.sysNs = s.sysNs) : t.Saw e a := h.mono ⟨.of_eq hrec, hns⟩

/-- A fold whose step for some element records an event has recorded it. -/
theorem State.foldl_saw {α : Type} {f : State → α → State} (hf : ∀ (u : State) x, u.Records (f u x)) {l : List α} {x : α} (hx : x ∈ l)
    (hsaw : ∀ u, (f u x).Saw e a) (s : State) : (l.foldl f s).Saw e a := by
  obtain ⟨l₁, l₂, rfl⟩ := List.append_of_mem hx
  rw [List.foldl_append, List.foldl_cons]
  exact (hsaw _).mono (.foldl hf l₂ _)

/-- A fold leaves what each of its steps leaves. -/
theorem State.foldl_keeps {α β : Type} {f : State → α → State} {g : State → β} (hf : ∀ u x, g (f u x) = g u) (l : List α) :
    ∀ s : State, g (l.foldl f s) = g s := by
  induction l with
  | nil => exact fun _ => rfl
  | cons x l ih => exact fun s => (ih _).trans (hf s x)

end

/-! ### Lists changed by place -/

section
variable {α β : Type} (f : Nat → α → β) (l : List α)

@[simp] theorem mapIdxL_length : (mapIdxL f l).length = l.length := by simp [mapIdxL]

theorem mapIdxL_getElem? (i : Nat) : (mapIdxL f l)[i]? = l[i]?.map (f i) := by
  obtain h | h := Nat.lt_or_ge i l.length
  · simp [mapIdxL, h]
  · simp [mapIdxL, h]

theorem mapIdxL_getD {i : Nat} (h : i < l.length) (d : α) (d' : β) : (mapIdxL f l).getD i d' = f i (l.getD i d) := by
  rw [List.getD_eq_getElem?_getD, List.getD_eq_getElem?_getD, mapIdxL_getElem?, List.getElem?_eq_getElem h]
  rfl

end

section
variable {α : Type} {l : List α} {i j : Nat} {a d : α}

theorem getD_set_self (h : i < l.length) : (l.set i a).getD i d = a := by
  rw [List.getD_eq_getElem?_getD, List.getElem?_set_self h]
  rfl

theorem getD_of_length_le (h : l.length ≤ i) : l.getD i d = d := by
  rw [List.getD_eq_getElem?_getD, List.getElem?_eq_none h]
  rfl

theorem eq_pair_of_length (h : l.length = 2) : ∃ a b, l = [a, b] := by
  match l, h with
  | [a, b], _ => exact ⟨a, b, rfl⟩

theorem getD_set_ne (h : i ≠ j) : (l.set i a).getD j d = l.getD j d := by
  rw [List.getD_eq_getElem?_getD, List.getD_eq_getElem?_getD, List.getElem?_set_ne h]

end

/-! ### Places in a sized state -/

section
variable {s : State} (h : s.sized)
include h

theorem State.sized.line_lt (r : Fin 8) : r.val < s.ring.lines.length := by rw [h.lines]; exact r.isLt
theorem State.sized.station_lt (k : Fin 34) : k.val < s.ring.stations.length := by rw [h.stations]; exact k.isLt
theorem State.sized.engine_lt (e : Fin 23) : e.val < s.fabric.engines.length := by rw [h.engines]; exact e.isLt
theorem State.sized.receiver_lt (n : Fin 8) : n.val < s.gate.receivers.length := by rw [h.receivers]; exact n.isLt
theorem State.sized.zone_lt (z : Fin 8) : z.val < s.therm.zones.length := by rw [h.zones]; exact z.isLt
theorem State.sized.eng_lt (e : Fin 8) : e.val < s.prog.engines.length := by rw [h.engs]; exact e.isLt
theorem State.sized.queue_lt (q : Fin 32) : q.val < s.host.queues.length := by rw [h.queues]; exact q.isLt
theorem State.sized.can_lt (p : Fin 6) : p.val < s.plant.can.length := by rw [h.can]; exact p.isLt
theorem State.sized.sb_lt (p : Fin 4) : p.val < s.plant.sb.length := by rw [h.sb]; exact p.isLt
theorem State.sized.eth_lt (p : Fin 4) : p.val < s.plant.eth.length := by rw [h.eth]; exact p.isLt

end

/-! ### Rows of the host's command queues -/

section
variable {s t u : State} {q op need : Nat} {sel : Desc → Bool} {d : Desc} {own : State → Desc → Verdict} {resp : List Byte}

/-- An accepted command that waits for no one else. -/
theorem hostRow_done (h : s.Turn q op sel d t) (ho : own t d = .accept need false resp u) (hl : need = 0 ∨ need ≤ d.respLen) :
    s.hostRow q op sel own = u.ends q need 0 resp := hostRow_accept (aw := false) h ho hl

/-- An accepted command without a response. -/
theorem hostRow_silent (h : s.Turn q op sel d t) {aw : Bool} (ho : own t d = .accept 0 aw resp u) :
    s.hostRow q op sel own = u.ends q 0 (bit aw) resp := hostRow_accept h ho (.inl rfl)

end

/-! ### Parts that shared operations leave -/

section
variable (s : State) {q : Part}

theorem State.pairSend_same (f : PairFrame) (hq : q ∉ [Part.twin, .out]) : q.same s (s.pairSend f) := by
  have head := Part.may_among_head
  have tail := Part.may_among_tail
  exact (State.pairSend_holds (R := false) (.refl nofun)).same_of_not_mem hq

theorem State.plantSendFrom_same (ep type : Nat) (body : List Byte) (hq : q ∉ [Part.plant, .out]) :
    q.same s (s.plantSendFrom ep type body) := by
  have head := Part.may_among_head
  have tail := Part.may_among_tail
  exact (State.plantSendFrom_holds (R := false) (.refl nofun)).same_of_not_mem hq

theorem State.express_same (p i ident : Nat) (data : List Byte) (hq : q ∉ [Part.plant]) : q.same s (s.express p i ident data) := by
  have head := Part.may_among_head
  exact (State.express_holds (R := false) (.refl nofun)).same_of_not_mem hq

theorem State.sendSafetyFrame_same (hq : q ∉ [Part.safety, .plant, .twin, .out]) : q.same s s.sendSafetyFrame := by
  have head := Part.may_among_head
  have tail := Part.may_among_tail
  exact (State.sendSafetyFrame_holds (R := false) (.refl nofun)).same_of_not_mem hq

theorem State.abandonRun_same (cause : Nat) (hq : q ∉ [Part.ring, .est, .rec_]) : q.same s (s.abandonRun cause) := by
  have head := Part.may_among_head
  have tail := Part.may_among_tail
  exact (State.abandonRun_holds (R := false) (.refl nofun)).same_of_not_mem hq

theorem State.stageTrip_same (cls link phase switch : Nat) (hq : q ∉ [Part.ring, .est, .gate, .rec_, .out]) :
    q.same s (s.stageTrip cls link phase switch) := by
  have head := Part.may_among_head
  have tail := Part.may_among_tail
  exact (State.stageTrip_holds (R := false) (.refl nofun)).same_of_not_mem hq

theorem State.safeState_same (d : Demand) (hq : q ∉ [Part.ring, .meas, .est, .gate, .safety, .plant, .twin, .rec_, .out]) :
    q.same s (s.safeState d) := by
  have head := Part.may_among_head
  have tail := Part.may_among_tail
  exact (State.safeState_holds (R := false) (.refl nofun)).same_of_not_mem hq

theorem State.internalFaultBy_same (by_ engine : Nat) (keep : Bool)
    (hq : q ∉ [Part.ring, .meas, .est, .gate, .safety, .plant, .twin, .rec_, .out]) : q.same s (s.internalFaultBy by_ engine keep) := by
  have head := Part.may_among_head
  have tail := Part.may_among_tail
  exact (State.internalFaultBy_holds (R := false) (.refl nofun)).same_of_not_mem hq

theorem State.formIdentity_same (hq : q ∉ [Part.chain, .time, .twin]) : q.same s s.formIdentity := by
  have head := Part.may_among_head
  have tail := Part.may_among_tail
  exact (State.formIdentity_holds (R := false) (.refl nofun)).same_of_not_mem hq

end

/-! ### Trips and the safe state (08 R221, 12 R320) -/

section
variable (s : State)

theorem State.abandonRun_of_idle {s : State} (h : s.est.imp.phase = .idle) (cause : Nat) : s.abandonRun cause = s := by
  simp only [State.abandonRun, h]

theorem State.lockin_rec_ (arg : Nat) : (s.lockin arg).rec_ = s.rec_ := rfl

theorem State.abandonRun_raises (cause : Nat) : s.rec_.Raises (s.abandonRun cause).rec_ := by
  unfold State.abandonRun
  split
  · exact .refl _
  · refine (s.raise_raises Ev.impRunAbandoned [s.est.imp.run.toNat, s.est.imp.seg, cause]).trans (.of_eq ?_)
    dsimp only
    rw [State.onImp, State.onEst_rec_]
    split
    · rfl
    · split <;> rfl

theorem State.abandonRun_records (cause : Nat) : s.Records (s.abandonRun cause) :=
  ⟨s.abandonRun_raises cause, State.sysNs_of_time s (s.abandonRun_same (q := .time) cause (by decide))⟩

theorem State.stageTrip_of_off {s : State} (h : s.gate.stage = .off) (a b c d : Nat) : s.stageTrip a b c d = s := by
  simp only [State.stageTrip, h]

/-- A trip's event is the first thing that it records. -/
theorem State.stageTrip_raises {s : State} (h : s.gate.stage ≠ .off) (a b c d : Nat) :
    (s.raise Ev.stageTrip [(a : Int), b, c, d]).rec_.Raises (s.stageTrip a b c d).rec_ := by
  unfold State.stageTrip
  split
  · contradiction
  · dsimp only
    split
    · exact State.abandonRun_raises (s.raise Ev.stageTrip [(a : Int), b, c, d]).sendStop 0
    · exact .refl _

theorem State.stageTrip_sysNs (a b c d : Nat) : (s.stageTrip a b c d).sysNs = s.sysNs :=
  State.sysNs_of_time s (s.stageTrip_same (q := .time) a b c d (by decide))

theorem State.stageTrip_saw {s : State} (h : s.gate.stage ≠ .off) (a b c d : Nat) :
    (s.stageTrip a b c d).Saw Ev.stageTrip [(a : Int), b, c, d] :=
  (s.raise_saw ..).mono ⟨State.stageTrip_raises h a b c d, s.stageTrip_sysNs a b c d⟩

theorem State.stageTrip_records (a b c d : Nat) : s.Records (s.stageTrip a b c d) := by
  by_cases h : s.gate.stage = .off
  · rw [State.stageTrip_of_off h]; exact .refl s
  · exact (s.raise_records ..).trans ⟨State.stageTrip_raises h a b c d, s.stageTrip_sysNs a b c d⟩

/-- A trip of a stage that is not OFF leaves it TRIPPED. -/
theorem State.stageTrip_stage {s : State} (h : s.gate.stage ≠ .off) (a b c d : Nat) : (s.stageTrip a b c d).gate.stage = .tripped := by
  unfold State.stageTrip
  split
  · contradiction
  · rfl

theorem State.sendSafetyFrame_records : s.Records s.sendSafetyFrame :=
  .of_eq (s.sendSafetyFrame_same (q := .rec_) (by decide)) (s.sendSafetyFrame_same (q := .time) (by decide))

/-- A safety frame leaves the safety functions as they are, but for the counts of the frames sent. -/
theorem State.sendSafetyFrame_safety : ∃ n t w b, s.sendSafetyFrame.safety = { s.safety with
    sfSeq := n, sfLastAt := t, sfWord0 := w, sfSafe := b } := by
  have hpair : (s.pairSend (.safety s.safetyPdu)).safety = s.safety := s.pairSend_same (q := .safety) _ (by decide)
  have hplant (u : State) : (u.plantSendFrom 0 0x20 s.safetyPdu.bytes).safety = u.safety :=
    u.plantSendFrom_same (q := .safety) 0 0x20 _ (by decide)
  have hexpress (u : State) (p i ident : Nat) (data : List Byte) : (u.express p i ident data).safety = u.safety :=
    u.express_same (q := .safety) p i ident data (by decide)
  unfold State.sendSafetyFrame
  split
  · dsimp only
    split
    · exact ⟨_, _, _, _, by rw [hexpress, hplant, hpair]⟩
    · exact ⟨_, _, _, _, by rw [hplant, hpair]⟩
  · exact ⟨_, _, _, _, rfl⟩

@[simp] theorem State.sendSafetyFrame_safe : s.sendSafetyFrame.safety.safe = s.safety.safe := by
  obtain ⟨_, _, _, _, h⟩ := s.sendSafetyFrame_safety
  rw [h]

variable (d : Demand)

theorem State.safeState_safe : (s.safeState d).safety.safe = true := by
  unfold State.safeState
  dsimp only
  split
  · assumption
  · rw [State.sendSafetyFrame_safe]

/-- What EV_SAFE_STATE says of a demand. -/
def Demand.said (d : Demand) : List Int := [d.fn, d.engines, d.object, d.number, d.value]

theorem State.safeState_raises : (s.raise Ev.safeState d.said).rec_.Raises (s.safeState d).rec_ := by
  unfold State.safeState
  dsimp only
  split
  · exact .refl _
  · refine .trans ?_ (State.sendSafetyFrame_records _).raises
    exact (State.stageTrip_records (((s.raise Ev.safeState d.said).openSwitches d.engines).balancingOff) 7 255 255 255).raises.trans
      (State.abandonRun_raises _ 0)

theorem State.safeState_sysNs : (s.safeState d).sysNs = s.sysNs :=
  State.sysNs_of_time s (s.safeState_same (q := .time) d (by decide))

theorem State.safeState_records : s.Records (s.safeState d) :=
  (s.raise_records Ev.safeState d.said).trans ⟨s.safeState_raises d, s.safeState_sysNs d⟩

theorem State.safeState_saw : (s.safeState d).Saw Ev.safeState d.said :=
  (s.raise_saw ..).mono ⟨s.safeState_raises d, s.safeState_sysNs d⟩

variable (by_ engine : Nat) (keep : Bool)

theorem State.internalFaultBy_safe : (s.internalFaultBy by_ engine keep).safety.safe = true := by
  unfold State.internalFaultBy
  exact State.safeState_safe ..

theorem State.internalFaultBy_records : s.Records (s.internalFaultBy by_ engine keep) := by
  unfold State.internalFaultBy
  refine .trans ?_ (State.safeState_records _ _)
  exact ⟨.refl _, rfl⟩

end

/-! ### The instant (03 R62) -/

section
variable {s : State} {n : Nat}

theorem State.now_of_lt (h : s.now < n) (hn : n < 2 ^ 64) : (s.advance n).now = n := by
  rw [State.advance, if_pos h]
  simp only [State.now, BitVec.toNat_ushiftRight, BitVec.toNat_ofNat, Nat.shiftRight_eq_div_pow]
  omega

theorem State.advance_of_le (h : n ≤ s.now) : s.advance n = s := if_neg (Nat.not_lt.mpr h)

/-- The counter moves to an instant that it can hold, and never back. -/
theorem State.advance_now (hn : n < 2 ^ 64) : (s.advance n).now = max s.now n := by
  obtain h | h := Nat.lt_or_ge s.now n
  · rw [State.now_of_lt h hn, Nat.max_eq_right (Nat.le_of_lt h)]
  · rw [State.advance_of_le h, Nat.max_eq_left h]

/-- Of the time base, an instant moves the counter alone. -/
theorem State.advance_time (s : State) (n : Nat) : ∃ f, (s.advance n).time = { s.time with fine := f } := by
  unfold State.advance
  split <;> exact ⟨_, rfl⟩

end

/-! What an instant leaves is the rest of the state, and what depends on it alone. -/

section
variable (s : State) (n : Nat)

theorem State.advance_cfg : (s.advance n).cfg = s.cfg := by rw [State.cfg, State.advance_setup, State.cfg]

theorem State.advance_cls : (s.advance n).cls = s.cls := by simp only [State.cls, State.advance_life, State.advance_chain]

theorem State.advance_isPair : (s.advance n).isPair = s.isPair := by rw [State.isPair, State.isPair, State.advance_cls]

theorem State.advance_isJunior : (s.advance n).isJunior = s.isJunior := by rw [State.isJunior, State.isJunior, State.advance_cls]

theorem State.advance_map : (s.advance n).map = s.map := by rw [State.map, State.advance_cfg, State.advance_ring, State.map]

theorem State.advance_cellCount : (s.advance n).cellCount = s.cellCount := by
  rw [State.cellCount, State.cellStations, State.advance_cfg, State.advance_map, State.cellCount, State.cellStations]

theorem State.advance_links : (s.advance n).links = s.links := by rw [State.links, State.advance_cfg, State.links]

theorem State.advance_receiver (l : Nat) : (s.advance n).receiver l = s.receiver l := by
  rw [State.receiver, State.advance_gate, State.receiver]

end

/-! ### Both commands that expire (14 R370) -/

section
variable {s : State} {sel : Cmd → Bool} {w : WaitCmd}

theorem State.expireBoth_does (h : s.host.waiting.find? (fun w => sel w.cmd && w.own) = some w) (hw : w.expires < 2 ^ 64) (e : EvDef)
    (args : Cmd → List Int) : w ∉ (s.expireBoth sel e args).host.waiting ∧ (s.expireBoth sel e args).Saw e (args w.cmd) := by
  have hnow : w.expires ≤ (s.advance w.expires).now := by rw [State.advance_now hw]; exact Nat.le_max_right ..
  simp only [State.expireBoth, h]
  refine ⟨fun hmem => ?_, State.raise_saw ..⟩
  simpa [hnow] using (List.mem_filter.mp hmem).2

end

end Sys2Proof.Machine
end

section
/-! PROOFS. The commands of the address chain (01 R31, R33, R34): what forming an identity leaves, what an address frame stores, and the
statement of the family. -/
namespace Sys2Proof.Machine

/-! ### Forming an identity (R36) -/

section
variable (s : State)

/-- A formed identity waits for its boundary: nothing else of the chain changes. -/
theorem State.formIdentity_chain : ∃ i, s.formIdentity.chain = { s.chain with identityNext := i } := by
  unfold State.formIdentity
  dsimp only
  split <;> exact ⟨_, rfl⟩

@[simp] theorem State.formIdentity_addr : s.formIdentity.chain.addr = s.chain.addr := by
  obtain ⟨_, h⟩ := s.formIdentity_chain; rw [h]

@[simp] theorem State.formIdentity_stored : s.formIdentity.chain.stored = s.chain.stored := by
  obtain ⟨_, h⟩ := s.formIdentity_chain; rw [h]

@[simp] theorem State.formIdentity_stale : s.formIdentity.chain.stale = s.chain.stale := by
  obtain ⟨_, h⟩ := s.formIdentity_chain; rw [h]

@[simp] theorem State.formIdentity_aciLost : s.formIdentity.chain.aciLost = s.chain.aciLost := by
  obtain ⟨_, h⟩ := s.formIdentity_chain; rw [h]

@[simp] theorem State.formIdentity_rec_ : s.formIdentity.rec_ = s.rec_ := s.formIdentity_same (q := .rec_) (by decide)

/-- The counter and its step offset stay; only the leader's mark may change. -/
@[simp] theorem State.formIdentity_sysNs : s.formIdentity.sysNs = s.sysNs := by
  unfold State.formIdentity
  dsimp only
  split <;> rfl

end

/-! ### An address frame (R31) -/

section
variable {s : State} {a : Aci}

/-- The frame has been heard. -/
def State.aciHeard (s : State) (a : Aci) : State :=
  { s with chain := { s.chain with aciLost := false, aciValue := Aci.value a, head := decide (a = .head), full := decide (Aci.value a = 64) } }

/-- Its value is stored, and a change of the stored address recorded. -/
def State.aciKept (s : State) (a : Aci) : State :=
  if s.chain.stored = some (Aci.value a) then s.aciHeard a
  else
    let u := { s.aciHeard a with chain := { (s.aciHeard a).chain with stored := some (Aci.value a) } }
    match s.chain.stored with
    | some old => u.raise Ev.addressChanged [old, Aci.value a]
    | none => u

theorem takeAci_of_full (h : Aci.value a = 64) : takeAci a s = if s.chain.full then s.aciHeard a else (s.aciHeard a).raise Ev.chainFull [] := by
  unfold takeAci
  rw [if_pos h]
  rfl

theorem State.aciKept_chain (s : State) (a : Aci) :
    (s.aciKept a).chain = { (s.aciHeard a).chain with stored := some (Aci.value a) } := by
  unfold State.aciKept
  split
  · next h => simp only [State.aciHeard, ← h]
  · split <;> rfl

theorem State.aciKept_addr (s : State) (a : Aci) : (s.aciKept a).chain.addr = s.chain.addr := by rw [State.aciKept_chain]; rfl

theorem takeAci_of_address (h : Aci.value a ≠ 64) : takeAci a s =
    if s.chain.addr = Aci.value a then { s.aciKept a with chain := { (s.aciKept a).chain with stale := false, assigned := false } }
    else if s.inService then s.aciKept a
    else { s.aciKept a with chain := { (s.aciKept a).chain with addr := Aci.value a, stale := false, assigned := false } }.formIdentity := by
  rw [← State.aciKept_addr s a]
  unfold takeAci
  rw [if_neg h]
  rfl

theorem State.aciKept_sysNs (s : State) (a : Aci) : (s.aciKept a).sysNs = s.sysNs := by
  unfold State.aciKept
  split
  · rfl
  · split <;> rfl

theorem State.aciKept_saw {old : Nat} (hs : s.chain.stored = some old) (hne : old ≠ Aci.value a) :
    (s.aciKept a).Saw Ev.addressChanged [old, (Aci.value a : Int)] := by
  unfold State.aciKept
  rw [if_neg (by rw [hs]; exact fun h => hne (Option.some.inj h)), hs]
  exact State.raise_saw ..

/-- Out of service the module has the address it hears. -/
theorem takeAci_chain_of_idle (h : Aci.value a ≠ 64) (hi : s.inService = false) :
    (takeAci a s).chain.addr = Aci.value a ∧ (takeAci a s).chain.stored = some (Aci.value a) ∧ (takeAci a s).chain.stale = false
      ∧ (takeAci a s).chain.aciLost = false := by
  rw [takeAci_of_address h, hi]
  split
  · next hv => simp only [State.aciKept_chain, State.aciHeard, hv, and_self]
  · simp [State.aciKept_chain, State.aciHeard]

/-- In service it goes on with its own. -/
theorem takeAci_chain_of_service (h : Aci.value a ≠ 64) (hi : s.inService = true) :
    (takeAci a s).chain.addr = s.chain.addr ∧ (takeAci a s).chain.stored = some (Aci.value a) ∧ (takeAci a s).chain.aciLost = false := by
  rw [takeAci_of_address h, hi]
  split <;> simp [State.aciKept_chain, State.aciHeard]

theorem takeAci_saw_addressChanged {old : Nat} (h : Aci.value a ≠ 64) (hs : s.chain.stored = some old) (hne : old ≠ Aci.value a) :
    (takeAci a s).Saw Ev.addressChanged [old, (Aci.value a : Int)] := by
  have hsaw := State.aciKept_saw (a := a) hs hne
  rw [takeAci_of_address h]
  split
  · exact hsaw.of_eq rfl rfl
  · split
    · exact hsaw
    · exact hsaw.of_eq (State.formIdentity_rec_ _) (State.formIdentity_sysNs _)

end

/-! ### A lost ACI (R33) -/

section
variable {s : State}

/-- The address that a module has once ACI is lost. -/
def State.addrWithoutAci (s : State) : Nat := if s.chain.addr = 0 ∧ !s.inService then s.chain.stored.getD 0 else s.chain.addr

/-- ACI is gone, and the address flagged stale. -/
def State.aciGone (s : State) : State :=
  { s with chain := { s.chain with
      aciLost := true, head := false, full := false, addr := s.addrWithoutAci, stale := decide (s.addrWithoutAci ≠ 0) } }

theorem execAciLost_of_heard (h : s.chain.aciLost = false) : exec .aciLost s =
    .next ((if s.addrWithoutAci = s.chain.addr then s.aciGone else s.aciGone.formIdentity).raise Ev.chainBreak [s.addrWithoutAci]) :=
  congrArg Host.Outcome.next (if_neg (Bool.eq_false_iff.mp h))

theorem aciLost_does (h : s.chain.aciLost = false) (ha : s.addrWithoutAci ≠ 0) : Does .aciLost s fun t =>
    t.chain.addr = s.addrWithoutAci ∧ t.chain.aciLost = true ∧ t.chain.stale = true ∧ t.Saw Ev.chainBreak [s.addrWithoutAci] := by
  refine ⟨_, execAciLost_of_heard h, ?_, ?_, ?_, State.raise_saw ..⟩ <;> rw [State.raise_chain] <;> split <;>
    simp [State.aciGone, ha]

end

/-! ### The statement -/

/-- Settles O1: by what the frame stores (`takeAci_of_address`), what a lost ACI leaves (`aciLost_does`) and the row of ADDRESS. -/
theorem chainCommands : Obligations.ChainCommands := by
  refine ⟨?_, ?_, ?_, ?_, ?_, ?_, ?_, ?_, ?_⟩
  · exact fun s a h hi => ⟨_, rfl, takeAci_chain_of_idle h hi⟩
  · exact fun s a h hi => ⟨_, rfl, takeAci_chain_of_service h hi⟩
  · exact fun s a old h hs hne => ⟨_, rfl, takeAci_saw_addressChanged h hs hne⟩
  · intro s hfull
    refine ⟨_, rfl, ?_⟩
    rw [takeAci_of_full (a := .frame 63) rfl, hfull]
    exact ⟨rfl, rfl, State.raise_saw ..⟩
  · intro s ha
    refine ⟨_, rfl, ?_⟩
    simp [ha]
  · intro s ha hp
    refine ⟨_, rfl, ?_⟩
    simp [ha, hp]
  · intro s hl ha
    have haddr : s.addrWithoutAci = s.chain.addr := if_neg (fun h => ha h.1)
    simpa only [haddr] using aciLost_does hl (by rw [haddr]; exact ha)
  · intro s a hl ha hi hs hne
    have haddr : s.addrWithoutAci = a := by simp [State.addrWithoutAci, ha, hi, hs]
    simpa only [haddr] using aciLost_does hl (by rw [haddr]; exact hne)
  · intro s t q d hturn h0 h63 hser ha hlost
    refine congrArg Host.Outcome.next (hostRow_done hturn ?_ (.inl rfl))
    have hrange : ¬(d.argByte 0 = 0 ∨ 63 < d.argByte 0) := by omega
    simp [hrange, hser, ha, hlost]

end Sys2Proof.Machine
end

section
/-! PROOFS. Canary rounds, the slack history and the counts of the fabric (02 R43 to R45, R57, R58), and the statement of the family. -/
namespace Sys2Proof.Machine

/-! ### The slack history (R44) -/

section
variable {s : State}

/-- The day's record waits, and the day starts anew. -/
def State.slackDay (s : State) : State :=
  s.onFabric (fun f => { f with
    historyWaits := f.historyWaits ++ [s.slackRecord], readDays := f.readDays + 1
    engines := f.engines.map (fun e => { e with worst := e.slack })
    tdieMax := s.therm.die.temp
    profileDay := [0, 0, 0] })

theorem execSlackHistoryWrite_eq (s : State) : exec .slackHistoryWrite s = .next (s.periodic 6 day).slackDay.writeHistory := rfl

theorem State.nvmBarred_of_therm {t : State} (h : t.therm = s.therm) : t.nvmBarred = s.nvmBarred := by rw [State.nvmBarred, h]; rfl

theorem State.writeHistory_of_barred (h : s.nvmBarred = true) : s.writeHistory = s := if_pos h

theorem State.writeHistory_history_of_free (h : s.nvmBarred = false) : s.writeHistory.fabric.history =
    (s.fabric.history ++ s.fabric.historyWaits).drop (s.fabric.history.length + s.fabric.historyWaits.length - slackSlots) := by
  rw [State.writeHistory, if_neg (Bool.eq_false_iff.mp h)]

theorem State.writeHistory_historyWaits_of_free (h : s.nvmBarred = false) : s.writeHistory.fabric.historyWaits = [] := by
  rw [State.writeHistory, if_neg (Bool.eq_false_iff.mp h)]

theorem State.slackDay_history (i p : Nat) : (s.periodic i p).slackDay.fabric.history = s.fabric.history :=
  (rfl : _ = (s.periodic i p).fabric.history).trans (by rw [s.periodic_fabric])

theorem State.slackDay_historyWaits (i p : Nat) :
    (s.periodic i p).slackDay.fabric.historyWaits = s.fabric.historyWaits ++ [(s.periodic i p).slackRecord] :=
  (rfl : _ = (s.periodic i p).fabric.historyWaits ++ [(s.periodic i p).slackRecord]).trans (by rw [s.periodic_fabric])

theorem State.slackDay_nvmBarred (i p : Nat) : (s.periodic i p).slackDay.nvmBarred = s.nvmBarred :=
  State.nvmBarred_of_therm (s.periodic_therm i p)

/-- The day's record alone is written, and the oldest beyond 16,384 dropped. -/
theorem slackHistoryWrite_does (h : s.nvmBarred = false) (hw : s.fabric.historyWaits = []) : Does .slackHistoryWrite s fun t =>
    t.fabric.history = (s.fabric.history ++ [(s.periodic 6 day).slackRecord]).drop (s.fabric.history.length + 1 - slackSlots)
      ∧ t.fabric.historyWaits = [] := by
  have hfree : (s.periodic 6 day).slackDay.nvmBarred = false := (State.slackDay_nvmBarred ..).trans h
  refine ⟨_, execSlackHistoryWrite_eq s, ?_, State.writeHistory_historyWaits_of_free hfree⟩
  rw [State.writeHistory_history_of_free hfree, State.slackDay_history, State.slackDay_historyWaits, hw, List.nil_append,
    List.length_singleton]

end

/-! ### Counts that are reported (R57, R58) -/

/-- Each count that is not 0 is recorded under its index. -/
def State.reportCount (e : EvDef) (n : Nat → Nat) (u : State) (i : Nat) : State := if n i = 0 then u else u.raise e [i, n i]

section
variable {e : EvDef} {n : Nat → Nat}

theorem State.reportCount_records (u : State) (i : Nat) : u.Records (u.reportCount e n i) := by
  unfold State.reportCount
  split
  · exact .refl u
  · exact u.raise_records ..

theorem State.reportCount_fabric (u : State) (i : Nat) : (u.reportCount e n i).fabric = u.fabric := by
  unfold State.reportCount
  split <;> rfl

theorem State.reportCount_saw {i : Nat} (h : n i ≠ 0) (u : State) : (u.reportCount e n i).Saw e [i, n i] := by
  rw [State.reportCount, if_neg h]
  exact u.raise_saw ..

theorem State.reportCounts_saw (s : State) {i k : Nat} (hi : i < k) (h : n i ≠ 0) :
    ((List.range k).foldl (State.reportCount e n) s).Saw e [i, n i] :=
  State.foldl_saw State.reportCount_records (List.mem_range.mpr hi) (State.reportCount_saw h) s

theorem State.reportCounts_fabric (s : State) (l : List Nat) : (l.foldl (State.reportCount e n) s).fabric = s.fabric :=
  State.foldl_keeps State.reportCount_fabric l s

end

theorem execResidueRetryReport_eq (s : State) : exec .residueRetryReport s = .next (((List.range 23).foldl
    (State.reportCount Ev.residueRetry (fun e => (s.engine e).retries)) (s.periodic 7 60000000000)).onFabric
      (fun f => { f with engines := f.engines.map (fun x => { x with retries := 0 }) })) := by
  have hengine (e : Nat) : (s.periodic 7 60000000000).engine e = s.engine e := by rw [State.engine, s.periodic_fabric]; rfl
  show execResidueRetryReport s = _
  simp only [execResidueRetryReport, hengine]
  rfl

theorem execEccCorrectedReport_eq (s : State) : exec .eccCorrectedReport s = .next (((List.range 3).foldl
    (State.reportCount Ev.eccCorrected (fun a => s.fabric.corrected.getD a 0)) (s.periodic 8 hourNs)).onFabric
      (fun f => { f with corrected := [0, 0, 0] })) := by
  show execEccCorrectedReport s = _
  simp only [execEccCorrectedReport, s.periodic_fabric]
  rfl

/-! ### The statement -/

/-- Settles O2: the rounds and single counts by the commands' definitions, the history by its length, the reports by their folds. -/
theorem fabricCommands : Obligations.FabricCommands := by
  refine ⟨?_, ?_, ?_, ?_, ?_, ?_, ?_, ?_, ?_, ?_⟩
  · rintro s _ c rfl
    exact ⟨_, rfl, rfl⟩
  · intro s worst e he
    exact mapIdxL_getD (fun e (x : Engine) => x.round (s.correctedSlack worst e) (Fld.marginCfg_TRIGGER s.cfg)) _ he _ _
  · intro s p hp
    refine ⟨_, rfl, ?_⟩
    rw [hp]; rfl
  · intro s h hw hroom
    obtain ⟨t, ht, hhist, hwaits⟩ := slackHistoryWrite_does h hw
    rw [Nat.sub_eq_zero_of_le hroom, List.drop_zero] at hhist
    exact ⟨t, ht, hhist, hwaits⟩
  · intro s h hw hfull
    obtain ⟨t, ht, hhist, hwaits⟩ := slackHistoryWrite_does h hw
    have hpos : 1 ≤ s.fabric.history.length := by rw [hfull]; exact Nat.le_of_ble_eq_true rfl
    rw [← hfull, Nat.add_sub_cancel_left, List.drop_append_of_le_length hpos] at hhist
    exact ⟨t, ht, hhist, hwaits⟩
  · intro s h
    refine ⟨_, execSlackHistoryWrite_eq s, ?_⟩
    dsimp only
    rw [State.writeHistory_of_barred (by rw [State.slackDay_nvmBarred, h])]
    exact ⟨State.slackDay_history .., State.slackDay_historyWaits ..⟩
  · exact fun s e => ⟨_, rfl, rfl⟩
  · intro s
    refine ⟨_, execResidueRetryReport_eq s, ?_, fun e he hne => ?_⟩
    · rw [State.onFabric_fabric, State.reportCounts_fabric, s.periodic_fabric]
    · exact ((s.periodic 7 60000000000).reportCounts_saw (n := fun e => (s.engine e).retries) he hne).of_eq rfl (State.onFabric_sysNs ..)
  · exact fun s a n => ⟨_, rfl, rfl⟩
  · intro s
    refine ⟨_, execEccCorrectedReport_eq s, rfl, fun a ha hne => ?_⟩
    exact ((s.periodic 8 hourNs).reportCounts_saw (n := fun a => s.fabric.corrected.getD a 0) ha hne).of_eq rfl (State.onFabric_sysNs ..)

end Sys2Proof.Machine
end

section
/-! PROOFS. The family of engine faults (02 R60, R61, Table 2.11): its clause on the third fault fails for the warden, which a third fault
does not restart. -/
namespace Sys2Proof.Machine

/-- A module after reset whose warden, engine 22, has faulted twice at the present instant. -/
def State.wardenFaultedTwice : State :=
  State.reset.onFabric (fun f => { f with engines := f.engines.set 22 { Engine.reset with faults := [0, 0] } })

/-- The third fault leaves the module running: `State.faultSingle` skips the warden's action, so no start wait begins. -/
theorem State.wardenFaultedTwice_startWait : (State.wardenFaultedTwice.engineFault 22 3).time.startWait = none := by decide +kernel

/-- The action that the clause names for every engine would begin a start. -/
theorem State.wardenFaultedTwice_action_startWait :
    (((((State.wardenFaultedTwice.noteFault 22 3).faultAction 22).onEngine 22 (fun x => { x with failed := true })).internalFault 22
      true).raise Ev.engineFailed [22]).time.startWait ≠ none := by decide +kernel

/-- Refutes O3: by its eighth clause the third fault of the warden (engine 22) brings about `faultAction 22`, a new start of the module;
`State.engineFault` withholds that action from the warden, in agreement with R61, by which the engine is not restarted. -/
theorem not_engineFaults : ¬ Obligations.EngineFaults := by
  intro h
  obtain ⟨-, -, -, -, -, -, -, hthird, -⟩ := h
  have heq := hthird State.wardenFaultedTwice 22 3 (by decide +kernel) (by decide +kernel) (by decide +kernel) (by decide +kernel)
  refine State.wardenFaultedTwice_action_startWait ?_
  rw [← State.wardenFaultedTwice_startWait, heq]
  rfl

end Sys2Proof.Machine
end

section
/-! PROOFS. The time base (03 R64, R72, R77 to R87): an offset measured on the port in use, the move to another master, the twin's time, and
the statements of the time base and of the signed time commands. -/
namespace Sys2Proof.Machine

/-! ### A frame that has room (15 R389) -/

theorem State.ethIn_of_room {s : State} {ep : Nat} (h : s.ethRoom ep) (f : State → State) : s.ethIn ep f = f (s.arrived ep) := if_neg h

/-! ### An offset on the port in use (R78 to R83) -/

section
variable {s : State} {ep : Ep} {off : Int}

/-- The comparison of the ports changes its own counts, and may record an event. -/
theorem State.portSkew_eq (s : State) (ep : Ep) (off : Int) :
    ∃ po run r, s.portSkew ep off = { s with time := { s.time with portOffset := po, skewRun := run }, rec_ := r } := by
  unfold State.portSkew
  dsimp only
  split
  · exact ⟨_, _, _, State.ite_raise ..⟩
  · exact ⟨_, _, _, rfl⟩

/-- The state in which an offset of the serving port is judged. -/
def State.offsetSeen (s : State) (ep : Ep) (off : Int) : State :=
  ((s.portSkew ep off).onTime (fun x => { x with port := s.servoPort })).onTime (fun x => { x with offset := off })

theorem State.offsetSeen_eq (s : State) (ep : Ep) (off : Int) : ∃ po run r, s.offsetSeen ep off =
    { s with time := { s.time with portOffset := po, skewRun := run, port := s.servoPort, offset := off }, rec_ := r } := by
  obtain ⟨po, run, r, h⟩ := s.portSkew_eq ep off
  refine ⟨po, run, r, ?_⟩
  rw [State.offsetSeen, h]
  rfl

/-- In service and not refused, an offset of the master in force is refused by the jump test, or slewed away. -/
theorem State.measured_of_serving (hport : s.servoPort = ep) (hgm : s.time.gm ≠ none) (hf : s.isFollower = false)
    (hr : s.time.st ≠ .refused) (hs : s.inService = true) : s.measured ep off =
      if (s.time.jumpTest || !s.time.taken) && decide (s.jumpNs < mag off) then (s.offsetSeen ep off).refuseJump off
      else (s.offsetSeen ep off).onTime (fun x => { x.slew off with jumpTest := false, taken := true }) := by
  subst hport
  obtain ⟨po, run, r, h⟩ := s.portSkew_eq s.servoPort off
  have hfollow : State.isFollower { s with
      time := { s.time with portOffset := po, skewRun := run, port := s.servoPort, offset := off }, rec_ := r } = false := hf
  have hin : State.inService { s with
      time := { s.time with portOffset := po, skewRun := run, port := s.servoPort, offset := off }, rec_ := r } = true := hs
  unfold State.measured State.offsetSeen
  rw [h]
  simp only [State.onTime, hfollow, hin, hgm, hr, ne_eq, not_true_eq_false, or_self, if_false, Bool.not_true, Bool.false_and,
    Bool.false_eq_true, Bool.true_and]
  rfl

/-- An offset that the servo takes. -/
structure State.Slewed (s : State) (ep : Ep) (off : Int) (t : State) : Prop where
  increment : t.time.increment = incOf (Config.servo off s.time.dev)
  offset    : t.time.offset = off
  st        : t.time.st = lockState ep
  jumpTest  : t.time.jumpTest = false
  now       : t.now = s.now

theorem State.measured_slewed (hport : s.servoPort = ep) (hgm : s.time.gm ≠ none) (hf : s.isFollower = false)
    (hr : s.time.st ≠ .refused) (hs : s.inService = true)
    (hj : ((s.time.jumpTest || !s.time.taken) && decide (s.jumpNs < mag off)) = false) : s.Slewed ep off (s.measured ep off) := by
  obtain ⟨po, run, r, h⟩ := s.offsetSeen_eq ep off
  rw [State.measured_of_serving hport hgm hf hr hs, hj, h, hport]
  exact ⟨rfl, rfl, rfl, rfl, rfl⟩

theorem State.measured_refused (hport : s.servoPort = ep) (hgm : s.time.gm ≠ none) (hf : s.isFollower = false)
    (hr : s.time.st ≠ .refused) (hs : s.inService = true) (hj : s.time.jumpTest = true ∨ s.time.taken = false) (hoff : s.jumpNs < mag off) :
    (s.measured ep off).time.increment = s.time.increment ∧ (s.measured ep off).time.st = .refused
      ∧ (s.measured ep off).time.traceable = false
      ∧ (s.measured ep off).Saw Ev.timeJumpRefused [off, (s.time.gm.getD 0).toNat] := by
  obtain ⟨po, run, r, h⟩ := s.offsetSeen_eq ep off
  have hjump : ((s.time.jumpTest || !s.time.taken) && decide (s.jumpNs < mag off)) = true := by
    obtain hj | hj := hj <;> simp [hj, hoff]
  rw [State.measured_of_serving hport hgm hf hr hs, hjump, h]
  exact ⟨rfl, rfl, rfl, State.raise_saw ..⟩

end

/-! ### Follow_Up and Announce (R80, R82, R83) -/

section
variable {s : State} {ep : Fin 3}

/-- A frame has arrived, and the two-step Sync that it completes no longer waits. -/
def State.followed (s : State) (ep : Fin 3) : State := (s.arrived ep).onTime (fun x => { x with syncWait := x.syncWait.set ep none })

theorem execPtpFollowUp_of_wait (hroom : s.ethRoom ep) (hacc : s.ptpAccepts ep (Fld.ptpCfg_DOMAIN s.cfg) = true) {seq : BitVec 16} {w : Int}
    (hw : s.time.syncWait.getD ep none = some (seq, w)) (o c : Int) :
    exec (.ptpFollowUp ep (Fld.ptpCfg_DOMAIN s.cfg) seq o c) s = .next ((s.followed ep).measured ep (s.offsetOf ep w o c)) := by
  have hacc' : (s.arrived ep).ptpAccepts ep (Fld.ptpCfg_DOMAIN s.cfg) = true := hacc
  have hw' : (s.arrived ep).time.syncWait.getD ep none = some (seq, w) := hw
  show execPtpFollowUp ep (Fld.ptpCfg_DOMAIN s.cfg) seq o c s = _
  simp only [execPtpFollowUp, State.ethIn_of_room hroom, hw', hacc', decide_true, Bool.and_self, if_true]
  rfl

end

/-! ### The twin's time (R72, R73) -/

section
variable {s : State}

theorem State.pairSkew_eq (s : State) : ∃ since told r,
    s.pairSkew = { s with time := { s.time with pairSkewSince := since, pairSkewTold := told }, rec_ := r } :=
  ⟨_, _, _, State.ite_raise ..⟩

/-- What a time message of a link leaves before the follower acts on it. -/
def State.timeHeard (s : State) (link : Fin 2) (d : Int) (x : LeadTime) (same : Bool) : State :=
  let t := s.linkHeard link
  let u := if !same && !t.time.cfgDiff && t.isPair then t.raise Ev.timeCfgMismatch [] else t
  u.onTime (fun y => { y with cfgDiff := !same, pairResult := y.pairResult.set link (some d), leadOffset := x.offset })

variable (link : Fin 2) (d so : Int) (x : LeadTime) (same : Bool)

theorem State.timeHeard_time : (s.timeHeard link d x same).time =
    { s.time with cfgDiff := !same, pairResult := s.time.pairResult.set link (some d), leadOffset := x.offset } := by
  unfold State.timeHeard
  dsimp only
  split <;> rfl

theorem State.timeHeard_linkUp : (s.timeHeard link d x same).twin.linkUp = s.twin.linkUp.set link true := by
  unfold State.timeHeard
  dsimp only
  split <;> rfl

theorem State.timeHeard_isPair : (s.timeHeard link d x same).isPair = s.isPair := by
  unfold State.timeHeard
  dsimp only
  split <;> rfl

theorem State.timeHeard_inService : (s.timeHeard link d x same).inService = s.inService := by
  unfold State.timeHeard
  dsimp only
  split <;> rfl

theorem execPairTimeMessage_of_leader (h : s.isPair = false ∨ s.time.leader = true) :
    exec (.pairTimeMessage link d so x same) s = .next (s.timeHeard link d x same) := by
  refine congrArg Host.Outcome.next (if_pos ?_)
  change (!(s.timeHeard link d x same).isPair || (s.timeHeard link d x same).time.leader) = true
  rw [State.timeHeard_isPair, State.timeHeard_time]
  obtain h | h := h <;> simp [h]

/-- The state in which a follower acts on its leader's message. -/
def State.followed0 (s : State) (d : Int) (x : LeadTime) (same : Bool) : State := (s.timeHeard 0 d x same).pairSkew

theorem State.followed0_time : ∃ since told, (s.followed0 d x same).time = { s.time with
    cfgDiff := !same, pairResult := s.time.pairResult.set 0 (some d), leadOffset := x.offset
    pairSkewSince := since, pairSkewTold := told } := by
  obtain ⟨since, told, r, h⟩ := (s.timeHeard 0 d x same).pairSkew_eq
  exact ⟨since, told, by rw [State.followed0, h, State.timeHeard_time]; rfl⟩

theorem State.followed0_inService : (s.followed0 d x same).inService = s.inService := by
  obtain ⟨since, told, r, h⟩ := (s.timeHeard 0 d x same).pairSkew_eq
  rw [State.followed0, h]
  exact State.timeHeard_inService 0 d x same

/-- In the pair a follower acts on the message of the first link: it sets its counter once before service, and steers it from then on. -/
theorem execPairTimeMessage_of_follower (hp : s.isPair = true) (hl : s.time.leader = false) (hn : s.twin.linkUp.length = 2) :
    exec (.pairTimeMessage 0 d so x same) s = .next (
      if !s.inService && !s.time.setOnce then ((s.followed0 d x same).setCounter d).onTime (fun y => { y with
        stepOffset := so, st := if x.refused then TimeState.refused else .follower })
      else ((s.followed0 d x same).copyStep so).onTime (fun y => { y with
        increment := incOf (Config.servo d y.dev), locked := decide (mag d ≤ 100), traceable := x.traceable
        st := if x.refused then TimeState.refused else .follower })) := by
  have hacts : (!(s.timeHeard 0 d x same).isPair || (s.timeHeard 0 d x same).time.leader) = false := by
    rw [State.timeHeard_isPair, State.timeHeard_time, hp]; exact hl
  have hused : (if (s.timeHeard 0 d x same).twin.linkUp.getD 0 false = true then 0 else 1) = 0 := by
    rw [State.timeHeard_linkUp]
    exact if_pos (getD_set_self (by rw [hn]; decide))
  have hset : (s.followed0 d x same).time.setOnce = s.time.setOnce := by
    obtain ⟨_, _, h⟩ := State.followed0_time (s := s) d x same
    rw [h]
  rw [← State.followed0_inService d x same, ← hset]
  refine congrArg Host.Outcome.next ((if_neg (Bool.eq_false_iff.mp hacts)).trans (if_neg ?_))
  exact fun h => h hused.symm

theorem State.copyStep_time (s : State) (so : Int) :
    ∃ b, (s.copyStep so).time = { s.time with stepOffset := so, stepped := b } := by
  unfold State.copyStep
  split
  · next h => exact ⟨s.time.stepped, by rw [← h]⟩
  · exact ⟨true, rfl⟩

end

/-! ### The oscillator (R67) -/

theorem execOscFail_of_single {s : State} (h : s.actsSingle = true) : exec .oscFail s =
    .next (((s.raise Ev.oscFail []).onTime (fun x => { x with rateValid := false })).internalFault 255 false) :=
  congrArg Host.Outcome.next (if_pos h)

theorem execOscFail_of_pair {s : State} (h : s.actsSingle = false) : exec .oscFail s =
    .next (((s.raise Ev.oscFail []).onTime (fun x => { x with rateValid := false })).withdraw 2 false) :=
  congrArg Host.Outcome.next (if_neg (Bool.eq_false_iff.mp h))

/-! ### The statements -/

/-- Settles O4: offsets by `State.measured_of_serving`, the twin's messages by `execPairTimeMessage_of_follower`, the rest by each
command's definition. -/
theorem timeBaseCommands : Obligations.TimeBaseCommands := by
  refine ⟨?_, ?_, ?_, ?_, ?_, ?_, ?_, ?_, ?_, ?_, ?_, ?_, ?_, ?_, ?_, ?_, ?_, ?_, ?_, ?_, ?_, ?_⟩
  · -- a two-step Sync waits
    intro s ep seq i o c hroom hacc
    have hacc' : (s.arrived ep).ptpAccepts ep (Fld.ptpCfg_DOMAIN s.cfg) = true := hacc
    refine ⟨_, congrArg Host.Outcome.next (State.ethIn_of_room hroom _), ?_⟩
    simp only [hacc', Bool.not_true, Bool.false_eq_true, if_false, if_true]
  · -- a one-step Sync is slewed away
    intro s ep seq i o c hroom hacc hport hgm hf hr hs hj ht
    have hacc' : (s.arrived ep).ptpAccepts ep (Fld.ptpCfg_DOMAIN s.cfg) = true := hacc
    have hslew := State.measured_slewed (s := s.arrived ep) (ep := ep) (off := s.offsetOf ep i o c) hport hgm hf hr hs (by
      change ((s.time.jumpTest || !s.time.taken) && _) = false
      rw [hj, ht]; rfl)
    refine ⟨_, congrArg Host.Outcome.next (State.ethIn_of_room hroom _), ?_⟩
    simp only [hacc', Bool.not_true, Bool.false_eq_true, if_false]
    exact ⟨hslew.increment, hslew.offset, hslew.st, hslew.now⟩
  · -- an offset past JUMP_US is refused
    intro s ep seq w o c hroom hacc hw hport hf hr hs hgm hj hoff
    exact ⟨_, execPtpFollowUp_of_wait hroom hacc hw o c,
      State.measured_refused (s := s.followed ep) (ep := ep) hport hgm hf hr hs hj hoff⟩
  · -- one within JUMP_US is slewed away
    intro s ep seq w o c hroom hacc hw hport hf hr hs hgm _ hoff
    have hslew := State.measured_slewed (s := s.followed ep) (ep := ep) (off := s.offsetOf ep w o c) hport hgm hf hr hs (by
      rw [Bool.and_eq_false_iff]; exact .inr (decide_eq_false (Nat.not_lt.mpr hoff)))
    exact ⟨_, execPtpFollowUp_of_wait hroom hacc hw o c, hslew.increment, hslew.jumpTest, hslew.st⟩
  · -- another master is selected
    intro s ep old new other utc l61 l59 uv hroom hacc hlast hgm
    have hacc' : (s.arrived ep).ptpAccepts ep (Fld.ptpCfg_DOMAIN s.cfg) = true := hacc
    have hlast' : (s.arrived ep).time.gmLast = some old := hlast
    have hgm' : (s.arrived ep).time.gm ≠ some new := hgm
    refine ⟨_, congrArg Host.Outcome.next (State.ethIn_of_room hroom _), ?_⟩
    simp only [hacc', Bool.not_true, Bool.false_eq_true, if_false, State.onTime_time, hgm', State.newMaster, hlast']
    exact ⟨rfl, rfl, rfl, rfl, rfl, rfl, rfl, State.raise_saw ..⟩
  · intro s ep hsized
    exact ⟨_, rfl, rfl, getD_set_self (by rw [hsized.reqSeq]; exact ep.isLt)⟩
  · intro s ep seq t1 t2 t3 t4 hroom hseq hsized
    refine ⟨_, congrArg Host.Outcome.next ((State.ethIn_of_room hroom _).trans (if_pos hseq)), getD_set_self ?_⟩
    change ep.val < s.time.pathDelay.length
    rw [hsized.pathDelay]
    exact ep.isLt
  · intro s ep seq i hroom hacc hprofile
    refine ⟨_, congrArg Host.Outcome.next ((State.ethIn_of_room hroom _).trans (if_pos ?_)), rfl⟩
    rw [Bool.and_eq_true]
    exact ⟨hacc, decide_eq_true hprofile⟩
  · intro s ho hgm hr
    obtain ⟨g, hg⟩ := Option.ne_none_iff_exists'.mp hgm
    refine ⟨_, rfl, ?_⟩
    simp [ho, hg, hr, State.raise_saw]
  · intro s g old ho hlast
    refine ⟨_, rfl, ?_⟩
    simp only [ho, State.newMaster, State.onTime_time, hlast]
    exact ⟨rfl, rfl, rfl, State.raise_saw ..⟩
  · exact fun s hsrc hport => ⟨_, congrArg Host.Outcome.next (if_pos ⟨hsrc, hport⟩), rfl, rfl, rfl⟩
  · exact fun s hsrc hport => ⟨_, congrArg Host.Outcome.next (if_pos ⟨hsrc, hport⟩), rfl, rfl, rfl⟩
  · intro s n hwait
    obtain ⟨f, hf⟩ := s.advance_time n
    refine ⟨_, rfl, ?_⟩
    simp [hwait, hf]
  · exact fun s w hfind hw => ⟨_, rfl, State.expireBoth_does hfind hw _ _⟩
  · -- a leader, or a module without a partner, takes nothing over
    intro s l d so x same hacts hsized
    refine ⟨_, execPairTimeMessage_of_leader l d so x same hacts, ?_⟩
    dsimp only
    rw [State.timeHeard_time]
    exact ⟨getD_set_self (by rw [hsized.pairResult]; exact l.isLt), rfl, rfl, rfl⟩
  · -- a follower steers its counter
    intro s d so x same hp hl hsized hsteer
    have hnot : (!s.inService && !s.time.setOnce) = false := by obtain h | h := hsteer <;> simp [h]
    obtain ⟨since, told, htime⟩ := State.followed0_time (s := s) d x same
    obtain ⟨b, hstep⟩ := (s.followed0 d x same).copyStep_time so
    refine ⟨_, execPairTimeMessage_of_follower d so x same hp hl hsized.linkUp, ?_⟩
    simp only [hnot, Bool.false_eq_true, if_false, State.onTime_time, hstep, htime, TimeBase.dev, and_self]
  · -- and sets it once before service
    intro s d so x same hp hl hsized hs hset
    have hsets : (!s.inService && !s.time.setOnce) = true := by rw [hs, hset]; rfl
    obtain ⟨since, told, htime⟩ := State.followed0_time (s := s) d x same
    refine ⟨_, execPairTimeMessage_of_follower d so x same hp hl hsized.linkUp, ?_⟩
    simp only [hsets, if_true, State.onTime_time, State.setCounter, TimeBase.setBy, htime, and_self]
  · intro s l hp
    refine ⟨_, rfl, ?_⟩
    simp only [State.pairSendOn, hp, if_true, and_self]
  · intro s hp ha
    have hnot : s.actsSingle = false := by simp [State.actsSingle, hp, ha]
    exact ⟨_, execOscFail_of_pair hnot, rfl⟩
  · intro s h
    refine ⟨_, execOscFail_of_single h, ?_, State.internalFaultBy_safe .., ?_⟩
    · rw [State.internalFault, State.internalFaultBy_same (q := .time) _ _ _ _ (by decide)]; rfl
    · exact ((s.raise_saw Ev.oscFail []).of_eq (t := (s.raise Ev.oscFail []).onTime (fun x => { x with rateValid := false })) rfl rfl).mono
        (State.internalFaultBy_records ..)
  · exact fun s => ⟨_, rfl, rfl⟩
  · exact fun s => ⟨_, rfl, rfl, rfl⟩

/-- A step of the offset counts an epoch of the safety frames. -/
theorem State.stepTo_eq (s : State) (o : Int) : ∃ r, s.stepTo o = { s with
    time := { s.time with stepOffset := o, stepped := true }, safety := { s.safety with sfEpoch := s.safety.sfEpoch + 1 }, rec_ := r } :=
  ⟨_, rfl⟩

/-- A time command that its checks pass is accepted as a Both command. -/
theorem timeCommand_of_permitted {mode : Nat} {t : State} {d : Desc} (hrange : mode = 3 → eventValid (d.argLe 16 8) = true)
    (hp : t.timePermits mode = true) (hn : t.timeNames mode (BitVec.ofNat 64 (d.argLe 8 8)) = true) :
    timeCommand mode t d = .accept 0 (t.acceptBoth d.cmd).2 [] (t.acceptBoth d.cmd).1 := by
  have hvalid : ¬(mode = 3 ∧ (!eventValid (d.argLe 16 8)) = true) := fun h => by simp [hrange h.1] at h
  unfold timeCommand
  rw [if_neg hvalid, hp, hn]
  rfl

/-- Settles O5: the commands by `timeCommand_of_permitted`, their effects by the checks of `State.applyTime`. -/
theorem timeCommands : Obligations.TimeCommands := by
  refine ⟨?_, ?_, ?_, ?_, ?_, ?_, ?_⟩
  · intro s t q d hturn hr hgm
    refine congrArg Host.Outcome.next (hostRow_silent hturn (timeCommand_of_permitted nofun ?_ ?_))
    · exact decide_eq_true hr
    · exact Bool.or_eq_true _ _ ▸ .inr (decide_eq_true hgm)
  · intro s t q d hturn hr hgm
    refine congrArg Host.Outcome.next (hostRow_silent hturn (timeCommand_of_permitted nofun ?_ ?_))
    · exact decide_eq_true hr
    · exact Bool.or_eq_true _ _ ▸ .inr (decide_eq_true hgm)
  · intro s t q d hturn hvalid hsrc
    refine congrArg Host.Outcome.next (hostRow_silent hturn (timeCommand_of_permitted (fun _ => hvalid) ?_ rfl))
    simp [State.timePermits, hsrc]
  · intro s t q d hturn hr
    refine congrArg Host.Outcome.next (hostRow_refuse hturn ?_)
    have hp : t.timePermits 1 = false := decide_eq_false hr
    simp [timeCommand, hp]
  · exact fun s t q d hturn hl => congrArg Host.Outcome.next (hostRow_done hturn rfl (.inr hl))
  · intro s c hmode hr hgm hf
    have hp : (!s.timePermits 1 || !s.timeNames 1 (BitVec.ofNat 64 (leAt c.arg 8 8))) = false := by
      simp [State.timePermits, State.timeNames, hr, hgm]
    obtain ⟨r, hstep⟩ := s.stepTo_eq (s.time.stepOffset - s.time.offset)
    simp only [State.applyTime, hmode, hp, hf, hstep, Bool.false_eq_true, if_false, if_true]
    exact ⟨rfl, rfl, rfl, rfl⟩
  · intro s c hmode hsrc
    have hp : (!s.timePermits 3 || !s.timeNames 3 (BitVec.ofNat 64 (leAt c.arg 8 8))) = false := by
      simp [State.timePermits, State.timeNames, hsrc]
    obtain ⟨r, hstep⟩ := s.stepTo_eq ((nsOfEvent (leAt c.arg 16 8) : Int) - s.now)
    have hset : s.applyTime c = (s.stepTo ((nsOfEvent (leAt c.arg 16 8) : Int) - s.now)).onTime (fun x => { x with
        st := if x.st = .refused then .holdover else x.st, traceable := false, jumpTest := true }) := by
      simp [State.applyTime, hmode, hp]
    rw [hset, hstep]
    refine ⟨?_, rfl, rfl, ?_⟩
    · simp only [State.sysNs, State.now, State.onTime]
      omega
    · dsimp only [State.onTime]
      split
      · exact nofun
      · assumption

end Sys2Proof.Machine
end

section
/-! PROOFS. What the module does on the rings of its own accord (04 R89, R94, R97, R105 to R110): what a grid instant leaves to its rings, and
the statement of the family. -/
namespace Sys2Proof.Machine

/-! ### A grid instant (R94) -/

section
variable (s : State) (g : Nat) (sweep : Bool)

theorem State.launchEnd_emits (r : Nat) (e : End) : s.launchEnd g sweep r e = s ∨ ∃ o, s.launchEnd g sweep r e = s.emit o := by
  unfold State.launchEnd
  dsimp only
  split
  · exact .inl rfl
  · split
    · exact .inr ⟨_, rfl⟩
    · split <;> exact .inr ⟨_, rfl⟩

/-- Launching leaves everything but the outputs. -/
theorem State.launchEnd_keeps {β : Type} (f : State → β) (hf : ∀ (u : State) o, f (u.emit o) = f u) (r : Nat) (e : End) :
    f (s.launchEnd g sweep r e) = f s := by
  obtain h | ⟨o, h⟩ := s.launchEnd_emits g sweep r e
  · rw [h]
  · rw [h, hf]

theorem State.launched_keeps {β : Type} (f : State → β) (hf : ∀ (u : State) o, f (u.emit o) = f u) :
    f ((List.range 8).foldl (fun t r => (t.launchEnd g sweep r .a).launchEnd g sweep r .b) s) = f s :=
  State.foldl_keeps (g := f)
    (fun u r => ((u.launchEnd g sweep r .a).launchEnd_keeps g sweep f hf r .b).trans (u.launchEnd_keeps g sweep f hf r .a)) _ s

theorem State.launched_ring :
    ((List.range 8).foldl (fun t r => (t.launchEnd g sweep r .a).launchEnd g sweep r .b) s).ring = s.ring :=
  s.launched_keeps g sweep State.ring fun _ _ => rfl

theorem State.launched_prog :
    ((List.range 8).foldl (fun t r => (t.launchEnd g sweep r .a).launchEnd g sweep r .b) s).prog = s.prog :=
  s.launched_keeps g sweep State.prog fun _ _ => rfl

theorem State.closeInterval_ring (dio : BitVec 16) : (s.closeInterval g dio).ring = s.ring := by
  unfold State.closeInterval
  split
  · rfl
  · exact State.pairSend_same _ (q := .ring) _ (by decide)

theorem State.closeInterval_prog (dio : BitVec 16) : (s.closeInterval g dio).prog = s.prog := by
  unfold State.closeInterval
  split
  · rfl
  · exact State.pairSend_same _ (q := .prog) _ (by decide)

theorem State.ite_latchBus_ring : (if sweep = true then s.latchBus else s).ring = s.ring := by split <;> rfl

theorem State.ite_latchBus_prog : (if sweep = true then s.latchBus else s).prog = s.prog := by split <;> rfl

theorem State.impTick_of_idle (h : s.est.imp.phase = .idle) : s.impTick g = s := by
  simp only [State.impTick, h]

/-- Of the rings, an impedance run commands its stations alone. -/
theorem State.impTick_ring : ∃ l, (s.impTick g).ring = { s.ring with stations := l } := by
  unfold State.impTick
  dsimp only
  split
  · split <;> split <;> exact ⟨_, rfl⟩
  · exact ⟨_, rfl⟩

/-- Of the rings, their restoration changes the lines alone. -/
theorem State.restoreLine_ring (r : Nat) : ∃ l, (s.restoreLine g r).ring = { s.ring with lines := l } := by
  unfold State.restoreLine
  dsimp only
  split
  · split <;> exact ⟨_, rfl⟩
  · exact ⟨_, rfl⟩

theorem State.restored_ring :
    ∃ l, (if sweep = true then (List.range 8).foldl (fun t r => t.restoreLine g r) s else s).ring = { s.ring with lines := l } := by
  split
  · generalize List.range 8 = rs
    induction rs generalizing s with
    | nil => exact ⟨_, rfl⟩
    | cons r rs ih =>
      obtain ⟨l, h⟩ := ih (s.restoreLine g r)
      obtain ⟨l', h'⟩ := s.restoreLine_ring g r
      exact ⟨l, h.trans (by rw [h'])⟩
  · exact ⟨_, rfl⟩

/-- The sweep period that waits begins at a multiple of 4 ms. -/
def State.sweepDue (s : State) (g : Nat) : State := match s.fabric.sweepNext with
  | some p => if g % 4000000 = 0 then { s with fabric := { s.fabric with sweepUs := p, sweepNext := none } } else s
  | none => s

theorem State.sweepDue_ring : (s.sweepDue g).ring = s.ring := by
  unfold State.sweepDue
  split
  · split <;> rfl
  · rfl

end

/-- The rings once a sweep instant has restored those whose instant it is. -/
def State.gridRestored (s : State) (g : Nat) : State :=
  let u := ((s.advance g).impTick g).sweepDue g
  if decide (g % (u.fabric.sweepUs * 1000) = 0) = true then (List.range 8).foldl (fun t r => t.restoreLine g r) u else u

/-- The pins and the inputs at a grid instant, and its frames. -/
def State.gridSent (s : State) (g : Nat) (sweep : Bool) (dio : BitVec 16) : State :=
  let t := ((s.onProg (fun p => { p with dio := dio, dioOwn := dio })).gridInputs g).closeInterval g dio
  (List.range 8).foldl (fun t r => (t.launchEnd g sweep r .a).launchEnd g sweep r .b) (if sweep = true then t.latchBus else t)

section
variable (s : State) (g : Nat) (dio : BitVec 16)

theorem State.gridSent_ring (sweep : Bool) : (s.gridSent g sweep dio).ring = s.ring := by
  unfold State.gridSent
  dsimp only
  rw [State.launched_ring, State.ite_latchBus_ring, State.closeInterval_ring]
  rfl

theorem State.gridSent_dio (sweep : Bool) : (s.gridSent g sweep dio).prog.dio = dio := by
  unfold State.gridSent
  dsimp only
  rw [State.launched_prog, State.ite_latchBus_prog, State.closeInterval_prog]
  rfl

theorem State.gridRestored_ring : ∃ l, (s.gridRestored g).ring = { ((s.advance g).impTick g).ring with lines := l } := by
  obtain ⟨l, h⟩ := (((s.advance g).impTick g).sweepDue g).restored_ring g
    (decide (g % ((((s.advance g).impTick g).sweepDue g).fabric.sweepUs * 1000) = 0))
  rw [State.sweepDue_ring] at h
  exact ⟨l, h⟩

theorem execGridInstant_eq (fgi : Int) (hg : g = max (atOrAfter s.now 250000) (s.ring.grid + 250000)) : ∃ (sweep : Bool) (x : Ring),
    exec (.gridInstant fgi dio) s = .next ({ s.gridRestored g with ring := x }.gridSent g sweep dio)
    ∧ x.grid = g ∧ x.tcnt = (s.gridRestored g).ring.tcnt + 1 ∧ x.stations = (s.gridRestored g).ring.stations.map Station.issue := by
  show ∃ (sweep : Bool) (x : Ring), execGridInstant fgi dio s = _ ∧ _
  unfold execGridInstant
  rw [← hg]
  extract_lets _ ticked _ due sweep fg restored _ taken sent latched
  have hdue : due = ticked.sweepDue g := rfl
  have hrestored : restored = s.gridRestored g := by rw [State.gridRestored, ← hdue]
  clear_value restored
  subst hrestored
  exact ⟨sweep, taken.ring, rfl, rfl, rfl, rfl⟩

end

/-- What a grid instant leaves to the rings and the pins, whatever its sweep brings. -/
theorem gridInstant_does (s : State) (fgi : Int) (dio : BitVec 16) (g : Nat) (hg : g = max (atOrAfter s.now 250000) (s.ring.grid + 250000)) :
    Does (.gridInstant fgi dio) s fun t => t.ring.grid = g ∧ t.ring.tcnt = s.ring.tcnt + 1 ∧ t.prog.dio = dio
      ∧ t.ring.stations = ((s.advance g).impTick g).ring.stations.map Station.issue := by
  obtain ⟨sweep, x, heq, hgrid, htcnt, hst⟩ := execGridInstant_eq s g dio fgi hg
  obtain ⟨l, hrest⟩ := s.gridRestored_ring g
  obtain ⟨st, htick⟩ := (s.advance g).impTick_ring g
  have hadv : (s.advance g).ring = s.ring := by unfold State.advance; split <;> rfl
  refine ⟨_, heq, ?_⟩
  dsimp only
  rw [State.gridSent_ring, State.gridSent_dio]
  refine ⟨hgrid, htcnt.trans ?_, rfl, hst.trans ?_⟩
  · rw [hrest, htick, hadv]
  · rw [hrest]

/-! ### Collection (R108) -/

/-- Of one position, one run. -/
theorem runsOf_order_singleton (e : End) (p : Nat) : runsOf (order e [p]) = [[p]] := by cases e <;> rfl

theorem filter_range_eq_singleton {n p : Nat} (h : p < n) (f : Nat → Bool) (hf : ∀ q, f q = decide (q = p)) :
    (List.range n).filter f = [p] := by
  obtain rfl : f = fun q => q == p := funext hf
  rw [List.filter_beq, List.count_range, if_pos h]
  rfl

/-! ### A port that hears nothing (R89) -/

section
variable {s : State} {r : Nat}

theorem State.degrade_line (hr : r < s.ring.lines.length) (a b : Nat) :
    ∃ pos, (s.degrade r a b).line r = { s.line r with
      reachA := a, reachB := b, breakPos := pos, wholeSince := none, restoreAt := none, untold := none
      st := if a = 0 ∧ b = 0 then .down else .degraded } := by
  have hline := State.line_onLine (s := s) (i := r)
  unfold State.degrade
  dsimp only
  split
  · exact ⟨_, hline _ hr⟩
  · exact ⟨_, hline _ hr⟩

/-- The port of an end hears nothing. -/
def State.portSilent (s : State) (r : Nat) (e : End) : State := s.onLine r (fun l => { l with los := l.los.set (endIdx e) true })

theorem State.portSilent_line (hr : r < s.ring.lines.length) (e : End) :
    (s.portSilent r e).line r = { s.line r with los := (s.line r).los.set (endIdx e) true } := State.line_onLine _ hr

theorem State.portSilent_st (hr : r < s.ring.lines.length) (hst : (s.line r).st = .normal) (e : End) :
    ((s.portSilent r e).line r).st = .normal := by rw [State.portSilent_line hr]; exact hst

/-- The direction towards that end is broken. -/
def State.portLost (s : State) (r : Nat) (e : End) : State := (s.portSilent r e).onLine r (fun l => match e with
  | .a => { l with baOk := false }
  | .b => { l with abOk := false })

theorem State.portLost_length (e : End) : (s.portLost r e).ring.lines.length = s.ring.lines.length := by
  simp [State.portLost, State.portSilent]

theorem State.portLost_line (hr : r < s.ring.lines.length) (e : End) :
    (s.portLost r e).line r = { (s.line r) with
      los := (s.line r).los.set (endIdx e) true
      abOk := match e with | .a => (s.line r).abOk | .b => false
      baOk := match e with | .a => false | .b => (s.line r).baOk } := by
  have hr' : r < (s.portSilent r e).ring.lines.length := by simpa [State.portSilent] using hr
  refine (State.line_onLine _ hr').trans ?_
  rw [State.portSilent_line hr]
  cases e <;> rfl

/-- A normal ring one of whose ends hears nothing is served from the other end alone. -/
theorem execLossOfSignal_of_normal {r : Fin 8} (hr : r.val < s.ring.lines.length) {e : End} (hown : s.ownsEnd e = true)
    (hst : (s.line r).st = .normal) : exec (.lossOfSignal r e) s = .next (match e with
      | .a => (s.portLost r e).degrade r 0 (s.ringCount r)
      | .b => (s.portLost r e).degrade r (s.ringCount r) 0) := by
  have hown' : (s.portSilent r e).ownsEnd e = true := hown
  have hst' : ((s.portSilent r e).line r).st = .normal := State.portSilent_st hr hst e
  have hrun : (!(s.portSilent r e).ownsEnd e || !decide (((s.portSilent r e).line r).st = .normal ∨
      ((s.portSilent r e).line r).st = .degraded)) = false := by simp [hown', hst']
  have hdeg : ((s.portSilent r e).line r).st ≠ .degraded := by rw [hst']; decide
  refine congrArg Host.Outcome.next ((if_neg (Bool.eq_false_iff.mp hrun)).trans ?_)
  cases e
  · exact congrArg (fun n => (s.portLost r .a).degrade r 0 n) (if_neg hdeg)
  · exact congrArg (fun n => (s.portLost r .b).degrade r n 0) (if_neg hdeg)

end

/-! ### The statement -/


/-- Settles O6: a grid instant by `gridInstant_does`, a silent port by `execLossOfSignal_of_normal`, the rest by each command's definition. -/
theorem ringCommands : Obligations.RingCommands := by
  refine ⟨?_, ?_, ?_, ?_, ?_, ?_, ?_, ?_, ?_, ?_, ?_, ?_, ?_, ?_, ?_, ?_, ?_⟩
  · intro s fgi dio
    obtain ⟨t, ht, hgrid, htcnt, hdio, -⟩ := gridInstant_does s fgi dio _ rfl
    exact ⟨t, ht, hgrid, htcnt, hdio⟩
  · intro s fgi dio hidle
    obtain ⟨t, ht, -, -, -, hst⟩ := gridInstant_does s fgi dio _ rfl
    refine ⟨t, ht, hst.trans ?_⟩
    rw [State.impTick_of_idle]
    · unfold State.advance; split <;> rfl
    · unfold State.advance; split <;> exact hidle
  · intro s g r e hst hat hown hsend
    simp [State.launchEnd, hst, hat, hown, hsend]
    split <;> rfl
  · intro s g r e hst hat hown hsend
    simp [State.launchEnd, hst, hat, hown, hsend]
  · intro s r w hcur hst hp hseen hrel
    refine ⟨_, rfl, ?_⟩
    have hcol : s.collectingEnd = .a := by
      have hj : s.isJunior = false := by simp_all [State.isPair, State.isJunior]
      simp [State.collectingEnd, hj]
    simp [hcur, hcol, hrel, hst, hseen, State.ownsEnd, hp]
  · intro s w hcur
    refine ⟨_, congrArg Host.Outcome.next (by rw [hcur]), rfl⟩
  · intro s r e k p at_ howed hplace hp hst hown hsend
    refine ⟨_, rfl, ?_⟩
    simp [howed, hplace, hst, hown, hsend]
    have hone : (List.range (s.ringCount r)).filter (fun q => decide (p = q)) = [p] :=
      filter_range_eq_singleton hp _ fun q => by simp [eq_comm]
    rw [hone, runsOf_order_singleton]
    rfl
  · intro s r hsz hown hst hn
    have hr := hsz.line_lt r
    obtain ⟨pos, hd⟩ := State.degrade_line ((State.portLost_length .a).symm ▸ hr) 0 (s.ringCount r)
    refine ⟨_, execLossOfSignal_of_normal hr hown hst, ?_⟩
    dsimp only
    rw [hd, State.portLost_line hr]
    exact ⟨if_neg (fun h => hn h.2), rfl, rfl, rfl⟩
  · intro s r hsz hown hst hn
    have hr := hsz.line_lt r
    obtain ⟨pos, hd⟩ := State.degrade_line ((State.portLost_length .b).symm ▸ hr) (s.ringCount r) 0
    refine ⟨_, execLossOfSignal_of_normal hr hown hst, ?_⟩
    dsimp only
    rw [hd, State.portLost_line hr]
    exact ⟨if_neg (fun h => hn h.1), rfl, rfl, rfl⟩
  · exact fun s r e => ⟨_, rfl, rfl⟩
  · intro s hp hpath
    exact ⟨_, congrArg Host.Outcome.next (if_pos (by rw [hp, hpath]; rfl)), rfl⟩
  · intro s r w hsz hw hst hle
    have hr := hsz.line_lt r
    refine ⟨_, rfl, ?_⟩
    simp only [hw, hst, hle, true_and, if_true, State.line_onLine _ hr]
  · intro s g r a hsz hr hat hle hg
    have hr : r < s.ring.lines.length := by rw [hsz.lines]; exact hr
    have hrest : s.restoreLine g r = (s.onLine r (fun l => { l with
        st := .normal, reachA := s.ringCount r, reachB := s.ringCount r, breakPos := 7, wholeSince := none, untold := none
        restoreAt := none })).raise Ev.ringRestored [r] := by
      simp only [State.restoreLine, hat, hle, hg, and_self, if_true]
    have hline := State.line_onLine (s := s) (i := r) (fun l => { l with
        st := .normal, reachA := s.ringCount r, reachB := s.ringCount r, breakPos := 7, wholeSince := none, untold := none
        restoreAt := none }) hr
    rw [hrest]
    exact ⟨congrArg RingLine.st hline, congrArg RingLine.reachA hline, congrArg RingLine.reachB hline, State.raise_saw ..⟩
  · intro s k r p hplace hp
    refine ⟨_, rfl, ?_⟩
    simp [hplace, hp, State.ringService, State.ownEnd, State.ownsEnd]
  · intro s k r p hplace hp hl
    refine ⟨_, rfl, ?_⟩
    simp [hplace, hp, hl]
  · intro s k r p rt tot o hplace hsz
    refine ⟨_, rfl, ?_⟩
    have hk := hsz.station_lt k
    have hst := State.station_onStation (s := s) (i := k) (fun x => { x with delay := Config.quot ((rt : Int) - tot) 2 + o }) hk
    simp only [hplace]
    exact congrArg Station.delay hst
  · intro s r hsz
    have hr := hsz.line_lt r
    exact ⟨_, rfl, rfl, congrArg RingLine.crcErr (State.line_onLine (s := s) (fun l => { l with crcErr := 0 }) hr)⟩

end Sys2Proof.Machine
end

section
/-! PROOFS. What comes in from a ring (04 R91, R93, R102 to R104, R107): a SWEEP cut short, a slot of which nothing arrived whole, the end of
a station's start, and the statement of the family. -/
namespace Sys2Proof.Machine

section
variable {s : State} {r : Nat}

/-! ### A frame that crosses (R107) -/

/-- A break without a place changes the lines alone. -/
theorem State.breakUnplaced_eq (s : State) (r : Nat) : ∃ l, s.breakUnplaced r = { s with ring := { s.ring with lines := l } } := by
  unfold State.breakUnplaced
  split <;> exact ⟨_, rfl⟩

/-- A crossing changes the lines alone. -/
theorem State.crossed_eq (s : State) (r : Nat) (e : End) (whole : Bool) :
    ∃ l, s.crossed r e whole = { s with ring := { s.ring with lines := l } } := by
  unfold State.crossed
  dsimp only
  split
  · exact State.breakUnplaced_eq _ r
  · cases e <;> dsimp only <;> split <;> exact ⟨_, rfl⟩

theorem State.takeSlots_same (s : State) (r : Nat) (e : End) (first count grid : Nat) (late : Bool) (receipt : Nat) (b : List Byte) {q : Part}
    (hq : q ∉ [Part.ring, .rec_, .out]) : q.same s (s.takeSlots r e first count grid late receipt b) := by
  have head := Part.may_among_head
  have tail := Part.may_among_tail
  exact (State.takeSlots_holds (R := false) (.refl nofun)).same_of_not_mem hq

theorem State.isPair_of_same {t : State} (hchain : t.chain = s.chain) (hlife : t.life = s.life) : t.isPair = s.isPair := by
  have hcls : t.cls = s.cls := by simp only [State.cls, hchain, hlife]
  simp only [State.isPair, hcls]

/-- A SWEEP from the A-end that reaches the B-end of a single module cut short is a break, and its slots are taken. -/
theorem execRingFrameReceived_of_cut {r : Fin 8} {b : List Byte} (hp : s.isPair = false) (hlen : 16 ≤ b.length)
    (hcrc : crc16 (slice b 0 14) = leAt b 14 2) (hring : byteAt b 1 % 8 = r.val) (hst : (s.line r).st = .normal)
    (htype : byteAt b 0 % 16 = 1) (hdir : byteAt b 0 / 16 % 4 = 0) : exec (.ringFrameReceived r .b b true) s =
      .next ((s.crossed r .a false).takeSlots r .a (byteAt b 2 % 8) (byteAt b 2 / 8 % 8) (leAt b 4 2) false s.now b) := by
  obtain ⟨l, hx⟩ := s.crossed_eq r .a false
  have hown : s.ownsEnd .b = true := by simp [State.ownsEnd, hp]
  have hfrom : dirEnd (byteAt b 0) = .a := if_pos (by omega)
  have hwrap : byteAt b 0 / 32 % 2 = 0 := by omega
  have hpair (first count grid receipt : Nat) : ((s.crossed r .a false).takeSlots r .a first count grid false receipt b).isPair = false := by
    rw [State.isPair_of_same (State.takeSlots_same _ r .a first count grid false receipt b (q := .chain) (by decide))
      (State.takeSlots_same _ r .a first count grid false receipt b (q := .life) (by decide)), hx]
    exact hp
  have hnow : (s.crossed r .a false).now = s.now := by rw [hx]; rfl
  show execRingFrameReceived r .b b true s = _
  simp [execRingFrameReceived, hown, Nat.not_lt.mpr hlen, hcrc, hring, hst, htype, hfrom, hwrap, hpair, hnow]

/-! ### A slot of which nothing arrived whole (R93) -/

/-- It changes the lines' counts alone. -/
theorem State.takeSlot_of_nothing {p grid receipt : Nat} {late keep : Bool} {b : List Byte}
    (hprim : (checkSlot (slotSeed r p grid) b).prim = none) (hsec : (checkSlot (slotSeed r p grid) b).sec = none)
    (hside : (checkSlot (slotSeed r p grid) b).side = none) :
    s.takeSlot r p grid late keep receipt b = s.onLine r (fun l => { l with
      crcErr := min 65535 (l.crcErr + (checkSlot (slotSeed r p grid) b).bad) }) := by
  unfold State.takeSlot
  dsimp only
  split
  · rfl
  · simp [hprim, hsec, hside, State.putResult]

end

/-! ### The statement -/

/-- Settles O7: the crossing of a frame by `execRingFrameReceived_of_cut`, an empty slot by `State.takeSlot_of_nothing`, the rest by each
command's definition. -/
theorem ringReception : Obligations.RingReception := by
  refine ⟨?_, ?_, ?_, ?_, ?_, ?_⟩
  · intro s r e b c hown hm hsz
    have hline := State.line_onLine (fun l => { l with miswired := true }) (hsz.line_lt r)
    refine ⟨((s.onLine r (fun l => { l with miswired := true })).raise Ev.ringMiswired [r.val, endIdx e]), ?_, ?_, State.raise_saw ..⟩
    · show execRingFrameReceived r e b c s = _
      simp [execRingFrameReceived, hown, hm]
    · exact congrArg RingLine.miswired hline
  · intro s r e b c hown hbad
    refine ⟨_, ?_, rfl⟩
    show execRingFrameReceived r e b c s = _
    simp only [execRingFrameReceived, hown, hbad, Bool.not_true, Bool.false_eq_true, if_false, if_true]
  · exact fun s r b hp hlen hcrc hring hst htype hdir => ⟨_, execRingFrameReceived_of_cut hp hlen hcrc hring hst htype hdir, rfl⟩
  · intro s r p grid receipt late keep b hprim hsec hside
    rw [State.takeSlot_of_nothing hprim hsec hside]
    exact ⟨rfl, rfl, rfl, rfl⟩
  · intro s r e p k kind hk hown hs
    refine ⟨_, rfl, ?_⟩
    simp [hk, hown, hs, State.ringService]
  · intro s r e p k hk hown hs hsz hlt
    have hk' : k < s.ring.stations.length := by rw [hsz.stations]; exact hlt
    have h1 := State.station_onStation (fun x => { x with starting := false, unconf := false }) hk'
    have h2 := State.station_onStation (s := s.onStation k (fun x => { x with starting := false, unconf := false })) (i := k)
      (fun x => x.resync x.cnt false) (by rw [State.onStation_count]; exact hk')
    refine ⟨_, rfl, ?_⟩
    have hlast : ¬((2 : Nat) = 0) ∧ ¬((2 : Nat) = 1) := by decide
    simp only [hk, hown, hs, hlast, Bool.not_true, Bool.or_self, Bool.false_eq_true, if_false, h2, h1]
    exact ⟨rfl, rfl, rfl⟩

end Sys2Proof.Machine
end

section
/-! PROOFS. How stations are found, lost, returned and loaded (04 R98, R100, R103, R111, R114, R115, 01 R24, R27, 18 R456). -/
namespace Sys2Proof.Machine

section
variable {s : State}

/-! ### A ring start (R103) -/

/-- A single module asks from both ends. -/
theorem State.ringStart_of_single {r : Nat} (hp : s.isPair = false) (hn : s.ringCount r ≠ 0) : ∃ (x : Ring) (m : Meas),
    s.ringStart r = ({ s with ring := x, meas := m }.ringService r .a 4 0 []).ringService r .b 4 0 []
    ∧ x.lines = modAt s.ring.lines r (fun l => { RingLine.reset with st := .start, crcErr := l.crcErr, los := l.los }) := by
  have hown (x : Ring) (m : Meas) (e : End) : State.ownsEnd { s with ring := x, meas := m } e = true := by
    have : State.isPair { s with ring := x, meas := m } = false := hp
    simp [State.ownsEnd, this]
  have hsome : ¬(mapCommitted s.cfg && decide (s.ringCount r = 0)) = true := by simp [hn]
  exact ⟨_, _, (if_neg hsome).trans ((if_pos (hown _ _ .b)).trans (congrArg (fun u => State.ringService u r .b 4 0 []) (if_pos (hown _ _ .a)))),
    rfl⟩

theorem State.configureRing_lines (s : State) (r : Nat) : (s.configureRing r).ring.lines = s.ring.lines := by
  refine State.foldl_keeps (g := fun u : State => u.ring.lines) (fun u p => ?_) _ s
  split
  · split
    · rfl
    · split <;> rfl
  · rfl

/-- A ring that both ends crossed whole is normal, with every station within reach of either. -/
theorem ringStartDone_does {r : Fin 8} (hst : (s.line r).st = .start) (hsz : s.sized) (hmap : mapCommitted s.cfg = true)
    (hall : (s.line r).answered = true) (hw : (s.line r).whole = true) (hn : s.ringNumber r ≠ 0) : Does (.ringStartDone r) s fun t =>
      (t.line r).st = .normal ∧ (t.line r).reachA = s.ringNumber r ∧ (t.line r).reachB = s.ringNumber r
      ∧ (t.line r).startAt = nextMultiple s.now 4000000 := by
  have hsilent : s.silentEnds r = s := if_pos hall
  have hr : r.val < (s.configureRing r).ring.lines.length := by rw [State.configureRing_lines]; exact hsz.line_lt r
  have hline : (s.configureRing r).line r = s.line r := by simp only [State.line, State.configureRing_lines]
  refine ⟨_, rfl, ?_⟩
  simp [hst, hmap, hsilent, hw, hn, State.line_onLine _ hr, hline]

/-! ### Command counts (R100) -/

/-- The check of one station's command counts. -/
def State.cmdCountCheck (t : State) (k : Nat) : State :=
  let x := t.station k
  if x.issued = x.executed + x.gaps + x.refused + x.waitingCnt then t
  else t.raise Ev.ringCmdCount [stationNo k, x.issued, x.executed, x.gaps, x.refused, x.waitingCnt]

theorem State.cmdCountCheck_ring (t : State) (k : Nat) : (t.cmdCountCheck k).ring = t.ring := by
  unfold State.cmdCountCheck
  dsimp only
  split <;> rfl

theorem State.cmdCountCheck_records (t : State) (k : Nat) : t.Records (t.cmdCountCheck k) :=
  .ite (.refl t) (t.raise_records ..)

theorem State.cmdCountCheck_of_sum {k : Nat} (h : (s.station k).issued =
    (s.station k).executed + (s.station k).gaps + (s.station k).refused + (s.station k).waitingCnt) : s.cmdCountCheck k = s := if_pos h

theorem State.cmdCountChecks_of_sums {l : List Nat} (h : ∀ k ∈ l, (s.station k).issued =
    (s.station k).executed + (s.station k).gaps + (s.station k).refused + (s.station k).waitingCnt) : l.foldl State.cmdCountCheck s = s := by
  induction l with
  | nil => rfl
  | cons k l ih =>
    rw [List.foldl_cons, State.cmdCountCheck_of_sum (h k List.mem_cons_self)]
    exact ih fun j hj => h j (List.mem_cons_of_mem _ hj)

/-- A station whose counts do not add up is told, whatever the checks of the stations before it recorded. -/
theorem State.cmdCountChecks_saw {k : Nat} {l : List Nat} (hk : k ∈ l) (h : (s.station k).issued ≠
    (s.station k).executed + (s.station k).gaps + (s.station k).refused + (s.station k).waitingCnt) :
    (l.foldl State.cmdCountCheck s).Saw Ev.ringCmdCount [stationNo k, (s.station k).issued, (s.station k).executed,
      (s.station k).gaps, (s.station k).refused, (s.station k).waitingCnt] := by
  obtain ⟨l₁, l₂, rfl⟩ := List.append_of_mem hk
  have hring : (l₁.foldl State.cmdCountCheck s).ring = s.ring := State.foldl_keeps (g := State.ring) State.cmdCountCheck_ring l₁ s
  have hx : (l₁.foldl State.cmdCountCheck s).station k = s.station k := by simp only [State.station, hring]
  have hsaw : ((l₁.foldl State.cmdCountCheck s).cmdCountCheck k).Saw Ev.ringCmdCount [stationNo k, (s.station k).issued,
      (s.station k).executed, (s.station k).gaps, (s.station k).refused, (s.station k).waitingCnt] := by
    rw [State.cmdCountCheck, hx, if_neg h]
    exact State.raise_saw ..
  rw [List.foldl_append, List.foldl_cons]
  exact hsaw.mono (.foldl State.cmdCountCheck_records l₂ _)

/-! ### Stations loaded (18 R456) -/

theorem execStationFwLoadDone_of_ring {n : Fin 8} {v : Word} : exec (.stationFwLoadDone false n v) s =
    .next (s.onRing (fun r => { r with stations := mapIdxL (fun k (x : Station) =>
      if ((s.map.filter (fun m => decide (m.2.1 = n.val))).map (fun m => m.1)).contains k && x.present && decide (v = s.preferred k)
      then s.loadStation (decide ((s.line n).st = .start)) k x else x) r.stations })) := rfl

end

/-! ### The statement -/

/-- Settles O8: the end of a start by `ringStartDone_does`, the counts by `State.cmdCountChecks_saw`, the rest by each command's
definition. -/
theorem stationCommands : Obligations.StationCommands := by
  refine ⟨?_, ?_, ?_, ?_, ?_, ?_, ?_, ?_, ?_, ?_, ?_, ?_, ?_, ?_, ?_⟩
  · intro s r hmap hn
    exact ⟨_, congrArg Host.Outcome.next (if_pos (by rw [hmap, hn]; rfl)), rfl⟩
  · intro s r hsz hp hn
    obtain ⟨x, m, heq, hx⟩ := State.ringStart_of_single hp hn
    have hline := modAt_getD_self s.ring.lines r (fun l => { RingLine.reset with st := .start, crcErr := l.crcErr, los := l.los })
      RingLine.reset (hsz.line_lt r)
    refine ⟨_, congrArg Host.Outcome.next heq, ?_, rfl⟩
    rw [← hx] at hline
    exact congrArg RingLine.st hline
  · exact fun s r e w f hst => ⟨_, congrArg Host.Outcome.next (if_neg (fun h => h hst)), rfl⟩
  · intro s r hst hall href
    rw [State.judgeRing, if_pos ⟨hst, hall⟩, if_pos href]
    rfl
  · exact fun s r hst hsz hmap hall hw hn => ringStartDone_does hst hsz hmap hall hw hn
  · intro s n hn hk hst
    refine ⟨_, rfl, ?_⟩
    have hready : (decide (s.links ≤ n) || !(s.receiver n).known || decide (s.gate.stage ≠ .off ∧ s.gate.stage ≠ .armed)) = false := by
      obtain hst | hst := hst <;> simp [hk, hst, hn]
    simp only [if_true]
    exact if_neg (Bool.eq_false_iff.mp hready)
  · intro s n k p hmem hsz hk hpres
    refine ⟨_, execStationFwLoadDone_of_ring, ?_⟩
    have hmine : ((s.map.filter (fun m => decide (m.2.1 = n.val))).map (fun m => m.1)).contains k = true := by
      simpa using ⟨p, hmem⟩
    have hpres' : (s.ring.stations.getD k Station.reset).present = true := hpres
    simp only [State.station, State.onRing_ring]
    rw [mapIdxL_getD _ _ (by rw [hsz.stations]; exact hk) Station.reset, hmine, hpres', decide_eq_true rfl]
    rfl
  · intro s k x hne
    refine ⟨?_, ?_, ?_, ?_⟩
    · simp [State.loadStation, hne]
    · simp [State.loadStation, hne]
    · intro hl
      simp [State.loadStation, hne, hl]
    · intro hl
      simp [State.loadStation, hne, hl]
  · intro s k v hv hsz
    refine ⟨_, rfl, ?_⟩
    dsimp only
    rw [State.station_onStation _ (hsz.station_lt k), hv]
    exact ⟨rfl, rfl⟩
  · intro s n h
    refine ⟨_, rfl, ?_⟩
    have hst (k : Nat) : (s.advance (n * 1000000000)).station k = s.station k := by simp only [State.station, State.advance_ring]
    exact State.cmdCountChecks_of_sums (s := s.advance (n * 1000000000)) fun k hk => by rw [hst]; exact h k (List.mem_range.mp hk)
  · intro s n k hk hne
    have hst : (s.advance (n * 1000000000)).station k = s.station k := by simp only [State.station, State.advance_ring]
    refine ⟨(List.range 34).foldl State.cmdCountCheck (s.advance (n * 1000000000)), rfl, ?_, ?_⟩
    · rw [← hst]
      exact State.cmdCountChecks_saw (List.mem_range.mpr hk) (by rw [hst]; exact hne)
    · exact (State.foldl_keeps (g := State.ring) State.cmdCountCheck_ring _ _).trans (s.advance_ring _)
  · intro s k hm hl hd
    exact ⟨_, congrArg Host.Outcome.next (if_pos (by rw [hm, hl, decide_eq_true hd]; rfl)), rfl⟩
  · intro s k hm hl hd
    exact ⟨_, congrArg Host.Outcome.next (if_pos (by rw [hm, hl, decide_eq_true hd]; rfl)), rfl⟩
  · intro s k hl hd hu
    exact ⟨_, congrArg Host.Outcome.next (if_pos (by rw [hl, hu, decide_eq_true hd]; rfl)), rfl⟩
  · intro s k hl hd
    exact ⟨_, congrArg Host.Outcome.next (if_pos (by rw [hl, decide_eq_true hd]; rfl)), rfl⟩

end Sys2Proof.Machine
end

section
/-! PROOFS. Cell measurement and balancing (05): the comparison of the currents, a cell's comparison of a second, balancing counters, and the
statements of both families. -/
namespace Sys2Proof.Machine

section
variable {s : State}

/-! ### The string current (R123) -/

/-- At the end of a second its sums start again. -/
def State.secondSumsBegin (s : State) : State := s.onMeas (fun m => { m with curSum := [0, 0, 0, 0, 0], curN := [0, 0, 0, 0, 0] })

theorem State.secondSumsBegin_meas (s : State) :
    s.secondSumsBegin.meas = { s.meas with curSum := [0, 0, 0, 0, 0], curN := [0, 0, 0, 0, 0] } := rfl

theorem State.secondSumsBegin_rec_ (s : State) : s.secondSumsBegin.rec_ = s.rec_ := rfl

theorem State.secondSumsBegin_sysNs (s : State) : s.secondSumsBegin.sysNs = s.sysNs := rfl

/-- The second's means have been compared. -/
def State.currentsCompared (s : State) (n : Nat) : State :=
  (s.advance (n * secNs)).onMeas (fun m => m.compare (s.advance (n * secNs)).now)

theorem State.currentsCompared_meas (n : Nat) : (s.currentsCompared n).meas = s.meas.compare (s.advance (n * secNs)).now := by
  rw [State.currentsCompared, State.onMeas_meas, State.advance_meas]

theorem State.currentsCompared_rec_ (n : Nat) : (s.currentsCompared n).rec_ = s.rec_ := by
  rw [State.currentsCompared, State.onMeas_rec_, State.advance_rec_]

theorem execCurrentCompare_eq (s : State) (n : Nat) : exec (.currentCompare n) s =
    .next (if (s.currentsCompared n).meas.disRun = 3 then (s.currentsCompared n).disagree else s.currentsCompared n).secondSumsBegin := rfl

/-- A run of disagreeing seconds reaches three in its third second alone. -/
theorem Meas.compare_disRun_eq_three {m : Meas} {now : Nat} : (m.compare now).disRun = 3 ↔ m.disRun = 2 ∧ m.apart 0 1 = true := by
  simp only [Meas.compare]
  split
  · next h => simp only [h, and_true]; omega
  · next h => simp [h]

theorem State.bookPath_records (s : State) (kind old new : Nat) (nC : Int) (fromT : Nat) : s.Records (s.bookPath kind old new nC fromT) := by
  exact ⟨⟨[_], rfl⟩, rfl⟩

theorem State.bookJudgement_records (s : State) (old new : Nat) : s.Records (s.bookJudgement old new) := by
  unfold State.bookJudgement
  dsimp only
  split
  · exact .refl s
  · split
    · exact .refl s
    · split
      · exact s.bookPath_records ..
      · exact .refl s

/-- The event is the first thing that a disagreement brings. -/
theorem State.disagree_saw (s : State) : s.disagree.Saw Ev.currentDisagree
    ((List.range 3).map (fun j => meanOf (s.meas.curSum.getD j 0) (s.meas.curN.getD j 0)) ++ [(judge s.meas.curSum s.meas.curN : Int)]) := by
  unfold State.disagree
  extract_lets m v t old _ u
  have hsaw : t.Saw Ev.currentDisagree _ := s.raise_saw Ev.currentDisagree _
  split
  · exact hsaw
  · split
    · exact State.Saw.mono (hsaw.of_eq (t := u) rfl rfl) (u.bookJudgement_records old u.ledgerPath)
    · exact hsaw.of_eq rfl rfl

/-- At an instant the judgement of the paths that agree since `a` ends. -/
def State.judgementEnd (s : State) (a x : Nat) : State := { s.advance x with
  meas := { (s.advance x).meas with
    wrong := mapIdxL (fun j (b : Bool) => b && decide ((s.advance x).meas.agreeFrom.getD j none ≠ some a)) (s.advance x).meas.wrong }
  ledger := { (s.advance x).ledger with held := none, heldFg := 0 } }

theorem State.judgementEnd_wrong (s : State) (a x : Nat) : (s.judgementEnd a x).meas.wrong =
    mapIdxL (fun j (b : Bool) => b && decide (s.meas.agreeFrom.getD j none ≠ some a)) s.meas.wrong := by
  rw [State.judgementEnd, State.advance_meas]

theorem State.judgementEnd_now (s : State) (a x : Nat) : (s.judgementEnd a x).now = (s.advance x).now := State.now_of_time _ rfl

theorem execCurrentJudgementEnd_of_agreed {a : Nat} (h : s.meas.judgedFrom = some a) :
    exec .currentJudgementEnd s = .next (s.judgementEnd a (a + 60 * secNs)) := by
  show execCurrentJudgementEnd s = _
  rw [execCurrentJudgementEnd, h]
  rfl

/-! ### A cell's comparison of a second (R125) -/

/-- The means of a cell's two chains lie too far apart in the second. -/
def State.cellFar (s : State) (c : Nat) : Prop :=
  (s.cell c).n ≠ 0 ∧ Fld.measCfg_PS s.cfg * 1000 * (s.cell c).n < mag ((s.cell c).sumP - (s.cell c).sumS)

/-- The state in which a cell's tenth such second in a row is told: the chain whose sum does not hold is flagged. -/
def State.cellFlagged (s : State) (c : Nat) : State := s.onCell c (fun y => { y with
  psRun := 10, sumP := 0, sumS := 0, n := 0
  flagP := !s.sumHolds (c / 16) 0 && s.sumHolds (c / 16) 1, flagS := s.sumHolds (c / 16) 0 && !s.sumHolds (c / 16) 1 })

theorem State.cellFlagged_cell {c : Nat} (hc : c < s.meas.cells.length) :
    ((s.cellFlagged c).onCell c (fun y => { y with psAt := some s.now })).cell c = { s.cell c with
      psRun := 10, sumP := 0, sumS := 0, n := 0, psAt := some s.now
      flagP := !s.sumHolds (c / 16) 0 && s.sumHolds (c / 16) 1, flagS := s.sumHolds (c / 16) 0 && !s.sumHolds (c / 16) 1 } := by
  rw [State.cell_onCell _ (by rw [State.cellFlagged, State.onCell_count]; exact hc), State.cellFlagged, State.cell_onCell _ hc]

theorem State.compareCell_of_tenth {c : Nat} (hrun : (s.cell c).psRun = 9) (hfar : s.cellFar c) : s.compareCell c =
    ((((s.cellFlagged c).raise Ev.measDisagree [c, meanOf ((s.cell c).sumP - (s.cell c).sumS) (s.cell c).n]).onCell c
      (fun y => { y with psAt := some s.now })).orderTest (c / 16) (c % 16)).orderTest (c / 16) (c % 16 + 1) := by
  obtain ⟨hn, hd⟩ := hfar
  simp [State.compareCell, hrun, hn, hd, State.cellFlagged]
  rfl

/-! ### Balancing counters (R135, R140, R141) -/

/-- LEAD bits change cells and record events. -/
theorem State.leadBit_eq (s : State) (k c : Nat) (bad : Bool) : ∃ l r, s.leadBit k c bad = { s with meas := { s.meas with cells := l }, rec_ := r } := by
  unfold State.leadBit
  extract_lets x run t
  split <;> exact ⟨_, _, rfl⟩

theorem State.leadBit_records (s : State) (k c : Nat) (bad : Bool) : s.Records (s.leadBit k c bad) := by
  unfold State.leadBit
  extract_lets x run t
  split
  · exact ⟨⟨[_], rfl⟩, rfl⟩
  · exact .of_eq rfl rfl

/-- The LEAD bits of a message, taken one after another. -/
def State.leadBits (s : State) (k : Nat) (b : List Byte) : State :=
  (List.range 16).foldl (fun u c => u.leadBit k c (decide (leAt b 68 2 / 2 ^ c % 2 = 1))) s

theorem State.leadBits_eq (s : State) (k : Nat) (b : List Byte) :
    ∃ l r, s.leadBits k b = { s with meas := { s.meas with cells := l }, rec_ := r } := by
  unfold State.leadBits
  generalize List.range 16 = cs
  induction cs generalizing s with
  | nil => exact ⟨_, _, rfl⟩
  | cons c cs ih =>
    obtain ⟨l, r, h⟩ := s.leadBit_eq k c (decide (leAt b 68 2 / 2 ^ c % 2 = 1))
    obtain ⟨l', r', h'⟩ := ih (s.leadBit k c (decide (leAt b 68 2 / 2 ^ c % 2 = 1)))
    exact ⟨l', r', h'.trans (by rw [h])⟩

theorem State.leadBits_records (s : State) (k : Nat) (b : List Byte) : s.Records (s.leadBits k b) :=
  .foldl (fun u c => u.leadBit_records k c _) _ s

/-- A duty below the limit is to be told. -/
def State.dutyTold (s : State) (k : Nat) (b : List Byte) : Bool := decide (leAt b 2 2 < 10000) && s.since (s.stM k).deratedAt hourNs

/-- The duty of a message has been taken, and its event where it is due. -/
def State.dutyTaken (s : State) (k : Nat) (b : List Byte) : State :=
  let t := s.onStM k (fun m => { m with duty := leAt b 2 2, deratedAt := if s.dutyTold k b then some s.now else m.deratedAt })
  if s.dutyTold k b then t.raise Ev.balDerated [k, leAt b 2 2] else t

theorem State.dutyTaken_eq (s : State) (k : Nat) (b : List Byte) : ∃ r, s.dutyTaken k b = { s.onStM k (fun m => { m with
    duty := leAt b 2 2, deratedAt := if s.dutyTold k b then some s.now else m.deratedAt }) with rec_ := r } := by
  unfold State.dutyTaken
  dsimp only
  split <;> exact ⟨_, rfl⟩

theorem State.dutyTaken_saw {k : Nat} {b : List Byte} (h : s.dutyTold k b = true) :
    (s.dutyTaken k b).Saw Ev.balDerated [(k : Int), leAt b 2 2] := by
  rw [State.dutyTaken, if_pos h]
  exact State.raise_saw ..

/-- The charges of a message wait for the next sweep, and the station has been heard. -/
def State.countersBooked (s : State) (k : Nat) (b : List Byte) : State :=
  (s.queueBalance ⟨s.now, k, if (s.stM k).unheard = 0 then 0 else 1, (List.range 16).map (fun c => leAt b (4 + 4 * c) 4), 0, []⟩).onStM k
    (fun m => { m with unheard := 0, wasOn := (s.station k).bal })

theorem State.countersBooked_does (s : State) {k : Nat} (hk : k < s.meas.stations.length) (b : List Byte) :
    let t := ((s.dutyTaken k b).leadBits k b).countersBooked k b
    (t.stM k).duty = leAt b 2 2 ∧ (t.stM k).unheard = 0
      ∧ t.ledger.balWait = s.ledger.balWait ++ [⟨s.now, k, if (s.stM k).unheard = 0 then 0 else 1,
        (List.range 16).map (fun c => leAt b (4 + 4 * c) 4), 0, []⟩] := by
  obtain ⟨r, hduty⟩ := s.dutyTaken_eq k b
  obtain ⟨l, r', hlead⟩ := (s.dutyTaken k b).leadBits_eq k b
  have hst : ((s.dutyTaken k b).leadBits k b).stM k = { s.stM k with
      duty := leAt b 2 2, deratedAt := if s.dutyTold k b then some s.now else (s.stM k).deratedAt } := by
    rw [hlead, hduty]
    exact State.stM_onStM _ hk
  have hlen : ((s.dutyTaken k b).leadBits k b).meas.stations.length = s.meas.stations.length := by
    rw [hlead, hduty]
    exact State.onStM_count _
  have hnow : ((s.dutyTaken k b).leadBits k b).now = s.now := State.now_of_time _ (by rw [hlead, hduty]; rfl)
  have hled : ((s.dutyTaken k b).leadBits k b).ledger = s.ledger := by rw [hlead, hduty]; rfl
  generalize (s.dutyTaken k b).leadBits k b = t at hst hlen hnow hled
  have hend : (t.countersBooked k b).stM k = { t.stM k with unheard := 0, wasOn := (t.station k).bal } :=
    State.stM_onStM _ (by rw [← hlen] at hk; exact hk)
  have hbal : (t.countersBooked k b).ledger.balWait = t.ledger.balWait ++ [⟨t.now, k, if (t.stM k).unheard = 0 then 0 else 1,
      (List.range 16).map (fun c => leAt b (4 + 4 * c) 4), 0, []⟩] := rfl
  dsimp only
  rw [hend, hbal, hst, hnow, hled]
  exact ⟨rfl, rfl, rfl⟩

theorem execBalancingCountersMessage_of_message {u : State} {k : Fin 32} {b : List Byte} (h : s.takeMessage k 4 = (u, some b)) :
    exec (.balancingCountersMessage k) s = .next (((u.dutyTaken k b).leadBits k b).countersBooked k b) := by
  show execBalancingCountersMessage k s = _
  simp only [execBalancingCountersMessage, h]
  rfl

/-- A message taken up leaves everything but the messages. -/
theorem State.takeMessage_eq {k msg : Nat} {u : State} {o : Option (List Byte)} (h : s.takeMessage k msg = (u, o)) :
    ∃ l, u = { s with ring := { s.ring with msgs := l } } := by
  unfold State.takeMessage at h
  split at h
  · exact ⟨_, ((Prod.mk.inj h).1).symm⟩
  · exact ⟨_, ((Prod.mk.inj h).1).symm⟩

end

/-! ### The statements -/

/-- Settles O9: the currents by `execCurrentCompare_eq` and `Meas.compare_disRun_eq_three`, a cell's second by
`State.compareCell_of_tenth`, the rest by each command's definition. -/
theorem measurementCommands : Obligations.MeasurementCommands := by
  refine ⟨?_, ?_, ?_, ?_, ?_, ?_, ?_, ?_, ?_, ?_, ?_, ?_, ?_, ?_, ?_, ?_, ?_, ?_⟩
  · intro s n h
    have hrun : (s.currentsCompared n).meas.disRun ≠ 3 := by
      rw [State.currentsCompared_meas, Ne, Meas.compare_disRun_eq_three]
      rintro ⟨h2, hapart⟩
      obtain h | h := h
      · exact h h2
      · exact Bool.eq_false_iff.mp h hapart
    refine ⟨_, execCurrentCompare_eq s n, ?_⟩
    dsimp only
    rw [if_neg hrun]
    have hmeas := s.currentsCompared_meas n
    rw [State.secondSumsBegin_meas, State.secondSumsBegin_rec_, State.currentsCompared_rec_, hmeas]
    exact ⟨rfl, rfl, rfl, rfl, rfl⟩
  · intro s n h2 hdiff
    have hrun : (s.currentsCompared n).meas.disRun = 3 := by
      rw [State.currentsCompared_meas, Meas.compare_disRun_eq_three]
      exact ⟨h2, hdiff⟩
    refine ⟨_, execCurrentCompare_eq s n, ?_⟩
    dsimp only
    rw [if_pos hrun]
    have hsaw := (s.currentsCompared n).disagree_saw
    rw [State.currentsCompared_meas] at hsaw
    exact hsaw.of_eq (State.secondSumsBegin_rec_ _) (State.secondSumsBegin_sysNs _)
  · intro s a ha
    exact ⟨_, execCurrentJudgementEnd_of_agreed ha, s.judgementEnd_wrong a _, rfl, s.judgementEnd_now a _⟩
  · exact fun s k c h => ⟨_, congrArg Host.Outcome.next (if_neg (fun h' => h' h)), rfl⟩
  · exact fun s k c h => ⟨_, congrArg Host.Outcome.next (if_neg (fun h' => h' h)), rfl⟩
  · exact fun s n => ⟨_, rfl, rfl⟩
  · intro s c hrun hn hc hsz hd
    have hc' : c < s.meas.cells.length := by rw [hsz.cells]; exact hc
    have hcell := State.cellFlagged_cell hc'
    rw [State.compareCell_of_tenth hrun ⟨hn, hd⟩]
    exact ⟨(State.raise_saw ..).of_eq rfl rfl, congrArg Cell.flagP hcell, congrArg Cell.flagS hcell⟩
  · exact fun s k => ⟨_, rfl, rfl⟩
  · exact fun s k mask hm hp => if_pos (by rw [hm, hp]; rfl)
  · exact fun s k a h => ⟨_, congrArg Host.Outcome.next (by rw [h]), rfl⟩
  · exact fun s k i a h => ⟨_, congrArg Host.Outcome.next (by rw [h]), rfl⟩
  · intro s k i ho hn
    refine ⟨_, congrArg Host.Outcome.next (if_neg (by simp [ho])), ?_⟩
    rw [hn]
  · intro s u k b h
    exact ⟨_, congrArg Host.Outcome.next (by rw [h]), rfl⟩
  · intro s k i x h
    rw [State.tapResult, if_pos rfl, h]
    rfl
  · exact fun s k c h => ⟨_, congrArg Host.Outcome.next (by rw [h]), rfl⟩
  · intro s u k b d h hd
    refine ⟨_, congrArg Host.Outcome.next (by rw [h]), if_pos hd⟩
  · exact fun s k => ⟨_, rfl, rfl⟩
  · intro s u k b n x h hstart
    refine ⟨_, congrArg Host.Outcome.next (by rw [h]), ?_⟩
    dsimp only
    rw [hstart]
    by_cases hs : (u.station k).serial = x
    · simp [hs]
    · simp [hs]

/-- Settles O10: a message of counters by `State.countersBooked_does`, the rest by each command's definition. -/
theorem balancingCommands : Obligations.BalancingCommands := by
  refine ⟨?_, ?_, ?_, ?_, ?_, ?_, ?_, ?_, ?_⟩
  · intro s n hm hr hl
    have hdue : ¬(Fld.balCfg_MODE (s.advance (n * secNs)).cfg ≠ 1 ∨ (s.advance (n * secNs)).meas.rest < 30 * secNs ∨
        (s.advance (n * secNs)).meas.lows.length = 0) := by
      rw [State.advance_meas, State.cfg, State.advance_setup]
      rintro (h | h | h)
      · exact h hm
      · exact Nat.not_lt.mpr hr h
      · exact hl h
    refine ⟨(s.advance (n * secNs)).balDecide, ?_, rfl⟩
    show execBalDecision n s = _
    rw [execBalDecision, if_neg hdue]
  · intro s sum v n c x hv hx
    simp [State.balDecided, hv, hx]
  · intro s sum v n c x hv hx
    simp [State.balDecided, hv, hx]
  · intro s sum n c x hv
    simp [State.balDecided, hv]
  · exact fun s hm => ⟨_, congrArg Host.Outcome.next (if_pos hm), rfl⟩
  · intro s c x
    by_cases hc : c ∈ s.chargeCells
    · rw [if_pos hc]
      simp only [State.chargeDecided, List.contains_iff_mem.mpr hc, if_true]
      cases hx : x.cand
      · simp only [Bool.false_eq_true, if_false]
        split
        · next h => exact (decide_eq_true h).symm
        · next h => exact (decide_eq_false h).symm
      · simp only [if_true]
        split
        · next h => exact (decide_eq_false (Int.not_le.mpr h)).symm
        · next h => exact (decide_eq_true (Int.not_lt.mp h)).symm
    · simp [State.chargeDecided, hc]
  · exact fun s c hm hx => ⟨_, congrArg Host.Outcome.next (if_pos (by rw [hx, decide_eq_true hm]; rfl)), rfl⟩
  · intro s u k b h hsz
    obtain ⟨l, hu⟩ := State.takeMessage_eq h
    have hk : k.val < u.meas.stations.length := by rw [hu]; exact hsz.stationsM.symm ▸ k.isLt
    exact ⟨_, execBalancingCountersMessage_of_message h, State.countersBooked_does u hk b⟩
  · intro s u k b h hd hat
    refine ⟨_, execBalancingCountersMessage_of_message h, ?_⟩
    have htold : u.dutyTold k b = true := by rw [State.dutyTold, decide_eq_true hd, hat]; rfl
    have hsaw := (State.dutyTaken_saw htold).mono (State.leadBits_records _ k b)
    exact hsaw.of_eq rfl rfl

end Sys2Proof.Machine
end

section
/-! PROOFS. Estimates and impedance runs (06): the hand-over of corrections at a second, the start, the segments and the windows of a run, and
the statements of both families. -/
namespace Sys2Proof.Machine

section
variable {s : State}

/-! ### Estimates (R150, R155, R157, R159) -/

theorem execEstimateRelease_of_release {g : Nat} (h : s.est.release = some g) : exec .estimateRelease s =
    .next ((s.advance (g + 240000 + s.fabric.sweepUs * 1000)).onEst (fun e => { e with
      release := none, pub := e.cells, pubAt := g, pubI := e.iSweep, pubSrc := e.iSrc })) := by
  show execEstimateRelease s = _
  rw [execEstimateRelease, h]

/-- What a cell has handed over is taken from its correction. -/
def State.corrTaken (s : State) (c : Nat) (x : EstCell) : EstCell := { x with corr := x.corr - 1000 * s.handOver c }

/-- The corrections of a whole second are handed to the ledger, and the restart state is kept. -/
def State.handedOver (s : State) : State :=
  let t := s.onLedger (fun l => { l with adjust := mapIdxL (fun c (a : Int) => a + s.handOver c) l.adjust })
  let u := t.onEst (fun e => { e with cells := mapIdxL s.corrTaken e.cells, pub := mapIdxL s.corrTaken e.pub })
  u.onEst (fun e => { e with ckpt := e.cells, ckptAt := s.now, ckptQ := u.ledger.bal.booked })

theorem execEstimatorCheckpoint_eq (s : State) (n : Nat) :
    execEstimatorCheckpoint n s = .next ((s.advance (n * secNs)).handedOver.tellCapacity) := by
  unfold execEstimatorCheckpoint
  rfl

/-- The event on capacities changes its own counts alone. -/
theorem State.tellCapacity_eq (s : State) : ∃ n m a r,
    s.tellCapacity = { s with est := { s.est with capN := n, capMax := m, capTold := a }, rec_ := r } := by
  unfold State.tellCapacity
  split <;> exact ⟨_, _, _, _, rfl⟩

theorem State.tellCapacity_of_new (hn : s.est.capN ≠ 0) (ht : s.est.capTold = none) : s.tellCapacity =
    (s.onEst (fun e => { e with capN := 0, capMax := 0, capTold := some s.now })).raise Ev.capacityUpdated
      [s.est.capN, Config.quot s.est.capMax 3600000] := by
  rw [State.tellCapacity, if_pos ⟨hn, by rw [ht]; rfl⟩]

/-- What a second's hand-over leaves, whether or not capacities are told. -/
theorem State.handedOver_does (s : State) : let u := s.handedOver.tellCapacity
    u.est.ckpt = u.est.cells ∧ u.est.ckptAt = s.now ∧ u.ledger.adjust = mapIdxL (fun c (a : Int) => a + s.handOver c) s.ledger.adjust
      ∧ u.est.cells = mapIdxL s.corrTaken s.est.cells := by
  obtain ⟨m, x, a, r, h⟩ := s.handedOver.tellCapacity_eq
  dsimp only
  rw [h]
  exact ⟨rfl, rfl, rfl, rfl⟩

theorem State.handedOver_told (hn : s.est.capN ≠ 0) (ht : s.est.capTold = none) : s.handedOver.tellCapacity.est.capN = 0
    ∧ s.handedOver.tellCapacity.Saw Ev.capacityUpdated [(s.est.capN : Int), Config.quot s.est.capMax 3600000] := by
  rw [State.tellCapacity_of_new (s := s.handedOver) hn ht]
  exact ⟨rfl, State.raise_saw ..⟩

theorem State.advance_handOver (s : State) (n c : Nat) : (s.advance n).handOver c = s.handOver c := by
  rw [State.handOver, State.advance_est]
  rfl

theorem State.advance_corrTaken (s : State) (n : Nat) : (s.advance n).corrTaken = s.corrTaken := by
  funext c x
  rw [State.corrTaken, State.advance_handOver, State.corrTaken]

/-! ### The start of an impedance run (R164, R165, R174) -/

theorem State.impLaunch_of_ready {kind : Nat} (hp : s.est.imp.phase = .idle) (hg : s.gate.stage = .run)
    (he : kind ≠ 0 ∨ Fld.impCfg_ENABLE s.cfg = true) (hd : (s.loop.diags.getD 2 Diag.reset).injecting = false) :
    s.impLaunch kind = s.impBegin kind := by
  have hen : (!Fld.impCfg_ENABLE s.cfg && decide (kind = 0)) = false := by
    obtain he | he := he <;> simp [he]
  simp only [State.impLaunch, hp, hg, hen, hd, ne_eq, not_true_eq_false, if_false, Bool.false_eq_true]

theorem State.impRequested_of_ready (hp : s.est.imp.phase = .idle) (hg : s.gate.stage = .run)
    (hd : (s.loop.diags.getD 2 Diag.reset).injecting = false) :
    s.impRequested = (s.onImp (fun i => { i with request := none })).impBegin 1 :=
  State.impLaunch_of_ready (s := s.onImp (fun i => { i with request := none })) hp hg (.inl (by decide)) hd

theorem execImpRunStart_of_request {r : Nat} (h : s.est.imp.request = some r) :
    exec (.impRunStart true) s = .next (s.advance r).impRequested := by
  show execImpRunStart true s = _
  rw [execImpRunStart, if_pos rfl, h]

theorem execImpRunStart_of_due {r : Nat} (h : s.est.imp.request = some r) (hr : r ≤ (s.advance s.impNext).now) :
    exec (.impRunStart false) s = .next (s.advance s.impNext).impRequested := by
  show execImpRunStart false s = _
  rw [execImpRunStart, if_neg Bool.false_ne_true]
  dsimp only
  rw [State.advance_est, h]
  dsimp only
  rw [if_pos hr]

theorem State.impScheduled_of_heather (hp : s.fabric.profile = 0) : s.impScheduled = s.impLaunch 0 := by
  rw [State.impScheduled, hp]
  rfl

theorem State.impNext_of_heather (hp : s.fabric.profile = 0) : s.impNext = atOrAfter s.now 180000000000 := by
  simp only [State.impNext, hp]

theorem execImpRunStart_of_schedule (h : s.est.imp.request = none) (hp : s.fabric.profile = 0) :
    execImpRunStart false s = .next ((s.advance (atOrAfter s.now 180000000000)).impLaunch 0) := by
  have hp' : (s.advance (atOrAfter s.now 180000000000)).fabric.profile = 0 := by rw [State.advance_fabric]; exact hp
  rw [execImpRunStart, if_neg Bool.false_ne_true, State.impNext_of_heather hp]
  dsimp only
  rw [State.advance_est, h, ← State.impScheduled_of_heather hp']

/-! ### Segments and windows (R167, R170 to R173) -/

theorem State.advance_impReady (s : State) (n : Nat) : (s.advance n).impReady = s.impReady := by
  simp only [State.impReady, State.impPeak, State.headroom, State.ripple, State.rated, State.cfg, State.advance_gate, State.advance_therm,
    State.advance_loop, State.advance_disp, State.advance_meas, State.advance_setup]

theorem State.advance_impDiscards (s : State) (n : Nat) : (s.advance n).impDiscards = s.impDiscards := by
  simp only [State.impDiscards, State.rated, State.cfg, State.advance_est, State.advance_setup]
  rfl

/-- A waiting run that is abandoned. -/
theorem State.abandonRun_of_waiting (h : s.est.imp.phase = .waiting) (cause : Nat) : s.abandonRun cause =
    (s.raise Ev.impRunAbandoned [s.est.imp.run.toNat, s.est.imp.seg, cause]).onImp
      (fun i => { i.finish true with lastOk := false, armDue := false }) := by
  simp only [State.abandonRun, h]

theorem State.abandonRun_does (h : s.est.imp.phase = .waiting) (cause : Nat) : let t := s.abandonRun cause
    t.est.imp.phase = .idle ∧ t.est.imp.done.getLast?.map (fun d => (d.abandoned, d.run)) = some (true, s.est.imp.run)
      ∧ t.Saw Ev.impRunAbandoned [(s.est.imp.run.toNat : Int), s.est.imp.seg, cause] := by
  dsimp only
  rw [State.abandonRun_of_waiting h]
  refine ⟨rfl, ?_, (s.raise_saw ..).of_eq rfl rfl⟩
  simp [State.onImp, Imp.finish]

theorem execImpHeadroomRetest_of_waiting (hp : s.est.imp.phase = .waiting) (hw : s.est.imp.waited ≠ 0) : exec .impHeadroomRetest s =
    .next (if !s.impReady && decide (60 ≤ s.est.imp.waited) then (s.advance (s.est.imp.ts + secNs)).abandonRun 2
      else (s.advance (s.est.imp.ts + secNs)).impTry) := by
  show execImpHeadroomRetest s = _
  rw [execImpHeadroomRetest, if_pos ⟨hp, hw⟩]
  dsimp only
  rw [State.advance_impReady, State.advance_est]

theorem execImpWindowEnd_of_measuring (hp : s.est.imp.phase = .measuring) : exec .impWindowEnd s =
    .next (if s.impDiscards
      then (s.advance (s.est.imp.ts + (s.est.imp.win + 1) * segWindow s.est.imp.seg)).lockin (0x40000000 + s.est.imp.win)
      else s.advance (s.est.imp.ts + (s.est.imp.win + 1) * segWindow s.est.imp.seg)).impAdvance := by
  show execImpWindowEnd s = _
  rw [execImpWindowEnd, if_pos hp]
  dsimp only
  rw [State.advance_impDiscards, State.advance_est]

/-- The state of a run after a window (Table 6.8). -/
def Imp.windowEnd (i : Imp) : Imp := { i with prevMean := some (meanOf i.winSum i.winN), winSum := 0, winN := 0, signs := [], spoiled := false }

theorem State.impAdvance_imp (s : State) : s.impAdvance.est.imp =
    if s.est.imp.win + 1 < segWindows s.est.imp.seg then { s.est.imp.windowEnd with win := s.est.imp.win + 1 }
    else if s.est.imp.seg < 3 then { s.est.imp.windowEnd with
      seg := s.est.imp.seg + 1, segsDone := s.est.imp.seg + 1, phase := .waiting, waited := 0, win := 0 }
    else { ({ s.est.imp.windowEnd with segsDone := 4 } : Imp).finish false with lastOk := true } := rfl

end

/-! ### The statements -/

/-- Settles O11: a second's hand-over by `execEstimatorCheckpoint_eq`, the rest by each command's definition. -/
theorem estimateCommands : Obligations.EstimateCommands := by
  refine ⟨?_, ?_, ?_, ?_, ?_⟩
  · intro s g h
    refine ⟨_, execEstimateRelease_of_release h, ?_⟩
    simp only [State.onEst_est, State.advance_est, and_self]
  · intro s n
    obtain ⟨hckpt, hat, hadjust, hcells⟩ := (s.advance (n * secNs)).handedOver_does
    refine ⟨_, execEstimatorCheckpoint_eq s n, hckpt, hat, ?_, ?_⟩
    · rw [hadjust, State.advance_ledger]
      simp only [State.advance_handOver]
    · rw [hcells, State.advance_est]
      simp only [State.advance_corrTaken]
      rfl
  · intro s n hn ht
    have htold := State.handedOver_told (s := s.advance (n * secNs)) (by rw [State.advance_est]; exact hn) (by rw [State.advance_est]; exact ht)
    rw [State.advance_est] at htold
    exact ⟨_, execEstimatorCheckpoint_eq s n, htold⟩
  · exact fun s h => ⟨_, congrArg Host.Outcome.next (if_pos h), rfl⟩
  · exact fun s h => ⟨_, congrArg Host.Outcome.next (if_neg (Bool.eq_false_iff.mp h)), rfl⟩

/-- Settles O12: the starts by `State.impLaunch_of_ready`, the retest by `execImpHeadroomRetest_of_waiting`, the windows by
`State.impAdvance_imp`, the rest by each command's definition. -/
theorem impedanceCommands : Obligations.ImpedanceCommands := by
  refine ⟨?_, ?_, ?_, ?_, ?_, ?_, ?_, ?_, ?_, ?_, ?_, ?_, ?_, ?_, ?_, ?_, ?_, ?_⟩
  · intro s r hr hp hg hd
    refine ⟨_, execImpRunStart_of_request hr, State.impRequested_of_ready ?_ ?_ ?_⟩
    · rw [State.advance_est]; exact hp
    · rw [State.advance_gate]; exact hg
    · rw [State.advance_loop]; exact hd
  · intro s r _ hr hle hp hg hd
    refine ⟨_, execImpRunStart_of_due hr hle, State.impRequested_of_ready ?_ ?_ ?_⟩
    · rw [State.advance_est]; exact hp
    · rw [State.advance_gate]; exact hg
    · rw [State.advance_loop]; exact hd
  · intro s h0 hr hp hg he hd
    refine ⟨_, execImpRunStart_of_schedule hr h0, State.impLaunch_of_ready ?_ ?_ (.inr ?_) ?_⟩
    · rw [State.advance_est]; exact hp
    · rw [State.advance_gate]; exact hg
    · rw [State.cfg, State.advance_setup]; exact he
    · rw [State.advance_loop]; exact hd
  · intro s h0 hr hp hg
    refine ⟨_, execImpRunStart_of_schedule hr h0, ?_⟩
    rw [State.impLaunch, State.advance_est, State.advance_gate, if_neg (fun h => h hp), if_pos hg]
  · intro s t q d hturn hp hg
    refine congrArg Host.Outcome.next (hostRow_silent hturn (aw := false) ?_)
    simp [hp, hg]
  · exact fun s => rfl
  · exact fun s hp hw hr => ⟨_, congrArg Host.Outcome.next ((if_pos ⟨hp, hw⟩).trans (if_pos hr)), rfl⟩
  · intro s hp hw hr
    refine ⟨_, congrArg Host.Outcome.next ((if_pos ⟨hp, hw⟩).trans (if_neg (Bool.eq_false_iff.mp hr))), ?_, rfl⟩
    exact congrArg (· + 1) hw
  · intro s hp hw hr
    refine ⟨_, execImpHeadroomRetest_of_waiting hp hw, ?_⟩
    rw [hr, State.impTry, State.advance_impReady, hr]
    rfl
  · intro s hp hw hr
    have hp' : (s.advance (s.est.imp.ts + secNs)).est.imp.phase = .waiting := by rw [State.advance_est]; exact hp
    have hgone := State.abandonRun_does hp' 2
    rw [State.advance_est] at hgone
    refine ⟨_, execImpHeadroomRetest_of_waiting hp (by omega), ?_⟩
    rw [hr, decide_eq_true hw, Bool.not_false, Bool.and_self, if_pos rfl]
    exact hgone
  · intro s hp hd
    refine ⟨_, execImpWindowEnd_of_measuring hp, ?_⟩
    rw [if_pos hd]
  · intro s hp hd
    refine ⟨_, execImpWindowEnd_of_measuring hp, ?_⟩
    rw [if_neg (Bool.eq_false_iff.mp hd)]
  · intro s h
    rw [State.impAdvance_imp, if_pos h]
    exact ⟨rfl, rfl, rfl⟩
  · intro s h hs
    rw [State.impAdvance_imp, if_neg (Nat.not_lt.mpr h), if_pos hs]
    exact ⟨rfl, rfl, rfl⟩
  · intro s h hs
    rw [State.impAdvance_imp, if_neg (Nat.not_lt.mpr h), if_neg (Nat.not_lt.mpr hs)]
    refine ⟨rfl, rfl, ?_⟩
    simp [Imp.finish, Imp.windowEnd]
  · intro s u k b h
    refine ⟨_, congrArg Host.Outcome.next (by rw [h]), ?_⟩
    simp [State.onImp]
  · intro s d l h
    exact ⟨_, congrArg Host.Outcome.next (by rw [h]), rfl⟩
  · intro s d c n v cur hv hcur hvalid
    simp only [State.point, hv, hcur] at hvalid
    split at hvalid
    · next h => simp_all [Tone.counts]
    · exact absurd hvalid (by decide)

end Sys2Proof.Machine
end

section
/-! PROOFS. The charge ledger (07): what a posting does to the accounts of one cell, how an entry is booked, a second's adjustments, its image,
the gap after a start, and the statements of the three families. -/
namespace Sys2Proof.Machine

/-! ### Postings (R183, R184, Table 7.2) -/

/-- The cell equation of cell k. -/
theorem Balances.cellOk_iff {b : Balances} {k : Nat} :
    b.cellOk k = true ↔ b.c.getD k 0 = b.s + b.u - b.b.getD k 0 + b.a.getD k 0 := decide_eq_true_iff

theorem Balances.sumsOk_iff {b : Balances} : b.sumsOk = true ↔ b.s = b.s0 + b.s1 + b.fg ∧ b.at_ = sumI b.a := decide_eq_true_iff

theorem addFirst_getD {n k : Nat} (hn : k < n) {l : List Int} (hk : k < l.length) (q : Int) : (addFirst n q l).getD k 0 = l.getD k 0 + q := by
  rw [addFirst, mapIdxL_getD _ _ hk 0, if_pos hn]

theorem sumI_modAt_add (x : Int) {l : List Int} {j : Nat} (h : j < l.length) : sumI (modAt l j (fun y => y + x)) = sumI l + x := by
  induction l generalizing j with
  | nil => exact absurd h (Nat.not_lt_zero j)
  | cons a l ih =>
    cases j with
    | zero => simp only [modAt, sumI]; omega
    | succ j => simp only [modAt, sumI, ih (Nat.lt_of_succ_lt_succ h)]; omega

section
variable {b : Balances} {n k : Nat}

theorem Balances.postS_cellOk (hn : k < n) (hk : k < b.c.length) (h : b.cellOk k = true) (path : Nat) (q : Int) :
    (b.postS n path q).cellOk k = true := by
  rw [Balances.cellOk_iff] at h ⊢
  have hc : (b.postS n path q).c.getD k 0 = b.c.getD k 0 + q := addFirst_getD hn hk q
  change (b.postS n path q).c.getD k 0 = b.s + q + b.u - b.b.getD k 0 + b.a.getD k 0
  omega

theorem Balances.postS_sumsOk (h : b.sumsOk = true) {path : Nat} (hp : path < 3) (q : Int) : (b.postS n path q).sumsOk = true := by
  rw [Balances.sumsOk_iff] at h ⊢
  obtain ⟨hs, ha⟩ := h
  refine ⟨?_, ha⟩
  obtain rfl | rfl | rfl : path = 0 ∨ path = 1 ∨ path = 2 := by omega
  all_goals simp [Balances.postS, hs]; omega

theorem Balances.postU_cellOk (hn : k < n) (hk : k < b.c.length) (h : b.cellOk k = true) (m : Int) : (b.postU n m).cellOk k = true := by
  rw [Balances.cellOk_iff] at h ⊢
  have hc : (b.postU n m).c.getD k 0 = b.c.getD k 0 + m := addFirst_getD hn hk m
  change (b.postU n m).c.getD k 0 = b.s + (b.u + m) - b.b.getD k 0 + b.a.getD k 0
  omega

theorem Balances.postB_cellOk (hb : k < b.b.length) (hk : k < b.c.length) (h : b.cellOk k = true) (j : Nat) (x : Int) :
    (b.postB j x).cellOk k = true := by
  rw [Balances.cellOk_iff] at h ⊢
  change (modAt b.c j (fun y => y - x)).getD k 0 = b.s + b.u - (modAt b.b j (fun y => y + x)).getD k 0 + b.a.getD k 0
  by_cases hj : k = j
  · subst hj
    rw [modAt_getD_self _ _ _ _ hk, modAt_getD_self _ _ _ _ hb]
    omega
  · rwa [modAt_getD_ne _ _ _ hj, modAt_getD_ne _ _ _ hj]

theorem Balances.postA_cellOk (ha : k < b.a.length) (hk : k < b.c.length) (h : b.cellOk k = true) (j : Nat) (x : Int) :
    (b.postA j x).cellOk k = true := by
  rw [Balances.cellOk_iff] at h ⊢
  change (modAt b.c j (fun y => y + x)).getD k 0 = b.s + b.u - b.b.getD k 0 + (modAt b.a j (fun y => y + x)).getD k 0
  by_cases hj : k = j
  · subst hj
    rw [modAt_getD_self _ _ _ _ hk, modAt_getD_self _ _ _ _ ha]
    omega
  · rwa [modAt_getD_ne _ _ _ hj, modAt_getD_ne _ _ _ hj]

theorem Balances.postA_sumsOk (h : b.sumsOk = true) {j : Nat} (hj : j < b.a.length) (x : Int) : (b.postA j x).sumsOk = true := by
  rw [Balances.sumsOk_iff] at h ⊢
  obtain ⟨hs, ha⟩ := h
  refine ⟨hs, ?_⟩
  change b.at_ + x = sumI (modAt b.a j (fun y => y + x))
  rw [sumI_modAt_add x hj, ha]

end

/-- Settles O14: an account of every used cell and the sums of the sub-accounts, posting by posting. -/
theorem postingsKeepTheCellEquation : Obligations.PostingsKeepTheCellEquation := by
  intro b n k hn hk hb ha hcell hsums
  refine ⟨fun path q hp => ⟨?_, ?_⟩, fun m => ⟨?_, hsums⟩, fun j x => ⟨?_, hsums⟩, fun j x hj => ⟨?_, ?_⟩⟩
  · exact Balances.postS_cellOk hn hk hcell path q
  · exact Balances.postS_sumsOk hsums hp q
  · exact Balances.postU_cellOk hn hk hcell m
  · exact Balances.postB_cellOk (hb ▸ hk) hk hcell j x
  · exact Balances.postA_cellOk (ha ▸ hk) hk hcell j x
  · exact Balances.postA_sumsOk hsums (ha ▸ hj) x

/-- Settles O15: by the definitions of the bookings. -/
theorem ledgerEntries : Obligations.LedgerEntries := by
  refine ⟨?_, ?_, ?_⟩
  · exact fun s path nC d upTo => ⟨rfl, rfl, rfl, rfl, rfl⟩
  · exact fun s cause lo hi from_ => ⟨rfl, rfl, (s.raise_saw ..).of_eq rfl rfl⟩
  · exact fun s kind old new nC from_ => ⟨rfl, rfl, (State.raise_saw ..).of_eq rfl rfl⟩

/-! ### A second (R192, R194 to R197) -/

section
variable {s : State} {i : Image}

theorem State.checkBalances_of_sound {b : Balances} (h : b.failed s.cellCount = none) : s.checkBalances b = s := by
  simp only [State.checkBalances, h]

theorem State.postAdjust_writing (h : s.ledger.writing = some i) :
    s.postAdjust.ledger.writing = some { i with bal := i.bal.postAll s.ledger.adjDue } := by
  change s.ledger.writing.map _ = _
  rw [h]
  rfl

theorem State.postAdjust_does {t : State} (hled : t.ledger = s.ledger) (hrec : t.rec_ = s.rec_) (h : s.ledger.writing = some i) :
    t.postAdjust.ledger.bal = s.ledger.bal.postAll s.ledger.adjDue ∧ t.postAdjust.ledger.adjDue = []
      ∧ t.postAdjust.ledger.writing.map (fun j => j.bal) = some (i.bal.postAll s.ledger.adjDue) ∧ t.postAdjust.rec_ = s.rec_ := by
  rw [← hled] at h ⊢
  rw [State.postAdjust_writing h]
  exact ⟨rfl, rfl, rfl, hrec⟩

theorem State.advance_postAdjust_cellCount (s : State) (n : Nat) : (s.advance n).postAdjust.cellCount = s.cellCount := by
  have h : ∀ t : State, t.postAdjust.cellCount = t.cellCount := fun _ => rfl
  rw [h, State.advance_cellCount]

/-- Where both copies are sound the adjustments are posted, and nothing else happens. -/
theorem execLedgerSecond_of_sound (hw : s.ledger.writing = some i) (hr : s.ac23Reloading = false)
    (hcopy : (i.bal.postAll s.ledger.adjDue).failed s.cellCount = none)
    (hlive : (s.ledger.bal.postAll s.ledger.adjDue).failed s.cellCount = none) :
    execLedgerSecond s = .next (s.advance (s.fineOf i.w + 5000000)).postAdjust := by
  have hled : (s.advance (s.fineOf i.w + 5000000)).ledger = s.ledger := s.advance_ledger _
  have hcount := s.advance_postAdjust_cellCount (s.fineOf i.w + 5000000)
  rw [execLedgerSecond, hw]
  dsimp only
  rw [if_neg (Bool.eq_false_iff.mp hr), State.postAdjust_writing (by rw [hled]; exact hw)]
  dsimp only
  generalize s.advance (s.fineOf i.w + 5000000) = t at hled hcount ⊢
  rw [hcount, hled, hcopy, Option.isSome_none, if_neg Bool.false_ne_true, State.checkBalances_of_sound]
  rw [hcount, ← hlive, ← hled]
  rfl

theorem State.imageKept_eq (t : State) (i : Image) : (t.onLedger (fun l => { l with writing := none })).onLedger (fun l => l.putImage i) =
    t.onLedger (fun l => { l with writing := none, images := l.images.set l.place (some i), place := 1 - l.place }) := rfl

theorem execLedgerImageWritten_of_ready (hw : s.ledger.writing = some i) (hr : s.ac23Reloading = false) (hd : s.ledger.adjDue = []) :
    execLedgerImageWritten s = .next (if s.nvmBarred then (s.advance (s.fineOf i.w + 8000000)).onLedger (fun l => { l with writing := none })
      else ((((s.advance (s.fineOf i.w + 8000000)).onLedger (fun l => { l with writing := none })).onLedger
        (fun l => l.putImage i)).saveEst).releaseUpTo i) := by
  have hgo : (s.ac23Reloading || decide (s.ledger.adjDue ≠ [])) = false := by simp [hr, hd]
  rw [execLedgerImageWritten, hw]
  dsimp only
  rw [if_neg (Bool.eq_false_iff.mp hgo)]

/-! ### Supply loss (R200) -/

/-- The module is off, its outputs with it. -/
def State.dark (s : State) : State :=
  (((s.onLife (fun l => { l with phase := .off, restartDue := false })).onTwin (fun x => { x with txOff := true })).onGate
    (fun g => { g with stage := .off })).outsOff

theorem State.dark_does (s : State) : s.dark.life.phase = .off ∧ s.dark.gate.stage = .off ∧ s.dark.twin.txOff = true
    ∧ s.dark.safety.outs.all (fun o => !o.hi && !o.lo) = true := by
  refine ⟨rfl, rfl, rfl, ?_⟩
  change (s.safety.outs.map _).all _ = true
  rw [List.all_map]
  exact List.all_eq_true.mpr fun _ _ => rfl

theorem State.powerDown_dark (s : State) (image copies header : Bool) (written : Nat) : ∃ v : State, s.powerDown image copies header written = v.dark :=
  ⟨_, rfl⟩

end

/-! ### The statement -/

/-- Settles O13: a second by `execLedgerSecond_of_sound` and `execLedgerImageWritten_of_ready`, a supply loss by `State.dark_does`, the rest
by each command's definition. -/
theorem ledgerCommands : Obligations.LedgerCommands := by
  refine ⟨?_, ?_, ?_, ?_, ?_, ?_, ?_, ?_, ?_, ?_, ?_, ?_, ?_, ?_⟩
  · intro s i hw hr hcopy hlive
    have hled := s.advance_ledger (s.fineOf i.w + 5000000)
    have hrec := s.advance_rec_ (s.fineOf i.w + 5000000)
    exact ⟨_, execLedgerSecond_of_sound hw hr hcopy hlive, State.postAdjust_does hled hrec hw⟩
  · intro s i hw hr hd hn
    refine ⟨_, execLedgerImageWritten_of_ready hw hr hd, ?_⟩
    rw [if_pos hn]
  · intro s i hw hr hd hn
    refine ⟨_, execLedgerImageWritten_of_ready hw hr hd, ?_⟩
    rw [if_neg (Bool.eq_false_iff.mp hn)]
    rw [State.imageKept_eq]
  · intro s i hw h
    have hwait : (s.ac23Reloading || decide (s.ledger.adjDue ≠ [])) = true := by
      obtain h | h := h <;> simp [h]
    refine ⟨s, ?_, rfl⟩
    show execLedgerImageWritten s = _
    rw [execLedgerImageWritten, hw]
    dsimp only
    rw [if_pos hwait]
  · intro s image copies header written
    obtain ⟨v, h⟩ := s.powerDown_dark image copies header written
    exact ⟨_, congrArg Host.Outcome.next h, v.dark_does⟩
  · intro s i g hi hg hd
    refine ⟨s.bookGap i g, ?_, rfl⟩
    show execLedgerGapBooking s = _
    rw [execLedgerGapBooking, hi, hg]
    dsimp only
    rw [if_pos hd]
  · intro s i g hi hg hd
    refine ⟨s, ?_, rfl⟩
    show execLedgerGapBooking s = _
    rw [execLedgerGapBooking, hi, hg]
    dsimp only
    rw [if_neg (Bool.eq_false_iff.mp hd)]
  · exact fun s i g => ⟨rfl, rfl, rfl⟩
  · intro s t q d hturn hlen hs
    refine congrArg Host.Outcome.next (hostRow_silent hturn (aw := false) ?_)
    rw [hlen, hs]
    exact if_neg (fun h => h rfl)
  · intro s t q d hturn hlen hs
    refine congrArg Host.Outcome.next (hostRow_refuse hturn ?_)
    rw [hs]
    exact if_pos hlen
  · exact fun s c h => if_pos h
  · intro s t q d r l hturn hle hstore hfirst
    refine congrArg Host.Outcome.next (hostRow_silent hturn (aw := false) ?_)
    dsimp only
    rw [if_neg (Nat.not_lt.mpr hle), hstore]
    exact if_neg (Nat.not_lt.mpr hfirst)
  · intro s t q d r l hturn hle hstore hfirst
    refine congrArg Host.Outcome.next (hostRow_refuse hturn ?_)
    dsimp only
    rw [if_neg (Nat.not_lt.mpr hle), hstore]
    exact if_pos hfirst
  · exact fun s => ⟨_, rfl, rfl⟩

end Sys2Proof.Machine
end

section
/-! PROOFS. The gate links and the stage (08): EDGE and STATUS frames, the receivers' identification, trips, the host's stage commands, and the
statements of both families. -/
namespace Sys2Proof.Machine

section
variable {s : State}

/-! ### EDGE frames (R210, R217, R249) -/

theorem execEdgeRelease_of_on {p : Fin 16} (h : s.edgesOn p = true) (x : PhaseLoop) (hx : s.phase p = x) :
    execEdgeRelease p s =
      let k := max (x.sent + 1) (firstFrom s.fsw (2 * s.now + 8000 - x.shift))
      let t := s.advance ((baseStart s.fsw k + x.shift - 8000) / 2)
      let due := s.gate.switching && x.active && x.restartDue t.now
      let drive := s.gate.switching && x.active && (!x.waiting || due)
      .next (((t.edgeRestart p k x.shift drive).edgeFrame p k drive due).shedProgress) := by
  subst hx
  rw [execEdgeRelease, h, Bool.not_true, if_neg Bool.false_ne_true]
  dsimp only
  rw [State.advance_gate]

theorem State.evenShares_phases (s : State) : s.evenShares.loop.phases.length = s.loop.phases.length := by
  simp [State.evenShares, State.onPhases]

theorem State.edgeRestart_done {p k : Nat} (shift : Nat) (hp : p < s.loop.phases.length) (hr : (s.phase p).ready = false) :
    ((s.edgeRestart p k shift true).phase p).done = k := by
  unfold State.edgeRestart
  extract_lets v
  have hv : p < v.loop.phases.length := by
    change p < (if _ then (s.onPhase p _).evenShares else s).loop.phases.length
    split
    · rw [State.evenShares_phases, State.onPhase_count]; exact hp
    · exact hp
  rw [if_pos (by rw [hr]; rfl), State.phase_onPhase _ hv]

/-! ### STATUS frames (R218) -/

theorem execGateStatusReceived_of_good {l : Fin 8} {b : List Byte} {x : Int} {f : StatusFrame} (h : parseStatus l b = some f)
    (hl : l.val < s.links) : execGateStatusReceived l b x s = .next (
      if s.isJoined then ((s.noteDelay l f x).takeStatus l f s.now).pairSend (.status ([(l.val : Int), s.now] ++ b.map (fun y => (y.toNat : Int))))
      else (s.noteDelay l f x).takeStatus l f s.now) := by
  rw [execGateStatusReceived, h]
  dsimp only
  rw [if_neg (Nat.not_le.mpr hl)]

/-! ### Receivers (R223, 01 R29) -/

/-- What a receiver's identity record leaves in any case. -/
def State.identified (s : State) (l : Nat) (i : Ident) (a b : Nat) : State :=
  s.onReceiver l (fun r => { r with kind := i.kind, revision := i.revision, version := i.version, serial := i.serial, seen1 := a, seen2 := b })

/-- A receiver that is miswired. -/
def State.identWrong (s : State) (l n want seen : Nat) : State :=
  (s.onReceiver l (fun r => { r with miswired := true })).raise Ev.gateMiswired [l, n, want, seen]

/-- A receiver that is known. -/
def State.identKnown (s : State) (l : Nat) : State := s.onReceiver l (fun r => { r with known := true, miswired := false })

section
variable {l : Fin 8} {i : Ident} {a b : Nat} (hs : s.gate.starting = true) (hl : l.val < s.links)
include hs hl

theorem identStarts : (!s.gate.starting || decide (s.links ≤ l)) = false := by
  simp [hs, hl]

theorem execReceiverIdent_of_kind (hk : i.kind ≠ 2202) :
    execReceiverIdent l i a b s = .next ((s.identified l i a b).identWrong l 0 0 0) := by
  rw [execReceiverIdent, if_neg (Bool.eq_false_iff.mp (identStarts hs hl)), if_pos hk]
  rfl

theorem execReceiverIdent_of_wrong (hk : i.kind = 2202) {n want seen : Nat} (hw : wrongInput a b s.isPair = some (n, want, seen)) :
    execReceiverIdent l i a b s = .next ((s.identified l i a b).identWrong l n want seen) := by
  rw [execReceiverIdent, if_neg (Bool.eq_false_iff.mp (identStarts hs hl)), if_neg (fun h => h hk), hw]
  rfl

theorem execReceiverIdent_of_right (hk : i.kind = 2202) (hw : wrongInput a b s.isPair = none) :
    execReceiverIdent l i a b s = .next (if i.version = s.life.parts.receiver then ((s.identified l i a b).identKnown l).linkConfig l
      else ((s.identified l i a b).identKnown l).emit (.gateConfig l 3 [(s.life.parts.receiver.toNat : Int)])) := by
  rw [execReceiverIdent, if_neg (Bool.eq_false_iff.mp (identStarts hs hl)), if_neg (fun h => h hk), hw]
  rfl

end

section
variable {l : Nat} (hl : l < s.gate.receivers.length) (i : Ident) (a b : Nat)
include hl

theorem State.identified_receiver : (s.identified l i a b).receiver l = { s.receiver l with
    kind := i.kind, revision := i.revision, version := i.version, serial := i.serial, seen1 := a, seen2 := b } :=
  State.receiver_onReceiver _ hl

theorem State.identWrong_receiver (n want seen : Nat) :
    ((s.identified l i a b).identWrong l n want seen).receiver l = { (s.identified l i a b).receiver l with miswired := true } :=
  State.receiver_onReceiver _ (by rw [State.identified, State.onReceiver_count]; exact hl)

theorem State.identKnown_receiver :
    ((s.identified l i a b).identKnown l).receiver l = { (s.identified l i a b).receiver l with known := true, miswired := false } :=
  State.receiver_onReceiver _ (by rw [State.identified, State.onReceiver_count]; exact hl)

theorem State.linkConfig_receiver : (s.linkConfig l).receiver l = { s.receiver l with started := true, confAt := s.now, statusAt := s.now } :=
  State.receiver_onReceiver (s := (s.emit (.gateConfig l 0 [Fld.glCfg_DEAD s.cfg, Fld.glCfg2_MINP s.cfg, Fld.glCfg_REPEAT s.cfg,
    Fld.glCfg2_RX_TIMEOUT s.cfg, Fld.glLim0_PHASE_OC s.cfg])).emit (.gateConfig l 1 [])) _ hl

end

theorem State.linkConfig_out (s : State) (l : Nat) : (s.linkConfig l).out = .gateConfig l 1 [] :: .gateConfig l 0 [Fld.glCfg_DEAD s.cfg,
    Fld.glCfg2_MINP s.cfg, Fld.glCfg_REPEAT s.cfg, Fld.glCfg2_RX_TIMEOUT s.cfg, Fld.glLim0_PHASE_OC s.cfg] :: s.out := rfl

theorem State.emit_receiver (s : State) (o : Out) (l : Nat) : (s.emit o).receiver l = s.receiver l := rfl

theorem State.identKnown_length (l : Nat) (i : Ident) (a b : Nat) :
    ((s.identified l i a b).identKnown l).gate.receivers.length = s.gate.receivers.length := by
  simp only [State.identKnown, State.identified, State.onReceiver_count]

theorem execStationFwLoadDone_of_gate {l : Fin 8} (hl : l.val < s.links) (hk : (s.receiver l).known = true)
    (hg : s.gate.stage = .off ∨ s.gate.stage = .armed) : execStationFwLoadDone true l s.life.parts.receiver s =
      .next ((s.onReceiver l (fun r => { r with version := s.life.parts.receiver })).linkConfig l) := by
  have hload : (decide (s.links ≤ l) || !(s.receiver l).known || decide (s.gate.stage ≠ .off ∧ s.gate.stage ≠ .armed)) = false := by
    obtain h | h := hg <;> simp [hk, hl, h]
  rw [execStationFwLoadDone, if_pos rfl, if_pos rfl, State.receiverLoaded, if_neg (Bool.eq_false_iff.mp hload)]

/-! ### Delays (R218) -/

/-- The averaged delay of a link is written to its receiver. -/
def State.delayUpdate (u : State) (l : Nat) : State :=
  let r := u.receiver l
  if r.delayN = 0 then u
  else
    let d := Config.quot r.delaySum (2 * r.delayN : Nat)
    (u.onReceiver l (fun x => { x with delay := d, delaySum := 0, delayN := 0 })).emit (.gateConfig l 2 [if u.isJunior then 2 else 1, d])

theorem execGateDelayUpdate_eq (s : State) (n : Nat) : execGateDelayUpdate n s =
    .next ((List.range (s.advance (n * 1000000000)).links).foldl State.delayUpdate (s.advance (n * 1000000000))) := rfl

theorem State.delayUpdates_of_none (h : ∀ l, (s.receiver l).delayN = 0) (ls : List Nat) : ls.foldl State.delayUpdate s = s := by
  induction ls with
  | nil => rfl
  | cons l ls ih => rw [List.foldl_cons, State.delayUpdate, if_pos (h l), ih]

theorem State.delayUpdate_does {l : Nat} (hl : l < s.gate.receivers.length) (h : (s.receiver l).delayN ≠ 0) :
    let d := Config.quot (s.receiver l).delaySum (2 * (s.receiver l).delayN : Nat)
    ((s.delayUpdate l).receiver l).delay = d ∧ ((s.delayUpdate l).receiver l).delayN = 0
      ∧ (s.delayUpdate l).out = .gateConfig l 2 [if s.isJunior then 2 else 1, d] :: s.out := by
  have hr := State.receiver_onReceiver (fun x : Receiver => { x with
    delay := Config.quot (s.receiver l).delaySum (2 * (s.receiver l).delayN : Nat), delaySum := 0, delayN := 0 }) hl
  dsimp only
  rw [State.delayUpdate]
  dsimp only
  rw [if_neg h]
  exact ⟨congrArg Receiver.delay hr, congrArg Receiver.delayN hr, rfl⟩

end

theorem State.delayUpdates_of_one {s : State} (hl : s.links = 1) (hlen : 0 < s.gate.receivers.length) (h : (s.receiver 0).delayN ≠ 0) :
    let t := (List.range s.links).foldl State.delayUpdate s
    let d := Config.quot (s.receiver 0).delaySum (2 * (s.receiver 0).delayN : Nat)
    (t.receiver 0).delay = d ∧ (t.receiver 0).delayN = 0 ∧ t.out = .gateConfig 0 2 [if s.isJunior then 2 else 1, d] :: s.out := by
  rw [hl]
  exact State.delayUpdate_does hlen h

/-! ### The statement on the gate links -/

/-- Settles O16: frames by `execEdgeRelease_of_on` and `execGateStatusReceived_of_good`, receivers by the three cases of
`execReceiverIdent`, delays by `State.delayUpdate_does`. -/
theorem gateCommands : Obligations.GateCommands := by
  refine ⟨?_, ?_, ?_, ?_, ?_, ?_, ?_, ?_, ?_, ?_, ?_, ?_, ?_, ?_, ?_, ?_, ?_, ?_⟩
  · intro s p h
    exact ⟨_, congrArg Host.Outcome.next (if_pos (by rw [h]; rfl)), rfl⟩
  · exact fun s p h => ⟨_, execEdgeRelease_of_on h _ rfl, rfl⟩
  · exact fun s p k drive due => rfl
  · intro s p k x hx hp hr
    exact State.edgeRestart_done 0 hp (by rw [hx]; exact hr)
  · exact fun s l b x h => ⟨_, congrArg Host.Outcome.next (by rw [h]), rfl⟩
  · intro s l b x f h hl hj
    exact ⟨_, execGateStatusReceived_of_good h hl, if_neg (Bool.eq_false_iff.mp hj)⟩
  · intro s l b x f h hl hj
    exact ⟨_, execGateStatusReceived_of_good h hl, if_pos hj⟩
  · intro s l hl hst
    have hin : ¬(decide (s.links ≤ l) || !(s.receiver l).started) = true := by simp [hl, hst]
    exact ⟨_, congrArg Host.Outcome.next (if_neg hin), rfl⟩
  · intro s l hst
    exact ⟨_, congrArg Host.Outcome.next (if_pos (by rw [hst, Bool.not_false, Bool.or_true])), rfl⟩
  · exact fun s => ⟨_, rfl, rfl, rfl, rfl⟩
  · intro s l i a b hs hl hk
    refine ⟨_, execReceiverIdent_of_kind hs hl hk, fun hlen => ?_, State.raise_saw ..⟩
    rw [State.identWrong_receiver hlen, State.identified_receiver hlen]
    exact ⟨rfl, rfl⟩
  · intro s l i a b hs hl hk ha
    have hw : wrongInput a b s.isPair = some (1, 1, 2) := by rw [wrongInput, if_pos ha, ha]
    exact ⟨_, execReceiverIdent_of_wrong hs hl hk hw, State.raise_saw ..⟩
  · intro s l i a b hs hl hk ha hp hb
    have hw : wrongInput a b s.isPair = some (2, 2, 1) := by rw [wrongInput, if_neg ha, if_pos (.inl hb), hp, hb]; rfl
    exact ⟨_, execReceiverIdent_of_wrong hs hl hk hw, State.raise_saw ..⟩
  · intro s l i a b hs hl hk hw hsz hv
    have hlen := hsz.receiver_lt l
    refine ⟨_, execReceiverIdent_of_right hs hl hk hw, ?_⟩
    dsimp only
    rw [if_pos hv, State.linkConfig_receiver (by rw [State.identKnown_length]; exact hlen), State.identKnown_receiver hlen,
      State.identified_receiver hlen, State.linkConfig_out]
    exact ⟨rfl, rfl, rfl, rfl⟩
  · intro s l i a b hs hl hk hw hsz hv
    have hlen := hsz.receiver_lt l
    have hr := State.identKnown_receiver (s := s) hlen i a b
    rw [State.identified_receiver hlen] at hr
    refine ⟨_, execReceiverIdent_of_right hs hl hk hw, ?_⟩
    dsimp only
    rw [if_neg hv, State.emit_receiver, hr]
    exact ⟨rfl, rfl, rfl⟩
  · intro s l hl hk hg hsz
    have hlen := hsz.receiver_lt l
    have hr := State.receiver_onReceiver (fun r => { r with version := s.life.parts.receiver }) hlen
    refine ⟨_, execStationFwLoadDone_of_gate hl hk hg, ?_⟩
    dsimp only
    rw [State.linkConfig_receiver (by rw [State.onReceiver_count]; exact hlen), hr]
    exact ⟨rfl, rfl⟩
  · intro s n h
    exact ⟨_, execGateDelayUpdate_eq s n, State.delayUpdates_of_none (fun l => by rw [State.advance_receiver]; exact h l) _⟩
  · intro s n hl hn hsz
    have hdo := State.delayUpdates_of_one (s := s.advance (n * 1000000000)) (by rw [State.advance_links]; exact hl)
      (by rw [State.advance_gate]; exact hsz.receiver_lt 0) (by rw [State.advance_receiver]; exact hn)
    rw [State.advance_receiver, State.advance_isJunior, State.advance_out] at hdo
    exact ⟨_, execGateDelayUpdate_eq s n, hdo⟩

/-! ### Trips (R221, R222) -/

section
variable {s : State}

theorem State.stageTrip_gate_of_tripped (h : s.gate.stage = .tripped) (a b c d : Nat) :
    (s.stageTrip a b c d).gate.lastTrip = s.gate.lastTrip ∧ (s.stageTrip a b c d).gate.trips = satAdd s.gate.trips 1 255 := by
  rw [State.stageTrip, h]
  exact ⟨rfl, rfl⟩

/-- A first trip ends an impedance run, and what it says of itself is kept. -/
theorem State.stageTrip_of_first (h : s.gate.stage ≠ .off) (h' : s.gate.stage ≠ .tripped) (a b c d : Nat) :
    let u := ((s.raise Ev.stageTrip [(a : Int), b, c, d]).sendStop).abandonRun 0
    (s.stageTrip a b c d).gate.lastTrip = some a ∧ (s.stageTrip a b c d).gate.trips = satAdd u.gate.trips 1 255
      ∧ (s.stageTrip a b c d).out = u.out := by
  have hfirst : decide (s.gate.stage ≠ .tripped) = true := decide_eq_true h'
  dsimp only
  unfold State.stageTrip
  split
  · contradiction
  · simp only [hfirst, if_true, and_self]

end

/-! ### Delays (R225) -/

/-- The stage enters RAMP. -/
def State.rampBegun (t : State) : State :=
  let u := (t.onGate (fun g => { g with stage := .ramp, since := t.now, modeOff := false })).onPhases (fun p x => { x with
    active := p < 2 * t.links, ready := false, integ := 0, restart := some t.now, waiting := false, fade := 0, rst := 0, err := 0
    pred := 50000000 * (t.rx p).i, dNum := 0, dDen := 1 })
  ((u.evenShares).spread (fun _ => true)).onLoop (fun l => { l with
    r := 1000000 * t.meas.iLast.getD 0, shed := .steady, lowSince := none, place := l.mode = 2 })

theorem State.rampBegun_does (s : State) : s.rampBegun.gate.stage = .ramp ∧ s.rampBegun.loop.r = 1000000 * s.meas.iLast.getD 0
    ∧ s.rampBegun.loop.shed = .steady := ⟨rfl, rfl, rfl⟩

theorem execStartDelayEnd_of_delay {s : State} (h : s.gate.stage = .startDelay) :
    execStartDelayEnd s = .next (s.advance (s.delayEnd (Fld.stageStart_DELAY s.cfg))).rampBegun := by
  rw [execStartDelayEnd, h]
  rfl

/-! ### The stage commands of the host (R222, R224, R226) -/

section
variable {s t : State} {q : Fin 32} {d : Desc} {op : Nat}

theorem stageRow_of_ok (h : s.Turn q 0x11 (op0 op) d t) (hok : t.stageStatus 0 op = St.ok) : s.stageRow q op =
    ((t.onDisp (fun x => { x with notReady := x.notReady && decide (op ≠ 1) })).forward d.cmd 0 (fun u => u.stageOp op)).ends q 0 0 [] := by
  refine hostRow_silent h (aw := false) ?_
  dsimp only
  rw [hok]
  exact if_pos rfl

theorem stageRow_of_refused (h : s.Turn q 0x11 (op0 op) d t) (hno : t.stageStatus 0 op ≠ St.ok) : s.stageRow q op =
    (if t.stageStatus 0 op = St.stageNotReady then t.noteNotReady else t).refuses q (t.stageStatus 0 op) 0 :=
  hostRow_refuseAs h (if_neg hno)

/-- Only an enable ends what a refused enable has left. -/
theorem State.onDisp_notReady_of_ne (hop : op ≠ 1) :
    t.onDisp (fun x => { x with notReady := x.notReady && decide (op ≠ 1) }) = t := by
  simp only [decide_eq_true hop, Bool.and_true]
  rfl

end

/-! ### The statement on the stage -/

/-- Settles O17: the host's commands by `stageRow_of_ok` and `stageRow_of_refused`, trips by `State.stageTrip_of_first`, the rest by each
command's definition. -/
theorem stageCommands : Obligations.StageCommands := by
  refine ⟨?_, ?_, ?_, ?_, ?_, ?_, ?_, ?_, ?_, ?_, ?_, ?_, ?_, ?_, ?_, ?_, ?_⟩
  · intro s t q d h hp he
    have hst : t.stageStatus 0 1 = St.ok := by simp [State.stageStatus, hp, he]
    refine congrArg Host.Outcome.next ((stageRow_of_ok h hst).trans ?_)
    simp
  · intro s t q d h
    refine congrArg Host.Outcome.next ((stageRow_of_ok h rfl).trans ?_)
    rw [State.onDisp_notReady_of_ne (by decide)]
  · intro s t q d h
    refine congrArg Host.Outcome.next ((stageRow_of_ok h rfl).trans ?_)
    rw [State.onDisp_notReady_of_ne (by decide)]
  · intro s t q d h hst
    refine congrArg Host.Outcome.next ((stageRow_of_ok h hst).trans ?_)
    rw [State.onDisp_notReady_of_ne (by decide)]
  · intro s t q d h hst hat
    have hno : t.stageStatus 0 4 = St.stageTripped := by
      change t.tripResetStatus = _
      simp only [State.tripResetStatus, hst]
      exact if_pos (.inl hat)
    refine congrArg Host.Outcome.next ((stageRow_of_refused h (by rw [hno]; decide)).trans ?_)
    rw [hno]
    rfl
  · intro s t q d h hp
    have hno : t.stageStatus 0 1 = St.dispatchSource := by simp [State.stageStatus, hp]
    refine congrArg Host.Outcome.next ((stageRow_of_refused h (by rw [hno]; decide)).trans ?_)
    rw [hno]
    rfl
  · intro s t q d h hp he
    have hno : t.stageStatus 0 1 = St.stageNotReady := by simp [State.stageStatus, hp, he]
    refine congrArg Host.Outcome.next ((stageRow_of_refused h (by rw [hno]; decide)).trans ?_)
    rw [hno]
    rfl
  · exact fun s h => if_pos h
  · exact fun s h hc => (if_neg (Bool.eq_false_iff.mp h)).trans (if_pos (by rw [hc]; rfl))
  · intro s h
    have hbegin := (s.advance (s.delayEnd (Fld.stageStart_DELAY s.cfg))).rampBegun_does
    rw [State.advance_meas] at hbegin
    exact ⟨_, execStartDelayEnd_of_delay h, hbegin⟩
  · intro s h
    exact ⟨_, congrArg Host.Outcome.next (by rw [h]), rfl, rfl⟩
  · intro s h hr hi
    refine ⟨s.onGate (fun g => { g with modeOff := true }), ?_, rfl⟩
    show execStopRampEnd s = _
    rw [execStopRampEnd, h]
    exact congrArg Host.Outcome.next (if_pos ⟨hr, hi⟩)
  · intro s h hm
    refine ⟨((s.advance (s.gate.stopEnd + 100000000)).onGate (fun g => { g with modeOff := true })).raise Ev.stageStopForced
      [s.meas.iLast.getD 0], ?_, rfl, State.raise_saw ..⟩
    show execStageStopForced s = _
    rw [execStageStopForced, h, hm]
    dsimp only
    rw [if_neg Bool.false_ne_true, State.advance_meas]
  · intro s a ha hl hr
    refine ⟨(s.advance (a + 100000000)).stageTrip 3 0 255 255, ?_, rfl⟩
    show execArmTimeout s = _
    rw [execArmTimeout, ha, hl]
    simp [List.range_succ, hr]
  · exact fun s a b c d h => State.stageTrip_of_off h a b c d
  · intro s a b c d h
    have hoff : s.gate.stage ≠ .off := by rw [h]; decide
    obtain ⟨hlast, htrips⟩ := State.stageTrip_gate_of_tripped h a b c d
    exact ⟨State.stageTrip_stage hoff a b c d, hlast, htrips, State.stageTrip_saw hoff a b c d⟩
  · intro s a b c d hoff hnt
    obtain ⟨hlast, htrips, hout⟩ := State.stageTrip_of_first hoff hnt a b c d
    refine ⟨State.stageTrip_stage hoff a b c d, hlast, ?_, State.stageTrip_saw hoff a b c d, fun l hl => ?_⟩
    · rw [htrips, State.abandonRun_same _ (q := .gate) 0 (by decide)]
      rfl
    · rw [hout, State.abandonRun_same _ (q := .out) 0 (by decide)]
      exact List.mem_append_left _ (List.mem_reverse.mpr (List.mem_map_of_mem (f := fun l => Out.gate l _) (List.mem_range.mpr hl)))

end Sys2Proof.Machine
end

section
/-! PROOFS. Telemetry and last-fault records (08), the loop engines (09): ramps, demands, sheds, captures, and the statements of the three
families. -/
namespace Sys2Proof.Machine

section
variable {s t : State}

/-! ### Telemetry and last-fault records (R227, R228) -/

theorem toLe_length (v k : Nat) : (toLe v k).length = k := by
  induction k generalizing v with
  | zero => rfl
  | succ k ih => exact congrArg (· + 1) (ih _)

theorem packBytes_length (l : List (Nat × Int)) : (packBytes l).length = (l.map Prod.fst).sum := by
  simp only [packBytes, List.length_flatMap, toLe_length]

theorem sealed_length (l : List Byte) : (sealed l).length = l.length + 4 := by
  rw [sealed, List.length_append, toLe_length]

theorem FaultRec.bytes_length (r : FaultRec) : r.bytes.length = 256 + 2 * r.data.length := by
  simp only [FaultRec.bytes, List.length_append, sealed_length, packBytes_length, toLe_length, List.map_append, List.map_cons, List.map_nil,
    List.map_replicate, List.sum_append, List.sum_replicate_nat, List.map_map, Function.comp_def, List.map_const', List.sum_cons, List.sum_nil]
  omega

/-- A capture whose last class record still waits replaces it; without one it stands alone. -/
theorem execFaultCaptureDone_of_first {r : FaultRec} (h : s.gate.captures = [⟨r, false⟩]) (hl : 32768 ≤ r.data.length) :
    execFaultCaptureDone s = .next (s.onGate (fun g => { g with captures := [⟨{ r with lost := 0 }, true⟩] })) := by
  simp [execFaultCaptureDone, h, hl]

theorem execFaultCaptureDone_of_waiting {r x : FaultRec} (h : s.gate.captures = [⟨x, true⟩, ⟨r, false⟩]) (hl : 32768 ≤ r.data.length)
    (hc : x.cls = r.cls) : execFaultCaptureDone s =
      .next (s.onGate (fun g => { g with captures := [⟨{ r with lost := satAdd x.lost 1 255 }, true⟩] })) := by
  simp [execFaultCaptureDone, h, hl, hc]

theorem execFaultRecordWritten_of_waiting {r : FaultRec} (hb : s.nvmBarred = false) (h : s.gate.captures = [⟨r, true⟩]) :
    execFaultRecordWritten s = .next (s.onGate (fun g => { g with
      slots := g.slots.set r.cls (some r), newBits := g.newBits.set r.cls true, captures := [] })) := by
  simp [execFaultRecordWritten, hb, h, State.onGate]

section
variable {d : Desc} (hc : d.argByte 0 ≤ 11) (hn : d.argByte 1 ≤ 1)
include hc hn

theorem faultReadOp_of_none (h : t.gate.slots.getD (d.argByte 0) none = none) : faultReadOp t d = .refuse St.noRecord 0 := by
  simp only [faultReadOp, if_neg (Nat.not_lt.mpr hc), if_neg (Nat.not_lt.mpr hn), h]

theorem faultReadOp_of_some {r : FaultRec} (h : t.gate.slots.getD (d.argByte 0) none = some r) :
    faultReadOp t d = .accept 65792 false r.bytes
      (if d.argByte 1 = 1 then t.onGate (fun g => { g with newBits := g.newBits.set (d.argByte 0) false }) else t) := by
  simp only [faultReadOp, if_neg (Nat.not_lt.mpr hc), if_neg (Nat.not_lt.mpr hn), h]

end

/-- Settles O18: each row by the case of its captures or slots; a record's bytes counted field by field. -/
theorem faultRecordCommands : Obligations.FaultRecordCommands := by
  unfold Obligations.FaultRecordCommands
  refine ⟨?_, ?_, ?_, ?_, ?_, ?_, ?_, ?_, ?_⟩
  · intro s h
    exact ⟨_, congrArg Host.Outcome.next (if_neg (Nat.mul_ne_zero h (by decide))), rfl⟩
  · exact fun s t q d h hl => congrArg Host.Outcome.next (hostRow_done h rfl (.inr hl))
  · exact fun s r h hl => ⟨_, execFaultCaptureDone_of_first h hl, rfl⟩
  · exact fun s r x h hl hc => ⟨_, execFaultCaptureDone_of_waiting h hl hc, rfl⟩
  · exact fun s r hb h => ⟨_, execFaultRecordWritten_of_waiting hb h, rfl, rfl, rfl⟩
  · exact fun s hb => ⟨s, congrArg Host.Outcome.next (if_pos hb), rfl⟩
  · intro s t q d r h hc hn hs hl
    refine congrArg Host.Outcome.next ((hostRow_done h (faultReadOp_of_some hc (by omega) hs) (.inr hl)).trans ?_)
    rw [if_pos hn]
  · intro r hl
    rw [r.bytes_length, hl]
  · exact fun s t q d h hc hn hs => congrArg Host.Outcome.next (hostRow_refuse h (faultReadOp_of_none hc hn hs))

/-! ### The ramp (R237) -/

theorem State.rampStep_of_run (h : s.gate.stage = .run) : s.rampStep = s.onLoop (fun x => { x with
    r := clampI s.disp.limD s.disp.limC (if x.tgtMode = 2 then x.target else toward x.r x.target (s.slopeStep (s.rampTime.getD 0))) }) := by
  simp only [State.rampStep, h]

theorem State.rampStep_of_stopRamp (h : s.gate.stage = .stopRamp) : s.rampStep = s.onLoop (fun x => { x with
    r := clampI s.disp.limD s.disp.limC (toward s.loop.r 0 (s.slopeStep (Fld.stageStop_RAMP s.cfg))) }) := by
  simp only [State.rampStep, State.rampTime, h, Option.getD_some, State.onLoop]

theorem State.rampStep_stage_of_ramp (h : s.gate.stage = .ramp) : s.rampStep.gate.stage =
    if clampI s.disp.limD s.disp.limC (toward s.loop.r s.loop.target (s.slopeStep (Fld.stageStart_RAMP s.cfg))) = s.loop.target
      then .run else .ramp := by
  simp only [State.rampStep, State.rampTime, h, Option.getD_some]
  split
  · rfl
  · exact h

theorem State.rampStep_r_of_off (h : s.gate.stage = .off ∨ s.gate.stage = .armed ∨ s.gate.stage = .tripped) : s.rampStep.loop.r = 0 := by
  obtain h | h | h := h <;> simp only [State.rampStep, h] <;> rfl

/-! ### Demands and sheds (R232, R248 to R251) -/

theorem execStatusCutoff_of_off {p : Fin 16} (h : s.computesPhase p = false) :
    execStatusCutoff p s = .next (s.onRx p (fun r => { r with fresh := false })) :=
  congrArg Host.Outcome.next (if_pos (by rw [h]; rfl))

theorem execStatusCutoff_of_on {p : Fin 16} (h : s.computesPhase p = true) : execStatusCutoff p s = .next (
    let shift := moveShift s.fsw (s.phase p)
    let k := max ((s.phase p).done + 1) (firstFrom s.fsw (2 * s.now + 14000 - shift))
    let start := baseStart s.fsw k + shift
    ((s.advance ((start - 14000) / 2)).countSample p (k - 1) ((start - 8000) / 2)).phaseCompute p k shift) :=
  congrArg Host.Outcome.next (if_neg (by rw [h]; decide))

theorem State.countSample_fresh {p k release : Nat} (hp : p < s.gate.phases.length) (h : (s.rx p).seq ≠ BitVec.ofNat 32 k) :
    ((s.countSample p k release).rx p).fresh = false := by
  rw [State.countSample, State.rx_onRx _ hp]
  simp [h]

theorem execTargetRelease_of_cons {g m : Nat} {v : Int} {l : List (Nat × Int × Nat)} (h : s.loop.targets = (g, v, m) :: l) :
    execTargetRelease s = .next ((s.advance g).onLoop (fun x => { x with target := v, tgtMode := m, targets := l })) := by
  rw [execTargetRelease, h]

/-- The fade of a link's two phases begins. -/
def State.shedBegun (s : State) (l : Nat) : State :=
  ((s.onPhases (fun p x => if p / 2 = l then { x with fade := 16 } else x)).onLoop (fun x => { x with
    shed := .shedding l, lowSince := none })).onImp (fun i => { i with spoiled := true })

theorem execShedStart_of_low {a l : Nat} (ha : s.loop.lowSince = some a) (hl : s.linksOn.getLast? = some l) (hm : s.mayShed = true) :
    execShedStart s = .next ((s.advance (a + 1000000000)).shedBegun l) := by
  rw [execShedStart, ha, hl]
  exact congrArg Host.Outcome.next (if_pos hm)

theorem execShedStart_of_barred (h : s.mayShed = false) : execShedStart s = .next s := by
  rw [execShedStart]
  split
  · rw [h]
    rfl
  · rfl

theorem State.shedBegun_does (s : State) (l : Nat) : (s.shedBegun l).loop.shed = .shedding l ∧ (s.shedBegun l).loop.lowSince = none
    ∧ (s.shedBegun l).est.imp.spoiled = true
    ∧ (s.shedBegun l).loop.phases = mapIdxL (fun p (x : PhaseLoop) => if p / 2 = l then { x with fade := 16 } else x) s.loop.phases :=
  ⟨rfl, rfl, rfl, rfl⟩

theorem execShedDwellEnd_of_dwell {n : Nat} (h : s.loop.shed = .dwell n) :
    execShedDwellEnd s = .next ((s.advance n).onLoop (fun l => { l with shed := .steady })) := by
  rw [execShedDwellEnd, h]

theorem State.abortShed_aborts (s : State) : s.abortShed.loop.aborts = satAdd s.loop.aborts 1 255 := by
  have hspread (t : State) (f : Nat → Bool) : (t.spread f).loop.aborts = t.loop.aborts := rfl
  have heven (t : State) : t.evenShares.loop.aborts = t.loop.aborts := rfl
  exact congrArg (satAdd · 1 255) ((hspread _ _).trans (heven _))

/-- Settles O19: each row's case of the stage, the shed's state or the queue of demands. -/
theorem loopCommands : Obligations.LoopCommands := by
  unfold Obligations.LoopCommands
  refine ⟨?_, ?_, ?_, ?_, ?_, ?_, ?_, ?_, ?_, ?_, ?_, ?_, ?_, ?_, ?_⟩
  · exact fun s => ⟨_, rfl, rfl⟩
  · intro s h hm
    rw [State.rampStep_of_run h]
    simp only [State.onLoop, State.rampTime, h, if_neg hm, Option.getD_some]
  · intro s h hm
    rw [State.rampStep_of_run h]
    simp only [State.onLoop, if_pos hm]
  · exact fun s => State.rampStep_of_stopRamp
  · exact fun s => State.rampStep_stage_of_ramp
  · exact fun s => State.rampStep_r_of_off
  · exact fun s p h => ⟨_, execStatusCutoff_of_off h, rfl⟩
  · exact fun s p h => ⟨_, execStatusCutoff_of_on h, rfl⟩
  · exact fun s p k release => State.countSample_fresh
  · exact fun s g m v l h => ⟨_, execTargetRelease_of_cons h, rfl⟩
  · exact fun s => ⟨_, rfl, rfl⟩
  · exact fun s => ⟨s.abortShed_aborts, rfl⟩
  · intro s a l ha hl hm
    have hbegin := (s.advance (a + 1000000000)).shedBegun_does l
    rw [State.advance_loop] at hbegin
    exact ⟨_, execShedStart_of_low ha hl hm, hbegin⟩
  · exact fun s h => ⟨s, execShedStart_of_barred h, rfl⟩
  · exact fun s n h => ⟨_, execShedDwellEnd_of_dwell h, rfl⟩

/-! ### Captures and injections (R254 to R257) -/

section
variable {q op : Nat} {d : Desc} {own : State → Nat → Cmd → Verdict} (h : s.Turn q 0x33 (op0 op) d t) (he : d.argByte 1 ≤ 3)
include h he

theorem State.diagRow_accept {aw : Bool} {u : State} (ho : own t (d.argByte 1) d.cmd = .accept 0 aw [] u) :
    s.diagRow q op own = u.ends q 0 (bit aw) [] :=
  hostRow_silent h ((if_neg (Nat.not_lt.mpr he)).trans ho)

theorem State.diagRow_refuse {st det : Nat} (ho : own t (d.argByte 1) d.cmd = .refuse st det) : s.diagRow q op own = t.refuses q st det :=
  hostRow_refuse h ((if_neg (Nat.not_lt.mpr he)).trans ho)

end

theorem State.diagMet_of_rise {e : Nat} {a b : Int} (ht : Fld.diagCfg_TRIG s.cfg e = 1) (hl : (s.diag e).level = [b, a]) :
    s.diagMet e = decide (a < Fld.diagCfg_LEVEL s.cfg e ∧ Fld.diagCfg_LEVEL s.cfg e ≤ b) := by
  simp only [State.diagMet, ht, hl]

/-- Settles O20: a DIAG operation's own checks in their order; a trigger, a full memory and an expiry by their guards. -/
theorem diagCommands : Obligations.DiagCommands := by
  unfold Obligations.DiagCommands
  refine ⟨?_, ?_, ?_, ?_, ?_, ?_, ?_, ?_, ?_, ?_⟩
  · intro s t q d h he hu hd hst
    refine congrArg Host.Outcome.next (State.diagRow_accept (aw := false) h he ?_)
    simp only [if_neg hu, hd, hst, ne_eq, not_true_eq_false, Bool.false_eq_true, or_self, if_false]
  · exact fun s t q d h he hu => congrArg Host.Outcome.next (State.diagRow_refuse h he (if_pos hu))
  · intro s t q d h he hu hst hg hi
    refine congrArg Host.Outcome.next (State.diagRow_accept h he ?_)
    simp only [hu, hst, hg, hi, ne_eq, not_true_eq_false, or_self, if_false]
  · intro s t q d h he hu hst hg
    refine congrArg Host.Outcome.next (State.diagRow_refuse h he ?_)
    simp only [hu, hst, hg, ne_eq, not_true_eq_false, not_false_eq_true, or_self, if_false, if_true]
  · exact fun s e ha hg => if_pos ⟨ha, hg⟩
  · exact fun s t q d h he => congrArg Host.Outcome.next (State.diagRow_accept (aw := false) h he rfl)
  · exact fun s e ha hu hm => ⟨_, congrArg Host.Outcome.next (if_pos ⟨ha, hu, hm⟩), rfl⟩
  · exact fun s e a b => State.diagMet_of_rise
  · exact fun s e hc hl => ⟨_, congrArg Host.Outcome.next (if_pos ⟨hc, hl⟩), rfl⟩
  · exact fun s w hfind hw => ⟨_, rfl, State.expireBoth_does hfind hw _ _⟩

end

end Sys2Proof.Machine
end

section
/-! PROOFS. How a twin leaves the pair (16 R425, R427) and what the safe state leaves in the safety functions (12 R320), for the families
that follow; thermal management (10) and the statements of its two families. -/
namespace Sys2Proof.Machine

section
variable {s : State}

/-! ### Leaving the pair -/

theorem State.pairSend_twin (s : State) (f : PairFrame) : ∃ n, (s.pairSend f).twin = { s.twin with pseq := n } := by
  unfold State.pairSend
  split
  · exact ⟨_, rfl⟩
  · exact ⟨_, rfl⟩

theorem State.pairSend_records (f : PairFrame) : s.Records (s.pairSend f) :=
  .of_eq (s.pairSend_same (q := .rec_) f (by decide)) (s.pairSend_same (q := .time) f (by decide))

/-- The withdrawals of the last 24 h and this one. -/
def State.withdrawals (s : State) (cause : Nat) : List (Nat × Nat) :=
  (s.now, cause) :: s.twin.history.filter (fun e => decide (s.now < e.1 + day))

/-- A withdrawal is final. -/
def State.retires (s : State) (cause : Nat) (stay : Bool) : Bool :=
  stay || (decide (cause ≠ 10) && decide (3 ≤ countedWithdrawals (s.withdrawals cause)))

theorem State.releasePins_same (s : State) {q : Part} (hq : q ∉ [Part.out]) : q.same s s.releasePins := by
  have head := Part.may_among_head
  exact (State.releasePins_holds (R := false) (.refl nofun)).same_of_not_mem hq

theorem State.releasePins_records : s.Records s.releasePins :=
  .of_eq (s.releasePins_same (q := .rec_) (by decide)) (s.releasePins_same (q := .time) (by decide))

/-- The twin's outputs and CAN frames are off, and it is out of the pair. -/
def State.outOfPair (s : State) (cause : Nat) (retire : Bool) (hist : List (Nat × Nat)) : State :=
  let u := s.outsOff.cancelCan
  { u with
    twin := { u.twin with
      st := if retire then .retired else .withdrawn
      cause := cause, history := hist, txOff := true, bridging := true, catchUp := none, joinDue := false
      becomeAlone := none }
    time := { u.time with leader := false }
    safety := { u.safety with bridges := true } }

/-- The twin has left the pair; its notice is sent. -/
def State.leftAs (s : State) (cause : Nat) (retire : Bool) (hist : List (Nat × Nat)) : State :=
  ((s.pairSend (.notice 1 cause 0)).raise Ev.twinWithdraw [cause]).releasePins.outOfPair cause retire hist

def State.left (s : State) (cause : Nat) (stay : Bool) : State := s.leftAs cause (s.retires cause stay) (s.withdrawals cause)

theorem State.withdraw_eq (h : s.twin.st ≠ .withdrawn ∧ s.twin.st ≠ .retired ∧ s.twin.st ≠ .catching) (cause : Nat) (stay : Bool) :
    s.withdraw cause stay =
      if s.retires cause stay && decide (3 ≤ countedWithdrawals (s.withdrawals cause)) then
        ((s.left cause stay).raise Ev.twinRetired [cause]).pairSend (.notice 5 cause 0)
      else if s.retires cause stay then (s.left cause stay).pairSend (.notice 5 cause 0) else s.left cause stay := by
  obtain ⟨hw, hr, hc⟩ := h
  unfold State.withdraw
  split
  · contradiction
  · contradiction
  · contradiction
  · rfl

/-- What leaving makes of the twin's record. -/
def Twin.left (x : Twin) (cause : Nat) (retire : Bool) (hist : List (Nat × Nat)) (n : Word) : Twin := { x with
  st := if retire then .retired else .withdrawn
  cause := cause, history := hist, txOff := true, bridging := true, catchUp := none, joinDue := false, becomeAlone := none, pseq := n }

theorem State.outOfPair_twin (s : State) (cause : Nat) (retire : Bool) (hist : List (Nat × Nat)) :
    (s.outOfPair cause retire hist).twin = s.twin.left cause retire hist s.twin.pseq := rfl

theorem State.leftAs_twin (s : State) (cause : Nat) (retire : Bool) (hist : List (Nat × Nat)) :
    ∃ n, (s.leftAs cause retire hist).twin = s.twin.left cause retire hist n := by
  obtain ⟨n, hn⟩ := s.pairSend_twin (.notice 1 cause 0)
  refine ⟨n, ?_⟩
  rw [State.leftAs, State.outOfPair_twin, State.releasePins_same _ (q := .twin) (by decide), State.raise_twin, hn]
  rfl

/-- What leaving makes of the safety functions. -/
def Safety.left (x : Safety) (now : Nat) : Safety := { x with
  outs := x.outs.map (fun o => { o with hi := false, lo := false, testing := none, cmdAt := now }), contactor := .open_, bridges := true }

theorem State.outOfPair_safety (s : State) (cause : Nat) (retire : Bool) (hist : List (Nat × Nat)) :
    (s.outOfPair cause retire hist).safety = s.safety.left s.now := rfl

theorem State.leftAs_safety (s : State) (cause : Nat) (retire : Bool) (hist : List (Nat × Nat)) :
    (s.leftAs cause retire hist).safety = s.safety.left s.now := by
  rw [State.leftAs, State.outOfPair_safety, State.now_of_time _ (State.releasePins_same _ (q := .time) (by decide)),
    State.releasePins_same _ (q := .safety) (by decide), State.raise_safety, State.raise_now, s.pairSend_same (q := .safety) _ (by decide),
    State.now_of_time s (s.pairSend_same (q := .time) _ (by decide))]

theorem State.outOfPair_records (s : State) (cause : Nat) (retire : Bool) (hist : List (Nat × Nat)) : s.Records (s.outOfPair cause retire hist) :=
  ⟨.of_eq rfl, rfl⟩

theorem State.leftAs_saw (s : State) (cause : Nat) (retire : Bool) (hist : List (Nat × Nat)) :
    (s.leftAs cause retire hist).Saw Ev.twinWithdraw [cause] :=
  (State.raise_saw (s.pairSend (.notice 1 cause 0)) Ev.twinWithdraw [cause]).mono (State.releasePins_records.trans (State.outOfPair_records ..))

theorem State.leftAs_records (s : State) (cause : Nat) (retire : Bool) (hist : List (Nat × Nat)) : s.Records (s.leftAs cause retire hist) :=
  (State.pairSend_records _).trans ((State.raise_records _ Ev.twinWithdraw [cause]).trans
    (State.releasePins_records.trans (State.outOfPair_records ..)))

section
variable (h : s.twin.st ≠ .withdrawn ∧ s.twin.st ≠ .retired ∧ s.twin.st ≠ .catching) (cause : Nat) (stay : Bool)
include h

theorem State.withdraw_twin : ∃ n, (s.withdraw cause stay).twin = s.twin.left cause (s.retires cause stay) (s.withdrawals cause) n := by
  obtain ⟨n, hn⟩ := s.leftAs_twin cause (s.retires cause stay) (s.withdrawals cause)
  have hsend (u : State) (hu : u.twin = (s.left cause stay).twin) : ∃ n, (u.pairSend (.notice 5 cause 0)).twin =
      s.twin.left cause (s.retires cause stay) (s.withdrawals cause) n := by
    obtain ⟨m, hm⟩ := u.pairSend_twin (.notice 5 cause 0)
    exact ⟨m, by rw [hm, hu, State.left, hn]; rfl⟩
  rw [State.withdraw_eq h]
  split
  · exact hsend _ rfl
  · split
    · exact hsend _ rfl
    · exact ⟨n, hn⟩

theorem State.withdraw_safety : (s.withdraw cause stay).safety = s.safety.left s.now := by
  have hsend (u : State) (hu : u.safety = (s.left cause stay).safety) :
      (u.pairSend (.notice 5 cause 0)).safety = (s.left cause stay).safety := (u.pairSend_same (q := .safety) _ (by decide)).trans hu
  rw [State.withdraw_eq h, ← s.leftAs_safety cause (s.retires cause stay) (s.withdrawals cause)]
  split
  · exact hsend _ rfl
  · split
    · exact hsend _ rfl
    · rfl

theorem State.withdraw_leaves : ((s.withdraw cause stay).twin.st = .withdrawn ∨ (s.withdraw cause stay).twin.st = .retired)
    ∧ (s.withdraw cause stay).twin.txOff = true ∧ (s.withdraw cause stay).twin.cause = cause := by
  obtain ⟨n, hn⟩ := State.withdraw_twin h cause stay
  rw [hn]
  refine ⟨?_, rfl, rfl⟩
  by_cases hr : s.retires cause stay = true
  · exact .inr (if_pos hr)
  · exact .inl (if_neg hr)

theorem State.withdraw_records_left : (s.left cause stay).Records (s.withdraw cause stay) := by
  rw [State.withdraw_eq h]
  refine .ite ((State.raise_records _ _ _).trans (State.pairSend_records _)) (.ite (State.pairSend_records _) (.refl _))

theorem State.withdraw_records : s.Records (s.withdraw cause stay) :=
  (s.leftAs_records cause _ _).trans (State.withdraw_records_left h cause stay)

theorem State.withdraw_saw : (s.withdraw cause stay).Saw Ev.twinWithdraw [cause] :=
  (s.leftAs_saw cause _ _).mono (State.withdraw_records_left h cause stay)

end

/-- What leaving the pair does not touch. -/
theorem State.withdraw_same (s : State) (cause : Nat) (stay : Bool) {q : Part}
    (hq : q ∉ [Part.time, .safety, .plant, .twin, .rec_, .out]) : q.same s (s.withdraw cause stay) := by
  have head := Part.may_among_head
  have tail := Part.may_among_tail
  exact (State.withdraw_holds (R := false) (.refl nofun)).same_of_not_mem hq

theorem State.present_of_joined (h : s.twin.st = .joined) : s.twin.st ≠ .withdrawn ∧ s.twin.st ≠ .retired ∧ s.twin.st ≠ .catching := by
  rw [h]
  decide

/-! ### The safe state -/

/-- What entering the safe state latches, with the counts of the frame that leaves at once. -/
def Safety.entered (x : Safety) (fn now : Nat) (n : BitVec 16) (t : Nat) (w : Word) (b : Bool) : Safety := { x with
  safe := true, cause := fn, enteredAt := now, resetDue := none, sfSeq := n, sfLastAt := t, sfWord0 := w, sfSafe := b }

/-- The safe state changes the safety functions as the opening of the demanding engines' switches does, and latches itself. -/
theorem State.safeState_safety (h : s.safety.safe = false) (d : Demand) :
    ∃ n t w b, (s.safeState d).safety = (s.openSwitches d.engines).safety.entered d.fn s.now n t w b := by
  have hu (u : State) : ((u.stageTrip 7 255 255 255).abandonRun 0).safety = u.safety :=
    ((u.stageTrip 7 255 255 255).abandonRun_same (q := .safety) 0 (by decide)).trans (u.stageTrip_same (q := .safety) 7 255 255 255 (by decide))
  unfold State.safeState
  extract_lets t u
  have hus : u.safety = (s.openSwitches d.engines).safety := hu _
  rw [if_neg (Bool.eq_false_iff.mp h)]
  obtain ⟨n, i, w, b, hsend⟩ := State.sendSafetyFrame_safety (s := { u with safety := { u.safety with
    safe := true, cause := d.fn, enteredAt := s.now, resetDue := none } })
  exact ⟨n, i, w, b, hsend.trans (by rw [← hus]; rfl)⟩

theorem State.safeState_of_safe (h : s.safety.safe = true) (d : Demand) : s.safeState d = s.raise Ev.safeState d.said := by
  unfold State.safeState
  exact if_pos h

theorem State.safeState_needStart (s : State) (d : Demand) : (s.safeState d).safety.needStart = s.safety.needStart := by
  by_cases h : s.safety.safe = true
  · rw [State.safeState_of_safe h]
    rfl
  · obtain ⟨n, t, w, b, hs⟩ := State.safeState_safety (Bool.eq_false_iff.mpr h) d
    rw [hs]
    rfl

theorem State.internalFaultBy_needStart (s : State) (by_ engine : Nat) : (s.internalFaultBy by_ engine true).safety.needStart = true := by
  unfold State.internalFaultBy
  rw [State.safeState_needStart]
  exact Bool.or_true _

/-! ### The die (10 R277 to R279) -/

theorem State.dieEvents_same (s : State) (old new : Die) {q : Part} (hq : q ∉ [Part.rec_]) : q.same s (s.dieEvents old new) := by
  have head := Part.may_among_head
  exact (State.dieEvents_holds (R := false) (.refl nofun)).same_of_not_mem hq

theorem State.writeHistory_same (s : State) {q : Part} (hq : q ∉ [Part.fabric]) : q.same s s.writeHistory := by
  have head := Part.may_among_head
  exact (State.writeHistory_holds (R := false) (.refl nofun)).same_of_not_mem hq

theorem State.dieRead_therm (s : State) (r : List Int) : (s.dieRead r).therm = { s.therm with die := s.therm.die.sample r s.now } :=
  (State.writeHistory_same _ (q := .therm) (by decide)).trans (State.dieEvents_same _ _ _ (q := .therm) (by decide))

theorem State.dieRead_same (s : State) (r : List Int) {q : Part} (hq : q ∉ [Part.fabric, .therm, .rec_]) : q.same s (s.dieRead r) := by
  have head := Part.may_among_head
  have tail := Part.may_among_tail
  exact (State.dieRead_holds (R := false) (.refl nofun)).same_of_not_mem hq

theorem State.periodic_same (s : State) (i p : Nat) {q : Part} (hq : q ∉ [Part.time]) : q.same s (s.periodic i p) := by
  have head := Part.may_among_head
  exact (State.periodic_holds (R := false) (.refl nofun)).same_of_not_mem hq

/-- A sample of the die, before the shutdown is judged. -/
def State.dieSampled (s : State) (r : List Int) : State := (s.periodic 1 1000000).dieRead r

theorem State.dieSampled_die (s : State) (r : List Int) : ∃ n, (s.dieSampled r).therm.die = s.therm.die.sample r n := by
  have hp : (s.periodic 1 1000000).therm = s.therm := s.periodic_same 1 1000000 (q := .therm) (by decide)
  refine ⟨(s.periodic 1 1000000).now, ?_⟩
  rw [State.dieSampled, State.dieRead_therm, hp]

theorem State.dieSampled_same (s : State) (r : List Int) {q : Part} (hq : q ∉ [Part.time, .fabric, .therm, .rec_]) :
    q.same s (s.dieSampled r) := by
  have head := Part.may_among_head
  have tail := Part.may_among_tail
  exact (State.dieRead_holds (R := false) (State.periodic_holds (R := false) (.refl nofun))).same_of_not_mem hq

theorem State.dieSampled_actsSingle (s : State) (r : List Int) : (s.dieSampled r).actsSingle = s.actsSingle := by
  have htwin : (s.dieSampled r).twin = s.twin := s.dieSampled_same r (q := .twin) (by decide)
  have hlife : (s.dieSampled r).life = s.life := s.dieSampled_same r (q := .life) (by decide)
  have hchain : (s.dieSampled r).chain = s.chain := s.dieSampled_same r (q := .chain) (by decide)
  simp only [State.actsSingle, State.isAlone, isPair_of_same hchain hlife, htwin]

section
variable {a b c d : Int}

theorem execDieSample_of_cool (h : dieTemp [a, b, c, d] < 1250) : execDieSample a b c d s = .next (s.dieSampled [a, b, c, d]) := by
  obtain ⟨n, hdie⟩ := s.dieSampled_die [a, b, c, d]
  refine congrArg Host.Outcome.next (if_neg fun hc => ?_)
  have ht : 1250 ≤ (s.dieSampled [a, b, c, d]).therm.die.temp := hc.1
  rw [hdie] at ht
  exact absurd (Int.lt_of_lt_of_le h ht) (Int.lt_irrefl _)

theorem execDieSample_of_hot (h : 1250 ≤ dieTemp [a, b, c, d]) (hs : s.therm.die.shutdown = none) (ho : s.therm.die.off = false) :
    execDieSample a b c d s = .next (s.dieSampled [a, b, c, d]).dieShutdown := by
  obtain ⟨n, hdie⟩ := s.dieSampled_die [a, b, c, d]
  refine congrArg Host.Outcome.next (if_pos (c := 1250 ≤ (s.dieSampled [a, b, c, d]).therm.die.temp
    ∧ (s.dieSampled [a, b, c, d]).therm.die.shutdown.isNone ∧ (s.dieSampled [a, b, c, d]).therm.die.off = false) ?_)
  rw [hdie]
  exact ⟨h, (congrArg Option.isNone hs).trans rfl, ho⟩

end

/-- The shutdown's time is latched. -/
def State.dieLatched (s : State) : State := s.onTherm (fun x => { x with die := { x.die with shutdown := some (eventOf s.sysNs) } })

theorem State.dieShutdown_of_single (h : s.actsSingle = true) : s.dieShutdown = s.dieLatched.internalFault 0 true := if_pos h

theorem State.dieShutdown_of_pair (h : s.actsSingle = false) : s.dieShutdown = s.dieLatched.withdraw 3 false := if_neg (Bool.eq_false_iff.mp h)

/-- The core supply is off: what the write window's end leaves. -/
def State.coreOff (s : State) : State :=
  (((s.outsOff.loopsOpen.onTherm (fun x => { x with die := { x.die with off := true, coolFrom := none } })).onLedger (fun l => { l with
    writing := none })).onGate (fun g => { g with stage := .off, captures := [] })).onLife (fun l => { l with phase := .off })

theorem execDieWriteWindowEnd_of_shutdown {n : Nat} (h : s.therm.die.shutdown = some n) (ho : s.therm.die.off = false) :
    execDieWriteWindowEnd s = .next (s.advance (s.now + 2000000)).coreOff := by
  rw [execDieWriteWindowEnd, h]
  exact congrArg Host.Outcome.next (if_neg (Bool.eq_false_iff.mp ho))

theorem State.outsOff_all (s : State) : s.outsOff.safety.outs.all (fun o => !o.hi && !o.lo) = true := by
  simp [State.outsOff]

theorem State.coreOff_does (s : State) : s.coreOff.life.phase = .off ∧ s.coreOff.therm.die.off = true ∧ s.coreOff.gate.stage = .off
    ∧ s.coreOff.ledger.writing = none ∧ s.coreOff.safety.outs.all (fun o => !o.hi && !o.lo) = true
    ∧ s.coreOff.safety.loopSw1 = [false, false] ∧ s.coreOff.safety.loopSw2 = [false, false] :=
  ⟨rfl, rfl, rfl, rfl, s.outsOff_all, rfl, rfl⟩

/-! ### Rounds and the acknowledgement -/

theorem execThermalRound_of_idle {pins : List (Option Int)} {tach : List Nat} (h : s.therm.running = false) :
    execThermalRound pins tach s = .next (s.periodic 0 10000000) := by
  have hp : (s.periodic 0 10000000).therm = s.therm := s.periodic_same 0 10000000 (q := .therm) (by decide)
  refine congrArg Host.Outcome.next (if_pos ?_)
  rw [hp, h]
  rfl

theorem execThermalRound_of_running {pins : List (Option Int)} {tach : List Nat} (h : s.therm.running = true)
    (hr : (s.fabric.engines.getD 15 Engine.reset).reloading = false) : execThermalRound pins tach s = .next (
      let u := s.periodic 0 10000000
      let pins := mapIdxL (fun n (p : Option Int) => p.map (u.pinTemp n)) pins
      ((((u.sensorsRound pins).zonesRound pins).coolersRound tach).coolersCan).diagCycle 3) := by
  have hp : (s.periodic 0 10000000).therm = s.therm := s.periodic_same 0 10000000 (q := .therm) (by decide)
  have hf : (s.periodic 0 10000000).fabric = s.fabric := s.periodic_same 0 10000000 (q := .fabric) (by decide)
  refine congrArg Host.Outcome.next (if_neg ?_)
  rw [hp, hf, h, hr]
  exact Bool.false_ne_true

theorem State.thDisagree_eq (s : State) (i : Nat) (x : Sensor) : ∃ d, s.thDisagree i x = { x with disFrom := d } := by
  unfold State.thDisagree
  split
  · split
    · split
      · exact ⟨_, rfl⟩
      · exact ⟨_, rfl⟩
    · exact ⟨_, rfl⟩
  · exact ⟨_, rfl⟩

/-- A pin without a usable result in a third round running has failed. -/
theorem State.sensorRound_of_dead {pins : List (Option Int)} {i : Nat} {x : Sensor} (hi : 256 ≤ i) (hx : x.failed = false) (hb : 3 ≤ x.bad + 1)
    (hz : (s.sensorZone i).isSome = true) (hown : (pins.getD (i - 256) none).filter (s.inRange i) = none) (hpeer : s.peerPin x = none) :
    (s.sensorRound pins i x).failed = true := by
  obtain ⟨d, hd⟩ := s.thDisagree_eq i x
  have hlt : decide (i < 256) = false := decide_eq_false (Nat.not_lt.mpr hi)
  have hnone : (s.sensorZone i).isNone = false := by
    rw [← Option.not_isSome, hz]
    rfl
  have hr : s.reading pins i { x with disFrom := d } = none := by
    have hpeer' : s.peerPin { x with disFrom := d } = none := hpeer
    unfold State.reading
    rw [if_neg (Nat.not_lt.mpr hi)]
    simp only [hown, hpeer', Option.filter_none]
  unfold State.sensorRound
  rw [hnone, hlt, Bool.false_and, Bool.or_self, if_neg Bool.false_ne_true]
  dsimp only
  rw [hd, hr]
  simp only [hx, hb, decide_true, Bool.false_eq_true, if_false]
  split
  · split
    · rfl
    · rfl
  · rfl

/-- Settles O21: rounds and the acknowledgement by their guards, the die by what a sample leaves in its record. -/
theorem thermalCommands : Obligations.ThermalCommands := by
  unfold Obligations.ThermalCommands
  refine ⟨?_, ?_, ?_, ?_, ?_, ?_, ?_, ?_, ?_, ?_, ?_, ?_⟩
  · exact fun s pins tach h hr => ⟨_, execThermalRound_of_running h hr, rfl⟩
  · exact fun s n period h => if_neg h
  · exact fun s pins i x => State.sensorRound_of_dead
  · exact fun s pins rpm h => ⟨_, execThermalRound_of_idle h, rfl⟩
  · exact fun s t q d h hm => congrArg Host.Outcome.next (hostRow_silent h (if_neg (by rw [hm]; decide)))
  · exact fun s t q d h hm => congrArg Host.Outcome.next (hostRow_refuse h (if_pos (by rw [hm]; rfl)))
  · exact fun s n h => if_pos h
  · exact fun s w hfind hw => ⟨_, rfl, State.expireBoth_does hfind hw _ _⟩
  · intro s a b c d h
    obtain ⟨n, hdie⟩ := s.dieSampled_die [a, b, c, d]
    refine ⟨_, execDieSample_of_cool h, ?_⟩
    dsimp only
    rw [State.nvmBarred, hdie]
    exact ⟨rfl, rfl, rfl, rfl, rfl⟩
  · intro s a b c d h hs ho hact
    refine ⟨_, execDieSample_of_hot h hs ho, ?_⟩
    rw [State.dieShutdown_of_single ((s.dieSampled_actsSingle _).trans hact)]
    refine ⟨?_, State.internalFaultBy_safe .., State.internalFaultBy_needStart ..⟩
    exact congrArg (fun x : Therm => x.die.shutdown.isSome) (State.internalFaultBy_same _ 3 0 true (q := .therm) (by decide))
  · intro s a b c d h hs ho hact hj
    have htwin : (s.dieSampled [a, b, c, d]).dieLatched.twin = s.twin := s.dieSampled_same _ (q := .twin) (by decide)
    obtain ⟨hst, htx, hcause⟩ := State.withdraw_leaves (s := (s.dieSampled [a, b, c, d]).dieLatched)
      (State.present_of_joined (by rw [htwin, hj])) 3 false
    refine ⟨_, execDieSample_of_hot h hs ho, ?_⟩
    rw [State.dieShutdown_of_pair ((s.dieSampled_actsSingle _).trans hact)]
    exact ⟨congrArg (fun x : Therm => x.die.shutdown.isSome) (State.withdraw_same _ 3 false (q := .therm) (by decide)), hst, htx, hcause⟩
  · exact fun s n h ho => ⟨_, execDieWriteWindowEnd_of_shutdown h ho, State.coreOff_does _⟩

/-! ### Zones (10 R265, R266, R269) -/

theorem lasted_sinceHeld_none {now dur : Nat} (h : 0 < dur) (holds : Bool) : lasted now dur (sinceHeld now holds none) = false := by
  cases holds
  · rfl
  · exact decide_eq_false (by omega)

theorem lasted_sinceHeld_some {now dur a : Nat} (h : a + dur ≤ now) : lasted now dur (sinceHeld now true (some a)) = true := decide_eq_true h

section
variable {z : Nat} {held : Bool} {x : Zone} (hf : s.therm.first = false)
include hf

theorem State.hiStep_up (ht : x.hi < s.hiTarget z x.hot) (ha : x.hiAt = none) :
    s.hiStep z held x = { x with hi := x.hi + 1, hiAt := some s.now, hiRelax := none } := by
  unfold State.hiStep
  simp only [hf, Bool.false_eq_true, if_false, ha, ht, and_self, if_true]

theorem State.hiStep_keeps {a : Nat} (ha : x.hiAt = some a) (hgap : s.now < a + s.gap) (hrel : held = true ∨ x.hiRelax = none ∧ 0 < s.dwell) :
    (s.hiStep z held x).hi = x.hi := by
  have hno : decide (a + s.gap ≤ s.now) = false := decide_eq_false (Nat.not_le.mpr hgap)
  unfold State.hiStep
  extract_lets target calm rel
  have hstay : ¬ (x.hi ≠ 0 ∧ held = false ∧ lasted s.now s.dwell rel = true) := by
    rintro ⟨-, hheld, hl⟩
    obtain h | ⟨h, hd⟩ := hrel
    · exact absurd (h.symm.trans hheld) (by decide)
    · have hrel' : rel = sinceHeld s.now (calm && decide (x.hi ≠ 0)) none := congrArg (sinceHeld _ _) h
      rw [hrel', lasted_sinceHeld_none hd] at hl
      exact Bool.false_ne_true hl
  rw [if_neg (by rw [hf]; decide), if_neg (by rw [ha]; simp [hno]), if_neg hstay]

theorem State.hiStep_down {a : Nat} {v : Int} (hh : x.hot = some v) (hv : v ≤ s.hiEntry z x.hi - s.hyst) (ht : s.hiTarget z x.hot ≤ x.hi)
    (h0 : x.hi ≠ 0) (hr : x.hiRelax = some a) (hd : a + s.dwell ≤ s.now) :
    s.hiStep z false x = { x with hi := x.hi - 1, hiAt := some s.now, hiRelax := none } := by
  unfold State.hiStep
  rw [if_neg (by rw [hf]; decide), if_neg (fun h => Nat.not_lt.mpr ht h.1), if_pos]
  refine ⟨h0, rfl, ?_⟩
  simp only [hh, hv, decide_true, h0, ne_eq, not_false_eq_true, Bool.and_self, hr]
  exact lasted_sinceHeld_some hd

theorem State.loStep_up (ht : x.lo < s.loTarget z x.cold) (ha : x.loAt = none) :
    s.loStep z held x = { x with lo := x.lo + 1, loAt := some s.now, loRelax := none } := by
  unfold State.loStep
  simp only [hf, Bool.false_eq_true, if_false, ha, ht, and_self, if_true]

theorem State.loStep_down {a : Nat} {v : Int} (hc : x.cold = some v) (hv : s.loEntry7 z x.lo + 7 * s.hyst ≤ 7 * v)
    (ht : s.loTarget z x.cold ≤ x.lo) (h0 : x.lo ≠ 0) (hr : x.loRelax = some a) (hd : a + s.dwell ≤ s.now) :
    s.loStep z false x = { x with lo := x.lo - 1, loAt := some s.now, loRelax := none } := by
  unfold State.loStep
  rw [if_neg (by rw [hf]; decide), if_neg (fun h => Nat.not_lt.mpr ht h.1), if_pos]
  refine ⟨h0, rfl, ?_⟩
  simp only [hc, hv, decide_true, h0, ne_eq, not_false_eq_true, Bool.and_self, hr]
  exact lasted_sinceHeld_some hd

end

theorem State.zoneTrip_of_quiet (s : State) (z : Nat) (l : List Contribution) {x : Zone} (h : x.trip = 0) : (s.zoneTrip z l x).trip =
    if l.any (fun c => decide (100 * Fld.tzHi_TRIP_HI s.cfg z < c.hi)) then 1
    else if l.any (fun c => match c.lo with | some v => decide (v < 100 * Fld.tzLo_TRIP_LO s.cfg z) | none => false) then 2 else 0 := by
  unfold State.zoneTrip
  extract_lets hiT loT high low
  exact congrArg Zone.trip (if_pos h)

/-- Settles O22: each step by its guard, a trip by the contributions that are no substitute. -/
theorem zoneSteps : Obligations.ZoneSteps := by
  unfold Obligations.ZoneSteps
  refine ⟨?_, ?_, ?_, ?_, ?_, ?_, ?_⟩
  · intro s z held x hf ht ha
    rw [State.hiStep_up hf ht ha]
    exact ⟨rfl, rfl⟩
  · exact fun s z a held x hf ha hg hr => State.hiStep_keeps hf ha hg hr
  · exact fun s z a v x hf hh hv ht h0 hr hd => congrArg Zone.hi (State.hiStep_down hf hh hv ht h0 hr hd)
  · intro s z held x hf ht ha
    rw [State.loStep_up hf ht ha]
    exact ⟨rfl, rfl⟩
  · exact fun s z a v x hf hc hv ht h0 hr hd => congrArg Zone.lo (State.loStep_down hf hc hv ht h0 hr hd)
  · intro s z l c x h hc hhi
    rw [State.zoneTrip_of_quiet s z l h, if_pos (List.any_eq_true.mpr ⟨c, hc, decide_eq_true hhi⟩)]
  · exact fun s z x h => State.zoneTrip_of_quiet s z [] h

end

end Sys2Proof.Machine
end

section
/-! PROOFS. Dispatch (11): the checks, the acceptance and the effect of a command, the envelope and the state report. -/
namespace Sys2Proof.Machine

section
variable {s t : State} {d : DispBody}

/-! ### The host's rows (R282 to R284) -/

section
variable {q kind : Nat} {x : Desc} (h : s.Turn q 0x10 (fun x => decide (x.argByte 12 = kind)) x t) (hcopy : t.takeCopy x.cmd 0 = none)
include h hcopy

theorem State.dispRow_of_ok (hok : (t.dispCheck 0 (dispBody x.arg)).1 = St.ok) :
    s.dispRow q kind = (t.dispAccept 0 x.cmd (dispBody x.arg)).ends q 0 0 [] := by
  refine hostRow_silent (aw := false) (resp := []) h ?_
  simp only [hcopy, hok, if_true]

theorem State.dispRow_of_failed (hno : (t.dispCheck 0 (dispBody x.arg)).1 ≠ St.ok) :
    s.dispRow q kind = t.refuses q (t.dispCheck 0 (dispBody x.arg)).1
      (if (t.dispCheck 0 (dispBody x.arg)).1 = St.fieldRange then 32 + (t.dispCheck 0 (dispBody x.arg)).2 else 0) := by
  refine hostRow_refuse h ?_
  simp only [hcopy, if_neg hno]

end

/-! ### The checks -/

theorem State.mayDispatch_host (h : d.kind ≠ 4 ∧ d.kind ≠ 5) : s.mayDispatch 0 d.kind = !s.plantActive := by
  obtain ⟨h4, h5⟩ := h
  simp [State.mayDispatch, h4, h5]

/-- A command of a kind in range, without stray bytes and from a source that may give it, is judged by its AT, its values, the mode and the
sequence. -/
theorem State.dispCheck_of_source {src : Nat} (hk : 1 ≤ d.kind) (hk' : d.kind ≤ 6) (hr : d.resv = none)
    (hm : s.mayDispatch src d.kind = true) (ha : d.at_ = 0) (hv : d.range = none) : s.dispCheck src d =
      if d.kind ≤ 3 ∧ d.kind ≠ Fld.loopCtl_MODE s.cfg + 1 then (St.modeMismatch, 0)
      else if newerSeq (s.disp.seq.getD src none) d.seq then (St.ok, 0) else (St.setpointStale, 0) := by
  unfold State.dispCheck
  rw [if_neg (by omega), hr, hm, ha, hv]
  rfl

theorem State.dispCheck_of_plant (hk : 1 ≤ d.kind) (hk' : d.kind ≤ 3) (hr : d.resv = none) (hp : s.plantActive = true) :
    s.dispCheck 0 d = (St.dispatchSource, 0) := by
  unfold State.dispCheck
  rw [if_neg (by omega), hr, State.mayDispatch_host ⟨by omega, by omega⟩, hp]
  rfl

theorem DispBody.range_of_refresh (hk : d.kind = 6) : d.range = none := by
  simp [DispBody.range, hk]

/-! ### Acceptance -/

theorem State.sourceChange_eq (s : State) (was : Bool) : ∃ r, s.sourceChange was = { s with rec_ := r } := by
  unfold State.sourceChange
  split
  · exact ⟨_, rfl⟩
  · exact ⟨_, rfl⟩

theorem State.sourceChange_records (was : Bool) : s.Records (s.sourceChange was) := by
  unfold State.sourceChange
  exact .ite (.refl _) (State.raise_records _ _ _)

theorem State.pairSend_of_single (h : s.isPair = false) (f : PairFrame) : s.pairSend f = s := if_neg (Bool.eq_false_iff.mp h)

theorem State.dispTake_does (src from_ : Nat) (hk : d.kind ≤ 3 ∨ d.kind = 6) :
    (s.dispTake src d from_).disp.seq = s.disp.seq.set src (some d.seq) ∧ (s.dispTake src d from_).out = s.out
    ∧ (s.dispTake src d from_).disp.holdTill = some (s.now + Fld.dispCfg_HOLD s.cfg * 100000000) := by
  unfold State.dispTake
  extract_lets was at_ w
  obtain ⟨r, hr⟩ := State.sourceChange_eq (s.onDisp (fun x => { x with
    seq := x.seq.set src (some d.seq)
    waiting := x.waiting.filter (fun v => !(decide (v.source = src) && decide (s.now < v.at_))) ++ [w]
    holdTill := if d.kind ≤ 3 ∨ d.kind = 6 then some (s.now + Fld.dispCfg_HOLD s.cfg * 100000000) else x.holdTill
    expired := x.expired && decide (3 < d.kind)
    plantLive := x.plantLive || (decide (src = 1) && decide (d.kind ≤ 3)) })) was
  rw [hr]
  exact ⟨rfl, rfl, if_pos hk⟩

/-! ### Waiting commands and the hold time -/

theorem execDispatchAtReached_of_one {w : DispWait} (h : s.disp.waiting = [w]) : execDispatchAtReached s =
    .next ((s.advance (s.deadlineFrom (max w.due s.now))).dispDue (s.deadlineFrom (max w.due s.now))) := by
  rw [execDispatchAtReached, h]
  rfl

theorem State.dispDue_of_one {w : DispWait} {n : Nat} (ha : s.ac01Reloading = false) (h : s.disp.waiting = [w]) (hn : w.due ≤ n) :
    s.dispDue n = (s.onDisp (fun x => { x with waiting := [] })).dispEffect w := by
  unfold State.dispDue
  rw [if_neg (Bool.eq_false_iff.mp ha)]
  simp only [State.onDisp, h, List.filter_cons, hn, Nat.not_lt.mpr hn, decide_true, decide_false, if_true, Bool.false_eq_true, if_false,
    List.filter_nil, List.foldl_cons, List.foldl_nil]

/-- The hold time of a set-point in force has passed. -/
def State.holdPassed (s : State) (sp : Setpoint) : State :=
  let u := s.onDisp (fun x => { x with holdTill := none })
  let v := (u.onDisp (fun x => { x with expired := true })).raise Ev.setpointExpired [sp.kind]
  (v.onDisp (fun x => { x with plantLive := false })).sourceChange u.plantActive

theorem execSetpointExpired_of_held {n : Nat} {sp : Setpoint} (h : s.disp.holdTill = some n) (hsp : s.disp.sp = some sp) :
    execSetpointExpired s = .next ((s.advance n).holdPassed sp) := by
  have hsp' : ((s.advance n).onDisp (fun x => { x with holdTill := none })).disp.sp = some sp := by
    change (s.advance n).disp.sp = _
    rw [State.advance_disp, hsp]
  rw [execSetpointExpired, h]
  dsimp only
  rw [hsp']
  rfl

theorem State.holdPassed_does (s : State) (sp : Setpoint) : (s.holdPassed sp).disp.expired = true ∧ (s.holdPassed sp).disp.holdTill = none
    ∧ (s.holdPassed sp).disp.sp = s.disp.sp ∧ (s.holdPassed sp).Saw Ev.setpointExpired [sp.kind] := by
  unfold State.holdPassed
  extract_lets u v
  have hsaw : (v.onDisp (fun x => { x with plantLive := false })).Saw Ev.setpointExpired [sp.kind] :=
    (State.raise_saw (u.onDisp (fun x => { x with expired := true })) Ev.setpointExpired [sp.kind]).of_eq rfl rfl
  obtain ⟨r, hr⟩ := (v.onDisp (fun x => { x with plantLive := false })).sourceChange_eq u.plantActive
  refine ⟨?_, ?_, ?_, hsaw.mono (State.sourceChange_records _)⟩ <;> rw [hr] <;> rfl

/-- Settles O23: each kind's row by `State.dispRow_of_ok`, the checks in their order, the waiting command and the hold time. -/
theorem dispatchCommands : Obligations.DispatchCommands := by
  unfold Obligations.DispatchCommands
  refine ⟨?_, ?_, ?_, ?_, ?_, ?_, ?_, ?_, ?_, ?_, ?_, ?_, ?_, ?_⟩
  · exact fun s t q d h hok hc => congrArg Host.Outcome.next (State.dispRow_of_ok h hc hok)
  · exact fun s t q d h hok hc => congrArg Host.Outcome.next (State.dispRow_of_ok h hc hok)
  · exact fun s t q d h hok hc => congrArg Host.Outcome.next (State.dispRow_of_ok h hc hok)
  · exact fun s t q d h hok hc => congrArg Host.Outcome.next (State.dispRow_of_ok h hc hok)
  · exact fun s t q d h hok hc => congrArg Host.Outcome.next (State.dispRow_of_ok h hc hok)
  · exact fun s t q d h hok hc => congrArg Host.Outcome.next (State.dispRow_of_ok h hc hok)
  · exact fun s t q d h hc hno => congrArg Host.Outcome.next (State.dispRow_of_failed h hc hno)
  · exact fun s d hr hk hk' hp => congrArg Prod.fst (State.dispCheck_of_plant hk hk' hr hp)
  · intro s d hr hk hk' hp ha hv
    rw [State.dispCheck_of_source hk (by omega) hr (by rw [State.mayDispatch_host ⟨by omega, by omega⟩, hp]; rfl) ha hv]
    simp only [hk', true_and]
    split
    · rfl
    · split <;> rfl
  · intro s d hk hr hp ha _ _ hn
    rw [State.dispCheck_of_source (by omega) (by omega) hr (by rw [State.mayDispatch_host ⟨by omega, by omega⟩, hp]; rfl) ha
      (DispBody.range_of_refresh hk), if_neg (by omega), if_pos hn]
  · intro s src c d hp hk
    rw [State.dispAccept, State.pairSend_of_single hp]
    exact State.dispTake_does src _ hk
  · exact fun s w h => ⟨_, execDispatchAtReached_of_one h, rfl⟩
  · exact fun s w n => State.dispDue_of_one
  · intro s n sp h hsp
    obtain ⟨hx, hh, hs, hsaw⟩ := (s.advance n).holdPassed_does sp
    rw [State.advance_disp, hsp] at hs
    exact ⟨_, execSetpointExpired_of_held h hsp, hx, hh, hs, hsaw⟩

/-! ### Effects (R290, R291, 09 R234) -/

theorem State.noteLimited_vSet (s : State) (kind : Nat) (v p l : Int) : (s.noteLimited kind v p l).loop.vSet = s.loop.vSet := by
  unfold State.noteLimited
  rw [apply_ite (fun t : State => t.loop.vSet)]
  exact ite_self _

theorem State.limitedCheck_vSet (s : State) (kind : Nat) (v : Int) : (s.limitedCheck kind v).loop.vSet = s.loop.vSet := by
  unfold State.limitedCheck
  extract_lets slew
  split
  · split
    · exact State.noteLimited_vSet ..
    · rfl
  · split
    · split
      · exact State.noteLimited_vSet ..
      · rfl
    · rfl

section
variable {i : Nat} {v e : Int} (hi : i < s.disp.terms.length) (hb : s.budgetTarget i = some v)
include hi hb

theorem State.cutTerm_of_raise (he : (s.disp.terms.getD i ⟨none, false⟩).eff = some e) (hv : e ≤ v) :
    (s.cutTerm i).disp.terms.getD i ⟨none, false⟩ = ⟨some v, false⟩ ∧ (s.cutTerm i).rec_ = s.rec_ := by
  have hcut : s.cutTerm i = s.onDisp (fun x => { x with terms := x.terms.set i ⟨some v, false⟩ }) := by
    simp only [State.cutTerm, hb, he, Option.getD_some, if_neg (Int.not_lt.mpr hv)]
  rw [hcut]
  exact ⟨getD_set_self hi, rfl⟩

theorem State.cutTerm_of_cut (he : s.disp.terms.getD i ⟨none, false⟩ = ⟨some e, false⟩) (hv : v < e) :
    (s.cutTerm i).disp.terms.getD i ⟨none, false⟩ = ⟨some e, true⟩
      ∧ (s.cutTerm i).Saw Ev.budgetDraining [if i < 2 then 4 else 5, ((i % 2 : Nat) : Int),
        (if i % 2 = 0 then 1 else -1) * Config.quot e 1000000, (if i % 2 = 0 then 1 else -1) * Config.quot v 1000000] := by
  have hcut : s.cutTerm i = (s.onDisp (fun x => { x with terms := x.terms.set i ⟨some e, true⟩ })).raise Ev.budgetDraining
      [if i < 2 then 4 else 5, ((i % 2 : Nat) : Int),
        (if i % 2 = 0 then 1 else -1) * Config.quot e 1000000, (if i % 2 = 0 then 1 else -1) * Config.quot v 1000000] := by
    simp only [State.cutTerm, hb, he, Option.getD_some, hv, if_true, Bool.false_eq_true, if_false]
    rfl
  rw [hcut]
  exact ⟨getD_set_self hi, State.raise_saw ..⟩

end

theorem BudgetTerm.drain_of_above {b : BudgetTerm} {v e : Int} (step : Int) (he : b.eff = some e) (hd : b.draining = true) (hv : v < e) :
    b.drain (some v) step = ⟨some (max v (e - step)), decide (v < e - step)⟩ := by
  simp [BudgetTerm.drain, he, hd, hv]

/-! ### The envelope and the state report (R292, R293, R295) -/

theorem State.advance_computes (n : Nat) : (s.advance n).computes = s.computes := by
  simp only [State.computes, State.inService, State.advance_life, State.advance_twin]

theorem State.advance_ac01Reloading (n : Nat) : (s.advance n).ac01Reloading = s.ac01Reloading := by
  simp only [State.ac01Reloading, State.advance_fabric]

/-- The envelope of a second leaves on the stream and to the plant, and waits. -/
def State.envelopeOut (s : State) (at_ : Nat) : State :=
  let e := s.envelope (s.eventAt at_)
  ((s.release 1 ⟨3, 72, e.w, e.bytes s.disp.envSeq⟩).plantSend 0x11 (e.bytes s.disp.envSeq)).onDisp (fun x => { x with
    envNext := some (at_ + 20000000, e), envSeq := x.envSeq + 1 })

theorem execEnvelopeCompute_eq (n : Nat) (s : State) : execEnvelopeCompute n s = .next
    (if !(s.advance (n * 1000000000)).computes || (s.advance (n * 1000000000)).ac01Reloading then s.advance (n * 1000000000)
      else (s.advance (n * 1000000000)).envelopeOut (n * 1000000000)) := rfl

theorem execEnvelopeCompute_of_computing {n : Nat} (hc : s.computes = true) (ha : s.ac01Reloading = false) :
    execEnvelopeCompute n s = .next ((s.advance (n * 1000000000)).envelopeOut (n * 1000000000)) := by
  rw [execEnvelopeCompute_eq, State.advance_computes, State.advance_ac01Reloading, hc, ha]
  rfl

theorem State.envDue_of_past {e : Envelope} {a n : Nat} (h : s.disp.envNext = some (a, e)) (hn : a < n) :
    s.envDue n = s.onDisp (fun x => { x with env := some e, envNext := none }) := by
  rw [State.envDue, h]
  exact if_pos hn

/-- A state report leaves on the stream, to the plant and on CAN FD, and is counted with those of the last second. -/
def State.reportOut (s : State) (recent : List Nat) : State :=
  let f := s.reportBytes
  ((s.release 1 ⟨4, 52, eventOf s.sysNs, f⟩).plantSend 0x10 f).reportCan.onDisp (fun x => { x with
    repSeq := x.repSeq + 1, repTimes := s.now :: recent, avail := s.avail, repStage := stageCode s.gate.stage })

/-- A report of an instant, unless ten have left within the second. -/
def State.reportAt (s : State) : State :=
  let recent := s.disp.repTimes.filter (fun a => decide (s.now < a + 1000000000))
  if 10 ≤ recent.length ∨ s.computes = false then s else s.reportOut recent

theorem State.reportAt_of_quiet (h : s.disp.repTimes = []) (hc : s.computes = true) : s.reportAt = s.reportOut [] := by
  unfold State.reportAt
  rw [h, hc]
  rfl

theorem execStateReportSend_eq (s : State) : execStateReportSend s = .next
    (s.advance (if decide (s.avail ≠ s.disp.avail ∨ stageCode s.gate.stage ≠ s.disp.repStage)
      then min (atOrAfter s.now 1000000000) (atOrAfter s.now (Fld.cycCfg_BASE s.cfg * 250000)) else atOrAfter s.now 1000000000)).reportAt := rfl

theorem execStateReportSend_of_unchanged (ha : s.avail = s.disp.avail) (hst : stageCode s.gate.stage = s.disp.repStage)
    (hrep : s.disp.repTimes = []) (hc : s.computes = true) :
    execStateReportSend s = .next ((s.advance (atOrAfter s.now 1000000000)).reportOut []) := by
  have hno : decide (s.avail ≠ s.disp.avail ∨ stageCode s.gate.stage ≠ s.disp.repStage) = false :=
    decide_eq_false (not_or.mpr ⟨not_not_intro ha, not_not_intro hst⟩)
  rw [execStateReportSend_eq, hno, if_neg Bool.false_ne_true, State.reportAt_of_quiet]
  · rw [State.advance_disp, hrep]
  · rw [State.advance_computes, hc]

/-- Settles O24: each kind's effect, a term's cut and drain, the envelope and the report of an instant. -/
theorem dispatchEffectsAndReports : Obligations.DispatchEffectsAndReports := by
  unfold Obligations.DispatchEffectsAndReports
  refine ⟨?_, ?_, ?_, ?_, ?_, ?_, ?_, ?_, ?_, ?_⟩
  · intro s k v
    refine ⟨rfl, ?_⟩
    change (if k = 3 then 1000 * v else (s.limitedCheck k v).loop.vSet) = _
    rw [State.limitedCheck_vSet]
  · exact fun s w h => if_pos h
  · intro s w h
    rw [State.dispEffect, if_neg (by omega), if_pos (by omega)]
  · intro s w h
    rw [State.dispEffect, if_neg (by omega), if_neg (by omega)]
  · exact fun s i v e hi hb he hv => State.cutTerm_of_raise hi hb he hv
  · exact fun s i v e hi hb he hv => State.cutTerm_of_cut hi hb he hv
  · exact fun b v e step he hd hv => BudgetTerm.drain_of_above step he hd hv
  · exact fun s n hc ha => ⟨_, execEnvelopeCompute_of_computing hc ha, rfl⟩
  · exact fun s e a n h hn => State.envDue_of_past h hn
  · exact fun s ha hst hrep hc => ⟨_, execStateReportSend_of_unchanged ha hst hrep hc, rfl⟩

end

end Sys2Proof.Machine
end

section
/-! PROOFS. The safety functions (12): switches and outputs, ticks and the safe state, contactors and the reset. -/
namespace Sys2Proof.Machine

section
variable {s : State}

/-! ### Bits and instants -/

theorem RegBank.fld_lt (b : RegBank) (off hi lo : Nat) : b.fld off hi lo < 2 ^ (hi + 1 - lo) := Nat.mod_lt _ (Nat.two_pow_pos _)

theorem atOrAfter_mod (t p : Nat) : atOrAfter t p % p = 0 := Nat.mul_mod_left _ _

theorem le_atOrAfter {t p : Nat} (hp : 0 < p) : t ≤ atOrAfter t p := by
  have h := Nat.lt_div_mul_add (a := t + p - 1) hp
  unfold atOrAfter
  omega

theorem atOrAfter_lt {t p : Nat} (hp : 0 < p) : atOrAfter t p < t + p := by
  have h := Nat.div_mul_le_self (t + p - 1) p
  unfold atOrAfter
  omega

theorem modAt_any {α : Type} (l : List α) (i : Nat) (f : α → α) (p : α → Bool) (h : ∀ a, p (f a) = p a) : (modAt l i f).any p = l.any p := by
  induction l generalizing i with
  | nil => rfl
  | cons a l ih => cases i <;> simp [modAt, h, ih]

/-! ### Output switches -/

theorem Safety.out_modAt (x : Safety) {o : Nat} (h : o < x.outs.length) (f : SafeOut → SafeOut) :
    { x with outs := modAt x.outs o f }.out o = f (x.out o) := modAt_getD_self _ _ _ _ h

theorem Safety.lt_of_hi {x : Safety} {o : Nat} (h : (x.out o).hi = true) : o < x.outs.length := by
  refine Decidable.byContradiction fun hn => ?_
  rw [Safety.out, getD_of_length_le (Nat.not_lt.mp hn)] at h
  exact absurd h (by decide)

theorem Safety.lt_of_testing {x : Safety} {o k : Nat} (h : (x.out o).testing = some k) : o < x.outs.length := by
  refine Decidable.byContradiction fun hn => ?_
  rw [Safety.out, getD_of_length_le (Nat.not_lt.mp hn)] at h
  exact absurd h (by simp [SafeOut.reset])

section
variable {o : Nat} (h : o < s.safety.outs.length)
include h

theorem State.setOut_out (on : Bool) : ((s.setOut o on).safety.out o).hi = (on && decide ((s.safety.out o).fault = .none))
    ∧ ((s.setOut o on).safety.out o).lo = (on && decide ((s.safety.out o).fault = .none)) := by
  have hout : (s.setOut o on).safety.out o = _ := Safety.out_modAt s.safety h _
  rw [hout]
  dsimp only
  split
  · assumption
  · exact ⟨rfl, rfl⟩

theorem State.setOut_on (hf : (s.safety.out o).fault = .none) : ((s.setOut o true).safety.out o).hi = true ∧ ((s.setOut o true).safety.out o).lo = true := by
  have hout := State.setOut_out h true
  rwa [hf] at hout

theorem State.setOut_off : ((s.setOut o false).safety.out o).hi = false ∧ ((s.setOut o false).safety.out o).lo = false :=
  State.setOut_out h false

end

theorem State.setOut_hi_of_off {o p : Nat} (h : (s.safety.out o).hi = false) (ho : o < s.safety.outs.length) :
    ((s.setOut p false).safety.out o).hi = false := by
  by_cases hp : o = p
  · subst hp
    exact (State.setOut_off ho).1
  · have hne : (s.setOut p false).safety.out o = s.safety.out o := modAt_getD_ne _ _ _ hp
    rw [hne, h]

theorem State.setOut_count (s : State) (o : Nat) (on : Bool) : (s.setOut o on).safety.outs.length = s.safety.outs.length := modAt_length ..

/-! ### Watchdogs, the comparator, test pulses (R298, R305, R316) -/

theorem execSwitchWatchdogExpiry_low {o : Nat} (h : 2 * o + 1 < 12) (ho : o < s.safety.outs.length) :
    ∃ t, execSwitchWatchdogExpiry ⟨2 * o + 1, h⟩ s = .next t ∧ (if o < 4 then (t.safety.out o).lo = false ∧ (t.safety.out o).hi = (s.safety.out o).hi
      else t.safety.loopSw2 = s.safety.loopSw2.set (o - 4) false ∧ t.safety.loopSw1 = s.safety.loopSw1) := by
  refine ⟨_, rfl, ?_⟩
  have hhalf : (2 * o + 1) / 2 = o := by omega
  split
  · next ho4 =>
    simp only [State.onSafety, if_pos (show 2 * o + 1 < 8 by omega), hhalf, Safety.out_modAt _ ho]
    rw [decide_eq_true (by omega)]
    exact ⟨rfl, rfl⟩
  · next ho4 =>
    simp only [State.onSafety, if_neg (show ¬ 2 * o + 1 < 8 by omega), if_neg (show ¬ (2 * o + 1) % 2 = 0 by omega)]
    rw [show (2 * o + 1 - 8) / 2 = o - 4 by omega]
    exact ⟨rfl, trivial⟩

theorem execSwitchWatchdogExpiry_high {o : Nat} (h : 2 * o < 12) (ho : o < s.safety.outs.length) :
    ∃ t, execSwitchWatchdogExpiry ⟨2 * o, h⟩ s = .next t ∧ (if o < 4 then (t.safety.out o).hi = false ∧ (t.safety.out o).lo = (s.safety.out o).lo
      else t.safety.loopSw1 = s.safety.loopSw1.set (o - 4) false ∧ t.safety.loopSw2 = s.safety.loopSw2) := by
  refine ⟨_, rfl, ?_⟩
  have hhalf : 2 * o / 2 = o := by omega
  split
  · next ho4 =>
    simp only [State.onSafety, if_pos (show 2 * o < 8 by omega), hhalf, Safety.out_modAt _ ho]
    rw [decide_eq_false (by omega)]
    exact ⟨rfl, rfl⟩
  · next ho4 =>
    simp only [State.onSafety, if_neg (show ¬ 2 * o < 8 by omega), if_pos (show 2 * o % 2 = 0 by omega)]
    rw [show (2 * o - 8) / 2 = o - 4 by omega]
    exact ⟨rfl, trivial⟩

theorem State.testSlot_mod (s : State) (k : Nat) : s.testSlot k % 1250000000 = if s.isJunior then 625000000 else 0 := by
  have h := atOrAfter_mod (s.now - (1250000000 * k + if s.isJunior then 625000000 else 0)) 10000000000
  have hj : (if s.isJunior then 625000000 else 0) < 1250000000 := by split <;> decide
  unfold State.testSlot
  dsimp only
  omega

theorem State.le_testSlot (s : State) (k : Nat) : s.now ≤ s.testSlot k := by
  have h := le_atOrAfter (t := s.now - (1250000000 * k + if s.isJunior then 625000000 else 0)) (p := 10000000000) (by decide)
  unfold State.testSlot
  dsimp only
  omega

theorem State.testSlot_lt (s : State) {k : Nat} (hk : k < 8) : s.testSlot k < s.now + 20625000000 := by
  have h := atOrAfter_lt (t := s.now - (1250000000 * k + if s.isJunior then 625000000 else 0)) (p := 10000000000) (by decide)
  have hj : (if s.isJunior then 625000000 else 0) ≤ 625000000 := by split <;> decide
  unfold State.testSlot
  dsimp only
  omega

/-- A test pulse of an output begins. -/
def State.pulse (s : State) (o k : Nat) : State :=
  s.onSafety (fun x => { x with outs := modAt x.outs o (fun w => { w with testing := some k }) })

theorem execSoTestPulse_of_on {o : Fin 4} {low readOff : Bool} (hsafe : s.safety.safe = false) (hhi : (s.safety.out o.val).hi = true)
    (hlo : (s.safety.out o.val).lo = true) (hf : (s.safety.out o.val).fault = .none) (ha : s.safety.engA.running = true)
    (hb : s.safety.engB.running = true) : execSoTestPulse o low readOff s =
      .next ((s.advance (s.testSlot (2 * o.val + bit low))).pulse o (bit low + if readOff then 0 else 2)) := by
  unfold execSoTestPulse
  dsimp only
  rw [State.advance_safety, hsafe, hhi, hlo, hf, ha, hb, ite_self]
  rfl

theorem State.pulse_now (s : State) (o k : Nat) : (s.pulse o k).now = s.now := State.now_of_time _ rfl

theorem State.advance_testSlot (s : State) {k : Nat} (hk : k < 8) (hn : s.now < 2 ^ 63) : (s.advance (s.testSlot k)).now = s.testSlot k := by
  have hlt := s.testSlot_lt hk
  rw [State.advance_now (by omega)]
  exact Nat.max_eq_right (s.le_testSlot k)

/-- A pulse whose switch has read off ends without a word. -/
theorem State.endTest_of_good {o k : Nat} (h : (s.safety.out o).testing = some k) (hk : k < 2) : s.endTest o =
    s.onSafety (fun x => { x with outs := modAt x.outs o (fun w => { w with testing := none }) }) := by
  unfold State.endTest
  rw [h]
  exact if_pos hk

theorem State.endTest_does {o k : Nat} (h : (s.safety.out o).testing = some k) (hk : k < 2) : ((s.endTest o).safety.out o).testing = none
    ∧ ((s.endTest o).safety.out o).hi = (s.safety.out o).hi ∧ ((s.endTest o).safety.out o).lo = (s.safety.out o).lo
    ∧ (s.endTest o).rec_ = s.rec_ := by
  rw [State.endTest_of_good h hk]
  have hout : (s.onSafety (fun x => { x with outs := modAt x.outs o (fun w => { w with testing := none }) })).safety.out o =
      { s.safety.out o with testing := none } := Safety.out_modAt s.safety (Safety.lt_of_testing h) _
  rw [hout]
  exact ⟨rfl, rfl, rfl, rfl⟩

/-! ### The coil supply and the contactors' feedback (R318, R319) -/

theorem State.demand12_safe (s : State) (a b : Nat) : (s.demand12 a b).safety.safe = true := State.safeState_safe ..

theorem State.demand12_records (s : State) (a b : Nat) : s.Records (s.demand12 a b) := by
  unfold State.demand12
  refine .trans (?_ : s.Records _) (State.safeState_records _ _)
  exact .of_eq rfl rfl

theorem State.demand12_saw (s : State) (a b : Nat) : (s.demand12 a b).Saw Ev.safeState [12, 3, a, b, 0] := State.safeState_saw ..

theorem State.advance_feedback (s : State) (n : Nat) (pre closed : Bool) : (s.advance n).feedback pre closed = s.feedback pre closed := by
  simp only [State.feedback, State.feedbackInput, State.advance_cfg, State.advance_safety]

section
variable {o n : Nat} (hm : s.mainOut = some o) (hi : s.feedbackInput false = some n)
include hm hi

theorem execContactorFeedbackTimeout_of_on (hhi : (s.safety.out o).hi = true) (hlo : (s.safety.out o).lo = true) :
    execContactorFeedbackTimeout false s = .next (if s.feedback false true then s.advance ((s.safety.out o).cmdAt + 100000000)
      else (s.advance ((s.safety.out o).cmdAt + 100000000)).demand12 7 o) := by
  unfold execContactorFeedbackTimeout
  rw [if_neg Bool.false_ne_true, hm, hi]
  dsimp only
  rw [hhi, hlo, Bool.and_self, if_pos rfl, State.advance_feedback]

/-- A weld of the main contactor is recorded. -/
def State.welded (s : State) (o n : Nat) : State := (s.raise Ev.contactorWeld [o, n]).onSafety (fun x => { x with weld := true })

theorem execContactorFeedbackTimeout_of_weld (hhi : (s.safety.out o).hi = false) (hf : s.feedback false false = false) (ht : s.twin.txOff = false) :
    execContactorFeedbackTimeout false s = .next ((s.advance ((s.safety.out o).cmdAt + 100000000)).welded o n) := by
  unfold execContactorFeedbackTimeout
  rw [if_neg Bool.false_ne_true, hm, hi]
  dsimp only
  rw [hhi, Bool.false_and, if_neg Bool.false_ne_true, State.advance_feedback, hf, State.advance_twin, ht]
  rfl

end

theorem State.welded_safe (s : State) (o n : Nat) : (s.welded o n).safety.safe = s.safety.safe := rfl

theorem State.welded_saw (s : State) (o n : Nat) : (s.welded o n).Saw Ev.contactorWeld [o, n] :=
  (s.raise_saw Ev.contactorWeld [o, n]).of_eq rfl (State.sysNs_of_time _ rfl)

/-! ### Safety frames out and in (R326, R327, R329) -/

theorem State.sendSafetyFrame_of_sending (h : s.sending = true) (ha : s.chain.addr ≠ 0) : s.sendSafetyFrame.safety = { s.safety with
    sfSeq := s.safety.sfSeq + 1, sfLastAt := s.now, sfWord0 := s.safety.word0, sfSafe := s.safety.safe }
    ∧ s.sendSafetyFrame.time = s.time := by
  have hframe (t : State) (hsaf : t.safety = s.safety) (htime : t.time = s.time) : { t with safety := { t.safety with
      sfSeq := t.safety.sfSeq + 1, sfLastAt := t.now, sfWord0 := t.safety.word0, sfSafe := t.safety.safe } }.safety = { s.safety with
        sfSeq := s.safety.sfSeq + 1, sfLastAt := s.now, sfWord0 := s.safety.word0, sfSafe := s.safety.safe } := by
    rw [hsaf, State.now_of_time s htime]
  have hpart {q : Part} (hq : q ∉ [Part.plant, .twin, .out]) (p : SafetyPdu) : q.same s ((s.pairSend (.safety p)).plantSendFrom 0 0x20 p.bytes) := by
    have head := Part.may_among_head
    have tail := Part.may_among_tail
    exact (State.plantSendFrom_holds (R := false) (State.pairSend_holds (R := false) (.refl nofun))).same_of_not_mem hq
  refine ⟨?_, s.sendSafetyFrame_same (q := .time) (by decide)⟩
  unfold State.sendSafetyFrame
  rw [if_pos (by rw [h, decide_eq_true ha]; rfl)]
  dsimp only
  split
  · exact hframe _ ((State.express_same _ _ _ _ _ (q := .safety) (by decide)).trans (hpart (q := .safety) (by decide) _))
      ((State.express_same _ _ _ _ _ (q := .time) (by decide)).trans (hpart (q := .time) (by decide) _))
  · exact hframe _ (hpart (q := .safety) (by decide) _) (hpart (q := .time) (by decide) _)

theorem State.advance_sending (s : State) (n : Nat) : (s.advance n).sending = s.sending := by
  simp only [State.sending, State.inService, State.advance_life, State.advance_twin]

theorem State.takePdu_same (s : State) (n : Nat) (p : SafetyPdu) {q : Part}
    (hq : q ∉ [Part.ring, .meas, .est, .gate, .safety, .plant, .twin, .rec_, .out]) : q.same s (s.takePdu n p) := by
  have head := Part.may_among_head
  have tail := Part.may_among_tail
  exact (State.takePdu_holds (R := false) (.refl nofun)).same_of_not_mem hq

theorem State.takePartner_of_single (h : s.isPair = false) (p : SafetyPdu) : s.takePartner p = s :=
  if_pos (by rw [h]; rfl)

theorem State.takePdus_isPair (port : Nat) (p : SafetyPdu) (l : List Nat) (s : State) :
    (l.foldl (fun u n => if Fld.sfPcfg_PORT u.cfg n = port then u.takePdu n p else u) s).isPair = s.isPair := by
  refine State.foldl_keeps (g := State.isPair) (fun u n => ?_) l s
  split
  · exact State.isPair_of_same (u.takePdu_same n p (q := .chain) (by decide)) (u.takePdu_same n p (q := .life) (by decide))
  · rfl

theorem State.refreshDemands_records : s.Records s.refreshDemands := ⟨.refl _, rfl⟩

/-- A producer's frames have not come in time. -/
def State.producerSilent (s : State) (n : Nat) (x : Producer) : State :=
  ((s.onSafety (fun z => { z with producers := z.producers.set n { x with expired := true, okRun := 0, lastSeq := none } })).raise Ev.sfTimeout
    [n]).refreshDemands

theorem execSafetyFrameWatchdog_of_silent {n : Fin 8} {x : Producer} (h : s.safety.producers[n.val]? = some x)
    (hp : Fld.sfPcfg_PORT s.cfg n.val ≠ 0) (hx : x.expired = false) (ha : Fld.sfPcfg_ALARM s.cfg n.val = false) :
    execSafetyFrameWatchdog n s = .next (((s.advance (x.lastAt + 1000000 * Fld.sfPcfg_WDOG s.cfg n.val)).producerSilent n x).safeState
      ⟨Fld.sfPcfg_FUNC s.cfg n.val, s.engRun, 6, n.val, 0⟩) := by
  have hget : s.safety.producers.getD n.val Producer.reset = x := by rw [List.getD_eq_getElem?_getD, h]; rfl
  unfold execSafetyFrameWatchdog
  rw [hget]
  dsimp only
  rw [if_neg (by rw [hx]; simp [hp]), ha]
  rfl

theorem State.producerSilent_saw (s : State) (n : Nat) (x : Producer) : (s.producerSilent n x).Saw Ev.sfTimeout [n] :=
  (State.raise_saw (s.onSafety (fun z => { z with producers := z.producers.set n { x with expired := true, okRun := 0, lastSeq := none } }))
    Ev.sfTimeout [n]).mono State.refreshDemands_records

theorem State.safeState_producers (s : State) (d : Demand) : (s.safeState d).safety.producers = s.safety.producers := by
  by_cases h : s.safety.safe = true
  · rw [State.safeState_of_safe h]
    rfl
  · obtain ⟨n, t, w, b, hs⟩ := State.safeState_safety (Bool.eq_false_iff.mpr h) d
    rw [hs]
    rfl

/-- Settles O25: each event by its guard; the safe state's own lemmas say what a demand leaves. -/
theorem safetyEvents : Obligations.SafetyEvents := by
  unfold Obligations.SafetyEvents
  refine ⟨?_, ?_, ?_, ?_, ?_, ?_, ?_, ?_, ?_, ?_, ?_, ?_, ?_, ?_, ?_, ?_, ?_⟩
  · exact fun s a b on coil => ⟨_, rfl, rfl⟩
  · intro s toB h
    refine ⟨_, congrArg Host.Outcome.next (if_pos h), ?_⟩
    cases toB <;> exact ⟨rfl, rfl, rfl⟩
  · exact fun s toB h => ⟨s, congrArg Host.Outcome.next (if_neg (Bool.eq_false_iff.mp h)), rfl⟩
  · exact fun s o h ho => execSwitchWatchdogExpiry_low h ho
  · exact fun s o h ho => execSwitchWatchdogExpiry_high h ho
  · intro s charge hs hst
    refine ⟨_, congrArg Host.Outcome.next (if_neg hs), ?_, ?_, ?_⟩
    · exact State.stageTrip_stage (s := s.raise Ev.fastOc [if charge then 0 else 1]) hst 6 255 255 255
    · exact State.stageTrip_same _ 6 255 255 255 (q := .safety) (by decide)
    · exact (s.raise_saw Ev.fastOc [if charge then 0 else 1]).mono (State.stageTrip_records _ 6 255 255 255)
  · exact fun s charge h => ⟨s, congrArg Host.Outcome.next (if_pos h), rfl⟩
  · intro s o low readOff hsafe hhi hlo hf ha hb hn
    have hk : 2 * o.val + bit low < 8 := by
      have ho := o.isLt
      cases low <;> simp [bit] <;> omega
    refine ⟨_, execSoTestPulse_of_on hsafe hhi hlo hf ha hb, ?_, ?_⟩
    · have hlen : o.val < (s.advance (s.testSlot (2 * o.val + bit low))).safety.outs.length := by
        rw [State.advance_safety]
        exact Safety.lt_of_hi hhi
      exact congrArg SafeOut.testing (Safety.out_modAt _ hlen _)
    · rw [State.pulse_now, State.advance_testSlot s hk hn]
      exact s.testSlot_mod _
  · intro s o h
    obtain h | h := h
    · exact State.endTest_does h (by decide)
    · exact State.endTest_does h (by decide)
  · intro s coil h hc
    refine ⟨_, congrArg Host.Outcome.next (if_pos (by rw [h, decide_eq_true hc]; rfl)), State.demand12_safe .., ?_, State.demand12_saw ..⟩
    exact (State.raise_saw (s.onSafety (fun x => { x with coil := coil })) Ev.coilSupply [coil]).mono (State.demand12_records ..)
  · intro s o n hm hi hhi hlo hf
    refine ⟨_, (execContactorFeedbackTimeout_of_on hm hi hhi hlo).trans (by rw [hf, if_neg Bool.false_ne_true]), ?_⟩
    exact ⟨State.demand12_safe .., State.demand12_saw ..⟩
  · intro s o n hm hi hhi hf ht
    refine ⟨_, execContactorFeedbackTimeout_of_weld hm hi hhi hf ht, rfl, ?_, State.welded_saw ..⟩
    rw [State.welded_safe, State.advance_safety]
  · intro s o n hm hi hhi hlo hf
    exact ⟨_, (execContactorFeedbackTimeout_of_on hm hi hhi hlo).trans (by rw [hf, if_pos rfl]), rfl⟩
  · intro s hs ha
    have hsent (u : State) (hsaf : u.safety = s.safety) (hsend : u.sending = true) (haddr : u.chain.addr ≠ 0) :
        u.sendSafetyFrame.safety.sfSeq = s.safety.sfSeq + 1 ∧ u.sendSafetyFrame.safety.sfWord0 = s.safety.word0
          ∧ u.sendSafetyFrame.safety.sfSafe = s.safety.safe ∧ u.sendSafetyFrame.safety.sfLastAt = u.sendSafetyFrame.now := by
      obtain ⟨hu, htime⟩ := State.sendSafetyFrame_of_sending hsend haddr
      rw [hu, hsaf, State.now_of_time u htime]
      exact ⟨rfl, rfl, rfl, rfl⟩
    refine ⟨_, rfl, ?_⟩
    split
    · exact hsent s rfl hs ha
    · refine hsent _ (s.advance_safety _) ?_ ?_
      · rw [State.advance_sending, hs]
      · rwa [State.advance_chain]
  · intro s can b h
    refine ⟨s, congrArg Host.Outcome.next ?_, rfl⟩
    rw [State.takeFrame, h]
  · intro s can b p h hp
    refine ⟨_, congrArg Host.Outcome.next ?_, rfl⟩
    rw [State.takeFrame, h]
    exact State.takePartner_of_single ((State.takePdus_isPair _ p _ s).trans hp) p
  · intro s n x h hp hx ha
    refine ⟨_, execSafetyFrameWatchdog_of_silent h hp hx ha, State.safeState_safe .., ?_, ?_⟩
    · exact (State.producerSilent_saw ..).mono (State.safeState_records ..)
    · rw [State.safeState_producers]
      change (((s.advance _).safety.producers).set n.val _)[n.val]? = _
      rw [State.advance_safety, List.getElem?_set_self (List.getElem?_eq_some_iff.mp h).1]

end

end Sys2Proof.Machine
end

section
/-! PROOFS. The safe state (12 R320, R321), contactors (R315) and the reset (R322, R323). -/
namespace Sys2Proof.Machine

section
variable {s : State}

/-! ### The safe state is entered once, and a tick keeps it -/

theorem State.safeState_gate (h : s.safety.safe = false) (d : Demand) :
    (s.safeState d).gate.stage = if s.gate.stage = .off then .off else .tripped := by
  unfold State.safeState
  extract_lets t u
  rw [if_neg (Bool.eq_false_iff.mp h)]
  have hsend : State.gate (State.sendSafetyFrame _) = _ := State.sendSafetyFrame_same { u with safety := { u.safety with
    safe := true, cause := d.fn, enteredAt := s.now, resetDue := none } } (q := .gate) (by decide)
  have hu : u.gate = ((t.openSwitches d.engines).balancingOff.stageTrip 7 255 255 255).gate := State.abandonRun_same _ (q := .gate) 0 (by decide)
  rw [hsend]
  change u.gate.stage = _
  rw [hu]
  split
  · next hoff => rw [State.stageTrip_of_off (s := (t.openSwitches d.engines).balancingOff) hoff]; exact hoff
  · next hon => exact State.stageTrip_stage (s := (t.openSwitches d.engines).balancingOff) hon 7 255 255 255

theorem State.safeState_keeps (d : Demand) (h : s.safety.safe = true) : (s.safeState d).safety.safe = true := by
  rw [State.safeState_of_safe h]
  exact h

theorem State.withdraw_safe (s : State) (cause : Nat) (stay : Bool) : (s.withdraw cause stay).safety.safe = s.safety.safe := by
  by_cases h : s.twin.st ≠ .withdrawn ∧ s.twin.st ≠ .retired ∧ s.twin.st ≠ .catching
  · rw [State.withdraw_safety h]
    rfl
  · unfold State.withdraw
    split
    · rfl
    · rfl
    · rfl
    · next hw hr hc => exact absurd ⟨hw, hr, hc⟩ h

theorem State.inputEvents_keeps (h : s.safety.safe = true) (object n : Nat) (code : Option Nat) (alarm : Bool) (oa na ob nb : DualIn) :
    (s.inputEvents object n code alarm oa na ob nb).safety.safe = true := by
  unfold State.inputEvents
  extract_lets disc t rise
  have ht : t.safety.safe = true := by
    change (if _ then s else s.raise _ _).safety.safe = true
    split
    · exact h
    · exact h
  split
  · exact ht
  · split
    · exact ht
    · split
      · exact ht
      · exact State.safeState_keeps _ ht

theorem State.tickInputs_keeps (h : s.safety.safe = true) (a b : SafetySample) : (s.tickInputs a b).safety.safe = true := by
  unfold State.tickInputs
  refine List.foldlRecOn _ _ (motive := fun u : State => u.safety.safe = true) ?_ (fun u hu l _ => State.inputEvents_keeps hu ..)
  exact List.foldlRecOn _ _ (motive := fun u : State => u.safety.safe = true) h (fun u hu n _ => State.inputEvents_keeps hu ..)

theorem State.selfDiagnosis_keeps {cause : Nat} {f : State → State} (h : s.safety.safe = true)
    (hf : ∀ u : State, u.safety.safe = true → (f u).safety.safe = true) : (s.selfDiagnosis cause f).safety.safe = true := by
  unfold State.selfDiagnosis
  split
  · exact hf s h
  · rw [State.withdraw_safe, h]

theorem State.outFault_keeps (h : s.safety.safe = true) (o : Nat) (low : Bool) (f : SoFault) : (s.outFault o low f).safety.safe = true := by
  unfold State.outFault
  refine State.selfDiagnosis_keeps ?_ (fun u hu => State.safeState_keeps _ hu)
  split <;> exact h

theorem State.ite_safe {c : Prop} [Decidable c] {t u : State} (ht : t.safety.safe = true) (hu : u.safety.safe = true) :
    (if c then t else u).safety.safe = true := by
  split <;> assumption

theorem State.tickOuts_keeps (h : s.safety.safe = true) (on : BitVec 8) : (s.tickOuts on).safety.safe = true := by
  unfold State.tickOuts
  extract_lets t
  have ht : t.safety.safe = true := h
  clear_value t
  refine List.foldlRecOn _ _ (motive := fun u : State => u.safety.safe = true) ht (fun u hu o _ => ?_)
  exact State.ite_safe hu (State.ite_safe (State.outFault_keeps hu ..) (State.ite_safe (State.outFault_keeps hu ..)
    (State.ite_safe (State.outFault_keeps hu ..) (State.ite_safe (State.outFault_keeps hu ..) hu))))

theorem State.openContactors_safe (s : State) : s.openContactors.safety.safe = s.safety.safe := by
  unfold State.openContactors
  cases s.mainOut <;> cases s.prechargeOut <;> rfl

theorem State.tickState_keeps (h : s.safety.safe = true) (coil : Nat) : (s.tickState coil).safety.safe = true := by
  unfold State.tickState
  extract_lets perm t u close v
  have ht : t.safety.safe = true := by
    refine List.foldlRecOn _ _ (motive := fun w : State => w.safety.safe = true) h (fun w hw o _ => ?_)
    exact State.ite_safe hw (State.ite_safe hw hw)
  have hu : u.safety.safe = true := by
    change (match s.safety.contactor, s.gate.stage with
      | .opening, .off | .opening, .armed | .opening, .tripped => t.openContactors
      | _, _ => t).safety.safe = true
    split
    all_goals first
      | exact ht
      | rw [State.openContactors_safe, ht]
  split
  · exact hu
  · exact hu

theorem State.endTest_keeps (h : s.safety.safe = true) (o : Nat) : (s.endTest o).safety.safe = true := by
  unfold State.endTest
  split
  · exact h
  · extract_lets t
    exact State.ite_safe h (State.outFault_keeps (s := t) h ..)

/-- Settles O28: the safe state's own lemmas; a tick keeps it through each of its parts. -/
theorem safeStateEntry : Obligations.SafeStateEntry := by
  unfold Obligations.SafeStateEntry
  refine ⟨?_, ?_, ?_⟩
  · intro s d h
    obtain ⟨n, t, w, b, hs⟩ := State.safeState_safety h d
    refine ⟨State.safeState_safe s d, ?_, ?_, ?_, State.safeState_gate h d, State.safeState_saw s d, ?_⟩ <;> rw [hs] <;> rfl
  · intro s d h
    rw [State.safeState_of_safe h]
    exact ⟨rfl, rfl, State.raise_saw ..⟩
  · intro s a b on coil h
    refine ⟨_, rfl, ?_⟩
    have hstart : (s.periodic 4 1000000).safety.safe = true := by
      rw [s.periodic_same 4 1000000 (q := .safety) (by decide), h]
    exact List.foldlRecOn _ _ (motive := fun u : State => u.safety.safe = true)
      (State.tickState_keeps (State.tickOuts_keeps (State.tickInputs_keeps hstart a b) on) coil) (fun u hu o _ => State.endTest_keeps hu o)

/-! ### Contactors (R315) -/

theorem State.applyContactor_close {p m : Nat} (h : s.closeRefused = false) (hp : s.prechargeOut = some p) (hm : s.mainOut = some m) :
    s.applyContactor 1 = (s.setOut p true).onSafety (fun x => { x with contactor := .precharge s.now }) := by
  unfold State.applyContactor
  rw [if_pos rfl, if_neg (Bool.eq_false_iff.mp h), hp, hm]

theorem State.applyContactor_openLate (h : s.gate.stage = .run) :
    s.applyContactor 2 = s.stageDisable.onSafety (fun x => { x with contactor := .opening }) := by
  unfold State.applyContactor
  rw [if_neg (by decide), h]

theorem State.applyContactor_open (h : s.gate.stage = .armed) : s.applyContactor 2 = s.openContactors := by
  unfold State.applyContactor
  rw [if_neg (by decide), h]

theorem State.stageDisable_of_run (h : s.gate.stage = .run) : s.stageDisable.safety = s.safety ∧ s.stageDisable.gate.stage = .stopDelay := by
  have hgate (u : State) : (u.abandonRun 0).gate = u.gate := u.abandonRun_same 0 (q := .gate) (by decide)
  have hsafety (u : State) : (u.abandonRun 0).safety = u.safety := u.abandonRun_same 0 (q := .safety) (by decide)
  unfold State.stageDisable
  rw [h]
  dsimp only
  rw [hgate, hsafety]
  exact ⟨rfl, rfl⟩

theorem State.openContactors_off {m : Nat} (hm : s.mainOut = some m) (hl : m < s.safety.outs.length) :
    s.openContactors.safety.contactor = .open_ ∧ (s.openContactors.safety.out m).hi = false := by
  have hoff := (State.setOut_off (s := s) hl).1
  refine ⟨rfl, ?_⟩
  unfold State.openContactors
  rw [hm]
  rcases s.prechargeOut with _ | p
  · exact hoff
  · exact State.setOut_hi_of_off hoff (by rwa [State.setOut_count])

/-- The main contactor's output is energised after the precharge. -/
def State.mainClosed (s : State) (m : Nat) : State := (s.setOut m true).onSafety (fun x => { x with contactor := .mainOn s.now })

theorem execPrechargeEnd_of_precharge {since m : Nat} (h : s.safety.contactor = .precharge since) (hm : s.mainOut = some m) :
    execPrechargeEnd s = .next ((s.advance (since + 10000000 * Fld.safeCfg_PRECHG s.cfg)).mainClosed m) := by
  unfold execPrechargeEnd
  rw [h, hm]
  rfl

theorem State.mainClosed_now (s : State) (m : Nat) : (s.mainClosed m).now = s.now := State.now_of_time _ rfl

/-- The precharge output is released. -/
def State.prechargeOff (s : State) (p : Nat) : State := (s.setOut p false).onSafety (fun x => { x with contactor := .closed })

theorem execPrechargeRelease_of_mainOn {since p : Nat} (h : s.safety.contactor = .mainOn since) (hp : s.prechargeOut = some p) :
    execPrechargeRelease s = .next ((s.advance (since + 50000000)).prechargeOff p) := by
  unfold execPrechargeRelease
  rw [h, hp]
  rfl

theorem State.prechargeOff_now (s : State) (p : Nat) : (s.prechargeOff p).now = s.now := State.now_of_time _ rfl

theorem State.mainClosed_does {m : Nat} (hl : m < s.safety.outs.length) (hf : (s.safety.out m).fault = .none) :
    ((s.mainClosed m).safety.out m).hi = true ∧ ((s.mainClosed m).safety.out m).lo = true
      ∧ (s.mainClosed m).safety.contactor = .mainOn (s.mainClosed m).now := by
  rw [State.mainClosed_now]
  obtain ⟨hhi, hlo⟩ := State.setOut_on hl hf
  exact ⟨hhi, hlo, rfl⟩

theorem State.prechargeOff_does {p : Nat} (hl : p < s.safety.outs.length) : ((s.prechargeOff p).safety.out p).hi = false
    ∧ ((s.prechargeOff p).safety.out p).lo = false ∧ (s.prechargeOff p).safety.contactor = .closed := by
  obtain ⟨hhi, hlo⟩ := State.setOut_off hl
  exact ⟨hhi, hlo, rfl⟩

/-! ### The reset (R322, R323) -/

/-- The return of an input to rest is taken. -/
def SafetyEng.pressTaken (x : SafetyEng) (n : Nat) : SafetyEng := { x with inputs := modAt x.inputs n (fun d => { d with leftAt := none }) }

/-- A press of a reset input is taken from both engines. -/
def State.pressTaken (s : State) (n : Nat) : State := (s.onEngA (·.pressTaken n)).onEngB (·.pressTaken n)

theorem State.pressTaken_resetBlock (s : State) (n : Nat) : (s.pressTaken n).resetBlock = s.resetBlock := by
  have hinputs (l : List DualIn) : (modAt l n (fun d => { d with leftAt := none })).any (fun d => d.latched && !d.cleared) =
      l.any (fun d => d.latched && !d.cleared) := modAt_any _ _ _ _ (fun _ => rfl)
  unfold State.resetBlock
  simp only [List.any_append, State.pressTaken, State.onEngA, State.onEngB, State.onSafety, SafetyEng.pressTaken, hinputs]
  rfl

section
variable {n : Fin 16} {a b : DualIn} (ha : s.safety.engA.inputs[n.val]? = some a) (hb : s.safety.engB.inputs[n.val]? = some b)
  (hf : Fld.siCfg_FUNC s.cfg n.val = 5) (hpa : a.resetPress s.now = true) (hpb : b.resetPress s.now = true)
include ha hb hf hpa hpb

theorem execResetInput_of_press : execResetInput n s = .next (match (s.pressTaken n).resetAccepted 0 with
    | .error k => (s.pressTaken n).raise Ev.resetRefused [0, k]
    | .ok u => u) := by
  unfold execResetInput
  dsimp only
  rw [List.getD_eq_getElem?_getD, List.getD_eq_getElem?_getD, ha, hb, Option.getD_some, Option.getD_some, hf, hpa, hpb]
  rfl

theorem execResetInput_of_clear (hr : s.resetBlock = none) :
    execResetInput n s = .next ((s.pressTaken n).onSafety (fun x => { x with resetDue := some 0 })) := by
  rw [execResetInput_of_press ha hb hf hpa hpb, State.resetAccepted, State.pressTaken_resetBlock, hr]

theorem execResetInput_of_blocked {k : Nat} (hr : s.resetBlock = some k) :
    execResetInput n s = .next ((s.pressTaken n).raise Ev.resetRefused [0, k]) := by
  rw [execResetInput_of_press ha hb hf hpa hpb, State.resetAccepted, State.pressTaken_resetBlock, hr]

end

theorem State.pressTaken_resetDue (s : State) (n : Nat) : (s.pressTaken n).safety.resetDue = s.safety.resetDue := rfl

theorem State.applyReset_does {src : Nat} (h : s.safety.resetDue = some src) (hr : s.resetBlock = none) : s.applyReset.safety.safe = false
    ∧ s.applyReset.safety.outs = s.safety.outs ∧ s.applyReset.gate = s.gate ∧ s.applyReset.Saw Ev.safeReset [src] := by
  unfold State.applyReset
  rw [h]
  dsimp only
  rw [hr]
  exact ⟨rfl, rfl, rfl, State.raise_saw ..⟩

theorem any_of_getD {l : List Bool} {f : Nat} (h : l.getD f false = true) : l.any id = true := by
  rw [List.getD_eq_getElem?_getD] at h
  rcases hf : l[f]? with _ | x
  · rw [hf] at h
    exact absurd h (by decide)
  · rw [hf] at h
    exact List.any_eq_true.mpr ⟨x, List.mem_of_getElem? hf, h⟩

theorem State.resetBlock_of_open (h : (∃ f, s.safety.engA.demand.getD f false = true ∨ s.safety.engB.demand.getD f false = true)
    ∨ (∃ n ∈ s.safety.engA.counters ++ s.safety.engB.counters, n ≠ 0) ∨ (∃ o ∈ s.safety.outs, o.fault ≠ .none) ∨ s.safety.weld = true
    ∨ s.now < s.safety.enteredAt + 1000000000) : s.resetBlock.isSome = true := by
  unfold State.resetBlock
  extract_lets x dem
  split
  · rfl
  next h1 =>
  split
  · rfl
  next h2 =>
  split
  · rfl
  split
  · rfl
  next h4 =>
  split
  · rfl
  next h5 =>
  exfalso
  obtain ⟨f, hf | hf⟩ | ⟨n, hn, h0⟩ | ⟨o, ho, hfault⟩ | hw | ht := h
  · exact h1 (Bool.or_eq_true_iff.mpr (.inl (any_of_getD hf)))
  · exact h1 (Bool.or_eq_true_iff.mpr (.inr (any_of_getD hf)))
  · exact h2 (List.any_eq_true.mpr ⟨n, hn, decide_eq_true h0⟩)
  · exact h4 (Bool.or_eq_true_iff.mpr (.inl (List.any_eq_true.mpr ⟨o, ho, decide_eq_true hfault⟩)))
  · exact h4 (Bool.or_eq_true_iff.mpr (.inr hw))
  · exact h5 (Bool.or_eq_true_iff.mpr (.inl (decide_eq_true ht)))

/-- Settles O29: the host's rows by their refusals, the contactors' outputs by `State.setOut_out`, the reset by R322's conditions. -/
theorem contactorsAndReset : Obligations.ContactorsAndReset := by
  unfold Obligations.ContactorsAndReset
  refine ⟨?_, ?_, ?_, ?_, ?_, ?_, ?_, ?_, ?_, ?_, ?_, ?_, ?_, ?_, ?_, ?_, ?_⟩
  · exact fun s t q d h hc => congrArg Host.Outcome.next (hostRow_silent h (if_neg (Bool.eq_false_iff.mp hc)))
  · exact fun s t q d h hc => congrArg Host.Outcome.next (hostRow_refuse h (if_pos hc))
  · exact fun s t q d h => congrArg Host.Outcome.next (hostRow_silent h rfl)
  · exact fun s => rfl
  · intro s p m h hp hm
    rw [State.applyContactor_close h hp hm]
    exact ⟨rfl, fun hl hf => State.setOut_on hl hf⟩
  · intro s since m h hm hl hf
    obtain ⟨hhi, hlo, hc⟩ := State.mainClosed_does (s := s.advance (since + 10000000 * Fld.safeCfg_PRECHG s.cfg)) (m := m)
      (by rwa [State.advance_safety]) (by rw [State.advance_safety, hf])
    refine ⟨_, execPrechargeEnd_of_precharge h hm, hhi, hlo, hc, fun hlt hs => ?_⟩
    have hb : Fld.safeCfg_PRECHG s.cfg < 256 := RegBank.fld_lt s.cfg 0x090C 27 20
    rw [State.mainClosed_now, State.now_of_lt hlt (by omega)]
  · intro s since p h hp hl
    obtain ⟨hhi, hlo, hc⟩ := State.prechargeOff_does (s := s.advance (since + 50000000)) (p := p) (by rwa [State.advance_safety])
    refine ⟨_, execPrechargeRelease_of_mainOn h hp, hhi, hlo, hc, fun hlt hs => ?_⟩
    rw [State.prechargeOff_now, State.now_of_lt hlt (by omega)]
  · intro s h
    obtain ⟨hs, hg⟩ := State.stageDisable_of_run h
    rw [State.applyContactor_openLate h]
    refine ⟨rfl, ?_, hg⟩
    rw [← hs]
    rfl
  · intro s m h hm hl
    rw [State.applyContactor_open h]
    exact State.openContactors_off hm hl
  · intro s t q d h hrem hb
    refine congrArg Host.Outcome.next (hostRow_silent h ?_)
    rw [hrem, hb]
    rfl
  · intro s t q d n h hrem hb
    refine congrArg Host.Outcome.next (hostRow_refuseAs h ?_)
    rw [hrem, hb]
    rfl
  · exact fun s t q d h hrem => congrArg Host.Outcome.next (hostRow_refuse h (if_pos (by rw [hrem]; rfl)))
  · exact fun s n a b ha hb hf hpa hpb hr => ⟨_, execResetInput_of_clear ha hb hf hpa hpb hr, rfl, rfl⟩
  · exact fun s n a b k ha hb hf hpa hpb hr => ⟨_, execResetInput_of_blocked ha hb hf hpa hpb hr, rfl, State.raise_saw ..⟩
  · exact fun s src h hr => State.applyReset_does h hr
  · exact fun s h => State.resetBlock_of_open h
  · exact fun s w hfind hw => ⟨_, rfl, State.expireBoth_does hfind hw _ _⟩

end

end Sys2Proof.Machine
end

section
/-! PROOFS. Dual-channel inputs (12 R308 to R310), an engine's sweep (R299 to R306) and a producer's frames (R327 to R329). -/
namespace Sys2Proof.Machine

/-! ### Dual-channel inputs -/

section
variable {d : DualIn} {filt disc now : Nat} {r1 r2 : Bool} {l : List (Bool × Bool × Nat)}

/-- An input after samples of both channels, each with its instant. -/
def DualIn.samples (d : DualIn) (filt disc : Nat) (l : List (Bool × Bool × Nat)) : DualIn :=
  l.foldl (fun x p => x.sample filt disc p.1 p.2.1 p.2.2) d

theorem DualIn.sample_run1 : (d.sample filt disc r1 r2 now).run1 = if r1 then d.run1 + 1 else 0 := rfl
theorem DualIn.sample_run2 : (d.sample filt disc r1 r2 now).run2 = if r2 then d.run2 + 1 else 0 := rfl
theorem DualIn.sample_d1 : (d.sample filt disc r1 r2 now).d1 = decide (filt < (d.sample filt disc r1 r2 now).run1) := rfl
theorem DualIn.sample_d2 : (d.sample filt disc r1 r2 now).d2 = decide (filt < (d.sample filt disc r1 r2 now).run2) := rfl

/-- What the samples' last one leaves: the channels' states follow their runs. -/
theorem DualIn.samples_d (h : l ≠ []) : (d.samples filt disc l).d1 = decide (filt < (d.samples filt disc l).run1)
    ∧ (d.samples filt disc l).d2 = decide (filt < (d.samples filt disc l).run2) := by
  obtain ⟨l', p, rfl⟩ := l.eq_nil_or_concat.resolve_left h
  simp only [DualIn.samples, List.concat_eq_append, List.foldl_append, List.foldl_cons, List.foldl_nil]
  exact ⟨DualIn.sample_d1, DualIn.sample_d2⟩

theorem DualIn.samples_run1 (h : ∀ p ∈ l, p.1 = true) : (d.samples filt disc l).run1 = d.run1 + l.length := by
  induction l generalizing d with
  | nil => rfl
  | cons p l ih =>
    obtain ⟨hp, hl⟩ := List.forall_mem_cons.mp h
    refine (ih hl).trans ?_
    rw [DualIn.sample_run1, if_pos hp, List.length_cons]
    omega

theorem DualIn.samples_run2 (h : ∀ p ∈ l, p.2.1 = true) : (d.samples filt disc l).run2 = d.run2 + l.length := by
  induction l generalizing d with
  | nil => rfl
  | cons p l ih =>
    obtain ⟨hp, hl⟩ := List.forall_mem_cons.mp h
    refine (ih hl).trans ?_
    rw [DualIn.sample_run2, if_pos hp, List.length_cons]
    omega

theorem DualIn.samples_run1_le : (d.samples filt disc l).run1 ≤ d.run1 + l.length := by
  induction l generalizing d with
  | nil => exact Nat.le_refl _
  | cons p l ih =>
    refine Nat.le_trans ih ?_
    rw [DualIn.sample_run1, List.length_cons]
    split <;> omega

theorem DualIn.sample_latched : (d.sample filt disc r1 r2 now).latched =
    (d.latched || (decide (disc < (d.sample filt disc r1 r2 now).disc) && !(d.latched && !d.cleared))) := rfl

theorem DualIn.sample_disc : (d.sample filt disc r1 r2 now).disc =
    if (d.sample filt disc r1 r2 now).d1 = (d.sample filt disc r1 r2 now).d2 then 0 else d.disc + 1 := by
  change (if ((d.sample filt disc r1 r2 now).d1 != (d.sample filt disc r1 r2 now).d2) = true then d.disc + 1 else 0) = _
  cases (d.sample filt disc r1 r2 now).d1 <;> cases (d.sample filt disc r1 r2 now).d2 <;> rfl

/-- A latch waits for a demand of channel 1: it stays while that channel reads rest. -/
theorem DualIn.sample_waits (hl : d.latched = true) (hc : d.cleared = false) (hs : d.seen1 = false) (h : r1 = false) :
    (d.sample filt disc r1 r2 now).latched = true ∧ (d.sample filt disc r1 r2 now).cleared = false
      ∧ (d.sample filt disc r1 r2 now).seen1 = false := by
  simp [DualIn.sample, hl, hc, hs, h]

theorem DualIn.samples_waits (hl : d.latched = true) (hc : d.cleared = false) (hs : d.seen1 = false) (h : ∀ p ∈ l, p.1 = false) :
    (d.samples filt disc l).latched = true ∧ (d.samples filt disc l).cleared = false := by
  induction l generalizing d with
  | nil => exact ⟨hl, hc⟩
  | cons p l ih =>
    obtain ⟨hp, hrest⟩ := List.forall_mem_cons.mp h
    obtain ⟨hl', hc', hs'⟩ := DualIn.sample_waits (filt := filt) (disc := disc) (r2 := p.2.1) (now := p.2.2) hl hc hs hp
    exact ih hl' hc' hs' hrest

theorem DualIn.unlatch_latched (d : DualIn) : d.unlatch.latched = (d.latched && !d.cleared) := by
  unfold DualIn.unlatch
  cases hl : d.latched <;> cases hc : d.cleared <;> simp [hl]

end

/-- Settles O26: a channel's state by the length of its run, the latch by the disagreement's count. -/
theorem dualChannelInputs : Obligations.DualChannelInputs := by
  unfold Obligations.DualChannelInputs
  refine ⟨?_, ?_, ?_, ?_, ?_, ?_, ?_, ?_, ?_⟩
  · intro d filt disc l h hl
    refine (DualIn.samples_d (List.ne_nil_of_length_pos (by omega))).1.trans ?_
    rw [DualIn.samples_run1 h]
    exact decide_eq_true (by omega)
  · intro d filt disc l h hl
    refine (DualIn.samples_d (List.ne_nil_of_length_pos (by omega))).2.trans ?_
    rw [DualIn.samples_run2 h]
    exact decide_eq_true (by omega)
  · intro d filt disc now r l hl
    have hall : ((d.sample filt disc false r now).samples filt disc l).d1 = (d.samples filt disc ((false, r, now) :: l)).d1 := rfl
    refine hall.trans ((DualIn.samples_d (List.cons_ne_nil _ _)).1.trans (decide_eq_false (Nat.not_lt.mpr ?_)))
    have hrun := DualIn.samples_run1_le (d := d.sample filt disc false r now) (filt := filt) (disc := disc) (l := l)
    rw [DualIn.sample_run1, if_neg Bool.false_ne_true] at hrun
    exact Nat.le_trans hrun (by omega)
  · intro d filt disc now r1 r2 h
    rw [DualIn.sample_latched, h]
    simp
  · exact fun d filt disc now r1 r2 => DualIn.sample_disc
  · intro d filt disc now r1 r2 h
    rw [DualIn.sample_latched, h, Bool.true_or]
  · intro d filt disc l hl hc hs h
    obtain ⟨hl', hc'⟩ := DualIn.samples_waits (filt := filt) (disc := disc) hl hc hs h
    refine ⟨hc', ?_⟩
    change (DualIn.samples d filt disc l).demands = true
    rw [DualIn.demands, hl', hc']
    exact Bool.or_true _
  · exact fun d => rfl
  · exact DualIn.unlatch_latched

/-! ### An engine's sweep -/

section
variable {s : State} {at_ : Nat} {res : Nat → CellRes} {temp : Nat → Option Int} {i : Option Int} {x : SafetyEng}

/-- The counters after a sweep. -/
def State.nextCounters (s : State) (res : Nat → CellRes) (temp : Nat → Option Int) (i : Option Int) (x : SafetyEng) : List Nat :=
  mapIdxL (fun k n => nextCount n ((s.findings res temp i).getD k ⟨none, false⟩)) x.counters

/-- What a sweep takes of its results: the counters and the last usable instants. -/
def State.sweepTaken (s : State) (at_ : Nat) (res : Nat → CellRes) (temp : Nat → Option Int) (i : Option Int) (x : SafetyEng) : SafetyEng :=
  { x with
    counters := s.nextCounters res temp i x
    cells := mapIdxL (fun c t => if c < s.cellCount && (res c).usable then at_ else t) x.cells
    current := if i.isSome then at_ else x.current
    therms := mapIdxL (fun t a => if (temp t).isSome then at_ else a) x.therms }

/-- The demands of functions 1 to 6 after a sweep. -/
def State.nextDemands (s : State) (at_ : Nat) (res : Nat → CellRes) (temp : Nat → Option Int) (i : Option Int) (x : SafetyEng) : List Bool :=
  mapIdxL (fun f d => if 1 ≤ f ∧ f ≤ 5 then decide ((s.confirmations.getD (f - 1) 1) ≤ (s.nextCounters res temp i x).getD (f - 1) 0)
    else if f = 6 then (s.blindObject (s.sweepTaken at_ res temp i x) at_).isSome else d) x.demand

theorem State.engineSweep_of_running (h : x.running = true) :
    s.engineSweep at_ res temp i x = { s.sweepTaken at_ res temp i x with demand := s.nextDemands at_ res temp i x } := by
  unfold State.engineSweep
  rw [if_neg (by rw [h]; decide)]
  rfl

theorem State.engineSweep_counter {k : Nat} (h : x.running = true) (hk : k < x.counters.length) :
    (s.engineSweep at_ res temp i x).counters.getD k 0 = nextCount (x.counters.getD k 0) ((s.findings res temp i).getD k ⟨none, false⟩) := by
  rw [State.engineSweep_of_running h]
  change (s.nextCounters res temp i x).getD k 0 = _
  exact mapIdxL_getD _ _ hk 0 0

theorem State.engineSweep_confirmed {k : Nat} (h : x.running = true) (hk : k < 5) (hd : x.demand.length = 14) :
    (s.engineSweep at_ res temp i x).demand.getD (k + 1) false =
      decide (s.confirmations.getD k 1 ≤ (s.engineSweep at_ res temp i x).counters.getD k 0) := by
  rw [State.engineSweep_of_running h]
  have hlen : k + 1 < x.demand.length := by omega
  change (s.nextDemands at_ res temp i x).getD (k + 1) false = decide (_ ≤ (s.nextCounters res temp i x).getD k 0)
  refine (mapIdxL_getD _ _ hlen false false).trans ?_
  rw [if_pos (by omega)]
  rfl

theorem State.engineSweep_blind (h : x.running = true) (hd : x.demand.length = 14) : (s.engineSweep at_ res temp i x).demand.getD 6 false =
    (s.blindObject (s.sweepTaken at_ res temp i x) at_).isSome := by
  have hlen : 6 < x.demand.length := by omega
  rw [State.engineSweep_of_running h]
  change (s.nextDemands at_ res temp i x).getD 6 false = _
  exact mapIdxL_getD _ _ hlen false false

/-- A cell without a usable result keeps its last usable instant. -/
theorem State.sweepTaken_cell {c : Nat} (hu : (res c).usable = false) : (s.sweepTaken at_ res temp i x).cells.getD c 0 = x.cells.getD c 0 := by
  unfold State.sweepTaken
  by_cases hc : c < x.cells.length
  · rw [mapIdxL_getD _ _ hc 0 0, hu, Bool.and_false, if_neg Bool.false_ne_true]
  · rw [getD_of_length_le (by rw [mapIdxL_length]; omega), getD_of_length_le (by omega)]

theorem State.blindObject_of_cell {c : Nat} (hc : c < s.cellCount) (h : x.cells.getD c 0 + 10000000 * Fld.safeConf_BLIND s.cfg < at_) :
    (s.blindObject x at_).isSome = true := by
  unfold State.blindObject
  extract_lets b
  have hfind : ((List.range s.cellCount).find? (fun c => decide (x.cells.getD c 0 + b < at_))).isSome = true :=
    List.find?_isSome.mpr ⟨c, List.mem_range.mpr hc, decide_eq_true h⟩
  split
  · rfl
  · next hnone =>
    rw [hnone] at hfind
    exact absurd hfind (by decide)

theorem State.overCells_hit {c : Nat} {cond : CellRes → Bool} (hc : c < s.cellCount) (h : cond (res c) = true) :
    (s.overCells res cond).hit.isSome = true := by
  rw [State.overCells, Option.isSome_map]
  exact List.find?_isSome.mpr ⟨c, List.mem_range.mpr hc, h⟩

theorem State.findings_cold {a : Int} (h : a ≤ (1000 * Fld.safeOc_ICHG s.cfg : Nat)) :
    (s.findings res temp (some a)).getD 3 ⟨none, false⟩ = ⟨none, false⟩ := by
  unfold State.findings
  dsimp only
  rw [decide_eq_false (Int.not_lt.mpr h)]
  rfl

end

/-- Settles O27: the sweep's counters and demands position by position; a blind cell by its kept instant. -/
theorem engineSweep : Obligations.EngineSweep := by
  unfold Obligations.EngineSweep
  refine ⟨?_, ?_, ?_, ?_, ?_, ?_⟩
  · exact fun s at_ k res temp i x h hk hc hd => ⟨State.engineSweep_counter h (by omega), State.engineSweep_confirmed h hk hd⟩
  · intro s at_ c res temp i x h hc hb hu hd
    rw [State.engineSweep_blind h hd]
    exact State.blindObject_of_cell hc (by rwa [State.sweepTaken_cell hu])
  · intro s c v res hc hr hv
    exact State.overCells_hit hc (by rw [hr]; exact decide_eq_true hv)
  · exact fun mV => ⟨rfl, rfl, rfl, rfl, rfl⟩
  · intro s n res temp a h
    rw [State.findings_cold h]
    rfl
  · exact fun s at_ res temp i x h => if_pos (by rw [h]; rfl)

/-! ### A producer's frames -/

section
variable {s : State} {x : Producer} {w : Nat} {junior : Bool} {p : SafetyPdu} {l : BitVec 16}

/-- A frame is newer than the last accepted one. -/
def Producer.newer (x : Producer) (p : SafetyPdu) : Bool := match x.lastSeq with
  | none => true
  | some l => decide (1 ≤ (p.seq - l).toNat ∧ (p.seq - l).toNat ≤ 32767)

/-- A frame lies within −1 ms to +WDOG of the producer's offset. -/
def State.inTime (s : State) (x : Producer) (w : Nat) (p : SafetyPdu) : Bool :=
  decide (-1000000 ≤ s.frameDiff p - x.offset ∧ s.frameDiff p - x.offset ≤ (1000000 * w : Nat))

/-- The frame of a producer whose sequence is known: newer, of the epoch or the next, in time, and eligible. -/
theorem State.judgePdu_of_known (h : x.lastSeq = some l) : s.judgePdu x w junior p =
    if !x.newer p then (if l = p.seq ∧ x.lastData ≠ p.data then .differs else .discard)
    else if !(decide (p.epoch = x.epoch + 1) || (decide (p.epoch = x.epoch) && s.inTime x w p))
        || !(!junior || !p.solo || decide (x.seniorAt + 5000000 * Fld.safeCfg_RX_TIMEOUT s.cfg ≤ s.now)) then .discard
    else .accept false (decide (p.epoch = x.epoch + 1)) := by
  have hn : x.newer p = decide (1 ≤ (p.seq - l).toNat ∧ (p.seq - l).toNat ≤ 32767) := by rw [Producer.newer, h]
  unfold State.judgePdu State.inTime
  simp only [hn, h, Option.isNone_some, Bool.not_false, Bool.true_and, Bool.false_or, Option.some.injEq]

theorem Producer.newer_of_old (h : x.lastSeq = some l) (hn : 32767 < (p.seq - l).toNat ∨ p.seq = l) : x.newer p = false := by
  unfold Producer.newer
  rw [h]
  refine decide_eq_false ?_
  obtain hn | hn := hn
  · omega
  · simp [hn]

theorem State.judgePdu_of_other (h : x.lastSeq = some l) (hne : p.seq ≠ l)
    (ht : (decide (p.epoch = x.epoch + 1) || (decide (p.epoch = x.epoch) && s.inTime x w p)) = false) : s.judgePdu x w junior p = .discard := by
  rw [State.judgePdu_of_known h, ht, if_neg (c := l = p.seq ∧ x.lastData ≠ p.data) (fun h' => hne h'.1.symm)]
  cases x.newer p
  · rfl
  · rfl

theorem bitVec4_ne_succ (e : BitVec 4) : e ≠ e + 1 := by
  revert e
  decide

theorem Producer.track_within (x : Producer) (diff : Int) (now : Nat) : mag (x.track diff now false - x.offset) ≤ ((now - x.lastAt) / 2000 : Nat) := by
  unfold Producer.track
  rw [if_neg Bool.false_ne_true]
  unfold clampI mag
  omega

theorem Producer.accept_expired (x : Producer) (p : SafetyPdu) (diff : Int) (now b : Nat) (learn : Bool) :
    (x.accept p diff now learn b).expired = (x.expired && decide (x.okRun < 2)) := by
  unfold Producer.accept
  cases h : x.expired
  · rfl
  · simp only [if_true, Bool.true_and, decide_eq_decide]
    omega

end

/-- Settles O30: the checks 3 to 5 of R327 in their order, an accepted frame's record, and the offset's bounded step. -/
theorem safetyFrames : Obligations.SafetyFrames := by
  unfold Obligations.SafetyFrames
  refine ⟨?_, ?_, ?_, ?_, ?_, ?_, ?_, ?_, ?_⟩
  · intro s x w p h
    simp [State.judgePdu, h]
  · intro s x w j p l h hne hn
    rw [State.judgePdu_of_known h, Producer.newer_of_old h (.inl hn), Bool.not_false, if_pos rfl, if_neg (fun h' => hne h'.1.symm)]
  · intro s x w j p l h heq
    rw [State.judgePdu_of_known h, Producer.newer_of_old h (.inr heq), Bool.not_false, if_pos rfl]
    by_cases hd : x.lastData = p.data
    · rw [if_pos hd, if_neg (fun h' => h'.2 hd)]
    · rw [if_neg hd, if_pos ⟨heq.symm, hd⟩]
  · intro s x w j p l h hne hne' hseq
    refine State.judgePdu_of_other h hseq ?_
    rw [decide_eq_false hne', decide_eq_false hne]
    rfl
  · intro s x w j p l h he hseq hd
    have hlate : s.inTime x w p = false := decide_eq_false (by omega)
    refine State.judgePdu_of_other h hseq ?_
    rw [he, decide_eq_false (bitVec4_ne_succ _), hlate]
    simp
  · intro s x w p l h h1 h2 he hlo hhi
    have hnew : x.newer p = true := by
      rw [Producer.newer, h]
      exact decide_eq_true ⟨h1, h2⟩
    have htime : s.inTime x w p = true := decide_eq_true ⟨hlo, hhi⟩
    rw [State.judgePdu_of_known h, hnew, htime, he, decide_eq_false (bitVec4_ne_succ _)]
    simp
  · exact fun x p diff now b learn => ⟨rfl, rfl, rfl, Producer.accept_expired x p diff now b learn⟩
  · exact fun x diff now _ => ⟨Producer.track_within x diff now, rfl⟩
  · intro s n p h
    unfold State.takePdu
    extract_lets c id junior
    refine if_pos ?_
    obtain h | h := h
    · simp [h]
    · simp [h]

end Sys2Proof.Machine
end

section
/-! PROOFS. The cycle engines (13): what a release of outputs leaves, what tasks leave of the program's banks, the events of cycles and
event tasks, modes, restarts and online change. -/
namespace Sys2Proof.Machine

section
variable {s t u : State} {e n : Nat}

/-! ### A release of outputs changes what has been released alone (R335, R363) -/

/-- The program's part but for what has been released: host-out words, I/O words, event points and pins. -/
structure Prog.Released (p q : Prog) : Prop where
  engines  : q.engines = p.engines
  banks    : q.banks = p.banks
  active   : q.active = p.active
  rollback : q.rollback = p.rollback
  switchAt : q.switchAt = p.switchAt
  shared   : q.shared = p.shared
  forces   : q.forces = p.forces

theorem Prog.Released.refl (p : Prog) : p.Released p := ⟨rfl, rfl, rfl, rfl, rfl, rfl, rfl⟩

theorem Prog.Released.of_eq {p q : Prog} (h : q = p) : p.Released q := h ▸ .refl p

theorem Prog.Released.trans {p q r : Prog} (h : p.Released q) (h' : q.Released r) : p.Released r :=
  ⟨h'.engines.trans h.engines, h'.banks.trans h.banks, h'.active.trans h.active, h'.rollback.trans h.rollback,
    h'.switchAt.trans h.switchAt, h'.shared.trans h.shared, h'.forces.trans h.forces⟩

theorem Prog.Released.foldl {α : Type} {f : State → α → State} (hf : ∀ (u : State) (x : α), u.prog.Released (f u x).prog) (l : List α) :
    ∀ s : State, s.prog.Released (l.foldl f s).prog := by
  induction l with
  | nil => exact fun s => .refl _
  | cons x l ih => exact fun s => (hf s x).trans (ih _)

theorem Prog.Released.eng (h : s.prog.Released t.prog) (e : Nat) : t.eng e = s.eng e := by rw [State.eng, State.eng, h.engines]

theorem Prog.Released.image (h : s.prog.Released t.prog) : t.image = s.image := by rw [State.image, State.image, h.banks, h.active]

theorem State.driveDio_released (s : State) (p : Nat) (v : Bool) : s.prog.Released (s.driveDio p v).prog := by
  unfold State.driveDio
  extract_lets t
  split
  · exact ⟨rfl, rfl, rfl, rfl, rfl, rfl, rfl⟩
  · exact ⟨rfl, rfl, rfl, rfl, rfl, rfl, rfl⟩

theorem State.canData_prog (s : State) (r : CanRow) (data : List Byte) : (s.canData r data).prog = s.prog := by
  have head := Part.may_among_head
  exact (State.canData_holds (R := false) (.refl nofun)).same_of_not_mem (q := .prog) (l := [Part.plant]) (by decide)

theorem State.releasePoint_released (s : State) (e at_ i : Nat) (x : IoEntry) (v : List Word) :
    s.prog.Released (s.releasePoint e at_ i x v).prog := by
  unfold State.releasePoint
  extract_lets t now u
  have ht : s.prog.Released t.prog := ⟨rfl, rfl, rfl, rfl, rfl, rfl, rfl⟩
  split
  · exact ht.trans (State.driveDio_released t _ _)
  · split
    · exact ht.trans (.of_eq (State.canData_prog t _ _))
    · exact ht
  · exact ht
  · exact ht.trans ⟨rfl, rfl, rfl, rfl, rfl, rfl, rfl⟩
  · have hu : s.prog.Released u.prog := ht.trans ⟨rfl, rfl, rfl, rfl, rfl, rfl, rfl⟩
    split
    · exact hu
    · exact hu
  · exact ht

theorem State.releaseOuts_released (s : State) (e at_ : Nat) (l : List (Nat × IoEntry)) (val : Nat → IoEntry → List Word) :
    s.prog.Released (s.releaseOuts e at_ l val).prog := by
  unfold State.releaseOuts
  split
  · exact .refl _
  · exact (Prog.Released.foldl (fun u p => State.releasePoint_released u ..) _ s).trans
      (Prog.Released.foldl (fun u p => State.releasePoint_released u ..) _ _)

theorem State.stopValues_released (s : State) (e : Nat) : s.prog.Released (s.stopValues e).prog := by
  unfold State.stopValues
  split
  · exact .refl _
  · exact State.releaseOuts_released ..

theorem State.stopOuts_released (s : State) (e : Nat) : s.prog.Released (s.stopOuts e).prog := by
  unfold State.stopOuts
  split
  · exact .refl _
  · refine (State.stopValues_released s e).trans (Prog.Released.foldl (fun u p => ?_) _ _)
    split
    · exact .refl _
    · exact .refl _

theorem State.reforce_released (s : State) (hit : List Byte → Bool) : s.prog.Released (s.reforce hit).prog := by
  unfold State.reforce
  split
  · exact .refl _
  · exact Prog.Released.foldl (fun u e => State.releaseOuts_released u ..) _ s

/-- A task's release of outputs leaves its engine but for the words it has made visible. -/
theorem State.releaseTask_eng (he : e < s.prog.engines.length) (at_ : Nat) (event : Option Nat) :
    ∃ w h, (s.releaseTask e at_ event).eng e = { s.eng e with sharedW := w, hostOut := h } := by
  unfold State.releaseTask
  split
  · exact ⟨_, _, rfl⟩
  · extract_lets mine outs t
    have heng : (t.onEng e (fun x => { x with
        sharedW := x.sharedW.filter (fun y => !mine 4 y), hostOut := x.hostOut.filter (fun y => !mine 7 y) })).eng e = _ :=
      State.eng_onEng (s := t) _ he
    exact ⟨_, _, ((State.releaseOuts_released ..).eng e).trans heng⟩

/-! ### Tasks leave the program's banks (R340, R357) -/

/-- The same images in the banks, the same one active, the same switch armed, as many engines. -/
structure Prog.SameBanks (p q : Prog) : Prop where
  banks    : q.banks = p.banks
  active   : q.active = p.active
  rollback : q.rollback = p.rollback
  switchAt : q.switchAt = p.switchAt
  count    : q.engines.length = p.engines.length

theorem Prog.SameBanks.refl (p : Prog) : p.SameBanks p := ⟨rfl, rfl, rfl, rfl, rfl⟩

theorem Prog.SameBanks.trans {p q r : Prog} (h : p.SameBanks q) (h' : q.SameBanks r) : p.SameBanks r :=
  ⟨h'.banks.trans h.banks, h'.active.trans h.active, h'.rollback.trans h.rollback, h'.switchAt.trans h.switchAt, h'.count.trans h.count⟩

theorem Prog.Released.sameBanks {p q : Prog} (h : p.Released q) : p.SameBanks q :=
  ⟨h.banks, h.active, h.rollback, h.switchAt, congrArg List.length h.engines⟩

theorem Prog.SameBanks.foldl {α : Type} {f : State → α → State} (hf : ∀ (u : State) (x : α), u.prog.SameBanks (f u x).prog) (l : List α) :
    ∀ s : State, s.prog.SameBanks (l.foldl f s).prog := by
  induction l with
  | nil => exact fun s => .refl _
  | cons x l ih => exact fun s => (hf s x).trans (ih _)

theorem Prog.SameBanks.image (h : s.prog.SameBanks t.prog) : t.image = s.image := by rw [State.image, State.image, h.banks, h.active]

theorem State.onEng_sameBanks (s : State) (e : Nat) (f : CycEng → CycEng) : s.prog.SameBanks (s.onEng e f).prog :=
  ⟨rfl, rfl, rfl, rfl, State.onEng_count f⟩

theorem State.wrWord_sameBanks (s : State) (e : Nat) (c : TaskCtx) (area i : Nat) (w : Word) :
    s.prog.SameBanks (s.wrWord e c area i w).prog := State.onEng_sameBanks ..

theorem State.wrBit_sameBanks (s : State) (e : Nat) (c : TaskCtx) (w : Word) (v : Bool) : s.prog.SameBanks (s.wrBit e c w v).prog :=
  State.wrWord_sameBanks ..

theorem State.ite_sameBanks {c : Prop} [Decidable c] (ht : s.prog.SameBanks t.prog) (hu : s.prog.SameBanks u.prog) :
    s.prog.SameBanks (if c then t else u).prog := by
  split <;> assumption

theorem State.ite_fst_sameBanks {c : Prop} [Decidable c] {r r' : State × Option TaskCtx} (ht : s.prog.SameBanks r.1.prog)
    (hu : s.prog.SameBanks r'.1.prog) : s.prog.SameBanks (if c then r else r').1.prog := by
  split <;> assumption

theorem State.instr_sameBanks (s : State) (e : Nat) (c : TaskCtx) (w : Word) : s.prog.SameBanks (s.instr e c w).1.prog := by
  unfold State.instr
  extract_lets op next setAcc setW jump b v r r'
  repeat' apply State.ite_fst_sameBanks
  any_goals exact .refl _
  any_goals exact State.wrBit_sameBanks ..
  any_goals exact State.wrWord_sameBanks ..
  any_goals exact State.onEng_sameBanks ..
  · exact State.ite_sameBanks (State.wrBit_sameBanks ..) (.refl _)
  · exact State.ite_sameBanks (State.wrBit_sameBanks ..) (.refl _)

theorem State.runTasks_sameBanks (k : Nat) : ∀ s : State, s.prog.SameBanks (s.runTasks e k).prog := by
  induction k with
  | zero => exact fun s => .refl _
  | succ k ih =>
    intro s
    unfold State.runTasks
    split
    · exact .refl _
    · split
      · exact State.onEng_sameBanks s e _
      · exact (State.instr_sameBanks ..).trans ((State.onEng_sameBanks ..).trans (ih _))

theorem State.runAll_sameBanks (s : State) (e : Nat) : s.prog.SameBanks (s.runAll e).prog := by
  unfold State.runAll
  split
  · exact State.runTasks_sameBanks _ s
  · exact .refl _

theorem State.releaseTask_sameBanks (s : State) (e at_ : Nat) (event : Option Nat) : s.prog.SameBanks (s.releaseTask e at_ event).prog := by
  unfold State.releaseTask
  split
  · exact .refl _
  · refine Prog.SameBanks.trans ?_ (State.releaseOuts_released ..).sameBanks
    exact Prog.SameBanks.trans (q := (s.onProg _).prog) ⟨rfl, rfl, rfl, rfl, rfl⟩ (State.onEng_sameBanks ..)

theorem State.advance_sameBanks (s : State) (n : Nat) : s.prog.SameBanks (s.advance n).prog := by
  rw [State.advance_prog]
  exact .refl _

theorem State.endCycle_sameBanks (s : State) (e done : Nat) : s.prog.SameBanks (s.endCycle e done).prog := by
  unfold State.endCycle
  split
  · exact .refl _
  · split
    · exact .refl _
    · extract_lets p u
      have hu : s.prog.SameBanks u.prog := (State.advance_sameBanks ..).trans (State.runAll_sameBanks ..)
      split
      · exact hu
      · exact hu.trans ((State.onEng_sameBanks u e _).trans ((State.releaseTask_sameBanks ..).trans (State.onEng_sameBanks ..)))

/-! ### Accepted commands at a boundary (14 R376) -/

theorem State.acceptedDue_of_one {c : Cmd} (h : s.host.accepted = [(n, c)]) (hn : n ≤ s.now) :
    s.acceptedDue = (s.onHost (fun x => { x with accepted := [] })).applyAccepted n c := by
  unfold State.acceptedDue
  simp only [State.onHost, h, List.filter_cons, hn, Nat.not_lt.mpr hn, decide_true, decide_false, if_true, Bool.false_eq_true, if_false,
    List.filter_nil, List.foldl_cons, List.foldl_nil]

theorem State.acceptedDue_of_later (h : ∀ a ∈ s.host.accepted, s.now < a.1) : s.acceptedDue = s := by
  unfold State.acceptedDue
  have hnone : s.host.accepted.filter (fun a => decide (a.1 ≤ s.now)) = [] :=
    List.filter_eq_nil_iff.mpr (fun a ha => by simp [h a ha])
  have hall : s.host.accepted.filter (fun a => decide (s.now < a.1)) = s.host.accepted :=
    List.filter_eq_self.mpr (fun a ha => decide_eq_true (h a ha))
  rw [hnone]
  simp only [State.onHost, hall, List.foldl_nil]

/-! ### Cycles (R335) -/

theorem State.advance_eng (s : State) (n e : Nat) : (s.advance n).eng e = s.eng e := by rw [State.eng, State.advance_prog, State.eng]

theorem State.advance_image (s : State) (n : Nat) : (s.advance n).image = s.image := (s.advance_sameBanks n).image

theorem State.endCycle_of_idle (h : (s.eng e).cycleAt = none) (done : Nat) : s.endCycle e done = s := by
  unfold State.endCycle
  rw [h]

theorem State.modeCmd_of_none (h : (s.eng e).cmd = none) : s.modeCmd e = s := by
  unfold State.modeCmd
  rw [h]

theorem execCycleStart_of_ready {e : Fin 8} (hm : (s.eng e.val).mode = .run) (hx : (s.eng e.val).ctx = []) (hc : (s.eng e.val).cycleAt = none)
    (hk : (s.eng e.val).cmd = none) (hs : (s.eng e.val).startFrom ≤ atOrAfter s.now (s.period e.val)) (hg : s.life.guard_ = false)
    (hch : (s.eng e.val).choice = false) :
    execCycleStart e s = .next ((s.advance (atOrAfter s.now (s.period e.val))).beginCycle e.val) := by
  unfold execCycleStart
  rw [State.endCycle_of_idle hc]
  dsimp only
  rw [hc]
  dsimp only
  rw [State.modeCmd_of_none (by rw [State.advance_eng, hk]), State.advance_eng, State.advance_life]
  exact congrArg Host.Outcome.next (if_pos ⟨hm, hx, hc, hs, hg, hch⟩)

/-- The tasks of a cycle that begins: the error task first where causes wait. -/
def State.cycleTasks (s : State) (e : Nat) (img : List Word) : List TaskCtx :=
  let x := s.eng e
  let cyc := s.draw.taskAt e 0 s.now x.clock img 0 []
  if decide (x.nCauses ≠ 0) then [s.taskAt e 7 s.now x.clock img x.nCauses x.causes, cyc] else [cyc]

/-- A cycle begins with an input image and the words latched. -/
def State.cycleBegun (s : State) (e : Nat) (img : List Word) (vals : List (Nat × List Word)) : State :=
  (s.draw.draw.onEng e (fun y => { y with
    ctx := s.cycleTasks e img, cycleAt := some s.now, firstScan := false
    nCauses := if decide ((s.eng e).nCauses ≠ 0) then 0 else y.nCauses, causes := if decide ((s.eng e).nCauses ≠ 0) then [] else y.causes })).onProg
      (fun p => { p with ioLast := vals.foldl (fun l v => l.set v.1 v.2) p.ioLast })

theorem State.beginCycle_eq (s : State) (e : Nat) : s.beginCycle e = (s.onEng e (fun x => x.tickTo s.now)).cycleBegun e
    ((s.onEng e (fun x => x.tickTo s.now)).latch e).1 ((s.onEng e (fun x => x.tickTo s.now)).latch e).2 := rfl

theorem State.cycleTasks_tasks (s : State) (e : Nat) (img : List Word) :
    (s.cycleTasks e img).map TaskCtx.task = if (s.eng e).nCauses = 0 then [0] else [7, 0] := by
  unfold State.cycleTasks
  by_cases hn : (s.eng e).nCauses = 0
  · simp only [hn, ne_eq, not_true_eq_false, decide_false, Bool.false_eq_true, if_false, if_true]
    rfl
  · simp only [hn, ne_eq, not_false_eq_true, decide_true, if_true, if_false]
    rfl

theorem State.cycleBegun_does (he : e < s.prog.engines.length) (img : List Word) (vals : List (Nat × List Word)) :
    ((s.cycleBegun e img vals).eng e).cycleAt = some s.now ∧ ((s.cycleBegun e img vals).eng e).nCauses = 0
      ∧ ((s.cycleBegun e img vals).eng e).firstScan = false ∧ ((s.cycleBegun e img vals).eng e).ctx = s.cycleTasks e img := by
  have heng : (s.cycleBegun e img vals).eng e = { s.eng e with
      ctx := s.cycleTasks e img, cycleAt := some s.now, firstScan := false
      nCauses := if decide ((s.eng e).nCauses ≠ 0) then 0 else (s.eng e).nCauses
      causes := if decide ((s.eng e).nCauses ≠ 0) then [] else (s.eng e).causes } := State.eng_onEng (s := s.draw.draw) _ he
  rw [heng]
  refine ⟨rfl, ?_, rfl, rfl⟩
  by_cases hn : (s.eng e).nCauses = 0
  · exact (if_neg (by simp [hn])).trans hn
  · exact if_pos (by simp [hn])

theorem State.cycleBegun_time (s : State) (e : Nat) (img : List Word) (vals : List (Nat × List Word)) :
    (s.cycleBegun e img vals).time = s.time := rfl

theorem State.beginCycle_does (he : e < s.prog.engines.length) : ((s.beginCycle e).eng e).cycleAt = some s.now
    ∧ ((s.beginCycle e).eng e).nCauses = 0 ∧ ((s.beginCycle e).eng e).firstScan = false
    ∧ ((s.beginCycle e).eng e).ctx.map TaskCtx.task = (if (s.eng e).nCauses = 0 then [0] else [7, 0])
    ∧ (s.beginCycle e).now = s.now := by
  have hn : ((s.onEng e (fun x => x.tickTo s.now)).eng e).nCauses = (s.eng e).nCauses := by
    rw [State.eng_onEng _ he]
    rfl
  obtain ⟨hc, hk, hf, hx⟩ := State.cycleBegun_does (s := s.onEng e (fun x => x.tickTo s.now)) (by rwa [State.onEng_count])
    ((s.onEng e (fun x => x.tickTo s.now)).latch e).1 ((s.onEng e (fun x => x.tickTo s.now)).latch e).2
  rw [State.beginCycle_eq]
  refine ⟨hc, hk, hf, ?_, State.now_of_time s (State.cycleBegun_time ..)⟩
  rw [hx, State.cycleTasks_tasks, hn]

/-- The end of a cycle at an instant, with its slack. -/
def State.cycleEnds (s : State) (e at_ k : Nat) : State :=
  ((s.onEng e (fun x => { x with cycleAt := none, slack := k })).releaseTask e at_ none).onEng e
    (fun x => { x with ended := some ⟨x.local_, x.ret, x.output, x.inst, (x.tickTo at_).clock⟩ })

theorem State.endCycle_of_running {done t0 : Nat} (hm : (s.eng e).mode = .run) (hc : (s.eng e).cycleAt = some t0)
    (hr : (((s.advance (t0 + s.period e)).runAll e).eng e).mode = .run) : s.endCycle e done =
      ((s.advance (t0 + s.period e)).runAll e).cycleEnds e (t0 + s.period e) ((s.period e - min (s.period e) (1000 * done)) * 100 / s.period e) := by
  unfold State.endCycle
  rw [hc]
  dsimp only
  rw [if_neg (not_not_intro hm), if_neg (not_not_intro hr)]
  rfl

theorem State.cycleEnds_does (he : e < s.prog.engines.length) (at_ k : Nat) :
    ((s.cycleEnds e at_ k).eng e).cycleAt = none ∧ ((s.cycleEnds e at_ k).eng e).slack = k := by
  have he' : e < (s.onEng e (fun x => { x with cycleAt := none, slack := k })).prog.engines.length := by rwa [State.onEng_count]
  obtain ⟨w, h, hrel⟩ := State.releaseTask_eng he' at_ none
  unfold State.cycleEnds
  rw [State.eng_onEng _ (by rwa [(State.releaseTask_sameBanks ..).count]), hrel, State.eng_onEng _ he]
  exact ⟨rfl, rfl⟩

end

end Sys2Proof.Machine
end

section
/-! PROOFS. The events of the cycle engines (13 R333 to R354): event tasks, saved copies, holds, restarts, the switch boundary; the statement
on modes and restarts (R349 to R362). -/
namespace Sys2Proof.Machine

section
variable {s t u : State} {e n : Nat}

/-! ### Engines by number -/

theorem State.eng_eq_reset (h : s.prog.engines.length ≤ e) : s.eng e = CycEng.reset := getD_of_length_le h

theorem State.eng_lt_of_mode (h : (s.eng e).mode ≠ .idle) : e < s.prog.engines.length := by
  refine Decidable.byContradiction fun hn => ?_
  rw [State.eng_eq_reset (Nat.not_lt.mp hn)] at h
  exact h rfl

theorem State.eng_lt_of_choice (h : (s.eng e).choice = true) : e < s.prog.engines.length := by
  refine Decidable.byContradiction fun hn => ?_
  rw [State.eng_eq_reset (Nat.not_lt.mp hn)] at h
  exact absurd h (by decide)

theorem modAt_self {α : Type} {l : List α} {i : Nat} {f : α → α} (h : ∀ a, l[i]? = some a → f a = a) : modAt l i f = l := by
  refine List.ext_getElem? fun j => ?_
  rw [modAt_getElem?]
  split
  · next hj =>
    subst hj
    cases hl : l[j]? with
    | none => rfl
    | some a => exact congrArg some (h a hl)
  · rfl

theorem State.onEng_self {f : CycEng → CycEng} (h : f (s.eng e) = s.eng e) : s.onEng e f = s := by
  have hl : modAt s.prog.engines e f = s.prog.engines := by
    refine modAt_self fun a ha => ?_
    have heng : s.eng e = a := by rw [State.eng, List.getD_eq_getElem?_getD, ha, Option.getD_some]
    rwa [heng] at h
  unfold State.onEng State.onProg
  dsimp only
  rw [hl]

theorem modAt_modAt {α : Type} (l : List α) (i : Nat) (f g : α → α) : modAt (modAt l i f) i g = modAt l i (g ∘ f) := by
  refine List.ext_getElem? fun j => ?_
  rw [modAt_getElem?, modAt_getElem?, modAt_getElem?]
  split
  · rw [Option.map_map]
  · rfl

theorem State.onEng_onEng (f g : CycEng → CycEng) : (s.onEng e f).onEng e g = s.onEng e (g ∘ f) := by
  unfold State.onEng State.onProg
  dsimp only
  rw [modAt_modAt]

/-! ### Event tasks (R346) -/

theorem State.runAll_of_frozen (h : (s.eng e).mode ≠ .run) : s.runAll e = s := if_neg h

theorem State.runTasks_of_idle (h : (s.eng e).ctx = []) (k : Nat) : s.runTasks e k = s := by
  cases k with
  | zero => rfl
  | succ k =>
    unfold State.runTasks
    rw [h]

theorem State.runAll_of_idle (h : (s.eng e).ctx = []) : s.runAll e = s := by
  unfold State.runAll
  rw [State.runTasks_of_idle h]
  exact ite_self _

/-- The event tasks under way. -/
def CycEng.eventTasks (x : CycEng) : List TaskCtx := x.ctx.takeWhile (fun c => decide (1 ≤ c.task ∧ c.task ≤ 4))

theorem CycEng.eventTasks_append (x : CycEng) : x.eventTasks ++ x.ctx.drop x.eventTasks.length = x.ctx :=
  List.prefix_iff_eq_append.mp (List.takeWhile_prefix _)

/-- Where no event task can go on, they stand as they were. -/
theorem State.runEvents_of_still (h : (s.eng e).mode ≠ .run ∨ (s.eng e).ctx = []) : s.runEvents e = s := by
  have hback : (s.onEng e (fun x => { x with ctx := (s.eng e).eventTasks })).onEng e
      (fun x => { x with ctx := x.ctx ++ (s.eng e).ctx.drop (s.eng e).eventTasks.length }) = s := by
    rw [State.onEng_onEng]
    refine State.onEng_self ?_
    have hctx := (s.eng e).eventTasks_append
    simp only [Function.comp_apply, hctx]
  have hrun : (s.onEng e (fun x => { x with ctx := (s.eng e).eventTasks })).runAll e = s.onEng e (fun x => { x with ctx := (s.eng e).eventTasks }) := by
    by_cases he : e < s.prog.engines.length
    · have heng : (s.onEng e (fun x => { x with ctx := (s.eng e).eventTasks })).eng e = { s.eng e with ctx := (s.eng e).eventTasks } :=
        State.eng_onEng _ he
      obtain h | h := h
      · exact State.runAll_of_frozen (by rw [heng]; exact h)
      · refine State.runAll_of_idle ?_
        rw [heng, CycEng.eventTasks, h]
        rfl
    · refine State.runAll_of_frozen ?_
      rw [State.eng_eq_reset (by rw [State.onEng_count]; omega)]
      exact nofun
  unfold State.runEvents
  dsimp only
  exact (congrArg (fun v : State => v.onEng e _) hrun).trans hback

section
variable {s t : State} {e : Fin 8} {n : Fin 4} {v : EvState} {now : Nat} (ht : s.advance (atOrAfter s.now 250000) = t) (hnow : t.now = now)
  (hv : (t.eng e.val).events[n.val]? = some v)
include ht hv hnow

/-- A trigger with no release of its task due by then. -/
theorem execEventTaskTrigger_of_quiet (hm : (t.eng e.val).mode = .run) (hq : ∀ r, v.release = some r → now < r) :
    execEventTaskTrigger e n s = .next (
      if (t.eng e.val).startFrom ≤ now ∧ v.release = none then t.startEvent e.val n.val
      else if v.waiting then t.onEng e.val (fun y => { y with lostTrig := y.lostTrig + 1 })
      else t.onEng e.val (fun y => { y with events := modAt y.events n.val (fun z => { z with waiting := true }) })) := by
  rw [execEventTaskTrigger, ht, hv, Option.bind_some]
  rcases hr : v.release with _ | r
  · dsimp only
    rw [hm, hv, hnow]
    simp only [hr]
  · have hno : ¬ r ≤ now := Nat.not_le.mpr (hq r hr)
    rw [hnow]
    dsimp only
    simp only [hno, if_false, hnow, hm, hv, hr, decide_false, Bool.false_eq_true, and_false, reduceCtorEq]

theorem execEventTaskTrigger_of_hold (hm : (t.eng e.val).mode = .hold) (hrel : ∀ r, v.release = some r → r ≤ now → t.eventRelease e.val n.val = t) :
    execEventTaskTrigger e n s = .next (t.onEng e.val (fun y => { y with lostTrig := y.lostTrig + 1 })) := by
  rw [execEventTaskTrigger, ht, hv, Option.bind_some]
  rcases hr : v.release with _ | r
  · dsimp only
    rw [hm, hv]
  · rw [hnow]
    dsimp only
    by_cases hle : r ≤ now
    · simp only [if_pos hle, hrel r hr hle, hm, hv]
    · simp only [if_neg hle, hm, hv]
end

/-- Nothing of a frozen engine is released (R350). -/
theorem State.eventRelease_of_hold {v : EvState} {r : Nat} (hv : (s.eng e).events[n]? = some v) (hr : v.release = some r)
    (hm : (s.eng e).mode = .hold) (hle : r ≤ s.now) : s.eventRelease e n = s := by
  have hfrozen : (s.eng e).mode ≠ .run := by
    rw [hm]
    exact nofun
  unfold State.eventRelease
  rw [hv]
  dsimp only
  rw [hr]
  dsimp only
  rw [State.advance_of_le hle, State.runEvents_of_still (.inl hfrozen), if_pos hfrozen]

theorem State.advance_now_le (s : State) (n : Nat) : (s.advance n).now ≤ max s.now n := by
  unfold State.advance
  split
  · refine Nat.le_trans ?_ (Nat.le_max_right ..)
    simp only [State.now, BitVec.toNat_ushiftRight, BitVec.toNat_ofNat, Nat.shiftRight_eq_div_pow]
    exact Nat.div_le_of_le_mul (Nat.le_trans (Nat.mod_le _ _) (Nat.le_of_eq (Nat.mul_comm ..)))
  · exact Nat.le_max_left ..

/-- An event task that starts, with its input image and its interval. -/
def State.eventBegun (s : State) (e n now interval : Nat) : State :=
  s.draw.onEng e (fun x => { x with
    ctx := s.taskAt e (n + 1) now (s.eng e).clock (s.latch e).1 (s.eng e).nCauses (s.eng e).causes :: x.ctx
    events := modAt x.events n (fun y => { y with last := some now, waiting := false, release := some (now + interval) }) })

/-- An event task's minimum interval in ns. -/
def State.eventInterval (s : State) (e n : Nat) : Nat := match s.image with
  | some g => ((g.events e)[n]?.map (fun v => 250000 * v.interval)).getD 0
  | none => 0

theorem State.startEvent_eq (s : State) (e n : Nat) : s.startEvent e n =
    let t := s.runEvents e
    let u := if (t.eng e).mode = .run then (t.runTasks e (min (t.fuelOf e) (Sys2Proof.Config.taskProgress s.free))).draw else t
    if (u.eng e).mode ≠ .run then u.onEng e (fun x => { x with lostTrig := x.lostTrig + 1 })
    else (u.onEng e (fun x => x.tickTo s.now)).eventBegun e n s.now (s.eventInterval e n) := rfl

theorem State.startEvent_of_idle (hm : (s.eng e).mode = .run) (hx : (s.eng e).ctx = []) :
    s.startEvent e n = (s.draw.onEng e (fun x => x.tickTo s.now)).eventBegun e n s.now (s.eventInterval e n) := by
  have hd : (s.draw.eng e).mode = .run := hm
  rw [State.startEvent_eq, State.runEvents_of_still (.inr hx)]
  dsimp only
  rw [if_pos hm, State.runTasks_of_idle hx, if_neg (not_not_intro hd)]

theorem State.eventBegun_eng (he : e < s.prog.engines.length) (now interval : Nat) : (s.eventBegun e n now interval).eng e = { s.eng e with
    ctx := s.taskAt e (n + 1) now (s.eng e).clock (s.latch e).1 (s.eng e).nCauses (s.eng e).causes :: (s.eng e).ctx
    events := modAt (s.eng e).events n (fun y => { y with last := some now, waiting := false, release := some (now + interval) }) } :=
  State.eng_onEng (s := s.draw) _ he

theorem State.startEvent_does {v : EvState} (hm : (s.eng e).mode = .run) (hx : (s.eng e).ctx = []) (hv : (s.eng e).events[n]? = some v) :
    ((s.startEvent e n).eng e).ctx.map TaskCtx.task = [n + 1] ∧ ((s.startEvent e n).eng e).lostTrig = (s.eng e).lostTrig
      ∧ ((s.startEvent e n).eng e).events[n]?.bind EvState.last = some s.now ∧ (s.startEvent e n).time = s.time := by
  have he : e < s.draw.prog.engines.length := State.eng_lt_of_mode (s := s) (by rw [hm]; decide)
  have hx' : (s.draw.onEng e (fun x => x.tickTo s.now)).eng e = (s.eng e).tickTo s.now := State.eng_onEng (s := s.draw) _ he
  have hctx : ((s.eng e).tickTo s.now).ctx = [] := hx
  have hev : ((s.eng e).tickTo s.now).events[n]? = some v := hv
  rw [State.startEvent_of_idle hm hx]
  refine ⟨?_, ?_, ?_, rfl⟩
  · rw [State.eventBegun_eng (by rwa [State.onEng_count]), hx', hctx]
    rfl
  · rw [State.eventBegun_eng (by rwa [State.onEng_count]), hx']
    rfl
  · rw [State.eventBegun_eng (by rwa [State.onEng_count]), hx', modAt_getElem?, if_pos rfl, hev]
    rfl

/-- The release of an event task without a trigger that waits. -/
def State.eventReleased (s : State) (e n : Nat) : State :=
  (s.releaseTask e s.now (some (n + 1))).onEng e (fun y => { y with events := modAt y.events n (fun z => { z with release := none }) })

theorem execEventTaskRelease_of_idle {e : Fin 8} {n : Fin 4} {v : EvState} {r : Nat} (hm : (s.eng e.val).mode = .run)
    (hv : (s.eng e.val).events[n.val]? = some v) (hr : v.release = some r) (hw : v.waiting = false) (hx : (s.eng e.val).ctx = []) :
    execEventTaskRelease e n s = .next ((s.advance r).eventReleased e.val n.val) := by
  unfold execEventTaskRelease State.eventRelease
  rw [hv]
  dsimp only
  rw [hr]
  dsimp only
  rw [State.runEvents_of_still (.inr (by rw [State.advance_eng, hx])), State.advance_eng, if_neg (not_not_intro hm), hw,
    if_neg Bool.false_ne_true]
  rfl

theorem State.eventReleased_events (he : e < s.prog.engines.length) : ((s.eventReleased e n).eng e).events[n]? =
    (s.eng e).events[n]?.map (fun z => { z with release := none }) := by
  obtain ⟨w, h, hrel⟩ := State.releaseTask_eng he s.now (some (n + 1))
  unfold State.eventReleased
  rw [State.eng_onEng _ (by rwa [(State.releaseTask_sameBanks ..).count]), hrel, modAt_getElem?, if_pos rfl]

section
variable {e : Fin 8} {n : Fin 4} {v : EvState}

/-- The grid instant of a trigger. -/
theorem State.atGrid (s : State) : ∃ t, s.advance (atOrAfter s.now 250000) = t ∧ t.prog = s.prog ∧ t.now ≤ s.now + 250000
    ∧ (s.now < 2 ^ 63 → s.now ≤ t.now) := by
  have hgrid := atOrAfter_lt (t := s.now) (p := 250000) (by decide)
  refine ⟨_, rfl, State.advance_prog .., ?_, fun hn => ?_⟩
  · exact Nat.le_trans (s.advance_now_le _) (by omega)
  · rw [State.advance_now (by omega)]
    exact Nat.le_max_left ..

theorem State.eng_of_prog (h : t.prog = s.prog) (e : Nat) : t.eng e = s.eng e := by rw [State.eng, State.eng, h]

theorem eventTaskTrigger_of_hold (hm : (s.eng e.val).mode = .hold) (hv : (s.eng e.val).events[n.val]? = some v) (hsz : s.sized) :
    Does (.eventTaskTrigger e n) s fun t => (t.eng e.val).lostTrig = (s.eng e.val).lostTrig + 1 ∧ (t.eng e.val).ctx = (s.eng e.val).ctx := by
  obtain ⟨t, ht, hp, -, -⟩ := s.atGrid
  rw [← State.eng_of_prog hp e.val] at hm hv ⊢
  refine ⟨_, execEventTaskTrigger_of_hold ht rfl hv hm (fun r hr hle => State.eventRelease_of_hold hv hr hm hle), ?_⟩
  dsimp only
  rw [State.eng_onEng _ (by rw [hp]; exact hsz.eng_lt e)]
  exact ⟨rfl, rfl⟩

section
variable {r : Nat} (hm : (s.eng e.val).mode = .run) (hv : (s.eng e.val).events[n.val]? = some v) (hr : v.release = some r)
  (hlt : s.now + 250000 < r)
include hm hv hr hlt

/-- Within the minimum interval a trigger waits, or is lost where one waits. -/
theorem execEventTaskTrigger_of_interval : ∃ t : State, t.prog = s.prog ∧ execEventTaskTrigger e n s = .next (
    if v.waiting then t.onEng e.val (fun y => { y with lostTrig := y.lostTrig + 1 })
    else t.onEng e.val (fun y => { y with events := modAt y.events n.val (fun z => { z with waiting := true }) })) := by
  obtain ⟨t, ht, hp, hnow, -⟩ := s.atGrid
  rw [← State.eng_of_prog hp e.val] at hm hv
  refine ⟨t, hp, (execEventTaskTrigger_of_quiet ht rfl hv hm (fun r' h => ?_)).trans (congrArg Host.Outcome.next (if_neg (fun h => ?_)))⟩
  · rw [← Option.some.inj (hr.symm.trans h)]
    exact Nat.lt_of_le_of_lt hnow hlt
  · rw [hr] at h
    cases h.2

theorem eventTaskTrigger_waits (hw : v.waiting = false) (hsz : s.sized) : Does (.eventTaskTrigger e n) s fun t =>
    (t.eng e.val).events[n.val]? = some { v with waiting := true } ∧ (t.eng e.val).lostTrig = (s.eng e.val).lostTrig := by
  obtain ⟨t, hp, ht⟩ := execEventTaskTrigger_of_interval hm hv hr hlt
  refine ⟨_, ht, ?_⟩
  dsimp only
  rw [hw, if_neg Bool.false_ne_true, State.eng_onEng _ (by rw [hp]; exact hsz.eng_lt e), State.eng_of_prog hp, modAt_getElem?, if_pos rfl, hv]
  exact ⟨rfl, rfl⟩

theorem eventTaskTrigger_lost (hw : v.waiting = true) (hsz : s.sized) : Does (.eventTaskTrigger e n) s fun t =>
    (t.eng e.val).events = (s.eng e.val).events ∧ (t.eng e.val).lostTrig = (s.eng e.val).lostTrig + 1 := by
  obtain ⟨t, hp, ht⟩ := execEventTaskTrigger_of_interval hm hv hr hlt
  refine ⟨_, ht, ?_⟩
  dsimp only
  rw [if_pos hw, State.eng_onEng _ (by rw [hp]; exact hsz.eng_lt e), State.eng_of_prog hp]
  exact ⟨rfl, rfl⟩

end

theorem eventTaskTrigger_starts (hm : (s.eng e.val).mode = .run) (hv : (s.eng e.val).events[n.val]? = some v) (hr : v.release = none)
    (hs : (s.eng e.val).startFrom ≤ s.now) (hn : s.now < 2 ^ 63) (hx : (s.eng e.val).ctx = []) : Does (.eventTaskTrigger e n) s fun t =>
    (t.eng e.val).ctx.map TaskCtx.task = [n.val + 1] ∧ (t.eng e.val).lostTrig = (s.eng e.val).lostTrig
      ∧ ((t.eng e.val).events[n.val]?.bind EvState.last) = some t.now := by
  obtain ⟨t, ht, hp, -, hnow⟩ := s.atGrid
  rw [← State.eng_of_prog hp e.val] at hm hv hs hx ⊢
  obtain ⟨htask, hlost, hlast, htime⟩ := State.startEvent_does hm hx hv
  refine ⟨_, (execEventTaskTrigger_of_quiet ht rfl hv hm (fun r h => by rw [hr] at h; cases h)).trans
    (congrArg Host.Outcome.next (if_pos ⟨Nat.le_trans hs (hnow hn), hr⟩)), htask, hlost, ?_⟩
  rw [State.now_of_time _ htime]
  exact hlast

end

/-! ### Saved copies, holds and stops (R349, R352, R354) -/

theorem State.saveAll_eng {x : CycEng} {g : Gelfoel} (hx : s.prog.engines[e]? = some x) (hg : s.image = some g) (hm : x.mode ≠ .idle)
    (hb : s.nvmBarred = false) : (s.saveAll.eng e).savedM = (s.saveAll.eng e).savedW ∧ (s.saveAll.eng e).savedW =
      some ⟨g.id, eventOf s.saveAll.sysNs, s.saveAll.now, (x.tickTo s.saveAll.now).atEnd.ret, (x.tickTo s.saveAll.now).atEnd.inst,
        (x.tickTo s.saveAll.now).atEnd.clock⟩ := by
  have heng : s.eng e = x := by rw [State.eng, List.getD_eq_getElem?_getD, hx, Option.getD_some]
  have hcopy : s.savedCopy e = some ⟨g.id, eventOf s.sysNs, s.now, (x.tickTo s.now).atEnd.ret, (x.tickTo s.now).atEnd.inst,
      (x.tickTo s.now).atEnd.clock⟩ := by
    unfold State.savedCopy
    rw [heng, hg]
    exact if_neg hm
  have hsaved : s.saveAll.eng e = { x with savedW := s.savedCopy e, savedM := s.savedCopy e } := by
    rw [State.eng, List.getD_eq_getElem?_getD]
    unfold State.saveAll State.onProg
    dsimp only
    rw [mapIdxL_getElem?, hx, hcopy, hb]
    rfl
  rw [hsaved, hcopy]
  exact ⟨rfl, rfl⟩

theorem State.stopEng_eng (he : e < s.prog.engines.length) : (s.stopEng e).eng e = (s.eng e).stopped s.now :=
  ((State.stopOuts_released _ e).eng e).trans (State.eng_onEng _ he)

theorem State.stopEng_shared (s : State) (e : Nat) : (s.stopEng e).prog.shared = s.prog.shared := (State.stopOuts_released _ e).shared

theorem execHoldExpired_of_hold {e : Fin 8} (h : (s.eng e.val).mode = .hold) : execHoldExpired e s = .next
    (((s.advance (atOrAfter ((s.eng e.val).holdFrom + 60000000000 * Fld.cycCfg_HOLD_MAX s.cfg) s.baseCycle)).stopEng e.val).raise Ev.holdExpired
      [e.val]) := congrArg Host.Outcome.next (if_pos h)

/-! ### Restarts (R353 to R356) -/

section
variable {g : Gelfoel} {c : Section} (hg : s.image = some g) (hc : s.section_ e = some c) (warm : Option SavedCopy)
include hg hc

/-- A restarted engine, before its outputs take their stop values. -/
def CycEng.restarted (x : CycEng) (g : Gelfoel) (c : Section) (e now : Nat) (warm : Option SavedCopy) : CycEng := { x with
  mode := .run, local_ := g.initArea e 2, output := g.initArea e 1
  ret := match warm with | some v => v.ret | none => g.initArea e 3
  inst := match warm with | some v => v.inst | none => List.replicate c.inst freshInst
  clock := match warm with | some v => v.clock | none => 0
  clockAt := now, ovf := false, divz := false, firstScan := true, warm := warm.isSome, warmLast := warm.isSome
  restarts := satAdd x.restarts 1 255, ctx := [], cycleAt := none, sharedW := [], hostOut := [], brk := none, cmd := none, choice := false
  events := List.replicate c.events ⟨none, false, none⟩, ended := none }

theorem State.restartEng_prog : ∃ sh, ((s.onEng e (fun x => x.restarted g c e s.now warm)).onProg (fun p => { p with shared := sh })).prog.Released
    (s.restartEng e warm).prog := by
  unfold State.restartEng
  rw [hg, hc]
  exact ⟨_, State.stopValues_released _ e⟩

theorem State.restartEng_eng (he : e < s.prog.engines.length) : (s.restartEng e warm).eng e = (s.eng e).restarted g c e s.now warm := by
  obtain ⟨sh, h⟩ := State.restartEng_prog hg hc warm
  exact (h.eng e).trans (State.eng_onEng _ he)

theorem State.restartEng_forces : (s.restartEng e warm).prog.forces = s.prog.forces := by
  obtain ⟨sh, h⟩ := State.restartEng_prog hg hc warm
  exact h.forces

end

theorem State.restartEng_eng_ne {k : Nat} (hk : k ≠ e) (warm : Option SavedCopy) : (s.restartEng e warm).eng k = s.eng k := by
  rcases hg : s.image with _ | g
  · unfold State.restartEng
    rw [hg]
  · rcases hc : s.section_ e with _ | c
    · unfold State.restartEng
      rw [hg, hc]
    · obtain ⟨sh, h⟩ := State.restartEng_prog hg hc warm
      exact (h.eng k).trans (State.eng_onEng_ne _ hk)

theorem State.restartChoice_eng_ne {k : Nat} (hk : k ≠ e) : (s.restartChoice e).eng k = s.eng k := by
  unfold State.restartChoice
  split
  · rfl
  · dsimp only
    split
    · exact State.restartEng_eng_ne hk _
    · split
      · exact State.restartEng_eng_ne hk _
      · exact State.restartEng_eng_ne hk _
    · exact State.restartEng_eng_ne hk _
    · exact State.eng_onEng_ne _ hk

/-- A pass over distinct numbers in which one alone acts. -/
theorem foldl_of_one {f : State → Nat → State} (l : List Nat) (hl : l.Nodup) (he : e ∈ l) (hbefore : ∀ k ∈ l, k ≠ e → f s k = s)
    (hafter : ∀ k ∈ l, k ≠ e → f (f s e) k = f s e) : l.foldl f s = f s e := by
  induction l with
  | nil => cases he
  | cons k l ih =>
    obtain ⟨hk, hl⟩ := List.nodup_cons.mp hl
    by_cases hke : k = e
    · subst hke
      rw [List.foldl_cons]
      exact List.foldlRecOn l f (motive := fun u => u = f s k) rfl
        (fun u hu x hx => by rw [hu]; exact hafter x (List.mem_cons_of_mem _ hx) (fun h => hk (h ▸ hx)))
    · rw [List.foldl_cons, hbefore k (List.mem_cons_self ..) hke]
      exact ih hl ((List.mem_cons.mp he).resolve_left (fun h => hke h.symm)) (fun x hx => hbefore x (List.mem_cons_of_mem _ hx))
        (fun x hx => hafter x (List.mem_cons_of_mem _ hx))

/-- A pass over numbers that reaches a state of affairs at one of them, which the others keep. -/
theorem foldl_reaches {f : State → Nat → State} {P Q : State → Prop} (hP : ∀ u k, P u → P (f u k)) (he : ∀ u, P u → Q (f u e))
    (hQ : ∀ u k, P u → Q u → Q (f u k)) (l : List Nat) (hmem : e ∈ l) : ∀ s, P s → Q (l.foldl f s) := by
  have hkeep (m : List Nat) : ∀ s, P s → Q s → Q (m.foldl f s) := by
    induction m with
    | nil => exact fun s _ hs => hs
    | cons k m ih => exact fun s hp hs => ih _ (hP s k hp) (hQ s k hp hs)
  induction l with
  | nil => cases hmem
  | cons k l ih =>
    intro s hp
    obtain rfl | hl := List.mem_cons.mp hmem
    · exact hkeep l _ (hP s _ hp) (he s hp)
    · exact ih hl _ (hP s k hp)

/-- One engine's part of the restart choices. -/
def State.choiceOf (s : State) (takes : Bool) (e : Nat) : State :=
  if (s.eng e).choice && !takes then
    (if s.life.guard_ then s.onEng e (fun x => { x.stopped s.now with choice := false }) else s.restartChoice e)
  else s

theorem execCycleRestartChoice_eq (s : State) :
    execCycleRestartChoice s = .next ((List.range 8).foldl (fun u e => u.choiceOf s.takesChoice e) s) := rfl

theorem State.choiceOf_of_none (h : (s.eng e).choice = false) (b : Bool) : s.choiceOf b e = s := if_neg (by rw [h]; exact Bool.false_ne_true)

theorem State.choiceOf_of_guard (h : (s.eng e).choice = true) (hg : s.life.guard_ = true) :
    s.choiceOf false e = s.onEng e (fun x => { x.stopped s.now with choice := false }) := by
  unfold State.choiceOf
  rw [h, hg]
  rfl

theorem State.choiceOf_of_free (h : (s.eng e).choice = true) (hg : s.life.guard_ = false) : s.choiceOf false e = s.restartChoice e := by
  unfold State.choiceOf
  rw [h, hg]
  rfl

/-- In guard mode an engine's restart choice stops it, and does nothing to the others. -/
theorem State.choiceOf_guarded (hg : s.life.guard_ = true) (k : Nat) : (s.choiceOf false k).life.guard_ = true
    ∧ ((s.choiceOf false k).eng e = s.eng e ∨ k = e ∧ (s.choiceOf false k).eng e = { (s.eng e).stopped s.now with choice := false }) := by
  cases hch : (s.eng k).choice
  · rw [State.choiceOf_of_none hch]
    exact ⟨hg, .inl rfl⟩
  · rw [State.choiceOf_of_guard hch hg]
    refine ⟨hg, ?_⟩
    by_cases hk : e = k
    · subst hk
      exact .inr ⟨rfl, State.eng_onEng _ (State.eng_lt_of_choice hch)⟩
    · exact .inl (State.eng_onEng_ne _ hk)

/-! ### The switch boundary (R359 to R364) -/

theorem Prog.SameBanks.idleBank (h : s.prog.SameBanks t.prog) : t.idleBank = s.idleBank := by
  rw [State.idleBank, State.idleBank, h.banks, h.active]

theorem State.dropOuts_sameBanks (s : State) (g0 : Option Gelfoel) (g1 : Gelfoel) : s.prog.SameBanks (s.dropOuts g0 g1).prog := by
  unfold State.dropOuts
  split
  · exact .refl _
  · exact Prog.SameBanks.foldl (fun u e => (State.releaseOuts_released u ..).sameBanks) _ s

theorem State.addCause_sameBanks (s : State) (e code arg : Nat) : s.prog.SameBanks (s.addCause e code arg).prog := by
  unfold State.addCause
  split
  · exact State.ite_sameBanks (State.onEng_sameBanks ..) (.refl _)
  · exact .refl _

theorem State.symResets_sameBanks (s : State) (g0 : Option Gelfoel) (g1 : Gelfoel) : s.prog.SameBanks (s.symResets g0 g1).prog := by
  unfold State.symResets
  split
  · exact .refl _
  · refine Prog.SameBanks.foldl (fun u p => ?_) _ s
    exact State.ite_sameBanks (u.addCause_sameBanks p.2.engine 4 p.1) (.refl _)

theorem State.dropForces_sameBanks (s : State) (g0 : Option Gelfoel) (g1 : Gelfoel) : s.prog.SameBanks (s.dropForces g0 g1).prog := by
  unfold State.dropForces
  refine Prog.SameBanks.trans (q := (List.foldl _ s _).prog) (Prog.SameBanks.foldl (fun u f => ?_) _ s) ⟨rfl, rfl, rfl, rfl, rfl⟩
  exact .refl u.prog

/-- The banks after a switch. -/
def Prog.switched (p : Prog) (was : Bool) : List Bank :=
  mapIdxL (fun i (k : Bank) => if i = p.active then (if was then { k with st := 3 } else k) else { k with st := 4 }) p.banks

/-- The new image's engines, data and banks, before what the old one alone had is dropped. -/
def State.switchedTo (s : State) (b : Nat) (g1 : Gelfoel) (last : List (List Word)) : State :=
  (s.dropOuts s.image g1).onProg (fun p => { p with
    engines := mapIdxL (fun e (x : CycEng) => s.switchEng s.image g1 (b + atOrAfter 2000000 s.baseCycle) e x) s.prog.engines
    shared := s.newArea s.image g1 255 4
    hostOut := s.prog.hostOut
    ioLast := last
    ioLost := g1.io.map (fun _ => false), switchAt := none, rollback := s.image.isSome, active := 1 - p.active
    banks := p.switched s.image.isSome })

/-- The cycles under way end at the switch. -/
def State.cyclesEnded (s : State) : State := (List.range 8).foldl (fun u e => u.endCycle e 0) s

theorem State.switchOver_eq (s : State) (b : Nat) (g : Gelfoel) : ∃ last l, s.switchOver b g =
    (((s.cyclesEnded.switchedTo b g last).symResets s.cyclesEnded.image g).dropForces s.cyclesEnded.image g).raiseAt
      (nsOfEvent (s.cyclesEnded.eventAt b)) Ev.progSwitched l := by
  unfold State.switchOver State.cyclesEnded
  generalize (List.range 8).foldl (fun u e => u.endCycle e 0) s = v
  exact ⟨_, _, rfl⟩

theorem State.raiseAt_prog (s : State) (ns : Nat) (e : EvDef) (l : List Int) : (s.raiseAt ns e l).prog = s.prog := rfl

theorem State.cyclesEnded_sameBanks (s : State) : s.prog.SameBanks s.cyclesEnded.prog := Prog.SameBanks.foldl (fun u e => u.endCycle_sameBanks e 0) _ s

theorem State.switchedTo_prog (s : State) (b : Nat) (g : Gelfoel) (last : List (List Word)) : (s.switchedTo b g last).prog.switchAt = none
    ∧ (s.switchedTo b g last).prog.active = 1 - s.prog.active ∧ (s.switchedTo b g last).prog.rollback = s.image.isSome
    ∧ (s.switchedTo b g last).prog.banks = s.prog.switched s.image.isSome := by
  have hdrop := s.dropOuts_sameBanks s.image g
  unfold State.switchedTo
  generalize s.dropOuts s.image g = t at hdrop
  refine ⟨rfl, congrArg (1 - ·) hdrop.active, rfl, ?_⟩
  change Prog.switched t.prog s.image.isSome = _
  rw [Prog.switched, Prog.switched, hdrop.banks, hdrop.active]

theorem State.switchOver_prog (s : State) (b : Nat) (g : Gelfoel) : (s.switchOver b g).prog.switchAt = none
    ∧ (s.switchOver b g).prog.active = 1 - s.prog.active ∧ (s.switchOver b g).prog.rollback = s.image.isSome
    ∧ (s.switchOver b g).prog.banks = s.prog.switched s.image.isSome := by
  have hv := s.cyclesEnded_sameBanks
  obtain ⟨last, l, heq⟩ := s.switchOver_eq b g
  obtain ⟨hat, hact, hroll, hbanks⟩ := s.cyclesEnded.switchedTo_prog b g last
  have hend := ((s.cyclesEnded.switchedTo b g last).symResets_sameBanks s.cyclesEnded.image g).trans
    (State.dropForces_sameBanks _ s.cyclesEnded.image g)
  rw [heq, State.raiseAt_prog]
  generalize s.cyclesEnded.switchedTo b g last = u at *
  rw [hend.switchAt, hend.active, hend.rollback, hend.banks, hat, hact, hroll, hbanks, hv.active, hv.image, Prog.switched, Prog.switched,
    hv.banks, hv.active]
  exact ⟨rfl, rfl, rfl, rfl⟩

theorem execSwitchBoundary_of_armed {b : Nat} {g : Gelfoel} (hb : s.prog.switchAt = some b) (hg : s.idleBank.image = some g) :
    execSwitchBoundary s = .next ((s.advance b).switchOver b g) := by
  unfold execSwitchBoundary
  rw [hb]
  dsimp only
  rw [(s.advance_sameBanks b).idleBank, hg]

/-- Two banks change their places. -/
theorem Prog.switched_two {p : Prog} (ha : p.active < 2) (hl : p.banks.length = 2) (was : Bool) :
    ((p.switched was).getD (1 - p.active) ⟨0, none, none⟩).image = (p.banks.getD (1 - p.active) ⟨0, none, none⟩).image
    ∧ (p.switched was).map Bank.st = if p.active = 0 then [if was then 3 else (p.banks.getD 0 ⟨0, none, none⟩).st, 4]
      else [4, if was then 3 else (p.banks.getD 1 ⟨0, none, none⟩).st] := by
  obtain ⟨k0, k1, hk⟩ := eq_pair_of_length hl
  unfold Prog.switched
  rw [hk]
  obtain ha | ha : p.active = 0 ∨ p.active = 1 := by omega
  · rw [ha]
    cases was <;> exact ⟨rfl, rfl⟩
  · rw [ha]
    cases was <;> exact ⟨rfl, rfl⟩

/-- Settles O31: cycles and event tasks engine by engine, the boundary's commands, the restart choices and the switch. -/
theorem cycleEvents : Obligations.CycleEvents := by
  unfold Obligations.CycleEvents
  refine ⟨?_, ?_, ?_, ?_, ?_, ?_, ?_, ?_, ?_, ?_, ?_, ?_, ?_, ?_, ?_, ?_, ?_, ?_⟩
  · exact fun s h => ⟨_, congrArg Host.Outcome.next (if_neg h), rfl⟩
  · exact fun s h => ⟨s, congrArg Host.Outcome.next (if_pos h), rfl⟩
  · exact fun s n c h hn => State.acceptedDue_of_one h hn
  · exact fun s h => State.acceptedDue_of_later h
  · intro s e hsz hm hx hc hk hs hg hch
    obtain ⟨h1, h2, h3, h4, hnow⟩ := State.beginCycle_does (s := s.advance (atOrAfter s.now (s.period e.val))) (e := e.val)
      (by rw [State.advance_prog]; exact hsz.eng_lt e)
    rw [State.advance_eng] at h4
    exact ⟨_, execCycleStart_of_ready hm hx hc hk hs hg hch, h1.trans (congrArg some hnow.symm), h2, h3, h4, hnow⟩
  · intro s e done t0 hsz hm hc hr
    refine ⟨_, congrArg Host.Outcome.next (State.endCycle_of_running hm hc hr), ?_⟩
    exact State.cycleEnds_does (State.eng_lt_of_mode (by rw [hr]; decide)) _ _
  · exact fun s e n v hm hv hsz => eventTaskTrigger_of_hold hm hv hsz
  · exact fun s e n v r hm hv hr hlt hw hsz => eventTaskTrigger_waits hm hv hr hlt hw hsz
  · exact fun s e n v r hm hv hr hlt hw hsz => eventTaskTrigger_lost hm hv hr hlt hw hsz
  · exact fun s e n v hm hv hr hs hn hx hsz => eventTaskTrigger_starts hm hv hr hs hn hx
  · intro s e n v r hm hv hr hw hx hsz
    refine ⟨_, execEventTaskRelease_of_idle hm hv hr hw hx, ?_⟩
    dsimp only
    rw [State.eventReleased_events (by rw [State.advance_prog]; exact hsz.eng_lt e), State.advance_eng, hv]
    rfl
  · intro s e x g second hx hg hm hb
    have hb' : (s.advance (second * 1000000000)).nvmBarred = false := by rw [State.nvmBarred, State.advance_therm]; exact hb
    exact ⟨(s.advance (second * 1000000000)).saveAll, rfl, State.saveAll_eng (by rw [State.advance_prog, hx]) (by rw [State.advance_image, hg]) hm hb'⟩
  · exact fun s e => ⟨_, rfl, rfl⟩
  · intro s e h hsz
    refine ⟨_, execHoldExpired_of_hold h, ?_, State.raise_saw ..⟩
    exact congrArg CycEng.mode (State.stopEng_eng (s := s.advance _) (by rw [State.advance_prog]; exact hsz.eng_lt e))
  · intro s h
    refine ⟨s, (execCycleRestartChoice_eq s).trans (congrArg Host.Outcome.next ?_), rfl⟩
    exact List.foldlRecOn _ _ (motive := fun u => u = s) rfl
      (fun u hu k hk => by rw [hu]; exact State.choiceOf_of_none (h k (List.mem_range.mp hk)) _)
  · intro s e he hothers hch ht hg
    refine ⟨_, (execCycleRestartChoice_eq s).trans (congrArg Host.Outcome.next ?_), rfl⟩
    have hstep := State.choiceOf_of_free hch hg
    rw [ht]
    refine (foldl_of_one (f := fun u k => u.choiceOf false k) (List.range 8) List.nodup_range (List.mem_range.mpr he)
      (fun k hk8 hk => State.choiceOf_of_none (hothers k (List.mem_range.mp hk8) hk) _) (fun k hk8 hk => ?_)).trans hstep
    refine State.choiceOf_of_none ?_ _
    rw [hstep, State.restartChoice_eng_ne hk]
    exact hothers k (List.mem_range.mp hk8) hk
  · intro s e he hsz hch ht hg
    refine ⟨_, execCycleRestartChoice_eq s, ?_⟩
    rw [ht]
    refine foldl_reaches (e := e) (f := fun u k => u.choiceOf false k)
      (P := fun u => u.life.guard_ = true ∧ ((u.eng e).choice = true ∨ (u.eng e).mode = .stop ∧ (u.eng e).choice = false))
      (Q := fun u => (u.eng e).mode = .stop ∧ (u.eng e).choice = false) ?_ ?_ ?_ (List.range 8) (List.mem_range.mpr he) s ⟨hg, .inl hch⟩
    · intro u k ⟨hu, hst⟩
      obtain ⟨hguard, hsame | ⟨-, hstop⟩⟩ := State.choiceOf_guarded (e := e) hu k
      · exact ⟨hguard, by rw [hsame]; exact hst⟩
      · exact ⟨hguard, .inr (by rw [hstop]; exact ⟨rfl, rfl⟩)⟩
    · intro u ⟨hu, hst⟩
      obtain hch | hst := hst
      · change ((u.choiceOf false e).eng e).mode = .stop ∧ ((u.choiceOf false e).eng e).choice = false
        rw [State.choiceOf_of_guard hch hu, State.eng_onEng _ (State.eng_lt_of_choice hch)]
        exact ⟨rfl, rfl⟩
      · change ((u.choiceOf false e).eng e).mode = .stop ∧ ((u.choiceOf false e).eng e).choice = false
        rw [State.choiceOf_of_none hst.2]
        exact hst
    · intro u k ⟨hu, _⟩ hst
      obtain ⟨-, hsame | ⟨-, hstop⟩⟩ := State.choiceOf_guarded (e := e) hu k
      · rw [hsame]
        exact hst
      · rw [hstop]
        exact ⟨rfl, rfl⟩
  · intro s b g hb hg ha hl
    obtain ⟨hsw, hact, hroll, hbanks⟩ := (s.advance b).switchOver_prog b g
    rw [State.advance_prog] at hact hbanks
    rw [State.advance_image] at hroll hbanks
    obtain ⟨himg, hst⟩ := Prog.switched_two (p := s.prog) ha hl s.image.isSome
    refine ⟨_, execSwitchBoundary_of_armed hb hg, hsw, hact, ?_, hroll, by rw [hbanks]; exact hst⟩
    rw [State.image, hbanks, hact]
    exact himg.trans hg

end

end Sys2Proof.Machine
end

section
/-! PROOFS. Modes, restarts and the instances at a switch (13 R349 to R362); the operations of the program command and the program load
(13 R357 to R368, 14 R385). -/
namespace Sys2Proof.Machine

section
variable {s t u : State} {e : Nat}

/-! ### Modes and restarts (R349 to R362) -/

theorem State.raise_eng (s : State) (v : EvDef) (l : List Int) (e : Nat) : (s.raise v l).eng e = s.eng e := rfl

theorem State.runTasks_at_breakpoint {c : TaskCtx} {l : List TaskCtx} (hctx : (s.eng e).ctx = c :: l) (hb : (s.eng e).brk = some (c.task, c.pc))
    (hp : c.passed = false) (k : Nat) : s.runTasks e (k + 1) = (s.onEng e (fun x => { x with
      mode := .hold, holdFrom := s.now, ctx := { c with passed := true } :: l })).raise Ev.progHeld [e, c.task, c.pc, s.eventAt c.start] := by
  unfold State.runTasks
  rw [hctx]
  exact if_pos ⟨hb, hp⟩

theorem State.newInst_getElem? (s : State) (c0 c1 : Section) (e : Nat) {i : Nat} (hi : i < c1.inst) : (s.newInst (some c0) c1 e)[i]? = some
    (if i < c0.inst ∧ instKind c0 i = instKind c1 i ∧ instKind c0 i ≠ 0 then
      if instKind c0 i ≤ 0x42 then { (s.eng e).inst.getD i freshInst with prev := none } else (s.eng e).inst.getD i freshInst
    else freshInst) := by
  unfold State.newInst
  rw [List.getElem?_map, List.getElem?_range hi]
  rfl

theorem State.switchEng_eq (s : State) (g0 : Option Gelfoel) (gap : Nat) (x : CycEng) {g1 : Gelfoel} {c : Section}
    (hc : g1.secs.getD e none = some c) : s.switchEng g0 g1 gap e x = { x.tickTo s.now with
      mode := if x.mode = .stop then .stop else .run
      local_ := s.newArea g0 g1 e 2, ret := s.newArea g0 g1 e 3, output := s.boundOuts g0 g1 e (s.newArea g0 g1 e 1)
      inst := s.newInst (g0.bind (fun g => g.secs.getD e none)) c e, ctx := [], cycleAt := none, startFrom := gap, firstScan := true
      sharedW := [], hostOut := [], events := List.replicate c.events ⟨none, false, none⟩, ended := none } := by
  unfold State.switchEng
  rw [hc]

/-- Settles O35: a stop and a restart by what they leave of an engine, a switch by the new image's engine. -/
theorem modesAndRestarts : Obligations.ModesAndRestarts := by
  unfold Obligations.ModesAndRestarts
  refine ⟨?_, ?_, ?_, ?_, ?_, ?_, ?_, ?_, ?_⟩
  · intro s e he
    rw [State.stopEng_eng he]
    exact ⟨rfl, rfl, rfl, rfl, rfl, State.stopEng_shared ..⟩
  · intro s e k c l he hctx hb hp
    rw [State.runTasks_at_breakpoint hctx hb hp]
    have heng := State.eng_onEng (s := s) (i := e) (fun x => { x with
      mode := .hold, holdFrom := s.now, ctx := { c with passed := true } :: l }) he
    rw [← State.raise_eng _ Ev.progHeld [e, c.task, c.pc, s.eventAt c.start]] at heng
    rw [heng]
    exact ⟨rfl, rfl, rfl, State.raise_saw ..⟩
  · intro s e g c he hg hc
    rw [State.restartEng_eng hg hc none he]
    exact ⟨rfl, rfl, rfl, rfl, rfl, rfl, State.restartEng_forces hg hc none⟩
  · intro s e g c v he hg hc
    rw [State.restartEng_eng hg hc (some v) he]
    exact ⟨rfl, rfl, rfl, rfl, rfl⟩
  · intro s v g d hg
    unfold State.warmOk
    rw [hg]
    by_cases hv : v.id = g.id
    · simp [hv]
    · simp [hv]
  · intro s c
    unfold State.warmOk
    cases c <;> cases s.image <;> simp
  · exact fun s c0 c1 e i hi => State.newInst_getElem? s c0 c1 e hi
  · exact fun s c1 e => (List.map_const' ..).trans (congrArg (List.replicate · freshInst) List.length_range)
  · intro s g0 g1 gap e x c hc
    rw [State.switchEng_eq s g0 gap x hc]
    exact ⟨rfl, rfl, rfl, rfl⟩

/-! ### The operations of the program command (R359, R367, R368) -/

section
variable {q : Fin 32} {op : Nat} {d : Desc} (h : s.Turn q 0x50 (op0 op) d t)
include h

theorem State.progRow_accept (hok : t.progStatus d.cmd = none) :
    s.progRow q op = (t.acceptBoth d.cmd).1.ends q 0 (bit (t.acceptBoth d.cmd).2) [] :=
  hostRow_silent h (by rw [hok])

theorem State.progRow_refuse {st det : Nat} (hno : t.progStatus d.cmd = some (st, det)) : s.progRow q op = t.refuses q st det :=
  hostRow_refuse h (by rw [hno])

end

/-- The commands of the program command that both twins must accept, each with its operation. -/
def progOps : List ((Fin 32 → Sys2Proof.Instr) × Nat) :=
  [(Sys2Proof.Instr.programSwitch, 1), (Sys2Proof.Instr.programRollback, 2), (Sys2Proof.Instr.programRun, 3), (Sys2Proof.Instr.programStop, 4),
    (Sys2Proof.Instr.programHold, 5), (Sys2Proof.Instr.programStep, 6), (Sys2Proof.Instr.programResume, 7), (Sys2Proof.Instr.forceSet, 8),
    (Sys2Proof.Instr.forceClear, 9), (Sys2Proof.Instr.hostWrite, 11)]

theorem exec_of_progOps {c : Fin 32 → Sys2Proof.Instr} {op : Nat} (h : (c, op) ∈ progOps) (s : State) (q : Fin 32) :
    exec (c q) s = .next (s.progRow q op) := by
  have hall : ∀ p ∈ progOps, exec (p.1 q) s = .next (s.progRow q p.2) := by
    simp only [progOps, List.forall_mem_cons, List.not_mem_nil, false_implies, implies_true, and_true]
    exact ⟨rfl, rfl, rfl, rfl, rfl, rfl, rfl, rfl, rfl, rfl⟩
  exact hall (c, op) h

/-! ### Reads of symbols (R367) -/

theorem execProgramRead_of_found {q : Fin 32} {d : Desc} {l : List (Nat × Symbol)} (h : s.Turn q 0x50 (op0 10) d t) (hn : d.argByte 14 = l.length)
    (h0 : 0 < l.length) (h64 : l.length ≤ 64) (hb : d.body.length = 32 * l.length) (hf : ∀ i < l.length, t.findSym (nameAt d.body i) = l[i]?)
    (hr : sumN (l.map (fun y => 4 + 4 * (t.symValue y.2).length)) ≤ d.respLen) : execProgramRead q s = .next (t.ends q
      (sumN (l.map (fun y => 4 + 4 * (t.symValue y.2).length))) 0
      (l.flatMap (fun y => packBytes ((4, ((t.symValue y.2).length : Int)) :: (t.symValue y.2).map (fun w => (4, (w.toNat : Int))))))) := by
  have hfound : (List.range l.length).map (fun i => t.findSym (nameAt d.body i)) = l.map some := by
    refine List.ext_getElem (by simp) fun i hi _ => ?_
    have hil : i < l.length := by simpa using hi
    simp only [List.getElem_map, List.getElem_range, hf i hil, List.getElem?_eq_getElem hil]
  have hall : (List.range l.length).find? (fun i => ((l.map some).getD i none).isNone) = none := by
    refine List.find?_eq_none.mpr fun i hi => ?_
    have hil : i < l.length := List.mem_range.mp hi
    simp [List.getD_eq_getElem?_getD, List.getElem?_eq_getElem hil]
  unfold execProgramRead
  refine congrArg Host.Outcome.next (hostRow_done h ?_ (.inr hr))
  dsimp only
  rw [hn, if_neg (by omega), hfound, hall]
  dsimp only
  rw [List.map_map, List.map_map, List.flatMap_map, List.flatMap_map]
  rfl

/-! ### What an accepted operation does -/

theorem mem_maskEngines {m : Nat} : e ∈ maskEngines m ↔ e < 8 ∧ m / 2 ^ e % 2 = 1 := by
  unfold maskEngines
  rw [List.mem_filter, List.mem_range, decide_eq_true_iff]

theorem State.applyProg_switch {c : Cmd} (n : Nat) (h : byteAt c.arg 0 = 1 ∨ byteAt c.arg 0 = 2) :
    (s.applyProg c n).prog.switchAt = some (s.boundaryAfter n) := by
  unfold State.applyProg
  dsimp only
  obtain h | h := h <;> rw [h] <;> rfl

/-- Every engine of a list takes an order, and keeps it. -/
theorem foldl_order {k : CeCmd} {l : List Nat} (he : e < s.prog.engines.length) (hl : e ∈ l) :
    ((l.foldl (fun (u : State) e => u.onEng e (fun x => { x with cmd := some k })) s).eng e).cmd = some k := by
  refine foldl_reaches (f := fun (u : State) e => u.onEng e (fun x => { x with cmd := some k })) (P := fun u => e < u.prog.engines.length)
    (Q := fun u => (u.eng e).cmd = some k) ?_ ?_ ?_ l hl s he
  · exact fun u j hu => by rw [State.onEng_count]; exact hu
  · exact fun u hu => congrArg CycEng.cmd (State.eng_onEng _ hu)
  · intro u j hu hcmd
    by_cases hj : e = j
    · subst hj
      exact congrArg CycEng.cmd (State.eng_onEng _ hu)
    · exact (congrArg CycEng.cmd (State.eng_onEng_ne _ hj)).trans hcmd

theorem State.applyProg_run {c : Cmd} (n : Nat) (h : byteAt c.arg 0 = 3) (he : e < s.prog.engines.length) (h8 : e < 8)
    (hm : byteAt c.arg 1 / 2 ^ e % 2 = 1) : ((s.applyProg c n).eng e).cmd = some (.run (byteAt c.arg 2 % 2 == 1)) := by
  unfold State.applyProg
  dsimp only
  rw [h]
  exact foldl_order he (mem_maskEngines.mpr ⟨h8, hm⟩)

theorem State.applyProg_force {c : Cmd} (n : Nat) (h : byteAt c.arg 0 = 8) : (s.applyProg c n).prog.forces =
    (s.prog.forces.filter (fun f => decide (f.name ≠ nameAt c.data 0))) ++ [⟨nameAt c.data 0, wordAt c.arg 8⟩] := by
  unfold State.applyProg
  dsimp only
  rw [h]
  exact (State.reforce_released _ _).forces

theorem State.applyProg_unforce {c : Cmd} (n : Nat) (h : byteAt c.arg 0 = 9) (hall : byteAt c.arg 2 % 2 = 1) : (s.applyProg c n).prog.forces = [] := by
  unfold State.applyProg
  dsimp only
  rw [h]
  refine (State.reforce_released _ _).forces.trans (List.filter_eq_nil_iff.mpr fun f _ => ?_)
  simp [hall]

theorem le_foldl_max (f : Nat → Nat) (l : List Nat) : ∀ m, m ≤ l.foldl (fun m e => max m (f e)) m := by
  induction l with
  | nil => exact fun m => Nat.le_refl m
  | cons x l ih => exact fun m => Nat.le_trans (Nat.le_max_left ..) (ih _)

theorem State.maySwitch_iff (s : State) : s.maySwitch = true ↔ (((s.idleBank.st = 3
    ∧ ∀ x ∈ s.prog.engines, (x.mode ≠ .hold ∧ x.brk.isNone = true) ∧ x.holdDue = false) ∧ s.switchArmed = false) ∧ s.life.guard_ = false) := by
  unfold State.maySwitch
  simp only [Bool.and_eq_true, decide_eq_true_eq, List.all_eq_true, Bool.not_eq_true']

/-! ### The first failure of an operation (R359, R365) -/

section
variable {c : Cmd}

theorem State.progStatus_switch (h : byteAt c.arg 0 = 1) : s.progStatus c = if s.maySwitch then none else some (St.progState, 0) := by
  unfold State.progStatus
  dsimp only
  rw [h] <;> rfl

theorem State.progStatus_rollback (h : byteAt c.arg 0 = 2) :
    s.progStatus c = if s.maySwitch && s.prog.rollback then none else some (St.progState, 0) := by
  unfold State.progStatus
  dsimp only
  rw [h] <;> rfl

theorem State.progStatus_stop (h : byteAt c.arg 0 = 4) (h8 : e < 8) (hm : byteAt c.arg 1 / 2 ^ e % 2 = 1) (hs : (s.eng e).mode = .stop) :
    s.progStatus c = some (St.progState, 0) := by
  have hno : ¬ (maskEngines (byteAt c.arg 1)).all (fun e => decide ((s.eng e).mode = .run ∨ (s.eng e).mode = .hold)) = true := by
    intro hall
    have := List.all_eq_true.mp hall e (mem_maskEngines.mpr ⟨h8, hm⟩)
    rw [hs] at this
    exact absurd this (by decide)
  unfold State.progStatus
  dsimp only
  rw [h]
  exact if_neg hno

theorem State.progStatus_step (h : byteAt c.arg 0 = 6) (h7 : byteAt c.arg 1 ≤ 7) :
    s.progStatus c = if (s.eng (byteAt c.arg 1)).mode = .hold then none else some (St.progState, 0) := by
  unfold State.progStatus
  dsimp only
  rw [h]
  refine (if_neg (Nat.not_lt.mpr h7)).trans ?_
  simp only [decide_eq_true_eq]

theorem State.progStatus_force (h : byteAt c.arg 0 = 8) : s.progStatus c = s.forceStatus (nameAt c.data 0) (leAt c.arg 8 4) := by
  unfold State.progStatus
  dsimp only
  rw [h] <;> rfl

theorem State.forceStatus_of_unknown {name : List Byte} (h : s.findSym name = none) (v : Nat) :
    s.forceStatus name v = some (St.symbolUnknown, 0) := by
  unfold State.forceStatus
  rw [h]

theorem State.forceStatus_of_full {name : List Byte} {i : Nat} {y : Symbol} (h : s.findSym name = some (i, y)) (hf : y.forcible = true)
    (ht : y.type = 1) (hfull : 256 ≤ s.prog.forces.length) (hnew : ∀ f ∈ s.prog.forces, f.name ≠ name) (v : Nat) :
    s.forceStatus name v = some (St.forceTableFull, 0) := by
  have hany : s.prog.forces.any (fun f => decide (f.name = name)) = false := by
    simpa using hnew
  unfold State.forceStatus
  rw [h]
  dsimp only
  rw [if_neg (by simp [hf, ht]), hany]
  exact if_pos ⟨hfull, rfl⟩

end

/-! ### The program load (R357, 14 R385) -/

/-- A load queue's row does what its own checks say with the chunk whose turn it is. -/
theorem loadRow_turn {q cls op : Nat} {d : Desc} {own : State → Desc → Verdict} (h : s.LoadTurn q cls op d) : s.loadRow q cls op own = match own s d with
    | .refuse st det => s.refuses q st det
    | .refuseAs st det next => next.refuses q st det
    | .accept need aw resp next =>
      if descUsesResp d && decide (d.respLen < need) then (s.complete q 0 St.bufferShort 0 need 0).fetchAndPump q
      else next.ends q need (bit aw) resp
    | .acceptRead need len resp next =>
      if decide (d.respLen < need) then (s.complete q 0 St.bufferShort 0 need 0).fetchAndPump q
      else ((next.emit (.response q resp)).complete q 0 St.ok 0 len 0).fetchAndPump q := by
  obtain ⟨hawake, hlive, hclass, ⟨x, l, hq, rfl, hpre⟩, hop, hplain⟩ := h
  have hauth : s.authorise x.desc none = (s, none) := by
    unfold State.authorise
    simp [hplain]
  unfold State.loadRow State.runHead
  simp only [hq, hlive, hclass, hop, hpre, hawake, hauth, decide_true, Option.isNone_none, Bool.and_self, Bool.not_false, if_true]
  cases own s x.desc <;> rfl

section
variable {q cls op : Nat} {d : Desc} {own : State → Desc → Verdict} (h : s.LoadTurn q cls op d)
include h

theorem loadRow_refuse {st det : Nat} (ho : own s d = .refuse st det) : s.loadRow q cls op own = s.refuses q st det := by
  rw [loadRow_turn h, ho]

theorem loadRow_refuseAs {st det : Nat} (ho : own s d = .refuseAs st det u) : s.loadRow q cls op own = u.refuses q st det := by
  rw [loadRow_turn h, ho]

theorem loadRow_done {resp : List Byte} (ho : own s d = .accept 0 false resp u) : s.loadRow q cls op own = u.ends q 0 0 resp := by
  rw [loadRow_turn h, ho]
  dsimp only
  rw [decide_eq_false (Nat.not_lt_zero _), Bool.and_false, if_neg Bool.false_ne_true]
  rfl

end

/-- The checks of a chunk of a program (R357). -/
def State.programChunk (t : State) (d : Desc) : Verdict :=
  if t.nvmBarred then .refuse St.nvmBarred 0
  else if t.switchArmed then .refuse St.progState 0
  else match takeChunk t.idleBank.load 256 4194304 d with
    | .error b => .refuseAs St.fieldRange b (t.onIdleBank (fun k => { k with load := none, st := if k.st = 1 then 0 else k.st }))
    | .ok (l, false) => .accept 0 false [] ((t.onIdleBank (fun _ => ⟨1, none, some l⟩)).onProg (fun p => { p with rollback := false }))
    | .ok (l, true) =>
      let u := t.onProg (fun p => { p with rollback := false })
      match t.judgeImage l.bytes with
      | none => .accept 0 false [] (u.onIdleBank (fun _ => ⟨3, some (parseImage l.bytes), none⟩))
      | some (st, det, bank) => .refuseAs st det (u.onIdleBank (fun _ => ⟨bank, some (parseImage l.bytes), none⟩))

theorem execProgramLoadChunk_of_supplied (q : Fin 32) (h : s.fabric.vcoreTarget ≤ s.fabric.vcore) :
    execProgramLoadChunk q s = .next (s.loadRow q 6 0x81 State.programChunk) := congrArg Host.Outcome.next (if_neg (Nat.not_lt.mpr h))

theorem State.judgeImage_of_header {b : List Byte} (h : headerOk b s.life.blRunning = false) : s.judgeImage b = some (St.imageInvalid, 0, 6) := by
  unfold State.judgeImage
  simp [h]

theorem State.judgeImage_of_claims {b : List Byte} {x y : Nat} (h : headerOk b s.life.blRunning = true) (hc : (parseImage b).codeOk = true)
    (hxy : (parseImage b).claims s.canRows = some (x, y)) : s.judgeImage b = some (St.resourceClaimed, min x y + 65536 * max x y, 6) := by
  unfold State.judgeImage
  simp [h, hc, hxy]

/-- Settles O32: the operations by their row, their states and their effects; a chunk by its checks in order. -/
theorem programCommands : Obligations.ProgramCommands := by
  unfold Obligations.ProgramCommands
  refine ⟨?_, ?_, ?_, ?_, ?_, ?_, ?_, ?_, ?_, ?_, ?_, ?_, ?_, ?_, ?_, ?_, ?_, ?_, ?_, ?_, ?_⟩
  · intro c op hmem
    exact ⟨fun s t q d h hok => (exec_of_progOps hmem s q).trans (congrArg Host.Outcome.next (State.progRow_accept h hok)),
      fun s t q d st det h hno => (exec_of_progOps hmem s q).trans (congrArg Host.Outcome.next (State.progRow_refuse h hno))⟩
  · exact fun s t q d l h hn h0 h64 hb hf hr => execProgramRead_of_found h hn h0 h64 hb hf hr
  · exact fun s c h => State.progStatus_switch h
  · exact fun s c h => State.progStatus_rollback h
  · intro s h
    obtain ⟨⟨⟨hst, heng⟩, harm⟩, -⟩ := s.maySwitch_iff.mp h
    exact ⟨hst, harm, fun x hx => ⟨(heng x hx).1.1, Option.isNone_iff_eq_none.mp (heng x hx).1.2⟩⟩
  · exact fun s c e h h8 hm hs => State.progStatus_stop h h8 hm hs
  · exact fun s c h h7 => State.progStatus_step h h7
  · exact fun s c h hf => (State.progStatus_force h).trans (State.forceStatus_of_unknown hf _)
  · exact fun s c i y h hf hfor ht hfull hnew => (State.progStatus_force h).trans (State.forceStatus_of_full hf hfor ht hfull hnew _)
  · exact fun s a h => ⟨le_atOrAfter (Nat.lt_of_lt_of_le h (le_foldl_max ..)), atOrAfter_lt (Nat.lt_of_lt_of_le h (le_foldl_max ..))⟩
  · exact fun s c n h => State.applyProg_switch n h
  · exact fun s c n e h h8 he hm => State.applyProg_run n h he h8 hm
  · intro s c n h
    rw [State.applyProg_force n h]
    exact List.mem_append_right _ (List.mem_singleton_self _)
  · exact fun s c n h hall => State.applyProg_unforce n h hall
  · exact fun s w hfind hw => ⟨_, rfl, State.expireBoth_does hfind hw _ _⟩
  · intro s q d l h hv hb ha hc
    refine (execProgramLoadChunk_of_supplied q hv).trans (congrArg Host.Outcome.next (loadRow_done (resp := []) h ?_))
    unfold State.programChunk
    rw [hb, ha, hc]
    rfl
  · intro s q d l h hv hb ha hc hj
    refine (execProgramLoadChunk_of_supplied q hv).trans (congrArg Host.Outcome.next (loadRow_done (resp := []) h ?_))
    unfold State.programChunk
    rw [hb, ha, hc]
    dsimp only
    rw [hj]
    rfl
  · exact fun s q d h hv hb => (execProgramLoadChunk_of_supplied q hv).trans (congrArg Host.Outcome.next (loadRow_refuse h (if_pos hb)))
  · intro s q d h hv hb ha
    refine (execProgramLoadChunk_of_supplied q hv).trans (congrArg Host.Outcome.next (loadRow_refuse h ?_))
    unfold State.programChunk
    rw [hb, ha]
    rfl
  · exact fun s b h => State.judgeImage_of_header h
  · exact fun s b x y h hc hxy => State.judgeImage_of_claims h hc hxy

end

end Sys2Proof.Machine
end

section
/-! PROOFS. The queues of the host (14 R372 to R386): completions and credits, doorbells, the link, interrupts. -/
namespace Sys2Proof.Machine

section
variable {s t u : State} {q : Nat}

/-! ### One queue under a completion (R375, R379, R380) -/

theorem State.queue_eq_reset (h : s.host.queues.length ≤ q) : s.queue q = Queue.reset := getD_of_length_le h

theorem State.queue_lt_of_live (h : (s.queue q).live = true) : q < s.host.queues.length := by
  refine Decidable.byContradiction fun hn => ?_
  rw [State.queue_eq_reset (Nat.not_lt.mp hn)] at h
  exact absurd h (by decide)

/-- An interrupt, or its wait for the gap's end, touches nothing else of its queue. -/
theorem State.raiseIrq_queue (hq : q < s.host.queues.length) : ∃ a d, (s.raiseIrq q).queue q = { s.queue q with irqAfter := a, irqDue := d } := by
  unfold State.raiseIrq
  split
  · exact ⟨_, _, State.queue_setQueue _ hq⟩
  · exact ⟨_, _, State.queue_setQueue (s := s.emit _) _ hq⟩

theorem State.raiseIrq_count (s : State) (q : Nat) : (s.raiseIrq q).host.queues.length = s.host.queues.length := by
  unfold State.raiseIrq
  split
  · exact State.setQueue_count _
  · exact State.setQueue_count (s := s.emit _) _

theorem State.writeCompletion_queue (hq : q < s.host.queues.length) (c : Completion) (irq : Bool) : ∃ tl p a d,
    (s.writeCompletion q c irq).queue q = { s.queue q with cqTail := tl, cqUsed := (s.queue q).cqUsed + 1, phase := p, irqAfter := a, irqDue := d } := by
  unfold State.writeCompletion
  extract_lets x n t
  have ht : t.queue q = { x with cqTail := (x.cqTail + 1) % n, cqUsed := x.cqUsed + 1, phase := if x.cqTail + 1 = n then !x.phase else x.phase } :=
    State.queue_setQueue (s := s.emit _) _ hq
  have hlen : q < t.host.queues.length := by rwa [State.setQueue_count (s := s.emit _)]
  split
  · obtain ⟨a, d, h⟩ := State.raiseIrq_queue hlen
    exact ⟨_, _, a, d, by rw [h, ht]⟩
  · exact ⟨_, _, x.irqAfter, x.irqDue, ht⟩

theorem State.writeCompletion_count (s : State) (q : Nat) (c : Completion) (irq : Bool) :
    (s.writeCompletion q c irq).host.queues.length = s.host.queues.length := by
  unfold State.writeCompletion
  extract_lets x n t
  have ht : t.host.queues.length = s.host.queues.length := State.setQueue_count (s := s.emit _) _
  split
  · rw [State.raiseIrq_count, ht]
  · exact ht

/-- A completion that is written returns its descriptor's credit and grants for it (R380). -/
theorem State.writeWait_queue (hq : q < s.host.queues.length) (w : CqWait) : ∃ tl p a d, (s.writeWait q w).queue q = { s.queue q with
    r := if w.credit then (s.queue q).r + 1 else (s.queue q).r
    g := if w.credit then (s.queue q).g + grantOf (s.budget q) (s.queue q).g ((s.queue q).r + 1) else (s.queue q).g
    cqTail := tl, cqUsed := (s.queue q).cqUsed + 1, phase := p, irqAfter := a, irqDue := d } := by
  unfold State.writeWait
  extract_lets x r g t
  have ht : t.queue q = { x with r := r, g := if w.credit then x.g + g else x.g } := State.queue_setQueue _ hq
  obtain ⟨tl, p, a, d, h⟩ := State.writeCompletion_queue (s := t) (q := q) (by rwa [State.setQueue_count])
    { w.completion with time := eventOf s.sysNs, grant := g } w.irq
  refine ⟨tl, p, a, d, ?_⟩
  rw [h, ht]
  dsimp only [r, g]
  cases w.credit <;> rfl

theorem State.writeWait_count (s : State) (q : Nat) (w : CqWait) : (s.writeWait q w).host.queues.length = s.host.queues.length := by
  unfold State.writeWait
  rw [State.writeCompletion_count, State.setQueue_count]

theorem State.putCompletion_of_room {w : CqWait} (hw : (s.queue q).cqWait = []) (hr : (s.queue q).cqUsed < s.cqEntries q) :
    s.putCompletion q w = s.writeWait q w := by
  unfold State.putCompletion State.cqRoom
  rw [hw, decide_eq_true hr]
  rfl

theorem State.putCompletion_of_full {w : CqWait} (h : (s.queue q).cqWait ≠ [] ∨ s.cqEntries q ≤ (s.queue q).cqUsed) :
    s.putCompletion q w = s.setQueue q (fun y => { y with cqWait := y.cqWait ++ [w] }) := by
  refine if_neg fun hboth => ?_
  obtain ⟨hempty, hroom⟩ := (Bool.and_eq_true_iff).mp hboth
  obtain h | h := h
  · exact h (List.isEmpty_iff.mp hempty)
  · exact absurd (of_decide_eq_true hroom) (Nat.not_lt.mpr h)

theorem State.putCompletion_cases (s : State) (q : Nat) (w : CqWait) : ((s.queue q).cqWait = [] ∧ (s.queue q).cqUsed < s.cqEntries q
      ∧ s.putCompletion q w = s.writeWait q w)
    ∨ s.putCompletion q w = s.setQueue q (fun y => { y with cqWait := y.cqWait ++ [w] }) := by
  by_cases hw : (s.queue q).cqWait = []
  · by_cases hr : (s.queue q).cqUsed < s.cqEntries q
    · exact .inl ⟨hw, hr, State.putCompletion_of_room hw hr⟩
    · exact .inr (State.putCompletion_of_full (.inr (Nat.not_lt.mp hr)))
  · exact .inr (State.putCompletion_of_full (.inl hw))

theorem State.putCompletion_count (s : State) (q : Nat) (w : CqWait) : (s.putCompletion q w).host.queues.length = s.host.queues.length := by
  unfold State.putCompletion
  split
  · exact State.writeWait_count ..
  · exact State.setQueue_count _

/-- A queue without its descriptor at place i, as it stands when the completion is put. -/
def State.taken (s : State) (q i : Nat) : State := s.setQueue q (fun y => { y with inMod := y.inMod.eraseIdx i })

theorem State.taken_queue (hq : q < s.host.queues.length) (i : Nat) : (s.taken q i).queue q = { s.queue q with inMod := (s.queue q).inMod.eraseIdx i } :=
  State.queue_setQueue _ hq

theorem State.complete_eq {i : Nat} {h : Held} (hi : (s.queue q).inMod[i]? = some h) (status detail len fl : Nat) : ∃ w : CqWait,
    w.credit = h.credit ∧ s.complete q i status detail len fl = ((s.taken q i).putCompletion q w).setQueue q
      (fun y => { y with draining := y.draining && !(y.inMod.isEmpty && y.cqWait.isEmpty) }) := by
  unfold State.complete
  dsimp only
  rw [hi]
  exact ⟨⟨_, h.credit, !h.desc.noIrq⟩, rfl, rfl⟩

theorem State.complete_of_none {i : Nat} (hi : (s.queue q).inMod[i]? = none) (status detail len fl : Nat) : s.complete q i status detail len fl = s := by
  unfold State.complete
  dsimp only
  rw [hi]

/-- A queue's books after a completion: it waits, or it is written. -/
theorem State.complete_queue {i : Nat} {h : Held} (hq : q < s.host.queues.length) (hi : (s.queue q).inMod[i]? = some h)
    (status detail len fl : Nat) : ∃ w : CqWait, w.credit = h.credit ∧
    (((s.queue q).cqWait = [] ∧ (s.queue q).cqUsed < s.cqEntries q ∧ ∃ tl p a d dr, (s.complete q i status detail len fl).queue q = { s.queue q with
      inMod := (s.queue q).inMod.eraseIdx i, r := if h.credit then (s.queue q).r + 1 else (s.queue q).r
      g := if h.credit then (s.queue q).g + grantOf (s.budget q) (s.queue q).g ((s.queue q).r + 1) else (s.queue q).g
      cqTail := tl, cqUsed := (s.queue q).cqUsed + 1, phase := p, irqAfter := a, irqDue := d, draining := dr })
    ∨ (((s.queue q).cqWait ≠ [] ∨ s.cqEntries q ≤ (s.queue q).cqUsed) ∧ (s.complete q i status detail len fl).out = s.out
      ∧ ∃ dr, (s.complete q i status detail len fl).queue q = { s.queue q with
      inMod := (s.queue q).inMod.eraseIdx i, cqWait := (s.queue q).cqWait ++ [w], draining := dr })) := by
  obtain ⟨w, hw, heq⟩ := State.complete_eq hi status detail len fl
  have hx := State.taken_queue hq i
  have hlen : q < (s.taken q i).host.queues.length := by rwa [State.taken, State.setQueue_count]
  have hwait : ((s.taken q i).queue q).cqWait = (s.queue q).cqWait := by rw [hx]
  have hused : ((s.taken q i).queue q).cqUsed = (s.queue q).cqUsed := by rw [hx]
  have hput : q < ((s.taken q i).putCompletion q w).host.queues.length := (State.putCompletion_count (s.taken q i) q w).symm ▸ hlen
  refine ⟨w, hw, ?_⟩
  rw [heq, State.queue_setQueue _ hput]
  by_cases hroom : (s.queue q).cqWait = [] ∧ (s.queue q).cqUsed < s.cqEntries q
  · obtain ⟨tl, p, a, d, hwritten⟩ := State.writeWait_queue hlen w
    have hbudget : (s.taken q i).budget q = s.budget q := rfl
    rw [State.putCompletion_of_room (w := w) (hwait.trans hroom.1) (by rw [hused]; exact hroom.2), hwritten, hx, hw, hbudget]
    exact .inl ⟨hroom.1, hroom.2, tl, p, a, d, _, rfl⟩
  · have hfull : (s.queue q).cqWait ≠ [] ∨ s.cqEntries q ≤ (s.queue q).cqUsed := by
      by_cases hc : (s.queue q).cqWait = []
      · exact .inr (Nat.not_lt.mp fun hlt => hroom ⟨hc, hlt⟩)
      · exact .inl hc
    have hwaits := State.putCompletion_of_full (s := s.taken q i) (q := q) (w := w) (by rw [hwait, hused]; exact hfull)
    rw [hwaits, State.queue_setQueue _ hlen, hx]
    exact .inr ⟨hfull, rfl, _, rfl⟩

/-! ### Credits (R380 to R382) -/

theorem Queue.creditsOk_iff (x : Queue) : x.creditsOk = true ↔ x.r ≤ x.c ∧ x.c ≤ x.g
    ∧ x.c - x.r = (x.inMod.filter Held.credit).length + (x.cqWait.filter CqWait.credit).length := by
  unfold Queue.creditsOk
  rw [Bool.and_eq_true_iff, Bool.and_eq_true_iff, decide_eq_true_iff, decide_eq_true_iff, decide_eq_true_iff, and_assoc]

theorem Queue.fetch1_creditsOk {x : Queue} (h : x.creditsOk = true) (n : Nat) :
    (x.fetch1 n).creditsOk = true ∧ (x.fetch1 n).g = x.g ∧ (x.fetch1 n).r = x.r := by
  obtain ⟨hrc, hcg, hcount⟩ := x.creditsOk_iff.mp h
  unfold Queue.fetch1
  split
  · exact ⟨h, rfl, rfl⟩
  · next d rest hring =>
    refine ⟨(Queue.creditsOk_iff _).mpr ?_, rfl, rfl⟩
    by_cases hc : x.c < x.g
    · simp only [hc, decide_true, if_true, List.filter_append, List.length_append, List.filter_cons_of_pos, List.filter_nil, List.length_singleton]
      omega
    · simp only [hc, decide_false, Bool.false_eq_true, if_false, List.filter_append, List.length_append, List.filter_cons_of_neg,
        not_false_eq_true, List.filter_nil, List.length_nil]
      omega

/-- A list without one of its elements has one fewer of the kind, if it was of the kind. -/
theorem filter_eraseIdx_length {α : Type} {p : α → Bool} {l : List α} : ∀ {i : Nat} {a : α}, l[i]? = some a →
    (l.filter p).length = ((l.eraseIdx i).filter p).length + (p a).toNat := by
  induction l with
  | nil => exact fun h => nomatch h
  | cons x l ih =>
    rintro (_ | i) a h
    · obtain rfl : x = a := Option.some.inj h
      rw [List.eraseIdx_cons_zero, List.filter_cons]
      cases p x <;> rfl
    · have hrec := ih (i := i) h
      rw [List.eraseIdx_cons_succ, List.filter_cons, List.filter_cons]
      cases p x
      · exact hrec
      · exact (congrArg (· + 1) hrec).trans (Nat.add_right_comm ..)

theorem State.complete_creditsOk (hq : q < s.host.queues.length) (h : (s.queue q).creditsOk = true) (i status detail len fl : Nat) :
    ((s.complete q i status detail len fl).queue q).creditsOk = true := by
  rcases hi : (s.queue q).inMod[i]? with _ | held
  · rwa [State.complete_of_none hi]
  · obtain ⟨hrc, hcg, hcount⟩ := (s.queue q).creditsOk_iff.mp h
    have hone := filter_eraseIdx_length (p := Held.credit) hi
    obtain ⟨w, hw, ⟨hnone, -, tl, p, a, d, dr, heq⟩ | ⟨-, -, dr, heq⟩⟩ := State.complete_queue hq hi status detail len fl
    · rw [heq, Queue.creditsOk_iff]
      rw [hnone, List.filter_nil, List.length_nil] at hcount
      dsimp only
      rw [hnone, List.filter_nil, List.length_nil]
      cases hcredit : held.credit
      · rw [hcredit] at hone
        simp only [Bool.toNat_false, Bool.false_eq_true, if_false] at hone ⊢
        omega
      · rw [hcredit] at hone
        simp only [Bool.toNat_true, if_true] at hone ⊢
        omega
    · rw [heq, Queue.creditsOk_iff]
      dsimp only
      rw [List.filter_append, List.length_append, List.filter_cons, List.filter_nil, hw]
      cases hcredit : held.credit
      · rw [hcredit] at hone
        simp only [Bool.toNat_false, Bool.false_eq_true, if_false, List.length_nil] at hone ⊢
        omega
      · rw [hcredit] at hone
        simp only [Bool.toNat_true, if_true, List.length_singleton] at hone ⊢
        omega

theorem State.putCompletion_used (hq : q < s.host.queues.length) (h : (s.queue q).cqUsed ≤ s.cqEntries q) (w : CqWait) :
    ((s.putCompletion q w).queue q).cqUsed ≤ s.cqEntries q := by
  obtain ⟨-, hroom, heq⟩ | heq := s.putCompletion_cases q w
  · obtain ⟨tl, p, a, d, hx⟩ := State.writeWait_queue hq w
    rw [heq, hx]
    exact hroom
  · rwa [heq, State.queue_setQueue _ hq]

theorem State.fetch_creditsOk (hq : q < s.host.queues.length) (h : (s.queue q).creditsOk = true) : ((s.fetch q).queue q).creditsOk = true := by
  unfold State.fetch
  extract_lets x room
  split
  · rw [State.queue_setQueue _ hq]
    exact List.foldlRecOn _ _ (motive := fun z : Queue => z.creditsOk = true) h (fun z hz _ _ => (Queue.fetch1_creditsOk hz _).1)
  · exact h

/-- Settles O39: a completion by its two cases, written or waiting; fetching by its step. -/
theorem creditsHold : Obligations.CreditsHold := by
  unfold Obligations.CreditsHold
  refine ⟨?_, ?_, ?_, ?_, ?_, ?_, ?_, ?_⟩
  · exact fun x n h => Queue.fetch1_creditsOk h n
  · exact fun s q i st det len fl hq h => State.complete_creditsOk hq h i st det len fl
  · intro s q i st det len fl h hq hi hc hnone hroom
    obtain ⟨w, -, ⟨-, -, tl, p, a, d, dr, heq⟩ | ⟨hfull, -⟩⟩ := State.complete_queue hq hi st det len fl
    · rw [heq]
      dsimp only
      rw [hc]
      exact ⟨rfl, rfl⟩
    · exact absurd hfull (by simp [hnone, hroom])
  · intro s q i st det len fl h hq hi hc
    obtain ⟨w, -, ⟨-, -, tl, p, a, d, dr, heq⟩ | ⟨-, -, dr, heq⟩⟩ := State.complete_queue hq hi st det len fl
    · rw [heq]
      dsimp only
      rw [hc]
      exact ⟨rfl, rfl⟩
    · rw [heq]
      exact ⟨rfl, rfl⟩
  · intro s q i st det len fl h hq hi hfull
    obtain ⟨w, -, ⟨-, hroom, -⟩ | ⟨-, hout, dr, heq⟩⟩ := State.complete_queue hq hi st det len fl
    · exact absurd hroom (Nat.not_lt.mpr hfull)
    · rw [heq]
      exact ⟨rfl, rfl, hout, List.length_append⟩
  · exact fun s q w hq h => State.putCompletion_used hq h w
  · intro b g r
    unfold grantOf
    omega
  · exact fun s q hq h => State.fetch_creditsOk hq h

/-! ### Doorbells (R375) -/

theorem State.bellRange_queue (hq : q < s.host.queues.length) (v : Nat) : ((s.bellRange q v).queue q).stopped = true
    ∧ ((s.bellRange q v).queue q).cause = 1 ∧ ((s.bellRange q v).queue q).inMod = (s.queue q).inMod
    ∧ ((s.bellRange q v).queue q).cqUsed + ((s.bellRange q v).queue q).cqWait.length = (s.queue q).cqUsed + (s.queue q).cqWait.length + 1 := by
  unfold State.bellRange State.bareCompletion State.stopQueue
  generalize (⟨_, false, true⟩ : CqWait) = w
  have hlen : q < (s.putCompletion q w).host.queues.length := by rwa [State.putCompletion_count]
  have hstop : (((s.putCompletion q w).setQueue q (fun x => { x with stopped := true, cause := 1 })).raise Ev.queueStopped
      [(q : Int), ((1 : Nat) : Int)]).queue q =
      { (s.putCompletion q w).queue q with stopped := true, cause := 1 } := State.queue_setQueue _ hlen
  rw [hstop]
  refine ⟨rfl, rfl, ?_⟩
  obtain ⟨-, -, heq⟩ | heq := s.putCompletion_cases q w
  · obtain ⟨tl, p, a, d, hx⟩ := State.writeWait_queue hq w
    rw [heq, hx]
    exact ⟨rfl, Nat.add_right_comm ..⟩
  · rw [heq, State.queue_setQueue _ hq]
    exact ⟨rfl, (congrArg ((s.queue q).cqUsed + ·) List.length_append).trans (Nat.add_assoc ..).symm⟩

section
variable {x : Queue} {n v : Nat}

theorem Queue.released_of_partial (h : x.cqUsed < n) : x.released n v = (v + n - x.cqHead) % n :=
  if_neg fun hfull => Nat.ne_of_lt h hfull.2

theorem Queue.released_of_wrap (hv : v < n) (h : x.cqUsed < n) (hlt : v < x.cqHead) (hhead : x.cqHead < n) :
    x.released n v = v + n - x.cqHead := by
  rw [Queue.released_of_partial h]
  exact Nat.mod_eq_of_lt (by omega)

theorem Queue.released_of_le (hle : x.cqHead ≤ v) (hv : v < n) (h : x.cqUsed < n) : x.released n v = v - x.cqHead := by
  have hsplit : v + n - x.cqHead = v - x.cqHead + n := by omega
  rw [Queue.released_of_partial h, hsplit, Nat.add_mod_right]
  exact Nat.mod_eq_of_lt (by omega)

end

/-! ### The link and the function (R372, 19 R481) -/

/-- A queue abandoned with its link. -/
def Queue.abandoned (x : Queue) : Queue := { x with
  stopped := true, cause := 3, inMod := [], cqWait := [], ring := [], g := x.r, c := x.r, draining := false, irqDue := false }

/-- The queues that stop with the link. -/
def State.liveQueues (s : State) : List Nat := (List.range 32).filter (fun q => (s.queue q).live)

theorem State.abandonQueues_eq (s : State) : ∃ l, s.abandonQueues =
    (s.liveQueues.foldl (fun u q => u.setQueue q Queue.abandoned) s).raise Ev.hostLink l := ⟨_, rfl⟩

theorem State.abandonQueues_same (s : State) : s.abandonQueues.setup = s.setup ∧ s.abandonQueues.gate = s.gate ∧ s.abandonQueues.loop = s.loop
    ∧ s.abandonQueues.host.linkUp = s.host.linkUp := by
  obtain ⟨l, h⟩ := s.abandonQueues_eq
  rw [h]
  exact List.foldlRecOn _ _ (motive := fun u : State => u.setup = s.setup ∧ u.gate = s.gate ∧ u.loop = s.loop
    ∧ u.host.linkUp = s.host.linkUp) ⟨rfl, rfl, rfl, rfl⟩ (fun u hu _ _ => hu)

theorem State.abandonQueues_queue (h32 : q < 32) (h : (s.queue q).live = true) : (s.abandonQueues.queue q).stopped = true
    ∧ (s.abandonQueues.queue q).cause = 3 ∧ (s.abandonQueues.queue q).inMod = [] := by
  obtain ⟨l, heq⟩ := s.abandonQueues_eq
  rw [heq]
  refine foldl_reaches (e := q) (f := fun u k => u.setQueue k Queue.abandoned) (P := fun u => q < u.host.queues.length)
    (Q := fun u => (u.queue q).stopped = true ∧ (u.queue q).cause = 3 ∧ (u.queue q).inMod = []) ?_ ?_ ?_ s.liveQueues ?_ s (State.queue_lt_of_live h)
  · exact fun u k hu => by rwa [State.setQueue_count]
  · intro u hu
    rw [State.queue_setQueue _ hu]
    exact ⟨rfl, rfl, rfl⟩
  · intro u k hu hst
    by_cases hk : q = k
    · subst hk
      rw [State.queue_setQueue _ hu]
      exact ⟨rfl, rfl, rfl⟩
    · rwa [State.queue_setQueue_ne _ hk]
  · exact List.mem_filter.mpr ⟨List.mem_range.mpr h32, h⟩

/-! ### The second's check of the credits (R382) -/

/-- The check of one queue. -/
def State.creditChecked (u : State) (q : Nat) : State :=
  if (u.queue q).live && !(u.queue q).stopped && !(u.queue q).creditsOk then
    (u.setQueue q (fun y => { y with stopped := true, cause := 4 })).raise Ev.creditCount [q, (u.queue q).g, (u.queue q).c, (u.queue q).r]
  else u

theorem execCreditCheck_eq (n : Nat) (s : State) :
    execCreditCheck n s = .next ((List.range 32).foldl State.creditChecked (s.advance (n * 1000000000))) := rfl

theorem State.creditChecked_of_ok (h : (s.queue q).creditsOk = true) : s.creditChecked q = s := if_neg (by simp [h])

theorem State.creditChecked_of_stopped (h : (s.queue q).stopped = true) : s.creditChecked q = s := if_neg (by simp [h])

theorem State.creditChecked_of_bad (hl : (s.queue q).live = true) (hs : (s.queue q).stopped = false) (h : (s.queue q).creditsOk = false) :
    s.creditChecked q = (s.setQueue q (fun y => { y with stopped := true, cause := 4 })).raise Ev.creditCount
      [q, (s.queue q).g, (s.queue q).c, (s.queue q).r] := if_pos (by simp [hl, hs, h])

theorem State.creditChecked_frame (u : State) (k : Nat) : (u.creditChecked k).host.queues.length = u.host.queues.length
    ∧ (q ≠ k → (u.creditChecked k).queue q = u.queue q) ∧ u.Records (u.creditChecked k) := by
  unfold State.creditChecked
  split
  · refine ⟨State.setQueue_count (s := u) _, fun h => State.queue_setQueue_ne (s := u) _ h, ?_⟩
    have hset : u.Records (u.setQueue k (fun y => { y with stopped := true, cause := 4 })) := .of_eq rfl rfl
    exact hset.trans (State.raise_records _ _ _)
  · exact ⟨rfl, fun _ => rfl, .refl u⟩

theorem foldl_creditChecked {l : List Nat} (hmem : q ∈ l) (hq : q < s.host.queues.length) (hl : (s.queue q).live = true)
    (hs : (s.queue q).stopped = false) (h : (s.queue q).creditsOk = false) : ((l.foldl State.creditChecked s).queue q).stopped = true
    ∧ ((l.foldl State.creditChecked s).queue q).cause = 4
    ∧ (l.foldl State.creditChecked s).Saw Ev.creditCount [q, (s.queue q).g, (s.queue q).c, (s.queue q).r] := by
  have hbad (u : State) (hu : q < u.host.queues.length) (hx : u.queue q = s.queue q) : ((u.creditChecked q).queue q).stopped = true
      ∧ ((u.creditChecked q).queue q).cause = 4 ∧ (u.creditChecked q).Saw Ev.creditCount [q, (s.queue q).g, (s.queue q).c, (s.queue q).r] := by
    rw [← hx] at hl hs h ⊢
    rw [State.creditChecked_of_bad hl hs h]
    have hqueue := State.queue_setQueue (s := u) (i := q) (fun y => { y with stopped := true, cause := 4 }) hu
    exact ⟨congrArg Queue.stopped hqueue, congrArg Queue.cause hqueue, State.raise_saw ..⟩
  have hkeep (u : State) (k : Nat) (hst : (u.queue q).stopped = true ∧ (u.queue q).cause = 4
      ∧ u.Saw Ev.creditCount [q, (s.queue q).g, (s.queue q).c, (s.queue q).r]) : ((u.creditChecked k).queue q).stopped = true
      ∧ ((u.creditChecked k).queue q).cause = 4 ∧ (u.creditChecked k).Saw Ev.creditCount [q, (s.queue q).g, (s.queue q).c, (s.queue q).r] := by
    obtain ⟨-, hne, hrec⟩ := u.creditChecked_frame (q := q) k
    by_cases hk : q = k
    · subst hk
      rwa [State.creditChecked_of_stopped hst.1]
    · rw [hne hk]
      exact ⟨hst.1, hst.2.1, hst.2.2.mono hrec⟩
  refine foldl_reaches (e := q) (f := State.creditChecked) (P := fun u => q < u.host.queues.length ∧ (u.queue q = s.queue q
      ∨ ((u.queue q).stopped = true ∧ (u.queue q).cause = 4 ∧ u.Saw Ev.creditCount [q, (s.queue q).g, (s.queue q).c, (s.queue q).r])))
    (Q := fun u => (u.queue q).stopped = true ∧ (u.queue q).cause = 4 ∧ u.Saw Ev.creditCount [q, (s.queue q).g, (s.queue q).c, (s.queue q).r])
    ?_ ?_ ?_ l hmem s ⟨hq, .inl rfl⟩
  · intro u k ⟨hu, hst⟩
    obtain ⟨hlen, hne, -⟩ := u.creditChecked_frame (q := q) k
    refine ⟨by rwa [hlen], ?_⟩
    obtain hx | hst := hst
    · by_cases hk : q = k
      · subst hk
        exact .inr (hbad u hu hx)
      · exact .inl ((hne hk).trans hx)
    · exact .inr (hkeep u k hst)
  · rintro u ⟨hu, hx | hst⟩
    · exact hbad u hu hx
    · exact hkeep u q hst
  · exact fun u k _ hst => hkeep u k hst

/-! ### Interrupts (R386) -/

theorem State.raiseIrq_of_free (h : (s.queue q).irqAfter ≤ s.now) : s.raiseIrq q = (s.emit (.irq (Fld.qpCfg_VECTOR s.cfg q))).setQueue q
    (fun x => { x with irqAfter := s.now + Fld.qpCfg_IRQ_GAP s.cfg q * 1000, irqDue := false }) := if_neg (Nat.not_lt.mpr h)

/-- The state at the end of a queue's gap. -/
theorem execIrqGapEnd_of_due {q : Fin 32} (h : (s.queue q.val).irqDue = true) :
    execIrqGapEnd q s = .next ((s.advance (s.queue q.val).irqAfter).raiseIrq q.val) := congrArg Host.Outcome.next (if_pos h)

theorem State.advance_queue (s : State) (n q : Nat) : (s.advance n).queue q = s.queue q := by
  rw [State.queue, State.queue, State.advance_host]

/-! ### Streams (R383) -/

theorem execStreamFlushTimeout_of_since {q : Fin 32} {h : Held} {l : List Held} {a : Nat} (hq : (s.queue q.val).inMod = h :: l)
    (ha : h.since = some a) (ht : s.advance (a + Fld.qpLim_FLUSH s.cfg q.val * 1000000) = t) : execStreamFlushTimeout q s =
    .next (((t.complete q.val 0 St.ok 0 h.used (h.flags (t.backlog (t.qClass q.val)).next.isSome)).fetchAndPump q.val).fillAll q.val) := by
  unfold execStreamFlushTimeout
  rw [hq]
  dsimp only
  rw [ha]
  dsimp only
  rw [ht]

/-! ### The function's reset (R372, 19 R481) -/

theorem execFunctionLevelReset_of_none (h : s.setup.pending = none) :
    execFunctionLevelReset s = .next s.abandonQueues.discardStaged := by
  have hp : s.abandonQueues.discardStaged.setup.pending = none := (congrArg Setup.pending s.abandonQueues_same.1).trans h
  unfold execFunctionLevelReset
  dsimp only
  rw [hp]

theorem execFunctionLevelReset_of_some {p : Snapshot} (h : s.setup.pending = some p) : execFunctionLevelReset s = .next
    { s.abandonQueues.discardStaged with setup := { s.abandonQueues.discardStaged.setup with pending := none, cState := 6, cTag := p.tag } } := by
  have hp : s.abandonQueues.discardStaged.setup.pending = some p := (congrArg Setup.pending s.abandonQueues_same.1).trans h
  unfold execFunctionLevelReset
  dsimp only
  rw [hp]

/-- Settles O36: doorbells, the link, the function's reset, the second's check and the interrupt gap. -/
theorem hostQueueEvents : Obligations.HostQueueEvents := by
  unfold Obligations.HostQueueEvents
  refine ⟨?_, ?_, ?_, ?_, ?_, ?_, ?_, ?_, ?_, ?_, ?_, ?_, ?_, ?_, ?_, ?_, ?_⟩
  · intro s q v w l hsz h
    exact ⟨_, congrArg Host.Outcome.next (if_pos (by simpa using h)), State.queue_setQueue _ (hsz.queue_lt q)⟩
  · intro s q v w hsz h
    exact ⟨_, congrArg Host.Outcome.next (if_pos (by simpa using h)), State.queue_setQueue _ (hsz.queue_lt q)⟩
  · intro s q v l hsz hr hs hle
    obtain ⟨h1, h2, h3, h4⟩ := State.bellRange_queue (hsz.queue_lt q) v
    exact ⟨_, congrArg Host.Outcome.next ((if_neg (by simp [hr, hs])).trans (if_pos hle)), h1, h2, h3, h4, State.raise_saw ..⟩
  · exact fun s q v l hr hs hlt => ⟨_, congrArg Host.Outcome.next ((if_neg (by simp [hr, hs])).trans (if_neg (Nat.not_le.mpr hlt))), rfl⟩
  · exact fun s q v hr hs hlt => ⟨_, congrArg Host.Outcome.next ((if_neg (by simp [hr, hs])).trans (if_neg (Nat.not_le.mpr hlt))), rfl⟩
  · exact fun x n v hv h hlt hhead => Queue.released_of_wrap hv h hlt hhead
  · exact fun x n v hle hv h => Queue.released_of_le hle hv h
  · exact fun s q hr hs hc => ⟨_, congrArg Host.Outcome.next (if_pos (by simp [Queue.live, hr, hs, hc])), rfl⟩
  · intro s q h l a hq ha
    have hhost := State.advance_host (s := s) (n := a + Fld.qpLim_FLUSH s.cfg q.val * 1000000)
    have hcfg := State.advance_cfg (s := s) (n := a + Fld.qpLim_FLUSH s.cfg q.val * 1000000)
    refine ⟨_, execStreamFlushTimeout_of_since hq ha rfl, ?_⟩
    rw [State.backlog, State.backlog, State.qClass, State.qClass, hhost, hcfg]
  · intro s q h32 hl
    obtain ⟨h1, h2, h3⟩ := State.abandonQueues_queue (s := { s with host := { s.host with linkUp := false } }) h32 hl
    obtain ⟨h4, h5, h6, h7⟩ := State.abandonQueues_same { s with host := { s.host with linkUp := false } }
    exact ⟨_, rfl, h7, h1, h2, h3, h4, h5, h6⟩
  · exact fun s => ⟨_, rfl, rfl, State.raise_saw ..⟩
  · intro s
    obtain ⟨hsetup, -⟩ := s.abandonQueues_same
    rcases hp : s.setup.pending with _ | p
    · refine ⟨_, execFunctionLevelReset_of_none hp, ?_⟩
      dsimp only
      rw [State.discardStaged, hsetup]
      exact ⟨rfl, rfl, rfl, hp, nofun⟩
    · refine ⟨_, execFunctionLevelReset_of_some hp, ?_⟩
      dsimp only
      rw [State.discardStaged, hsetup]
      exact ⟨rfl, rfl, rfl, rfl, fun _ => rfl⟩
  · intro s n hall
    refine ⟨_, execCreditCheck_eq n s, ?_⟩
    refine List.foldlRecOn _ _ (motive := fun u => u = s.advance (n * 1000000000)) rfl fun u hu q hq => ?_
    rw [hu]
    exact State.creditChecked_of_ok (by rw [State.advance_queue]; exact hall q (List.mem_range.mp hq))
  · intro s n q h32 hsz hl hs hbad
    refine ⟨_, execCreditCheck_eq n s, ?_⟩
    have hx := s.advance_queue (n * 1000000000) q
    rw [← hx] at hl hs hbad ⊢
    exact foldl_creditChecked (List.mem_range.mpr h32) (State.queue_lt_of_live hl) hl hs hbad
  · intro s q hsz hd hlt
    have hx := s.advance_queue (s.queue q.val).irqAfter q.val
    have hnow : ((s.advance (s.queue q.val).irqAfter).queue q.val).irqAfter ≤ (s.advance (s.queue q.val).irqAfter).now := by
      rw [hx, State.advance_now hlt]
      exact Nat.le_max_right ..
    refine ⟨_, execIrqGapEnd_of_due hd, ?_⟩
    dsimp only
    rw [State.raiseIrq_of_free hnow]
    refine ⟨?_, ?_⟩
    · rw [State.setQueue_out, State.emit_out, State.advance_out, State.advance_cfg]
    · rw [State.queue_setQueue _ (by rw [State.emit_host, State.advance_host]; exact hsz.queue_lt q)]
  · intro s q hd
    refine ⟨_, congrArg Host.Outcome.next (if_neg (by rw [hd]; exact Bool.false_ne_true)), State.advance_out .., State.advance_host ..⟩
  · exact fun s w hfind hw => ⟨_, rfl, State.expireBoth_does hfind hw _ _⟩

end

end Sys2Proof.Machine
end

section
/-! PROOFS. Block commands and the slack read (14 Table 14.6, R378, 02 R44); the checks of a descriptor (14 R377) and of a signed command
(14 R387); a stream's backlog (14 R384). -/
namespace Sys2Proof.Machine

section
variable {s t u : State} {q : Fin 32} {d : Desc}

/-! ### Block commands and the slack read -/

theorem blockReadOp_of_found {b : Nat × List Byte} (h1 : 1 ≤ d.argByte 0) (h3 : d.argByte 0 ≤ 3) (hc : d.argByte 1 ≤ 1)
    (hb : (if d.argByte 1 = 0 then s.setup.blocks else s.setup.blocksAct).find? (fun b => decide (b.1 = d.argByte 0)) = some b) :
    blockReadOp s d = .accept b.2.length false b.2 s := by
  unfold blockReadOp
  dsimp only
  rw [if_neg (by omega), if_neg (by omega), hb]

theorem blockReadOp_of_none (h1 : 1 ≤ d.argByte 0) (h3 : d.argByte 0 ≤ 3) (hc : d.argByte 1 ≤ 1)
    (hb : (if d.argByte 1 = 0 then s.setup.blocks else s.setup.blocksAct).find? (fun b => decide (b.1 = d.argByte 0)) = none) :
    blockReadOp s d = .refuse St.noRecord 0 := by
  unfold blockReadOp
  dsimp only
  rw [if_neg (by omega), if_neg (by omega), hb]

/-- The records that a slack read answers. -/
def State.slackRecs (s : State) (d : Desc) : List SlackRec := (s.fabric.history.reverse.drop (d.argLe 0 2)).take (d.argLe 2 2)

theorem slackReadOp_of_range (h : d.argLe 0 2 ≤ 16383) (h1 : 1 ≤ d.argLe 2 2) (h2 : d.argLe 2 2 ≤ 16384) : slackReadOp s d =
    .acceptRead (64 * d.argLe 2 2) (64 * (s.slackRecs d).length) ((s.slackRecs d).flatMap SlackRec.bytes) s := by
  unfold slackReadOp
  dsimp only
  rw [if_neg (by omega), if_neg (by omega)]
  rfl

theorem slackReadOp_of_count (h : d.argLe 0 2 ≤ 16383) (hc : d.argLe 2 2 = 0 ∨ 16384 < d.argLe 2 2) :
    slackReadOp s d = .refuse St.fieldRange 34 := by
  unfold slackReadOp
  dsimp only
  rw [if_neg (by omega), if_pos hc]

/-- Settles O37: each command by its own checks. -/
theorem blockCommands : Obligations.BlockCommands := by
  unfold Obligations.BlockCommands
  refine ⟨?_, ?_, ?_, ?_, ?_, ?_, ?_⟩
  · exact fun s t q d h h1 h3 => congrArg Host.Outcome.next (hostRow_silent (aw := false) h (if_neg (by omega)))
  · exact fun s t q d h hk => congrArg Host.Outcome.next (hostRow_refuse h (if_pos hk))
  · exact fun s t q d b h h1 h3 hc hb hl => congrArg Host.Outcome.next (hostRow_done h (blockReadOp_of_found h1 h3 hc hb) (.inr hl))
  · exact fun s t q d h h1 h3 hc hb => congrArg Host.Outcome.next (hostRow_refuse h (blockReadOp_of_none h1 h3 hc hb))
  · intro s t q d h hf h1 h2 hl
    refine congrArg Host.Outcome.next ?_
    rw [hostRow_turn h, slackReadOp_of_range hf h1 h2]
    exact if_neg (by simpa using hl)
  · intro s t q d h hf h1 h2 hl
    refine congrArg Host.Outcome.next ?_
    rw [hostRow_turn h, slackReadOp_of_range hf h1 h2]
    exact if_pos (by simpa using hl)
  · exact fun s t q d h hc hf => congrArg Host.Outcome.next (hostRow_refuse h (slackReadOp_of_count hf hc))

/-! ### The checks of a descriptor (R377) -/

section
variable {cls : Nat}

theorem preCheck_of_class (h : classAccepts cls d.opcode.toNat = false) : preCheck cls true d = some (St.opcode, 0) := by
  unfold preCheck
  rw [h]
  rfl

theorem preCheck_of_badByte (h : classAccepts cls d.opcode.toNat = true) {b : Nat} (hb : descBadByte d = some b) :
    preCheck cls true d = some (St.fieldRange, b) := by
  unfold preCheck
  rw [h, hb]
  rfl

theorem descBadByte_of_cmdId (h : d.cmdId = 0xFFFF) : descBadByte d = some 0 := by
  unfold descBadByte
  dsimp only
  rw [if_pos h]
  rfl

/-- An unused argument byte that is not 0 is a failing field. -/
theorem descBadByte_of_arg {i : Nat} (hi : i < 24) (hu : argUsed d.opcode.toNat (d.argByte 0) i = false) (hv : d.argByte i ≠ 0) :
    ∃ b, descBadByte d = some b := by
  have hmem : 32 + i ∈ ((List.range 24).filter (fun i => !argUsed d.opcode.toNat (d.argByte 0) i && decide (d.argByte i ≠ 0))).map
      (fun i => 32 + i) := List.mem_map_of_mem (List.mem_filter.mpr ⟨List.mem_range.mpr hi, by simp [hu, hv]⟩)
  refine Option.isSome_iff_exists.mp (List.isSome_head?.mpr (List.ne_nil_of_mem (a := 32 + i) ?_))
  exact List.mem_append_left _ (List.mem_append_right _ hmem)

/-- Where no field fails, each one is in its range. -/
theorem descBadByte_none (h : descBadByte d = none) : d.cmdId ≠ 0xFFFF ∧ d.reserved = none ∧ d.flags.toNat < 4
    ∧ ∀ i < 24, argUsed d.opcode.toNat (d.argByte 0) i = false → d.argByte i = 0 := by
  refine ⟨fun hid => ?_, ?_, ?_, fun i hi hu => ?_⟩
  · rw [descBadByte_of_cmdId hid] at h
    cases h
  · unfold descBadByte at h
    simp only [List.head?_eq_none_iff, List.append_eq_nil_iff] at h
    obtain ⟨⟨⟨⟨⟨⟨⟨⟨-, -⟩, hlow⟩, -⟩, -⟩, -⟩, -⟩, -⟩, hhigh⟩ := h
    rcases hr : d.reserved with _ | b
    · rfl
    · rw [hr] at hlow hhigh
      by_cases hb : b < 8
      · simp [hb] at hlow
      · simp [hb] at hhigh
  · unfold descBadByte at h
    simp only [List.head?_eq_none_iff, List.append_eq_nil_iff] at h
    obtain ⟨⟨⟨⟨⟨⟨⟨⟨-, hflags⟩, -⟩, -⟩, -⟩, -⟩, -⟩, -⟩, -⟩ := h
    refine Decidable.byContradiction fun hf => ?_
    rw [if_pos (by omega)] at hflags
    cases hflags
  · refine Decidable.byContradiction fun hv => ?_
    obtain ⟨b, hb⟩ := descBadByte_of_arg hi hu hv
    rw [hb] at h
    cases h

theorem ite_some_eq_none {α : Type} {c : Prop} [Decidable c] {a : α} {x : Option α} : (if c then some a else x) = none ↔ ¬ c ∧ x = none := by
  by_cases hc : c
  · simp [hc]
  · simp [hc]

theorem preCheck_none (h : preCheck cls true d = none) : classAccepts cls d.opcode.toNat = true ∧ descBadByte d = none
    ∧ (descUsesData d = true → lengthBad d.dataLen = false ∧ d.dataAddr % 8 = 0 ∧ d.dmaOk = true)
    ∧ (descUsesResp d = true → lengthBad d.respLen = false ∧ d.respAddr % 8 = 0) := by
  cases hclass : classAccepts cls d.opcode.toNat
  · rw [preCheck_of_class hclass] at h
    cases h
  · rcases hbad : descBadByte d with _ | b
    · unfold preCheck at h
      rw [hclass, hbad] at h
      simp only [Bool.not_true, Bool.false_eq_true, if_false, ite_some_eq_none, Bool.or_eq_true, Bool.and_eq_true, decide_eq_true_eq,
        Bool.not_eq_true', not_or, not_and, Bool.not_eq_true, Bool.not_eq_false, Decidable.not_not, and_true] at h
      obtain ⟨⟨hdl, hrl⟩, ⟨hda, hra⟩, hdma⟩ := h
      exact ⟨rfl, rfl, fun hd => ⟨hdl hd, hda hd, hdma hd⟩, fun hr => ⟨hrl hr, hra hr⟩⟩
    · rw [preCheck_of_badByte hclass hbad] at h
      cases h

theorem lengthBad_eq_false {n : Nat} : lengthBad n = false ↔ 1 ≤ n ∧ n ≤ 16777216 := by
  unfold lengthBad
  rw [decide_eq_false_iff_not]
  omega

end

/-- Settles O38: each check by the first of its failures. -/
theorem descriptorChecks : Obligations.DescriptorChecks := by
  unfold Obligations.DescriptorChecks
  refine ⟨fun _ _ => rfl, fun cls d h => preCheck_of_class h, fun cls d h hid => preCheck_of_badByte h (descBadByte_of_cmdId hid), ?_, ?_, ?_⟩
  · intro cls i d h hi hu hv
    obtain ⟨b, hb⟩ := descBadByte_of_arg hi hu hv
    exact ⟨b, preCheck_of_badByte h hb⟩
  · intro cls d h
    obtain ⟨hclass, hbad, hdata, hresp⟩ := preCheck_none h
    obtain ⟨hid, hres, hflags, harg⟩ := descBadByte_none hbad
    refine ⟨hclass, hid, hres, hflags, fun hd => ?_, fun hr => ?_, harg⟩
    · obtain ⟨hlen, haddr, hdma⟩ := hdata hd
      exact ⟨(lengthBad_eq_false.mp hlen).1, (lengthBad_eq_false.mp hlen).2, haddr, hdma⟩
    · obtain ⟨hlen, haddr⟩ := hresp hr
      exact ⟨(lengthBad_eq_false.mp hlen).1, (lengthBad_eq_false.mp hlen).2, haddr⟩
  · exact fun s q st det h => State.complete_of_none (by rw [h]; rfl) ..

/-! ### The authorisation of a signed command (R387) -/

/-- The trailer names a key of the store that is active and of the role. -/
def State.keyOk (s : State) (d : Desc) (role : Option Nat) : Bool :=
  !(decide (16 ≤ byteAt d.data d.trailer) || decide ((s.host.keys.getD (byteAt d.data d.trailer) ⟨0, 0, 0, 0, 0⟩).st ≠ 1)
    || decide ((s.host.keys.getD (byteAt d.data d.trailer) ⟨0, 0, 0, 0, 0⟩).role ≠ byteAt d.data (d.trailer + 1))
    || (match role with | some r => decide (byteAt d.data (d.trailer + 1) ≠ r) | none => false))

/-- The state in which a signed command has passed: its nonce is stored for the slot. -/
def State.nonceStored (s : State) (d : Desc) : State := { s with host := { s.host with
  keys := modAt s.host.keys (byteAt d.data d.trailer) (fun k => { k with nonce := leAt d.data (d.trailer + 16) 8 }) } }

/-- How the checks of a command with a trailer end: the first failure, recorded, or the nonce stored. -/
inductive State.AuthEnd (s : State) (d : Desc) (role : Option Nat) : State × Option (Nat × Nat) → Prop
  | failed (st det : Nat) : s.AuthEnd d role (s.raise Ev.authRefused [byteAt d.data d.trailer, d.opcode.toNat, st], some (st, det))
  | passed (key : s.keyOk d role = true) (sig : d.sigOk = true) (from_ : s.sysNs ≤ nsOfEvent (leAt d.data (d.trailer + 8) 8))
      (to_ : nsOfEvent (leAt d.data (d.trailer + 8) 8) ≤ s.sysNs + 86400000000000)
      (nonce : (s.host.keys.getD (byteAt d.data d.trailer) ⟨0, 0, 0, 0, 0⟩).nonce < leAt d.data (d.trailer + 16) 8) :
      s.AuthEnd d role (s.nonceStored d, none)

theorem State.AuthEnd.ite {role : Option Nat} {c : Prop} [Decidable c] {x y : State × Option (Nat × Nat)} (hx : s.AuthEnd d role x)
    (hy : ¬ c → s.AuthEnd d role y) : s.AuthEnd d role (if c then x else y) := by
  split
  · exact hx
  · next h => exact hy h

/-- The first failing check, recorded, or the nonce stored. -/
theorem State.authorise_cases (s : State) (d : Desc) (role : Option Nat) :
    (role = none ∧ d.signed = false ∧ s.authorise d role = (s, none))
    ∨ (∃ slot : Nat, s.authorise d role = ((s.draw).raise Ev.authRefused [slot, d.opcode.toNat, St.authRequired], some (St.authRequired, 0)))
    ∨ (d.signed = true ∧ s.AuthEnd d role (s.authorise d role)) := by
  unfold State.authorise
  extract_lets tr slot key refuse notAfter nonce
  by_cases h0 : (role.isNone && !d.signed) = true
  · rw [if_pos h0]
    obtain ⟨hr, hs⟩ := (Bool.and_eq_true_iff).mp h0
    exact .inl ⟨Option.isNone_iff_eq_none.mp hr, (Bool.not_eq_true' _).mp hs, rfl⟩
  rw [if_neg h0]
  by_cases h1 : (!d.signed || decide (d.dataLen < 96)) = true
  · rw [if_pos h1]
    exact .inr (.inl ⟨_, rfl⟩)
  rw [if_neg h1]
  have hsigned : d.signed = true := by
    refine Decidable.byContradiction fun hs => ?_
    exact h1 (by simp [hs])
  refine .inr (.inr ⟨hsigned, ?_⟩)
  refine .ite (.failed ..) fun hkey => .ite (.failed ..) fun hsig => .ite (.failed ..) fun _ => .ite (.failed ..) fun hnonce => ?_
  simp only [Bool.or_eq_true, decide_eq_true_eq, not_or, Nat.not_lt, Nat.not_le] at hnonce
  obtain ⟨⟨hfrom, hto⟩, hnonce⟩ := hnonce
  refine .passed ?_ ?_ hfrom hto hnonce
  · exact (Bool.not_eq_true' _).mpr (Bool.eq_false_iff.mpr hkey)
  · refine Decidable.byContradiction fun hs => ?_
    exact hsig (by simp [hs])

theorem State.keyOk_role {r : Nat} (h : s.keyOk d (some r) = true) : byteAt d.data (d.trailer + 1) = r := by
  unfold State.keyOk at h
  refine Decidable.byContradiction fun hne => ?_
  simp [hne] at h

theorem State.authorise_of_unsigned (h : d.signed = false) (r : Nat) : ∃ slot : Nat, s.authorise d (some r) =
    ((s.draw).raise Ev.authRefused [slot, d.opcode.toNat, St.authRequired], some (St.authRequired, 0)) := by
  unfold State.authorise
  rw [h]
  exact ⟨_, rfl⟩

theorem State.authorise_of_role {r : Nat} (hs : d.signed = true) (hl : 96 ≤ d.dataLen) (hk : s.keyOk d (some r) = false) :
    (s.authorise d (some r)).2 = some (St.authRole, 0) := by
  have hno : ¬ (!d.signed || decide (d.dataLen < 96)) = true := by
    simp only [hs, Bool.not_true, Bool.false_or, decide_eq_true_eq]
    omega
  unfold State.authorise
  extract_lets tr slot key refuse notAfter nonce
  rw [if_neg (by exact Bool.false_ne_true), if_neg hno]
  exact congrArg Prod.snd (if_pos ((Bool.not_eq_false' ..).mp hk))

/-- A signed command that passes. -/
theorem State.authorise_passed {r : Nat} (h : s.authorise d (some r) = (t, none)) : d.signed = true ∧ s.keyOk d (some r) = true
    ∧ d.sigOk = true ∧ s.sysNs ≤ nsOfEvent (leAt d.data (d.trailer + 8) 8)
    ∧ nsOfEvent (leAt d.data (d.trailer + 8) 8) ≤ s.sysNs + 86400000000000
    ∧ (s.host.keys.getD (byteAt d.data d.trailer) ⟨0, 0, 0, 0, 0⟩).nonce < leAt d.data (d.trailer + 16) 8 ∧ t = s.nonceStored d := by
  obtain ⟨hr, -⟩ | ⟨slot, h'⟩ | ⟨hs, hend⟩ := s.authorise_cases d (some r)
  · cases hr
  · cases h.symm.trans h'
  · rw [h] at hend
    cases hend with
    | passed hkey hsig hfrom hto hnonce => exact ⟨hs, hkey, hsig, hfrom, hto, hnonce, rfl⟩

/-- Settles O40: the authorisation by its first failing check. -/
theorem signedCommands : Obligations.SignedCommands := by
  unfold Obligations.SignedCommands
  refine ⟨?_, ?_, ?_, ?_, ?_, ?_⟩
  · intro s d r hs
    obtain ⟨slot, h⟩ := State.authorise_of_unsigned (s := s) hs r
    rw [h]
    exact ⟨rfl, slot, State.raise_saw ..⟩
  · intro s d hs
    unfold State.authorise
    rw [hs]
    rfl
  · intro s d r k hs hl hslot hk hbad
    refine State.authorise_of_role hs hl ?_
    have hkey : s.host.keys.getD (byteAt d.data d.trailer) ⟨0, 0, 0, 0, 0⟩ = k := by rw [List.getD_eq_getElem?_getD, hk, Option.getD_some]
    unfold State.keyOk
    rw [hkey]
    obtain h | h | h := hbad
    · simp [h]
    · simp [h]
    · simp [h]
  · intro s t d r h
    obtain ⟨h1, h2, h3, h4, h5, h6, -⟩ := State.authorise_passed h
    exact ⟨h1, h3, State.keyOk_role h2, h4, h5, h6⟩
  · intro s t d r h hlt
    obtain ⟨-, -, -, -, -, -, ht⟩ := State.authorise_passed h
    rw [ht]
    exact congrArg KeySlot.nonce (modAt_getD_self _ _ _ _ hlt)
  · intro s t d role p h
    obtain ⟨-, -, h'⟩ | ⟨slot, h'⟩ | ⟨-, hend⟩ := s.authorise_cases d role
    · cases h.symm.trans h'
    · obtain ⟨rfl, hp⟩ := Prod.mk.inj (h.symm.trans h')
      obtain rfl := Option.some.inj hp
      exact ⟨rfl, fun hne => absurd rfl hne⟩
    · rw [h] at hend
      cases hend with
      | failed st det => exact ⟨rfl, fun _ => State.raise_saw ..⟩

/-! ### Backlogs (R384) -/

section
variable (b : Backlog)

theorem Backlog.trim_of_fits {b : Backlog} (h : backlogBytes b ≤ 4194304) (k : Nat) : b.trim k = b := by
  cases k with
  | zero => rfl
  | succ k =>
    unfold Backlog.trim
    split
    · rfl
    · exact if_neg (Nat.not_lt.mpr h)

theorem Backlog.trim_of_over {r : StreamRec} {rest : List StreamRec} (hr : b.recs = r :: rest) (h : 4194304 < backlogBytes b) (k : Nat) :
    b.trim (k + 1) = Backlog.trim ⟨rest, noteLost b.lost r⟩ k := by
  conv => lhs; unfold Backlog.trim
  rw [hr]
  exact if_pos h

/-- A trimmed backlog has dropped its oldest records, as far as it was over its size. -/
theorem Backlog.trim_induct {P : Nat → Backlog → Backlog → Prop} (hzero : ∀ b, P 0 b b) (hempty : ∀ k b, b.recs = [] → P (k + 1) b b)
    (hfits : ∀ k b, backlogBytes b ≤ 4194304 → P (k + 1) b b)
    (hover : ∀ (k : Nat) (b : Backlog) (r : StreamRec) (rest : List StreamRec), b.recs = r :: rest →
      P k ⟨rest, noteLost b.lost r⟩ (Backlog.trim ⟨rest, noteLost b.lost r⟩ k) → P (k + 1) b (Backlog.trim ⟨rest, noteLost b.lost r⟩ k)) :
    ∀ (k : Nat) (b : Backlog), P k b (b.trim k) := by
  intro k
  induction k with
  | zero => exact hzero
  | succ k ih =>
    intro b
    by_cases hb : backlogBytes b ≤ 4194304
    · rw [Backlog.trim_of_fits hb]
      exact hfits k b hb
    · rcases hr : b.recs with _ | ⟨r, rest⟩
      · have hsame : b.trim (k + 1) = b := by
          unfold Backlog.trim
          rw [hr]
        rw [hsame]
        exact hempty k b hr
      · rw [b.trim_of_over hr (Nat.not_le.mp hb)]
        exact hover k b r rest hr (ih _)

theorem Backlog.trim_recs (k : Nat) : ∃ n, (b.trim k).recs = b.recs.drop n ∧ n ≤ k := by
  refine Backlog.trim_induct (P := fun k b c => ∃ n, c.recs = b.recs.drop n ∧ n ≤ k) ?_ ?_ ?_ ?_ k b
  · exact fun b => ⟨0, rfl, Nat.le_refl 0⟩
  · exact fun k b _ => ⟨0, rfl, Nat.zero_le _⟩
  · exact fun k b _ => ⟨0, rfl, Nat.zero_le _⟩
  · rintro k b r rest hr ⟨n, hn, hle⟩
    exact ⟨n + 1, by rw [hn, hr]; rfl, Nat.succ_le_succ hle⟩

theorem Backlog.trim_fits : backlogBytes (b.trim b.recs.length) ≤ 4194304 ∨ (b.trim b.recs.length).recs = [] := by
  refine Backlog.trim_induct (P := fun k b c => b.recs.length ≤ k → backlogBytes c ≤ 4194304 ∨ c.recs = []) ?_ ?_ ?_ ?_ _ b (Nat.le_refl _)
  · exact fun b h => .inr (List.length_eq_zero_iff.mp (Nat.le_zero.mp h))
  · exact fun k b h _ => .inr h
  · exact fun k b h _ => .inl h
  · intro k b r rest hr ih hle
    rw [hr] at hle
    exact ih (Nat.le_of_succ_le_succ hle)

theorem noteLost_count (l : List Lost) (r : StreamRec) : sumN ((noteLost l r).map Lost.count) = sumN (l.map Lost.count) + 1 := by
  induction l with
  | nil => rfl
  | cons x l ih =>
    unfold noteLost
    split
    · simp only [List.map_cons, sumN]
      omega
    · simp only [List.map_cons, sumN, ih]
      omega

/-- Every record dropped is counted. -/
theorem Backlog.trim_count (k : Nat) : sumN ((b.trim k).lost.map Lost.count) + (b.trim k).recs.length =
    sumN (b.lost.map Lost.count) + b.recs.length := by
  refine Backlog.trim_induct (P := fun k b c => sumN (c.lost.map Lost.count) + c.recs.length = sumN (b.lost.map Lost.count) + b.recs.length)
    (fun _ => rfl) (fun _ _ _ => rfl) (fun _ _ _ => rfl) ?_ k b
  intro k b r rest hr ih
  rw [ih]
  dsimp only
  rw [noteLost_count, hr, List.length_cons]
  omega

end

/-- Settles O41: trimming by its recursion; the marker by the first kind lost. -/
theorem backlogs : Obligations.Backlogs := by
  unfold Obligations.Backlogs
  refine ⟨Backlog.trim_recs, Backlog.trim_fits, fun b h k => Backlog.trim_of_fits h k, Backlog.trim_count, fun b l m h => ?_⟩
  unfold Backlog.next Backlog.drop1
  rw [h]
  exact ⟨rfl, rfl⟩

end

end Sys2Proof.Machine
end

section
/-! PROOFS. Ethernet, PRP and plant messages (15 R389 to R394); the families of CAN FD and Modbus, each of which fails for a twin whose state
is joined without a pair configuration. -/
namespace Sys2Proof.Machine

section
variable {s t u : State} {ep : Nat}

/-! ### A frame that has arrived -/

theorem State.arrived_netAddr (s : State) (ep p : Nat) : (s.arrived ep).netAddr p = s.netAddr p := rfl

theorem State.arrived_answers (s : State) (ep p a : Nat) : (s.arrived ep).answers p a = s.answers p a := rfl

theorem State.answers_iff {a : Nat} : s.answers ep a = true ↔ s.sending = true ∧ s.netAddr ep ≠ 0 ∧ a = s.netAddr ep := by
  unfold State.answers
  rw [Bool.and_eq_true_iff, decide_eq_true_iff]

theorem EthPort.arrive_prpUp (x : EthPort) (sec : Nat) : (x.arrive sec).prpUp = x.prpUp := by
  unfold EthPort.arrive
  split <;> rfl

theorem State.arrived_port (h : ep < s.plant.eth.length) : (s.arrived ep).ethPort ep = (s.ethPort ep).arrive (s.now / 1000000000) :=
  State.ethPort_onEth _ h

/-! ### PRP (R391, R392) -/

theorem State.lanHeard_does (h : ep < s.plant.eth.length) : ((s.lanHeard ep).ethPort ep).prpUp = true
    ∧ ((s.lanHeard ep).ethPort ep).lanAt = some s.now ∧ (s.lanHeard ep).plant.nodes = s.plant.nodes
    ∧ ((s.ethPort ep).prpUp = false → (s.lanHeard ep).Saw Ev.prpLanUp [ep]) := by
  have hport := State.ethPort_onEth (s := s) (i := ep) (fun x => { x with lanAt := some s.now, prpUp := true }) h
  unfold State.lanHeard
  dsimp only
  cases hup : (s.ethPort ep).prpUp
  · exact ⟨congrArg EthPort.prpUp hport, congrArg EthPort.lanAt hport, rfl, fun _ => State.raise_saw ..⟩
  · exact ⟨congrArg EthPort.prpUp hport, congrArg EthPort.lanAt hport, rfl, nofun⟩

theorem State.lanHeard_arrived (h : ep < s.plant.eth.length) : (((s.arrived ep).lanHeard ep).ethPort ep).prpUp = true
    ∧ (((s.arrived ep).lanHeard ep).ethPort ep).lanAt = some s.now ∧ ((s.arrived ep).lanHeard ep).plant.nodes = s.plant.nodes
    ∧ ((s.ethPort ep).prpUp = false → ((s.arrived ep).lanHeard ep).Saw Ev.prpLanUp [ep]) := by
  obtain ⟨hup, hat, hnodes, hsaw⟩ := State.lanHeard_does (s := s.arrived ep) (ep := ep) (by rwa [State.arrived, State.onEth_count])
  refine ⟨hup, hat, hnodes, fun hdown => hsaw ?_⟩
  rw [State.arrived_port h, EthPort.arrive_prpUp, hdown]

theorem nodeSeen_mem {l : List (Nat × Nat)} (h : l.length < 256) (mac now : Nat) : (mac, now) ∈ nodeSeen l mac now := by
  unfold nodeSeen
  split
  · next hany =>
    obtain ⟨e, he, hmac⟩ := List.any_eq_true.mp hany
    exact List.mem_map.mpr ⟨e, he, if_pos (of_decide_eq_true hmac)⟩
  · exact List.mem_append_right _ (List.mem_singleton_self _)

theorem nodeSeen_length {l : List (Nat × Nat)} (h : l.length ≤ 256) (mac now : Nat) : (nodeSeen l mac now).length ≤ 256 := by
  unfold nodeSeen
  split
  · rwa [List.length_map]
  · split
    · next hlt =>
      rw [List.length_append]
      exact hlt
    · exact h

/-- The state in which the module's own supervision frame goes out. -/
theorem execPrpSupervisionSend_of_sending (hs : s.sending = true) (hen : Fld.netCfg_EN s.cfg 0 = true)
    (ht : s.advance (s.plant.prpSent + 100000000 * Fld.prpCfg_LIFE s.cfg) = t) :
    execPrpSupervisionSend s = .next ((t.ethAnswer 0 3 []).onPlant (fun p => { p with prpSent := t.now })) := by
  have hs' : t.sending = true := by rw [← ht, State.advance_sending, hs]
  have hen' : Fld.netCfg_EN t.cfg 0 = true := by rw [← ht, State.advance_cfg, hen]
  unfold execPrpSupervisionSend
  rw [ht]
  dsimp only
  rw [hs', hen']
  rfl

theorem State.supervised_does (t : State) : ((t.ethAnswer 0 3 []).onPlant (fun p => { p with prpSent := t.now })).out =
      Out.prp t.plant.prpSeq :: Out.eth 0 3 [] :: t.out
    ∧ ((t.ethAnswer 0 3 []).onPlant (fun p => { p with prpSent := t.now })).plant.prpSeq = t.plant.prpSeq + 1
    ∧ ((t.ethAnswer 0 3 []).onPlant (fun p => { p with prpSent := t.now })).plant.prpSent = t.now
    ∧ ((t.ethAnswer 0 3 []).onPlant (fun p => { p with prpSent := t.now })).now = t.now := ⟨rfl, rfl, rfl, rfl⟩

theorem execPrpLanDown_of_up {lan : Fin 2} {a : Nat} (ha : (s.ethPort lan).lanAt = some a) (hup : (s.ethPort lan).prpUp = true)
    (ht : s.advance (a + 300000000 * Fld.prpCfg_LIFE s.cfg) = t) : execPrpLanDown lan s =
    .next ((t.onEth lan (fun y => { y with prpUp := false })).raise Ev.prpLanDown [(lan.val : Int)]) := by
  unfold execPrpLanDown
  dsimp only
  rw [ha]
  dsimp only
  rw [if_pos hup, ht]

theorem State.lanDown_does (h : ep < t.plant.eth.length) :
    (((t.onEth ep (fun y => { y with prpUp := false })).raise Ev.prpLanDown [(ep : Int)]).ethPort ep).prpUp = false
    ∧ ((t.onEth ep (fun y => { y with prpUp := false })).raise Ev.prpLanDown [(ep : Int)]).Saw Ev.prpLanDown [ep]
    ∧ ((t.onEth ep (fun y => { y with prpUp := false })).raise Ev.prpLanDown [(ep : Int)]).now = t.now :=
  ⟨congrArg EthPort.prpUp (State.ethPort_onEth (s := t) (fun y => { y with prpUp := false }) h), State.raise_saw .., rfl⟩

theorem execPrpNodeAgedOut_of_oldest {e : Nat × Nat} (he : oldestNode s.plant.nodes = some e) (ht : s.advance (e.2 + 60000000000) = t) :
    execPrpNodeAgedOut s = .next (t.onPlant (fun p => { p with nodes := p.nodes.erase e })) := by
  unfold execPrpNodeAgedOut
  rw [he]
  dsimp only
  rw [ht]

theorem State.nodeErased_does (t : State) (e : Nat × Nat) :
    (t.onPlant (fun p => { p with nodes := p.nodes.erase e })).plant.nodes = t.plant.nodes.erase e
    ∧ (t.onPlant (fun p => { p with nodes := p.nodes.erase e })).now = t.now := ⟨rfl, rfl⟩

/-- Settles O42: each frame in the state in which it has arrived. -/
theorem ethernetCommands : Obligations.EthernetCommands := by
  unfold Obligations.EthernetCommands
  refine ⟨?_, ?_, ?_, ?_, ?_, ?_, ?_, ?_, ?_, ?_, ?_, ?_, ?_⟩
  · intro s ep a hroom hs hn ha
    exact ⟨_, congrArg Host.Outcome.next ((State.ethIn_of_room hroom _).trans (if_pos (State.answers_iff.mpr ⟨hs, hn, ha⟩))), rfl⟩
  · intro s ep a hroom ha
    exact ⟨_, congrArg Host.Outcome.next ((State.ethIn_of_room hroom _).trans (if_neg fun h => ha (State.answers_iff.mp h).2.2)), rfl⟩
  · intro s ep a i n b hroom hs hn ha hb
    exact ⟨_, congrArg Host.Outcome.next ((State.ethIn_of_room hroom _).trans ((if_neg (Nat.not_lt.mpr hb)).trans
      (if_pos (State.answers_iff.mpr ⟨hs, hn, ha⟩)))), rfl⟩
  · intro s ep hep
    unfold State.prpTrailer
    rw [if_pos hep]
    exact ⟨rfl, rfl⟩
  · intro s ep hsz hfull hd
    obtain ⟨hsec, hrx⟩ := Decidable.not_not.mp hfull
    rw [State.arrived_port (hsz.eth_lt ep)]
    unfold EthPort.arrive satAdd
    rw [if_pos hsec]
    dsimp only
    rw [if_pos hrx, if_pos (by omega)]
  · intro s ep up gig hsz
    refine ⟨_, rfl, ?_⟩
    dsimp only
    rw [State.ethPort_onEth _ (hsz.eth_lt ep)]
    exact ⟨rfl, rfl⟩
  · intro s hs hen
    refine ⟨_, execPrpSupervisionSend_of_sending hs hen rfl, ?_⟩
    obtain ⟨hout, hseq, hsent, hnow⟩ := (s.advance (s.plant.prpSent + 100000000 * Fld.prpCfg_LIFE s.cfg)).supervised_does
    rw [hout, hseq, hsent, hnow, State.advance_out, State.advance_plant]
    exact ⟨rfl, rfl, rfl⟩
  · intro s lan mac hroom hsz
    obtain ⟨hup, hat, hnodes, hsaw⟩ := State.lanHeard_arrived (s := s) (ep := lan.val) (by rw [hsz.eth]; omega)
    refine ⟨_, congrArg Host.Outcome.next (State.ethIn_of_room hroom _), hup, hat, fun h => ?_, hsaw⟩
    change (mac, s.now) ∈ nodeSeen ((s.arrived lan.val).lanHeard lan.val).plant.nodes mac s.now
    rw [hnodes]
    exact nodeSeen_mem h mac s.now
  · exact fun l mac now h => nodeSeen_length h mac now
  · intro s e he
    obtain ⟨hnodes, hnow⟩ := (s.advance (e.2 + 60000000000)).nodeErased_does e
    rw [State.advance_plant] at hnodes
    exact ⟨_, execPrpNodeAgedOut_of_oldest he rfl, hnodes, hnow⟩
  · intro s lan a hsz ha hup
    exact ⟨_, execPrpLanDown_of_up ha hup rfl, State.lanDown_does (by rw [State.advance_plant, hsz.eth]; omega)⟩
  · intro s lan hroom hsz hdown
    obtain ⟨hup, -, -, hsaw⟩ := State.lanHeard_arrived (s := s) (ep := lan.val) (by rw [hsz.eth]; omega)
    exact ⟨_, congrArg Host.Outcome.next (State.ethIn_of_room hroom _), hup, hsaw hdown⟩
  · exact fun s n hsz => ⟨_, rfl, rfl, State.ethPort_onEth (s := s.emit _) _ (hsz.eth_lt n)⟩

/-! ### Plant messages (R391, R394) -/

theorem execPlantMessage_of_room {ep : Fin 4} (hroom : s.ethRoom ep) (hn : s.netAddr ep ≠ 0) (hs : s.inService = true) (udp src : Nat)
    (rct : Option (Nat × BitVec 16)) (b : List Byte) : execPlantMessage ep udp src rct b s = .next (
      match (if ep.val ≤ 1 then rct else none) with
      | none => (s.arrived ep).plantMessage ep udp src b
      | some (mac, seq) => if s.prpSeen mac seq.toNat then (s.arrived ep).lanHeard ep
        else (((s.arrived ep).lanHeard ep).prpNote mac seq.toNat).plantMessage ep udp src b) := by
  have hno : ¬ ((s.arrived ep).netAddr ep = 0 ∨ (s.arrived ep).inService = false) := by
    rintro (h | h)
    · exact hn h
    · exact Bool.false_ne_true (h.symm.trans hs)
  refine congrArg Host.Outcome.next ((State.ethIn_of_room hroom _).trans ((if_neg hno).trans ?_))
  rcases (if ep.val ≤ 1 then rct else none) with _ | ⟨mac, seq⟩
  · rfl
  · rfl

theorem State.plantMessage_of_bad {udp src : Nat} {b : List Byte} (h : udp ≠ Fld.plantCfg_UDP s.cfg ∨ b.length < 32 ∨ byteAt b 0 ≠ 1
    ∨ leAt b 2 2 ≠ b.length - 32 ∨ plantLen (byteAt b 1) (b.length - 32) = false) : s.plantMessage ep udp src b = s.ethDrop ep := by
  unfold State.plantMessage
  extract_lets body type onPath good srcOk id
  have hbad : good = false := by
    have hlen : body.length = b.length - 32 := List.length_drop
    dsimp only [good, type]
    rw [hlen]
    obtain h | h | h | h | h := h
    · simp [h]
    · simp [Nat.not_le.mpr h]
    · simp [h]
    · simp [h]
    · simp [h]
  rw [hbad]
  rfl

theorem State.plantMessage_of_noId {udp src : Nat} {b : List Byte} (ht : byteAt b 1 ≠ 0x20) (h : s.cfg.get Reg.plantId = 0) :
    s.plantMessage ep udp src b = s.ethDrop ep := by
  unfold State.plantMessage
  extract_lets body type onPath good srcOk id
  have hid : id = 0 := by
    dsimp only [id]
    rw [h]
    rfl
  split
  · rfl
  · exact if_pos (by simp [hid])

theorem State.plantDispatch_of_off {b : List Byte} (h : Fld.plantCfg_DISP s.cfg = false) :
    (s.plantDispatch b).status = St.dispatchSource ∧ (s.plantDispatch b).next = s := by
  unfold State.plantDispatch
  simp only [h, Bool.not_false, if_true]
  exact ⟨trivial, trivial⟩

theorem State.plantStage_of_off {b : List Byte} (h : Fld.plantCfg_DISP s.cfg = false) :
    (s.plantStage b).status = St.dispatchSource ∧ (s.plantStage b).next = s := by
  unfold State.plantStage
  simp only [h, Bool.not_false, if_true]
  exact ⟨trivial, trivial⟩

section
variable {b : List Byte} (h : Fld.plantCfg_DISP s.cfg = true) (hc : s.takeCopy ⟨0x11, b.take 8, []⟩ 1 = none)
include h hc

theorem State.plantStage_of_stale {l : Word} (h2 : 2 ≤ byteAt b 0) (h4 : byteAt b 0 ≤ 4) (hz : zerosAt b 1 3 = true) (hl : s.plant.sseq = some l)
    (hn : newerSeq (some l) (BitVec.ofNat 32 (leAt b 4 4)) = false) : (s.plantStage b).status = St.setpointStale ∧ (s.plantStage b).next = s := by
  have h1 : ¬ byteAt b 0 = 1 := by omega
  have hrange : ¬ (byteAt b 0 = 0 ∨ 4 < byteAt b 0) := by omega
  unfold State.plantStage
  simp only [h, hc, h1, hz, hrange, hl, hn, Bool.not_true, Bool.false_eq_true, if_false, false_and, decide_false, Bool.or_false, Bool.not_false, if_true]
  exact ⟨trivial, rfl⟩

theorem State.plantStage_of_inactive (h1 : byteAt b 0 = 1) (ha : s.plantActive = false) :
    (s.plantStage b).status = St.dispatchSource ∧ (s.plantStage b).next = s := by
  unfold State.plantStage
  simp only [h, hc, h1, ha, Bool.not_true, Bool.false_eq_true, if_false, and_self, if_true]
  exact ⟨trivial, rfl⟩

end

/-- Settles O43: the reception of a message, and its checks in order. -/
theorem plantMessages : Obligations.PlantMessages := by
  unfold Obligations.PlantMessages
  refine ⟨?_, ?_, ?_, ?_, ?_, ?_, ?_, ?_⟩
  · intro s ep udp src b hroom hn hs
    refine ⟨_, execPlantMessage_of_room hroom hn hs udp src none b, ?_⟩
    rw [ite_self]
  · intro s ep udp src mac n b hroom hn hs hep hseen
    refine ⟨_, execPlantMessage_of_room hroom hn hs udp src (some (mac, n)) b, ?_⟩
    rw [if_pos hep]
    exact if_pos hseen
  · intro s ep udp src mac n b hroom hn hs hep hseen
    refine ⟨_, execPlantMessage_of_room hroom hn hs udp src (some (mac, n)) b, ?_⟩
    rw [if_pos hep]
    exact if_neg (by rw [hseen]; exact Bool.false_ne_true)
  · exact fun s ep udp src b h => State.plantMessage_of_bad h
  · exact fun s ep udp src b ht h => State.plantMessage_of_noId ht h
  · intro s b h
    obtain ⟨h1, h2⟩ := State.plantDispatch_of_off (s := s) (b := b) h
    obtain ⟨h3, h4⟩ := State.plantStage_of_off (s := s) (b := b) h
    exact ⟨h1, h2, h3, h4⟩
  · exact fun s b l h hc h2 h4 hz hl hn => State.plantStage_of_stale h hc h2 h4 hz hl hn
  · exact fun s b h hc h1 ha => State.plantStage_of_inactive h hc h1 ha

end

/-! ### CAN FD and Modbus in a twin state that the configuration does not have -/

/-- A module after reset that acts alone, with a site block in force, whose twin state is joined: no plan makes it a pair, and
`State.isJoined` asks the twin state alone. -/
def State.joinedWithoutPair (block : List Byte) : State :=
  { State.reset with
    setup := { State.reset.setup with blocksAct := [(3, block)], active := [(0x0B74, 1)] }
    life := { State.reset.life with guard_ := false }
    twin := { State.reset.twin with st := .joined } }

/-- A site block with one CAN object: object 127 of port 5 receives identifier 1, 8 bytes. -/
def canSite : List Byte := ((List.replicate 16 0 ++ [32, 0, 0, 0, 1, 0, 48, 0, 0, 0, 0, 0, 0, 0, 0, 0]) ++
  [5, 127, 1, 0, 1, 0, 0, 0, 255, 7, 0, 0, 8, 0, 10, 0]).map (BitVec.ofNat 8)

/-- What the frame brings is held back for the partner's instant (16 R419). -/
theorem canSite_received : ∃ t, exec (.canFrameReceived 5 false 1 6 []) (State.joinedWithoutPair canSite) = .next t ∧ (t.canObj 5 127).data = [] :=
  ⟨_, rfl, by decide +kernel⟩

/-- Refutes O44: its second clause asks of a module without a pair plan (`s.isPair = false`) that a received frame's data are in use at once;
`State.objectTakes` judges by the twin state alone, and in the state joined it holds them back until the next grid instant. -/
theorem not_canCommands : ¬ Obligations.CanCommands := by
  intro h
  obtain ⟨-, hreceived, -⟩ := h
  obtain ⟨t, ht, hdata, -⟩ := hreceived (State.joinedWithoutPair canSite) 5 1 6 [] ⟨5, 127, 1, 0, 1, 2047, 8, 0, 10⟩ (by decide +kernel)
    (by decide +kernel) (by decide +kernel) (by decide +kernel)
  obtain ⟨u, hu, hnone⟩ := canSite_received
  obtain rfl : t = u := Host.Outcome.next.inj (ht.symm.trans hu)
  rw [hnone] at hdata
  exact absurd hdata (by decide)

/-- A site block with one Modbus entry: slave 7 of port 3, one holding register from address 0 every 10 ms. -/
def modbusSite : List Byte := ((List.replicate 16 0 ++ [32, 0, 0, 0, 0, 0, 32, 0, 0, 0, 1, 0, 0, 0, 0, 0]) ++
  [3, 7, 3, 1, 0, 0, 10, 0, 0, 2, 0, 0, 0, 0, 0, 0]).map (BitVec.ofNat 8)

/-- Its transaction under way. -/
def State.polled : State := (State.joinedWithoutPair modbusSite).onPlant (fun p => { p with sb := p.sb.set 3 { SbPort.reset with cur := some (0, 0, 5) } })

/-- The slave's reply: register value 260, with its check. -/
def modbusAnswer : List Byte := ([7, 3, 2, 1, 4].map (BitVec.ofNat 8)) ++
  toLe (crcModbus ([7, 3, 2, 1, 4].map (BitVec.ofNat 8))) 2

theorem State.polled_reply : ∃ t, exec (.modbusReply 3 modbusAnswer true) State.polled = .next t ∧ (t.mbEntry 0).regs = [] :=
  ⟨_, rfl, by decide +kernel⟩

theorem modbusAnswer_ok : mbReply ⟨3, 7, 3, 1, 0, 10, 0, 2⟩ (State.polled.sbPort 3).sent modbusAnswer true = .ok [260] := by
  rfl

/-- Refutes O45: its third clause asks of a module without a pair plan (`s.isPair = false`) that the registers read are in use at once;
`State.mbDone` judges by the twin state alone, and in the state joined it holds them back until the next grid instant. -/
theorem not_modbusCommands : ¬ Obligations.ModbusCommands := by
  intro h
  obtain ⟨-, -, hreply, -⟩ := h
  obtain ⟨t, ht, -, -, -, hregs, -⟩ := hreply State.polled 3 modbusAnswer true 0 0 5 ⟨3, 7, 3, 1, 0, 10, 0, 2⟩ [260]
    (by unfold State.sized; decide +kernel) (by decide +kernel) (by decide +kernel) (by decide +kernel) modbusAnswer_ok (by decide +kernel)
  obtain ⟨u, hu, hnone⟩ := State.polled_reply
  obtain rfl : t = u := Host.Outcome.next.inj (ht.symm.trans hu)
  rw [if_pos (by decide)] at hregs
  rw [hnone] at hregs
  exact absurd hregs (by decide)

end Sys2Proof.Machine
end

section
/-! PROOFS. The pair (16 R416 to R438, 20 R498): frames of the partner, notices and the catch-up, leaving and the exposure window. -/
namespace Sys2Proof.Machine

section
variable {s t u : State}

/-! ### What the pair's operations leave -/

theorem State.sendProgress_same (s : State) {q : Part} (hq : q ∉ [Part.host, .rec_, .out]) : q.same s s.sendProgress := by
  have head := Part.may_among_head
  have tail := Part.may_among_tail
  exact (State.sendProgress_holds (R := false) (.refl nofun)).same_of_not_mem hq

theorem State.pairSendOn_same (s : State) (link : Nat) (f : PairFrame) {q : Part} (hq : q ∉ [Part.twin, .out]) : q.same s (s.pairSendOn link f) := by
  have head := Part.may_among_head
  have tail := Part.may_among_tail
  exact (State.pairSendOn_holds (R := false) (.refl nofun)).same_of_not_mem hq

theorem State.exposureOpens_same (s : State) (cause : Nat) {q : Part} (hq : q ∉ [Part.twin, .rec_]) : q.same s (s.exposureOpens cause) := by
  have head := Part.may_among_head
  have tail := Part.may_among_tail
  exact (State.exposureOpens_holds (R := false) (.refl nofun)).same_of_not_mem hq

theorem State.drivePins_same (s : State) {q : Part} (hq : q ∉ [Part.out]) : q.same s s.drivePins := by
  have head := Part.may_among_head
  have tail := Part.may_among_tail
  exact (State.drivePins_holds (R := false) (.refl nofun)).same_of_not_mem hq

theorem State.energise_same (s : State) {q : Part} (hq : q ∉ [Part.safety]) : q.same s s.energise := by
  have head := Part.may_among_head
  have tail := Part.may_among_tail
  exact (State.energise_holds (R := false) (.refl nofun)).same_of_not_mem hq

theorem State.sendProgress_records (s : State) : s.Records s.sendProgress := by
  unfold State.sendProgress
  split
  · exact .refl s
  · next c _ =>
    refine ⟨State.release_raises .., State.sysNs_of_time s ?_⟩
    have head := Part.may_among_head
    have tail := Part.may_among_tail
    exact ((State.release_holds (R := false) (.refl nofun)).same_of_not_mem (l := [Part.host, .rec_, .out]) (q := .time) (by decide))

theorem State.exposureOpens_records (s : State) (cause : Nat) : s.Records (s.exposureOpens cause) := by
  unfold State.exposureOpens
  dsimp only
  split
  · exact .of_eq rfl rfl
  · exact .trans (t := s.onTwin (fun t => { t with exposure := ⟨some s.now, eventOf s.sysNs, none, false, none⟩ })) (.of_eq rfl rfl)
      (State.raise_records ..)

theorem State.exposureOpens_twin (s : State) (cause : Nat) : ∃ x, (s.exposureOpens cause).twin = { s.twin with exposure := x } := by
  unfold State.exposureOpens
  dsimp only
  split
  · exact ⟨_, rfl⟩
  · exact ⟨_, rfl⟩

/-- A step of the catch-up, without its record. -/
def Twin.step (x : Twin) (st : CatchStep) : Twin := { x with catchUp := x.catchUp.map (fun c => { c with step := st }) }

theorem State.catchStep_twin (s : State) (st : CatchStep) : (s.catchStep st).twin = s.twin.step st :=
  State.sendProgress_same (s.onCatch (fun c => { c with step := st })) (q := .twin) (by decide)

theorem State.catchStep_same (s : State) (st : CatchStep) {q : Part} (hq : q ∉ [Part.host, .twin, .rec_, .out]) : q.same s (s.catchStep st) := by
  have hset : q.same s (s.onCatch (fun c => { c with step := st })) := by
    cases q with
    | twin => exact absurd (by decide) hq
    | _ => rfl
  exact Part.same_trans hset (State.sendProgress_same _ (fun h => hq (by revert h; cases q <;> decide)))

theorem State.catchStep_records (s : State) (st : CatchStep) : s.Records (s.catchStep st) :=
  .trans (t := s.onCatch (fun c => { c with step := st })) (.of_eq rfl rfl) (State.sendProgress_records _)

/-! ### A frame of the partner (R417, R418) -/

section
variable {h : PairHead} {f : State → State}

/-- A first copy has its effect in a twin. -/
theorem State.pairFrame_of_first (hp : s.isPair = true) (hn : h.pseq ∉ s.twin.pseqSeen) : s.pairFrame h f = .next (f (s.pairHear h).1) := by
  refine congrArg Host.Outcome.next (if_pos ?_)
  have hfresh : s.twin.pseqSeen.contains h.pseq = false := by
    rw [Bool.eq_false_iff]
    exact fun hc => hn (List.contains_iff_mem.mp hc)
  change (!s.twin.pseqSeen.contains h.pseq && s.isPair) = true
  rw [hfresh, hp]
  rfl

theorem execPairStatusFrame_of_first {l : Fin 8} {receipt : Nat} {b : List Byte} {x : StatusFrame} (hp : s.isPair = true)
    (hn : h.pseq ∉ s.twin.pseqSeen) (hag : (s.pairHear h).1.agrees = true) (hx : parseStatus l b = some x)
    (hl : l.val < (s.pairHear h).1.links) : execPairStatusFrame h l receipt b s = .next ((s.pairHear h).1.takeStatus l x receipt) := by
  unfold execPairStatusFrame
  rw [State.pairFrame_of_first hp hn, hx]
  refine congrArg Host.Outcome.next (if_pos ?_)
  rw [hag, decide_eq_true hl]
  rfl

theorem execPairSafetyFrame_of_first {b : List Byte} {x : SafetyPdu} (hp : s.isPair = true) (hn : h.pseq ∉ s.twin.pseqSeen)
    (hx : parsePdu b = some x) (hc : (s.pairHear h).1.computes = true) :
    execPairSafetyFrame h b s = .next ((s.pairHear h).1.takePartner x) := by
  unfold execPairSafetyFrame
  rw [State.pairFrame_of_first hp hn, hx]
  exact congrArg Host.Outcome.next (if_pos hc)

theorem execPairDigestFrame_of_first {n c : Nat} {d : Word} {p : List Bool} {u : List Nat} (hp : s.isPair = true)
    (hn : h.pseq ∉ s.twin.pseqSeen) : execPairDigestFrame h n d p c u s = .next ((s.pairHear h).1.onTwin (fun x => { x with
      planPeer := some (p, c, u), digestPeer := some (n, d) })).compareDigests := by
  unfold execPairDigestFrame
  rw [State.pairFrame_of_first hp hn]

theorem State.pairFrame_of_second (hn : h.pseq ∈ s.twin.pseqSeen) : s.pairFrame h f = .next (s.pairHear h).1 := by
  refine congrArg Host.Outcome.next (if_neg ?_)
  change ¬ (!s.twin.pseqSeen.contains h.pseq && s.isPair) = true
  rw [List.contains_iff_mem.mpr hn]
  exact Bool.false_ne_true

theorem State.pairHear_seen (s : State) (h : PairHead) : h.pseq ∈ (s.pairHear h).1.twin.pseqSeen := by
  change h.pseq ∈ (if (!s.twin.pseqSeen.contains h.pseq) = true then (h.pseq :: s.twin.pseqSeen).take 64 else s.twin.pseqSeen)
  split
  · rw [List.take_succ_cons]
    exact List.mem_cons_self ..
  · next hc => exact List.contains_iff_mem.mp (by simpa using hc)

theorem State.pairHear_link (hl : h.link.val < s.twin.linkUp.length) : (s.pairHear h).1.twin.linkUp.getD h.link.val false = true :=
  getD_set_self hl

theorem State.pairHear_agrees (s : State) (h : PairHead) : (s.pairHear h).1.agrees = s.agrees := rfl

theorem State.pairHear_sending (s : State) (h : PairHead) : (s.pairHear h).1.sending = s.sending := rfl

end

theorem any_eq_false_of_two {l : List Bool} (hl : l.length = 2) (link : Fin 2) (h : l.getD (1 - link.val) false = false) :
    (l.set link.val false).any (fun b => b) = false := by
  obtain ⟨a, b, rfl⟩ := eq_pair_of_length hl
  obtain ⟨link, hlink⟩ := link
  obtain rfl | rfl : link = 0 ∨ link = 1 := by omega
  · obtain rfl : b = false := h
    rfl
  · obtain rfl : a = false := h
    rfl

/-- A pair link out of service. -/
def State.linkDown (t : State) (link : Nat) : State :=
  (t.onTwin (fun x => { x with linkUp := x.linkUp.set link false })).onTime (fun x => { x with pairResult := x.pairResult.set link none })

theorem execPairLinkTimeout_of_up {link : Fin 2} {a : Nat} (hup : s.twin.linkUp.getD link.val false = true)
    (ha : s.twin.lastFrame.getD link.val none = some a) (ht : s.advance (a + 1000000 * Fld.pairCfg_LINK_MS s.cfg) = t) :
    execPairLinkTimeout link s = .next (if (t.linkDown link).linkAlive then t.linkDown link
      else (t.linkDown link).onTwin (fun x => { x with pseqSeen := [], partnerIn := false })) := by
  unfold execPairLinkTimeout
  rw [hup, ha]
  dsimp only
  rw [ht]
  rfl

theorem State.linkDown_does (link : Fin 2) (hl : t.twin.linkUp.length = 2) {u : State}
    (hu : u = if (t.linkDown link).linkAlive then t.linkDown link
      else (t.linkDown link).onTwin (fun x => { x with pseqSeen := [], partnerIn := false })) :
    u.twin.linkUp.getD link.val true = false ∧ u.now = t.now
    ∧ (t.twin.linkUp.getD (1 - link.val) false = false → u.twin.partnerIn = false ∧ u.twin.pseqSeen = []) := by
  have hdown : (t.twin.linkUp.set link.val false).getD link.val true = false := getD_set_self (by omega)
  cases halive : (t.linkDown link).linkAlive
  · rw [halive, if_neg Bool.false_ne_true] at hu
    subst hu
    exact ⟨hdown, rfl, fun _ => ⟨rfl, rfl⟩⟩
  · rw [halive, if_pos rfl] at hu
    subst hu
    refine ⟨hdown, rfl, fun hother => ?_⟩
    have hdead := any_eq_false_of_two hl link hother
    exact absurd (halive.symm.trans hdead) (by decide)

/-! ### Commands that the partner accepted (R421) -/

theorem State.peerBoth_of_own {c : Cmd} {w : WaitCmd} (hw : s.host.waiting = [w]) (hc : w.cmd = c) (ho : w.own = true) (hp : w.peer = false)
    (a : Nat) : (s.peerBoth c a).host.waiting = [] ∧ (s.peerBoth c a).host.accepted = s.host.accepted ++ [(max w.acceptedAt a + 500000, c)] := by
  have hfind : s.host.waiting.find? (fun w => decide (w.cmd = c) && w.own && !w.peer) = some w := by
    rw [hw]
    exact List.find?_cons_of_pos (by simp [hc, ho, hp])
  have heq : s.peerBoth c a = s.acceptBoth2 w a := by
    unfold State.peerBoth
    rw [hfind]
  rw [heq]
  unfold State.acceptBoth2
  rw [hw, hc]
  exact ⟨List.erase_cons_head .., rfl⟩

theorem commandTaken_of_forwarded {c : Cmd} {src : Fin 2} {a : Nat} {h : PairHead} (hp : s.isPair = true) (hn : h.pseq ∉ s.twin.pseqSeen)
    (hag : s.agrees = true) (hc : c.opcode = 0x30) : execPairCommandFrame h c src a s =
    .next ((s.pairHear h).1.onHost (fun x => { x with accepted := x.accepted ++ [(a + 1000000, c)] })) := by
  refine (State.pairFrame_of_first hp hn).trans (congrArg Host.Outcome.next ?_)
  rw [State.pairHear_agrees, hag, hc]
  rfl

theorem commandTaken_of_both {c : Cmd} {src : Fin 2} {a : Nat} {h : PairHead} (hp : s.isPair = true) (hn : h.pseq ∉ s.twin.pseqSeen)
    (hag : s.agrees = true) (h0 : c.opcode.toNat ≠ 0) (hc : bothOpcodes.contains c.opcode.toNat = true) :
    execPairCommandFrame h c src a s = .next ((s.pairHear h).1.peerBoth c a) := by
  refine (State.pairFrame_of_first hp hn).trans (congrArg Host.Outcome.next ?_)
  dsimp only
  rw [State.pairHear_agrees, hag, if_neg (by decide), if_neg h0, if_pos hc]

/-! ### State digests (R416, R438) -/

theorem State.compareDigests_of_none (h : s.twin.digestPeer = none) : s.compareDigests = s := by
  unfold State.compareDigests
  rw [h]
  cases s.twin.digestOwn <;> rfl

/-- A twin that has sent its digest of a second. -/
def State.digestSent (t : State) (second : Nat) : State :=
  (t.onTwin (fun x => { x with
    digestOwn := some (second, Sys2Proof.Config.stateDigest t.digested), planOwn := some t.fabric.plan.permitted, planDue := some second })).pairSend
    (.digest second (Sys2Proof.Config.stateDigest t.digested) t.fabric.plan.permitted t.fabric.plan.ceiling t.fabric.plan.unitCost t.withdrawals24)

theorem execStateDigest_of_computes (hp : s.isPair = true) (hc : s.computes = true) (n : Nat) (ht : s.advance (n * 1000000000) = t) :
    execStateDigest n s = .next (t.digestSent n).compareDigests := by
  unfold execStateDigest
  rw [hp, hc, ht]
  rfl

theorem State.digestSent_twin (t : State) (n : Nat) : ∃ k, (t.digestSent n).twin = { t.twin with
    digestOwn := some (n, Sys2Proof.Config.stateDigest t.digested), planOwn := some t.fabric.plan.permitted, planDue := some n, pseq := k } := by
  unfold State.digestSent
  obtain ⟨k, hk⟩ := State.pairSend_twin (t.onTwin (fun x => { x with
    digestOwn := some (n, Sys2Proof.Config.stateDigest t.digested), planOwn := some t.fabric.plan.permitted, planDue := some n }))
    (.digest n (Sys2Proof.Config.stateDigest t.digested) t.fabric.plan.permitted t.fabric.plan.ceiling t.fabric.plan.unitCost t.withdrawals24)
  exact ⟨k, hk⟩

/-- A divergence noted, before the junior withdraws. -/
def State.divergeNoted (s : State) (kind : Nat) : State :=
  (s.onTwin (fun x => { x with diverged := satAdd x.diverged 1 255, outDiff := 0 })).raise Ev.pairDiverged [kind]

theorem State.diverge_of_junior (h : s.isJunior = true) (kind : Nat) : s.diverge kind = (s.divergeNoted kind).withdraw 5 false := if_pos h

theorem State.diverge_of_senior (h : s.isJunior = false) (kind : Nat) : s.diverge kind = s.divergeNoted kind :=
  if_neg (by rw [h]; exact Bool.false_ne_true)

section
variable {n : Nat} {x y : Word} (ho : s.twin.digestOwn = some (n, x)) (hp : s.twin.digestPeer = some (n, y)) (hj : s.twin.st = .joined)
include ho hp hj

theorem State.compareDigests_of_joined : s.compareDigests = if x = y then s.onTwin (fun z => { z with digestPeer := none })
    else (s.onTwin (fun z => { z with digestPeer := none })).diverge 0 := by
  have hj' : (s.onTwin (fun z => { z with digestPeer := none })).twin.st = .joined := hj
  unfold State.compareDigests
  rw [ho, hp]
  dsimp only
  rw [if_neg (not_not_intro rfl)]
  generalize s.onTwin (fun z => { z with digestPeer := none }) = t at hj' ⊢
  rw [hj']

theorem State.compareDigests_of_differ (hne : x ≠ y) : s.compareDigests = (s.onTwin (fun z => { z with digestPeer := none })).diverge 0 :=
  (State.compareDigests_of_joined ho hp hj).trans (if_neg hne)

end

theorem State.compareDigests_of_alone (h : s.twin.st = .alone) : s.compareDigests.twin.st = .alone
    ∧ s.compareDigests.twin.planPeer = s.twin.planPeer := by
  have h' : (s.onTwin (fun z => { z with digestPeer := none })).twin.st = .alone := h
  unfold State.compareDigests
  rcases s.twin.digestOwn with _ | ⟨a, x⟩
  · exact ⟨h, rfl⟩
  · rcases s.twin.digestPeer with _ | ⟨b, y⟩
    · exact ⟨h, rfl⟩
    · dsimp only
      split
      · exact ⟨h, rfl⟩
      · have hplan : (s.onTwin (fun z => { z with digestPeer := none })).twin.planPeer = s.twin.planPeer := rfl
        generalize s.onTwin (fun z => { z with digestPeer := none }) = t at h' hplan ⊢
        rw [h']
        exact ⟨h', hplan⟩

/-- Settles O46: a frame by its first and its second copy; digests by the twin's state. -/
theorem pairFrames : Obligations.PairFrames := by
  unfold Obligations.PairFrames
  refine ⟨?_, ?_, ?_, ?_, ?_, ?_, ?_, ?_, ?_, ?_, ?_, ?_, ?_, ?_, ?_⟩
  · exact fun s h => ⟨_, congrArg Host.Outcome.next (ite_self _), rfl, rfl, fun hl => State.pairHear_link hl, s.pairHear_seen h⟩
  · exact fun s h f hn => State.pairFrame_of_second hn
  · intro s link a hsz hup ha
    obtain ⟨h1, h2, h3⟩ := State.linkDown_does (t := s.advance (a + 1000000 * Fld.pairCfg_LINK_MS s.cfg)) link
      (by rw [State.advance_twin]; exact hsz.linkUp) rfl
    rw [State.advance_twin] at h3
    exact ⟨_, execPairLinkTimeout_of_up hup ha rfl, h1, h2, h3⟩
  · intro s h r e late first count grid receipt b hp hn hag
    exact ⟨_, State.pairFrame_of_first hp hn, if_pos ((s.pairHear_agrees h).trans hag)⟩
  · intro s h l receipt b f hp hn hag hf hl
    exact ⟨_, execPairStatusFrame_of_first hp hn ((s.pairHear_agrees h).trans hag) hf hl, rfl⟩
  · exact fun s h l hp hn hag => ⟨_, State.pairFrame_of_first hp hn, if_pos ((s.pairHear_agrees h).trans hag)⟩
  · exact fun s h c src a hp hn hag h0 hc => ⟨_, commandTaken_of_both hp hn hag h0 hc, rfl⟩
  · exact fun s h c src a hp hn hag hc => ⟨_, commandTaken_of_forwarded hp hn hag hc, rfl⟩
  · exact fun s c a w hw hc ho hp => State.peerBoth_of_own hw hc ho hp a
  · intro s h b p hp hn hc hb
    exact ⟨_, execPairSafetyFrame_of_first hp hn hb hc, rfl⟩
  · intro s n hp hc hnone
    obtain ⟨k, hk⟩ := (s.advance (n * 1000000000)).digestSent_twin n
    rw [State.advance_twin] at hk
    refine ⟨_, execStateDigest_of_computes hp hc n rfl, ?_⟩
    dsimp only
    rw [State.compareDigests_of_none (by rw [hk]; exact hnone), hk]
    exact ⟨rfl, rfl⟩
  · intro s n x y ho hp hj hne hjun
    have hpeer := (State.compareDigests_of_differ ho hp hj hne).trans
      (State.diverge_of_junior (s := s.onTwin (fun z => { z with digestPeer := none })) hjun 0)
    have hpres := State.present_of_joined (s := (s.onTwin (fun z => { z with digestPeer := none })).divergeNoted 0) hj
    obtain ⟨hst, -, hcause⟩ := State.withdraw_leaves hpres 5 false
    rw [hpeer]
    exact ⟨hst, hcause, (State.raise_saw ..).mono (State.withdraw_records hpres 5 false)⟩
  · intro s n x y ho hp hj hne hsen
    have hpeer := (State.compareDigests_of_differ ho hp hj hne).trans
      (State.diverge_of_senior (s := s.onTwin (fun z => { z with digestPeer := none })) hsen 0)
    rw [hpeer]
    exact ⟨hj, State.raise_saw ..⟩
  · exact fun s n x ho hp hj => (State.compareDigests_of_joined ho hp hj).trans (if_pos rfl)
  · intro s h n c d p u hp hn hst
    obtain ⟨halone, hplan⟩ := State.compareDigests_of_alone (s := (s.pairHear h).1.onTwin (fun x => { x with
      planPeer := some (p, c, u), digestPeer := some (n, d) })) hst
    exact ⟨_, execPairDigestFrame_of_first hp hn, hplan, halone⟩

end

end Sys2Proof.Machine
end

section
/-! PROOFS. The catch-up (16 R426 to R431): notices, the snapshot and the re-entry. -/
namespace Sys2Proof.Machine

section
variable {s t u : State}

/-! ### The items of a snapshot -/

theorem CatchUp.take_rx (c : CatchUp) (i : Nat) (b : List Byte) : (c.take i (c.item i).length b).rx
    = c.rx.filter (fun e => decide (e.1 ≠ i)) ++ [(i, c.item i ++ b)] :=
  congrArg CatchUp.rx (if_neg (not_not_intro rfl))

theorem CatchUp.take_item_same (c : CatchUp) (i : Nat) (b : List Byte) : (c.take i (c.item i).length b).item i = c.item i ++ b := by
  have hfind : (c.take i (c.item i).length b).rx.find? (fun e => decide (e.1 = i)) = some (i, c.item i ++ b) := by
    rw [CatchUp.take_rx, List.find?_append]
    have hnone : (c.rx.filter (fun e => decide (e.1 ≠ i))).find? (fun e => decide (e.1 = i)) = none := by
      rw [List.find?_eq_none]
      intro e he
      simpa using (List.mem_filter.mp he).2
    rw [hnone]
    simp
  change (match (c.take i (c.item i).length b).rx.find? (fun e => decide (e.1 = i)) with | some e => e.2 | none => []) = _
  rw [hfind]

theorem CatchUp.take_item_ne (c : CatchUp) {i j : Nat} (b : List Byte) (h : i ≠ j) : (c.take i (c.item i).length b).item j = c.item j := by
  have hfind : (c.take i (c.item i).length b).rx.find? (fun e => decide (e.1 = j)) = c.rx.find? (fun e => decide (e.1 = j)) := by
    rw [CatchUp.take_rx, List.find?_append, List.find?_filter]
    have hsame : (fun a : Nat × List Byte => decide (decide (a.1 ≠ i) = true ∧ decide (a.1 = j) = true)) = fun a => decide (a.1 = j) := by
      funext a
      by_cases ha : a.1 = j
      · have hi : a.1 ≠ i := fun hi => h (hi.symm.trans ha)
        simp [ha, Ne.symm h]
      · simp [ha]
    have hlast : [(i, c.item i ++ b)].find? (fun e => decide (e.1 = j)) = none := by simp [h]
    rw [hlast, Option.or_none]
    exact congrArg (fun p => c.rx.find? p) hsame
  unfold CatchUp.item at hfind ⊢
  rw [hfind]

/-! ### A partner that leaves -/

theorem State.partnerLeaves_of_joined (h : s.twin.st = .joined) (c : Nat) :
    s.partnerLeaves c = s.onTwin (fun x => { x with becomeAlone := some c, partnerIn := false }) := by
  unfold State.partnerLeaves
  rw [h]

theorem State.partnerLeaves_of_solo (h : s.twin.st = .solo) (c : Nat) :
    s.partnerLeaves c = s.onTwin (fun x => { x with becomeAlone := some c, partnerIn := false }) := by
  unfold State.partnerLeaves
  rw [h]

theorem State.partnerLeaves_catchUp (s : State) (c : Nat) : (s.partnerLeaves c).twin.catchUp = s.twin.catchUp := by
  unfold State.partnerLeaves
  split <;> rfl

/-- The twin acts alone from here, with its record of the partner's withdrawal. -/
def State.aloneFrom (s : State) (cause : Nat) : State :=
  ((s.onTwin (fun x => { x with st := .alone, becomeAlone := none, joinDue := false, outDiff := 0 })).onTime TimeBase.leads).raise
    Ev.twinWithdrawn [cause]

theorem State.becomesAlone_of_some {c : Nat} (h : s.twin.becomeAlone = some c) (hs : s.twin.silent = false) :
    s.becomesAlone = (s.aloneFrom c).exposureOpens c := by
  unfold State.becomesAlone
  rw [h]
  dsimp only
  rw [hs, if_neg Bool.false_ne_true]
  rfl

theorem TimeBase.leads_leader (t : TimeBase) : t.leads.leader = true := rfl

theorem State.becomesAlone_does {c : Nat} (h : s.twin.becomeAlone = some c) (hs : s.twin.silent = false) : s.becomesAlone.twin.st = .alone
    ∧ s.becomesAlone.time.leader = true ∧ s.becomesAlone.twin.becomeAlone = none ∧ s.becomesAlone.Saw Ev.twinWithdrawn [c]
    ∧ s.becomesAlone.gate = s.gate ∧ s.becomesAlone.ledger = s.ledger ∧ s.becomesAlone.disp = s.disp ∧ s.becomesAlone.safety = s.safety := by
  rw [State.becomesAlone_of_some h hs]
  obtain ⟨x, hx⟩ := (s.aloneFrom c).exposureOpens_twin c
  have htime : ((s.aloneFrom c).exposureOpens c).time = (s.aloneFrom c).time := State.exposureOpens_same _ c (q := .time) (by decide)
  have hsaw : (s.aloneFrom c).Saw Ev.twinWithdrawn [(c : Int)] := State.raise_saw ..
  refine ⟨congrArg Twin.st hx, (congrArg TimeBase.leader htime).trans rfl, congrArg Twin.becomeAlone hx,
    hsaw.mono (State.exposureOpens_records ..), ?_, ?_, ?_, ?_⟩
  · exact State.exposureOpens_same (s.aloneFrom c) c (q := .gate) (by decide)
  · exact State.exposureOpens_same (s.aloneFrom c) c (q := .ledger) (by decide)
  · exact State.exposureOpens_same (s.aloneFrom c) c (q := .disp) (by decide)
  · exact State.exposureOpens_same (s.aloneFrom c) c (q := .safety) (by decide)

/-! ### Notices -/

theorem State.onCatch_of_some {k : CatchUp} (hk : s.twin.catchUp = some k) (f : CatchUp → CatchUp) :
    (s.onCatch f).twin.catchUp = some (f k) :=
  congrArg (Option.map f) hk

theorem State.pairSend_catchUp (s : State) (f : PairFrame) : (s.pairSend f).twin.catchUp = s.twin.catchUp := by
  unfold State.pairSend
  split <;> rfl

theorem State.catchStep_of_some {k : CatchUp} (hk : s.twin.catchUp = some k) (st : CatchStep) :
    (s.catchStep st).twin.catchUp = some { k with step := st } :=
  (congrArg Twin.catchUp (s.catchStep_twin st)).trans (State.onCatch_of_some hk _)

theorem State.pairHear_fineOf (s : State) (h : PairHead) (e : Nat) : (s.pairHear h).1.fineOf e = s.fineOf e := rfl

section
variable {h : PairHead} {k : CatchUp} {c : Byte} {e : Nat} (hp : s.isPair = true) (hn : h.pseq ∉ s.twin.pseqSeen)
include hp hn

/-- WITHDRAWING, and RETIRED with it: both leave the twin alone from the next boundary. -/
theorem execNoticeWithdrawing_of_left (hleft : (s.pairHear h).1.partnerLeaves c.toNat = t) :
    ∃ f : Twin → Option CatchUp, execNoticeWithdrawing h c s = .next (t.onTwin (fun x => { x with catchUp := f x })) := by
  unfold execNoticeWithdrawing
  rw [State.pairFrame_of_first hp hn]
  exact ⟨_, congrArg (fun v : State => Host.Outcome.next (v.onTwin _)) hleft⟩

theorem execNoticeRestarting_of_sending (hs : s.sending = true) (hk : s.twin.catchUp = none) (ht : (s.pairHear h).1 = t) :
    execNoticeRestarting h c s = .next ((t.partnerLeaves c.toNat).onTwin (fun x => { x with
      silent := false, catchUp := some ⟨.restarting, true, 1, t.now, 0, 0, [], 0, none, false⟩ })).sendProgress := by
  have hk' : t.twin.catchUp = none := by rw [← ht]; exact hk
  have hs' : t.sending = true := by rw [← ht, State.pairHear_sending]; exact hs
  unfold execNoticeRestarting
  rw [State.pairFrame_of_first hp hn, ht]
  dsimp only
  rw [hs', hk']
  rfl

theorem execNoticeReady_of_supplying (hk : s.twin.catchUp = some k) (hsup : k.supplying = true) (he : eventValid e = true) :
    ∃ t, execNoticeReady h e s = .next t ∧ t.twin.catchUp = some { k with reentry := some (s.fineOf e), echoed := true, step := .exact } := by
  have hk' : (s.pairHear h).1.twin.catchUp = some k := hk
  unfold execNoticeReady
  rw [he, State.pairFrame_of_first hp hn, hk']
  dsimp only
  rw [hsup, if_neg (by decide), if_neg (by decide), State.pairHear_fineOf]
  refine ⟨_, rfl, ?_⟩
  rw [State.catchStep_of_some ((State.pairSend_catchUp ..).trans (State.onCatch_of_some hk' _)), hsup]

theorem execNoticeEcho_of_reentry (hk : s.twin.catchUp = some k) (hr : k.reentry = some (s.fineOf e)) (he : eventValid e = true) :
    ∃ t, execNoticeEcho h e s = .next t ∧ t.twin.catchUp = some { k with echoed := true } := by
  have hk' : (s.pairHear h).1.twin.catchUp = some k := hk
  unfold execNoticeEcho
  rw [he, State.pairFrame_of_first hp hn]
  exact ⟨_, rfl, (State.onCatch_of_some hk' _).trans (congrArg some (if_pos hr))⟩

theorem execPairCatchupFrame_of_transfer {i o : Nat} {b : List Byte} (hst : s.twin.st = .catching) (hk : s.twin.catchUp = some k)
    (hsup : k.supplying = false) (hstep : k.step = .transfer) (hi : i ≠ 0) :
    ∃ t, execPairCatchupFrame h i o b false s = .next t ∧ t.twin.catchUp = some (k.take i o b) := by
  have hk' : (s.pairHear h).1.twin.catchUp = some k := hk
  have hst' : (s.pairHear h).1.twin.st = .catching := hst
  unfold execPairCatchupFrame
  rw [State.pairFrame_of_first hp hn, hk']
  dsimp only
  rw [hsup, hst', hstep, if_neg (by decide), Bool.false_and, if_neg Bool.false_ne_true, if_neg (fun hc => hi hc.1), if_neg (by decide)]
  exact ⟨_, rfl, State.onCatch_of_some hk' _⟩

end

/-! ### The snapshot -/

theorem State.pairSendOn_catchUp (s : State) (link : Nat) (f : PairFrame) : (s.pairSendOn link f).twin.catchUp = s.twin.catchUp := by
  unfold State.pairSendOn
  split <;> rfl

theorem State.catchupChunks_keep {β : Type} {g : State → β} (hg : ∀ (u : State) (link : Nat) (f : PairFrame), g (u.pairSendOn link f) = g u)
    (link : Nat) (l : List (Nat × List Byte)) (s : State) :
    g (l.foldl (fun v e => (chunks e.2).foldl (fun w k => w.pairSendOn link (.catchup e.1 k.1 k.2)) v) s) = g s :=
  State.foldl_keeps (fun u e => State.foldl_keeps (fun w k => hg w link _) (chunks e.2) u) l s

theorem execCatchupSnapshot_of_restarting {k : CatchUp} (hk : s.twin.catchUp = some k) (hsup : k.supplying = true) (hstep : k.step = .restarting)
    (ht : s.advance (nextMultiple k.startedAt 1000000000) = t) : ∃ u, execCatchupSnapshot s = .next u ∧
    ∃ j, u.twin.catchUp = some j ∧ j.step = .transfer ∧ j.snapW = eventOf u.sysNs ∧ u.now = t.now := by
  have htwin : t.twin.catchUp = some k := by rw [← ht, State.advance_twin]; exact hk
  unfold execCatchupSnapshot
  rw [hk]
  dsimp only
  rw [hsup, hstep, if_neg (by decide), ht]
  refine ⟨_, rfl, ?_⟩
  generalize (if t.twin.linkUp.getD 0 false = true then 0 else 1) = link
  generalize hv : List.foldl _ _ t.itemBytes = v
  generalize hw : State.catchStep _ .transfer = w at hv
  have hcatch : v.twin.catchUp = w.twin.catchUp := by
    rw [← hv]
    exact State.catchupChunks_keep (g := fun u => u.twin.catchUp) State.pairSendOn_catchUp link _ _
  have htime : v.time = w.time := by
    rw [← hv]
    exact State.catchupChunks_keep (g := State.time) (fun u l f => u.pairSendOn_same l f (q := .time) (by decide)) link _ _
  have hwt : w.time = t.time := by
    rw [← hw]
    exact State.catchStep_same _ _ (q := .time) (by decide)
  have hvt := htime.trans hwt
  rw [hcatch, ← hw]
  refine ⟨_, State.catchStep_of_some (State.onCatch_of_some htwin _) _, rfl, ?_, State.now_of_time _ hvt⟩
  exact congrArg eventOf (State.sysNs_of_time _ hvt).symm

/-! ### Re-entry -/

theorem State.joined_twin (s : State) (e : Nat) : (s.joined e).twin.st = .joined ∧ (s.joined e).twin.txOff = false
    ∧ (s.joined e).twin.catchUp = none := by
  unfold State.joined
  dsimp only [State.onTwin]
  rw [State.catchStep_twin]
  exact ⟨rfl, rfl, rfl⟩

theorem State.joined_same (s : State) (e : Nat) {q : Part} (hq : q ∉ [Part.time, .host, .twin, .rec_, .out]) : q.same s (s.joined e) := by
  have head := Part.may_among_head
  have tail := Part.may_among_tail
  exact (State.joined_holds (R := false) (.refl nofun)).same_of_not_mem hq

theorem State.joined_time (s : State) (e : Nat) : (s.joined e).time = { s.time with leader := s.isSenior } :=
  State.catchStep_same (((s.onTwin (fun x => { x with
    st := .joined, txOff := false, silent := false, partnerIn := true, outDiff := 0, outMark := s.out.length
    exposure := { x.exposure with joinedSince := some s.now } })).onTime (fun x => { x with leader := s.isSenior })).raise Ev.twinRejoined
    [eventOf ((e : Int) + s.time.stepOffset).toNat]) .inService (q := .time) (by decide)

theorem State.setOut_bridges (s : State) (o : Nat) (on : Bool) : (s.setOut o on).safety.bridges = s.safety.bridges := rfl

theorem State.energise_bridges (s : State) : s.energise.safety.bridges = s.safety.bridges := by
  unfold State.energise
  dsimp only
  split
  · rfl
  · split <;> (repeat' split) <;> rfl

/-- The outputs of a rejoining twin, released. -/
def State.outputsReleased (s : State) : State :=
  ((s.onSafety (fun x => { x with bridges := false })).onTwin (fun x => { x with txOff := false })).drivePins.energise

theorem State.outputsReleased_same (s : State) {q : Part} (hq : q ∉ [Part.safety, .twin, .out]) : q.same s s.outputsReleased := by
  have hset : q.same s ((s.onSafety (fun x => { x with bridges := false })).onTwin (fun x => { x with txOff := false })) := by
    cases q with
    | safety => exact absurd (by decide) hq
    | twin => exact absurd (by decide) hq
    | _ => rfl
  exact Part.same_trans (Part.same_trans hset (State.drivePins_same _ (fun h => hq (by revert h; cases q <;> decide))))
    (State.energise_same _ (fun h => hq (by revert h; cases q <;> decide)))

theorem State.outputsReleased_bridges (s : State) : s.outputsReleased.safety.bridges = false := by
  unfold State.outputsReleased
  rw [State.energise_bridges]
  exact congrArg Safety.bridges (State.drivePins_same _ (q := .safety) (by decide))

/-- A start of new firmware has ended its probation. -/
def State.probationEnded (s : State) : State :=
  s.onLife (fun l => { l with probation := false, fw := if l.fw = .probation then .nothing else l.fw })

theorem State.probationEnded_safety (s : State) : s.probationEnded.safety = s.safety := rfl

theorem State.probationEnded_time (s : State) : s.probationEnded.time = s.time := rfl

theorem State.probationEnded_isSenior (s : State) : s.probationEnded.isSenior = s.isSenior := rfl

theorem execReentry_of_supplied {k : CatchUp} {e : Nat} (hk : s.twin.catchUp = some k) (hr : k.reentry = some e) (hec : k.echoed = true)
    (hstep : k.step = .exact) (hsup : k.supplying = false) (ht : s.advance e = t) :
    execReentry s = .next (t.outputsReleased.probationEnded.joined e) := by
  unfold execReentry
  rw [hk]
  dsimp only
  rw [hr]
  dsimp only
  rw [hec, hstep, hsup, ht, if_neg (by decide), if_neg Bool.false_ne_true]
  rfl

theorem execReentry_of_supplying {k : CatchUp} {e : Nat} (hk : s.twin.catchUp = some k) (hr : k.reentry = some e) (hec : k.echoed = true)
    (hstep : k.step = .exact) (hsup : k.supplying = true) (ht : s.advance e = t) (hs : t.sending = true) :
    execReentry s = .next (t.joined e) := by
  unfold execReentry
  rw [hk]
  dsimp only
  rw [hr]
  dsimp only
  rw [hec, hstep, hsup, ht, hs, if_neg (by decide), if_pos rfl, if_pos rfl]

theorem State.joined_safety (s : State) (e : Nat) : (s.joined e).safety = s.safety := s.joined_same e (q := .safety) (by decide)

theorem State.joined_life (s : State) (e : Nat) : (s.joined e).life = s.life := s.joined_same e (q := .life) (by decide)

theorem State.joined_leader (s : State) (e : Nat) : (s.joined e).time.leader = s.isSenior := by rw [State.joined_time]

theorem State.joined_now (s : State) (e : Nat) : (s.joined e).now = s.now := by
  unfold State.now
  rw [State.joined_time]

theorem State.outputsReleased_isSenior (s : State) : s.outputsReleased.isSenior = s.isSenior := by
  have hchain : s.outputsReleased.chain = s.chain := s.outputsReleased_same (q := .chain) (by decide)
  have hlife : s.outputsReleased.life = s.life := s.outputsReleased_same (q := .life) (by decide)
  have hcls : s.outputsReleased.cls = s.cls := by simp only [State.cls, hchain, hlife]
  simp only [State.isSenior, hcls]

theorem State.outputsReleased_time (s : State) : s.outputsReleased.time = s.time := s.outputsReleased_same (q := .time) (by decide)

theorem State.rejoined_does (t : State) (e : Nat) : (t.outputsReleased.probationEnded.joined e).safety.bridges = false
    ∧ (t.outputsReleased.probationEnded.joined e).life.probation = false
    ∧ (t.outputsReleased.probationEnded.joined e).time.leader = t.isSenior
    ∧ (t.outputsReleased.probationEnded.joined e).now = t.now := by
  rw [State.joined_safety, State.joined_life, State.joined_leader, State.joined_now, State.probationEnded_safety,
    State.probationEnded_isSenior]
  refine ⟨t.outputsReleased_bridges, rfl, t.outputsReleased_isSenior, State.now_of_time _ ?_⟩
  rw [State.probationEnded_time, State.outputsReleased_time]

/-! ### Attempts -/

theorem State.noticeReady_catchUp {k : CatchUp} (hk : t.twin.catchUp = some k) : t.noticeReady.twin.catchUp
    = some { k with reentry := some (atOrAfter (t.now + 10000000) 4000000), echoed := false, step := .exact } := by
  unfold State.noticeReady
  dsimp only
  generalize atOrAfter (t.now + 10000000) 4000000 = e
  exact State.catchStep_of_some ((State.pairSend_catchUp ..).trans (State.onCatch_of_some hk _)) _

theorem State.noticeReady_now (t : State) : t.noticeReady.now = t.now := by
  unfold State.noticeReady
  dsimp only
  generalize atOrAfter (t.now + 10000000) 4000000 = e
  have hsent : ((t.onCatch (fun c => { c with reentry := some e, echoed := false })).pairSend (.notice 3 t.twin.cause (t.eventAt e))).time
      = t.time := State.pairSend_same _ _ (q := .time) (by decide)
  exact State.now_of_time _ (Part.same_trans (q := .time) hsent (State.catchStep_same _ _ (by decide)))

theorem execReentryEchoTimeout_of_silent {k : CatchUp} {e : Nat} (hk : s.twin.catchUp = some k) (hr : k.reentry = some e) (hec : k.echoed = false)
    (hsup : k.supplying = false) (ht : s.advance (e - 5000000) = t) : execReentryEchoTimeout s = .next t.noticeReady := by
  unfold execReentryEchoTimeout
  rw [hk]
  dsimp only
  rw [hr]
  dsimp only
  rw [hec, hsup, ht, if_neg (by decide)]

theorem State.beginCatchUp_does (t : State) (n : Nat) : (t.beginCatchUp n).twin.st = .catching
    ∧ ∃ j, (t.beginCatchUp n).twin.catchUp = some j ∧ j.attempt = n ∧ j.step = .restarting := by
  unfold State.beginCatchUp
  dsimp only
  generalize hu : t.onTwin _ = u
  obtain ⟨m, hm⟩ := u.pairSend_twin (.notice 2 u.twin.cause 0)
  have htwin : (u.pairSend (.notice 2 u.twin.cause 0)).sendProgress.twin = { u.twin with pseq := m } :=
    Eq.trans (State.sendProgress_same _ (q := .twin) (by decide)) hm
  rw [htwin, ← hu]
  exact ⟨rfl, _, rfl, rfl, rfl⟩

theorem State.stayOut_twin (t : State) (e : EvDef) (a : List Int) : (t.stayOut e a).twin
    = Twin.step { t.twin with st := .withdrawn } .failed :=
  State.catchStep_twin _ _

theorem State.stayOut_saw (t : State) (e : EvDef) (a : List Int) : (t.stayOut e a).Saw e a :=
  (State.raise_saw t e a).mono (.trans (t := (t.raise e a).onTwin (fun x => { x with st := .withdrawn })) (.of_eq rfl rfl)
    (State.catchStep_records ..))

theorem State.stayOut_life (t : State) (e : EvDef) (a : List Int) : (t.stayOut e a).life = t.life :=
  State.catchStep_same ((t.raise e a).onTwin (fun x => { x with st := .withdrawn })) .failed (q := .life) (by decide)

section
variable {k : CatchUp} (hk : s.twin.catchUp = some k) (hsup : k.supplying = false) (hst : s.twin.st = .catching) (hstep : k.step ≠ .exact)
  (ht : s.advance (k.startedAt + Fld.pairCfg_CATCH_S s.cfg * 1000000000) = t)
include hk hsup hst hstep ht

theorem execCatchupTimeout_of_more (hat : k.attempt < 3) : execCatchupTimeout s = .next (t.beginCatchUp (k.attempt + 1)) := by
  unfold execCatchupTimeout
  rw [hk]
  dsimp only
  rw [hsup, hst, decide_eq_false hstep, ht, if_neg (by decide), if_pos hat]

theorem execCatchupTimeout_of_last (hat : 3 ≤ k.attempt) (hprob : t.life.probation = false) :
    execCatchupTimeout s = .next (t.stayOut Ev.catchupFailed [3]) := by
  unfold execCatchupTimeout
  rw [hk]
  dsimp only
  rw [hsup, hst, decide_eq_false hstep, ht, if_neg (by decide), if_neg (Nat.not_lt.mpr hat), State.stayOut_life, hprob,
    if_neg Bool.false_ne_true]

end

/-- Settles O47: the notices by a frame's first copy, the rest by the catch-up's step and side. -/
theorem pairCatchUp : Obligations.PairCatchUp := by
  unfold Obligations.PairCatchUp
  refine ⟨?_, ?_, ?_, ?_, ?_, ?_, ?_, ?_, ?_, ?_, ?_, ?_, ?_, ?_, ?_, ?_, ?_⟩
  · intro s h c hp hn hj
    have hleft := State.partnerLeaves_of_joined (s := (s.pairHear h).1) hj c.toNat
    obtain ⟨f, hf⟩ := execNoticeWithdrawing_of_left hp hn hleft
    exact ⟨_, hf, rfl, hj⟩
  · intro s h c hp hn hj
    have hleft := State.partnerLeaves_of_solo (s := (s.pairHear h).1) hj c.toNat
    obtain ⟨f, hf⟩ := execNoticeWithdrawing_of_left hp hn hleft
    exact ⟨_, hf, rfl⟩
  · exact fun s c h hs => State.becomesAlone_does h hs
  · intro s h c hp hn hs hk
    exact ⟨_, execNoticeRestarting_of_sending hp hn hs hk rfl, _, congrArg Twin.catchUp (State.sendProgress_same _ (q := .twin) (by decide)),
      rfl, rfl, rfl⟩
  · exact fun s k _ hk hsup hstep => execCatchupSnapshot_of_restarting hk hsup hstep rfl
  · exact fun s h i o b k hp hn hst hk hsup hstep hi => execPairCatchupFrame_of_transfer hp hn hst hk hsup hstep hi
  · exact CatchUp.take_item_same
  · exact fun c i j b h => c.take_item_ne b h
  · intro s k hk hstep hsup
    refine ⟨s.catchStep .comparing, ?_, ?_⟩
    · refine congrArg Host.Outcome.next ?_
      rw [hk]
      exact if_pos ⟨hstep, hsup⟩
    · exact State.catchStep_of_some hk _
  · exact fun s h e k hp hn hk hsup he => execNoticeReady_of_supplying hp hn hk hsup he
  · exact fun s h e k hp hn hk hr he => execNoticeEcho_of_reentry hp hn hk hr he
  · intro s k e hk hr hec hstep hsup
    obtain ⟨hst, htx, hcatch⟩ := (s.advance e).outputsReleased.probationEnded.joined_twin e
    obtain ⟨hb, hprob, hlead, hnow⟩ := (s.advance e).rejoined_does e
    refine ⟨_, execReentry_of_supplied hk hr hec hstep hsup rfl, hst, htx, hcatch, hb, hprob, hlead.trans ?_, hnow⟩
    unfold State.isSenior
    rw [State.advance_cls]
  · intro s k e hk hr hec hstep hsup hs
    obtain ⟨hst, -, hcatch⟩ := (s.advance e).joined_twin e
    exact ⟨_, execReentry_of_supplying hk hr hec hstep hsup rfl ((State.advance_sending s e).trans hs), hst, hcatch⟩
  · intro s k e hk hr hec hsup
    have hk' : (s.advance (e - 5000000)).twin.catchUp = some k := by rw [State.advance_twin]; exact hk
    refine ⟨_, execReentryEchoTimeout_of_silent hk hr hec hsup rfl, _, State.noticeReady_catchUp hk', rfl, rfl, ?_⟩
    rw [State.noticeReady_now]
  · intro s k hk hsup hst hstep hat
    exact ⟨_, execCatchupTimeout_of_more hk hsup hst hstep rfl hat, State.beginCatchUp_does _ _⟩
  · intro s k hk hsup hst hstep hat hprob
    refine ⟨_, execCatchupTimeout_of_last hk hsup hst hstep rfl hat (by rw [State.advance_life]; exact hprob), ?_, State.stayOut_saw .., ?_⟩
    · rw [State.stayOut_twin]
      rfl
    · rw [State.stayOut_twin, State.advance_twin]
      exact congrArg (Option.map _) hk
  · exact fun s => ⟨_, rfl, rfl⟩

end

end Sys2Proof.Machine
end

section
/-! PROOFS. Leaving the pair, the solo state and the exposure window (16 R423 to R437, 20 R498). -/
namespace Sys2Proof.Machine

section
variable {s t : State}

/-! ### Withdrawals of the last 24 h (R427) -/

theorem countedWithdrawals_cons_of_counted {c : Nat} (hc : c ≠ 10) (n : Nat) (l : List (Nat × Nat)) :
    countedWithdrawals ((n, c) :: l) = countedWithdrawals l + 1 := by
  unfold countedWithdrawals
  rw [List.filter_cons, if_pos (decide_eq_true hc), List.length_cons]

theorem countedWithdrawals_cons_le (e : Nat × Nat) (l : List (Nat × Nat)) : countedWithdrawals (e :: l) ≤ countedWithdrawals l + 1 := by
  unfold countedWithdrawals
  rw [List.filter_cons]
  split
  · exact Nat.le_of_eq (List.length_cons ..)
  · omega

theorem State.withdraw_third {c : Nat} (hj : s.twin.st = .joined) (hc : c ≠ 10)
    (hn : countedWithdrawals (s.twin.history.filter (fun e => decide (s.now < e.1 + day))) = 2) :
    (s.withdraw c false).twin.st = .retired ∧ (s.withdraw c false).Saw Ev.twinRetired [c] := by
  have hcount : countedWithdrawals (s.withdrawals c) = 3 := (countedWithdrawals_cons_of_counted hc ..).trans (congrArg (· + 1) hn)
  have hret : s.retires c false = true := by
    unfold State.retires
    rw [hcount, decide_eq_true hc]
    rfl
  have hpres := State.present_of_joined hj
  obtain ⟨n, htwin⟩ := State.withdraw_twin hpres c false
  refine ⟨?_, ?_⟩
  · rw [htwin, hret]
    rfl
  · rw [State.withdraw_eq hpres, hret, hcount, if_pos (by decide)]
    exact (State.raise_saw ..).mono (State.pairSend_records _)

theorem State.withdraw_early {c : Nat} (hj : s.twin.st = .joined)
    (hn : countedWithdrawals (s.twin.history.filter (fun e => decide (s.now < e.1 + day))) < 2) :
    (s.withdraw c false).twin.st = .withdrawn := by
  have hcount : ¬ 3 ≤ countedWithdrawals (s.withdrawals c) := by
    have hle : countedWithdrawals (s.withdrawals c) ≤ _ := countedWithdrawals_cons_le (s.now, c) _
    omega
  have hret : s.retires c false = false := by
    unfold State.retires
    rw [decide_eq_false hcount, Bool.and_false]
    rfl
  obtain ⟨n, htwin⟩ := State.withdraw_twin (State.present_of_joined hj) c false
  rw [htwin, hret]
  rfl

/-! ### Both paths lost, and one recovered (R434, R437) -/

/-- The twin in the solo state, with its record. -/
def State.solo (s : State) : State :=
  ((s.onTwin (fun x => { x with st := .solo, partnerIn := false, digestPeer := none })).onTime TimeBase.leads).raise Ev.twinSolo []

theorem execPathsLost_of_lost (hj : s.twin.st = .joined) (hp : s.pathAlive = false) (hb : s.twin.becomeAlone = none) :
    execPathsLost s = .next (if s.witness then
      (s.onTwin (fun x => { x with silent := true, becomeAlone := some 0, partnerIn := false })).raise Ev.twinLost []
    else s.solo.exposureOpens 0) := by
  have hj' : s.isJoined = true := decide_eq_true hj
  unfold execPathsLost
  rw [hj', hp, hb, if_neg (by decide)]
  rfl

theorem execPathRecovered_of_near {o : Int} (hst : s.twin.st = .solo) (ho : mag o ≤ 1000) : execPathRecovered o s =
    .next ((s.onTwin (fun x => { x with st := .comparing, digestOwn := none, digestPeer := none })).onTime (fun x => { x with
      leader := s.isSenior })) := by
  unfold execPathRecovered
  rw [if_neg (not_not_intro hst), if_neg (Nat.not_lt.mpr ho)]

theorem execPathRecovered_of_far {o : Int} (hst : s.twin.st = .solo) (ho : 1000 < mag o) : execPathRecovered o s =
    .next (if s.isJunior then s.withdraw 8 false else s) := by
  unfold execPathRecovered
  rw [if_neg (not_not_intro hst), if_pos ho]

theorem State.present_of_solo (h : s.twin.st = .solo) : s.twin.st ≠ .withdrawn ∧ s.twin.st ≠ .retired ∧ s.twin.st ≠ .catching := by
  rw [h]
  decide

/-! ### A withdrawn twin's outputs and bridges (R425) -/

theorem State.withdraw_outputs (hj : s.twin.st = .joined) (c : Nat) : (s.withdraw c false).twin.bridging = true
    ∧ (s.withdraw c false).safety.bridges = true ∧ (s.withdraw c false).safety.outs.all (fun o => !o.hi && !o.lo) = true
    ∧ (s.withdraw c false).safety.loopSw1 = s.safety.loopSw1 := by
  have hpres := State.present_of_joined hj
  obtain ⟨n, htwin⟩ := State.withdraw_twin hpres c false
  rw [htwin, State.withdraw_safety hpres]
  refine ⟨rfl, rfl, ?_, rfl⟩
  simp [Safety.left]

/-! ### The exposure window (20 R498) -/

/-- The notice given; its record names the instant at which the window opened. -/
def State.exposureTold (t : State) (x : Exposure) : State :=
  (t.onTwin (fun y => { y with exposure := { x with noticed := true } })).raise Ev.exposureNotice [x.openEvent]

theorem State.exposureTold_does (t : State) (x : Exposure) : (t.exposureTold x).twin.exposure.noticed = true
    ∧ (t.exposureTold x).Saw Ev.exposureNotice [x.openEvent] ∧ (t.exposureTold x).now = t.now :=
  ⟨rfl, State.raise_saw .., State.now_of_time _ rfl⟩

section
variable {a : Nat} (ha : s.twin.exposure.openAt = some a)
include ha

theorem execExposureNotice_of_due (hn : s.twin.exposure.noticed = false) (htx : s.twin.txOff = false) (ht : s.advance (a + 20 * day) = t) :
    execExposureNotice s = .next (t.exposureTold s.twin.exposure) := by
  unfold execExposureNotice State.exposureTold
  dsimp only
  rw [ha]
  dsimp only
  rw [hn, htx, ht, if_neg (by decide)]

/-- The first record past 30 days, and its repetition. -/
def State.exposureOver (t : State) (x : Exposure) (n : Nat) : State :=
  (t.onTwin (fun y => { y with exposure := { x with exceededAt := some n } })).raise Ev.exposureExceeded [x.openEvent]

theorem execExposureExceeded_of_first (he : s.twin.exposure.exceededAt = none) (htx : s.twin.txOff = false) {n : Nat} (hn : a + 30 * day = n)
    (ht : s.advance n = t) : execExposureExceeded s = .next (t.exposureOver s.twin.exposure n) := by
  unfold execExposureExceeded State.exposureOver
  dsimp only
  rw [ha]
  dsimp only
  rw [htx, he]
  dsimp only
  rw [hn, ht, if_neg (by decide)]

theorem execExposureExceeded_of_again {b : Nat} (he : s.twin.exposure.exceededAt = some b) (htx : s.twin.txOff = false) {n : Nat}
    (hn : b + day = n) (ht : s.advance n = t) : execExposureExceeded s = .next (t.exposureOver s.twin.exposure n) := by
  unfold execExposureExceeded State.exposureOver
  dsimp only
  rw [ha]
  dsimp only
  rw [htx, he]
  dsimp only
  rw [hn, ht, if_neg (by decide)]

/-- The window closed; its record carries its age in seconds. -/
def State.exposureShut (t : State) (a : Nat) : State :=
  (t.onTwin (fun y => { y with exposure := ⟨none, 0, none, false, none⟩ })).raise Ev.exposureClosed [((t.now - a) / 1000000000 : Nat)]

theorem execExposureClosed_of_joined {j : Nat} (hsince : s.twin.exposure.joinedSince = some j) (hj : s.twin.st = .joined)
    (ht : s.advance (j + day) = t) : execExposureClosed s = .next (t.exposureShut a) := by
  have hj' : s.isJoined = true := decide_eq_true hj
  unfold execExposureClosed
  dsimp only
  rw [ha, hsince]
  dsimp only
  rw [hj', ht, if_neg (by decide)]
  rfl

end

theorem State.exposureShut_does (t : State) (a : Nat) : (t.exposureShut a).twin.exposure.openAt = none
    ∧ (t.exposureShut a).Saw Ev.exposureClosed [(((t.exposureShut a).now - a) / 1000000000 : Nat)] := by
  refine ⟨rfl, ?_⟩
  have hnow : (t.exposureShut a).now = t.now := State.now_of_time _ rfl
  rw [hnow]
  exact State.raise_saw ..

/-- Settles O48: leaving by the laws of a withdrawal, the exposure window by its instants. -/
theorem pairLeaving : Obligations.PairLeaving := by
  unfold Obligations.PairLeaving
  refine ⟨?_, ?_, ?_, ?_, ?_, ?_, ?_, ?_, ?_, ?_, ?_, ?_, ?_, ?_⟩
  · intro s hj hp hb hw
    obtain ⟨x, hx⟩ := s.solo.exposureOpens_twin 0
    have hsaw : s.solo.Saw Ev.twinSolo [] := State.raise_saw ..
    refine ⟨_, (execPathsLost_of_lost hj hp hb).trans (congrArg Host.Outcome.next (if_neg (by rw [hw]; exact Bool.false_ne_true))),
      congrArg Twin.st hx, hsaw.mono (State.exposureOpens_records ..)⟩
  · intro s hj hp hb hw
    exact ⟨_, (execPathsLost_of_lost hj hp hb).trans (congrArg Host.Outcome.next (if_pos hw)), rfl, rfl, State.raise_saw ..⟩
  · exact fun s o hst ho => ⟨_, execPathRecovered_of_near hst ho, rfl, rfl⟩
  · intro s o hst ho hjun
    obtain ⟨hleft, -, hcause⟩ := State.withdraw_leaves (State.present_of_solo hst) 8 false
    exact ⟨_, (execPathRecovered_of_far hst ho).trans (congrArg Host.Outcome.next (if_pos hjun)), hleft, hcause⟩
  · intro s o hst ho hjun
    exact ⟨_, (execPathRecovered_of_far hst ho).trans (congrArg Host.Outcome.next (if_neg (by rw [hjun]; exact Bool.false_ne_true))), rfl⟩
  · exact fun s k p => ⟨_, rfl, rfl⟩
  · exact fun s k p hs => ⟨_, congrArg Host.Outcome.next (if_pos hs), rfl⟩
  · intro s k p hs hj
    have hpres := State.present_of_joined hj
    obtain ⟨hleft, htx, -⟩ := State.withdraw_leaves hpres 9 false
    obtain ⟨hbridging, hbridges, houts, hloop⟩ := State.withdraw_outputs hj 9
    refine ⟨s.withdraw 9 false, congrArg Host.Outcome.next (if_neg (fun h => Bool.false_ne_true (hs.symm.trans h))), hleft, htx, hbridging, hbridges, houts, hloop,
      State.withdraw_same s 9 false (q := .gate) (by decide), State.withdraw_same s 9 false (q := .ledger) (by decide),
      State.withdraw_saw hpres 9 false⟩
  · exact fun s c hj hc hn => State.withdraw_third hj hc hn
  · exact fun s c hj hn => State.withdraw_early hj hn
  · intro s a ha hn htx
    exact ⟨_, execExposureNotice_of_due ha hn htx rfl, State.exposureTold_does ..⟩
  · exact fun s a ha he htx => ⟨_, execExposureExceeded_of_first ha he htx rfl rfl, rfl, State.raise_saw ..⟩
  · exact fun s a b ha he htx => ⟨_, execExposureExceeded_of_again ha he htx rfl rfl, rfl⟩
  · exact fun s a j ha hs hj => ⟨_, execExposureClosed_of_joined ha hs hj rfl, (s.advance (j + day)).exposureShut_does a⟩

end

end Sys2Proof.Machine
end

section
/-! PROOFS. The recorder's clear register (17 R446, Table 17.6): the length of its answer. -/
namespace Sys2Proof.Machine

/-! ### The bytes of the header and the entries -/

theorem ClearEntry.bytes_length (e : ClearEntry) : e.bytes.length = 64 := by
  rw [ClearEntry.bytes, sealed_length, packBytes_length]
  rfl

theorem padTo_length (n : Nat) (l : List Byte) : (padTo n l).length = max n l.length := by
  rw [padTo, List.length_append, List.length_replicate]
  omega

/-- What CLEAR_REG answers. -/
def Recorder.clearRegBytes (r : Recorder) : List Byte :=
  padTo 4160 (sealed (packBytes [(4, r.hdrNext), (4, r.firstRseq.toNat), (4, r.suppressed.count), (8, r.suppressed.earliest),
    (1, r.suppressed.sev), (1, r.clears.length), (2, 0), (4, r.powerLoss.count), (8, r.powerLoss.earliest), (8, r.powerLoss.latest),
    (1, r.powerLoss.sev), (15, 0)]) ++ r.clears.flatMap ClearEntry.bytes)

/-- The answer holds every entry, and 4,160 bytes have room for 64. -/
theorem Recorder.clearRegBytes_length (r : Recorder) : r.clearRegBytes.length = max 4160 (64 + 64 * r.clears.length) := by
  have hentries : (r.clears.flatMap ClearEntry.bytes).length = 64 * r.clears.length := by
    simp only [List.length_flatMap, ClearEntry.bytes_length, List.map_const', List.sum_replicate_nat]
    omega
  rw [Recorder.clearRegBytes, padTo_length, List.length_append, sealed_length, packBytes_length, hentries]
  rfl

theorem execClearReg_of_room {s t : State} {q : Fin 32} {d : Desc} (h : s.Turn q 0x60 (op0 5) d t) (hl : 4160 ≤ d.respLen) :
    execClearReg q s = .next ((t.touchFreeze false).ends q 4160 0 t.rec_.clearRegBytes) :=
  congrArg Host.Outcome.next (hostRow_done h rfl (.inr hl))

/-! ### A response that no completion follows -/

/-- A queue whose completion ring is full, with one descriptor in the module and none announced to it while it drains: its response is the
last thing that leaves. -/
theorem State.ends_out {u : State} {q need flags : Nat} {x : Held} {resp : List Byte} (hq : q < u.host.queues.length)
    (hin : (u.queue q).inMod = [x]) (hfull : u.cqEntries q ≤ (u.queue q).cqUsed) (hrun : (u.queue q).running = false) (hn : need ≠ 0) :
    (u.ends q need flags resp).out = .response q resp :: u.out := by
  have hhead : ((u.emit (.response q resp)).queue q).inMod[0]? = some x := congrArg (fun l : List Held => l[0]?) hin
  obtain ⟨w, -, ⟨-, hroom, -⟩ | ⟨-, hout, dr, hqueue⟩⟩ := State.complete_queue (s := u.emit (.response q resp)) hq hhead St.ok 0 need flags
  · exact absurd hroom (Nat.not_lt.mpr hfull)
  unfold State.ends
  rw [if_neg hn]
  generalize (u.emit (.response q resp)).complete q 0 St.ok 0 need flags = v at hout hqueue
  have hidle : (v.queue q).running = false := by rw [hqueue]; exact hrun
  have hempty : (v.queue q).inMod = [] := by rw [hqueue]; exact congrArg (fun l : List Held => l.eraseIdx 0) hin
  have hfetch : v.fetch q = v := by
    unfold State.fetch
    dsimp only
    rw [hidle]
    rfl
  rw [State.fetchAndPump, hfetch, hempty]
  exact hout

/-! ### A clear register with 65 entries -/

/-- CLEAR_REG's descriptor with a response of 8,192 bytes. -/
def clearRegDesc : Desc where
  cmdId := 0
  opcode := 0x60
  flags := 0
  reserved := none
  dataAddr := 0
  dataLen := 0
  respLen := 8192
  respAddr := 0
  arg := [5]
  data := []
  dmaOk := true
  sigOk := false

/-- Queue 0 with it at its head, while it drains and its completion ring is full. -/
def clearRegQueue : Queue := { Queue.reset with
  draining := true, cqUsed := 2 ^ 16, inMod := [⟨clearRegDesc, true, 0, none, false⟩] }

/-- A state that no sequence of clears leaves (R449 refuses the 65th), with 65 entries in the clear register. -/
def clearRegOverfull : State := { State.reset with
  rec_ := { State.reset.rec_ with clears := List.replicate 65 ⟨0, 0, 0, 0, 0, 0, 0, 0⟩ }
  host := { State.reset.host with queues := State.reset.host.queues.set 0 clearRegQueue } }

theorem clearRegOverfull_turn : clearRegOverfull.Turn 0 0x60 (op0 5) clearRegDesc clearRegOverfull where
  awake := by decide +kernel
  head := by decide +kernel
  desc := rfl
  auth := rfl

/-- The response to CLEAR_REG in that state, whatever its bytes, is what leaves last. -/
theorem clearRegOverfull_ends (l : List Byte) : ((clearRegOverfull.touchFreeze false).ends 0 4160 0 l).out
    = .response 0 l :: clearRegOverfull.out :=
  State.ends_out (x := ⟨clearRegDesc, true, 0, none, false⟩) (by decide +kernel) rfl (by decide +kernel) rfl (by decide)

/-- Refutes O49: its clause on CLEAR_REG asks for an answer of 4,160 bytes in every state, also in one whose clear register holds more than
the 64 entries of Table 17.6; the answer then carries them all and is longer. -/
theorem not_recorderCommands : ¬ Obligations.RecorderCommands := by
  unfold Obligations.RecorderCommands
  intro h
  obtain ⟨-, -, -, -, -, -, -, -, -, -, -, -, -, -, -, -, -, -, hclearReg, -⟩ := h
  obtain ⟨l, hexec, hlen, -⟩ := hclearReg _ _ 0 _ clearRegOverfull_turn (by decide)
  have hout := Host.Outcome.next.inj ((execClearReg_of_room clearRegOverfull_turn (by decide)).symm.trans hexec)
  have hbytes : clearRegOverfull.rec_.clearRegBytes = l := by
    have hcons := (clearRegOverfull_ends _).symm.trans ((congrArg State.out hout).trans (clearRegOverfull_ends l))
    obtain ⟨hresp, -⟩ := List.cons.inj hcons
    exact (Out.response.inj hresp).2
  have hlong : clearRegOverfull.rec_.clearRegBytes.length = max 4160 (64 + 64 * 65) := Recorder.clearRegBytes_length _
  rw [hbytes, hlen] at hlong
  exact absurd hlong (by decide)

end Sys2Proof.Machine
end

section
/-! PROOFS. A start that enters service before its class is taken (18 R458, 01 R36). -/
namespace Sys2Proof.Machine

/-- A starting module whose identity names it senior, and whose identity formed last, not taken yet, makes it a single module. -/
def State.startingUntaken : State := { State.reset with
  chain := { State.reset.chain with identity := 1, identityNext := some 0 }
  ledger := { State.reset.ledger with open_ := true }
  life := { State.reset.life with phase := .starting } }

/-- In service the identity in force counts (R36): the module is a twin that acts alone. -/
theorem startingUntaken_enters : ∃ t, exec .enterService State.startingUntaken = .next t ∧ t.twin.st = .alone :=
  ⟨_, rfl, by decide +kernel⟩

/-- Refutes O51: its clause on ENTER_SERVICE of a module that is no twin (`s.isPair = false`) asks for the state single. `State.cls` reads the
identity formed last before service and the identity in force from then on; where a cycle boundary has not taken the first for the second,
entering service makes the module a twin, alone. -/
theorem not_startCommands : ¬ Obligations.StartCommands := by
  unfold Obligations.StartCommands
  intro h
  obtain ⟨-, -, -, -, -, -, -, -, -, henter, -⟩ := h
  obtain ⟨t, hexec, -, -, -, -, hst, -⟩ := henter State.startingUntaken rfl (by decide +kernel) (by decide +kernel) (by decide +kernel)
  obtain ⟨u, hnext, halone⟩ := startingUntaken_enters
  obtain rfl := Host.Outcome.next.inj (hexec.symm.trans hnext)
  exact absurd (hst.symm.trans halone) (by decide)

end Sys2Proof.Machine
end

section
/-! PROOFS. A start's first step (18 R452), the supply, the die and the warden (20 R488, R490, 10 R279, 02 R60). -/
namespace Sys2Proof.Machine

section
variable {s t : State}

/-! ### What t0 leaves (R452) -/

/-- The module at t0, its pins not released yet. -/
def State.atT0 (s : State) (osc : Bool) : State :=
  let ns := match s.ledger.newest with | some i => nsOfEvent i.w | none => 0
  let t := ((s.restart1.restart2).restart3)
  let u := (({ t with time := TimeBase.start ns osc }).onLife (fun l => l.restart ns)).onSafety (fun x => { x with bridges := t.storedPair })
  u.onTime (fun x => { x with startWait := some (ns + Fld.timeCfg_START_WAIT u.cfg * 1000000000) })

/-- A die shutdown that was latched is recorded. -/
def State.shutdownTold (s : State) (e : Nat) : State :=
  (s.onTherm (fun x => { x with die := { x.die with shutdown := none } })).raise Ev.dieShutdown [e]

theorem State.beginStart_cases (s : State) (osc : Bool) : s.beginStart osc = (s.flushEvents.atT0 osc).releasePins
    ∨ ∃ e, s.beginStart osc = (s.flushEvents.atT0 osc).releasePins.shutdownTold e := by
  unfold State.beginStart
  change (match (s.flushEvents.atT0 osc).releasePins.therm.die.shutdown with
    | some e => (s.flushEvents.atT0 osc).releasePins.shutdownTold e
    | none => (s.flushEvents.atT0 osc).releasePins) = _ ∨ ∃ e, (match (s.flushEvents.atT0 osc).releasePins.therm.die.shutdown with
    | some e => (s.flushEvents.atT0 osc).releasePins.shutdownTold e
    | none => (s.flushEvents.atT0 osc).releasePins) = _
  cases (s.flushEvents.atT0 osc).releasePins.therm.die.shutdown with
  | none => exact .inl rfl
  | some e => exact .inr ⟨e, rfl⟩

/-- A part other than the thermal one, the recorder and what leaves is as t0 makes it. -/
theorem State.beginStart_same (s : State) (osc : Bool) {q : Part} (hq : q ∉ [Part.therm, .rec_, .out]) :
    q.same (s.flushEvents.atT0 osc) (s.beginStart osc) := by
  have hpins : q.same (s.flushEvents.atT0 osc) (s.flushEvents.atT0 osc).releasePins :=
    State.releasePins_same _ (fun h => hq (by revert h; cases q <;> decide))
  obtain h | ⟨e, h⟩ := s.beginStart_cases osc
  · rw [h]
    exact hpins
  · rw [h]
    refine Part.same_trans hpins ?_
    cases q with
    | therm => exact absurd (by decide) hq
    | rec_ => exact absurd (by decide) hq
    | _ => rfl

theorem State.beginStart_life (s : State) (osc : Bool) : ∃ n, (s.beginStart osc).life = s.flushEvents.life.restart n :=
  ⟨_, s.beginStart_same osc (q := .life) (by decide)⟩

theorem State.beginStart_dieOn (s : State) (osc : Bool) : (s.beginStart osc).therm.die.off = false := by
  have hpins : (s.flushEvents.atT0 osc).releasePins.therm = s.flushEvents.therm.restart :=
    State.releasePins_same (s.flushEvents.atT0 osc) (q := .therm) (by decide)
  obtain h | ⟨e, h⟩ := s.beginStart_cases osc
  · rw [h, hpins]
    rfl
  · rw [h]
    exact congrArg (fun x : Therm => x.die.off) hpins

theorem State.beginStart_twin (s : State) (osc : Bool) : (s.beginStart osc).twin = s.flushEvents.twin.restart :=
  s.beginStart_same osc (q := .twin) (by decide)

theorem State.beginStart_safety (s : State) (osc : Bool) : ∃ b, (s.beginStart osc).safety = { Safety.reset with bridges := b } :=
  ⟨_, s.beginStart_same osc (q := .safety) (by decide)⟩

/-! ### The supply -/

theorem execSupplyHigh_of_first {n : Nat} (hp : s.life.phase ≠ .off) (hn : 800 < n) : execSupplyHigh n false s =
    .next ((s.onLife (fun l => { l with supplyHighAt := some s.now })).raise Ev.supplyHigh [n]) :=
  congrArg Host.Outcome.next (if_neg (not_or.mpr ⟨hp, Nat.not_le.mpr hn⟩))

theorem execSupplyHigh_of_again {n a : Nat} (hp : s.life.phase ≠ .off) (hn : 800 < n) (ha : s.life.supplyHighAt = some a)
    (ht : s.advance (a + 3600000000000) = t) : execSupplyHigh n true s =
    .next ((t.onLife (fun l => { l with supplyHighAt := some t.now })).raise Ev.supplyHigh [n]) := by
  unfold execSupplyHigh
  rw [if_neg (not_or.mpr ⟨hp, Nat.not_le.mpr hn⟩), ha]
  dsimp only
  rw [ht]

/-- A record of the supply, taken at its instant. -/
theorem State.supplyTold_does (t : State) (n : Nat) :
    ((t.onLife (fun l => { l with supplyHighAt := some t.now })).raise Ev.supplyHigh [n]).now = t.now
    ∧ ((t.onLife (fun l => { l with supplyHighAt := some t.now })).raise Ev.supplyHigh [n]).life.supplyHighAt
      = some ((t.onLife (fun l => { l with supplyHighAt := some t.now })).raise Ev.supplyHigh [n]).now
    ∧ ((t.onLife (fun l => { l with supplyHighAt := some t.now })).raise Ev.supplyHigh [n]).Saw Ev.supplyHigh [n] := by
  have hnow : ((t.onLife (fun l => { l with supplyHighAt := some t.now })).raise Ev.supplyHigh [(n : Int)]).now = t.now :=
    State.now_of_time _ rfl
  exact ⟨hnow, congrArg some hnow.symm, State.raise_saw ..⟩

theorem execHoldupMeasured_of_on {n : Nat} (hp : s.life.phase ≠ .off) : execHoldupMeasured n s =
    .next (if n < 300 then (s.onLife (fun l => { l with holdupLow := decide (n < 250) })).raise Ev.holdupLow [n]
      else s.onLife (fun l => { l with holdupLow := decide (n < 250) })) :=
  congrArg Host.Outcome.next (if_neg hp)

theorem execSupplyOvervoltage_of_on {i c h : Bool} {w : Nat} (hp : s.life.phase ≠ .off) : execSupplyOvervoltage i c h w s =
    .next ((s.powerDown i c h w).onLife (fun l => { l with inputOpen := true })) :=
  congrArg Host.Outcome.next (if_neg hp)

/-! ### The die and the loop bridges -/

theorem execDieCoolRestart_of_cool {a : Nat} (ho : s.therm.die.off = true) (hc : s.therm.die.coolFrom = some a) :
    execDieCoolRestart s = .next ((s.advance (a + 60000000000)).beginStart s.time.rateValid) := by
  unfold execDieCoolRestart
  rw [ho, hc]

theorem execDieCoolRestart_of_on (ho : s.therm.die.off = false) : execDieCoolRestart s = .next s := by
  unfold execDieCoolRestart
  rw [ho]

/-- The bridges read closed: the loop switches open. -/
def State.bridged (s : State) : State := s.loopsOpen.onTwin (fun x => { x with bridging := false })

theorem execLoopBridgeClosed_of_bridging (h : s.twin.bridging = true) : execLoopBridgeClosed s =
    .next (if s.twin.st = .retired ∨ s.life.phase = .off ∨ s.therm.die.shutdown.isSome = true then s.bridged
      else s.bridged.beginStart s.time.rateValid) := by
  unfold execLoopBridgeClosed
  rw [h]
  rfl

/-! ### The last records -/

theorem State.storeAll_overflow (l : List (Event × Bool)) (s : State) :
    (l.foldl (fun u e => u.store e.1 e.2 (decide (e.1.code ≠ Ev.recorderCleared.code))) s).rec_.overflow = s.rec_.overflow := by
  refine State.foldl_keeps (g := fun u : State => u.rec_.overflow) (fun u e => ?_) l s
  generalize decide (e.1.code ≠ Ev.recorderCleared.code) = c
  exact (u.store_stored e.1 e.2 c).overflow

theorem State.lastRecords_powerLoss (s : State) (w : Nat) : (s.lastRecords w true).rec_.powerLoss
    = ((s.rec_.holding ++ s.rec_.detected).drop w).foldl Tally.add s.rec_.overflow := by
  have hevents : (s.rec_.holding.map (fun e => (e, true)) ++ s.rec_.detected.map (fun e => (e, false))).map Prod.fst
      = s.rec_.holding ++ s.rec_.detected := by
    simp [Function.comp_def]
  unfold State.lastRecords
  dsimp only
  rw [if_pos rfl, State.storeAll_overflow, ← hevents, ← List.map_drop, List.foldl_map]

/-- Settles O52: a start by what t0 leaves, the supply and the die by their commands' branches. -/
theorem supplyCommands : Obligations.SupplyCommands := by
  unfold Obligations.SupplyCommands
  refine ⟨?_, ?_, ?_, ?_, ?_, ?_, ?_, ?_, ?_, ?_, ?_, ?_, ?_, ?_, ?_, ?_⟩
  · intro s n hp hn
    exact ⟨_, (execHoldupMeasured_of_on hp).trans (congrArg Host.Outcome.next (if_pos hn)), rfl, State.raise_saw ..⟩
  · intro s n hp hn
    refine ⟨_, (execHoldupMeasured_of_on hp).trans (congrArg Host.Outcome.next (if_neg (Nat.not_lt.mpr hn))), ?_, rfl⟩
    exact decide_eq_false (by omega)
  · exact fun s n hp hn => ⟨_, execSupplyHigh_of_first hp hn, rfl, State.raise_saw ..⟩
  · exact fun s n a hp hn ha => ⟨_, execSupplyHigh_of_again hp hn ha rfl, (s.advance (a + 3600000000000)).supplyTold_does n⟩
  · exact fun s n b hn => ⟨_, congrArg Host.Outcome.next (if_pos (.inr hn)), rfl⟩
  · intro s i c h w hp
    obtain ⟨v, hv⟩ := s.powerDown_dark i c h w
    obtain ⟨hphase, hstage, -, houts⟩ := v.dark_does
    refine ⟨_, execSupplyOvervoltage_of_on hp, ?_⟩
    rw [hv]
    exact ⟨hphase, rfl, hstage, houts⟩
  · exact fun s i c h w hp => ⟨_, congrArg Host.Outcome.next (if_pos hp), rfl⟩
  · exact fun s => ⟨_, rfl, rfl⟩
  · intro s a ho hc
    obtain ⟨n, hlife⟩ := (s.advance (a + 60000000000)).beginStart_life s.time.rateValid
    exact ⟨_, execDieCoolRestart_of_cool ho hc, rfl, congrArg Life.phase hlife, State.beginStart_dieOn ..⟩
  · exact fun s ho => ⟨_, execDieCoolRestart_of_on ho, rfl⟩
  · exact fun s => ⟨_, rfl, rfl⟩
  · intro s hb hr hp hd
    have hstays : ¬ (s.twin.st = .retired ∨ s.life.phase = .off ∨ s.therm.die.shutdown.isSome = true) := by
      rw [hd]
      simp [hr, hp]
    obtain ⟨n, hlife⟩ := s.bridged.beginStart_life s.time.rateValid
    obtain ⟨b, hsafety⟩ := s.bridged.beginStart_safety s.time.rateValid
    exact ⟨_, (execLoopBridgeClosed_of_bridging hb).trans (congrArg Host.Outcome.next (if_neg hstays)), congrArg Life.phase hlife,
      congrArg Twin.bridging (s.bridged.beginStart_twin s.time.rateValid), (congrArg Safety.loopSw1 hsafety).trans rfl⟩
  · exact fun s hb hr => ⟨_, (execLoopBridgeClosed_of_bridging hb).trans (congrArg Host.Outcome.next (if_pos (.inl hr))), rfl⟩
  · exact fun s hb => ⟨_, congrArg Host.Outcome.next (if_pos (by rw [hb]; rfl)), rfl⟩
  · exact fun s w => rfl
  · exact State.lastRecords_powerLoss

end

end Sys2Proof.Machine
end

section
/-! PROOFS. Firmware, keys and the service port (18 R463 to R477). -/
namespace Sys2Proof.Machine

section
variable {s t u : State} {d : Desc} {sig : Bool}

/-! ### Chunks (R463) -/

/-- The first chunk of an image discards the staging area. -/
def State.chunkBegun (s : State) (d : Desc) : State := if d.argByte 8 % 2 == 1 then s.onLife (fun l => { l with staged := none }) else s

theorem State.chunkBegun_load (s : State) (d : Desc) : (s.chunkBegun d).life.load = s.life.load := by
  unfold State.chunkBegun
  split <;> rfl

theorem State.chunkBegun_judge (s : State) (d : Desc) (b : List Byte) (sig : Bool) :
    (s.chunkBegun d).judgeFirmware b sig = s.judgeFirmware b sig := by
  unfold State.chunkBegun
  split <;> rfl

theorem State.chunkBegun_of_later (h : d.argByte 8 % 2 ≠ 1) : s.chunkBegun d = s :=
  if_neg (fun hc => h (beq_iff_eq.mp hc))

/-- The state of the firmware shown, where no install and no activation shows its own. -/
def Life.shows (l : Life) (st : FwSt) : Life := match l.fw with
  | .nothing | .loading | .staged | .installed => { l with fw := st }
  | _ => l

theorem Life.shows_eq (l : Life) (st : FwSt) : ∃ x, l.shows st = { l with fw := x } := by
  unfold Life.shows
  split <;> exact ⟨_, rfl⟩

theorem Life.shows_load (l : Life) (st : FwSt) : (l.shows st).load = l.load := by
  obtain ⟨x, hx⟩ := l.shows_eq st
  rw [hx]

theorem Life.shows_staged (l : Life) (st : FwSt) : (l.shows st).staged = l.staged := by
  obtain ⟨x, hx⟩ := l.shows_eq st
  rw [hx]

theorem Life.shows_lastFw (l : Life) (st : FwSt) : (l.shows st).lastFw = l.lastFw := by
  obtain ⟨x, hx⟩ := l.shows_eq st
  rw [hx]

/-- A chunk touches the load, the staging area, the state shown and the last status; nothing else. -/
def State.FwOnly (s t : State) : Prop := ∃ (a : Option Load) (b : Option Staged) (c : Nat) (x : FwSt), t = s.onLife (fun l => { l with
  load := a, staged := b, lastFw := c, fw := x })

theorem State.chunkBegun_fwOnly (s : State) (d : Desc) : s.FwOnly (s.chunkBegun d) := by
  unfold State.chunkBegun
  split
  · exact ⟨_, _, _, _, rfl⟩
  · exact ⟨_, _, _, _, rfl⟩

theorem State.FwOnly.trans (h : s.FwOnly t) (h' : t.FwOnly u) : s.FwOnly u := by
  obtain ⟨a, b, c, x, rfl⟩ := h
  obtain ⟨a', b', c', x', rfl⟩ := h'
  exact ⟨a', b', c', x', rfl⟩

theorem State.FwOnly.shown (h : s.FwOnly t) {f : Life → Life} (st : FwSt) (hf : ∃ a b c, f t.life = { t.life with load := a, staged := b, lastFw := c }) :
    s.FwOnly (t.onLife (fun l => (f l).shows st)) := by
  obtain ⟨a, b, c, hf⟩ := hf
  obtain ⟨x, hx⟩ := (f t.life).shows_eq st
  refine h.trans ⟨a, b, c, x, ?_⟩
  unfold State.onLife
  dsimp only
  rw [hx, hf]

theorem firmwareChunk_of_error {b : Nat} (h : takeChunk s.life.load 4096 62914560 d = .error b) : firmwareChunk sig s d =
    fwVerdict ((s.chunkBegun d).onLife (fun l => Life.shows { l with load := none } .nothing)) St.fieldRange b := by
  rw [← s.chunkBegun_load d] at h
  unfold State.chunkBegun at h ⊢
  unfold firmwareChunk
  dsimp only
  rw [h]
  rfl

theorem firmwareChunk_of_more {l : Load} (h : takeChunk s.life.load 4096 62914560 d = .ok (l, false)) : firmwareChunk sig s d =
    .accept 0 false [] ((s.chunkBegun d).onLife (fun x => Life.shows { x with load := some l, lastFw := 0 } .loading)) := by
  rw [← s.chunkBegun_load d] at h
  unfold State.chunkBegun at h ⊢
  unfold firmwareChunk
  dsimp only
  rw [h]
  rfl

section
variable {l : Load} (h : takeChunk s.life.load 4096 62914560 d = .ok (l, true))
include h

theorem firmwareChunk_of_judged {st : Nat} (hj : s.judgeFirmware l.bytes sig = some st) : firmwareChunk sig s d =
    fwVerdict ((s.chunkBegun d).onLife (fun x => Life.shows { x with load := none } .nothing)) st 0 := by
  rw [← s.chunkBegun_load d] at h
  rw [← s.chunkBegun_judge d] at hj
  unfold State.chunkBegun at h hj ⊢
  unfold firmwareChunk
  dsimp only
  rw [h]
  dsimp only
  rw [hj]
  rfl

theorem firmwareChunk_of_staged (hj : s.judgeFirmware l.bytes sig = none) : firmwareChunk sig s d = .accept 0 false []
    ((s.chunkBegun d).onLife (fun x => Life.shows { x with load := none, staged := some (stagedOf l.bytes), lastFw := 0 } .staged)) := by
  rw [← s.chunkBegun_load d] at h
  rw [← s.chunkBegun_judge d] at hj
  unfold State.chunkBegun at h hj ⊢
  unfold firmwareChunk
  dsimp only
  rw [h]
  dsimp only
  rw [hj]
  rfl

end

/-- A chunk is taken or refused, and only the firmware's own fields have changed. -/
theorem firmwareChunk_cases (sig : Bool) (s : State) (d : Desc) : ∃ u, s.FwOnly u ∧
    ((∃ st det, firmwareChunk sig s d = .refuseAs st det u) ∨ firmwareChunk sig s d = .accept 0 false [] u) := by
  have hbegun := s.chunkBegun_fwOnly d
  have hrefused (st det : Nat) : s.FwOnly (((s.chunkBegun d).onLife (fun x => Life.shows { x with load := none } .nothing)).onLife
      (fun l => { l with lastFw := st })) :=
    (hbegun.shown .nothing ⟨_, _, _, rfl⟩).trans ⟨_, _, _, _, rfl⟩
  rcases h : takeChunk s.life.load 4096 62914560 d with b | ⟨l, _ | _⟩
  · exact ⟨_, hrefused St.fieldRange b, .inl ⟨_, _, firmwareChunk_of_error h⟩⟩
  · exact ⟨_, hbegun.shown .loading ⟨_, _, _, rfl⟩, .inr (firmwareChunk_of_more h)⟩
  · rcases hj : s.judgeFirmware l.bytes sig with _ | st
    · exact ⟨_, hbegun.shown .staged ⟨_, _, _, rfl⟩, .inr (firmwareChunk_of_staged h hj)⟩
    · exact ⟨_, hrefused st 0, .inl ⟨_, _, firmwareChunk_of_judged h hj⟩⟩

theorem State.ends_same (s : State) (q need flags : Nat) (resp : List Byte) {p : Part} (hp : p ∉ [Part.host, .rec_, .out]) :
    p.same s (s.ends q need flags resp) := by
  have head := Part.may_among_head
  have tail := Part.may_among_tail
  exact (State.ends_holds (R := false) (.refl nofun)).same_of_not_mem hp

theorem State.refuses_same (s : State) (q status detail : Nat) {p : Part} (hp : p ∉ [Part.host, .rec_, .out]) :
    p.same s (s.refuses q status detail) := by
  have head := Part.may_among_head
  have tail := Part.may_among_tail
  exact (State.refuses_holds (R := false) (.refl nofun)).same_of_not_mem hp

theorem State.FwOnly.keeps (h : s.FwOnly t) : t.life.verRun = s.life.verRun ∧ t.life.slotOk = s.life.slotOk ∧ t.gate = s.gate ∧ t.loop = s.loop := by
  obtain ⟨a, b, c, x, rfl⟩ := h
  exact ⟨rfl, rfl, rfl, rfl⟩

theorem State.FwOnly.keeps_of_same (h : s.FwOnly t) (hsame : ∀ {p : Part}, p ∉ [Part.host, .rec_, .out] → p.same t u) :
    u.life.verRun = s.life.verRun ∧ u.life.slotOk = s.life.slotOk ∧ u.gate = s.gate ∧ u.loop = s.loop := by
  have hlife : u.life = t.life := hsame (p := .life) (by decide)
  have hgate : u.gate = t.gate := hsame (p := .gate) (by decide)
  have hloop : u.loop = t.loop := hsame (p := .loop) (by decide)
  rw [hlife, hgate, hloop]
  exact h.keeps

theorem execFirmwareLoadChunk_of_turn {q : Fin 32} (h : s.LoadTurn q 7 0x82 d) : ∃ t, execFirmwareLoadChunk q sig s = .next t
    ∧ t.life.verRun = s.life.verRun ∧ t.life.slotOk = s.life.slotOk ∧ t.gate = s.gate ∧ t.loop = s.loop := by
  obtain ⟨u, hu, ⟨st, det, hv⟩ | hv⟩ := firmwareChunk_cases sig s d
  · exact ⟨_, congrArg Host.Outcome.next (loadRow_refuseAs h hv), hu.keeps_of_same (fun hp => u.refuses_same _ _ _ hp)⟩
  · exact ⟨_, congrArg Host.Outcome.next (loadRow_done h hv), hu.keeps_of_same (fun hp => u.ends_same _ _ _ _ hp)⟩

/-! ### The judgement of an image -/

section
variable {b : List Byte} (hh : fwHeaderOk b = true)
include hh

theorem State.judgeFirmware_unsigned : s.judgeFirmware b false = some St.fwSignature := by
  unfold State.judgeFirmware
  rw [hh]
  rfl

theorem State.judgeFirmware_hardware (hw : byteAt b 7 / 2 ^ s.life.lineage.toNat % 2 = 0) : s.judgeFirmware b true = some St.fwHardware := by
  unfold State.judgeFirmware
  rw [hh, if_neg (by decide), if_neg (by decide), if_pos hw]

theorem State.judgeFirmware_level {e : SiteEntry} (hw : byteAt b 7 / 2 ^ s.life.lineage.toNat % 2 = 1) (he : s.siteEntry s.chain.addr = some e)
    (hl : byteAt b 6 < e.level) : s.judgeFirmware b true = some St.fwLevel := by
  unfold State.judgeFirmware
  rw [hh, if_neg (by decide), if_neg (by decide), if_neg (by omega), he]
  exact if_pos hl

end

/-! ### INSTALL and ACTIVATE (R464 to R467) -/

theorem installOp_of_none (h : t.life.staged = none) : installOp t d = fwVerdict t St.fwState 0 := by
  unfold installOp
  rw [h]

section
variable {i : Staged} (hi : t.life.staged = some i) (hidle : t.life.fwIdle = true) (hl : d.body.length = 32)
include hi hidle hl

theorem installOp_of_staged (hd : BitVec.ofNat 256 (beAt d.body 0 32) = i.digest) : installOp t d = .accept 0 false [] (t.onLife (fun l => { l with
    fw := .installing, progress := 0, verSlot := i.version, slotOk := false, slotNew := false, lastFw := 0 })) := by
  unfold installOp
  rw [hi]
  dsimp only
  rw [hidle, if_neg (by decide), if_neg (not_not_intro hl), if_neg (not_not_intro hd)]

theorem installOp_of_other (hd : BitVec.ofNat 256 (beAt d.body 0 32) ≠ i.digest) : installOp t d = fwVerdict t St.fwNotStaged 0 := by
  unfold installOp
  rw [hi]
  dsimp only
  rw [hidle, if_neg (by decide), if_neg (not_not_intro hl), if_pos hd]

end

/-- The slot holds the whole new image. -/
def State.installed (s : State) : State :=
  (s.onLife (fun l => { l with fw := .installed, progress := 100, slotOk := true, slotNew := true })).raise Ev.fwInstalled [s.life.verSlot.toNat]

theorem execInstallDone_of_written (hf : s.life.fw = .installing) (hb : s.nvmBarred = false) : execInstallDone s =
    .next (if s.life.phase = .recovery then (s.installed.onLife (fun l => { l with recNext := 0 })).beginStart s.time.rateValid
      else s.installed) := by
  refine congrArg Host.Outcome.next (if_neg ?_)
  rw [hb]
  simp [hf]

theorem State.flushEvents_life (s : State) : s.flushEvents.life = s.life := by
  have head := Part.may_among_head
  have tail := Part.may_among_tail
  exact (State.flushEvents_holds (R := false) (.refl nofun)).same_of_not_mem (l := [Part.host, .plant, .rec_, .out]) (q := .life) (by decide)

/-- A start with a new image in its slot. -/
theorem State.installed_starts (s : State) (osc : Bool) :
    ((s.installed.onLife (fun l => { l with recNext := 0 })).beginStart osc).life.phase = .held
    ∧ ((s.installed.onLife (fun l => { l with recNext := 0 })).beginStart osc).life.slotOk = true
    ∧ ((s.installed.onLife (fun l => { l with recNext := 0 })).beginStart osc).life.slotNew = true := by
  obtain ⟨n, hn⟩ := (s.installed.onLife (fun l => { l with recNext := 0 })).beginStart_life osc
  rw [hn, State.flushEvents_life]
  exact ⟨rfl, rfl, rfl⟩

theorem activateOp_of_idle (hn : t.life.slotNew = true) (hidle : t.life.fwIdle = true) : activateOp t d =
    if t.isPair && !t.isJoined then fwVerdict t St.fwPartner 0
    else .accept 0 false [] (t.onLife (fun l => { l with actDue := true, fw := .activating, progress := 0, lastFw := 0 })) := by
  unfold activateOp
  rw [hn, hidle, if_neg (by decide)]

theorem activateOp_of_busy (h : t.life.slotNew = false ∨ t.life.fwIdle = false) : activateOp t d = fwVerdict t St.fwState 0 := by
  refine if_pos ?_
  obtain h | h := h
  · rw [h]
    rfl
  · rw [h]
    exact Bool.or_true _

/-! ### The steps of an activation (R467, Table 18.6) -/

theorem State.activationStop_same (s : State) (e : Nat) {q : Part} (hq : q ∉ [Part.fabric, .est, .prog, .plant, .rec_, .out]) :
    q.same s (s.activationStop e) := by
  have head := Part.may_among_head
  have tail := Part.may_among_tail
  exact (State.activationStop_holds (R := false) (.refl nofun)).same_of_not_mem hq

theorem State.linkStart_time (s : State) : s.linkStart.time = s.time := rfl

theorem State.partsFirmware_same (s : State) {q : Part} (hq : q ∉ [Part.ring, .rec_, .out]) : q.same s s.partsFirmware := by
  have head := Part.may_among_head
  have tail := Part.may_among_tail
  exact (State.partsFirmware_holds (R := false) (.refl nofun)).same_of_not_mem hq

/-- The new image runs; its link start and its probation begin. -/
def State.activated (t : State) : State :=
  (t.partsFirmware.linkStart).onLife (fun l => { l with act := .linkStart, fw := .probation, probation := true, probationAt := t.now })

theorem State.activated_does (t : State) : t.activated.life.act = .linkStart ∧ t.activated.life.fw = .probation ∧ t.activated.life.probation = true
    ∧ t.activated.life.probationAt = t.activated.now ∧ t.activated.gate.stage = .off := by
  have hended : ∀ (u : State) (f : Life → Life), (u.onLife f).time = u.time := fun _ _ => rfl
  have htime : t.activated.time = t.time :=
    (hended _ _).trans (t.partsFirmware.linkStart_time.trans (t.partsFirmware_same (q := .time) (by decide)))
  exact ⟨rfl, rfl, rfl, (State.now_of_time _ htime).symm, rfl⟩

theorem execActivationReloadDone_of_reloading (h : s.life.act = .reloading) : ∃ t : State, execActivationReloadDone s = .next t.activated := by
  unfold execActivationReloadDone
  rw [h]
  exact ⟨_, rfl⟩

/-- The new image is loaded: no engine has stopped for it yet. -/
def State.imageTaken (s : State) (i : ImageHead) : State := s.onLife (fun l => { l with
  act := .reloading, verRun := l.verSlot, blHighest := i.highest.toNat, parts := i.parts, slotNew := false, pendingFw := true })

theorem execActivationImageChecked_of_checking (h : s.life.act = .checking) (i : ImageHead) : execActivationImageChecked i s =
    .next (activationEngines.foldl State.activationStop (s.imageTaken i)) := by
  unfold execActivationImageChecked
  rw [h]
  rfl

theorem execActivationImageChecked_of_other (h : s.life.act ≠ .checking) (i : ImageHead) : execActivationImageChecked i s = .next s := by
  unfold execActivationImageChecked
  split
  · contradiction
  · rfl

/-- 25 s of service without an engine fault. -/
def State.proved (t : State) : State :=
  ((t.onLife (fun l => { l with probation := false, act := .none, fw := .nothing, progress := 100 })).onGate
    (fun g => { g with blocked := false })).raise Ev.fwActivated [t.life.verRun.toNat]

theorem execProbationEnd_of_probation (hp : s.life.probation = true) (hs : s.isPair = false) (hi : s.inService = true) :
    execProbationEnd s = .next (s.advance (s.life.probationAt + 25000000000)).proved := by
  refine congrArg Host.Outcome.next (if_neg ?_)
  rw [hp, hs, hi]
  decide

theorem State.proved_does (t : State) : t.proved.life.probation = false ∧ t.proved.life.fw = .nothing ∧ t.proved.gate.blocked = false
    ∧ t.proved.now = t.now ∧ t.proved.Saw Ev.fwActivated [t.life.verRun.toNat] :=
  ⟨rfl, rfl, rfl, State.now_of_time _ rfl, State.raise_saw ..⟩

/-! ### Keys (R471 to R473) -/

section
variable (hg : (storeEmpty t.host.keys && !t.life.guard_) = false) (hl : d.body.length = 1152) (hk : keyBadByte d.body = none)
include hg hl hk

theorem keysOp_of_permitted (hp : keysPermitted t.host.keys (keyEntries d.body) = true) : keysOp t d =
    .accept 0 ((t.onLife (fun l => { l with lastFw := 0 })).acceptBoth d.cmd).2 [] ((t.onLife (fun l => { l with lastFw := 0 })).acceptBoth d.cmd).1 := by
  unfold keysOp
  rw [hg, if_neg Bool.false_ne_true, if_neg (not_not_intro hl), hk]
  exact if_pos hp

theorem keysOp_of_forbidden (hp : keysPermitted t.host.keys (keyEntries d.body) = false) : keysOp t d = fwVerdict t St.keySlot 0 := by
  unfold keysOp
  rw [hg, if_neg Bool.false_ne_true, if_neg (not_not_intro hl), hk]
  exact if_neg (by rw [hp]; exact Bool.false_ne_true)

end

theorem keysOp_of_unguarded (he : storeEmpty t.host.keys = true) (hg : t.life.guard_ = false) : keysOp t d = fwVerdict t St.fwState 0 := by
  refine if_pos ?_
  rw [he, hg]
  rfl

theorem State.putKey_of_change {n : Nat} {k : KeySlot} (h0 : k.st ≠ 0) (hne : k.st ≠ (s.host.keys.getD n ⟨0, 0, 0, 0, 0⟩).st) : s.putKey n k =
    (s.onHost (fun h => { h with keys := h.keys.set n { k with nonce := (s.host.keys.getD n ⟨0, 0, 0, 0, 0⟩).nonce } })).raise
      (if k.st = 1 then Ev.keyWritten else Ev.keyRevoked) [n, k.role] :=
  if_neg (not_or.mpr ⟨h0, hne⟩)

theorem KeySlot.mayBecome_of_used {a b : KeySlot} (ha : a.st ≠ 0) (h : a.mayBecome b = true) :
    b.role = a.role ∧ b.x = a.x ∧ b.y = a.y ∧ (a.st = 2 → b.st = 2) := by
  unfold KeySlot.mayBecome at h
  by_cases heq : a.st = b.st
  · rw [if_pos heq, Bool.or_eq_true_iff, beq_iff_eq, decide_eq_true_iff] at h
    obtain h | ⟨hrole, hx, hy⟩ := h
    · exact absurd h ha
    · exact ⟨hrole.symm, hx.symm, hy.symm, fun h2 => heq ▸ h2⟩
  · rw [if_neg heq, Bool.or_eq_true_iff, decide_eq_true_iff, decide_eq_true_iff] at h
    obtain ⟨h, -⟩ | ⟨-, h2, hrole, hx, hy⟩ := h
    · exact absurd h ha
    · exact ⟨hrole.symm, hx.symm, hy.symm, fun _ => h2⟩

/-! ### The service port (R477) -/

theorem svcGood_iff (m : List Byte) : svcGood m = true ↔ (leAt m 0 2 = 0x5653 ∧ byteAt m 3 = 0 ∧ 16 + leAt m 4 4 = m.length
    ∧ leAt m 4 4 ≤ 16777312) ∧ leAt m 12 4 = crc32c (m.take 12 ++ m.drop 16) := by
  unfold svcGood
  rw [Bool.and_eq_true_iff, decide_eq_true_iff, decide_eq_true_iff]

theorem State.svcTakes_of_recovery (hp : s.life.phase = .recovery) {op a0 : Nat} (hop : op ≠ 0x82) (ha : op ≠ 0x70 ∨ a0 ≠ 1) :
    s.svcTakes op a0 = false := by
  unfold State.svcTakes
  rw [hp]
  have hno : ¬ (op = 0x82 ∨ (op = 0x70 ∧ a0 = 1)) := by omega
  rw [decide_eq_false hno]
  rfl

theorem State.svcRequest_of_recovery (hp : s.life.phase = .recovery) (tag : Nat) (hop : d.opcode ≠ 0x82) (ha : d.opcode ≠ 0x70 ∨ d.argByte 0 ≠ 1) :
    s.svcRequest tag d sig = s.svcAnswer tag d St.opcode 0 0 0 [] := by
  have htakes : s.svcTakes d.opcode.toNat (d.argByte 0) = false :=
    State.svcTakes_of_recovery hp (fun h => hop (BitVec.eq_of_toNat_eq h)) (ha.imp_left (fun h h' => h (BitVec.eq_of_toNat_eq h')))
  unfold State.svcRequest
  dsimp only
  rw [htakes, if_neg Bool.false_ne_true]

section
variable {f g c : Word} {b m : List Byte} (hm : m = svcHeard f g c b)
include hm

theorem execSvcMessage_of_bad (h : svcGood m = false ∨ s.life.phase = .off) : execSvcMessage f g c b sig s = .next s := by
  subst hm
  refine congrArg Host.Outcome.next (if_pos (h.imp_left fun hbad => ?_))
  rw [hbad]
  rfl

theorem execSvcMessage_of_good (h : svcGood m = true) (hp : s.life.phase ≠ .off) : execSvcMessage f g c b sig s =
    .next (if byteAt m 2 = 1 then s.svcRequest (leAt m 8 4) (svcDesc m sig) sig
      else if byteAt m 2 = 4 ∧ s.mayRecover then s.recover 4 else s) := by
  subst hm
  refine congrArg Host.Outcome.next (if_neg (not_or.mpr ⟨?_, hp⟩))
  rw [h]
  decide

end

/-- Settles O53: a chunk by the order of its checks, the host's operations by their own, an activation by its steps. -/
theorem firmwareCommands : Obligations.FirmwareCommands := by
  unfold Obligations.FirmwareCommands
  refine ⟨?_, ?_, ?_, ?_, ?_, ?_, ?_, ?_, ?_, ?_, ?_, ?_, ?_, ?_, ?_, ?_, ?_, ?_, ?_, ?_, ?_, ?_, ?_, ?_, ?_, ?_, ?_, ?_, ?_, ?_, ?_⟩
  · exact fun s q sig d h => execFirmwareLoadChunk_of_turn h
  · intro s d sig l st hfirst h hj
    refine ⟨_, firmwareChunk_of_judged h hj, rfl, ?_⟩
    rw [State.chunkBegun_of_later hfirst]
    exact ⟨Life.shows_load .., Life.shows_staged ..⟩
  · intro s d sig l h hj
    exact ⟨_, firmwareChunk_of_staged h hj, Life.shows_staged .., Life.shows_load .., Life.shows_lastFw ..⟩
  · exact fun s b hh => State.judgeFirmware_unsigned hh
  · exact fun s b hh hw => State.judgeFirmware_hardware hh hw
  · exact fun s b e hh hw he hl => State.judgeFirmware_level hh hw he hl
  · exact fun s t q d i h hi hidle hl hd => congrArg Host.Outcome.next (hostRow_done h (installOp_of_staged hi hidle hl hd) (.inl rfl))
  · exact fun s t q d h hn => congrArg Host.Outcome.next (hostRow_refuseAs h (installOp_of_none hn))
  · exact fun s t q d i h hi hidle hl hd => congrArg Host.Outcome.next (hostRow_refuseAs h (installOp_of_other hi hidle hl hd))
  · intro s hf hb hp
    exact ⟨_, (execInstallDone_of_written hf hb).trans (congrArg Host.Outcome.next (if_neg hp)), rfl, rfl, rfl, rfl, State.raise_saw ..⟩
  · intro s hf hb hp
    exact ⟨_, (execInstallDone_of_written hf hb).trans (congrArg Host.Outcome.next (if_pos hp)), s.installed_starts _⟩
  · exact fun s hb => ⟨_, congrArg Host.Outcome.next (if_pos (.inr hb)), rfl⟩
  · intro s t q d h hn hidle hp
    exact congrArg Host.Outcome.next (hostRow_done h ((activateOp_of_idle hn hidle).trans (if_neg (by rw [hp]; exact Bool.false_ne_true))) (.inl rfl))
  · exact fun s t q d h hbusy => congrArg Host.Outcome.next (hostRow_refuseAs h (activateOp_of_busy hbusy))
  · intro s t q d h hn hidle hp hj
    exact congrArg Host.Outcome.next (hostRow_refuseAs h ((activateOp_of_idle hn hidle).trans (if_pos (by rw [hp, hj]; rfl))))
  · exact fun s t q d h => congrArg Host.Outcome.next (hostRow_done h (own := restartOp) rfl (.inl rfl))
  · intro s i h
    have hlife := State.foldl_keeps (g := State.life) (fun u e => u.activationStop_same e (q := .life) (by decide)) activationEngines (s.imageTaken i)
    refine ⟨_, execActivationImageChecked_of_checking h i, ?_, ?_, ?_, ?_, ?_, ?_⟩
    · exact congrArg Life.act hlife
    · exact congrArg Life.verRun hlife
    · exact congrArg Life.slotNew hlife
    · exact State.foldl_keeps (g := State.safety) (fun u e => u.activationStop_same e (q := .safety) (by decide)) activationEngines (s.imageTaken i)
    · exact State.foldl_keeps (g := State.therm) (fun u e => u.activationStop_same e (q := .therm) (by decide)) activationEngines (s.imageTaken i)
    · exact State.foldl_keeps (g := State.ring) (fun u e => u.activationStop_same e (q := .ring) (by decide)) activationEngines (s.imageTaken i)
  · exact fun s i h => ⟨_, execActivationImageChecked_of_other h i, rfl⟩
  · intro s h
    obtain ⟨t, ht⟩ := execActivationReloadDone_of_reloading h
    exact ⟨_, ht, t.activated_does⟩
  · intro s hp hs hi
    refine ⟨_, execProbationEnd_of_probation hp hs hi, ?_⟩
    have hdone := (s.advance (s.life.probationAt + 25000000000)).proved_does
    rwa [State.advance_life] at hdone
  · exact fun s hp => ⟨_, congrArg Host.Outcome.next (if_pos (by rw [hp]; rfl)), rfl⟩
  · intro s t q d h hg hl hk hp ha
    have hsilent : ((t.onLife (fun l => { l with lastFw := 0 })).acceptBoth d.cmd).2 = false := congrArg Prod.snd (if_pos ha)
    have hrow := hostRow_silent h (keysOp_of_permitted hg hl hk hp)
    rw [hsilent] at hrow
    exact congrArg Host.Outcome.next hrow
  · exact fun s t q d h hg hl hk hp => congrArg Host.Outcome.next (hostRow_refuseAs h (keysOp_of_forbidden hg hl hk hp))
  · exact fun s t q d h he hg => congrArg Host.Outcome.next (hostRow_refuseAs h (keysOp_of_unguarded he hg))
  · intro s n k hn h0 hne
    rw [State.putKey_of_change h0 hne]
    exact ⟨getD_set_self hn, State.raise_saw ..⟩
  · exact fun a b ha h => KeySlot.mayBecome_of_used ha h
  · exact fun s f g c b m sig hm h => ⟨_, execSvcMessage_of_bad hm h, rfl⟩
  · intro m h
    rw [Bool.eq_false_iff]
    intro hgood
    obtain ⟨⟨hmagic, hzero, hlen, -⟩, hcheck⟩ := (svcGood_iff m).mp hgood
    obtain h | h | h | h := h
    · exact h hmagic
    · exact h hzero
    · exact h hlen
    · exact h hcheck
  · exact fun s f g c b m sig hm h hp hk => ⟨_, (execSvcMessage_of_good hm h hp).trans (congrArg Host.Outcome.next (if_pos hk)), rfl⟩
  · exact fun s tag d sig hp hop ha => State.svcRequest_of_recovery hp tag hop ha
  · intro s f g c b m sig hm h hp hk hmay
    refine ⟨_, (execSvcMessage_of_good hm h hp).trans (congrArg Host.Outcome.next ?_), rfl⟩
    rw [if_neg (by omega), if_pos ⟨hk, hmay⟩]

end

end Sys2Proof.Machine
end

section
/-! PROOFS. Reads of the registers (19 R478, R485): the reset values of Table 19.11, and a read off the register grid. -/
namespace Sys2Proof.Machine

/-! ### The reset values -/

/-- Every register of a row but DEV_ID reads the row's reset value in the state after reset. -/
def RegRow.readsReset (r : RegRow) : Bool :=
  (List.range r.count).all (fun i => decide (r.base + 4 * i = Reg.devId) || decide (State.reset.regWord (r.base + 4 * i) = r.reset))

theorem regRows0_readReset : regRows0.all RegRow.readsReset = true := by decide +kernel

theorem regRows1_readReset : regRows1.all RegRow.readsReset = true := by decide +kernel

theorem regRows2_readReset : regRows2.all RegRow.readsReset = true := by decide +kernel

theorem regRows3_readReset : regRows3.all RegRow.readsReset = true := by decide +kernel

theorem regRows4_readReset : regRows4.all RegRow.readsReset = true := by decide +kernel

theorem regRows_readReset {r : RegRow} (h : r ∈ regRows) : r.readsReset = true := by
  unfold regRows at h
  simp only [List.mem_append] at h
  obtain (((h | h) | h) | h) | h := h
  · exact List.all_eq_true.mp regRows0_readReset r h
  · exact List.all_eq_true.mp regRows1_readReset r h
  · exact List.all_eq_true.mp regRows2_readReset r h
  · exact List.all_eq_true.mp regRows3_readReset r h
  · exact List.all_eq_true.mp regRows4_readReset r h

theorem regRows_aligned {r : RegRow} (h : r ∈ regRows) : r.base % 4 = 0 :=
  of_decide_eq_true (List.all_eq_true.mp (by decide : regRows.all (fun r => decide (r.base % 4 = 0)) = true) r h)

/-- An offset lies in a row as one of the row's registers. -/
theorem rowOf_some {off : Nat} {r : RegRow} (h : rowOf off = some r) : r ∈ regRows ∧ ∃ i, i < r.count ∧ off = r.base + 4 * i := by
  unfold rowOf at h
  split at h
  · next hoff =>
    have hmem := List.mem_of_find?_eq_some h
    have hin : decide (r.base ≤ off ∧ off < r.base + 4 * r.count) = true :=
      List.find?_some (p := fun r : RegRow => decide (r.base ≤ off ∧ off < r.base + 4 * r.count)) h
    obtain ⟨hlo, hhi⟩ := of_decide_eq_true hin
    have hbase := regRows_aligned hmem
    exact ⟨hmem, (off - r.base) / 4, by omega, by omega⟩
  · contradiction

theorem State.reset_regWord {off : Nat} {r : RegRow} (h : rowOf off = some r) (hd : off ≠ Reg.devId) : State.reset.regWord off = r.reset := by
  obtain ⟨hmem, i, hi, rfl⟩ := rowOf_some h
  have hread := List.all_eq_true.mp (regRows_readReset hmem) i (List.mem_range.mpr hi)
  rw [Bool.or_eq_true_iff, decide_eq_true_iff, decide_eq_true_iff] at hread
  exact hread.resolve_left hd

theorem State.reset_devId : State.reset.regWord Reg.devId = 0x5120 := by decide +kernel

theorem State.reset_outsOpen : State.reset.safety.outs.all (fun o => !o.hi && !o.lo) = true := by decide

theorem State.reset_recSound : State.reset.rec_.sound where
  numbers i x h := by
    have hnone : State.reset.rec_.slots[i]? = none := List.getElem?_nil
    rw [hnone] at h
    contradiction
  next h := absurd rfl h
  slots := Nat.zero_le _
  holding := Nat.zero_le _

/-- Settles O59: the registers by the rows of Table 19.11, the rest by the state after reset. -/
theorem resetState : Obligations.ResetState := by
  unfold Obligations.ResetState
  refine ⟨fun off r _ h hd => State.reset_regWord h hd, State.reset_devId, rfl, rfl, rfl, rfl, State.reset_outsOpen, State.reset_recSound⟩

/-! ### A read off the grid -/

/-- Byte 1 of the first ring's RING_STAT lies in no row of Table 19.11, whose registers stand 4 bytes apart; a read there answers the word
that holds it. -/
theorem State.reset_regWord_unaligned : rowOf 0x281 = none ∧ State.reset.regWord 0x281 = 0xE00 := by decide +kernel

/-- Refutes O56: its clause on unassigned offsets asks for 0 at every offset that is no register's own. `rowOf` gives no row to an offset that
is not a multiple of 4, but `State.roWord` answers within a group of read-only registers at every byte. -/
theorem not_commitChecks : ¬ Obligations.CommitChecks := by
  unfold Obligations.CommitChecks
  intro h
  obtain ⟨-, -, -, -, -, -, -, hunassigned, -⟩ := h
  obtain ⟨hnone, hword⟩ := State.reset_regWord_unaligned
  obtain ⟨hzero, -⟩ := hunassigned State.reset 0x281 (by decide) hnone
  exact absurd (hword.symm.trans hzero) (by decide)

end Sys2Proof.Machine
end

section
/-! PROOFS. The commit of the set-up registers (19 R478 to R483, 16 R415). -/
namespace Sys2Proof.Machine

/-! ### A register of a bank -/

theorem RegBank.get_cons (e : Nat × Word) (b : RegBank) (o : Nat) : RegBank.get (e :: b) o = if e.1 = o then e.2 else b.get o := by
  unfold RegBank.get
  rw [List.find?_cons]
  by_cases h : e.1 = o
  · rw [if_pos h, beq_iff_eq.mpr h]
  · rw [if_neg h, beq_eq_false_iff_ne.mpr h]

theorem RegBank.get_of_unlisted {b : RegBank} {o : Nat} (h : ∀ e ∈ b, e.1 ≠ o) : b.get o = regReset o := by
  induction b with
  | nil => rfl
  | cons e b ih =>
    rw [RegBank.get_cons, if_neg (h e List.mem_cons_self)]
    exact ih fun x hx => h x (List.mem_cons_of_mem _ hx)

theorem RegBank.get_put_ne {o off : Nat} (h : o ≠ off) (b : RegBank) (w : Word) : (b.put off w).get o = b.get o := by
  have hnew (b : RegBank) : RegBank.get ((off, w) :: b) o = b.get o := by rw [RegBank.get_cons, if_neg (Ne.symm h)]
  induction b with
  | nil =>
    unfold RegBank.put
    split
    · rfl
    · exact hnew []
  | cons e b ih =>
    unfold RegBank.put
    split
    · split
      · rfl
      · exact hnew (e :: b)
    · split
      · next heq =>
        have hold : RegBank.get (e :: b) o = RegBank.get b o := by rw [RegBank.get_cons, if_neg (fun he => h (he.symm.trans heq.symm))]
        rw [hold]
        split
        · rfl
        · exact hnew b
      · rw [RegBank.get_cons, RegBank.get_cons, ih]

theorem RegBank.get_put_same {b : RegBank} (h : b.wf = true) (off : Nat) (w : Word) : (b.put off w).get off = w := by
  have hnew (b : RegBank) : RegBank.get ((off, w) :: b) off = w := by rw [RegBank.get_cons, if_pos rfl]
  obtain ⟨hrise, -⟩ := b.wf_iff.mp h
  clear h
  induction b with
  | nil =>
    unfold RegBank.put
    split
    · next hw => exact hw.symm
    · exact hnew []
  | cons e b ih =>
    obtain ⟨hfirst, hrest⟩ := List.pairwise_cons.mp hrise
    unfold RegBank.put
    split
    · next hlt =>
      split
      · next hw =>
        rw [RegBank.get_of_unlisted, hw]
        intro x hx
        obtain rfl | hx := List.mem_cons.mp hx
        · omega
        · have hgt := hfirst x hx
          omega
      · exact hnew (e :: b)
    · split
      · next heq =>
        split
        · next hw =>
          rw [RegBank.get_of_unlisted, hw]
          intro x hx
          have hgt := hfirst x hx
          omega
        · exact hnew b
      · next hne =>
        rw [RegBank.get_cons, if_neg (fun he => hne he.symm)]
        exact ih hrest

theorem RegBank.get_filter (b : RegBank) (p : Nat → Bool) (o : Nat) :
    RegBank.get (b.filter (fun e => p e.1)) o = if p o then b.get o else regReset o := by
  induction b with
  | nil => exact (ite_self _).symm
  | cons e b ih =>
    rw [List.filter_cons, RegBank.get_cons]
    by_cases he : e.1 = o
    · subst he
      cases hp : p e.1
      · rw [if_neg Bool.false_ne_true, ih, hp]
        rfl
      · rw [if_pos rfl, RegBank.get_cons, if_pos rfl, if_pos rfl, if_pos rfl]
    · rw [if_neg he, ← ih]
      split
      · rw [RegBank.get_cons, if_neg he]
      · rfl

section
variable {s t : State} {p : Snapshot}

/-! ### Writes and reads (R478) -/

theorem execStagedRegisterWrite_of_bad {off : BitVec 16} {v : Word} {n : Nat} (h : n ≠ 32 ∨ off.toNat % 4 ≠ 0 ∨ 0x8000 ≤ off.toNat) :
    execStagedRegisterWrite off v n s = .next s.discardCounted :=
  congrArg Host.Outcome.next (if_pos h)

theorem execStagedRegisterWrite_of_good {off : BitVec 16} {v : Word} (h4 : off.toNat % 4 = 0) (hhi : off.toNat < 0x8000)
    (hc : off.toNat ≠ Reg.cfgCommit) : execStagedRegisterWrite off v 32 s = .next (s.stageWrite off.toNat v) :=
  congrArg Host.Outcome.next ((if_neg (by omega)).trans (if_neg hc))

theorem State.stageWrite_of_rw {off : Nat} {v : Word} {r : RegRow} (hr : rowOf off = some r) (ha : r.access = .rw) (hp : s.life.phase ≠ .recovery) :
    s.stageWrite off v = s.onSetup (fun x => { x with staged := x.staged.put off ((v &&& r.mask) ||| (r.reset &&& ~~~r.mask)) }) := by
  have hreset : regReset off = r.reset := by
    unfold regReset
    rw [hr]
  have htake (b : RegBank) : b.take (off, v) = b.put off ((v &&& r.mask) ||| (r.reset &&& ~~~r.mask)) := by
    unfold RegBank.take
    dsimp only
    rw [hr]
    dsimp only
    rw [if_pos ha, hreset]
  unfold State.stageWrite
  rw [hr]
  refine (if_pos ⟨ha, fun h => absurd h hp⟩).trans ?_
  unfold State.onSetup
  dsimp only
  rw [htake]

theorem State.stageWrite_of_other {off : Nat} {v : Word} (h : ∀ r, rowOf off = some r → r.access ≠ .rw) : s.stageWrite off v = s.discardCounted := by
  unfold State.stageWrite
  cases hr : rowOf off with
  | none => rfl
  | some r => exact if_neg fun hc => h r hr hc.1

theorem rowOf_aligned {off : Nat} {r : RegRow} (h : rowOf off = some r) : off % 4 = 0 := by
  unfold rowOf at h
  split at h
  · assumption
  · contradiction

/-! ### A refused commit -/

theorem State.commitEnds_records (s : State) (p : Snapshot) (st : Nat) : s.Records (s.commitEnds p st) := by
  unfold State.commitEnds
  dsimp only
  split <;> exact .of_eq rfl rfl

theorem State.setupEnds_records (s : State) (f : Setup → Setup) (p : Snapshot) (st : Nat) : s.Records ((s.onSetup f).commitEnds p st) :=
  .trans (t := s.onSetup f) (.of_eq rfl rfl) (State.commitEnds_records ..)

theorem State.refuseCommit_does (s : State) (p : Snapshot) (f : Fail) : (∃ g, (s.refuseCommit p f).setup = { s.setup with
      cStatus := f.status, cOffset := f.offset, cDetail := f.detail, peerGo := g, pending := none, cState := 4, cTag := p.tag })
    ∧ (s.refuseCommit p f).gate = s.gate ∧ (s.refuseCommit p f).ring = s.ring
    ∧ (s.refuseCommit p f).Saw Ev.commitRefused [p.tag.toNat, f.status, f.offset, f.detail] := by
  have head := Part.may_among_head
  have tail := Part.may_among_tail
  have hsame {q : Part} (hq : q ∉ [Part.rec_, .setup, .out]) : q.same s (s.refuseCommit p f) :=
    (State.refuseCommit_holds (R := false) (.refl nofun)).same_of_not_mem hq
  refine ⟨?_, hsame (q := .gate) (by decide), hsame (q := .ring) (by decide), ?_⟩
  · unfold State.refuseCommit
    dsimp only
    rw [State.commitEnds_setup]
    split <;> exact ⟨_, rfl⟩
  · have hsaw : (s.raise Ev.commitRefused [p.tag.toNat, f.status, f.offset, f.detail]).Saw Ev.commitRefused
      [p.tag.toNat, f.status, f.offset, f.detail] := State.raise_saw ..
    unfold State.refuseCommit
    dsimp only
    split
    · exact hsaw.mono ((State.raise_records ..).trans (State.setupEnds_records ..))
    · exact hsaw.mono (State.setupEnds_records ..)

/-! ### An applied commit -/

theorem State.leaveGuard_setup (s : State) : ∃ b, s.leaveGuard.setup = { s.setup with blocksAct := b } := by
  unfold State.leaveGuard
  split
  · split
    · exact ⟨_, rfl⟩
    · split <;> exact ⟨_, rfl⟩
  · exact ⟨_, rfl⟩

theorem State.newSite_setup (s : State) (p : Snapshot) (change : Option (Nat × Nat)) :
    ∃ b, (s.newSite p change).setup = { s.setup with blocksAct := b } := by
  obtain ⟨b, hb⟩ := s.leaveGuard_setup
  have hformed : s.leaveGuard.formIdentity.setup = { s.setup with blocksAct := b } :=
    (State.formIdentity_same s.leaveGuard (q := .setup) (by decide)).trans hb
  unfold State.newSite
  dsimp only
  split
  · split
    · exact ⟨b, hformed⟩
    · exact ⟨b, hformed⟩
  · exact ⟨_, rfl⟩

theorem State.storeConfig_setup (s : State) : ∃ a b c, s.storeConfig.setup = { s.setup with stored := a, storedBlk := b, storeDue := c } := by
  unfold State.storeConfig
  split
  · exact ⟨_, _, _, rfl⟩
  · split <;> exact ⟨_, _, _, rfl⟩

/-- What follows the banks of an applied commit, before its end. -/
def State.settled (t : State) (old : RegBank) (plant : Bool) : State :=
  (((((t.newProfile old plant).newRing old).newLinks old).newPorts old).newQueues old)

theorem State.settled_setup (t : State) (old : RegBank) (plant : Bool) : (t.settled old plant).setup = t.setup := by
  have head := Part.may_among_head
  have tail := Part.may_among_tail
  have hholds := State.newQueues_holds (R := false) (M := Part.among [.fabric, .rec_, .ring, .meas, .out, .gate, .loop, .plant, .host])
    (B := t) (old := old) (State.newPorts_holds (old := old) (State.newLinks_holds (old := old) (State.newRing_holds (old := old)
      (State.newProfile_holds (old := old) (plant := plant) (.refl nofun)))))
  exact hholds.same_of_not_mem (q := .setup) (by decide)

theorem State.applyCommit_setup (s : State) (p : Snapshot) : ∃ a b c d g, (s.applyCommit p).setup = { s.setup with
    active := (s.judged p).n, blocksAct := a, blocks := s.setup.blocks.filter (fun b => !p.blocks.contains b)
    cTime := BitVec.ofNat 64 (eventOf s.sysNs), peerGo := g, stored := b, storedBlk := c, storeDue := d
    pending := none, cState := 3, cTag := p.tag } := by
  obtain ⟨a, hsite⟩ := (s.takeSnapshot p).newSite_setup p (s.levelChange p.blocks)
  have hmodel : (((s.takeSnapshot p).newSite p (s.levelChange p.blocks)).newModel s.modelBlock).setup
      = ((s.takeSnapshot p).newSite p (s.levelChange p.blocks)).setup := by
    unfold State.newModel
    split <;> rfl
  obtain ⟨b, c, d, hstore⟩ := (((s.takeSnapshot p).newSite p (s.levelChange p.blocks)).newModel s.modelBlock).storeConfig_setup
  have hend : (s.applyCommit p).setup = { ((((s.takeSnapshot p).newSite p (s.levelChange p.blocks)).newModel s.modelBlock).storeConfig).setup with
      pending := none, cState := 3, cTag := p.tag } :=
    (State.commitEnds_setup ..).trans (congrArg (fun x : Setup => { x with pending := none, cState := 3, cTag := p.tag }) (State.settled_setup ..))
  rw [hend, hstore, hmodel, hsite]
  exact ⟨a, b, c, d, _, rfl⟩

/-! ### The boundary -/

theorem execCommitApply_of_due {a : Nat} (hp : s.setup.pending = some p) (he : s.effectAt p = some a) (ha : a ≤ s.now) :
    execCommitApply s = .next s.commitDue := by
  unfold execCommitApply
  rw [hp]
  dsimp only
  rw [he, Option.getD_some, State.advance_of_le ha]

section
variable {a : Nat} (hp : s.setup.pending = some p) (he : s.effectAt p = some a) (ha : a ≤ s.now)
include hp he ha

theorem State.commitDue_of_passed (hf : (s.judged p).first = none) : s.commitDue = s.applyCommit p := by
  unfold State.commitDue
  rw [hp]
  dsimp only
  rw [he]
  dsimp only
  rw [hf]
  exact if_pos ha

theorem State.commitDue_of_failed {f : Fail} (hf : (s.judged p).first = some f) : s.commitDue = s.refuseCommit p f := by
  unfold State.commitDue
  rw [hp]
  dsimp only
  rw [he]
  dsimp only
  rw [hf]
  exact if_pos ha

end

theorem execCommitApply_of_waiting (hp : s.setup.pending = some p) (he : s.effectAt p = none) (hw : p.waitTill = none)
    (hb : s.boundaryFor p p.at_ ≤ s.now) (hf : (s.judged p).first = none) : execCommitApply s = .next (s.onSetup (fun x => { x with
      pending := some { p with waitTill := some (p.at_ + 10000000000) }, cState := 2 })) := by
  unfold execCommitApply
  rw [hp]
  dsimp only
  rw [he, Option.getD_none, State.advance_of_le hb]
  unfold State.commitDue
  rw [hp]
  dsimp only
  rw [he]
  dsimp only
  rw [hw, hf]
  exact congrArg Host.Outcome.next (if_pos ⟨rfl, hb⟩)

theorem State.effectAt_of_unmatched (hp : s.isPair = true) (ha : s.isAlone = false) (hb : p.both = true) (hg : s.setup.peerGo = none) :
    s.effectAt p = none := by
  have hmatch : s.matchOf p = none := by
    unfold State.matchOf
    rw [hg]
  unfold State.effectAt State.mustMatch
  rw [hp, ha, hb, hmatch]
  rfl

theorem State.effectAt_of_single (hp : s.isPair = false) : s.effectAt p = some (s.boundaryFor p p.at_) := by
  unfold State.effectAt State.mustMatch
  rw [hp]
  rfl

theorem State.boundaryFor_of_sameLevel (h : s.levelChange p.blocks = none) : s.boundaryFor p p.at_ = atOrAfter (p.at_ + 500000) s.baseCycle :=
  if_neg (by rw [h]; exact Bool.false_ne_true)

/-! ### Expiry (R415) -/

/-- The records of an expiry. -/
def State.expiryTold (t : State) (p : Snapshot) (select : Int) : State :=
  let u := if p.hasProfile then t.raise Ev.profileRefused [select, 1] else t
  let v := if p.hasSafety then u.raise Ev.safetyCfgExpired [] else u
  if p.hasOther then v.raise Ev.commitExpired [p.tag.toNat] else v

theorem State.expireCommit_eq {sel : Snapshot → Bool} {a : Nat} (hsel : sel p = true) (hp : s.setup.pending = some p) (hw : p.waitTill = some a)
    (he : s.effectAt p = none) (ht : s.advance a = t) :
    s.expireCommit sel = (t.expiryTold p (Fld.profileCtl_SELECT (s.judged p).n)).commitEnds p 5 := by
  unfold State.expireCommit
  rw [hp]
  dsimp only
  rw [hw]
  dsimp only
  rw [hsel, he, ht]
  rfl

theorem State.expiryTold_setup (t : State) (p : Snapshot) (n : Int) : (t.expiryTold p n).setup = t.setup := by
  unfold State.expiryTold
  cases p.hasProfile <;> cases p.hasSafety <;> cases p.hasOther <;> rfl

theorem State.expiryTold_time (t : State) (p : Snapshot) (n : Int) : (t.expiryTold p n).time = t.time := by
  unfold State.expiryTold
  cases p.hasProfile <;> cases p.hasSafety <;> cases p.hasOther <;> rfl

/-- A record that an expiry makes on a condition, and those before it. -/
theorem State.Records.raise_if {b : Bool} (h : s.Records t) (e : EvDef) (a : List Int) : s.Records (if b then t.raise e a else t) :=
  .ite (h.trans (State.raise_records ..)) h

theorem State.expiryTold_saw (t : State) (p : Snapshot) (n : Int) :
    (p.hasOther = true → (t.expiryTold p n).Saw Ev.commitExpired [p.tag.toNat]) ∧ (p.hasSafety = true → (t.expiryTold p n).Saw Ev.safetyCfgExpired [])
    ∧ (p.hasProfile = true → (t.expiryTold p n).Saw Ev.profileRefused [n, 1]) := by
  unfold State.expiryTold
  dsimp only
  refine ⟨fun h => ?_, fun h => ?_, fun h => ?_⟩
  · rw [if_pos h]
    exact State.raise_saw ..
  · rw [if_pos h]
    exact (State.raise_saw ..).mono (State.Records.raise_if (.refl _) ..)
  · rw [if_pos h]
    exact (State.raise_saw ..).mono (State.Records.raise_if (State.Records.raise_if (.refl _) ..) ..)

theorem State.expireCommit_does {sel : Snapshot → Bool} {a : Nat} (hsel : sel p = true) (hp : s.setup.pending = some p) (hw : p.waitTill = some a)
    (he : s.effectAt p = none) : (s.expireCommit sel).setup.pending = none ∧ (s.expireCommit sel).setup.cState = 5
      ∧ (s.expireCommit sel).setup.staged = s.setup.staged ∧ (s.expireCommit sel).setup.active = s.setup.active
      ∧ (s.expireCommit sel).now = (s.advance a).now ∧ (p.hasOther = true → (s.expireCommit sel).Saw Ev.commitExpired [p.tag.toNat])
      ∧ (p.hasSafety = true → (s.expireCommit sel).Saw Ev.safetyCfgExpired [])
      ∧ (p.hasProfile = true → (s.expireCommit sel).Saw Ev.profileRefused [Fld.profileCtl_SELECT (s.judged p).n, 1]) := by
  obtain ⟨hother, hsafety, hprofile⟩ := (s.advance a).expiryTold_saw p (Fld.profileCtl_SELECT (s.judged p).n)
  have hsetup := (s.advance a).expiryTold_setup p (Fld.profileCtl_SELECT (s.judged p).n)
  have htime := (s.advance a).expiryTold_time p (Fld.profileCtl_SELECT (s.judged p).n)
  rw [State.expireCommit_eq hsel hp hw he rfl, State.commitEnds_setup, State.commitEnds_now, State.now_of_time _ htime, hsetup, State.advance_setup]
  exact ⟨rfl, rfl, rfl, rfl, rfl, fun h => (hother h).mono (State.commitEnds_records ..), fun h => (hsafety h).mono (State.commitEnds_records ..),
    fun h => (hprofile h).mono (State.commitEnds_records ..)⟩

/-! ### The store (R483) -/

theorem State.storeConfig_of_open (hb : s.nvmBarred = false) (hp : s.life.phase ≠ .recovery) :
    s.storeConfig.setup.stored = s.setup.active.filter (fun e => !queueReg e.1) := by
  unfold State.storeConfig
  rw [if_neg hp, hb]
  rfl

/-- Settles O55: writes by the bank's laws, a commit at its boundary by its judgement, an expiry by its kinds. -/
theorem commitCommands : Obligations.CommitCommands := by
  unfold Obligations.CommitCommands
  refine ⟨?_, ?_, ?_, ?_, ?_, ?_, ?_, ?_, ?_, ?_, ?_, ?_, ?_, ?_, ?_⟩
  · intro s off v r hhi hc hr ha hp hwf
    refine ⟨_, (execStagedRegisterWrite_of_good (rowOf_aligned hr) hhi hc).trans (congrArg Host.Outcome.next (State.stageWrite_of_rw hr ha hp)),
      RegBank.get_put_same hwf _ _, fun o ho => RegBank.get_put_ne ho _ _, rfl⟩
  · exact fun s off v n h => ⟨_, execStagedRegisterWrite_of_bad h, rfl⟩
  · intro s off v hc hno
    by_cases h : off.toNat % 4 ≠ 0 ∨ 0x8000 ≤ off.toNat
    · exact ⟨_, execStagedRegisterWrite_of_bad (.inr h), rfl⟩
    · exact ⟨_, (execStagedRegisterWrite_of_good (by omega) (by omega) hc).trans (congrArg Host.Outcome.next (State.stageWrite_of_other hno)), rfl⟩
  · exact fun s => ⟨_, rfl, rfl, rfl⟩
  · exact fun s => ⟨_, rfl, rfl, rfl⟩
  · intro s hp
    refine ⟨s, ?_, rfl⟩
    change execCommitApply s = _
    unfold execCommitApply
    rw [hp]
  · intro s p a hp he ha hf
    obtain ⟨x, b, c, d, g, hsetup⟩ := s.applyCommit_setup p
    refine ⟨_, execCommitApply_of_due hp he ha, ?_⟩
    dsimp only
    rw [State.commitDue_of_passed hp he ha hf]
    rw [hsetup]
    exact ⟨rfl, rfl, rfl, rfl, rfl, rfl⟩
  · intro s p a f hp he ha hf
    obtain ⟨⟨g, hsetup⟩, hgate, hring, hsaw⟩ := s.refuseCommit_does p f
    refine ⟨_, execCommitApply_of_due hp he ha, ?_⟩
    dsimp only
    rw [State.commitDue_of_failed hp he ha hf]
    rw [hsetup]
    exact ⟨rfl, rfl, rfl, rfl, rfl, rfl, rfl, rfl, rfl, hgate, hring, hsaw⟩
  · exact fun s p hp he hw hb hf => ⟨_, execCommitApply_of_waiting hp he hw hb hf, rfl⟩
  · exact fun s p hp ha hb hg => State.effectAt_of_unmatched hp ha hb hg
  · exact fun s p hp => State.effectAt_of_single hp
  · exact fun s p h => State.boundaryFor_of_sameLevel h
  · intro s p a c hc hp hw he
    obtain ⟨rfl, hsel⟩ | ⟨rfl, hsel⟩ | ⟨rfl, hsel⟩ := hc
    · exact ⟨_, rfl, State.expireCommit_does hsel hp hw he⟩
    · exact ⟨_, rfl, State.expireCommit_does hsel hp hw he⟩
    · exact ⟨_, rfl, State.expireCommit_does hsel hp hw he⟩
  · intro s hb hp
    rw [State.storeConfig_of_open hb hp]
    have hget (o : Nat) : RegBank.get (s.setup.active.filter (fun e => !queueReg e.1)) o = if !queueReg o then s.setup.active.get o else regReset o :=
      s.setup.active.get_filter (fun o => !queueReg o) o
    refine ⟨fun o hlo hhi => (hget o).trans ?_, fun o ho => (hget o).trans ?_⟩
    · have hq : queueReg o = true := decide_eq_true ⟨hlo, hhi⟩
      rw [hq]
      rfl
    · have hq : queueReg o = false := decide_eq_false (by omega)
      rw [hq]
      rfl
  · intro s hb hp
    unfold State.storeConfig
    rw [if_neg hp, hb]
    exact ⟨rfl, rfl⟩

end

end Sys2Proof.Machine
end
